-- ==== Sys2Proof/Word.lean ====
section
/-!
DEFINITION. The plain word types of the block: register words, bytes and the 64-bit counter.
-/
namespace Sys2Proof

/-- A register word (R355: a register access is one aligned 32-bit word); also a signal value in Q1.31 (R7). -/
abbrev Word := BitVec 32

/-- A byte of memory, of a frame or of an image. -/
abbrev Byte := BitVec 8

/-- A 64-bit quantity (the time-base counter, R93). -/
abbrev DWord := BitVec 64

end Sys2Proof
end

