-- ==== Sys2Proof/Machine/Tbl.lean ====
section
/-!
DEFINITION. Tables: lists of (key, value) pairs in strictly rising key order, the one container of the state's sparse
parts (registers, memory, signals, per-instance records), and the canonical form in which no listed value equals what
an unlisted key reads as.
-/
namespace Sys2Proof.Machine

/-- A table keyed by numbers. -/
abbrev Tbl (α : Type) := List (Nat × α)

/-- The value at a key, `d` when the key is not listed. -/
def Tbl.getD {α : Type} (d : α) : Tbl α → Nat → α
  | [], _ => d
  | (k', v) :: t, k => if k' = k then v else Tbl.getD d t k

/-- The value at a key, if listed. -/
def Tbl.get? {α : Type} : Tbl α → Nat → Option α
  | [], _ => none
  | (k', v) :: t, k => if k' = k then some v else Tbl.get? t k

/-- List a value at a key, keeping the order of keys. -/
def Tbl.put {α : Type} (k : Nat) (v : α) : Tbl α → Tbl α
  | [] => [(k, v)]
  | (k', v') :: t =>
    if k' = k then (k, v) :: t
    else if k < k' then (k, v) :: (k', v') :: t
    else (k', v') :: Tbl.put k v t

/-- Take a key off the list. -/
def Tbl.del {α : Type} (k : Nat) (t : Tbl α) : Tbl α := t.filter (fun e => decide (e.1 ≠ k))

/-- Write a value in canonical form: a value equal to what an unlisted key reads as leaves no entry. -/
def Tbl.set {α : Type} [DecidableEq α] (d : α) (k : Nat) (v : α) (t : Tbl α) : Tbl α :=
  if v = d then Tbl.del k t else Tbl.put k v t

/-- Apply a function to the value at a key. -/
def Tbl.upd {α : Type} (d : α) (k : Nat) (f : α → α) (t : Tbl α) : Tbl α :=
  Tbl.put k (f (Tbl.getD d t k)) t

/-- The keys, in order. -/
def Tbl.keys {α : Type} (t : Tbl α) : List Nat := t.map Prod.fst

/-- Apply a function to every listed value. -/
def Tbl.mapVals {α β : Type} (f : Nat → α → β) (t : Tbl α) : Tbl β := t.map (fun e => (e.1, f e.1 e.2))

/-- Every key of the table is above `b`, and the keys rise strictly. -/
def Tbl.risesFrom {α : Type} : Option Nat → Tbl α → Bool
  | _, [] => true
  | none, (k, _) :: t => Tbl.risesFrom (some k) t
  | some b, (k, _) :: t => decide (b < k) && Tbl.risesFrom (some k) t

/-- Keys strictly rising. -/
def Tbl.sorted {α : Type} (t : Tbl α) : Bool := Tbl.risesFrom none t

/-- The canonical form of a table whose unlisted keys read as `d k`: keys strictly rising, no entry equal to `d`. -/
def Tbl.canon {α : Type} [DecidableEq α] (d : Nat → α) (t : Tbl α) : Bool :=
  Tbl.sorted t && t.all (fun e => decide (e.2 ≠ d e.1))

/-- The i-th element of a list, or a default. -/
def nth {α : Type} (d : α) : List α → Nat → α
  | [], _ => d
  | x :: _, 0 => x
  | _ :: t, n + 1 => nth d t n

/-- Replace the i-th element of a list (nothing happens beyond its end). -/
def setNth {α : Type} : List α → Nat → α → List α
  | [], _, _ => []
  | _ :: t, 0, v => v :: t
  | x :: t, n + 1, v => x :: setNth t n v

/-- The first n naturals' fold over a state, in ascending order. -/
def foldUp {α : Type} (n : Nat) (f : α → Nat → α) (a : α) : α := (List.range n).foldl f a

end Sys2Proof.Machine
end

