-- ==== Sys2Proof/Types/Last.lean ====
section
/-!
DEFINITION. The content of a Last (R36 to R54) as records: what the load steps parse out of an image and what the
block then runs. Lists keep the image's order.
-/
namespace Sys2Proof.Machine

/-- An entry of the section table (R38). -/
structure SecEnt where
  typ : Nat
  sflags : Nat
  off : Nat
  len : Nat
  crc : Nat
deriving DecidableEq, Repr

/-- A RES entry (R41). -/
structure ResRec where
  rtype : Nat
  opt : Bool
  first : Nat
  count : Nat
deriving DecidableEq, Repr

/-- A UNIT record (R46); `kdata` holds bytes 15:8. -/
structure UnitRec where
  unit : Nat
  kind : Nat
  event : Bool
  cad : Nat
  order : Nat
  resref : Nat
  kdata : List Nat
deriving DecidableEq, Repr

/-- A TILE map record (R47): class 1 CONST, 2 WRITABLE, 3 STATE. -/
structure TileRec where
  unit : Nat
  lidx : Nat
  cls : Nat
  verify : Bool
  ptile : Nat
  img : Nat
deriving DecidableEq, Repr

/-- A CAD record (R48). -/
structure CadRec where
  mult : Nat
  phase : Nat
  waitLock : Bool
  timeout : Nat
deriving DecidableEq, Repr

/-- A dispatcher level (R49). -/
structure LevelRec where
  quota : Nat
  ringlog : Nat
  cls : Nat
  bank : Nat
deriving DecidableEq, Repr

/-- A flow (R49). -/
structure FlowRec where
  flow : Nat
  die : Nat
  level : Nat
  cluster : Nat
  bound : Nat
  resref : Nat
deriving DecidableEq, Repr

/-- A binding of an event source to a flow (R49). -/
structure BindRec where
  src : Nat
  flow : Nat
  die : Nat
deriving DecidableEq, Repr

/-- The OWN section (R50). -/
structure OwnRec where
  duplex : Bool := false
  react : Nat := 0
  resv : Nat := 4
  boostMv : Nat := 50
  hznWarn : Nat := 12
  missN : Nat := 3
  hoLead : Nat := 10
  pairWait : Nat := 20
  svcGrp : Nat := 0
  clClass : List Nat := []
  bgClass : List Nat := []
  floors : List Nat := []
  pbaseDecl : Nat := 0
  qclass : List Nat := []
  mgmtq : List Nat := []
  ptpq : List Nat := []
  burst : List (Nat × Nat) := []
  frz : List Nat := []
deriving DecidableEq, Repr

/-- A field element of a port payload (R51). -/
structure FieldEl where
  sig : Nat
  offset : Nat
  width : Nat
  fmt : Nat
  bit : Nat
deriving DecidableEq, Repr

/-- A port's gate list (R340): cycle time and phase in 10 ns, entries of gate mask and interval in 10 ns. -/
structure GateRec where
  cyc : Nat := 0
  phase : Nat := 0
  ents : List (Nat × Nat) := []
deriving DecidableEq, Repr

/-- The body of an IOMAP entry (R51). -/
inductive IoBody where
  | global (holdMax maxAge devIdx nHist streamMbps : Nat) (hist : List (Nat × Nat)) (beacon : Nat)
      (ringLen : List Nat) (spanPre spanPost : Nat)
  | ain (n : Nat) (ctl wlen : Word) (gain : List Word) (offset : Word) (sig : Nat)
  | adcBank (bank : Nat) (bankCfg chkCfg : Word) (pairs : List Word)
  | aout (ch : Nat) (cfg : Word) (sig : Nat)
  | dio (pin : Nat) (cfg : Word) (sig : Nat)
  | pwm (ch : Nat) (cfg per : Word) (safeH : Nat) (sig : Nat)
  | stepgen (g : Nat) (cfg : Word)
  | chopper (ch : Nat) (cfg cur : Word)
  | grant (unit : Nat) (addr : Nat)
  | ethTx (port queue : Nat) (repeatF hact dup : Bool) (tmpl : List Byte) (fields : List FieldEl)
  | ethRx (port ageMax : Nat) (claimChk ipMatch : Bool) (mac vlan etype ip udp : Nat) (fields : List FieldEl)
  | holField (seg dir entry : Nat) (fields : List FieldEl)
  | canField (ctl dir buf : Nat) (fields : List FieldEl)
  | safeLreq (word : Nat) (sig : Nat)
  | armgrp (gid members armLead : Nat) (locals : List (Nat × Bool))
deriving DecidableEq, Repr

/-- An IOMAP entry: its header fields and its body (R51); `cad` is `none` when bit 7 of byte 7 is set. -/
structure IoEntry where
  kind : Nat
  resref : Nat
  owner : Nat
  cad : Option Nat
  body : IoBody
deriving DecidableEq, Repr

/-- A SIGNAL record (R52): type 1 BOOL, 2 DINT, 3 Q31. -/
structure SigRec where
  id : Nat
  typ : Nat
  wclass : Nat
  noForce : Bool
  history : Bool
  ring : Nat
  engLo : Word
  engHi : Word
deriving DecidableEq, Repr

/-- A unit record of PROOF (R53). -/
structure ProofUnit where
  unit : Nat
  cad : Nat
  n : Nat
  h : Nat
  x : Nat
  a : Nat
  vreq : Nat
deriving DecidableEq, Repr

/-- A handler record of PROOF (R53). -/
structure ProofHandler where
  unit : Nat
  flow : Nat
  die : Nat
  n : Nat
  h : Nat
  x : Nat
  a : Nat
deriving DecidableEq, Repr

/-- The PROOF section (R53); a region is its V_eol in mV and W for C0 to C7. -/
structure ProofRec where
  reh : Nat := 0
  regions : List (Nat × List Nat) := []
  units : List ProofUnit := []
  handlers : List ProofHandler := []
deriving DecidableEq, Repr

/-- A record of XMAP (R54). -/
structure XmapRec where
  kind : Nat
  oldUnit : Nat
  oldIdx : Nat
  newIdx : Nat
  newUnit : Nat
deriving DecidableEq, Repr

/-- A handshake route (R68); its section layout is not in the spec, so it comes from `Config.decRoutes`. -/
structure RouteRec where
  src : Nat
  dst : Nat
  hops : Nat
  crossings : Nat
deriving DecidableEq, Repr

end Sys2Proof.Machine
end

