-- ==== Sys2Proof/Types/Unit.lean ====
section
/-!
DEFINITION. What the six unit kinds hold in their STATE tiles and what their descriptors say (R116, R145, R176, R201,
R264), as records. Signal IDs are numbers; positions, velocities and accelerations are integers in units of 2^-32
(Q32.32, R175).
-/
namespace Sys2Proof.Machine

/-- A signal: its 32 bits and its status (R71). -/
structure SigVal where
  val : Word := 0
  st : Byte := 0
deriving DecidableEq, Repr

/-- A result put in output staging (R32): signal, value, status. -/
structure Staged where
  sig : Nat
  v : SigVal
deriving DecidableEq, Repr

/-- An event a unit raises: its number within the Unit block (R470) and its data bytes. -/
structure UEv where
  num : Nat
  data : List Byte
deriving DecidableEq, Repr

/-! ### Loops (R116) -/

/-- A cross-feed tap (R116, R121): `what` 0 OUT, 1 PV, 2 ERR; `onOut` its injection point. -/
structure Tap where
  unit : Nat
  loop : Nat
  what : Nat
  onOut : Bool
  c : Word
deriving DecidableEq, Repr

/-- Descriptor of a loop (R116). `coefAt` and `modelAt` are word addresses 256·tile + word of its blocks. -/
structure LoopCfg where
  sp : Option Nat := none
  spk : Word := 0
  pv : Nat := 0
  ff : Option Nat := none
  sch : Option Nat := none
  modeSig : Option Nat := none
  out : Nat := 0
  sPv : Nat := 0
  sErr : Nat := 0
  sRes : List Nat := []
  gPv : Word := 0
  oPv : Word := 0
  rev : Bool := false
  kff : Word := 0
  uLo : Word := 0
  uHi : Word := 0
  rUp : Word := 0
  rDn : Word := 0
  taps : List Tap := []
  aws : List (Nat × Bool) := []
  bumpSec : Nat := 0
  beta : Word := 0
  initMode : Nat := 0
  invMax : Nat := 3
  sched : Bool := false
  edges : List Word := []
  hyst : Word := 0
  models : List (Bool × Bool) := []
  persist : Nat := 1
  rhyst : Word := 0
  supp : Nat := 4
  alarmHold : Bool := false
  sets : Nat := 1
  coefAt : Nat := 0
  modelAt : Nat := 0
deriving DecidableEq, Repr

/-- States of a section (R122). -/
structure SecSt where
  x1 : Word := 0
  x2 : Word := 0
  y1 : Word := 0
  y2 : Word := 0
deriving DecidableEq, Repr

/-- A model section and its residual monitor (R127, R128): `mon` 0 OK, 1 WARN, 2 ALARM. -/
structure ModSt where
  sec : SecSt := {}
  y : Word := 0
  rf : Word := 0
  mon : Nat := 0
  cWarn : Nat := 0
  cAlarm : Nat := 0
  cDown : Nat := 0
  shown : Nat := 0
deriving DecidableEq, Repr

/-- State of a loop (R117, R119 to R139). Modes 0 OFF, 1 MANUAL, 2 HOLD, 3 AUTO (R130). -/
structure LoopSt where
  mode : Nat := 0
  edit : Bool := false
  ackW : Nat := 0
  ackS : Nat := 0
  set : Nat := 0
  regionKnown : Bool := false
  secs : List SecSt := []
  models : List ModSt := []
  supp : Nat := 0
  uPrev : Word := 0
  uLat : Word := 0
  bump : Word := 0
  ycasPrev : Word := 0
  invCnt : Nat := 0
  limHi : Bool := false
  limLo : Bool := false
  rate : Bool := false
  rateDn : Bool := false
  secLim : Bool := false
  xfInv : Bool := false
  invIn : Bool := false
  schInv : Bool := false
  holdDev : Bool := false
  hcause : Nat := 0
  pendHold : Nat := 0
  heldNow : Bool := false
  sigTaken : Bool := false
  entering : Nat := 0
  lastReq : Nat := 0
  reqSrc : Nat := 0
  out : Word := 0
  pv : Word := 0
  err : Word := 0
  switches : Nat := 0
  refused : Nat := 0
  holds : Nat := 0
  modelWr : Bool := false
deriving DecidableEq, Repr

/-! ### Logic (R142 to R165) -/

/-- A timer object (R155, R156): `typ` 0 TON, 1 TOF, 2 TP; `base` in ns; `ptA` the preset that applies: PT as of its latest execution. -/
structure TimerSt where
  typ : Nat := 0
  base : Nat := 1000000
  pt : Nat := 0
  ptA : Nat := 0
  et : Nat := 0
  running : Bool := false
  inLast : Bool := false
  q : Bool := false
deriving DecidableEq, Repr

/-- A counter object (R158). -/
structure CtrSt where
  pv : Word := 0
  cv : Word := 0
  mem : Bool := false
  primed : Bool := false
  q : Bool := false
deriving DecidableEq, Repr

/-- An edge detector (R157); `primed` false: primed at its next execution. -/
structure EdgeSt where
  m : Bool := false
  primed : Bool := false
deriving DecidableEq, Repr

/-- The objects of one kind table each, by object index: what a LOGIC segment owns (R144). -/
structure LogicObjs where
  bits : List (Nat × Bool) := []
  words : List (Nat × Word) := []
  timers : List (Nat × TimerSt) := []
  ctrs : List (Nat × CtrSt) := []
  edges : List (Nat × EdgeSt) := []
deriving DecidableEq, Repr

/-- What an object declaration of PROG says (R144, R145, R165, R166): `kind` 0 bit, 1 word, 2 timer, 3 counter,
4 edge; `mapTo` 0 none, 1 input signal, 2 output signal. -/
structure ObjCfg where
  kind : Nat
  idx : Nat
  owner : Nat
  name : List Byte := []
  init : Word := 0
  retain : Bool := false
  mapTo : Nat := 0
  sig : Nat := 0
  dirSig : Option Nat := none
  timer : TimerSt := {}
  ctr : CtrSt := {}
deriving DecidableEq, Repr

/-- A logic partition of the Last (R142): number, STRICT_SCANS, segment programs as instruction words. -/
structure PartCfg where
  part : Nat
  strictScans : Nat := 100
  objs : List ObjCfg := []
  progs : List (Nat × List Word) := []
deriving DecidableEq, Repr

/-- Partition state, held in the lead segment's header (R145, R160): 0 STOPPED, 1 RUN, 2 WDSTOP. -/
structure PartSt where
  st : Nat := 0
  strict : Bool := false
  test : Bool := false
  left : Nat := 0
  why : Nat := 0
  lastCmd : Nat := 0
  scans : Nat := 0
  stopPend : Bool := false
  firstPend : Bool := false
  resumedPend : Bool := false
deriving DecidableEq, Repr

/-- The branch stack's pending operators (R151): AND(, ANDN(, OR(, ORN(, XOR(. -/
inductive PushOp where
  | and | andn | or | orn | xor
deriving DecidableEq, Repr

/-- The scan in progress of a LOGIC unit (R147, R154). `item` holds ITEM words 0 to 7 (R150), `vis` the objects of the other segments as
visible at the token, `frc` the forces in force then (R168). -/
structure ScanSt where
  cr : Bool := false
  acc : Word := 0
  stack : List (Bool × PushOp) := []
  pc : Nat := 0
  ended : Bool := false
  first : Bool := false
  resumed : Bool := false
  arith : Bool := false
  event : Bool := false
  item : List Word := []
  vis : List (Nat × LogicObjs) := []
  frc : List (Nat × Word) := []
deriving DecidableEq, Repr

/-! ### Axes (R172 to R194) -/

/-- Descriptor of an axis (R176). `aposIn`, `statIn`, `latchIn`, `sSvel` and `sCtrl` are the signals of a Holup drive
object's APOS, STATW, LATCH, SVEL and CTRLW fields (R190). KIND 0 unused, 1 real, 2 virtual; DEST 0 none, 1 Holup, 2 step generator, 3 chopper. -/
structure AxisCfg where
  kind : Nat := 0
  dest : Nat := 0
  destNo : Nat := 0
  modulus : Int := 0
  modDir : Nat := 0
  cmdSig : Option Nat := none
  parSig : Option Nat := none
  limPos : Option Nat := none
  limNeg : Option Nat := none
  homeSw : Option Nat := none
  masterVirt : Bool := false
  masterAxis : Nat := 0
  masterAct : Bool := false
  homing : Nat := 0
  vSearch : Int := 0
  vCreep : Int := 0
  homePos : Int := 0
  homeMax : Int := 0
  slimLo : Int := 0
  slimHi : Int := 0
  feMax : Int := 0
  feCnt : Nat := 1
  feDelay : Nat := 0
  resumeStop : Bool := false
  invMax : Nat := 3
  sSpos : Nat := 0
  sApos : Nat := 0
  sVel : Nat := 0
  sState : Nat := 0
  aposIn : Option Nat := none
  statIn : Option Nat := none
  latchIn : Option Nat := none
  sSvel : Option Nat := none
  sCtrl : Option Nat := none
  vDef : Int := 0
  aDef : Int := 0
  jDef : Int := 0
  p1Def : Int := 0
  aQuick : Int := 0
  jQuick : Int := 0
  vAdj : Int := 0
  eng : Nat := 1
  ratios : List (Int × Nat) := []
deriving DecidableEq, Repr

/-- A planned move or offset move (R180): start cycle and position, phase lengths, all in units of 2^-32. -/
structure MovePlan where
  k0 : Nat
  p0 : Int
  target : Int
  s : Int
  tj : Int
  ta : Int
  tv : Int
  vp : Int
  j : Int
  tEnd : Int
deriving DecidableEq, Repr

/-- A planned ramp of a virtual axis (R184). -/
structure VirtRamp where
  kEff : Nat
  v0 : Int
  vt : Int
  tj : Int
  ta : Int
  j : Int
deriving DecidableEq, Repr

/-- Gearing state (R185, R186): active ratio, remainder, blend progress with the ratio it started from, and whether this cycle was one of the blend. -/
structure GearSt where
  num : Int := 0
  den : Nat := 1
  rem : Int := 0
  engI : Nat := 0
  engN : Nat := 0
  oNum : Int := 0
  oDen : Nat := 1
  blend : Bool := false
  mPrev : Int := 0
  q : Int := 0
deriving DecidableEq, Repr

/-- State of an axis (R177 to R189). STATE 0 DISABLED, 1 STANDSTILL, 2 MOVING, 3 GEARED, 4 HOMING, 5 STOPPING,
6 HELD, 7 FAULT. `aOff` is what the references have shifted the axis frame by, `sOff` what they have shifted its whole positions by (R188, R191);
`checked`: the faults of this cycle have been taken (R178). -/
structure AxisSt where
  st : Nat := 0
  homed : Bool := false
  p : Int := 0
  v : Int := 0
  a : Int := 0
  plan : Option MovePlan := none
  vt : Option (Int × Int × Int) := none
  stopFault : Nat := 0
  gear : Option GearSt := none
  ratioSet : Nat := 0
  mSeen : Int := 0
  offset : Option MovePlan := none
  offDone : Int := 0
  pRef : Int := 0
  vRef : Int := 0
  kRef : Nat := 0
  ramp : Option VirtRamp := none
  homPhase : Nat := 0
  homStart : Int := 0
  latClear : Bool := false
  homeFe : Nat := 0
  swPrev : Bool := false
  posref : Bool := false
  shift : Int := 0
  cause : Nat := 0
  pendFault : Nat := 0
  heldNow : Bool := false
  checked : Bool := false
  sigTaken : Bool := false
  fe : Int := 0
  feCnt : Nat := 0
  inv : Nat := 0
  apos : Int := 0
  aOff : Int := 0
  sOff : Int := 0
  hist : List (Nat × Int) := []
  stepLag : Bool := false
  ackW : Nat := 0
  ackS : Nat := 0
  lastReq : Nat := 0
  reqSrc : Nat := 0
  why : Nat := 0
  refused : Nat := 0
  faults : Nat := 0
  enOut : Bool := false
  stopAt : Option Nat := none
  resetOk : Bool := false
  sat : Bool := false
deriving DecidableEq, Repr

/-! ### Recipe sequencers (R198 to R221) -/

/-- An end condition (R205). -/
structure CondRec where
  sig : Nat
  op : Nat
  persist : Nat
  a : Word
  b : Word
  br : Nat
  tgt : Nat
deriving DecidableEq, Repr

/-- A ramp entry (R206). -/
structure RampRec where
  ch : Nat
  shape : Nat
  rt : Nat
  target : Word
deriving DecidableEq, Repr

/-- A step record (R203); branches are ACTION and TARGET (R207). -/
structure StepRec where
  dur : Nat
  tmo : Nat
  wait : Bool
  brEnd : Nat × Nat
  brTmo : Nat × Nat
  fset : Word
  fclr : Word
  conds : List CondRec
  ramps : List RampRec
deriving DecidableEq, Repr

/-- A recipe (R202): steps, abort step if any, channel mask, per-channel abort mode and value. -/
structure Recipe where
  rid : List Byte := []
  abortStep : Option Nat := none
  chmask : Nat := 0
  chans : List (Nat × Word) := []
  steps : List StepRec := []
deriving DecidableEq, Repr

/-- Sequencer descriptor (R200, R201): per channel signal, limits, idle value; state signals; resume rule. -/
structure SeqCfg where
  chans : List (Nat × Nat × Word × Word × Word) := []
  cmdSig : Option Nat := none
  resumeHold : Bool := false
  sStep : Nat := 0
  sFlags : Nat := 0
  sState : Nat := 0
  sElapsed : Nat := 0
deriving DecidableEq, Repr

/-- Ramp state of a channel (R216). -/
structure RampSt where
  v0 : Word := 0
  v1 : Word := 0
  o : Int := 0
  nR : Nat := 0
  shape : Nat := 0
  val : Word := 0
  sat : Bool := false
deriving DecidableEq, Repr

/-- A step transition that waits for its record (R219): target step, and the entry cycle of a time-based one. -/
structure PendStep where
  target : Nat
  ke : Option Nat := none
deriving DecidableEq, Repr

/-- State of a sequencer (R210 to R220); `cur`, `pend` 0x7FF for none. `slots` are the steps in its five slots (R200), `last` how many
cycles the last step of a finished recipe had lasted, `fetchBad` a record that the fetcher could not read (R219). -/
structure SeqSt where
  st : Nat := 0
  hkind : Nat := 0
  flate : Bool := false
  lastReq : Nat := 0
  reqSrc : Nat := 0
  why : Nat := 0
  cause : Nat := 0
  resumed : Bool := false
  cur : Nat := 0x7FF
  pend : Nat := 0x7FF
  ke : Nat := 0
  ih : Nat := 0
  kStart : Nat := 0
  startStep : Nat := 0
  flags : Word := 0
  ramps : List RampSt := []
  counts : List Nat := []
  ackW : Nat := 0
  ackS : Nat := 0
  sigTaken : Bool := false
  handler : Bool := false
  slots : List (Option Nat) := []
  fetchPend : Bool := false
  fetchBad : Bool := false
  last : Int := 0
  wait : Option PendStep := none
  refused : Nat := 0
  stepsTaken : Nat := 0
  elapsed : Nat := 0
deriving DecidableEq, Repr

/-! ### Condition units (R74, R75) -/

/-- A linearisation table (R75): uniform values with k, or breakpoints. -/
inductive LinTab where
  | none
  | uniform (k : Nat) (ys : List Word)
  | breakpoints (ps : List (Word × Word))
deriving DecidableEq, Repr

/-- A mapped input of a COND unit (R74): source kind 0 signal or field, 1 converter sample; number; gain, offset,
table; the signal it delivers. -/
structure CondIn where
  sample : Bool := false
  src : Nat := 0
  gain : Word := 0
  offset : Word := 0
  tab : LinTab := LinTab.none
  out : Nat := 0
deriving DecidableEq, Repr

end Sys2Proof.Machine
end

