-- ==== Sys2Proof/Types/Io.lean ====
section
/-!
DEFINITION. Hidden state of the converters, local outputs, digital pins, step generators, choppers, acquisition
engines and history rings (R188 to R193, R222 to R281): what the register map does not show.
-/
namespace Sys2Proof.Machine

/-! ### Converters (R222 to R245) -/

/-- A window that has closed and whose word the converter has not delivered yet (R224, R233): ticks of its edges, range, converter (16 the
stand-in), windows averaged, SETTLE, whether the end of the invalidity cannot be counted, whether a value was measured, whether it stays out of
the average, whether the average restarts after it, the window count. -/
structure ShutWin where
  t0 : Nat
  t1 : Nat
  range : Nat
  conv : Nat
  n : Nat
  settle : Nat
  endless : Bool
  measured : Bool
  skip : Bool
  clear : Bool
  cnt : Nat
deriving DecidableEq, Repr

/-- A channel of a converter bank. `opened` the tick at which the window in progress opened, `edges` the mains edges in it; `range`, `avg`,
`nm` are the settings in force (R234); `settle` the delivered samples still invalid, `skip` the windows that stay out of the
average after a change of range or an enable (R230); `pend` a change waiting for the window close; `wins` the last windows, newest
first, with their OVR, STALE_CAL and CHK_MISMATCH bits, none for one that does not count; `noBefore` the first counter tick at which a
triggered window may open and be valid; `pairRes` a valid result that waits for the pair's other channel, with the tick of its close; `pairBad` whether the pair's last
comparison mismatched; `side` the side word of the latest window (R229) and `shutAt` the tick of its close; `shut` windows closed and not
delivered; `waits` whether its word is not yet presented (R29). -/
structure AdcCh where
  opened : Option Nat := none
  edges : Nat := 0
  range : Nat := 0
  avg : Nat := 0
  nm : Nat := 0
  settle : Nat := 0
  skip : Nat := 0
  pend : Bool := false
  pendInv : Nat := 0
  pendNo : Nat := 0
  wins : List (Option (Int × Nat)) := []
  noBefore : Nat := 0
  mism : Bool := false
  pairRes : Option (Nat × Int) := none
  pairBad : Bool := false
  side : Nat := 0
  shut : List ShutWin := []
  shutAt : Nat := 0
  waits : Bool := false
deriving DecidableEq, Repr

/-- A rolling recalibration (R241): channel, phase (1 check converter settling, 2 calibrating, 3 reconnecting),
windows of the phase still to close, whether the 40 ms have ended, whether the calibration is abandoned (R244). -/
structure RollSt where
  ch : Nat
  phase : Nat
  left : Nat
  calEnded : Bool := false
  abandoned : Bool := false
deriving DecidableEq, Repr

/-- A plausibility visit of the check converter (R240): channel, settling windows left, compare windows left, the tick from which a window
must have opened to count, that of the last window it has seen (of its start before the first), sum of the differences, whether a window was
invalid or over range. -/
structure VisitSt where
  ch : Nat
  settle : Nat
  left : Nat
  start : Nat := 0
  seen : Nat := 0
  sum : Int := 0
  bad : Bool := false
deriving DecidableEq, Repr

/-- A converter bank: channels, the rolling pass (channels still to take, check converter first if `chkFirst`), the
present roll, the present visit, channels to visit again, a bank calibration in progress; `chkTried` the check converter has been
calibrated within the pass (R241); `stale` the pass takes the channels that are stale, those that become so meanwhile too, each once: `taken`
(R242). -/
structure AdcBank where
  chs : Tbl AdcCh := []
  pass : Option (List Nat) := none
  chkFirst : Bool := false
  roll : Option RollSt := none
  visit : Option VisitSt := none
  after : Nat := 0
  again : List Nat := []
  cal : Bool := false
  chkTried : Bool := false
  stale : Bool := false
  taken : List Nat := []
  passEnd : Nat := 0
deriving DecidableEq, Repr

/-- The MAINS_SYNC measurement (R228): tick of the last rising edge, last period if it was accepted, lock. -/
structure MainsSt where
  edge : Option Nat := none
  prev : Option Nat := none
  lock : Bool := false
  period : Nat := 0
deriving DecidableEq, Repr

/-! ### Local outputs and pins (R247 to R259, R512) -/

/-- A local output (R257 to R259, R512): its latest staged or written value, the value latched, and what the latch shows:
0 power-on state, 1 a value, 2 the safe value. `ltick` is the tick of the last latch, `was` and `wasShows` what the latch held before that tick
(R249, R256). `toSafe`: the safe value waits for the cadence's next boundary. `old`: the latch took its value under another Last (R126). `ovld`
and `opn`: the states the last analogue check found (R248). -/
structure OutSt where
  wait : Option Word := none
  val : Word := 0
  shows : Nat := 0
  ltick : Option Nat := none
  was : Word := 0
  wasShows : Nat := 0
  old : Bool := false
  toSafe : Bool := false
  ovld : Bool := false
  opn : Bool := false
deriving DecidableEq, Repr

/-- A pin's filter (R250 to R253): filtered level, first tick of the present raw run with view 0 there (ns, fraction),
rejected pulses since the last filtered transition, edge event armed; `te` the time of the last filtered transition (ns,
fraction), which captures positions (R188); `edge` the tick of the last counted one (R252). -/
structure PinSt where
  lvl : Bool := false
  edge : Option Nat := none
  te : Option (Nat × Nat) := none
  run : Option (Nat × Nat × Nat) := none
  rej : Nat := 0
  armed : Bool := true
deriving DecidableEq, Repr

/-- A step generator (R191): steps still to emit in this period, direction (true negative), whole position latched last,
backlog, and whether a backlog fault waits for the axis (R189). -/
structure StepSt where
  left : Nat := 0
  down : Bool := false
  target : Int := 0
  backlog : Int := 0
  bigLag : Bool := false
deriving DecidableEq, Repr

/-- A phase of a chopper (R193): 0 off with all bridge inputs low, 1 driven, 2 off time, 3 slow decay at code zero;
consecutive cycles that reached 50 µs, consecutive cycles that tripped at once, and whether a short turned it off. -/
structure PhaseSt where
  st : Nat := 0
  full : Nat := 0
  quick : Nat := 0
  cut : Bool := false
deriving DecidableEq, Repr

/-- A chopper channel (R192, R193): assigned by a Last, steps as a step generator, standstill cycles, sixteenths of the
way from RUN to HOLD, whether its axis has it enabled, the phases, and the safe value in force. -/
structure ChopSt where
  used : Bool := false
  steps : StepSt := {}
  still : Nat := 0
  mix : Nat := 0
  on : Bool := false
  a : PhaseSt := {}
  b : PhaseSt := {}
  safeV : Bool := false
deriving DecidableEq, Repr

/-! ### Acquisition (R263 to R281) -/

/-- A trigger condition of an engine (R270). -/
structure TrigCond where
  typ : Nat := 0
  sig : Nat := 0
  a : Word := 0
  b : Word := 0
  h : Word := 0
deriving DecidableEq, Repr

/-- Descriptor of an engine (R263 to R275): measured signals with their crossing level and hysteresis. Its conditions, PRE and POST stand in the
request tile (R264); its arming group in an ARMGRP entry (R51). -/
structure EngCfg where
  sigs : List Nat := []
  meas : List (Nat × Word × Word) := []
  nrec : Nat := 1
  base : Nat := 0
  area : Nat := 0x100000
  cont : Bool := false
  autoRearm : Bool := false
  prefill : Bool := false
  freeze : Bool := false
  dMin : Nat := 0
deriving DecidableEq, Repr

/-- An engine as a member of an arming group (R273, R274): the group's ID, its ARM_LEAD, whether the engine is its master. -/
structure ArmMember where
  gid : Nat
  lead : Nat
  master : Bool
deriving DecidableEq, Repr

/-- A row of samples: cycle, values, statuses (R265). -/
structure RowRec where
  k : Nat
  vals : List Word
  sts : List Byte
deriving DecidableEq, Repr

/-- A block (R265): decimation, sequence number, flags, first and last cycle, blocks lost before it, rows. -/
structure BlockRec where
  d : Nat := 0
  seq : Nat := 0
  flags : Nat := 0
  k0 : Nat := 0
  kEnd : Nat := 0
  lost : Nat := 0
  rows : List RowRec := []
  pos : Nat := 0
  slot : Nat := 0
deriving DecidableEq, Repr

/-- Measurement sums of a signal over a record (R272); `cross` the last crossing in units of 2^-32 ns, `span` the sum
of the intervals, `armedX` whether the level has been left below by the hysteresis. -/
structure MeasSt where
  mn : Int := 0
  mx : Int := 0
  sum : Int := 0
  sq : Nat := 0
  n : Nat := 0
  crossings : Nat := 0
  cross : Option Int := none
  span : Int := 0
  armedX : Bool := false
deriving DecidableEq, Repr

/-- State of an engine (R267 to R277). `st` 0 IDLE, 1 ARMED, 2 TRIGGERED, 3 DONE, 4 STREAM. `used` the slots that hold a
capture or a record; `lows` the RISE and FALL memory; `was` the conditions true in the last cycle; `timeReq` a fired
comparators (tick, target); `grpReq` a group trigger (cycle, ns, fraction, from a sender of lower (DEVIDX, engine)); `gapOpen` set by a resume until the next row; `gapAt` the cycle
after the latest gap; `startK` the first cycle an ARM command captures; `past` the samples since the arm with their boundary values in ns, none decimated; `prevC` the values that
the conditions' signals had in the last cycle, where valid; `preAct` the pre-trigger cycles captured of PRE. -/
structure EngSt where
  st : Nat := 0
  slot : Nat := 0
  used : List Nat := []
  conds : List TrigCond := []
  pre : Nat := 0
  post : Nat := 1
  lows : List Bool := []
  was : List Bool := []
  startK : Nat := 0
  past : List (Nat × RowRec) := []
  prevRow : Option RowRec := none
  prevC : List (Option Int) := []
  captured : Nat := 0
  armPend : Option Nat := none
  kT : Nat := 0
  trigNs : Nat := 0
  trigFrac : Nat := 0
  mask : Nat := 0
  retrig : Nat := 0
  forceReq : Bool := false
  timeReqs : List (Nat × Nat) := []
  grpReq : Option (Nat × Nat × Nat × Bool) := none
  meas : List MeasSt := []
  preAct : Nat := 0
  shortPre : Bool := false
  partialPre : Bool := false
  gapRec : Bool := false
  gapOpen : Bool := false
  gapAt : Option Nat := none
  lastCmd : Nat := 0
  why : Nat := 0
deriving DecidableEq, Repr

/-- What the rim holds of an engine (R265, R266, R269, R276): write queue, block in progress, next block index in the
slot, sequence number, decimation, next cycle to store, blocks dropped before the next one, gap before the next one,
blocks not streamed yet, tick since which at most two blocks have waited, blocks of the present slot, oldest first (those in
the write queue among them), records completed and blocks dropped in all. -/
structure EngRim where
  queue : List BlockRec := []
  cur : Option BlockRec := none
  wpos : Nat := 0
  seq : Nat := 0
  d : Nat := 0
  nextK : Nat := 0
  lostNext : Nat := 0
  gapNext : Bool := false
  stream : List BlockRec := []
  quietFrom : Option Nat := none
  blks : List BlockRec := []
  records : Nat := 0
  dropped : Nat := 0
deriving DecidableEq, Repr

/-- An entry of a history slice (R279): MIN, MAX, MEAN, STATUS, COUNT. -/
structure HistEntry where
  mn : Word
  mx : Word
  mean : Word
  st : Nat
  count : Nat
deriving DecidableEq, Repr

/-- What is summarised of a history signal (R278): the first interval that is whole since the fabric started, the present interval with its
samples (count, valid count, MIN, MAX, sum, OR of the status bytes), the latest sample, and the summaries emitted for slices not written yet. -/
structure HistSig where
  start : Nat
  ms : Nat
  cnt : Nat := 0
  n : Nat := 0
  mn : Int := 0
  mx : Int := 0
  sum : Int := 0
  st : Nat := 0
  last : SigVal := {}
  out : List (Nat × HistEntry) := []
deriving DecidableEq, Repr

/-- A history slice (R279). -/
structure SliceRec where
  ms : Nat
  flags : Nat
  entries : List HistEntry
deriving DecidableEq, Repr

/-- A history ring (R278 to R280): slices held, oldest first; next millisecond to send; first millisecond of a skip not
marked yet. -/
structure RingSt where
  slices : List SliceRec := []
  sendFrom : Nat := 0
  skipped : Option Nat := none
deriving DecidableEq, Repr

/-- A snapshot slot in flash (R281): its freeze millisecond, causes, slices per ring, marks; `order` for "oldest". -/
structure SnapRec where
  mf : Nat := 0
  causes : List Nat := []
  slices : List (Nat × SliceRec) := []
  locked : Bool := false
  trunc : Bool := false
  valid : Bool := false
  order : Nat := 0
deriving DecidableEq, Repr

/-- The freeze machinery (R281): copy in progress (slot, freeze millisecond), queued requests. -/
structure FreezeSt where
  copy : Option (Nat × Nat) := none
  queue : List (Nat × Nat) := []
  nextOrder : Nat := 1
deriving DecidableEq, Repr

end Sys2Proof.Machine
end

