-- ==== Sys2Proof/Types/Link.lean ====
section
/-!
DEFINITION. Hidden state of the Holup segments, the CAN controllers, the Ethernet ports with PTP and Eyelet, and the
duplex pair (R284 to R353, R378 to R402): what the register map does not show.
-/
namespace Sys2Proof.Machine

/-! ### Holup (R284 to R312) -/

/-- A Holup frame (R286 to R290): header fields, payload. -/
structure HolFrame where
  typ : Nat := 0
  hold : Bool := false
  safe : Bool := false
  src : Nat := 0
  ch : Nat := 0
  slot : Nat := 0
  claim : Nat := 0
  payload : List Byte := []
deriving DecidableEq, Repr

/-- A descriptor of the segment's schedule (R292, R295). KIND 0 OUT, 1 IN, 2 ARB window, 3 POLL entry; `cls` the owning activity class
(R24). Times in 10 ns. -/
structure HolDesc where
  kind : Nat
  offset : Nat
  node : Nat := 0
  ch : Nat := 0
  len : Nat := 0
  ilen : Nat := 0
  base : Nat := 0
  rep : Nat := 0
  cad : Nat := 0
  repeatF : Bool := false
  ageMax : Nat := 0
  cls : Nat := 0
  crit : Bool := false
  offsetD : Nat := 0
  chD : Nat := 0
deriving DecidableEq, Repr

/-- The segment's HOLSCH entry (R292, R295). -/
structure HolSched where
  sched : Nat := 0
  descs : List HolDesc := []
deriving DecidableEq, Repr

/-- An output buffer (R304): the latest fill and whether it has not been sent yet; a slave's data as of the last SYNC, and whether they have not
been sent yet (R310). -/
structure OutBuf where
  fill : List Byte := []
  filled : Bool := false
  fresh : Bool := false
  atSync : Option (List Byte × Bool) := none
deriving DecidableEq, Repr

/-- An input buffer (R305): the latest complete frame and the frozen one with its AGE; `recv` a slave's output data received since the last SYNC
(R310). -/
structure InBuf where
  recv : Option (Nat × HolFrame) := none
  latest : Option (Nat × HolFrame) := none
  frozen : Option (Nat × HolFrame) := none
  newer : Bool := false
  age : Nat := 0
deriving DecidableEq, Repr

/-- A segment. `csLeft` CSTART frames still to send; `inb` consecutive SYNCs in bounds; `absN` absence counts per node;
`chfA`, `chfB` consecutive failed basic cycles; `schedA` … `accB` whether a frame was scheduled or accepted on a channel
in this basic cycle; `nextDeg` next-macrocycle bits; `gotSlots` descriptors whose occurrence has been accepted; `rxq`, `txq`
the ARB queues (R312); `dly` the delay request in flight (node, t1 tick, view 0 ns at which it was sent), `dlyPend` the one that waits for an arbitrating
window, `dlyNew` nodes present and not measured, `dlyLast` the node measured last; `owed` the answer the device owes (0 poll,
descriptor, channel; or 1 delay, channel, t2 tick); `polled` the entry polled and the end of the POLL's ED in view 0, ns; `conflictAt`
tick of the last HOL_MASTER_CONFLICT; `sub` the slave state of R301; `next` what the next basic-cycle start brings (1 RUN,
2 PASSIVE); `holdC`, `safeC` the cadences whose data are held or safe (R306); `annDeg` the next-macrocycle bits as the last SYNC gave them; `since`
the tick at which the present state began or the last valid SYNC came; `lastB` the view 0 ns of the last basic-cycle start; `master` the node ID of
the last accepted SYNC. -/
structure HolSt where
  csLeft : Nat := 0
  inb : Nat := 0
  absN : Tbl Nat := []
  chfA : Nat := 0
  chfB : Nat := 0
  schedA : Bool := false
  schedB : Bool := false
  accA : Bool := false
  accB : Bool := false
  nextDeg : Nat := 0
  outs : Tbl OutBuf := []
  ins : Tbl InBuf := []
  gotSlots : List Nat := []
  rxq : List (List Byte) := []
  txq : List (List Byte) := []
  dly : Option (Nat × Nat × Nat) := none
  dlyPend : Option Nat := none
  dlyNew : List Nat := []
  dlyLast : Nat := 31
  ldlyKnown : Bool := false
  owed : Option (Nat × Nat × Nat) := none
  polled : Option (Nat × Nat) := none
  conflictAt : Option Nat := none
  sub : Nat := 0
  next : Nat := 0
  holdC : List Nat := []
  safeC : List Nat := []
  annDeg : Nat := 0
  since : Nat := 0
  lastB : Nat := 0
  master : Option Nat := none
deriving DecidableEq, Repr

/-! ### CAN (R313 to R330) -/

/-- A CAN frame: ID (base in bits 28:18), IDE, RTR, DLC, FDF, BRS, ESI, data. -/
structure CanFrame where
  id : Nat := 0
  ide : Bool := false
  rtr : Bool := false
  dlc : Nat := 0
  fdf : Bool := false
  brs : Bool := false
  esi : Bool := false
  data : List Byte := []
deriving DecidableEq, Repr

/-- A window of the CAN matrix (R326): offset and length in 100 ns, exclusive or arbitrating, buffer sent or ID
expected, BASE, REP, owning activity class (R24). -/
structure CanWin where
  offset : Nat
  len : Nat
  excl : Bool
  buf : Option Nat := none
  id : Option (Nat × Bool) := none
  base : Nat := 0
  rep : Nat := 0
  cls : Nat := 0
deriving DecidableEq, Repr

/-- A transmit buffer beside its registers (R322, R323): the number of fills completed, the number of the fill last sent, a cancel held. -/
structure TxBuf where
  fills : Nat := 0
  sent : Nat := 0
  cancelHeld : Bool := false
deriving DecidableEq, Repr

/-- A cyclic receive buffer (R321): latest and frozen entries of R319, whether the latest is newer, AGE. -/
structure RxBuf where
  latest : Option (List Byte) := none
  frozen : Option (List Byte) := none
  newer : Bool := false
  age : Nat := 0
deriving DecidableEq, Repr

/-- A controller. `q0`, `q1` the receive queues of R319 entries; `cur` the frame being sent (buffer, or 64 for the reference;
the frame; the tick of its SOF; whether it is bound to an exclusive window); `win` the open window, `wait` the buffer that
waits in an exclusive one, with its frame as the window began and the number of the fill this frame carries (R328); `refPend` a reference waits; `mark` the last reference mark in view 0 ns; `good` consecutive
references in bounds; `opened` the windows that have begun since the mark; `since` the view 0 ns from which the controller listens; `master` the priority of the present time master; `ack` consecutive ACK errors; `recov` bus-off is
being counted out; `ovf0`, `ovf1` ticks of the last CAN_RXOVF; `tec`, `rxerr` the error counters; `holdC`, `safeC` the cadences whose buffers hold or
are safe (R330). -/
structure CanSt where
  q0 : List (List Byte) := []
  q1 : List (List Byte) := []
  txb : Tbl TxBuf := []
  rxb : Tbl RxBuf := []
  cur : Option (Nat × CanFrame × Nat × Bool) := none
  win : Option Nat := none
  wait : Option (Nat × CanFrame × Nat) := none
  refPend : Bool := false
  mark : Option Nat := none
  opened : List Nat := []
  since : Nat := 0
  good : Nat := 0
  master : Option Nat := none
  ack : Nat := 0
  recov : Bool := false
  ovf0 : Option Nat := none
  ovf1 : Option Nat := none
  tec : Nat := 0
  rxerr : Nat := 0
  holdC : List Nat := []
  safeC : List Nat := []
deriving DecidableEq, Repr

/-! ### Plant network, PTP and Eyelet (R332 to R353) -/

/-- What one-step stamping needs of a PTP event message (R102, R104): the message, the corrected stamp of the Pdelay_Req it answers, and the
part of the sampler's instant below a tick, in 0.5 ns. -/
structure PtpTx where
  msg : List Byte
  rx : Int := 0
  sub : Nat := 0
deriving DecidableEq, Repr

/-- A frame in an egress queue (R338, R341): queue, bytes without frame check sequence, the IOMAP entry of a cyclic frame,
whether it was counted as held by its gate, what is written into it as it leaves. -/
structure EthTx where
  queue : Nat
  bytes : List Byte
  cyc : Option Nat := none
  held : Bool := false
  ptp : Option PtpTx := none
deriving DecidableEq, Repr

/-- A record of the PRP source table (R336): source address, sequence numbers seen with their ticks, newest first. -/
structure PrpSrc where
  mac : Nat
  seqs : List (Nat × Nat) := []
deriving DecidableEq, Repr

/-- A cyclic receive buffer (R342, R398): latest and frozen payloads with their stamps, whether the latest is newer, AGE,
highest claim accepted. -/
structure EthRx where
  latest : Option (Nat × List Byte) := none
  frozen : Option (Nat × List Byte) := none
  newer : Bool := false
  age : Nat := 0
  claim : Nat := 0
deriving DecidableEq, Repr

/-- A port: egress queues in order of enqueue, frame being sent, pending list swap, change time as the HI write committed it, PRP sequence numbers and sources (on the even
port), tick of the last tracked frame, end of a PAUSE; PTP: sequence numbers, a two-step Sync waiting for its Follow_Up (sequence,
t2, correction), the last Sync (t1, t2), delay request in flight (sequence, t3), peer delay request (sequence, t1) and a two-step
answer (t2, t4, correction), mean path delay, all in 2^-32 ns; last Announce; last fill of each cyclic frame; module
identification; `operCyc`, `operPhase` cycle time and phase of the operating list in 10 ns; the counters of frames lost, held by their gate and replaced
(CNT_TXERR, CNT_GATEHOLD, CNT_TXREPL). -/
structure EthSt where
  queues : List EthTx := []
  sending : Option EthTx := none
  swapAt : Option Nat := none
  chg : Nat := 0
  prpSeq : Nat := 0
  supSeq : Nat := 0
  srcs : List PrpSrc := []
  lastTracked : Nat := 0
  pauseUntil : Nat := 0
  syncSeq : Nat := 0
  annSeq : Nat := 0
  dlySeq : Nat := 0
  pendSync : Option (Nat × Int × Int) := none
  sync : Option (Int × Int) := none
  dlyT3 : Option (Nat × Int) := none
  pdT1 : Option (Nat × Int) := none
  pdResp : Option (Int × Int × Int) := none
  pathDelay : Int := 0
  announce : Option (List Byte) := none
  fills : Tbl (List Byte) := []
  moduleId : List Byte := []
  operCyc : Nat := 0
  operPhase : Nat := 0
  txErr : Nat := 0
  gateHold : Nat := 0
  txRepl : Nat := 0
deriving DecidableEq, Repr

/-- The settings NETCFG holds (R349): per pair address, mask, gateway and management VLAN; Eyelet port and idle time; the PTP
settings of R343 and R344. -/
structure NetCfg where
  pairs : List (Option (Nat × Nat × Nat) × Option Nat) := []
  eylPort : Nat := 47360
  eylIdle : Nat := 60
  ptpPorts : List Nat := []
  p2p : Bool := false
  l2 : Bool := false
  domain : Nat := 0
  logSync : Int := 0
  logAnn : Nat := 1
  prio1 : Nat := 128
  prio2 : Nat := 128
  gmCap : Bool := true
  utc : Nat := 37
deriving DecidableEq, Repr, Inhabited

/-- A kept answer of a session (R347). -/
structure KeptResp where
  seq : Nat
  status : Nat
  payload : List Byte
deriving DecidableEq, Repr

/-- An Eyelet session (R345 to R347): privilege, requests in progress, kept answers, answers held so that they leave in SEQ order,
parts of a message received so far, tick of the last record; the port, the client's IPv4 address and its UDP port, whether it is a session between
devices of an arming group (R348), and the records sent. -/
structure Session where
  priv : Nat
  inProg : List Nat := []
  kept : List KeptResp := []
  held : List KeptResp := []
  parts : List (Nat × List Byte) := []
  last : Nat := 0
  port : Nat := 0
  ip : Nat := 0
  udp : Nat := 0
  peer : Bool := false
  recs : Nat := 0
deriving DecidableEq, Repr

/-! ### Duplex pair (R378 to R402) -/

/-- A frame of the Welt link kept for resending (R383). -/
structure WeltFrame where
  typ : Nat
  full : Bool
  seq : Nat
  tag : Nat
  payload : List Byte
deriving DecidableEq, Repr

/-- The pair machinery. `tvW`, `tvH` ticks of the last valid heartbeat per path (R387), `faultW`, `faultH` its FAULT; `relinq`
RELINQ is sent from now on; `witness` start of the last witness (R396); `since` tick at which PAIRING was entered; `goAt` tick from
which covered segments may enter RUN and cadences take tokens after a takeover (R394); `await` cadences whose B_n of a handover the new
active has not reached, `leaving` those the old one has not (R399). `rxTiles` tiles received and not applied by 32·unit + logical
tile, `perCyc` those that a per-cycle frame has brought since the full copy began (R392), `rxPort` port values received, `applied`,
`appK`, `port` the applied tiles, cycles and port image (R390), `synced` cadences whose COMMIT has been applied since the full copy
ended. Sequence numbers and frames kept for resending (R383); `acks` COMMITs not acknowledged, by cadence: SEQ and tick. `tH` time of a planned handover in view 0 ns,
`tHseq` its CTRL frame until it is acknowledged. `peerState`, `peerId` STATE and LASTID of the last Welt heartbeat. `exchLoaded` a new Last is loaded
in EXCHANGE; `autoPend` a boot load's AUTOSTART waits for the role (R393); `exch` the units hold exchanged state not yet run;
`lost` DUPX_NO_STANDBY was raised for the active's present silence (R394); `txFree` the instant, in 0.5 ns of the counter, at which the link has sent
what was given to it (R101). -/
structure DupxSt where
  tvW : Option Nat := none
  tvH : Option Nat := none
  faultW : Bool := false
  faultH : Bool := false
  relinq : Bool := false
  witness : Option Nat := none
  since : Nat := 0
  goAt : Nat := 0
  await : List Nat := []
  leaving : List Nat := []
  rxTiles : Tbl (List Byte) := []
  perCyc : List Nat := []
  rxPort : List (Nat × Nat × Word) := []
  applied : Tbl (List Byte) := []
  appK : Tbl Nat := []
  port : List (Nat × Nat × Word) := []
  synced : List Nat := []
  fullEnd : Bool := false
  txSeq : Nat := 0
  rxSeq : Nat := 0
  kept : List WeltFrame := []
  acks : Tbl (Nat × Nat) := []
  tH : Option Nat := none
  tHseq : Option Nat := none
  peerState : Nat := 0
  peerId : Nat := 0
  exchLoaded : Bool := false
  autoPend : Bool := false
  exch : Bool := false
  lost : Bool := false
  txFree : Nat := 0
deriving DecidableEq, Repr

end Sys2Proof.Machine
end

