-- ==== Sys2Proof/Types/Island.lean ====
section
/-!
DEFINITION. The safety island (R404 to R427): parameter set, inputs, outputs, functions and events as the island holds
them; the SAFE registers are only the mailbox's picture of it (R429).
-/
namespace Sys2Proof.Machine

/-- An input record (R418). -/
structure SinRec where
  sin : Nat
  typ : Nat
  filt : Nat
  disc : Nat
  srcA : Nat
  srcB : Nat
  mutable_ : Bool
deriving DecidableEq, Repr

/-- An output record (R418). -/
structure SoutRec where
  sout : Nat
  use : Nat
  dark : Bool
deriving DecidableEq, Repr

/-- A function record (R418); references are `none` for 0xFF. -/
structure FuncRec where
  kind : Nat := 0
  stopCat : Nat := 0
  reset : Nat := 0
  resetIn : Option Nat := none
  demand : List Nat := []
  outMask : Nat := 0
  lockOut : Option Nat := none
  lockIn : Option Nat := none
  modeIn : Option Nat := none
  override : Option Nat := none
  muteIn : Option Nat := none
  tSS1 : Nat := 0
  lockDelay : Nat := 0
  tPurge : Nat := 0
  tRel : Nat := 0
  muteMax : Nat := 0
  mcodes : List Nat := []
deriving DecidableEq, Repr

/-- A parameter set (R418). -/
structure Pset where
  tTp : Nat := 0
  tTpp : Nat := 0
  check : Nat := 0
  psetId : Nat := 0
  ins : List SinRec := []
  outs : List SoutRec := []
  funcs : List FuncRec := []
deriving DecidableEq, Repr

/-- A safety input (R409 to R411): filtered contacts (true closed), samples for which each sampled level has differed, samples
since the first unfollowed change, samples in which the filter has not settled and in which both contacts have been steady, latched
fault (1 DISCREPANCY, 2 XSHORT); for clearing it: both contacts seen in demand, samples since the first of them returned; samples
for which the input has been healthy without a break. -/
structure SinSt where
  a : Bool := false
  b : Bool := false
  runA : Nat := 0
  runB : Nat := 0
  disc : Option Nat := none
  unsettled : Nat := 0
  calm : Nat := 0
  fault : Nat := 0
  bothOff : Bool := false
  back : Option Nat := none
  healthyFor : Nat := 0
deriving DecidableEq, Repr

/-- A safety output (R412): commanded on, samples since the last change of command, OUTPUT fault, read-backs. -/
structure SoutSt where
  on : Bool := false
  since : Nat := 0
  fault : Bool := false
  rba : Bool := false
  rbb : Bool := false
deriving DecidableEq, Repr

/-- A safety function (R413 to R417): STATE 0 IDLE, 1 STOPPING, 2 DEMAND, 3 FAULT; samples of T_SS1 left; inputs in demand when it
began to stop; lock: unlocked, an UNLOCK and a LOCK under way, samples for which its outputs have been off; mute: in force, a
request present, samples since its SEQ changed, samples it has lasted, ended by MUTE_MAX, samples of absence, its code and its source; ENABLE: waits for release,
samples for which both contacts have been open together, last levels of the enabling input and of the mode input. -/
structure FuncSt where
  st : Nat := 2
  ss1 : Nat := 0
  entry : List Nat := []
  unlocked : Bool := false
  unlocking : Bool := false
  lockReq : Bool := false
  offFor : Nat := 0
  muted : Bool := false
  muteReq : Bool := false
  muteAge : Nat := 0
  muteFor : Nat := 0
  muteSpent : Bool := false
  muteGone : Nat := 0
  muteCode : Nat := 0
  muteSrc : Nat := 0
  relWait : Bool := true
  relFor : Nat := 0
  enPrev : Bool := false
  modePrev : Bool := false
deriving DecidableEq, Repr

/-- An island event that waits for the mailbox link (R425, R427): code, data, milliseconds. -/
structure IslEv where
  code : Nat
  data : List Byte
  ms : Nat
deriving DecidableEq, Repr

/-- The island. STATE as R407, fault and last LOCKOUT's fault; both stored copies of the parameter set (channel B's inverted) and
whether it is confirmed; mismatches in a row and the millisecond a block began (R421); inputs, outputs and functions; events for the mailbox
and events dropped; 250 µs samples since reset; requests taken over and not judged yet, by source (0 `SAFE.REQ`, 1 + i `SAFE.LREQi`);
last SEQ acknowledged per source; result of the last `SAFE.REQ`; a store in progress. -/
structure IslandSt where
  st : Nat := 0
  fault : Nat := 0
  lastFault : Nat := 0
  setA : Option (List Byte) := none
  setB : Option (List Byte) := none
  confirmed : Bool := false
  mism : Nat := 0
  blockAt : Option Nat := none
  ins : Tbl SinSt := []
  outs : Tbl SoutSt := []
  funcs : Tbl FuncSt := []
  evq : List IslEv := []
  evLost : Nat := 0
  samp : Nat := 0
  reqs : Tbl Nat := []
  acks : Tbl Nat := []
  storing : Option (List Byte) := none
  result : Nat := 0
  why : Nat := 0
  supplyOk : Bool := true
  srst : Bool := false
deriving DecidableEq, Repr

end Sys2Proof.Machine
end

