-- ==== Sys2Proof/Types/Sys.lean ====
section
/-!
DEFINITION. Hidden state of the time base, the units' rim side, the dispatcher, the loads, the force table, the power
arbiter, the margin planner, the reset controller, the event recorder and the life cycle: what the register map does
not show (R8 to R113, R430 to R488).
-/
namespace Sys2Proof.Machine

/-! ### Time (R93 to R113) -/

/-- A view (R95). Time values are whole numbers of 2^-40 ns; increments are 8.40 fixed point, per tick. `moved` is how far the active increment
has slewed in microsecond `movedIn` of the counter (R98). -/
structure View where
  base : Nat := 0
  tb : Nat := 0
  inc : Nat := 2 ^ 41
  tgt : Nat := 2 ^ 41
  movedIn : Nat := 0
  moved : Nat := 0
deriving DecidableEq, Repr

/-- A cadence of the loaded Last (R105 to R108). `ref` the reference tick of its release, none while it waits for LOCK; `since` the tick at
which STATE became RUNNING; `deferred` a CAD_RELEASE comparator defers it; `halt` a core reset has stopped it until its resume; `run` it has taken
a token; `b` the boundary values reached so far, `k` the cycle of its last boundary; `stopping` a stop is not complete,
`firstLatch` its final boundary has not come; `img` the port image
of a takeover stands in for its first latch (R394); `res` boundaries left until
its first resumed outputs are latched (R462); `tick`, `ptick` the ticks of its last two boundaries. -/
structure CadSt where
  used : Bool := false
  ref : Option Nat := none
  since : Nat := 0
  deferred : Bool := false
  halt : Bool := false
  run : Bool := false
  b : Nat := 0
  k : Nat := 0
  stopping : Bool := false
  firstLatch : Bool := false
  img : Bool := false
  res : Nat := 0
  tick : Nat := 0
  ptick : Nat := 0
deriving DecidableEq, Repr

/-- The time base. `hi` the captured upper word of R94; `cmp` comparator targets in force (R111). -/
structure TimeSt where
  pll : Bool := false
  refOk : Bool := true
  cnt : Nat := 0
  hi : Nat := 0
  views : Tbl View := []
  cads : Tbl CadSt := []
  cmp : Tbl Nat := []
  bad1 : Nat := 0
  good1 : Nat := 0
deriving DecidableEq, Repr

/-! ### Dispatcher (R82 to R89) -/

/-- An item (R84). -/
structure Item where
  stamp : Nat
  flow : Nat
  level : Nat
  origin : Nat
  payload : List Byte
deriving DecidableEq, Repr

/-- A dispatcher: items on chip and in the rings in acceptance order, flows in service, LATE counts. -/
structure DispSt where
  store : List Item := []
  ring : List Item := []
  serv : List Nat := []
  late : Tbl Nat := []
deriving DecidableEq, Repr

/-! ### Units (R8 to R35, R66 to R81) -/

/-- What a unit's STATE tiles hold, typed. -/
structure UnitSem where
  loops : Tbl LoopSt := []
  objs : LogicObjs := {}
  tPrev : Nat := 0
  part : PartSt := {}
  axes : Tbl AxisSt := []
  seqs : Tbl SeqSt := []
  engs : Tbl EngSt := []
  last : Tbl SigVal := []
deriving DecidableEq, Repr, Inhabited

/-- A mapped logical tile: class, verification flag, physical tile, whether it has failed and been restored since it last passed, offset of its
content. -/
structure TileMap where
  lidx : Nat
  cls : Nat
  verify : Bool
  ptile : Nat
  again : Bool := false
  img : Nat := 0
deriving DecidableEq, Repr

/-- The rim side of a unit. `run` as `UNIT.STAT.RUN`; `tok`, `tokPrev` the ticks of its last two tokens, `cycle` the
cycle of the last one (or the tick of the last hand-over), `done` whether it has completed that cycle, `late` whether it
runs on past its boundary (R80), `skipped` whether its last cycle was skipped or overrun, `vis` the signals visible at
its token (R33), `shed` the shed level latched there (R435), `routeV` the values it delivered last (R511), `base` the
committed content, `work` the one of the cycle or item in progress, `shown` its logic objects as latched at the last
boundary of its partition's cadence (R144), `scan` a LOGIC unit's scan in progress, `regw` staged register writes (R365),
`ovr3` a HOLD for three overruns that waits for the next executed cycle (R34), `resumed` no cycle completed since a core reset (R141),
`restoring` a restore in progress,
`rest` the logical tile whose failure the restore repairs,
`smp` the converter words it reads, as they stood at its token, `smpWait` channels whose word it still waits for (R29, R229),
`deferW` tile-window writes held until it is idle (R78), oldest first: session and SEQ to answer, bytes by 1024 times
logical tile plus offset. -/
structure UnitSt where
  kind : Nat := 0
  event : Bool := false
  cad : Nat := 0
  order : Nat := 0
  run : Nat := 0
  tok : Nat := 0
  tokPrev : Nat := 0
  cycle : Nat := 0
  done : Bool := false
  late : Bool := false
  skipped : Bool := false
  tiles : List TileMap := []
  staged : List Staged := []
  routeV : Tbl SigVal := []
  vis : Tbl SigVal := []
  shed : Nat := 0
  base : UnitSem := {}
  work : UnitSem := {}
  shown : LogicObjs := {}
  engShown : Tbl EngSt := []
  scan : Option ScanSt := none
  item : Option Item := none
  regw : List (Nat × Nat) := []
  ovr3 : Bool := false
  resumed : Bool := false
  restoring : Bool := false
  rest : Nat := 0
  smp : Tbl (Nat × Nat) := []
  smpWait : List Nat := []
  deferW : List (Option (Nat × Nat) × List (Nat × Byte)) := []
deriving DecidableEq, Repr

/-- A checkpoint (R35): cycle, tiles (32·unit + logical index, bytes), typed contents by unit. -/
structure Ckpt where
  k : Nat := 0
  tiles : List (Nat × List Byte) := []
  sems : Tbl UnitSem := []
deriving DecidableEq, Repr

/-- The checkpoints of a cadence: the last complete one, the one being copied, whether the standby's acknowledgement is
still awaited (R389). -/
structure CkptSt where
  complete : Option Ckpt := none
  pend : Option Ckpt := none
  copied : Bool := false
deriving DecidableEq, Repr

/-! ### The Last (R36 to R65) -/

/-- A Last: its identity, image bytes and typed sections; `regs` the register words that HOLSCH and CANSCH set, `recipes` the
preloaded recipe images by device sequencer number, `motion` the bytes of the MOTION section; `gates` the gate lists
of the ports (R340); `handlers` the flows that
event-driven units hold handlers for; `flowSec` whether it has a FLOW section; `holRef`, `canRef` the RES references of the
schedules by segment or controller. What R43 leaves out: `absent` the signals, `absAins` the converter inputs, `gone` the records of the
units. -/
structure LastRec where
  id : List Byte := []
  image : List Byte := []
  autostart : Bool := false
  res : List ResRec := []
  units : List UnitRec := []
  tiles : List TileRec := []
  cads : List CadRec := []
  vsrc : Nat := 0
  levels : List (Nat × LevelRec) := []
  flows : List FlowRec := []
  binds : List BindRec := []
  own : OwnRec := {}
  io : List IoEntry := []
  sigs : List SigRec := []
  proof : ProofRec := {}
  xmap : List XmapRec := []
  xmapOld : List Byte := []
  routes : List RouteRec := []
  loops : Tbl (List LoopCfg) := []
  parts : List PartCfg := []
  axes : Tbl (List AxisCfg) := []
  seqs : Tbl (List SeqCfg) := []
  conds : Tbl (List CondIn) := []
  engs : Tbl (List EngCfg) := []
  hol : Tbl HolSched := []
  can : Tbl (List CanWin) := []
  holRef : List (Nat × Nat) := []
  canRef : List (Nat × Nat) := []
  regs : List (Nat × Nat) := []
  recipes : List (Nat × List Byte) := []
  motion : List Byte := []
  gates : Tbl GateRec := []
  handlers : Tbl (List Nat) := []
  flowSec : Bool := false
  absent : List Nat := []
  absAins : List Nat := []
  gone : List UnitRec := []
deriving DecidableEq, Repr

/-- A flash slot (R56): state 0 EMPTY, 1 WRITING, 2 VALID, 3 BAD. -/
structure SlotSt where
  st : Nat := 0
  image : List Byte := []
deriving DecidableEq, Repr

/-- A slot write in progress (R56): slot, image, the session and SEQ to answer. -/
structure SlotWr where
  slot : Nat
  image : List Byte
  owe : Nat × Nat
deriving DecidableEq, Repr

/-- A load in progress (R59): source as `SYS.LAST_STAT.SRC` (1 slot A, 2 slot B, 3 stream), the Last as its image gives it, step,
whether the boot runs it, the session and SEQ to answer, banks still calibrating, whether it is the second slot of the boot. -/
structure LoadSt where
  src : Nat
  last : LastRec
  step : Nat
  boot : Bool
  owe : Option (Nat × Nat) := none
  banks : List Nat := []
  second : Bool := false
deriving DecidableEq, Repr

/-! ### Force table (R166 to R171) -/

/-- An entry of the force table: the signal or direct object it names and its value. -/
structure ForceEnt where
  kind : Nat
  id : Nat
  val : Word
deriving DecidableEq, Repr

/-- A force operation that waits for its mirror (R168): table index, entry to set or none to remove; owning unit. -/
structure ForcePend where
  idx : Nat
  ent : Option ForceEnt
  unit : Nat
deriving DecidableEq, Repr

/-! ### Power and margins (R430 to R447) -/

/-- A region: boost in mV above plan, a boost asked for and not decided with the tick of the request, operations of this epoch, plan window running
and the tick it started, a trigger kept while the cores are down, rail change that waits (target mV), a descent to a
lower plan, floor part of the grant, grant taken for a boost, mean voltage of the last epoch, a hold seen under this
plan, tick at which the last plan completed. -/
structure RgnSt where
  boost : Nat := 0
  wants : Bool := false
  wantAt : Nat := 0
  ops : Nat := 0
  planning : Bool := false
  planAt : Nat := 0
  trig : Bool := false
  railWait : Option Nat := none
  descend : Bool := false
  floorG : Nat := 0
  cut : Nat := 0
  vm : Nat := 0
  held : Bool := false
  lastPlan : Nat := 0
deriving DecidableEq, Repr

/-- The arbiter and the planner: non-region power of the last four epochs, quiet epochs, epochs within the VIN limit,
reserve left, budget and limit in force, VIN measured last, smallest horizon announced, quiet epochs of the imposed
decimation, tick of the last PWR_FLOOR_SHORT, floors short for want of reserve, the last epoch whose start has been taken. -/
structure PwrSt where
  hist : List Nat := []
  quiet : Nat := 0
  ilimFor : Nat := 100
  reserve : Nat := 0
  budget : Nat := 60000
  ilim : Nat := 850
  vin : Nat := 0
  rgns : Tbl RgnSt := []
  minH : Nat := 255
  shedQuiet : Nat := 0
  floorEvt : Option Nat := none
  short : Bool := false
  epochAt : Option Nat := none
deriving DecidableEq, Repr

/-! ### Reset (R450 to R468) -/

/-- An episode (R454): first source, widest reach, sources asserted in it, level sources asserted now, tick at which the last pulse ends (R450);
`fresh` in the tick in which it began. -/
structure Episode where
  first : Nat
  reach : Nat
  mask : List Nat
  now : List Nat
  pulseEnd : Nat := 0
  fresh : Bool := false
deriving DecidableEq, Repr

/-- A resume record in MRAM (R466). -/
structure PlrRec where
  valid : Bool := false
  crcOk : Bool := true
  id : List Byte := []
  ns : Nat := 0
  cyc : List Nat := []
  force : Tbl ForceEnt := []
  ckpts : Tbl Ckpt := []
deriving DecidableEq, Repr

/-- The reset controller: episode; phase of the start-up (0 in reset, 1 trim load, 2 PLL, 3 rim up, 4 service cores up,
5 boot load begun); trim fault; a
resume in progress, the tick of its exit, whether the Last ran at the entry; the tick at which the HOLD_MAX window opened; ticks of the last core
entries; the power-loss sequence (tick, whether it writes a record, view 0 ns), sources deferred by it and those of them released since, VIN below its limit; a life-cycle transition
accepted; service cores up; outputs safe after HOLD_MAX; the fabric down (`dark`), from the entry of a core
reset until its units are mapped again; a resume record waiting to be applied, since which tick, and whether a release waits for it. -/
structure RstSt where
  epi : Option Episode := none
  phase : Nat := 0
  trimFault : Bool := false
  resume : Bool := false
  exitTick : Nat := 0
  wasRun : Bool := false
  holdFrom : Option Nat := none
  entries : List Nat := []
  loss : Option Nat := none
  lossRec : Bool := false
  lossNs : Nat := 0
  deferred : List Nat := []
  deferOff : List Nat := []
  vinLow : Bool := false
  lcPend : Bool := false
  coresUp : Bool := false
  safe : Bool := false
  dark : Bool := false
  plrWait : Bool := false
  plrAt : Nat := 0
  plrRun : Bool := false
deriving DecidableEq, Repr

/-! ### Event recorder (R470 to R478) -/

/-- An event in the rim's queue with the values of its raising tick (R471, R474). -/
structure EvRec where
  tick : Nat := 0
  code : Nat
  inst : Nat
  opsec : Nat
  pcycle : Nat
  t1 : Option Nat
  island : Bool
  data : List Byte
deriving DecidableEq, Repr

/-- The recorder: queue, tokens taken from the buckets by code, MRAM pointer area, clear in progress, tick from which the present second of
operation is counted. -/
structure EvtSt where
  queue : List EvRec := []
  taken : Tbl Nat := []
  supp : Tbl Nat := []
  opsec : Nat := 0
  pcycle : Nat := 0
  pfill : Nat := 0
  wptr : Nat := 16384
  total : Nat := 0
  stopped : Bool := false
  clearing : Bool := false
  clearOwe : Option (Nat × Nat) := none
  lostNow : Nat := 0
  opAt : Nat := 0
deriving DecidableEq, Repr

/-! ### Life cycle (R479 to R488) -/

/-- The life cycle (R479 to R488): state (0 TEST, 1 SHIPPED, 2 OWNED, 3 SEALED, 4 RETURNED, 5 SCRAPPED) and fuses in OTP, DEVLOAD in
flash, key hashes by slot, slots revoked, trust-anchor hash, nonce, unique identifier, least firmware version; firmware slots with the running one
and one written for the next boot; erasure started and done; the tick-free mark that another request is in progress is `rst.lcPend`. -/
structure LcSt where
  state : Nat := 0
  dev : Bool := false
  keys : Tbl (List Byte) := []
  revoked : List Nat := []
  anchor : List Byte := []
  nonce : Nat := 0
  uid : Nat := 0
  svnMin : Nat := 0
  fwSlot : Nat := 0
  fwNext : Nat := 0
  fwImages : Tbl (List Byte) := []
  eraseStart : Bool := false
  eraseDone : Bool := false
deriving DecidableEq, Repr

/-! ### Outputs of the block -/

/-- What the block sends: the model's own record of it (log entry 12); of a Holup frame also the code groups on its line (R286), of a Welt
frame its bytes (R383). -/
inductive Emit where
  | eyelet (sess seq status : Nat) (payload : List Byte)
  | hol (seg : Nat) (f : HolFrame) (line : List Nat)
  | can (ctl : Nat) (f : CanFrame)
  | eth (port queue : Nat) (bytes : List Byte)
  | welt (f : WeltFrame) (line : List Byte)
  | hbWelt (bytes : List Byte)
  | hbPair (bytes : List Byte)
  | group (kind gid devidx eng k ns frac post mask : Nat)
  | history (historian : Nat) (bytes : List Byte)
deriving DecidableEq, Repr

end Sys2Proof.Machine
end

