-- ==== Sys2Proof/Types/Cmd.lean ====
section
/-!
DEFINITION. Operands of the commands: what the environment brings to the block.
-/
namespace Sys2Proof.Machine

/-- An Eyelet request's envelope (R346): session, SEQ, and whether its payload continues. -/
structure Req where
  sess : Nat
  seq : Nat
  more : Bool := false
deriving DecidableEq, Repr

/-- A writer of registers (R365, R510). -/
inductive Writer where
  | eyelet
  | core
  | unit (u : Nat)
deriving DecidableEq, Repr

/-- What the environment settles at a boundary: bits upset in tile memory (address, mask) before the tokens' verification (R76; log entry 11),
and the operations that the units it stops have executed in the cycle, by unit (R80). -/
structure BoundaryEnv where
  flips : List (Nat × Byte) := []
  ops : List (Nat × Nat) := []
deriving DecidableEq, Repr

/-- What an Eyelet client's certificate shows once verified (R480): which anchor its chain ends in (0 none, 1 owner,
2 maker) and the role it names (0 VIEW to 3 OWNER); the port on which its ClientHello came, its IPv4 address and UDP port, and whether it is a peer
device of an arming group (R348). -/
structure ClientCert where
  anchor : Nat
  role : Nat
  ok : Bool
  port : Nat := 0
  ip : Nat := 0
  udp : Nat := 0
  peer : Bool := false
deriving DecidableEq, Repr

/-- What a converter window measured (R224): the net packet count, the residues at its edges in 2^-24 packets, saturation of the
modulator, the same of the check converter when it ran a window there, die temperature in 0.25 °C and analogue-die power in mW. -/
structure AdcMeas where
  q : Int
  rho0 : Int := 0
  rho1 : Int := 0
  ovr : Bool
  chkQ : Int := 0
  chkRho0 : Int := 0
  chkRho1 : Int := 0
  chkOvr : Bool := false
  tj : Int := 0
  pa : Nat := 0
deriving DecidableEq, Repr

/-- What a calibration of one range measured (R236): converter (16 the check converter), range, zero and reference
results in 2^-8 codes, temperature and power. -/
structure CalMeas where
  ch : Nat
  range : Nat
  z : Int
  r : Int
  tj : Int
  pa : Nat
deriving DecidableEq, Repr

/-- The end of a step fetch (R219): the sequencer of the unit, and whether a record could not be read (an uncorrectable DRAM error, a tag that
failed twice). -/
structure FetchEnd where
  seq : Nat
  bad : Bool := false
deriving DecidableEq, Repr

/-- A group message (R274). -/
structure GroupMsg where
  gid : Nat
  devidx : Nat
  eng : Nat
  k : Nat
  ns : Nat := 0
  frac : Nat := 0
  mask : Nat := 0
  post : Nat := 1
  period : Nat := 0
  phase : Nat := 0
deriving DecidableEq, Repr

/-- A CAN error (R324): as transmitter or receiver, its LEC code; `dom` a dominant bit was seen during the passive error flag of a transmitter, or
first after a receiver's error flag; `stuffArb` a stuff error during arbitration on a stuff bit sent recessive and read dominant; `extra` the further
events of this error that cost 8 each (a bit error in an active flag, each run of too many dominant bits after one); `pex` a protocol exception. -/
structure CanErr where
  tx : Bool
  lec : Nat
  dom : Bool := false
  stuffArb : Bool := false
  extra : Nat := 0
  pex : Bool := false
deriving DecidableEq, Repr

/-- What the arbiter measures over an epoch (R430, R432): package input power, VIN current (mA) and voltage (mV),
non-region power, and per region rail power (mW) and voltage (mV). -/
structure EpochMeas where
  pin : Nat
  iin : Nat
  vin : Nat
  base : Nat
  rgns : List (Nat × Nat)
deriving DecidableEq, Repr

/-- What a margin plan measured (R441): region; by unit the latest completion, or for an event-driven unit the longest service time, in 2 ns
ticks; replica ratios r(V) at 550, 555, … 950 mV in 10^-6; α_T in 10^-6 per °C; a_g in 10^-9 per
hour; die temperature in 0.25 °C; largest count of operations in an epoch; operating hours. -/
structure PlanMeas where
  rgn : Nat
  units : List (Nat × Nat)
  ratio : List Nat
  alphaT : Nat
  ag : Int
  tj : Int
  ops : Nat
  hours : Nat
deriving DecidableEq, Repr

/-- The body of a life-cycle request (R485) after its SUB byte. -/
structure LcMsg where
  keyIdx : Nat
  nonce : Nat
  uid : List Byte
  arg : List Byte
  anchor : List Byte
  osig : List Byte
  tsig : List Byte
deriving DecidableEq, Repr

end Sys2Proof.Machine
end

