-- ==== Sys2Proof/Syntax.lean ====
section
/-!
DEFINITION. The commands of the block: one constructor per row of the spec's command table, with the row's operands.
An operand is what the environment decides and the block's state does not hold: the addressed instance, a value
written, a frame received, a measured quantity. Log entries 10 and 11 say how operands were chosen.
-/
namespace Sys2Proof

open Sys2Proof.Machine

/-- A command of the block (spec/opcode_table.json). -/
inductive Instr where
  /-- CADENCE_BOUNDARY (R28). At a boundary tick of a cadence the rim latches staged outputs, closes aligned windows, freezes receive buffers and issues start tokens. -/
  | cadenceBoundary (mask : Nat) (env : BoundaryEnv)
  /-- SAMPLE_PRESENT (R29). A converter sample word of a closed window reaches the rim input register and releases waiting readers. -/
  | samplePresent (bank : Nat) (ch : Nat)
  /-- UNIT_COMPLETION (R67). A cadence unit completes its sequence, commits its STATE tiles and the rim records its slack. -/
  | unitCompletion (u : Nat) (tiles : List (Nat × List Byte)) (flips : List (Nat × Byte))
  /-- CHECKPOINT_COPY_DONE (R35). The checkpoint engine finishes copying the changed tiles of a cycle and the checkpoint becomes complete. -/
  | checkpointCopyDone (n : Nat)
  /-- TILE_RESTORE_DONE (R79). Restoring a unit's tiles after a verification failure ends and the unit may take the next token. -/
  | tileRestoreDone (u : Nat) (flips : List (Nat × Byte))
  /-- TILE_WRITE_APPLY (R78). A held tile-window write is applied once the owning unit is idle, or dropped by the EDIT rule. -/
  | tileWriteApply (u : Nat)
  /-- DISPATCH_ACCEPT (R87). An item from an event source, a unit post or a service core is accepted into the on-chip store or a spill ring, or refused. -/
  | dispatchAccept (die : Nat) (flow : Nat) (prod : Nat) (orig : Nat) (payload : List Byte)
  /-- DISPATCH_HANDOVER (R86). An idle event-driven unit is handed the eligible item chosen by level, stamp and flow. -/
  | dispatchHandover (u : Nat)
  /-- SPILL_RETURN (R87). The spill engine moves items from the head of a ring back into the on-chip store as quota frees. -/
  | spillReturn (die : Nat) (level : Nat)
  /-- ITEM_COMPLETION (R81). An event-driven unit completes an item, its slack against the flow bound is measured and its writes commit. -/
  | itemCompletion (u : Nat) (tiles : List (Nat × List Byte)) (flips : List (Nat × Byte))
  /-- CMP_FIRE (R111). A time comparator reaches its target, asserts its event source and carries out its action. -/
  | cmpFire (i : Nat)
  /-- WAIT_LOCK_TIMEOUT (R108). The WAIT_LOCK timeout expires before view 0 locks and the cadences are released in free run. -/
  | waitLockTimeout (n : Nat)
  /-- TIME_CNT_LO_READ (R94). A read of the counter low word captures the upper word for the following high read. -/
  | timeCntLoRead
  /-- TIME_SNAP (R100). A write of the snapshot mask captures the counter and the selected views at one tick. -/
  | timeSnap (mask : Nat)
  /-- TIME_SET_WRITE (R98). An absolute set of a view commits on the high word write or is refused. -/
  | timeSetWrite (v : Nat) (hi : Word)
  /-- TIME_STEP_WRITE (R98). A signed step of a view commits on the high word write, using the step allowance, or is refused. -/
  | timeStepWrite (v : Nat) (hi : Word)
  /-- TIME_INC_WRITE (R98). An increment target commits on the high word write and is slewed toward, or is refused. -/
  | timeIncWrite (v : Writer × Nat) (hi : Word)
  /-- TIME_VCTL_WRITE (R97). A write of a view's source or segment takes effect at its tick and ends LOCK. -/
  | timeVctlWrite (v : Nat) (w : Word)
  /-- TIME_CMP_TARGET_WRITE (R111). A comparator target commits on the high word write and replaces an armed target. -/
  | timeCmpTargetWrite (i : Nat) (hi : Word)
  /-- REFCLK_LOSS (R113). Loss of the 25 MHz reference sets REFLOSS and the rim runs in holdover. -/
  | refclkLoss
  /-- LAST_STREAM (R57). Eyelet command streaming a Last image into the incoming area and loading it. -/
  | lastStream (q : Req) (img : List Byte)
  /-- LAST_LOAD (R59). Eyelet command loading a Last from a flash slot through the twelve load steps. -/
  | lastLoad (q : Req) (slot : Nat)
  /-- LAST_VERIFY (R61). Eyelet command running load steps 1 to 7 only and reporting the result. -/
  | lastVerify (q : Req) (img : List Byte)
  /-- SLOT_WRITE (R56). Eyelet command writing an image into a flash slot, reading it back and marking the slot VALID or BAD. -/
  | slotWrite (q : Req) (slot : Nat) (img : List Byte)
  /-- SLOT_COMMIT (R57). Eyelet command writing a streamed Last into the slot not in use. -/
  | slotCommit (q : Req)
  /-- SLOT_PREF_WRITE (R65). A write of the preferred boot slot is stored in flash for the next boot. -/
  | slotPrefWrite (w : Word)
  /-- BOOT_LOAD (R64). After DRAM training the device loads the preferred valid slot, then the other, or ends EMPTY. -/
  | bootLoad
  /-- LOAD_REHEARSAL_END (R445). The load rehearsal ends and the first margin plan of every region is made at declared load. -/
  | loadRehearsalEnd (tooLate : Bool) (ps : List PlanMeas)
  /-- FW_LOAD (R486). Eyelet command loading a signed service-core firmware image into the slot not running. -/
  | fwLoad (q : Req) (img : List Byte)
  /-- RUN (R377). Eyelet command moving a STOPPED Last to RUNNING. -/
  | run (q : Req)
  /-- STOP (R377). Eyelet command stopping a RUNNING Last at each cadence's next boundary. -/
  | stop (q : Req)
  /-- RESET (R377). Eyelet command asserting a core or system reset after its response is sent. -/
  | reset (q : Req) (reach : Nat)
  /-- REG_READ (R375). Eyelet command reading consecutive register words. -/
  | regRead (q : Req) (addr : Nat) (count : Nat)
  /-- REG_WRITE (R375). Eyelet command writing consecutive register words, stopping at the first not applied. -/
  | regWrite (q : Req) (addr : Nat) (ws : List Word)
  /-- MEM_READ (R373). Eyelet command reading bytes from the tile window, DRAM or MRAM. -/
  | memRead (q : Req) (addr : Nat) (len : Nat)
  /-- MEM_WRITE (R373). Eyelet command writing bytes to the tile window under the tile rules. -/
  | memWrite (q : Req) (addr : Nat) (data : List Byte)
  /-- RECIPE_LOAD (R208). Eyelet command loading and checking a recipe image into an idle sequencer. -/
  | recipeLoad (q : Req) (num : Nat) (img : List Byte)
  /-- REC_READ (R476). Eyelet command returning recorder slots. -/
  | recRead (q : Req) (first : Nat) (count : Nat)
  /-- REC_CLEAR (R477). Eyelet command clearing the event recorder in state OWNED. -/
  | recClear (q : Req)
  /-- REC_CLEAR_DONE (R477). The clear finishes erasing marks, resets the pointers and writes REC_CLEARED. -/
  | recClearDone
  /-- SNAP_LOCK (R281). Eyelet command locking or unlocking a flash snapshot slot. -/
  | snapLock (q : Req) (slot : Nat) (lock : Nat)
  /-- SNAP_CLEAR (R281). Eyelet command clearing a flash snapshot slot. -/
  | snapClear (q : Req) (slot : Nat)
  /-- NETCFG_READ (R349). Eyelet command returning the network settings. -/
  | netcfgRead (q : Req)
  /-- NETCFG_WRITE (R349). Eyelet command writing the network settings for the next reset. -/
  | netcfgWrite (q : Req) (data : List Byte)
  /-- EYELET_HANDSHAKE (R345). A DTLS ClientHello opens a session, or is refused when eight are open. -/
  | eyeletHandshake (cert : ClientCert)
  /-- EYELET_IDLE_TIMEOUT (R345). A session without records for the idle time is closed. -/
  | eyeletIdleTimeout (sess : Nat)
  /-- REGISTER_WRITE (R361). A write to a register without a row of its own is applied, ignored under the RWL rule, rejected or dropped. -/
  | registerWrite (wr : Writer) (addr : Nat) (w : Word)
  /-- UNIT_CLRSTAT (R90). A write of CLRSTAT resets the unit's minimum slack and overrun total. -/
  | unitClrstat (u : Nat)
  /-- CFGCHK_PASS_END (R368). A configuration-check pass ends and, if clean, is committed or compared with the reference. -/
  | cfgchkPassEnd
  /-- COMMIT (R369). A COMMIT command suspends comparison until the next clean pass becomes the reference. -/
  | cfgCommit
  /-- SUSPEND (R369). A SUSPEND command stops comparison until a commit completes. -/
  | cfgSuspend
  /-- CFGCHK_REF_WRITE (R369). A direct write of the reference sets REFVALID and clears BLKVALID. -/
  | cfgchkRefWrite (w : Word)
  /-- LOOP_MODE (R132). A new loop request's MODE field is accepted or refused and changes the loop mode. -/
  | loopMode (u : Nat) (l : Nat) (sig : Bool)
  /-- LOOP_EDIT (R132). A new loop request's EDIT field enters or leaves EDIT. -/
  | loopEdit (u : Nat) (l : Nat) (sig : Bool)
  /-- LOOP_SET (R132). A new loop request's SET field changes the coefficient set of an open loop. -/
  | loopSet (u : Nat) (l : Nat) (sig : Bool)
  /-- START_COLD (R161). Logic command starting a partition with initial values of all objects. -/
  | startCold (u : Nat)
  /-- START_WARM (R161). Logic command starting a partition keeping RETAIN objects. -/
  | startWarm (u : Nat)
  /-- LOGIC_STOP (R160). Logic command stopping a partition at the next boundary with outputs to safe values. -/
  | logicStop (u : Nat)
  /-- TEST_ON (R162). Logic command putting a partition into strict mode until TEST_OFF. -/
  | testOn (u : Nat)
  /-- TEST_OFF (R162). Logic command ending test and restarting the strict count. -/
  | testOff (u : Nat)
  /-- NOP (R151). Logic instruction with no effect. -/
  | lgNop (u : Nat)
  /-- LD (R151). Logic instruction loading a bit into CR. -/
  | lgLd (u : Nat) (area : Nat) (i : Nat)
  /-- LDN (R151). Logic instruction loading an inverted bit into CR. -/
  | lgLdn (u : Nat) (area : Nat) (i : Nat)
  /-- AND (R151). Logic instruction ANDing a bit into CR. -/
  | lgAnd (u : Nat) (area : Nat) (i : Nat)
  /-- ANDN (R151). Logic instruction ANDing an inverted bit into CR. -/
  | lgAndn (u : Nat) (area : Nat) (i : Nat)
  /-- OR (R151). Logic instruction ORing a bit into CR. -/
  | lgOr (u : Nat) (area : Nat) (i : Nat)
  /-- ORN (R151). Logic instruction ORing an inverted bit into CR. -/
  | lgOrn (u : Nat) (area : Nat) (i : Nat)
  /-- XOR (R151). Logic instruction XORing a bit into CR. -/
  | lgXor (u : Nat) (area : Nat) (i : Nat)
  /-- XORN (R151). Logic instruction XORing an inverted bit into CR. -/
  | lgXorn (u : Nat) (area : Nat) (i : Nat)
  /-- ST (R151). Logic instruction storing CR to a bit. -/
  | lgSt (u : Nat) (area : Nat) (i : Nat)
  /-- STN (R151). Logic instruction storing inverted CR to a bit. -/
  | lgStn (u : Nat) (area : Nat) (i : Nat)
  /-- S (R151). Logic instruction setting a bit when CR is 1. -/
  | lgS (u : Nat) (area : Nat) (i : Nat)
  /-- R_BIT (R151). Logic instruction R clearing a bit when CR is 1. -/
  | lgR (u : Nat) (area : Nat) (i : Nat)
  /-- NOT (R151). Logic instruction inverting CR. -/
  | lgNot (u : Nat)
  /-- AND_PUSH (R151). Logic instruction AND( pushing CR and the operator and loading a bit. -/
  | lgAndPush (u : Nat) (area : Nat) (i : Nat)
  /-- ANDN_PUSH (R151). Logic instruction ANDN( pushing CR and the operator and loading a bit. -/
  | lgAndnPush (u : Nat) (area : Nat) (i : Nat)
  /-- OR_PUSH (R151). Logic instruction OR( pushing CR and the operator and loading a bit. -/
  | lgOrPush (u : Nat) (area : Nat) (i : Nat)
  /-- ORN_PUSH (R151). Logic instruction ORN( pushing CR and the operator and loading a bit. -/
  | lgOrnPush (u : Nat) (area : Nat) (i : Nat)
  /-- XOR_PUSH (R151). Logic instruction XOR( pushing CR and the operator and loading a bit. -/
  | lgXorPush (u : Nat) (area : Nat) (i : Nat)
  /-- POP (R151). Logic instruction ) popping the branch stack and combining with CR. -/
  | lgPop (u : Nat)
  /-- R_TRIG (R157). Logic instruction detecting a rising edge of CR. -/
  | lgRTrig (u : Nat) (n : Nat)
  /-- F_TRIG (R157). Logic instruction detecting a falling edge of CR. -/
  | lgFTrig (u : Nat) (n : Nat)
  /-- TON (R156). Logic instruction running an on-delay timer. -/
  | lgTon (u : Nat) (n : Nat)
  /-- TOF (R156). Logic instruction running an off-delay timer. -/
  | lgTof (u : Nat) (n : Nat)
  /-- TP (R156). Logic instruction running a pulse timer. -/
  | lgTp (u : Nat) (n : Nat)
  /-- CTU (R158). Logic instruction counting up on a rising CR. -/
  | lgCtu (u : Nat) (n : Nat)
  /-- CTD (R158). Logic instruction counting down on a rising CR. -/
  | lgCtd (u : Nat) (n : Nat)
  /-- RESC (R158). Logic instruction resetting a counter when CR is 1. -/
  | lgResc (u : Nat) (n : Nat)
  /-- LDC (R158). Logic instruction loading a counter with its preset when CR is 1. -/
  | lgLdc (u : Nat) (n : Nat)
  /-- LDW (R151). Logic instruction loading a word into ACC. -/
  | lgLdw (u : Nat) (area : Nat) (i : Nat)
  /-- STW (R151). Logic instruction storing ACC to a word. -/
  | lgStw (u : Nat) (area : Nat) (i : Nat)
  /-- ADD (R153). Logic instruction adding a word to ACC with saturation. -/
  | lgAdd (u : Nat) (area : Nat) (i : Nat)
  /-- SUB (R153). Logic instruction subtracting a word from ACC with saturation. -/
  | lgSub (u : Nat) (area : Nat) (i : Nat)
  /-- MUL (R153). Logic instruction multiplying ACC by a word with saturation. -/
  | lgMul (u : Nat) (area : Nat) (i : Nat)
  /-- DIV (R153). Logic instruction dividing ACC by a word. -/
  | lgDiv (u : Nat) (area : Nat) (i : Nat)
  /-- WAND (R151). Logic instruction bitwise AND of ACC with a word. -/
  | lgWand (u : Nat) (area : Nat) (i : Nat)
  /-- WOR (R151). Logic instruction bitwise OR of ACC with a word. -/
  | lgWor (u : Nat) (area : Nat) (i : Nat)
  /-- WXOR (R151). Logic instruction bitwise XOR of ACC with a word. -/
  | lgWxor (u : Nat) (area : Nat) (i : Nat)
  /-- GT (R151). Logic instruction setting CR when ACC is greater than a word. -/
  | lgGt (u : Nat) (area : Nat) (i : Nat)
  /-- GE (R151). Logic instruction setting CR when ACC is greater than or equal to a word. -/
  | lgGe (u : Nat) (area : Nat) (i : Nat)
  /-- EQ (R151). Logic instruction setting CR when ACC equals a word. -/
  | lgEq (u : Nat) (area : Nat) (i : Nat)
  /-- NE (R151). Logic instruction setting CR when ACC differs from a word. -/
  | lgNe (u : Nat) (area : Nat) (i : Nat)
  /-- LE (R151). Logic instruction setting CR when ACC is less than or equal to a word. -/
  | lgLe (u : Nat) (area : Nat) (i : Nat)
  /-- LT (R151). Logic instruction setting CR when ACC is less than a word. -/
  | lgLt (u : Nat) (area : Nat) (i : Nat)
  /-- SHL (R151). Logic instruction shifting ACC left. -/
  | lgShl (u : Nat) (n : Nat)
  /-- SHR (R151). Logic instruction shifting ACC right arithmetically. -/
  | lgShr (u : Nat) (n : Nat)
  /-- JMP (R152). Logic instruction jumping forward. -/
  | lgJmp (u : Nat) (d : Nat)
  /-- JMPC (R152). Logic instruction jumping forward when CR is 1. -/
  | lgJmpc (u : Nat) (d : Nat)
  /-- JMPCN (R152). Logic instruction jumping forward when CR is 0. -/
  | lgJmpcn (u : Nat) (d : Nat)
  /-- END (R147). Logic instruction ending the scan. -/
  | lgEnd (u : Nat)
  /-- FRC_SEL_WRITE (R171). A write of the force selector loads the prepared entry from the table. -/
  | frcSelWrite (w : Word)
  /-- FRC_SET (R166). SET applies the prepared force entry to the selected table entry, or is refused. -/
  | frcSet
  /-- FRC_REMOVE (R171). REMOVE removes the selected force entry. -/
  | frcRemove
  /-- FORCE_COMMIT (R168). A pending force set or removal commits once the owning segment's mirror is updated while idle. -/
  | forceCommit
  /-- ENABLE (R179). Axis command enabling a DISABLED axis. -/
  | axEnable (u : Nat) (a : Nat) (sig : Bool)
  /-- DISABLE (R179). Axis command disabling an axis. -/
  | axDisable (u : Nat) (a : Nat) (sig : Bool)
  /-- MOVE_ABS (R180). Axis command planning a jerk-limited move to an absolute target. -/
  | axMoveAbs (u : Nat) (a : Nat) (sig : Bool)
  /-- MOVE_REL (R180). Axis command planning a jerk-limited relative move. -/
  | axMoveRel (u : Nat) (a : Nat) (sig : Bool)
  /-- VELOCITY (R182). Axis command ramping toward a target velocity. -/
  | axVelocity (u : Nat) (a : Nat) (sig : Bool)
  /-- AXIS_STOP (R182). Axis command STOP ramping the axis to rest. -/
  | axStop (u : Nat) (a : Nat) (sig : Bool)
  /-- GEAR_IN (R186). Axis command engaging electronic gearing directly or ramped. -/
  | axGearIn (u : Nat) (a : Nat) (sig : Bool)
  /-- GEAR_OUT (R186). Axis command disengaging gearing by a stop ramp. -/
  | axGearOut (u : Nat) (a : Nat) (sig : Bool)
  /-- OFFSET (R186). Axis command superimposing an offset move on geared motion. -/
  | axOffset (u : Nat) (a : Nat) (sig : Bool)
  /-- HOME (R187). Axis command running the descriptor's homing method. -/
  | axHome (u : Nat) (a : Nat) (sig : Bool)
  /-- SET_POS (R179). Axis command setting the position and HOMED. -/
  | axSetPos (u : Nat) (a : Nat) (sig : Bool)
  /-- RESET_FAULT (R179). Axis command leaving FAULT or HELD when no cause persists. -/
  | axResetFault (u : Nat) (a : Nat) (sig : Bool)
  /-- VM_SPEED (R184). Axis command planning a virtual-axis velocity ramp from cycle K_eff. -/
  | axVmSpeed (u : Nat) (a : Nat) (sig : Bool)
  /-- CHOP_TRIP (R193). A chopper comparator trips and the phase enters its off time. -/
  | chopTrip (ch : Nat) (ph : Bool) (first : Bool)
  /-- CHOP_MAX_ON (R193). A chopper on-phase reaches 50 µs without a trip and the off time starts. -/
  | chopMaxOn (ch : Nat) (ph : Bool)
  /-- CHOP_OFF_END (R193). A chopper off time ends and the next cycle starts. -/
  | chopOffEnd (ch : Nat) (ph : Bool)
  /-- SQ_START (R211). Sequencer command starting a recipe now or at cycle K_START. -/
  | sqStart (u : Nat) (n : Nat) (sig : Bool)
  /-- SQ_HOLD (R217). Sequencer command freezing a running recipe. -/
  | sqHold (u : Nat) (n : Nat) (sig : Bool)
  /-- SQ_RESUME (R217). Sequencer command resuming a held recipe. -/
  | sqResume (u : Nat) (n : Nat) (sig : Bool)
  /-- SQ_ABORT (R218). Sequencer command aborting a recipe. -/
  | sqAbort (u : Nat) (n : Nat) (sig : Bool)
  /-- SQ_RESET (R209). Sequencer command returning DONE or ABORTED to IDLE. -/
  | sqReset (u : Nat) (n : Nat) (sig : Bool)
  /-- STEP_FETCH_DONE (R219). The step fetcher finishes filling a sequencer's successor slots. -/
  | stepFetchDone (u : Nat) (n : FetchEnd)
  /-- RECIPE_STORE_WRITE (R468). An accepted recipe image is written to the flash recipe store. -/
  | recipeStoreWrite (num : Nat)
  /-- ADC_WINDOW_CLOSE (R223). A converter window closes and delivers its sample word, with averaging, validity and visit comparison. -/
  | adcWindowClose (bank : Nat) (ch : Nat) (m : AdcMeas)
  /-- MAINS_EDGE (R228). A rising MAINS_SYNC edge ends a period measurement and may declare or lose mains lock. -/
  | mainsEdge
  /-- MAINS_TIMEOUT (R228). No MAINS_SYNC edge within 25 ms loses mains lock. -/
  | mainsTimeout
  /-- ADC_CH_WRITE (R234). A write of a channel's control or window length commits and invalidates samples as tabulated. -/
  | adcChWrite (bank : Nat) (ch : Nat) (wlen : Bool) (w : Word) (m : AdcMeas)
  /-- BANKCAL (R237). Calibration command calibrating every range of a bank. -/
  | bankcal (bank : Nat)
  /-- ROLL (R242). Calibration command starting a rolling pass of all enabled channels. -/
  | roll (bank : Nat)
  /-- STOPROLL (R242). Calibration command ending the pass after the present channel. -/
  | stoproll (bank : Nat)
  /-- BANKCAL_DONE (R237). A bank calibration ends and the channels restart their windows. -/
  | bankcalDone (bank : Nat) (ms : List CalMeas)
  /-- ROLL_CAL_DONE (R241). A channel's 40 ms calibration in a rolling pass ends and it reconnects. -/
  | rollCalDone (bank : Nat) (ms : List CalMeas)
  /-- AUTOCAL_PERIOD (R242). CAL_PERIOD hours elapse and the scheduler starts a rolling pass. -/
  | autocalPeriod (bank : Nat)
  /-- CHECK_VISIT_TIMEOUT (R240). A check-converter visit sees no window within 1 s and is abandoned. -/
  | checkVisitTimeout (bank : Nat)
  /-- DIO_FILTERED_TRANSITION (R250). A raw run lasts the filter time and the filtered level changes, counting and asserting the edge event. -/
  | dioFilteredTransition (pin : Nat)
  /-- DIO_REJECTED_PULSE (R253). A raw departure ends before the filter time and counts toward chatter. -/
  | dioRejectedPulse (pin : Nat)
  /-- DIO_CNT_WRITE (R252). A write of a pin counter sets the count at its tick. -/
  | dioCntWrite (pin : Nat) (w : Word)
  /-- DIO_OUT_WRITE (R257). A write of a DIO group output word is latched at the next boundary or rejected whole. -/
  | dioOutWrite (wr : Writer) (g : Nat) (al : Nat) (w : Word)
  /-- AOUT_SET_WRITE (R257). A write of an analogue output value is latched at the next boundary or rejected. -/
  | aoutSetWrite (wr : Writer) (n : Nat) (w : Word)
  /-- PWM_SET_WRITE (R257). A write of a PWM value is latched at the next boundary or rejected. -/
  | pwmSetWrite (wr : Writer) (n : Nat) (w : Word)
  /-- AOUT_CHECK (R248). The 1 ms analogue output check sets OVLD or OPEN. -/
  | aoutCheck (n : Nat) (ovld : Bool) (opn : Bool)
  /-- PWM_CARRIER_START (R256). A PWM carrier period starts and takes the latest high time. -/
  | pwmCarrierStart (n : Nat)
  /-- ARM (R267). Engine command arming capture into a free slot, or starting streaming. -/
  | engArm (u : Nat) (e : Nat)
  /-- DISARM (R267). Engine command stopping capture and freeing the slot. -/
  | engDisarm (u : Nat) (e : Nat)
  /-- FORCE (R267). Engine command forcing a trigger. -/
  | engForce (u : Nat) (e : Nat)
  /-- RELEASE (R267). Engine command freeing a record slot. -/
  | engRelease (u : Nat) (e : Nat) (slot : Nat)
  /-- GROUP_ARM (R274). Group message arming every member at cycle K. -/
  | groupArm (m : GroupMsg)
  /-- GROUP_FIRE (R275). Group message triggering or adjusting a member at the earliest trigger cycle. -/
  | groupFire (m : GroupMsg)
  /-- GROUP_DISARM (R274). Group message disarming every member. -/
  | groupDisarm (m : GroupMsg)
  /-- ACQ_BLOCK_WRITTEN (R269). An engine block leaves the write queue into DRAM and the decimation is re-judged. -/
  | acqBlockWritten (u : Nat) (e : Nat)
  /-- HISTORY_SLICE_WRITE (R279). A history slice with all entries present is written to its ring. -/
  | historySliceWrite (ring : Nat) (ms : Nat)
  /-- HISTORY_STREAM_SEND (R351). The paced stream sends the next slice or block fragments, or a GAP datagram. -/
  | historyStreamSend (block : Bool) (n : Nat)
  /-- FREEZE (R281). A freeze request copies the ring spans to a snapshot slot or is queued or refused. -/
  | freeze (cause : Nat)
  /-- FREEZE_COPY_END (R281). A freeze copy ends 2 ms after its last slice. -/
  | freezeCopyEnd
  /-- HOL_BASIC_CYCLE_START (R291). A basic cycle starts; the master sends SYNC and the degraded schedule changes at index 0. -/
  | holBasicCycleStart (seg : Nat)
  /-- HOL_SLOT_START (R304). An exclusive slot or poll entry starts and its sender sends data or NULL. -/
  | holSlotStart (seg : Nat) (i : Nat)
  /-- HOL_SLOT_WINDOW_CLOSE (R302). An acceptance window closes without its frame and absence and channel-failure counts advance. -/
  | holSlotWindowClose (seg : Nat) (i : Nat)
  /-- HOL_ARB_CONTEND (R294). A node's arbitration wait expires on a quiet line and it starts its frame. -/
  | holArbContend (seg : Nat) (ch : Nat)
  /-- HOL_POLL_REPLY_DUE (R295). T_TA after a POLL or DLY_REQ the polled node sends its answer. -/
  | holPollReplyDue (seg : Nat)
  /-- HOL_DELAY_MEASURE (R296). The master's one-per-second delay measurement queues a DLY_REQ. -/
  | holDelayMeasure (seg : Nat)
  /-- HOL_SYNC (R297). A SYNC frame is received, checked against claims and used for offset and view 0 steering. -/
  | holSync (seg : Nat) (f : HolFrame) (arr : Nat) (t : Nat)
  /-- HOL_CSTART (R299). A CSTART frame is received and ends a coldstart by collision or follow. -/
  | holCstart (seg : Nat) (f : HolFrame) (arr : Nat) (t : Nat)
  /-- HOL_OUT (R305). An OUT frame is received in its slot and completes a buffer. -/
  | holOut (seg : Nat) (f : HolFrame) (arr : Nat) (t : Nat)
  /-- HOL_IN (R305). An IN frame is received in its slot and completes a buffer. -/
  | holIn (seg : Nat) (f : HolFrame) (arr : Nat) (t : Nat)
  /-- HOL_POLL (R295). A POLL frame is received by its destination. -/
  | holPoll (seg : Nat) (f : HolFrame) (arr : Nat) (t : Nat)
  /-- HOL_NULL (R304). A NULL frame is received and resets the sender's absence count. -/
  | holNull (seg : Nat) (f : HolFrame) (arr : Nat) (t : Nat)
  /-- HOL_ARB (R312). An ARB frame is received and queued, asserting its event source. -/
  | holArb (seg : Nat) (f : HolFrame) (arr : Nat) (t : Nat)
  /-- HOL_DLY_REQ (R296). A DLY_REQ frame is received by a node. -/
  | holDlyReq (seg : Nat) (f : HolFrame) (arr : Nat) (t : Nat)
  /-- HOL_DLY_RSP (R296). A DLY_RSP frame is received and the master computes the delay. -/
  | holDlyRsp (seg : Nat) (f : HolFrame) (arr : Nat) (t : Nat)
  /-- HOL_DLY_SET (R296). A DLY_SET frame is received and the node stores its line delay. -/
  | holDlySet (seg : Nat) (f : HolFrame) (arr : Nat) (t : Nat)
  /-- HOL_LISTEN_TIMEOUT (R298). LISTEN ends without a SYNC and the master coldstarts or runs. -/
  | holListenTimeout (seg : Nat)
  /-- HOL_COLDSTART_END (R299). Three CSTART cycles end without collision and the node enters RUN. -/
  | holColdstartEnd (seg : Nat)
  /-- HOL_BACKOFF_END (R298). BACKOFF ends without a SYNC and the node coldstarts again. -/
  | holBackoffEnd (seg : Nat)
  /-- HOL_SYNC_TIMEOUT (R301). Three basic cycles pass without a valid SYNC and the node returns to LISTEN. -/
  | holSyncTimeout (seg : Nat)
  /-- RESTART (R298). Holup command moving a yielded master to LISTEN. -/
  | holRestart (seg : Nat)
  /-- RESTORE (R303). Holup command returning to the full schedule at the next macrocycle. -/
  | holRestore (seg : Nat)
  /-- HOL_CLRCNT (R311). Holup command clearing the counters. -/
  | holClrcnt (seg : Nat)
  /-- ARBQ_POP (R312). Discards the head ARB receive entry. -/
  | arbqPop (seg : Nat)
  /-- ARBQ_SEND (R312). Queues the prepared ARB frame for sending, or refuses it when full. -/
  | arbqSend (seg : Nat)
  /-- CAN_FRAME_RECEIVED (R318). A complete CAN frame passes the window check and the filters into a queue or buffer. -/
  | canFrameReceived (c : Nat) (f : CanFrame) (sof : Nat)
  /-- CAN_REFERENCE_RECEIVED (R329). A valid reference message sets the mark, the basic-cycle index and the slave offset. -/
  | canReferenceReceived (c : Nat) (f : CanFrame) (sof : Nat)
  /-- CAN_REFERENCE_DUE (R327). A master queues its reference message at the basic-cycle start. -/
  | canReferenceDue (c : Nat)
  /-- CAN_BACKUP_DUE (R327). No reference has arrived and a backup master sends one. -/
  | canBackupDue (c : Nat)
  /-- CAN_REFERENCE_TIMEOUT (R329). A slave with no reference by the mark plus period stops sending. -/
  | canReferenceTimeout (c : Nat)
  /-- CAN_WINDOW_START (R328). An exclusive or arbitrating window opens and a bound buffer starts its frame. -/
  | canWindowStart (c : Nat) (i : Nat)
  /-- CAN_TXMISS (R328). A frame waiting for an idle bus passes s + g/2 and is not sent. -/
  | canTxmiss (c : Nat)
  /-- CAN_TX_START (R322). The bus becomes idle and the controller offers its lowest pending frame. -/
  | canTxStart (c : Nat)
  /-- CAN_ARBITRATION_LOST (R323). A frame loses arbitration and stays pending or is cancelled. -/
  | canArbitrationLost (c : Nat)
  /-- CAN_TX_COMPLETE (R322). A frame is acknowledged; TXOK is set and the ACK-error count clears. -/
  | canTxComplete (c : Nat)
  /-- CAN_ERROR (R324). A bus error updates the error counters, fault state and ACK-error count. -/
  | canError (c : Nat) (e : CanErr)
  /-- CAN_BUSOFF_RECOVERY (R324). 128 occurrences of 11 recessive bits end bus-off. -/
  | canBusoffRecovery (c : Nat)
  /-- REQ (R322). A REQ write makes an EVENT transmit buffer pending. -/
  | canReq (c : Nat) (b : Nat)
  /-- CANCEL (R323). A CANCEL write cancels or holds a pending transmit buffer. -/
  | canCancel (c : Nat) (b : Nat)
  /-- RXQ_POP (R319). Discards the head entry of a CAN receive queue. -/
  | rxqPop (c : Nat) (qn : Nat)
  /-- RECOVER (R324). CAN command starting bus-off recovery counting. -/
  | canRecover (c : Nat)
  /-- CAN_CLRCNT (R331). CAN command clearing the counters. -/
  | canClrcnt (c : Nat)
  /-- TSCAP (R317). Captures the frame-stamp counter and view 1 at one tick. -/
  | tscap (c : Nat)
  /-- ETH_LINK_CHANGE (R334). A port's link goes up or down. -/
  | ethLinkChange (port : Nat) (up : Bool)
  /-- ETH_FRAME_RECEIVED (R342). An Ethernet frame is received, duplicate-filtered and delivered to a buffer, PTP, Eyelet or ARP. -/
  | ethFrameReceived (port : Nat) (bytes : List Byte) (ok : Bool)
  /-- ETH_FRAME_SENT (R341). A frame finishes transmission and the next eligible queue may start. -/
  | ethFrameSent (port : Nat)
  /-- ETH_GATE_CHANGE (R340). A gate-list interval ends; gates change and a pending list swap takes effect at a cycle start. -/
  | ethGateChange (port : Nat)
  /-- SWAP (R341). Requests the administrative gate list to become operating at the change time. -/
  | ethSwap (port : Nat)
  /-- PRP_SUPERVISION_DUE (R337). The pair sends a supervision frame every 2 s. -/
  | prpSupervisionDue (pair : Nat)
  /-- PRP_PATH_TIMEOUT (R337). A port sees no tracked frame for three life-check intervals and its path is lost. -/
  | prpPathTimeout (port : Nat)
  /-- PTP_EVENT_RECEIVED (R343). A PTP event message is stamped and used by the servo to steer view 1 and judge LOCK. -/
  | ptpEventReceived (port : Nat) (msg : List Byte) (t : Nat)
  /-- PTP_GENERAL_RECEIVED (R343). A PTP general message is processed by the BMCA or servo. -/
  | ptpGeneralReceived (port : Nat) (msg : List Byte)
  /-- PTP_SEND_DUE (R343). A PTP message interval elapses and the port sends Sync, Announce or a delay request. -/
  | ptpSendDue (port : Nat) (kind : Nat) (t : Nat)
  /-- PTP_SYNC_TIMEOUT (R97). No Sync for 3 s loses view 1 LOCK. -/
  | ptpSyncTimeout
  /-- PTP_ANNOUNCE_TIMEOUT (R344). announceReceiptTimeout expires on the SLAVE port and the passive port takes over. -/
  | ptpAnnounceTimeout (port : Nat)
  /-- CLAIM_BEACON_DUE (R398). An active device sends its 1 ms claim beacon. -/
  | claimBeaconDue
  /-- CLAIM_BEACON_RECEIVED (R397). A claim beacon is received and may fence or raise the highest claim. -/
  | claimBeaconReceived (bytes : List Byte) (start : Nat)
  /-- WELT_HB_DUE (R384). The rim sends a Welt heartbeat every 20 µs. -/
  | weltHbDue
  /-- HB_PAIR_DUE (R384). The rim sends an HB pair frame every 100 µs. -/
  | hbPairDue
  /-- WELT_HB (R387). A Welt heartbeat is received and updates the path, claims and RELINQ handling. -/
  | weltHb (bytes : List Byte) (ok : Bool)
  /-- HB_PAIR_FRAME (R386). An HB pair frame is received and updates the path, claims and RELINQ handling. -/
  | hbPairFrame (bytes : List Byte) (ok : Bool)
  /-- HB_PATH_MISSED (R387). A heartbeat path passes MISS_N periods without a valid heartbeat and the standby judges failure. -/
  | hbPathMissed (pair : Bool)
  /-- ISOLATED_EXPIRY (R396). W passes in ISOLATED without a witness and the standby takes over. -/
  | isolatedExpiry
  /-- PAIR_WAIT_EXPIRY (R393). PAIRING hears no heartbeat for PAIR_WAIT and enters SOLO. -/
  | pairWaitExpiry
  /-- WELT_LINK_CHANGE (R382). The Welt link's lanes align or lose alignment. -/
  | weltLinkChange (lanes : Nat)
  /-- WELT_ACK_DUE (R383). The receiver sends its periodic ACK. -/
  | weltAckDue
  /-- WELT_TILE (R389). A TILE frame is received into the received checkpoint copy. -/
  | weltTile (f : WeltFrame) (ok : Bool)
  /-- WELT_PORTIMG (R389). A PORTIMG frame is received into the received copy. -/
  | weltPortimg (f : WeltFrame) (ok : Bool)
  /-- WELT_COMMIT (R390). A COMMIT frame makes the received tiles and port image the applied checkpoint. -/
  | weltCommit (f : WeltFrame) (ok : Bool)
  /-- WELT_FORCE (R389). A FORCE frame updates the standby's force table. -/
  | weltForce (f : WeltFrame) (ok : Bool)
  /-- WELT_RECIPE (R389). A RECIPE frame updates a standby recipe area. -/
  | weltRecipe (f : WeltFrame) (ok : Bool)
  /-- WELT_CTRL (R399). A CTRL frame carries a coordination message such as the handover time. -/
  | weltCtrl (f : WeltFrame) (ok : Bool)
  /-- WELT_ACK (R383). An ACK frame acknowledges frames, completing the checkpoint of an acknowledged COMMIT. -/
  | weltAck (f : WeltFrame) (ok : Bool)
  /-- WELT_NAK (R383). A NAK frame makes the sender resend from the missing frame. -/
  | weltNak (f : WeltFrame) (ok : Bool)
  /-- FULL_COPY_END (R392). The full copy to a syncing standby ends. -/
  | fullCopyEnd
  /-- HANDOVER_TIME (R399). Time t_h is reached and roles change. -/
  | handoverTime
  /-- JOIN (R401). Duplex subcommand returning a device to PAIRING. -/
  | dupJoin (q : Req)
  /-- HANDOVER (R399). Duplex subcommand scheduling a planned handover at t_h. -/
  | dupHandover (q : Req)
  /-- TAKEOVER (R394). Duplex subcommand making the standby take over by command. -/
  | dupTakeover (q : Req)
  /-- EXCH_PREP (R400). Duplex subcommand entering EXCHANGE for an on-line exchange. -/
  | dupExchPrep (q : Req)
  /-- EXCH_ABORT (R400). Duplex subcommand abandoning an exchange. -/
  | dupExchAbort (q : Req)
  /-- LEAVE (R401). Duplex subcommand detaching a standby. -/
  | dupLeave (q : Req)
  /-- SAFE_STARTUP_DONE (R407). Island self-tests end and the island enters its configured state or LOCKOUT. -/
  | safeStartupDone (fault : Nat)
  /-- SAFE_ISLAND_RESET (R405). SRST_N or the island supply monitor resets the island. -/
  | safeIslandReset (on : Bool)
  /-- SAFE_INPUT_SAMPLE (R409). Every 250 µs the island samples and filters contacts and evaluates demands and functions. -/
  | safeInputSample (a : Nat) (b : Nat) (rba : Nat) (rbb : Nat)
  /-- SAFE_DISCREPANCY_TIMEOUT (R410). A contact does not follow within DISC and the input takes DISCREPANCY. -/
  | safeDiscrepancyTimeout (n : Nat)
  /-- SAFE_TEST_PULSE_SAMPLE (R411). A contact reads high in the middle of its source's pulse and takes XSHORT. -/
  | safeTestPulseSample (n : Nat) (b : Bool) (high : Bool)
  /-- SAFE_READBACK_TIMEOUT (R412). A switch read-back fails to follow its command within 2 ms and the output faults. -/
  | safeReadbackTimeout (n : Nat)
  /-- SAFE_DARK_PULSE (R412). An enabled switch is turned off briefly once a second to test its read-back. -/
  | safeDarkPulse (n : Nat) (b : Bool) (rb : Bool)
  /-- SAFE_SS1_EXPIRY (R413). T_SS1 of a stopping function ends and its outputs turn off. -/
  | safeSs1Expiry (f : Nat)
  /-- SAFE_LOCK_DELAY_EXPIRY (R415). LOCK_DELAY passes with outputs off and the lock output turns on. -/
  | safeLockDelayExpiry (f : Nat)
  /-- SAFE_MUTE_EXPIRY (R416). A mute ends at MUTE_MAX or for want of a refreshed request. -/
  | safeMuteExpiry (f : Nat)
  /-- SAFE_T_REL_EXPIRY (R417). The enabling contacts stay open together for T_REL and ENABLE permits again. -/
  | safeTRelExpiry (f : Nat)
  /-- SAFE_RESET_PRESS (R414). A reset button is released after a press of 100 ms to 3 s and requests a reset. -/
  | safeResetPress (n : Nat) (ms : Nat)
  /-- SAFE_MAILBOX_EXCHANGE (R423). Channel A exchanges the mailbox with the rim every 1 ms. -/
  | safeMailboxExchange
  /-- SAFE_RESET_REQUEST (R414). Mailbox RESET request resetting a function when its conditions hold. -/
  | safeResetRequest (src : Nat)
  /-- UNLOCK (R415). Mailbox UNLOCK request for a GUARD_LOCK function. -/
  | safeUnlock (src : Nat)
  /-- LOCK (R415). Mailbox LOCK request for a GUARD_LOCK function. -/
  | safeLock (src : Nat)
  /-- MUTE (R416). Mailbox MUTE request with a mute code. -/
  | safeMute (src : Nat)
  /-- STORE (R419). Island command checking and storing the parameter set as unconfirmed. -/
  | safeStore
  /-- CLEAR (R419). Island command erasing the parameter set. -/
  | safeClear
  /-- SAFE_CONFIRM (R421). Eyelet command confirming a stored parameter set by its check value. -/
  | safeConfirm (q : Req) (val : Word)
  /-- SAFE_CONFIRM_BLOCK_END (R421). The 60 s block after three failed confirmations ends. -/
  | safeConfirmBlockEnd
  /-- SAFE_ISLAND_FAULT (R426). An island fault is detected and the island enters LOCKOUT. -/
  | safeIslandFault (code : Nat)
  /-- SAFE_PERIODIC_TEST (R426). The ten-minute memory and NVM tests run. -/
  | safePeriodicTest (ok : Bool)
  /-- PWR_EPOCH (R430). At each 1 ms epoch start the arbiter measures power, sets grants and the shed level. -/
  | pwrEpoch (m : EpochMeas)
  /-- ILIM_EXCEEDED (R431). VIN current exceeds ILIM for 100 µs and the arbiter sheds to level 4. -/
  | ilimExceeded
  /-- BOOST_DECISION (R437). A boost request is granted and funded, or refused. -/
  | boostDecision (g : Nat) (cost : Nat)
  /-- PWR_RAIL_CHANGE (R436). A waiting region rail change starts within the current-step limit. -/
  | pwrRailChange (g : Nat)
  /-- PWR_BUDGET_WRITE (R430). A write of the package budget takes effect at the next epoch or is refused. -/
  | pwrBudgetWrite (w : Word)
  /-- PWR_ILIM_WRITE (R430). A write of the VIN current limit takes effect at the next epoch or is refused. -/
  | pwrIlimWrite (w : Word)
  /-- PLAN (R440). Margin command planning every region. -/
  | marginPlan
  /-- MARGIN_PLAN_TIMER (R440). 24 h of operating time since a region's plan triggers a new plan. -/
  | marginPlanTimer (g : Nat)
  /-- MARGIN_PLAN_COMPLETE (R442). A plan's window ends; V_plan, envelope and horizon are set and the boost ends. -/
  | marginPlanComplete (m : PlanMeas)
  /-- SUPPLY_CHANGE (R497). VDDA, VSAFE or a VDDIO supply goes good or not good. -/
  | supplyChange (which : Nat) (good : Bool)
  /-- POR (R450). A supply monitor asserts or releases the power-on reset. -/
  | rstPor (on : Bool)
  /-- PIN (R451). RESET_N is taken as asserted or released after its filter. -/
  | rstPin (on : Bool)
  /-- THERM (R450). Die M temperature crosses 130 °C or 120 °C. -/
  | rstTherm (on : Bool)
  /-- SCWD (R450). The service-core watchdog is not served for 100 ms and asserts a core reset. -/
  | rstScwd
  /-- DBG_SYS (R450). A debug-port system reset request. -/
  | rstDbgSys
  /-- DBG_CORE (R450). A debug-port core reset request. -/
  | rstDbgCore
  /-- RESET_EPISODE_EXIT (R454). Every source is released; RST.CAUSE is written and start-up or resume begins. -/
  | resetEpisodeExit
  /-- TRIM_LOAD_END (R457). A trim load ends with correct CRCs or fails and retries. -/
  | trimLoadEnd (ok : Bool)
  /-- RIM_PLL_LOCK (R460). The rim PLL locks and the counter starts. -/
  | rimPllLock
  /-- SERVICE_CORES_UP (R460). The service cores run their firmware and take over their services. -/
  | serviceCoresUp (okA : Bool) (okB : Bool)
  /-- RESUME_READY (R462). The resume has mapped and verified every unit and cadences resume at their next boundaries. -/
  | resumeReady
  /-- HOLD_MAX_EXPIRY (R463). HOLD_MAX passes before the resume completes and outputs take safe values. -/
  | holdMaxExpiry
  /-- POWER_LOSS_DETECT (R464). VIN stays below 10.5 V for 5 µs and the power-loss sequence starts. -/
  | powerLossDetect
  /-- PLR_COPY_DONE (R465). The checkpoint copy to MRAM ends, the record is marked valid and PLR asserts. -/
  | plrCopyDone
  /-- PLR_APPLY (R467). After the boot load and view 0 LOCK the resume record is applied or refused. -/
  | plrApply
  /-- PLR_WAIT_TIMEOUT (R467). The wait for LOCK expires and the record is refused with NOTIME. -/
  | plrWaitTimeout
  /-- EVT_RECORD_WRITE (R474). A queued event is written as a record into the permanent or circulating area. -/
  | evtRecordWrite
  /-- OPSEC_TICK (R472). Operating seconds increment and every code's bucket gains a token. -/
  | opsecTick
  /-- TAKE_OWNERSHIP (R485). LC request installing the owner key and anchor and entering OWNED. -/
  | takeOwnership (q : Req) (m : LcMsg)
  /-- SEAL (R485). LC request entering SEALED. -/
  | lcSeal (q : Req) (m : LcMsg)
  /-- RETURN (R487). LC request entering RETURNED and erasing owner data. -/
  | lcReturn (q : Req) (m : LcMsg)
  /-- SCRAP (R485). LC request entering SCRAPPED. -/
  | lcScrap (q : Req) (m : LcMsg)
  /-- DEV_ON (R485). LC request enabling development loading. -/
  | devOn (q : Req) (m : LcMsg)
  /-- DEV_OFF (R485). LC request disabling development loading. -/
  | devOff (q : Req) (m : LcMsg)
  /-- KEY_ADD (R485). LC request programming the next owner key slot. -/
  | keyAdd (q : Req) (m : LcMsg)
  /-- KEY_REVOKE (R485). LC request revoking an owner key slot. -/
  | keyRevoke (q : Req) (m : LcMsg)
  /-- SHIP (R485). LC request moving TEST to SHIPPED. -/
  | lcShip (q : Req) (m : LcMsg)
  /-- HOL_FRAME_DISCARDED (R289). A Holup frame arrives with a code, CRC, type, length, channel or sender fault and is discarded and counted, and counts as a collision during COLDSTART. -/
  | holFrameDiscarded (seg : Nat) (arr : Nat)
  /-- EYELET_MALFORMED (R346). An Eyelet message that breaks the header layout is answered MALFORMED and has no other effect. -/
  | eyeletMalformed (sess : Nat) (seq : Nat)
  /-- UNKNOWN_OP (R373). An Eyelet request with an OP that is not listed is answered UNKNOWN_OP. -/
  | unknownOp (q : Req) (op : Nat)
  /-- PSET_STORE_DONE (R419). The island finishes checking, cross-computing and storing a parameter set, and PSTAT goes from BUSY to OK, BADSET or XCHECK, with the island entering UNCONFIRMED on success. -/
  | psetStoreDone (agree : Bool)
  /-- VIN_RECOVERY (R464). VIN rises back above 10.5 V, so that VINLOW and VIN_OK change and the reset held after PLR may be released. -/
  | vinRecovery
  /-- REFCLK_RETURN (R113). The 25 MHz reference input returns and the rim leaves PLL holdover. -/
  | refclkReturn
  /-- FOLLOW1_LOCK (R99). With SRC FOLLOW1 and view 1 locked, rate steering brings view 0 within 1 µs of view 1, and view 0 declares LOCK, possibly releasing WAIT_LOCK cadences. -/
  | follow1Lock
  /-- VIEW_SLEW_DONE (R98). The active increment of view 0 or view 1 reaches its target and SLEW clears. -/
  | viewSlewDone (v : Nat)
  /-- REGION_TJ_DRIFT (R440). A region's Tj departs from its plan's TJ by more than 10 °C and a margin plan is triggered. -/
  | regionTjDrift (g : Nat) (tj : Nat)
  /-- DIO_RAW_EDGE (R250). The raw pin level departs from the filtered level, starting a filter run and fixing its first tick t_e. -/
  | dioRawEdge (pin : Nat)
  /-- STEP_PULSE (R191). A step generator emits its next evenly spaced step pulse within the period, updating STEPS and the backlog. -/
  | stepPulse (g : Nat)
  /-- MICROSTEP_ADVANCE (R192). A chopper channel advances its microstep index within the period and its phase codes and polarities change. -/
  | microstepAdvance (ch : Nat)
  /-- LOAD_COPY_DONE (R58). The copy of a Last into the incoming area ends with read-back and the two copy areas are exchanged in one rim write. -/
  | loadCopyDone (ok : Bool)
  /-- RECIPE_LOAD_DONE (R208). A service core finishes checking a recipe image, and the sequencer leaves LOADING for IDLE with LOADED set or cleared. -/
  | recipeLoadDone (u : Nat) (n : Nat)
  /-- LC_ERASE_DONE (R487). The erasure on entry to RETURNED ends, ERASE_DONE is blown and the LC reset is asserted. -/
  | lcEraseDone
  /-- ETH_MODULE_CHANGE (R332). An SFP+ module is inserted or removed, or asserts or clears TX_FAULT, and MODABS or TXFAULT changes and the module identification is read. -/
  | ethModuleChange (port : Nat) (present : Bool) (fault : Bool) (id : List Byte)
deriving DecidableEq, Repr

end Sys2Proof
end

