-- ==== Sys2Proof/Machine/Bits.lean ====
section
/-!
DEFINITION. Bit fields, two's complement, byte order and the cyclic redundancy checks of the spec (R7, R37, R289).
-/
namespace Sys2Proof.Machine

/-- Bits lo + w − 1 down to lo of a number. -/
def bitsOf (x lo w : Nat) : Nat := (x >>> lo) % 2 ^ w

/-- A number with its bits lo + w − 1 down to lo replaced by the low w bits of v. -/
def setBits (x lo w v : Nat) : Nat := x - (bitsOf x lo w) * 2 ^ lo + (v % 2 ^ w) * 2 ^ lo

/-- Bit n of a number. -/
def bitAt (x n : Nat) : Bool := bitsOf x n 1 = 1

/-- One bit as a number. -/
def b2n (b : Bool) : Nat := if b then 1 else 0

/-- A w-bit pattern read as a two's-complement integer. -/
def toS (w x : Nat) : Int := if 2 * (x % 2 ^ w) < 2 ^ w then (x % 2 ^ w : Nat) else (x % 2 ^ w : Nat) - (2 ^ w : Nat)

/-- An integer as a w-bit two's-complement pattern. -/
def ofS (w : Nat) (i : Int) : Nat := (i % (2 ^ w : Nat)).toNat

/-- A signal or counter word as an integer. -/
def sW (w : Word) : Int := toS 32 w.toNat

/-- An integer as a word, wrapping. -/
def wS (i : Int) : Word := BitVec.ofNat 32 (ofS 32 i)

/-- Clamp an integer into a range. -/
def clampI (lo hi x : Int) : Int := if x < lo then lo else if hi < x then hi else x

/-- A counter that stops at its greatest value. -/
def satAdd (mx a b : Nat) : Nat := if a + b > mx then mx else a + b

/-- The integer nearest to n / d, ties toward plus infinity (R70), for d > 0. -/
def roundDiv (n : Int) (d : Nat) : Int := (2 * n + d) / (2 * (d : Int))

/-- The least integer not below n / d, for d > 0. -/
def ceilDiv (n d : Nat) : Nat := (n + d - 1) / d

/-- A little-endian byte string read as a number. -/
def leNat : List Byte → Nat
  | [] => 0
  | b :: t => b.toNat + 256 * leNat t

/-- The low n bytes of a number, little-endian. -/
def leBytes : Nat → Nat → List Byte
  | 0, _ => []
  | n + 1, x => BitVec.ofNat 8 x :: leBytes n (x / 256)

/-- n bytes of a byte string from an offset; bytes beyond the end read zero. -/
def slice (bs : List Byte) (off n : Nat) : List Byte :=
  let t := (bs.drop off).take n
  t ++ List.replicate (n - t.length) 0

/-- A little-endian field of n bytes at an offset. -/
def le (bs : List Byte) (off n : Nat) : Nat := leNat (slice bs off n)

/-- A byte at an offset, zero beyond the end. -/
def byteAt (bs : List Byte) (off : Nat) : Nat := (nth 0 bs off).toNat

/-- n zero bytes. -/
def zeros (n : Nat) : List Byte := List.replicate n 0

/-- Whether every byte of a stretch is zero. -/
def allZero (bs : List Byte) (off n : Nat) : Bool := (slice bs off n).all (· = 0)

/-- One bit step of a reflected 32-bit CRC with the reversed polynomial p. -/
def crcBit (p c : Nat) : Nat := if c % 2 = 1 then (c >>> 1) ^^^ p else c >>> 1

/-- One byte of a reflected 32-bit CRC. -/
def crcByte (p c : Nat) (b : Byte) : Nat :=
  crcBit p (crcBit p (crcBit p (crcBit p (crcBit p (crcBit p (crcBit p (crcBit p (c ^^^ b.toNat))))))))

/-- A fold over bytes. The match makes each step's value a numeral before the next one, so that the kernel can evaluate a long fold. -/
def foldBytes (f : Nat → Byte → Nat) : List Byte → Nat → Nat
  | [], c => c
  | b :: bs, c => match f c b with
    | 0 => foldBytes f bs 0
    | n + 1 => foldBytes f bs (n + 1)

/-- A reflected 32-bit CRC, initial value and final exclusive-or all ones. -/
def crc32r (p : Nat) (bs : List Byte) : Nat := foldBytes (crcByte p) bs 0xFFFFFFFF ^^^ 0xFFFFFFFF

/-- CRC-32C (R7, R289). -/
def crc32c (bs : List Byte) : Nat := crc32r 0x82F63B78 bs

/-- CRC-32 with the IEEE 802.3 polynomial (R7: the safety check value). -/
def crc32ieee (bs : List Byte) : Nat := crc32r 0xEDB88320 bs

/-- A word as four little-endian bytes. -/
def wordBytes (w : Word) : List Byte := leBytes 4 w.toNat

/-- A number lies in a range. -/
def inR (lo x hi : Nat) : Bool := decide (lo ≤ x) && decide (x ≤ hi)

end Sys2Proof.Machine
end

