-- ==== Sys2Proof/Machine/LineCode.lean ====
section
/-!
DEFINITION. The line of a Holup channel (R286, R287, R289): header, CRC and the 8b/10b code groups of IEEE 802.3 Clause 36.
-/
namespace Sys2Proof.Machine

/-- The six bits abcdei of the data codes D.0 to D.31 from a negative running disparity, bit a highest. -/
def sixBits : List Nat :=
  [0b100111, 0b011101, 0b101101, 0b110001, 0b110101, 0b101001, 0b011001, 0b111000,
   0b111001, 0b100101, 0b010101, 0b110100, 0b001101, 0b101100, 0b011100, 0b010111,
   0b011011, 0b100011, 0b010011, 0b110010, 0b001011, 0b101010, 0b011010, 0b111010,
   0b110011, 0b100110, 0b010110, 0b110110, 0b001110, 0b101110, 0b011110, 0b101011]

/-- The four bits fghj for D.x.0 to D.x.7 from a negative running disparity. -/
def fourBits : List Nat := [0b1011, 0b1001, 0b0101, 0b1100, 0b1101, 0b1010, 0b0110, 0b1110]

/-- Ones in the low `w` bits. -/
def onesIn (w x : Nat) : Nat := (List.range w).countP (fun i => bitAt x i)

/-- The running disparity after a sub-block of `w` bits. -/
def dispAfter (w x : Nat) (rd : Bool) : Bool :=
  if 2 * onesIn w x = w then rd else decide (w < 2 * onesIn w x)

/-- The code group of an octet, a special one (/K/) or not, from a running disparity (true: positive), and the disparity after it. -/
def codeGroup (k : Bool) (rd : Bool) (x : Nat) : Nat × Bool :=
  let lo := x % 32
  let hi := x / 32 % 8
  let s0 := if k && decide (lo = 28) then 0b001111 else nth 0 sixBits lo
  let s := if rd && (decide (onesIn 6 s0 ≠ 3) || decide (lo = 7)) then 63 - s0 else s0
  let rd1 := dispAfter 6 s rd
  let alt := decide (hi = 7) && (k || (!rd1 && [17, 18, 20].contains lo) || (rd1 && [11, 13, 14].contains lo))
  let f0 := if alt then 0b0111 else nth 0 fourBits hi
  let even := decide (onesIn 4 f0 = 2) && decide (hi ≠ 3)
  let f := if even then (if k && !rd1 then 15 - f0 else f0) else if rd1 then 15 - f0 else f0
  (s * 16 + f, dispAfter 4 f rd1)

/-- Octets as code groups, in order. -/
def codeGroups : Bool → List (Bool × Nat) → List Nat
  | _, [] => []
  | rd, (k, x) :: t => let c := codeGroup k rd x; c.1 :: codeGroups c.2 t

/-- The header as its eight bytes (R287). -/
def HolFrame.header (f : HolFrame) : List Byte :=
  [BitVec.ofNat 8 (f.typ + 16 * b2n f.hold + 32 * b2n f.safe), BitVec.ofNat 8 (f.src + 32 * f.ch),
   BitVec.ofNat 8 f.payload.length, BitVec.ofNat 8 f.slot] ++ leBytes 4 f.claim

/-- Header, payload and the CRC over both (R287, R289). -/
def HolFrame.octets (f : HolFrame) : List Byte :=
  let b := f.header ++ f.payload
  b ++ leBytes 4 (crc32c b)

/-- A frame on the line, from its lead to its tail, all of it with DE asserted (R286): /D21.5/ twice, /K28.5/ four times, /K27.7/, the octets,
/K29.7/, /D21.5/. The disparity is negative at the lead. -/
def HolFrame.line (f : HolFrame) : List Nat :=
  codeGroups false ([(false, 0xB5), (false, 0xB5), (true, 0xBC), (true, 0xBC), (true, 0xBC), (true, 0xBC), (true, 0xFB)]
    ++ f.octets.map (fun b => (false, b.toNat)) ++ [(true, 0xFD), (false, 0xB5)])

end Sys2Proof.Machine
end

