-- ==== Sys2Proof/Machine/Events.lean ====
section
/-!
DEFINITION. Event codes of the recorder (R470): bits 15:8 the raising block's type, bits 7:0 the event's number in it.
-/
namespace Sys2Proof.Machine.Ev

def LAST_FAIL : Nat := 0x0101
def FORCE_DROPPED : Nat := 0x0102
def RESET : Nat := 0x0201
def HOLD_EXPIRED : Nat := 0x0202
def PWR_LOSS : Nat := 0x0203
def PLR_APPLIED : Nat := 0x0204
def PLR_REFUSED : Nat := 0x0205
def TIME_REFUSED : Nat := 0x0301
def TIME_STEP : Nat := 0x0302
def TIME_LOCK : Nat := 0x0303
def TIME_UNLOCK : Nat := 0x0304
def TIME_NOLOCK : Nat := 0x0305
def PWR_ILIM : Nat := 0x0401
def PWR_FLOOR_SHORT : Nat := 0x0402
def PWR_BOOST_DENIED : Nat := 0x0403
def PWR_ENVELOPE : Nat := 0x0404
def PWR_SHED : Nat := 0x0405
def MARGIN_EXHAUSTED : Nat := 0x0501
def MARGIN_HORIZON : Nat := 0x0502
def CFG_MISMATCH : Nat := 0x0601
def REG_WIGN : Nat := 0x0602
def REG_ABSENT : Nat := 0x0603
def REC_CLEARED : Nat := 0x0701
def REC_OVERFLOW : Nat := 0x0702
def DISP_DROP : Nat := 0x0801
def DUPX_SIDE_CONFLICT : Nat := 0x0901
def DUPX_COPYLAG : Nat := 0x0902
def DUPX_TAKEOVER : Nat := 0x0903
def DUPX_NO_STANDBY : Nat := 0x0904
def DUPX_SPLIT : Nat := 0x0905
def DUPX_FENCED : Nat := 0x0906
def SAFE_DEMAND : Nat := 0x0a01
def SAFE_RESET : Nat := 0x0a02
def SAFE_RESET_STUCK : Nat := 0x0a03
def SAFE_FAULT : Nat := 0x0a04
def SAFE_MUTE_START : Nat := 0x0a05
def SAFE_MUTE_END : Nat := 0x0a06
def SAFE_LOCK : Nat := 0x0a07
def SAFE_STORE : Nat := 0x0a08
def SAFE_CONFIRMED : Nat := 0x0a09
def SAFE_CONFIRM_FAIL : Nat := 0x0a0a
def SAFE_LOCKOUT : Nat := 0x0a0b
def ACQ_GRP_MISMATCH : Nat := 0x0b01
def ETH_LINK : Nat := 0x1001
def ETH_PATH_LOST : Nat := 0x1002
def PTP_PORT : Nat := 0x1003
def HOL_COLDSTART : Nat := 0x1101
def HOL_MASTER_CONFLICT : Nat := 0x1102
def HOL_SILENT : Nat := 0x1103
def HOL_NODE_ABSENT : Nat := 0x1104
def HOL_NODE_BACK : Nat := 0x1105
def HOL_LONE : Nat := 0x1106
def HOL_CHFAIL : Nat := 0x1107
def HOL_DEGRADED : Nat := 0x1108
def HOL_RESTORED : Nat := 0x1109
def HOL_FENCED : Nat := 0x110a
def CAN_RXOVF : Nat := 0x1201
def CAN_ACTIVE : Nat := 0x1202
def CAN_PASSIVE : Nat := 0x1203
def CAN_BUSOFF : Nat := 0x1204
def CAN_LONE : Nat := 0x1205
def CAN_LONE_END : Nat := 0x1206
def CAN_MASTER : Nat := 0x1207
def CAN_SILENT : Nat := 0x1208
def MAINS_LOST : Nat := 0x1301
def MAINS_LOCK : Nat := 0x1302
def ADC_CALFAIL : Nat := 0x1303
def ADC_CHK_MISMATCH : Nat := 0x1304
def ADC_PAIR_MISMATCH : Nat := 0x1305
def AOUT_FAULT : Nat := 0x1401
def DIO_CHATTER : Nat := 0x1501
def TILE_CRC : Nat := 0x2001
def TILE_REMAP : Nat := 0x2002
def TILE_HARD : Nat := 0x2003
def FLOW_LATE : Nat := 0x2004
def LOOP_HOLD : Nat := 0x2005
def RESID_WARN : Nat := 0x2006
def RESID_ALARM : Nat := 0x2007
def COEF_REFUSED : Nat := 0x2008
def LOGIC_OVERRUN : Nat := 0x2009
def LOGIC_WATCHDOG : Nat := 0x200a
def SEQ_ABORT : Nat := 0x200b
def SEQ_FETCH_LATE : Nat := 0x200c
def SLACK_ALARM : Nat := 0x200d
def UNIT_OVERRUN : Nat := 0x200e
def AXIS_HELD : Nat := 0x200f

end Sys2Proof.Machine.Ev
end

