-- ==== Sys2Proof/Config.lean ====
section
/-!
DEFINITION. What one device or one environment fixes and the spec leaves open: free values and functions without a
body. Nothing can evaluate them; a statement that names one holds for every value of it (log entries 2, 5, 6, 9, 14, 97, 98, 126, 130).
-/
namespace Sys2Proof.Config

/-- The n-th free value of a run: the value the spec leaves open. DESIGN CHOICE, log entry 2. -/
opaque freeNat : Nat → Nat

/-- The nominal latency that a class A stamp subtracts, in ticks, by port mode (R101): 0 1000BASE-X, 1 10GBASE-R, 2 Holup at 100 Mb/s, 3 Holup
at 25 Mb/s, 4 Welt. The spec gives no figure. Log entry 98. -/
opaque nominalLat : Nat → Nat

/-- The base B of the device's 16 MAC addresses, held in OTP (R333). Log entry 14. -/
opaque macBase : Nat

/-- The link-local address that pair 0 takes when NETCFG gives it none (R349, by the procedure of RFC 3927). Log entry 14. -/
opaque linkLocal : Nat

/-- Bits of an FD frame of n data bytes at the nominal and the data rate, stuffing included (R326 leaves them to ISO
11898-1): n, extended format, BRS. Log entry 27. -/
opaque canFdBits : Nat → Bool → Bool → Nat × Nat

/-- The FD frame that a window of the CAN matrix expects under an ID, of which its descriptor gives neither length nor BRS (R326): data bytes and
BRS, by ID and IDE. Log entry 126. -/
opaque canExpect : Nat → Bool → Nat × Bool

/-- A protected DTLS 1.3 record (R345): session, number of the record, kind, SEQ and STATUS of the message and its payload. Log entry 130. -/
opaque dtlsRecord : Nat → Nat → List Nat → List Byte → List Byte

/-- The alert internal_error that answers a ClientHello beyond the eighth session (R345). Log entry 130. -/
opaque dtlsAlert : List Byte

/-- The MAC address that ARP finds for an IPv4 address (R333; the spec describes no table of neighbours). Log entry 131. -/
opaque neighbour : Nat → Nat

/-- SHA-384 of FIPS 180-4 (R40, R483): a standard function the spec names and does not define. Log entry 5. -/
opaque sha384 : List Byte → List Byte

/-- ECDSA P-384 verification (R40, FIPS 186-5): public key bytes, message hash, signature bytes. Log entry 5. -/
opaque ecdsaP384 : List Byte → List Byte → List Byte → Bool

/-- A signature verified against a key of which only the SHA-384 hash is held (R482, R485). Log entry 5. -/
opaque sigByKeyHash : List Byte → List Byte → List Byte → Bool

/-- Hash of the maker test key used in TEST (R482). -/
opaque makerTestKeyHash : List Byte

/-- Hash of the maker key of Tchilor tokens (R485). -/
opaque makerKeyHash : List Byte

/-- Hash of the firmware key in maker OTP (R486). -/
opaque firmwareKeyHash : List Byte

/-- The quotient of a Q32.32 dividend by a divisor that has been rounded to 0 (R175, R180): the spec states no value. DESIGN CHOICE, log entry 118. -/
opaque qDivZero : Int → Int

end Sys2Proof.Config
end

