-- ==== Sys2Proof/Machine/Operands.lean ====
section
/-!
DEFINITION. The operand formats of the units (R7, R69, R70, R75, R175): signals in Q1.31, coefficients in Q4.28, the
72-bit accumulator in Q13.59, positions in Q32.32; and the operand areas of logic instructions (R149, R150).
-/
namespace Sys2Proof.Machine

/-- The accumulator, in units of 2^-59 (R69), with the record that it or a result saturated. -/
structure Acc where
  v : Int := 0
  sat : Bool := false
deriving DecidableEq, Repr

/-- Largest accumulator value, 2^12 − 2^-59 (R69). -/
def accMax : Int := 2 ^ 71 - 1

/-- Least accumulator value, −2^12 (R69). -/
def accMin : Int := -(2 ^ 71)

/-- Accumulate one term, saturating to the bound passed (R69). -/
def Acc.add (a : Acc) (x : Int) : Acc :=
  let t := a.v + x
  if t < accMin then { v := accMin, sat := true }
  else if accMax < t then { v := accMax, sat := true }
  else { a with v := t }

/-- Signal × coefficient, exact (R69). -/
def sigCoef (s c : Word) : Int := sW s * sW c

/-- Signal × signal, rounded to bit 59 (R69). -/
def sigSig (s t : Word) : Int := (sW s * sW t + 4) / 8

/-- Signal entered exactly, shifted left by 28 bits (R69). -/
def sigIn (s : Word) : Int := sW s * 2 ^ 28

/-- Q1.31 bounds. -/
def q31Max : Int := 2 ^ 31 - 1
def q31Min : Int := -(2 ^ 31)

/-- A result and whether taking it saturated. -/
structure Taken where
  w : Word
  sat : Bool
deriving DecidableEq, Repr

/-- Take a signal from the accumulator (R70): add 2^-32, drop bits below 2^-31, saturate to Q1.31. -/
def Acc.take (a : Acc) : Taken :=
  let r := (a.v + 2 ^ 27) / 2 ^ 28
  { w := wS (clampI q31Min q31Max r), sat := a.sat || decide (r < q31Min) || decide (q31Max < r) }

/-- Take a coefficient from the accumulator (R70): add 2^-29, drop bits below 2^-28, saturate to Q4.28. -/
def Acc.takeCoef (a : Acc) : Taken :=
  let r := (a.v + 2 ^ 30) / 2 ^ 31
  { w := wS (clampI q31Min q31Max r), sat := a.sat || decide (r < q31Min) || decide (q31Max < r) }

/-- Sum of terms entered in order. -/
def accSum (ts : List Int) : Acc := ts.foldl Acc.add {}

/-- y := sat(g × x + o) of R74 step 3 and R120. -/
def scaleSig (g x o : Word) : Taken := (accSum [sigCoef x g, sigIn o]).take

/-- The interpolation common to both table forms (R75): y0 + f × (y1 − y0) with f in units of 2^-32. -/
def interp (y0 y1 : Word) (f : Nat) : Taken :=
  let d := sW y1 - sW y0
  let prod : Int := (d * f + 8) / 16
  (accSum [prod, sigIn y0]).take

/-- A uniform linearisation table (R75). -/
def linUniform (k : Nat) (ys : List Word) (x : Word) : Taken :=
  let u := (sW x + 2 ^ 31).toNat
  let i := u >>> (32 - k)
  let f := (u % 2 ^ (32 - k)) * 2 ^ k
  interp (nth 0 ys i) (nth 0 ys (i + 1)) f

/-- The segment search and interpolation of a breakpoint table (R75) over its pairs, first pair given. -/
def linSeg (x : Word) : Word × Word → List (Word × Word) → Taken
  | (_, y0), [] => { w := y0, sat := true }
  | (x0, y0), (x1, y1) :: t =>
    if sW x < sW x1 then
      interp y0 y1 (roundDiv ((sW x - sW x0) * 2 ^ 32) (sW x1 - sW x0).toNat).toNat
    else if sW x = sW x1 ∧ t = [] then { w := y1, sat := false }
    else linSeg x (x1, y1) t

/-- A breakpoint table (R75): below the first breakpoint the end value with SAT. -/
def linBreak (ps : List (Word × Word)) (x : Word) : Taken :=
  match ps with
  | [] => { w := x, sat := false }
  | (x0, y0) :: t =>
    if sW x < sW x0 then { w := y0, sat := true }
    else if t = [] ∧ sW x = sW x0 then { w := y0, sat := false }
    else linSeg x (x0, y0) t

/-- A table applied to a value (R75). -/
def LinTab.apply (t : LinTab) (x : Word) : Taken :=
  match t with
  | .none => { w := x, sat := false }
  | .uniform k ys => linUniform k ys x
  | .breakpoints ps => linBreak ps x

/-! ### Q32.32 (R175) -/

/-- Saturation to ±2^31 PU in units of 2^-32. -/
def pSat (x : Int) : Int := clampI (-(2 ^ 63)) (2 ^ 63 - 1) x

/-- A Q32.32 value with the record that a result on its way saturated (R175). -/
structure Qv where
  v : Int
  sat : Bool := false
deriving DecidableEq, Repr

/-- A result taken: saturated, and the record of it. -/
def qTake (x : Int) : Qv := { v := pSat x, sat := decide (pSat x ≠ x) }

/-- A value that carries the records of its operands. -/
def Qv.of (x y r : Qv) : Qv := { r with sat := x.sat || y.sat || r.sat }

/-- Product of two Q32.32 values, rounded to nearest with ties toward plus infinity, saturated (R175). -/
def Qv.mul (x y : Qv) : Qv := Qv.of x y (qTake ((x.v * y.v + 2 ^ 31) / 2 ^ 32))

/-- Quotient of two Q32.32 values, rounded to nearest with ties toward plus infinity, saturated (R175). By a divisor that has been rounded to 0 it
is a free value: the spec states none (log entry 118). -/
def Qv.div (x y : Qv) : Qv :=
  Qv.of x y (if y.v = 0 then { v := pSat (Config.qDivZero x.v) }
    else qTake (roundDiv ((if y.v < 0 then -x.v else x.v) * 2 ^ 32) y.v.natAbs))

/-- Sum and difference: exact; a multiple by a whole number: saturated. -/
def Qv.add (x y : Qv) : Qv := Qv.of x y { v := x.v + y.v }
def Qv.sub (x y : Qv) : Qv := Qv.of x y { v := x.v - y.v }
def Qv.times (n : Int) (x : Qv) : Qv := Qv.of x x (qTake (n * x.v))

/-- Integer root by bisection: the greatest r below 2^n with r^e ≤ x. -/
def iroot (e x : Nat) : Nat → Nat → Nat
  | 0, r => r
  | n + 1, r => if (r + 2 ^ n) ^ e ≤ x then iroot e x n (r + 2 ^ n) else iroot e x n r

/-- Root of a non-negative integer rounded to nearest: half a unit is judged on twice the value. -/
def iRootNear (e x bits : Nat) : Nat := (iroot e (2 ^ e * x) (bits + 1) 0 + 1) / 2

/-- Square root of a Q32.32 value, rounded to nearest (R175). -/
def qSqrt (x : Int) : Int := if x ≤ 0 then 0 else (iRootNear 2 (x.toNat * 2 ^ 32) 48 : Nat)

/-- Cube root of a Q32.32 value, rounded to nearest (R175, R180). -/
def qCbrt (x : Int) : Int := if x ≤ 0 then 0 else (iRootNear 3 (x.toNat * 2 ^ 64) 43 : Nat)

/-- Roots of a value with its record: a root does not saturate. -/
def Qv.sqrt (x : Qv) : Qv := { x with v := qSqrt x.v }
def Qv.cbrt (x : Qv) : Qv := { x with v := qCbrt x.v }

/-- The integer part of a Q32.32 value (R176 SPOS), toward minus infinity. -/
def qFloor (x : Int) : Int := x / 2 ^ 32

/-- Sign of an integer. -/
def sgnI (x : Int) : Int := if x < 0 then -1 else if 0 < x then 1 else 0

/-- Keep a position in [0, M) on a modulo axis (R175). -/
def pMod (m p : Int) : Int := if 0 < m then p % m else p

/-! ### Operand areas of logic instructions -/

/-- Word operands' immediate: a signed 23-bit field, sign-extended (R150). -/
def imm23 (i : Nat) : Word := wS (toS 23 i)

/-! ### Frames of CAN and operations of Eyelet -/

/-- Bytes of a DLC (ISO 11898-1). -/
def dlcLen (fdf : Bool) (dlc : Nat) : Nat :=
  if dlc ≤ 8 then dlc else if !fdf then 8 else nth 64 [12, 16, 20, 24, 32, 48, 64] (dlc - 9)

/-- A frame of ISO 11898-1: identifier in range, data as long as its DLC says. -/
def CanFrame.ok (f : CanFrame) : Bool :=
  decide (f.dlc < 16) && decide (f.id < 2 ^ 29) && (f.ide || decide (f.id % 2 ^ 18 = 0)) && !(f.rtr && f.fdf) &&
    decide (f.data.length = if f.rtr then 0 else dlcLen f.fdf f.dlc)

/-- The operations of R373. -/
def eyOps : List Nat :=
  [0x01, 0x02, 0x03, 0x04, 0x10, 0x11, 0x12, 0x13, 0x14, 0x15, 0x20, 0x21, 0x22, 0x23, 0x30, 0x31, 0x32, 0x33, 0x34, 0x35, 0x40, 0x50,
    0x60, 0x70]

end Sys2Proof.Machine
end

