-- ==== Sys2Proof/Machine/Flags.lean ====
section
/-!
DEFINITION. Signal status bits (R71) and the saturating arithmetic that sets ARITH (R153).
-/
namespace Sys2Proof.Machine

/-- Status bits (R71). -/
def stVALID : Nat := 7
def stHELD : Nat := 3
def stABSENT : Nat := 2
def stFORCED : Nat := 1
def stSAT : Nat := 0

/-- A status bit. -/
def SigVal.bit (v : SigVal) (b : Nat) : Bool := bitAt v.st.toNat b

/-- VALID of a signal. -/
def SigVal.valid (v : SigVal) : Bool := v.bit stVALID

/-- HELD of a signal. -/
def SigVal.held (v : SigVal) : Bool := v.bit stHELD

/-- A status from its flags; `mid` carries bits 6:4 (R71). -/
def mkStatus (valid : Bool) (mid : Nat) (held absent forced sat : Bool) : Byte :=
  BitVec.ofNat 8 (b2n valid * 128 + bitsOf mid 4 3 * 16 + b2n held * 8 + b2n absent * 4 + b2n forced * 2 + b2n sat)

/-- Status VALID alone. -/
def stOk : Byte := mkStatus true 0 false false false false

/-- Set or clear one status bit. -/
def SigVal.setBit (v : SigVal) (b : Nat) (x : Bool) : SigVal :=
  { v with st := BitVec.ofNat 8 (setBits v.st.toNat b 1 (b2n x)) }

/-- The value of a released route (R511): HELD set. -/
def SigVal.asHeld (v : SigVal) : SigVal := v.setBit stHELD true

/-- A force applied to a signal (R167): forced value, status VALID and FORCED. -/
def forcedSig (w : Word) : SigVal := { val := w, st := mkStatus true 0 false false true false }

/-- An absent signal (R43): zero, VALID clear, ABSENT. -/
def absentSig : SigVal := { val := 0, st := mkStatus false 0 false true false false }

/-- A staged result from its parts. -/
def stg (sig : Nat) (val : Word) (st : Byte) : Staged := { sig := sig, v := { val := val, st := st } }

/-- Exact result saturated to 32-bit two's complement, with the record that it saturated (R153). -/
def satW (i : Int) : Taken :=
  { w := wS (clampI q31Min q31Max i), sat := decide (i < q31Min) || decide (q31Max < i) }

/-- DIV of R153: truncation toward zero; the stated results for a zero divisor and for −2^31 / −1. -/
def divW (a b : Word) : Taken :=
  if sW b = 0 then
    { w := if 0 < sW a then wS q31Max else if sW a < 0 then wS q31Min else 0, sat := true }
  else satW (Int.tdiv (sW a) (sW b))

end Sys2Proof.Machine
end

