-- ==== Sys2Proof/Machine/Regs.lean ====
section
/-!
DEFINITION. The register map (R354 to R358): the blocks, every register of every block with its fields, access codes
and reset values as the chapters' register tables give them, and a name for each field the model reads or writes.
Bits that no table lists hold nothing: they read as zero and take no write (DEDUCED, log entry 21).
-/
namespace Sys2Proof.Machine

/-- The register blocks of R356. -/
inductive Blk where
  | sys | rst | time | pwr | marg | cfgchk | evt | disp | dupx | safe | acq | eth | hol | can | adc | aout | dio | chop | pwm | unit | clus | rgn
deriving DecidableEq, Repr

/-- Access codes of R7. -/
inductive Access where
  | rw | rwl | w1c | wo | ro | rsv
deriving DecidableEq, Repr

/-- A field of a register: lowest bit, width, access. -/
structure FldDef where
  lo : Nat
  w : Nat
  acc : Access
deriving DecidableEq, Repr

/-- A register: offset, array dimensions (count, stride), reset value, its bits of reach P only and of reach C as masks,
fields. -/
structure RegDef where
  off : Nat
  dims : List (Nat × Nat)
  rst : Nat
  keepS : Nat
  reachC : Nat
  flds : List FldDef
deriving DecidableEq, Repr

/-- A named field: its block, offset, strides of up to two indices, lowest bit and width. -/
structure F where
  blk : Blk
  off : Nat
  s1 : Nat
  s2 : Nat
  lo : Nat
  w : Nat
deriving DecidableEq, Repr

/-- Base address of instance 0 (R356). -/
def Blk.base : Blk → Nat
  | .sys => 0x0
  | .rst => 0x10000
  | .time => 0x20000
  | .pwr => 0x30000
  | .marg => 0x40000
  | .cfgchk => 0x50000
  | .evt => 0x60000
  | .disp => 0x70000
  | .dupx => 0x80000
  | .safe => 0x90000
  | .acq => 0xa0000
  | .eth => 0x100000
  | .hol => 0x200000
  | .can => 0x400000
  | .adc => 0x500000
  | .aout => 0x600000
  | .dio => 0x610000
  | .chop => 0x620000
  | .pwm => 0x630000
  | .unit => 0x1000000
  | .clus => 0x3000000
  | .rgn => 0x3200000

/-- Instances the address map holds (R356). -/
def Blk.count : Blk → Nat
  | .sys => 1
  | .rst => 1
  | .time => 1
  | .pwr => 1
  | .marg => 1
  | .cfgchk => 1
  | .evt => 1
  | .disp => 1
  | .dupx => 1
  | .safe => 1
  | .acq => 1
  | .eth => 8
  | .hol => 24
  | .can => 12
  | .adc => 16
  | .aout => 1
  | .dio => 1
  | .chop => 1
  | .pwm => 1
  | .unit => 512
  | .clus => 32
  | .rgn => 8

/-- `ID.TYPE` (R356). -/
def Blk.typ : Blk → Nat
  | .sys => 0x1
  | .rst => 0x2
  | .time => 0x3
  | .pwr => 0x4
  | .marg => 0x5
  | .cfgchk => 0x6
  | .evt => 0x7
  | .disp => 0x8
  | .dupx => 0x9
  | .safe => 0xa
  | .acq => 0xb
  | .eth => 0x10
  | .hol => 0x11
  | .can => 0x12
  | .adc => 0x13
  | .aout => 0x14
  | .dio => 0x15
  | .chop => 0x16
  | .pwm => 0x17
  | .unit => 0x20
  | .clus => 0x21
  | .rgn => 0x22

/-- Every block, in address order. -/
def Blk.all : List Blk := [.sys, .rst, .time, .pwr, .marg, .cfgchk, .evt, .disp, .dupx, .safe, .acq, .eth, .hol, .can, .adc, .aout, .dio, .chop, .pwm, .unit, .clus, .rgn]

/-- The word address of a field at instance `k`, indices `i`, `j`. -/
def F.addr (f : F) (k i j : Nat) : Nat := f.blk.base + k * 0x10000 + f.off + i * f.s1 + j * f.s2

/-- The block instance whose 64 KiB hold an address (R356). -/
def blkAt (a : Nat) : Option (Blk × Nat) :=
  match Blk.all.find? (fun b => decide (b.base ≤ a) && decide (a < b.base + b.count * 0x10000)) with
  | some b => some (b, (a - b.base) / 0x10000)
  | none => none

/-- Registers of the SYS block. -/
def regsSYS : List RegDef := [
  ⟨0x0, [], 0x1, 0x0, 0x0, [⟨0, 1, .ro⟩]⟩,
  ⟨0x4, [], 0x0, 0x0, 0x0, [⟨0, 1, .w1c⟩, ⟨1, 1, .w1c⟩, ⟨2, 29, .rsv⟩, ⟨31, 1, .w1c⟩]⟩,
  ⟨0x10, [], 0x9, 0x0, 0x0, [⟨0, 1, .ro⟩, ⟨1, 1, .ro⟩, ⟨2, 1, .ro⟩, ⟨3, 1, .ro⟩, ⟨4, 1, .ro⟩, ⟨5, 3, .rsv⟩, ⟨8, 4, .ro⟩, ⟨12, 4, .ro⟩, ⟨16, 5, .ro⟩, ⟨21, 4, .ro⟩, ⟨25, 5, .ro⟩, ⟨30, 2, .rsv⟩]⟩,
  ⟨0x14, [], 0x0, 0x0, 0x0, [⟨0, 16, .ro⟩, ⟨16, 8, .ro⟩, ⟨24, 8, .rsv⟩]⟩,
  ⟨0x18, [], 0x0, 0x0, 0x0, [⟨0, 32, .ro⟩]⟩,
  ⟨0x1c, [], 0x0, 0x0, 0x0, [⟨0, 32, .ro⟩]⟩,
  ⟨0x40, [], 0x0, 0x0, 0x0, [⟨0, 3, .ro⟩, ⟨3, 1, .rsv⟩, ⟨4, 2, .ro⟩, ⟨6, 2, .rsv⟩, ⟨8, 8, .ro⟩, ⟨16, 4, .ro⟩, ⟨20, 12, .rsv⟩]⟩,
  ⟨0x44, [], 0x0, 0x0, 0x0, [⟨0, 1, .rw⟩, ⟨1, 31, .rsv⟩]⟩,
  ⟨0x48, [], 0x0, 0x0, 0x0, [⟨0, 2, .ro⟩, ⟨2, 2, .ro⟩, ⟨4, 28, .rsv⟩]⟩,
  ⟨0x4c, [], 0x0, 0x0, 0x0, [⟨0, 8, .ro⟩, ⟨8, 16, .ro⟩, ⟨24, 8, .rsv⟩]⟩,
  ⟨0x50, [(4, 0x4)], 0x0, 0x0, 0x0, [⟨0, 32, .ro⟩]⟩,
  ⟨0x60, [], 0x0, 0x0, 0x0, [⟨0, 3, .ro⟩, ⟨3, 1, .ro⟩, ⟨4, 1, .ro⟩, ⟨5, 3, .rsv⟩, ⟨8, 2, .ro⟩, ⟨10, 4, .ro⟩, ⟨14, 18, .rsv⟩]⟩,
  ⟨0x64, [], 0x0, 0x0, 0x0, [⟨0, 4, .ro⟩, ⟨4, 4, .ro⟩, ⟨8, 8, .ro⟩, ⟨16, 16, .rsv⟩]⟩,
  ⟨0x68, [], 0x0, 0x0, 0x0, [⟨0, 32, .ro⟩]⟩,
  ⟨0x6c, [], 0x0, 0x0, 0x0, [⟨0, 32, .ro⟩]⟩,
  ⟨0x70, [(4, 0x4)], 0x0, 0x0, 0x0, [⟨0, 32, .ro⟩]⟩,
  ⟨0x100, [], 0x0, 0x0, 0x0, [⟨0, 10, .rw⟩, ⟨10, 22, .rsv⟩]⟩,
  ⟨0x104, [], 0x0, 0x0, 0x0, [⟨0, 20, .rw⟩, ⟨20, 2, .rw⟩, ⟨22, 2, .rsv⟩, ⟨24, 3, .rw⟩, ⟨27, 5, .rsv⟩]⟩,
  ⟨0x108, [], 0x0, 0x0, 0x0, [⟨0, 32, .rw⟩]⟩,
  ⟨0x10c, [], 0x0, 0x0, 0x0, [⟨0, 1, .wo⟩, ⟨1, 1, .wo⟩, ⟨2, 1, .ro⟩, ⟨3, 1, .ro⟩, ⟨4, 1, .w1c⟩, ⟨5, 3, .ro⟩, ⟨8, 24, .rsv⟩]⟩,
  ⟨0x110, [], 0x0, 0x0, 0x0, [⟨0, 11, .ro⟩, ⟨11, 5, .rsv⟩, ⟨16, 12, .ro⟩, ⟨28, 4, .rsv⟩]⟩]

/-- Registers of the RST block. -/
def regsRST : List RegDef := [
  ⟨0x0, [], 0x1, 0xffffffff, 0x0, [⟨0, 1, .ro⟩, ⟨1, 31, .rsv⟩]⟩,
  ⟨0x4, [], 0x0, 0x0, 0x0, [⟨0, 1, .ro⟩, ⟨1, 1, .w1c⟩, ⟨2, 1, .ro⟩, ⟨3, 28, .rsv⟩, ⟨31, 1, .w1c⟩]⟩,
  ⟨0x10, [], 0x20031, 0xffffffff, 0x0, [⟨0, 4, .ro⟩, ⟨4, 2, .ro⟩, ⟨6, 10, .rsv⟩, ⟨16, 16, .ro⟩]⟩,
  ⟨0x14, [], 0x14, 0x0, 0x0, [⟨0, 16, .ro⟩, ⟨16, 16, .ro⟩]⟩,
  ⟨0x18, [], 0x0, 0xffff0000, 0x0, [⟨0, 16, .ro⟩, ⟨16, 8, .ro⟩, ⟨24, 8, .rsv⟩]⟩,
  ⟨0x1c, [], 0x0, 0xffffffff, 0x0, [⟨0, 2, .ro⟩, ⟨2, 30, .rsv⟩]⟩,
  ⟨0x20, [], 0x0, 0x0, 0x0, [⟨0, 32, .ro⟩]⟩,
  ⟨0x24, [], 0x0, 0x0, 0x0, [⟨0, 32, .ro⟩]⟩,
  ⟨0x28, [], 0x0, 0x0, 0x0, [⟨0, 32, .ro⟩]⟩,
  ⟨0x2c, [], 0x0, 0x0, 0x0, [⟨0, 2, .ro⟩, ⟨2, 3, .ro⟩, ⟨5, 27, .rsv⟩]⟩]

/-- Registers of the TIME block. -/
def regsTIME : List RegDef := [
  ⟨0x0, [], 0x0, 0x0, 0x0, [⟨0, 1, .ro⟩]⟩,
  ⟨0x4, [], 0x0, 0x0, 0x0, [⟨0, 1, .ro⟩, ⟨1, 1, .w1c⟩, ⟨2, 29, .rsv⟩, ⟨31, 1, .w1c⟩]⟩,
  ⟨0x10, [], 0x0, 0x0, 0x0, [⟨0, 32, .ro⟩]⟩,
  ⟨0x14, [], 0x0, 0x0, 0x0, [⟨0, 32, .ro⟩]⟩,
  ⟨0x18, [], 0x0, 0x0, 0x0, [⟨0, 8, .wo⟩, ⟨8, 1, .ro⟩, ⟨9, 23, .rsv⟩]⟩,
  ⟨0x1c, [], 0x0, 0x0, 0x0, [⟨0, 32, .ro⟩]⟩,
  ⟨0x20, [], 0x0, 0x0, 0x0, [⟨0, 32, .ro⟩]⟩,
  ⟨0x100, [(8, 0x40)], 0x0, 0x0, 0x0, [⟨0, 2, .rw⟩, ⟨2, 6, .rsv⟩, ⟨8, 5, .rw⟩, ⟨13, 19, .rsv⟩]⟩,
  ⟨0x104, [(8, 0x40)], 0x0, 0x0, 0x0, [⟨0, 2, .ro⟩, ⟨2, 1, .ro⟩, ⟨3, 1, .ro⟩, ⟨4, 1, .w1c⟩, ⟨5, 3, .ro⟩, ⟨8, 24, .rsv⟩]⟩,
  ⟨0x108, [(8, 0x40)], 0x0, 0x0, 0x0, [⟨0, 32, .rw⟩]⟩,
  ⟨0x10c, [(8, 0x40)], 0x200, 0x0, 0x0, [⟨0, 8, .rw⟩, ⟨8, 8, .rw⟩, ⟨16, 16, .rsv⟩]⟩,
  ⟨0x110, [(8, 0x40)], 0x0, 0x0, 0x0, [⟨0, 32, .rw⟩]⟩,
  ⟨0x114, [(8, 0x40)], 0x0, 0x0, 0x0, [⟨0, 32, .rw⟩]⟩,
  ⟨0x118, [(8, 0x40)], 0x0, 0x0, 0x0, [⟨0, 32, .rw⟩]⟩,
  ⟨0x11c, [(8, 0x40)], 0x0, 0x0, 0x0, [⟨0, 32, .rw⟩]⟩,
  ⟨0x120, [(8, 0x40)], 0x0, 0x0, 0x0, [⟨0, 32, .rw⟩]⟩,
  ⟨0x124, [(8, 0x40)], 0x0, 0x0, 0x0, [⟨0, 32, .ro⟩]⟩,
  ⟨0x128, [(8, 0x40)], 0x0, 0x0, 0x0, [⟨0, 32, .ro⟩]⟩,
  ⟨0x12c, [(8, 0x40)], 0x0, 0x0, 0x0, [⟨0, 32, .ro⟩]⟩,
  ⟨0x130, [(8, 0x40)], 0x0, 0x0, 0x0, [⟨0, 32, .ro⟩]⟩,
  ⟨0x134, [(8, 0x40)], 0x200, 0x0, 0x0, [⟨0, 16, .ro⟩]⟩,
  ⟨0x400, [(8, 0x10)], 0x0, 0x0, 0x0, [⟨0, 17, .ro⟩, ⟨17, 7, .rsv⟩, ⟨24, 1, .ro⟩, ⟨25, 7, .rsv⟩]⟩,
  ⟨0x404, [(8, 0x10)], 0x0, 0x0, 0x0, [⟨0, 27, .ro⟩]⟩,
  ⟨0x408, [(8, 0x10)], 0x0, 0x0, 0x0, [⟨0, 32, .ro⟩]⟩,
  ⟨0x40c, [(8, 0x10)], 0x0, 0x0, 0x1, [⟨0, 1, .ro⟩, ⟨1, 1, .ro⟩, ⟨2, 1, .w1c⟩, ⟨3, 29, .rsv⟩]⟩,
  ⟨0x800, [(64, 0x20)], 0x0, 0x0, 0x0, [⟨0, 1, .rw⟩, ⟨1, 3, .rw⟩, ⟨4, 2, .rw⟩, ⟨6, 2, .rsv⟩, ⟨8, 8, .rw⟩, ⟨16, 16, .rsv⟩]⟩,
  ⟨0x804, [(64, 0x20)], 0x0, 0x0, 0x0, [⟨0, 32, .rw⟩]⟩,
  ⟨0x808, [(64, 0x20)], 0x0, 0x0, 0x0, [⟨0, 32, .rw⟩]⟩,
  ⟨0x80c, [(64, 0x20)], 0x0, 0x0, 0x0, [⟨0, 32, .rw⟩]⟩,
  ⟨0x810, [(64, 0x20)], 0x0, 0x0, 0x0, [⟨0, 16, .ro⟩, ⟨16, 16, .ro⟩]⟩]

/-- Registers of the PWR block. -/
def regsPWR : List RegDef := [
  ⟨0x0, [], 0x0, 0x0, 0x0, [⟨0, 1, .ro⟩, ⟨1, 31, .rsv⟩]⟩,
  ⟨0x4, [], 0x0, 0x0, 0x0, [⟨0, 3, .ro⟩, ⟨3, 1, .w1c⟩, ⟨4, 1, .w1c⟩, ⟨5, 1, .w1c⟩, ⟨6, 1, .w1c⟩, ⟨7, 24, .rsv⟩, ⟨31, 1, .w1c⟩]⟩,
  ⟨0x10, [], 0xea60, 0x0, 0x0, [⟨0, 17, .rw⟩, ⟨17, 15, .rsv⟩]⟩,
  ⟨0x14, [], 0x352, 0x0, 0x0, [⟨0, 10, .rw⟩, ⟨10, 22, .rsv⟩]⟩,
  ⟨0x18, [], 0x4, 0x0, 0x0, [⟨0, 4, .rwl⟩, ⟨4, 28, .rsv⟩]⟩,
  ⟨0x20, [], 0x0, 0x0, 0x0, [⟨0, 32, .ro⟩]⟩,
  ⟨0x24, [], 0x0, 0x0, 0x0, [⟨0, 32, .ro⟩]⟩,
  ⟨0x28, [], 0x0, 0x0, 0x0, [⟨0, 32, .ro⟩]⟩,
  ⟨0x2c, [], 0x0, 0x0, 0x0, [⟨0, 32, .ro⟩]⟩,
  ⟨0x30, [], 0xff7, 0xffffffff, 0x0, [⟨0, 1, .ro⟩, ⟨1, 1, .ro⟩, ⟨2, 1, .ro⟩, ⟨3, 1, .rsv⟩, ⟨4, 8, .ro⟩, ⟨12, 20, .rsv⟩]⟩,
  ⟨0x34, [], 0x0, 0x0, 0x0, [⟨0, 10, .ro⟩, ⟨10, 6, .rsv⟩, ⟨16, 10, .ro⟩, ⟨26, 6, .rsv⟩]⟩,
  ⟨0x40, [(6, 0x4)], 0x0, 0x0, 0x0, [⟨0, 32, .ro⟩]⟩,
  ⟨0x100, [(8, 0x10)], 0x0, 0x0, 0x0, [⟨0, 32, .ro⟩]⟩,
  ⟨0x104, [(8, 0x10)], 0x0, 0x0, 0x0, [⟨0, 32, .ro⟩]⟩,
  ⟨0x108, [(8, 0x10)], 0x0, 0x0, 0x0, [⟨0, 3, .ro⟩, ⟨3, 1, .ro⟩, ⟨4, 1, .ro⟩, ⟨5, 1, .ro⟩, ⟨6, 26, .rsv⟩]⟩,
  ⟨0x10c, [(8, 0x10)], 0x0, 0x0, 0x0, [⟨0, 32, .ro⟩]⟩]

/-- Registers of the MARG block. -/
def regsMARG : List RegDef := [
  ⟨0x0, [], 0x0, 0x0, 0x0, [⟨0, 1, .ro⟩, ⟨1, 31, .rsv⟩]⟩,
  ⟨0x4, [], 0xff, 0x0, 0x0, [⟨0, 8, .ro⟩, ⟨8, 8, .ro⟩, ⟨16, 15, .rsv⟩, ⟨31, 1, .w1c⟩]⟩,
  ⟨0x10, [], 0xc32, 0x0, 0x0, [⟨0, 8, .rwl⟩, ⟨8, 8, .rwl⟩, ⟨16, 16, .rsv⟩]⟩,
  ⟨0x14, [], 0x0, 0x0, 0x0, [⟨0, 1, .wo⟩, ⟨1, 31, .rsv⟩]⟩,
  ⟨0x100, [(8, 0x20)], 0xff000, 0x0, 0x0, [⟨0, 10, .ro⟩, ⟨10, 1, .ro⟩, ⟨11, 1, .ro⟩, ⟨12, 8, .ro⟩, ⟨20, 12, .rsv⟩]⟩,
  ⟨0x104, [(8, 0x20)], 0x0, 0x0, 0x0, [⟨0, 10, .ro⟩, ⟨10, 6, .rsv⟩, ⟨16, 10, .ro⟩, ⟨26, 6, .rsv⟩]⟩,
  ⟨0x108, [(8, 0x20)], 0x0, 0x0, 0x0, [⟨0, 32, .ro⟩]⟩,
  ⟨0x10c, [(8, 0x20)], 0x0, 0x0, 0x0, [⟨0, 32, .ro⟩]⟩,
  ⟨0x110, [(8, 0x20)], 0x0, 0x0, 0x0, [⟨0, 32, .ro⟩]⟩,
  ⟨0x114, [(8, 0x20)], 0x0, 0x0, 0x0, [⟨0, 32, .ro⟩]⟩,
  ⟨0x1000, [(8, 0x100), (48, 0x4)], 0x0, 0x0, 0x0, [⟨0, 16, .ro⟩, ⟨16, 10, .ro⟩, ⟨26, 6, .rsv⟩]⟩]

/-- Registers of the CFGCHK block. -/
def regsCFGCHK : List RegDef := [
  ⟨0x0, [], 0x0, 0x0, 0x0, [⟨0, 1, .rw⟩, ⟨1, 31, .rsv⟩]⟩,
  ⟨0x4, [], 0x0, 0x0, 0x0, [⟨0, 1, .w1c⟩, ⟨1, 1, .ro⟩, ⟨2, 1, .ro⟩, ⟨3, 1, .ro⟩, ⟨4, 1, .ro⟩, ⟨5, 26, .rsv⟩, ⟨31, 1, .w1c⟩]⟩,
  ⟨0x10, [], 0x0, 0x0, 0x0, [⟨0, 2, .rwl⟩, ⟨2, 30, .rsv⟩]⟩,
  ⟨0x14, [], 0x0, 0x0, 0x0, [⟨0, 1, .wo⟩, ⟨1, 1, .wo⟩, ⟨2, 30, .rsv⟩]⟩,
  ⟨0x18, [], 0x0, 0x0, 0x0, [⟨0, 32, .rw⟩]⟩,
  ⟨0x1c, [], 0x0, 0x0, 0x0, [⟨0, 32, .ro⟩]⟩,
  ⟨0x20, [], 0x0, 0x0, 0x0, [⟨0, 32, .ro⟩]⟩,
  ⟨0x24, [], 0x0, 0x0, 0x0, [⟨0, 1, .ro⟩, ⟨1, 15, .rsv⟩, ⟨16, 16, .ro⟩]⟩,
  ⟨0x28, [], 0x0, 0x0, 0x0, [⟨0, 32, .ro⟩]⟩]

/-- Registers of the EVT block. -/
def regsEVT : List RegDef := [
  ⟨0x0, [], 0x1, 0x0, 0x0, [⟨0, 1, .ro⟩, ⟨1, 31, .rsv⟩]⟩,
  ⟨0x4, [], 0x0, 0x0, 0x0, [⟨0, 1, .w1c⟩, ⟨1, 1, .ro⟩, ⟨2, 1, .ro⟩, ⟨3, 28, .rsv⟩, ⟨31, 1, .w1c⟩]⟩,
  ⟨0x10, [], 0x0, 0x0, 0x0, [⟨0, 32, .ro⟩]⟩,
  ⟨0x14, [], 0x0, 0x0, 0x0, [⟨0, 8, .ro⟩, ⟨8, 24, .rsv⟩]⟩,
  ⟨0x18, [], 0x0, 0x0, 0x0, [⟨0, 32, .ro⟩]⟩,
  ⟨0x1c, [], 0x0, 0x0, 0x0, [⟨0, 15, .ro⟩, ⟨15, 17, .rsv⟩]⟩,
  ⟨0x20, [], 0x0, 0x0, 0x0, [⟨0, 17, .ro⟩, ⟨17, 15, .rsv⟩]⟩,
  ⟨0x24, [], 0x0, 0x0, 0x0, [⟨0, 32, .ro⟩]⟩,
  ⟨0x28, [], 0x0, 0x0, 0x0, [⟨0, 32, .ro⟩]⟩,
  ⟨0x2c, [], 0x0, 0x0, 0x0, [⟨0, 32, .ro⟩]⟩,
  ⟨0x30, [], 0x0, 0x0, 0x0, [⟨0, 9, .ro⟩, ⟨9, 23, .rsv⟩]⟩]

/-- Registers of the DISP block. -/
def regsDISP : List RegDef := [
  ⟨0x0, [], 0x0, 0x0, 0x0, [⟨0, 1, .ro⟩]⟩,
  ⟨0x4, [], 0x0, 0x0, 0xffffffff, [⟨0, 1, .ro⟩, ⟨1, 1, .ro⟩, ⟨2, 1, .w1c⟩, ⟨3, 1, .w1c⟩, ⟨4, 27, .rsv⟩, ⟨31, 1, .w1c⟩]⟩,
  ⟨0x100, [(2, 0x80), (16, 0x4)], 0x0, 0x0, 0x0, [⟨0, 14, .ro⟩, ⟨14, 2, .rsv⟩, ⟨16, 5, .ro⟩, ⟨21, 3, .rsv⟩, ⟨24, 3, .ro⟩, ⟨27, 5, .rsv⟩]⟩,
  ⟨0x200, [(2, 0x80), (16, 0x4)], 0x0, 0x0, 0xffffffff, [⟨0, 14, .ro⟩, ⟨14, 18, .rsv⟩]⟩,
  ⟨0x300, [(2, 0x80), (16, 0x4)], 0x0, 0x0, 0xffffffff, [⟨0, 25, .ro⟩, ⟨25, 7, .rsv⟩]⟩,
  ⟨0x400, [(2, 0x80), (16, 0x4)], 0x0, 0x0, 0x0, [⟨0, 32, .ro⟩]⟩,
  ⟨0x500, [], 0x0, 0x0, 0x0, [⟨0, 32, .ro⟩]⟩,
  ⟨0x600, [], 0x0, 0x0, 0x0, [⟨0, 12, .rw⟩, ⟨12, 1, .rw⟩, ⟨13, 19, .rsv⟩]⟩,
  ⟨0x604, [], 0x0, 0x0, 0xfffffff0, [⟨0, 4, .ro⟩, ⟨4, 1, .ro⟩, ⟨5, 3, .rsv⟩, ⟨8, 24, .ro⟩]⟩,
  ⟨0x608, [], 0x0, 0x0, 0x0, [⟨0, 16, .ro⟩, ⟨16, 5, .ro⟩, ⟨21, 11, .rsv⟩]⟩]

/-- Registers of the DUPX block. -/
def regsDUPX : List RegDef := [
  ⟨0x0, [], 0x0, 0x0, 0x0, [⟨0, 1, .ro⟩, ⟨1, 31, .rsv⟩]⟩,
  ⟨0x4, [], 0x0, 0x0, 0x0, [⟨0, 1, .w1c⟩, ⟨1, 1, .w1c⟩, ⟨2, 1, .w1c⟩, ⟨3, 1, .w1c⟩, ⟨4, 1, .ro⟩, ⟨5, 26, .rsv⟩, ⟨31, 1, .w1c⟩]⟩,
  ⟨0x10, [], 0xa0146, 0x0, 0x0, [⟨0, 1, .ro⟩, ⟨1, 4, .rwl⟩, ⟨5, 10, .rwl⟩, ⟨15, 10, .rwl⟩, ⟨25, 7, .rsv⟩]⟩,
  ⟨0x14, [], 0x0, 0x0, 0x0, [⟨0, 4, .ro⟩, ⟨4, 4, .ro⟩, ⟨8, 1, .ro⟩, ⟨9, 1, .ro⟩, ⟨10, 1, .ro⟩, ⟨11, 3, .ro⟩, ⟨14, 18, .rsv⟩]⟩,
  ⟨0x18, [], 0x0, 0x0, 0x0, [⟨0, 32, .ro⟩]⟩,
  ⟨0x1c, [], 0x0, 0x0, 0x0, [⟨0, 32, .ro⟩]⟩,
  ⟨0x20, [], 0x0, 0x0, 0x0, [⟨0, 32, .ro⟩]⟩,
  ⟨0x24, [], 0x0, 0x0, 0x0, [⟨0, 8, .ro⟩, ⟨8, 8, .ro⟩, ⟨16, 8, .ro⟩, ⟨24, 8, .ro⟩]⟩,
  ⟨0x28, [], 0x0, 0x0, 0x0, [⟨0, 16, .ro⟩, ⟨16, 16, .ro⟩]⟩,
  ⟨0x2c, [], 0x0, 0x0, 0x0, [⟨0, 16, .ro⟩, ⟨16, 16, .ro⟩]⟩,
  ⟨0x30, [], 0x0, 0x0, 0x0, [⟨0, 4, .ro⟩, ⟨4, 12, .rsv⟩, ⟨16, 16, .ro⟩]⟩,
  ⟨0x34, [], 0x0, 0x0, 0x0, [⟨0, 32, .ro⟩]⟩,
  ⟨0x38, [], 0x0, 0x0, 0x0, [⟨0, 32, .ro⟩]⟩]

/-- Registers of the SAFE block. -/
def regsSAFE : List RegDef := [
  ⟨0x0, [], 0x0, 0x0, 0x0, [⟨0, 1, .ro⟩]⟩,
  ⟨0x4, [], 0x0, 0x0, 0x0, [⟨0, 1, .ro⟩, ⟨1, 1, .ro⟩, ⟨2, 1, .w1c⟩, ⟨3, 28, .rsv⟩, ⟨31, 1, .w1c⟩]⟩,
  ⟨0x10, [], 0x0, 0x0, 0x0, [⟨0, 3, .ro⟩, ⟨3, 5, .rsv⟩, ⟨8, 4, .ro⟩, ⟨12, 4, .ro⟩, ⟨16, 16, .rsv⟩]⟩,
  ⟨0x14, [], 0x0, 0x0, 0x0, [⟨0, 32, .ro⟩]⟩,
  ⟨0x18, [], 0x0, 0x0, 0x0, [⟨0, 32, .ro⟩]⟩,
  ⟨0x1c, [], 0x0, 0x0, 0x0, [⟨0, 32, .ro⟩]⟩,
  ⟨0x20, [], 0x0, 0x0, 0x0, [⟨0, 16, .ro⟩, ⟨16, 16, .ro⟩]⟩,
  ⟨0x24, [], 0x0, 0x0, 0x0, [⟨0, 16, .ro⟩, ⟨16, 16, .ro⟩]⟩,
  ⟨0x28, [], 0x0, 0x0, 0x0, [⟨0, 8, .ro⟩, ⟨8, 8, .ro⟩, ⟨16, 8, .ro⟩, ⟨24, 8, .ro⟩]⟩,
  ⟨0x2c, [], 0x0, 0x0, 0x0, [⟨0, 32, .ro⟩]⟩,
  ⟨0x30, [], 0x0, 0x0, 0x0, [⟨0, 5, .rw⟩, ⟨5, 3, .rw⟩, ⟨8, 8, .rw⟩, ⟨16, 8, .rw⟩, ⟨24, 8, .rsv⟩]⟩,
  ⟨0x34, [], 0x0, 0x0, 0x0, [⟨0, 8, .ro⟩, ⟨8, 2, .ro⟩, ⟨10, 3, .ro⟩, ⟨13, 19, .rsv⟩]⟩,
  ⟨0x38, [], 0x0, 0x0, 0x0, [⟨0, 1, .wo⟩, ⟨1, 1, .wo⟩, ⟨2, 6, .rsv⟩, ⟨8, 3, .ro⟩, ⟨11, 21, .rsv⟩]⟩,
  ⟨0x40, [(8, 0x4)], 0x0, 0x0, 0x0, [⟨0, 5, .ro⟩, ⟨5, 3, .ro⟩, ⟨8, 8, .ro⟩, ⟨16, 8, .ro⟩, ⟨24, 8, .rsv⟩]⟩,
  ⟨0x80, [(32, 0x4)], 0x0, 0x0, 0x0, [⟨0, 3, .ro⟩, ⟨3, 2, .ro⟩, ⟨5, 1, .ro⟩, ⟨6, 1, .ro⟩, ⟨7, 1, .ro⟩, ⟨8, 16, .ro⟩, ⟨24, 8, .rsv⟩]⟩,
  ⟨0x1000, [(1024, 0x4)], 0x0, 0x0, 0x0, [⟨0, 32, .rw⟩]⟩]

/-- Registers of the ACQ block. -/
def regsACQ : List RegDef := [
  ⟨0x0, [], 0x0, 0x0, 0x0, [⟨0, 1, .ro⟩]⟩,
  ⟨0x4, [], 0x0, 0x0, 0x0, [⟨0, 1, .w1c⟩, ⟨1, 30, .rsv⟩, ⟨31, 1, .w1c⟩]⟩,
  ⟨0x10, [], 0x0, 0x0, 0x0, [⟨0, 6, .rwl⟩, ⟨6, 26, .rsv⟩]⟩,
  ⟨0x14, [], 0x0, 0x0, 0x0, [⟨0, 4, .ro⟩, ⟨4, 28, .rsv⟩]⟩,
  ⟨0x18, [], 0x0, 0x0, 0x0, [⟨0, 16, .ro⟩, ⟨16, 16, .ro⟩]⟩,
  ⟨0x20, [], 0x0, 0x0, 0x0, [⟨0, 1, .wo⟩, ⟨1, 31, .rsv⟩]⟩,
  ⟨0x24, [], 0x0, 0x0, 0x0, [⟨0, 1, .ro⟩, ⟨1, 3, .ro⟩, ⟨4, 1, .w1c⟩, ⟨5, 6, .ro⟩, ⟨11, 5, .rsv⟩, ⟨16, 16, .ro⟩]⟩]

/-- Registers of the ETH block. -/
def regsETH : List RegDef := [
  ⟨0x0, [], 0x0, 0x0, 0x0, [⟨0, 1, .rw⟩]⟩,
  ⟨0x4, [], 0x2, 0x0, 0x0, [⟨0, 1, .ro⟩, ⟨1, 1, .ro⟩, ⟨2, 1, .ro⟩, ⟨3, 1, .w1c⟩, ⟨4, 27, .rsv⟩, ⟨31, 1, .w1c⟩]⟩,
  ⟨0x10, [], 0x2, 0x0, 0x0, [⟨0, 1, .rwl⟩, ⟨1, 1, .rwl⟩, ⟨2, 1, .rwl⟩, ⟨3, 29, .rsv⟩]⟩,
  ⟨0x14, [], 0x5dc, 0x0, 0x0, [⟨0, 14, .rwl⟩]⟩,
  ⟨0x18, [], 0xfac688, 0x0, 0x0, [⟨0, 24, .rwl⟩]⟩,
  ⟨0x20, [], 0x0, 0x0, 0x0, [⟨0, 1, .rwl⟩]⟩,
  ⟨0x24, [], 0x0, 0x0, 0x0, [⟨0, 1, .ro⟩, ⟨1, 1, .ro⟩, ⟨2, 10, .ro⟩, ⟨12, 20, .rsv⟩]⟩,
  ⟨0x28, [], 0x0, 0x0, 0x0, [⟨0, 1, .ro⟩, ⟨1, 3, .ro⟩, ⟨4, 28, .rsv⟩]⟩,
  ⟨0x40, [], 0x0, 0x0, 0x0, [⟨0, 32, .ro⟩]⟩,
  ⟨0x44, [], 0x0, 0x0, 0x0, [⟨0, 32, .ro⟩]⟩,
  ⟨0x48, [], 0x0, 0x0, 0x0, [⟨0, 32, .ro⟩]⟩,
  ⟨0x4c, [], 0x0, 0x0, 0x0, [⟨0, 32, .ro⟩]⟩,
  ⟨0x50, [], 0x0, 0x0, 0x0, [⟨0, 32, .ro⟩]⟩,
  ⟨0x54, [], 0x0, 0x0, 0x0, [⟨0, 32, .ro⟩]⟩,
  ⟨0x58, [], 0x0, 0x0, 0x0, [⟨0, 32, .ro⟩]⟩,
  ⟨0x5c, [], 0x0, 0x0, 0x0, [⟨0, 32, .ro⟩]⟩,
  ⟨0x60, [], 0x0, 0x0, 0x0, [⟨0, 32, .ro⟩]⟩,
  ⟨0x64, [], 0x0, 0x0, 0x0, [⟨0, 32, .ro⟩]⟩,
  ⟨0x80, [], 0x0, 0x0, 0x0, [⟨0, 32, .rwl⟩]⟩,
  ⟨0x84, [], 0x0, 0x0, 0x0, [⟨0, 32, .rwl⟩]⟩,
  ⟨0x88, [], 0x0, 0x0, 0x0, [⟨0, 32, .rwl⟩]⟩,
  ⟨0x100, [], 0x0, 0x0, 0x0, [⟨0, 1, .rw⟩, ⟨1, 6, .rw⟩, ⟨7, 1, .wo⟩, ⟨8, 1, .ro⟩, ⟨9, 1, .w1c⟩, ⟨10, 6, .ro⟩, ⟨16, 16, .rsv⟩]⟩,
  ⟨0x104, [], 0x0, 0x0, 0x0, [⟨0, 27, .rw⟩]⟩,
  ⟨0x108, [], 0x0, 0x0, 0x0, [⟨0, 27, .rw⟩]⟩,
  ⟨0x110, [], 0x0, 0x0, 0x0, [⟨0, 32, .rw⟩]⟩,
  ⟨0x114, [], 0x0, 0x0, 0x0, [⟨0, 32, .rw⟩]⟩,
  ⟨0x400, [(64, 0x4)], 0x0, 0x0, 0x0, [⟨0, 8, .rw⟩, ⟨8, 24, .rw⟩]⟩,
  ⟨0x600, [(64, 0x4)], 0x0, 0x0, 0x0, [⟨0, 8, .ro⟩, ⟨8, 24, .ro⟩]⟩]

/-- Registers of the HOL block. -/
def regsHOL : List RegDef := [
  ⟨0x0, [], 0x0, 0x0, 0x0, [⟨0, 1, .rw⟩]⟩,
  ⟨0x4, [], 0x0, 0x0, 0x0, [⟨0, 1, .ro⟩, ⟨1, 1, .w1c⟩, ⟨2, 1, .ro⟩, ⟨3, 1, .ro⟩, ⟨4, 1, .ro⟩, ⟨5, 1, .ro⟩, ⟨6, 1, .ro⟩, ⟨7, 1, .ro⟩, ⟨8, 1, .ro⟩, ⟨9, 1, .w1c⟩, ⟨10, 1, .w1c⟩, ⟨11, 20, .rsv⟩, ⟨31, 1, .w1c⟩]⟩,
  ⟨0x10, [], 0x10c0c00, 0x0, 0x0, [⟨0, 1, .rwl⟩, ⟨1, 2, .rwl⟩, ⟨3, 1, .rwl⟩, ⟨4, 5, .rwl⟩, ⟨9, 1, .rwl⟩, ⟨10, 2, .rwl⟩, ⟨12, 6, .rwl⟩, ⟨18, 4, .rwl⟩, ⟨22, 4, .rwl⟩, ⟨26, 6, .rsv⟩]⟩,
  ⟨0x14, [], 0x0, 0x0, 0x0, [⟨0, 14, .rwl⟩]⟩,
  ⟨0x18, [], 0x0, 0x0, 0x0, [⟨0, 24, .rwl⟩]⟩,
  ⟨0x1c, [], 0x6400028, 0x0, 0x0, [⟨0, 12, .rwl⟩, ⟨12, 8, .rwl⟩, ⟨20, 12, .rwl⟩]⟩,
  ⟨0x20, [], 0x0, 0x0, 0x0, [⟨0, 4, .ro⟩, ⟨4, 6, .ro⟩, ⟨10, 6, .rsv⟩, ⟨16, 16, .ro⟩]⟩,
  ⟨0x24, [], 0x0, 0x0, 0x0, [⟨0, 1, .wo⟩, ⟨1, 1, .wo⟩, ⟨2, 1, .wo⟩, ⟨3, 29, .rsv⟩]⟩,
  ⟨0x28, [], 0x0, 0x0, 0x0, [⟨0, 32, .ro⟩]⟩,
  ⟨0x2c, [], 0x0, 0x0, 0x0, [⟨0, 32, .ro⟩]⟩,
  ⟨0x30, [], 0x0, 0x0, 0x0, [⟨0, 32, .ro⟩]⟩,
  ⟨0x34, [], 0x0, 0x0, 0x0, [⟨0, 32, .ro⟩]⟩,
  ⟨0x38, [], 0x0, 0x0, 0x0, [⟨0, 32, .ro⟩]⟩,
  ⟨0x3c, [], 0x0, 0x0, 0x0, [⟨0, 32, .rwl⟩]⟩,
  ⟨0x40, [], 0x0, 0x0, 0x0, [⟨0, 32, .ro⟩]⟩,
  ⟨0x44, [], 0x0, 0x0, 0x0, [⟨0, 32, .ro⟩]⟩,
  ⟨0x48, [], 0x0, 0x0, 0x0, [⟨0, 32, .ro⟩]⟩,
  ⟨0x4c, [], 0x0, 0x0, 0x0, [⟨0, 32, .ro⟩]⟩,
  ⟨0x50, [], 0x0, 0x0, 0x0, [⟨0, 32, .ro⟩]⟩,
  ⟨0x54, [], 0x0, 0x0, 0x0, [⟨0, 32, .ro⟩]⟩,
  ⟨0x58, [], 0x0, 0x0, 0x0, [⟨0, 32, .ro⟩]⟩,
  ⟨0x5c, [], 0x0, 0x0, 0x0, [⟨0, 32, .ro⟩]⟩,
  ⟨0x80, [], 0x0, 0x0, 0x0, [⟨0, 32, .rwl⟩]⟩,
  ⟨0x84, [], 0x0, 0x0, 0x0, [⟨0, 32, .rwl⟩]⟩,
  ⟨0x88, [], 0x0, 0x0, 0x0, [⟨0, 32, .rwl⟩]⟩,
  ⟨0x100, [(32, 0x4)], 0x0, 0x0, 0x0, [⟨0, 32, .rwl⟩]⟩,
  ⟨0x200, [], 0x0, 0x0, 0x0, [⟨0, 6, .ro⟩, ⟨6, 2, .rsv⟩, ⟨8, 5, .ro⟩, ⟨13, 19, .rsv⟩]⟩,
  ⟨0x204, [], 0x0, 0x0, 0x0, [⟨0, 1, .wo⟩, ⟨1, 1, .wo⟩, ⟨2, 30, .rsv⟩]⟩,
  ⟨0x400, [(72, 0x4)], 0x0, 0x0, 0x0, [⟨0, 32, .ro⟩]⟩,
  ⟨0x600, [(72, 0x4)], 0x0, 0x0, 0x0, [⟨0, 32, .rw⟩]⟩]

/-- Registers of the CAN block. -/
def regsCAN : List RegDef := [
  ⟨0x0, [], 0x0, 0x0, 0x0, [⟨0, 1, .rw⟩]⟩,
  ⟨0x4, [], 0x0, 0x0, 0x0, [⟨0, 1, .ro⟩, ⟨1, 1, .ro⟩, ⟨2, 1, .w1c⟩, ⟨3, 1, .w1c⟩, ⟨4, 1, .w1c⟩, ⟨5, 26, .rsv⟩, ⟨31, 1, .w1c⟩]⟩,
  ⟨0x10, [], 0x8, 0x0, 0x0, [⟨0, 2, .rwl⟩, ⟨2, 1, .rwl⟩, ⟨3, 1, .rwl⟩, ⟨4, 1, .rwl⟩, ⟨5, 1, .rwl⟩, ⟨6, 1, .rwl⟩, ⟨7, 1, .rwl⟩, ⟨8, 1, .rwl⟩, ⟨9, 2, .rwl⟩, ⟨11, 21, .rsv⟩]⟩,
  ⟨0x14, [], 0x0, 0x0, 0x0, [⟨0, 8, .rwl⟩, ⟨8, 8, .rwl⟩, ⟨16, 7, .rwl⟩, ⟨23, 7, .rwl⟩, ⟨30, 2, .rsv⟩]⟩,
  ⟨0x18, [], 0x0, 0x0, 0x0, [⟨0, 5, .rwl⟩, ⟨5, 5, .rwl⟩, ⟨10, 4, .rwl⟩, ⟨14, 4, .rwl⟩, ⟨18, 1, .rwl⟩, ⟨19, 7, .rwl⟩, ⟨26, 6, .rsv⟩]⟩,
  ⟨0x1c, [], 0x0, 0x0, 0x0, [⟨0, 8, .ro⟩, ⟨8, 7, .ro⟩, ⟨15, 1, .ro⟩, ⟨16, 2, .ro⟩, ⟨18, 3, .ro⟩, ⟨21, 11, .rsv⟩]⟩,
  ⟨0x20, [], 0x0, 0x0, 0x0, [⟨0, 1, .wo⟩, ⟨1, 1, .wo⟩]⟩,
  ⟨0x24, [], 0x0, 0x0, 0x0, [⟨0, 14, .rwl⟩, ⟨14, 6, .rwl⟩]⟩,
  ⟨0x28, [], 0x0, 0x0, 0x0, [⟨0, 24, .rwl⟩]⟩,
  ⟨0x2c, [], 0x0, 0x0, 0x0, [⟨0, 12, .rwl⟩, ⟨12, 11, .rwl⟩, ⟨23, 3, .rwl⟩, ⟨26, 6, .rsv⟩]⟩,
  ⟨0x30, [], 0x0, 0x0, 0x0, [⟨0, 3, .ro⟩, ⟨3, 6, .ro⟩, ⟨9, 3, .ro⟩, ⟨12, 20, .rsv⟩]⟩,
  ⟨0x34, [], 0x0, 0x0, 0x0, [⟨0, 32, .ro⟩]⟩,
  ⟨0x38, [], 0x0, 0x0, 0x0, [⟨0, 32, .ro⟩]⟩,
  ⟨0x3c, [], 0x0, 0x0, 0x0, [⟨0, 1, .wo⟩, ⟨1, 1, .ro⟩]⟩,
  ⟨0x40, [], 0x0, 0x0, 0x0, [⟨0, 32, .ro⟩]⟩,
  ⟨0x44, [], 0x0, 0x0, 0x0, [⟨0, 32, .ro⟩]⟩,
  ⟨0x48, [], 0x0, 0x0, 0x0, [⟨0, 32, .ro⟩]⟩,
  ⟨0x4c, [], 0x0, 0x0, 0x0, [⟨0, 32, .ro⟩]⟩,
  ⟨0x50, [], 0x0, 0x0, 0x0, [⟨0, 32, .ro⟩]⟩,
  ⟨0x54, [], 0x0, 0x0, 0x0, [⟨0, 32, .ro⟩]⟩,
  ⟨0x58, [], 0x0, 0x0, 0x0, [⟨0, 32, .ro⟩]⟩,
  ⟨0x5c, [], 0x0, 0x0, 0x0, [⟨0, 32, .ro⟩]⟩,
  ⟨0x60, [], 0x0, 0x0, 0x0, [⟨0, 32, .ro⟩]⟩,
  ⟨0x64, [], 0x0, 0x0, 0x0, [⟨0, 32, .ro⟩]⟩,
  ⟨0x80, [(2, 0x4)], 0x0, 0x0, 0x0, [⟨0, 7, .ro⟩]⟩,
  ⟨0x88, [], 0x0, 0x0, 0x0, [⟨0, 1, .wo⟩, ⟨1, 1, .wo⟩]⟩,
  ⟨0x100, [(2, 0x80), (20, 0x4)], 0x0, 0x0, 0x0, [⟨0, 32, .ro⟩]⟩,
  ⟨0x1000, [(64, 0x60)], 0x0, 0x0, 0x0, [⟨0, 1, .ro⟩, ⟨1, 1, .wo⟩, ⟨2, 1, .wo⟩, ⟨3, 1, .w1c⟩, ⟨4, 1, .w1c⟩, ⟨5, 1, .w1c⟩, ⟨6, 2, .rwl⟩, ⟨8, 3, .rwl⟩, ⟨11, 1, .rwl⟩, ⟨12, 1, .rwl⟩, ⟨13, 19, .rsv⟩]⟩,
  ⟨0x1004, [(64, 0x60)], 0x0, 0x0, 0x0, [⟨0, 32, .rw⟩]⟩,
  ⟨0x1008, [(64, 0x60)], 0x0, 0x0, 0x0, [⟨0, 8, .rw⟩]⟩,
  ⟨0x1010, [(64, 0x60), (16, 0x4)], 0x0, 0x0, 0x0, [⟨0, 32, .rw⟩]⟩,
  ⟨0x2800, [(64, 0x60)], 0x0, 0x0, 0x0, [⟨0, 1, .w1c⟩, ⟨1, 1, .w1c⟩, ⟨2, 3, .rwl⟩, ⟨5, 3, .rsv⟩, ⟨8, 8, .ro⟩, ⟨16, 4, .rwl⟩, ⟨20, 12, .rsv⟩]⟩,
  ⟨0x2804, [(64, 0x60)], 0x0, 0x0, 0x0, [⟨0, 32, .ro⟩]⟩,
  ⟨0x2808, [(64, 0x60)], 0x0, 0x0, 0x0, [⟨0, 32, .ro⟩]⟩,
  ⟨0x280c, [(64, 0x60)], 0x0, 0x0, 0x0, [⟨0, 8, .ro⟩]⟩,
  ⟨0x2810, [(64, 0x60), (16, 0x4)], 0x0, 0x0, 0x0, [⟨0, 32, .ro⟩]⟩,
  ⟨0x4000, [(128, 0x10)], 0x0, 0x0, 0x0, [⟨0, 29, .rwl⟩, ⟨29, 1, .rwl⟩, ⟨30, 2, .rwl⟩]⟩,
  ⟨0x4004, [(128, 0x10)], 0x0, 0x0, 0x0, [⟨0, 29, .rwl⟩]⟩,
  ⟨0x4008, [(128, 0x10)], 0x0, 0x0, 0x0, [⟨0, 6, .rwl⟩, ⟨6, 2, .rwl⟩, ⟨8, 24, .rsv⟩]⟩]

/-- Registers of the ADC block. -/
def regsADC : List RegDef := [
  ⟨0x0, [], 0x0, 0x0, 0x0, [⟨0, 1, .rw⟩]⟩,
  ⟨0x4, [], 0x0, 0x0, 0x0, [⟨0, 1, .w1c⟩, ⟨1, 30, .rsv⟩, ⟨31, 1, .w1c⟩]⟩,
  ⟨0x10, [], 0x1800, 0x0, 0x0, [⟨0, 1, .rwl⟩, ⟨1, 2, .rwl⟩, ⟨3, 5, .rsv⟩, ⟨8, 8, .rwl⟩, ⟨16, 16, .rsv⟩]⟩,
  ⟨0x14, [], 0x4000100, 0x0, 0x0, [⟨0, 24, .rwl⟩, ⟨24, 4, .rwl⟩, ⟨28, 4, .rsv⟩]⟩,
  ⟨0x18, [], 0x0, 0x0, 0x0, [⟨0, 1, .wo⟩, ⟨1, 1, .wo⟩, ⟨2, 1, .wo⟩, ⟨3, 29, .rsv⟩]⟩,
  ⟨0x1c, [], 0x0, 0x0, 0x0, [⟨0, 2, .ro⟩, ⟨2, 5, .ro⟩, ⟨7, 1, .w1c⟩, ⟨8, 16, .w1c⟩, ⟨24, 1, .w1c⟩, ⟨25, 7, .rsv⟩]⟩,
  ⟨0x20, [], 0x0, 0x0, 0x0, [⟨0, 5, .ro⟩, ⟨5, 1, .ro⟩, ⟨6, 10, .rsv⟩, ⟨16, 16, .ro⟩]⟩,
  ⟨0x24, [], 0x0, 0x0, 0x0, [⟨0, 1, .ro⟩, ⟨1, 1, .w1c⟩, ⟨2, 6, .rsv⟩, ⟨8, 24, .ro⟩]⟩,
  ⟨0x40, [(8, 0x4)], 0x0, 0x0, 0x0, [⟨0, 4, .rwl⟩, ⟨4, 4, .rwl⟩, ⟨8, 1, .rwl⟩, ⟨9, 3, .rsv⟩, ⟨12, 20, .rwl⟩]⟩,
  ⟨0x100, [(16, 0x20)], 0x0, 0x0, 0x0, [⟨0, 1, .rw⟩, ⟨1, 2, .rw⟩, ⟨3, 2, .rw⟩, ⟨5, 3, .rw⟩, ⟨8, 2, .rw⟩, ⟨10, 2, .rw⟩, ⟨12, 1, .ro⟩, ⟨13, 19, .rsv⟩]⟩,
  ⟨0x104, [(16, 0x20)], 0x0, 0x0, 0x0, [⟨0, 22, .rw⟩]⟩,
  ⟨0x108, [(16, 0x20)], 0x0, 0x0, 0x0, [⟨0, 1, .ro⟩, ⟨1, 1, .w1c⟩, ⟨2, 1, .ro⟩, ⟨3, 1, .ro⟩, ⟨4, 1, .ro⟩, ⟨5, 1, .ro⟩, ⟨6, 1, .w1c⟩, ⟨7, 1, .w1c⟩, ⟨8, 4, .ro⟩, ⟨12, 20, .rsv⟩]⟩,
  ⟨0x10c, [(16, 0x20)], 0x0, 0x0, 0x0, [⟨0, 32, .ro⟩]⟩,
  ⟨0x110, [(16, 0x20)], 0x0, 0x0, 0x0, [⟨0, 32, .ro⟩]⟩,
  ⟨0x800, [(17, 0x40), (4, 0x10)], 0x0, 0x0, 0x0, [⟨0, 24, .ro⟩]⟩,
  ⟨0x804, [(17, 0x40), (4, 0x10)], 0x400000, 0x0, 0x0, [⟨0, 24, .ro⟩]⟩,
  ⟨0x808, [(17, 0x40), (4, 0x10)], 0x0, 0x0, 0x0, [⟨0, 1, .ro⟩, ⟨1, 1, .ro⟩, ⟨2, 10, .ro⟩, ⟨12, 4, .rsv⟩, ⟨16, 16, .ro⟩]⟩]

/-- Registers of the AOUT block. -/
def regsAOUT : List RegDef := [
  ⟨0x0, [], 0x0, 0x0, 0x0, [⟨0, 1, .rw⟩]⟩,
  ⟨0x4, [], 0x0, 0x0, 0x0, [⟨0, 1, .w1c⟩, ⟨1, 30, .rsv⟩, ⟨31, 1, .w1c⟩]⟩,
  ⟨0x100, [(64, 0x10)], 0x4, 0x0, 0x0, [⟨0, 2, .rwl⟩, ⟨2, 1, .rwl⟩, ⟨3, 9, .rsv⟩, ⟨12, 20, .rwl⟩]⟩,
  ⟨0x104, [(64, 0x10)], 0x0, 0x0, 0x0, [⟨0, 32, .rw⟩]⟩,
  ⟨0x108, [(64, 0x10)], 0x0, 0x0, 0x0, [⟨0, 20, .ro⟩]⟩,
  ⟨0x10c, [(64, 0x10)], 0x8, 0x0, 0x0, [⟨0, 1, .w1c⟩, ⟨1, 1, .w1c⟩, ⟨2, 1, .w1c⟩, ⟨3, 1, .ro⟩, ⟨4, 28, .rsv⟩]⟩]

/-- Registers of the DIO block. -/
def regsDIO : List RegDef := [
  ⟨0x0, [], 0x0, 0x0, 0x0, [⟨0, 1, .rw⟩]⟩,
  ⟨0x4, [], 0x0, 0x0, 0x0, [⟨0, 1, .w1c⟩, ⟨1, 30, .rsv⟩, ⟨31, 1, .w1c⟩]⟩,
  ⟨0x10, [], 0x0, 0x0, 0x0, [⟨0, 1, .rwl⟩]⟩,
  ⟨0x80, [(8, 0x4)], 0x2, 0x0, 0x0, [⟨0, 2, .rwl⟩]⟩,
  ⟨0x100, [(192, 0x4)], 0x440008, 0x0, 0x0, [⟨0, 2, .rwl⟩, ⟨2, 1, .rwl⟩, ⟨3, 1, .rwl⟩, ⟨4, 2, .rwl⟩, ⟨6, 4, .rwl⟩, ⟨10, 3, .rwl⟩, ⟨13, 1, .rwl⟩, ⟨14, 2, .rwl⟩, ⟨16, 1, .rwl⟩, ⟨17, 2, .rwl⟩, ⟨19, 8, .rwl⟩, ⟨27, 1, .rwl⟩, ⟨28, 4, .rsv⟩]⟩,
  ⟨0x400, [(192, 0x4)], 0x0, 0x0, 0x0, [⟨0, 32, .rw⟩]⟩,
  ⟨0x800, [(6, 0x4)], 0x0, 0x0, 0x0, [⟨0, 32, .ro⟩]⟩,
  ⟨0x820, [(6, 0x4)], 0x0, 0x0, 0x0, [⟨0, 32, .rw⟩]⟩,
  ⟨0x840, [(6, 0x4)], 0x0, 0x0, 0x0, [⟨0, 32, .w1c⟩]⟩,
  ⟨0x3000, [(32, 0x10)], 0x0, 0x0, 0x0, [⟨0, 8, .rwl⟩, ⟨8, 8, .rwl⟩, ⟨16, 8, .rwl⟩, ⟨24, 8, .rwl⟩]⟩,
  ⟨0x3004, [(32, 0x10)], 0x0, 0x0, 0x0, [⟨0, 1, .ro⟩, ⟨1, 1, .w1c⟩, ⟨2, 14, .rsv⟩, ⟨16, 16, .ro⟩]⟩,
  ⟨0x3008, [(32, 0x10)], 0x0, 0x0, 0x0, [⟨0, 32, .ro⟩]⟩]

/-- Registers of the CHOP block. -/
def regsCHOP : List RegDef := [
  ⟨0x0, [], 0x0, 0x0, 0x0, [⟨0, 1, .rw⟩]⟩,
  ⟨0x4, [], 0x0, 0x0, 0x0, [⟨31, 1, .w1c⟩]⟩,
  ⟨0x100, [(32, 0x20)], 0x0, 0x0, 0x0, [⟨0, 5, .rwl⟩, ⟨5, 2, .rwl⟩, ⟨7, 3, .rwl⟩, ⟨10, 4, .rwl⟩, ⟨14, 1, .rwl⟩, ⟨15, 1, .rwl⟩, ⟨16, 2, .rwl⟩, ⟨18, 14, .rsv⟩]⟩,
  ⟨0x104, [(32, 0x20)], 0x0, 0x0, 0x0, [⟨0, 8, .rw⟩, ⟨8, 8, .rw⟩, ⟨16, 16, .rw⟩]⟩,
  ⟨0x108, [(32, 0x20)], 0x0, 0x0, 0x0, [⟨0, 10, .ro⟩, ⟨10, 1, .w1c⟩, ⟨11, 1, .w1c⟩, ⟨12, 1, .w1c⟩, ⟨13, 1, .w1c⟩, ⟨14, 1, .w1c⟩, ⟨15, 1, .rsv⟩, ⟨16, 8, .ro⟩, ⟨24, 8, .ro⟩]⟩]

/-- Registers of the PWM block. -/
def regsPWM : List RegDef := [
  ⟨0x0, [], 0x0, 0x0, 0x0, [⟨0, 1, .rw⟩]⟩,
  ⟨0x4, [], 0x0, 0x0, 0x0, [⟨0, 1, .w1c⟩, ⟨1, 30, .rsv⟩, ⟨31, 1, .w1c⟩]⟩,
  ⟨0x100, [(32, 0x10)], 0x8000, 0x0, 0x0, [⟨0, 8, .rwl⟩, ⟨8, 1, .rwl⟩, ⟨9, 1, .rwl⟩, ⟨10, 1, .rwl⟩, ⟨11, 3, .rwl⟩, ⟨14, 1, .rwl⟩, ⟨15, 1, .rwl⟩, ⟨16, 16, .rsv⟩]⟩,
  ⟨0x104, [(32, 0x10)], 0x0, 0x0, 0x0, [⟨0, 24, .rwl⟩]⟩,
  ⟨0x108, [(32, 0x10)], 0x0, 0x0, 0x0, [⟨0, 32, .rw⟩]⟩,
  ⟨0x10c, [(32, 0x10)], 0x0, 0x0, 0x0, [⟨0, 24, .ro⟩]⟩]

/-- Registers of the UNIT block. -/
def regsUNIT : List RegDef := [
  ⟨0x0, [], 0x0, 0x0, 0xffffffff, [⟨0, 1, .ro⟩, ⟨1, 1, .wo⟩, ⟨2, 30, .rsv⟩]⟩,
  ⟨0x4, [], 0x0, 0x0, 0xffffffff, [⟨0, 2, .ro⟩, ⟨2, 1, .ro⟩, ⟨3, 1, .w1c⟩, ⟨4, 1, .w1c⟩, ⟨5, 1, .w1c⟩, ⟨6, 1, .w1c⟩, ⟨7, 1, .w1c⟩, ⟨8, 23, .rsv⟩, ⟨31, 1, .w1c⟩]⟩,
  ⟨0x10, [], 0x0, 0x0, 0x0, [⟨0, 3, .ro⟩, ⟨3, 1, .rsv⟩, ⟨4, 1, .ro⟩, ⟨5, 3, .rsv⟩, ⟨8, 3, .ro⟩, ⟨11, 5, .rsv⟩, ⟨16, 4, .ro⟩, ⟨20, 12, .rsv⟩]⟩,
  ⟨0x20, [], 0x0, 0x0, 0xffffffff, [⟨0, 32, .ro⟩]⟩,
  ⟨0x24, [], 0x7fffffff, 0x0, 0xffffffff, [⟨0, 32, .ro⟩]⟩,
  ⟨0x28, [], 0x0, 0x0, 0xffffffff, [⟨0, 24, .ro⟩, ⟨24, 2, .ro⟩, ⟨26, 6, .rsv⟩]⟩,
  ⟨0x2c, [], 0x0, 0x0, 0xffffffff, [⟨0, 5, .ro⟩, ⟨5, 9, .ro⟩, ⟨14, 2, .rsv⟩, ⟨16, 8, .ro⟩, ⟨24, 8, .rsv⟩]⟩,
  ⟨0x100, [], 0x0, 0x0, 0x0, [⟨0, 7, .ro⟩, ⟨7, 1, .rsv⟩, ⟨8, 5, .ro⟩, ⟨13, 3, .rsv⟩, ⟨16, 5, .ro⟩, ⟨21, 11, .rsv⟩]⟩,
  ⟨0x104, [], 0x0, 0x0, 0xffffffff, [⟨0, 32, .ro⟩]⟩,
  ⟨0x108, [], 0x0, 0x0, 0x0, [⟨0, 6, .rw⟩, ⟨6, 26, .rsv⟩]⟩,
  ⟨0x10c, [], 0x0, 0x0, 0xffffffff, [⟨0, 2, .ro⟩, ⟨2, 1, .ro⟩, ⟨3, 1, .ro⟩, ⟨4, 3, .ro⟩, ⟨7, 1, .ro⟩, ⟨8, 3, .ro⟩, ⟨11, 1, .ro⟩, ⟨12, 1, .ro⟩, ⟨13, 1, .ro⟩, ⟨14, 1, .ro⟩, ⟨15, 1, .ro⟩, ⟨16, 1, .ro⟩, ⟨17, 1, .ro⟩, ⟨18, 8, .ro⟩, ⟨26, 2, .ro⟩, ⟨28, 1, .ro⟩, ⟨29, 3, .rsv⟩]⟩,
  ⟨0x110, [], 0x0, 0x0, 0xffffffff, [⟨0, 32, .ro⟩]⟩,
  ⟨0x114, [], 0x0, 0x0, 0xffffffff, [⟨0, 32, .ro⟩]⟩,
  ⟨0x118, [], 0x0, 0x0, 0xffffffff, [⟨0, 32, .ro⟩]⟩,
  ⟨0x120, [(4, 0x4)], 0x0, 0x0, 0xffffffff, [⟨0, 32, .ro⟩]⟩,
  ⟨0x130, [], 0x0, 0x0, 0x0, [⟨0, 16, .ro⟩, ⟨16, 8, .ro⟩, ⟨24, 8, .ro⟩]⟩,
  ⟨0x200, [], 0x0, 0x0, 0x0, [⟨0, 5, .ro⟩, ⟨5, 3, .rsv⟩, ⟨8, 4, .ro⟩, ⟨12, 1, .ro⟩, ⟨13, 3, .rsv⟩, ⟨16, 4, .ro⟩, ⟨20, 12, .rsv⟩]⟩,
  ⟨0x204, [], 0x0, 0x0, 0xffffffff, [⟨0, 3, .wo⟩, ⟨3, 29, .rsv⟩]⟩,
  ⟨0x208, [], 0x0, 0x0, 0xffffffff, [⟨0, 2, .ro⟩, ⟨2, 1, .ro⟩, ⟨3, 1, .ro⟩, ⟨4, 4, .ro⟩, ⟨8, 2, .ro⟩, ⟨10, 6, .rsv⟩, ⟨16, 16, .ro⟩]⟩,
  ⟨0x20c, [], 0x0, 0x0, 0xffffffff, [⟨0, 32, .ro⟩]⟩,
  ⟨0x210, [], 0x0, 0x0, 0x0, [⟨0, 16, .ro⟩, ⟨16, 16, .ro⟩]⟩,
  ⟨0x214, [], 0x0, 0x0, 0x0, [⟨0, 16, .ro⟩, ⟨16, 16, .ro⟩]⟩,
  ⟨0x300, [], 0x0, 0x0, 0x0, [⟨0, 5, .ro⟩, ⟨5, 3, .rsv⟩, ⟨8, 5, .ro⟩, ⟨13, 19, .rsv⟩]⟩,
  ⟨0x304, [], 0x0, 0x0, 0x0, [⟨0, 4, .rw⟩, ⟨4, 28, .rsv⟩]⟩,
  ⟨0x308, [], 0x0, 0x0, 0xffffff9f, [⟨0, 4, .ro⟩, ⟨4, 1, .ro⟩, ⟨5, 2, .ro⟩, ⟨7, 1, .ro⟩, ⟨8, 1, .ro⟩, ⟨9, 4, .ro⟩, ⟨13, 1, .ro⟩, ⟨14, 2, .ro⟩, ⟨16, 1, .ro⟩, ⟨17, 4, .ro⟩, ⟨21, 11, .rsv⟩]⟩,
  ⟨0x310, [], 0x0, 0x0, 0xffffffff, [⟨0, 32, .ro⟩]⟩,
  ⟨0x314, [], 0x0, 0x0, 0xffffffff, [⟨0, 32, .ro⟩]⟩,
  ⟨0x318, [], 0x0, 0x0, 0xffffffff, [⟨0, 32, .ro⟩]⟩,
  ⟨0x31c, [], 0x0, 0x0, 0xffffffff, [⟨0, 32, .ro⟩]⟩,
  ⟨0x320, [], 0x0, 0x0, 0xffffffff, [⟨0, 32, .ro⟩]⟩,
  ⟨0x324, [], 0x0, 0x0, 0xffffffff, [⟨0, 32, .ro⟩]⟩,
  ⟨0x328, [], 0x0, 0x0, 0xffffffff, [⟨0, 32, .ro⟩]⟩,
  ⟨0x32c, [], 0x0, 0x0, 0x0, [⟨0, 16, .ro⟩, ⟨16, 8, .ro⟩, ⟨24, 8, .rsv⟩]⟩,
  ⟨0x400, [], 0x0, 0x0, 0x0, [⟨0, 3, .ro⟩, ⟨3, 5, .rsv⟩, ⟨8, 5, .ro⟩, ⟨13, 19, .rsv⟩]⟩,
  ⟨0x404, [], 0x0, 0x0, 0x0, [⟨0, 2, .rw⟩, ⟨2, 30, .rsv⟩]⟩,
  ⟨0x408, [], 0x0, 0x0, 0xffffffbf, [⟨0, 4, .ro⟩, ⟨4, 2, .ro⟩, ⟨6, 1, .ro⟩, ⟨7, 1, .ro⟩, ⟨8, 2, .ro⟩, ⟨10, 1, .ro⟩, ⟨11, 4, .ro⟩, ⟨15, 2, .ro⟩, ⟨17, 1, .ro⟩, ⟨18, 3, .rsv⟩, ⟨21, 11, .rsv⟩]⟩,
  ⟨0x40c, [], 0x7ff07ff, 0x0, 0xffffffff, [⟨0, 11, .ro⟩, ⟨11, 5, .rsv⟩, ⟨16, 11, .ro⟩, ⟨27, 5, .rsv⟩]⟩,
  ⟨0x410, [], 0x0, 0x0, 0xffffffff, [⟨0, 32, .ro⟩]⟩,
  ⟨0x414, [], 0x0, 0x0, 0xffffffff, [⟨0, 32, .ro⟩]⟩,
  ⟨0x418, [], 0x0, 0x0, 0x0, [⟨0, 16, .ro⟩, ⟨16, 16, .ro⟩]⟩,
  ⟨0x41c, [], 0x0, 0x0, 0x0, [⟨0, 4, .ro⟩, ⟨4, 28, .rsv⟩]⟩,
  ⟨0x500, [], 0x0, 0x0, 0x0, [⟨0, 3, .ro⟩, ⟨3, 5, .rsv⟩, ⟨8, 5, .ro⟩, ⟨13, 19, .rsv⟩]⟩,
  ⟨0x504, [], 0x0, 0x0, 0x0, [⟨0, 2, .rw⟩, ⟨2, 30, .rsv⟩]⟩,
  ⟨0x508, [], 0x0, 0x0, 0xffffffff, [⟨0, 3, .wo⟩, ⟨3, 5, .rsv⟩, ⟨8, 2, .wo⟩, ⟨10, 2, .rsv⟩, ⟨12, 4, .wo⟩, ⟨16, 16, .rsv⟩]⟩,
  ⟨0x50c, [], 0x0, 0x0, 0xffffffff, [⟨0, 3, .ro⟩, ⟨3, 4, .ro⟩, ⟨7, 4, .ro⟩, ⟨11, 1, .ro⟩, ⟨12, 1, .ro⟩, ⟨13, 1, .ro⟩, ⟨14, 1, .ro⟩, ⟨15, 2, .ro⟩, ⟨17, 3, .ro⟩, ⟨20, 7, .ro⟩, ⟨27, 5, .rsv⟩]⟩,
  ⟨0x510, [], 0x0, 0x0, 0xffffffff, [⟨0, 32, .ro⟩]⟩,
  ⟨0x514, [], 0x0, 0x0, 0xffffffff, [⟨0, 32, .ro⟩]⟩,
  ⟨0x518, [], 0x0, 0x0, 0x0, [⟨0, 16, .ro⟩, ⟨16, 16, .ro⟩]⟩]

/-- Registers of the CLUS block. -/
def regsCLUS : List RegDef := [
  ⟨0x0, [], 0x0, 0x0, 0x0, [⟨0, 1, .ro⟩]⟩,
  ⟨0x4, [], 0x0, 0x0, 0x0, [⟨31, 1, .w1c⟩]⟩,
  ⟨0x10, [], 0x0, 0x0, 0x0, [⟨0, 3, .ro⟩, ⟨3, 5, .rsv⟩, ⟨8, 16, .ro⟩, ⟨24, 8, .rsv⟩]⟩,
  ⟨0x1000, [(512, 0x8)], 0x0, 0x0, 0xffffffff, [⟨0, 32, .ro⟩]⟩,
  ⟨0x1004, [(512, 0x8)], 0x0, 0x0, 0xfff7ffff, [⟨0, 9, .ro⟩, ⟨9, 5, .ro⟩, ⟨14, 2, .ro⟩, ⟨16, 1, .ro⟩, ⟨17, 1, .ro⟩, ⟨18, 1, .ro⟩, ⟨19, 1, .ro⟩, ⟨20, 12, .rsv⟩]⟩]

/-- Registers of the RGN block. -/
def regsRGN : List RegDef := [
  ⟨0x0, [], 0x0, 0x0, 0x0, [⟨0, 1, .ro⟩]⟩,
  ⟨0x4, [], 0x0, 0x0, 0x0, [⟨31, 1, .w1c⟩]⟩,
  ⟨0x10, [], 0x0, 0x0, 0x0, [⟨0, 8, .ro⟩, ⟨8, 24, .ro⟩]⟩,
  ⟨0x14, [], 0x0, 0x0, 0xffffffff, [⟨0, 10, .ro⟩, ⟨10, 6, .rsv⟩, ⟨16, 10, .ro⟩, ⟨26, 6, .rsv⟩]⟩]

/-- The registers of a block. -/
def Blk.regs : Blk → List RegDef
  | .sys => regsSYS
  | .rst => regsRST
  | .time => regsTIME
  | .pwr => regsPWR
  | .marg => regsMARG
  | .cfgchk => regsCFGCHK
  | .evt => regsEVT
  | .disp => regsDISP
  | .dupx => regsDUPX
  | .safe => regsSAFE
  | .acq => regsACQ
  | .eth => regsETH
  | .hol => regsHOL
  | .can => regsCAN
  | .adc => regsADC
  | .aout => regsAOUT
  | .dio => regsDIO
  | .chop => regsCHOP
  | .pwm => regsPWM
  | .unit => regsUNIT
  | .clus => regsCLUS
  | .rgn => regsRGN

/-- A register matches an offset; the indices it has there. -/
def RegDef.at? (r : RegDef) (off : Nat) : Option (Nat × Nat) :=
  if off < r.off then none
  else
    let d := off - r.off
    match r.dims with
    | [] => if d = 0 then some (0, 0) else none
    | (n, s) :: [] => if d % s = 0 ∧ d / s < n then some (d / s, 0) else none
    | (n1, s1) :: (n2, s2) :: _ =>
      if d / s1 < n1 ∧ d % s1 % s2 = 0 ∧ d % s1 / s2 < n2 then some (d / s1, d % s1 / s2) else none

/-- The register at an offset, with its indices. -/
def findReg : List RegDef → Nat → Option (RegDef × Nat × Nat)
  | [], _ => none
  | r :: t, off =>
    match r.at? off with
    | some (i, j) => some (r, i, j)
    | none => findReg t off

/-- The block, instance and register at an address. -/
def regAt (a : Nat) : Option (Blk × Nat × RegDef) :=
  match blkAt a with
  | some (b, k) => (findReg b.regs (a % 0x10000)).map (fun r => (b, k, r.1))
  | none => none

/-- The reset value of the word at an address (0 where no register lies). -/
def rstOf (a : Nat) : Nat :=
  match blkAt a with
  | some (b, _) => match findReg b.regs (a % 0x10000) with
    | some (r, _, _) => r.rst
    | none => 0
  | none => 0

/-! ### Named fields -/
namespace R
def SYS_CTRL : F := ⟨.sys, 0x0, 0x0, 0x0, 0, 32⟩
def SYS_CTRL_EN : F := ⟨.sys, 0x0, 0x0, 0x0, 0, 1⟩
def SYS_STAT : F := ⟨.sys, 0x4, 0x0, 0x0, 0, 32⟩
def SYS_STAT_ABSENT_ACC : F := ⟨.sys, 0x4, 0x0, 0x0, 0, 1⟩
def SYS_STAT_WIGN_ANY : F := ⟨.sys, 0x4, 0x0, 0x0, 1, 1⟩
def SYS_STAT_WIGN : F := ⟨.sys, 0x4, 0x0, 0x0, 31, 1⟩
def SYS_INV : F := ⟨.sys, 0x10, 0x0, 0x0, 0, 32⟩
def SYS_INV_F0 : F := ⟨.sys, 0x10, 0x0, 0x0, 0, 1⟩
def SYS_INV_F1 : F := ⟨.sys, 0x10, 0x0, 0x0, 1, 1⟩
def SYS_INV_ADIE : F := ⟨.sys, 0x10, 0x0, 0x0, 2, 1⟩
def SYS_INV_SDIE : F := ⟨.sys, 0x10, 0x0, 0x0, 3, 1⟩
def SYS_INV_WELT : F := ⟨.sys, 0x10, 0x0, 0x0, 4, 1⟩
def SYS_INV_DRAM16 : F := ⟨.sys, 0x10, 0x0, 0x0, 8, 4⟩
def SYS_INV_ETHPAIRS : F := ⟨.sys, 0x10, 0x0, 0x0, 12, 4⟩
def SYS_INV_HOLSEG : F := ⟨.sys, 0x10, 0x0, 0x0, 16, 5⟩
def SYS_INV_CANCTL : F := ⟨.sys, 0x10, 0x0, 0x0, 21, 4⟩
def SYS_INV_AINBANKS : F := ⟨.sys, 0x10, 0x0, 0x0, 25, 5⟩
def SYS_PART : F := ⟨.sys, 0x14, 0x0, 0x0, 0, 32⟩
def SYS_PART_PART : F := ⟨.sys, 0x14, 0x0, 0x0, 0, 16⟩
def SYS_PART_STEP : F := ⟨.sys, 0x14, 0x0, 0x0, 16, 8⟩
def SYS_ABSENT_ADDR : F := ⟨.sys, 0x18, 0x0, 0x0, 0, 32⟩
def SYS_ABSENT_ADDR_ADDR : F := ⟨.sys, 0x18, 0x0, 0x0, 0, 32⟩
def SYS_WIGN_ADDR : F := ⟨.sys, 0x1c, 0x0, 0x0, 0, 32⟩
def SYS_WIGN_ADDR_ADDR : F := ⟨.sys, 0x1c, 0x0, 0x0, 0, 32⟩
def SYS_LAST_STAT : F := ⟨.sys, 0x40, 0x0, 0x0, 0, 32⟩
def SYS_LAST_STAT_STATE : F := ⟨.sys, 0x40, 0x0, 0x0, 0, 3⟩
def SYS_LAST_STAT_SRC : F := ⟨.sys, 0x40, 0x0, 0x0, 4, 2⟩
def SYS_LAST_STAT_RESULT : F := ⟨.sys, 0x40, 0x0, 0x0, 8, 8⟩
def SYS_LAST_STAT_STEP : F := ⟨.sys, 0x40, 0x0, 0x0, 16, 4⟩
def SYS_SLOT_CTL : F := ⟨.sys, 0x44, 0x0, 0x0, 0, 32⟩
def SYS_SLOT_CTL_PREF : F := ⟨.sys, 0x44, 0x0, 0x0, 0, 1⟩
def SYS_SLOT_STAT : F := ⟨.sys, 0x48, 0x0, 0x0, 0, 32⟩
def SYS_SLOT_STAT_A : F := ⟨.sys, 0x48, 0x0, 0x0, 0, 2⟩
def SYS_SLOT_STAT_B : F := ⟨.sys, 0x48, 0x0, 0x0, 2, 2⟩
def SYS_MISSING : F := ⟨.sys, 0x4c, 0x0, 0x0, 0, 32⟩
def SYS_MISSING_RTYPE : F := ⟨.sys, 0x4c, 0x0, 0x0, 0, 8⟩
def SYS_MISSING_INDEX : F := ⟨.sys, 0x4c, 0x0, 0x0, 8, 16⟩
def SYS_LAST_ID : F := ⟨.sys, 0x50, 0x4, 0x0, 0, 32⟩
def SYS_LAST_ID_ID : F := ⟨.sys, 0x50, 0x4, 0x0, 0, 32⟩
def SYS_LC_STAT : F := ⟨.sys, 0x60, 0x0, 0x0, 0, 32⟩
def SYS_LC_STAT_STATE : F := ⟨.sys, 0x60, 0x0, 0x0, 0, 3⟩
def SYS_LC_STAT_DEVLOAD : F := ⟨.sys, 0x60, 0x0, 0x0, 3, 1⟩
def SYS_LC_STAT_ERASE_PEND : F := ⟨.sys, 0x60, 0x0, 0x0, 4, 1⟩
def SYS_LC_STAT_LASTREQ : F := ⟨.sys, 0x60, 0x0, 0x0, 8, 2⟩
def SYS_LC_STAT_WHY : F := ⟨.sys, 0x60, 0x0, 0x0, 10, 4⟩
def SYS_KEY_STAT : F := ⟨.sys, 0x64, 0x0, 0x0, 0, 32⟩
def SYS_KEY_STAT_PROG : F := ⟨.sys, 0x64, 0x0, 0x0, 0, 4⟩
def SYS_KEY_STAT_REVOKED : F := ⟨.sys, 0x64, 0x0, 0x0, 4, 4⟩
def SYS_KEY_STAT_SVNMIN : F := ⟨.sys, 0x64, 0x0, 0x0, 8, 8⟩
def SYS_LC_NONCE_LO : F := ⟨.sys, 0x68, 0x0, 0x0, 0, 32⟩
def SYS_LC_NONCE_LO_NONCE : F := ⟨.sys, 0x68, 0x0, 0x0, 0, 32⟩
def SYS_LC_NONCE_HI : F := ⟨.sys, 0x6c, 0x0, 0x0, 0, 32⟩
def SYS_LC_NONCE_HI_NONCE : F := ⟨.sys, 0x6c, 0x0, 0x0, 0, 32⟩
def SYS_UID : F := ⟨.sys, 0x70, 0x4, 0x0, 0, 32⟩
def SYS_UID_UID : F := ⟨.sys, 0x70, 0x4, 0x0, 0, 32⟩
def SYS_FRC_SEL : F := ⟨.sys, 0x100, 0x0, 0x0, 0, 32⟩
def SYS_FRC_SEL_ENTRY : F := ⟨.sys, 0x100, 0x0, 0x0, 0, 10⟩
def SYS_FRC_ID : F := ⟨.sys, 0x104, 0x0, 0x0, 0, 32⟩
def SYS_FRC_ID_SIGID : F := ⟨.sys, 0x104, 0x0, 0x0, 0, 20⟩
def SYS_FRC_ID_TYPE : F := ⟨.sys, 0x104, 0x0, 0x0, 20, 2⟩
def SYS_FRC_ID_WCLASS : F := ⟨.sys, 0x104, 0x0, 0x0, 24, 3⟩
def SYS_FRC_VAL : F := ⟨.sys, 0x108, 0x0, 0x0, 0, 32⟩
def SYS_FRC_VAL_VAL : F := ⟨.sys, 0x108, 0x0, 0x0, 0, 32⟩
def SYS_FRC_CTL : F := ⟨.sys, 0x10c, 0x0, 0x0, 0, 32⟩
def SYS_FRC_CTL_SET : F := ⟨.sys, 0x10c, 0x0, 0x0, 0, 1⟩
def SYS_FRC_CTL_REMOVE : F := ⟨.sys, 0x10c, 0x0, 0x0, 1, 1⟩
def SYS_FRC_CTL_ACTIVE : F := ⟨.sys, 0x10c, 0x0, 0x0, 2, 1⟩
def SYS_FRC_CTL_PEND : F := ⟨.sys, 0x10c, 0x0, 0x0, 3, 1⟩
def SYS_FRC_CTL_REFUSED : F := ⟨.sys, 0x10c, 0x0, 0x0, 4, 1⟩
def SYS_FRC_CTL_WHY : F := ⟨.sys, 0x10c, 0x0, 0x0, 5, 3⟩
def SYS_FRC_STAT : F := ⟨.sys, 0x110, 0x0, 0x0, 0, 32⟩
def SYS_FRC_STAT_COUNT : F := ⟨.sys, 0x110, 0x0, 0x0, 0, 11⟩
def SYS_FRC_STAT_DROPPED : F := ⟨.sys, 0x110, 0x0, 0x0, 16, 12⟩
def RST_CTRL : F := ⟨.rst, 0x0, 0x0, 0x0, 0, 32⟩
def RST_CTRL_EN : F := ⟨.rst, 0x0, 0x0, 0x0, 0, 1⟩
def RST_STAT : F := ⟨.rst, 0x4, 0x0, 0x0, 0, 32⟩
def RST_STAT_TRIM_VALID : F := ⟨.rst, 0x4, 0x0, 0x0, 0, 1⟩
def RST_STAT_HOLDEXP : F := ⟨.rst, 0x4, 0x0, 0x0, 1, 1⟩
def RST_STAT_VINLOW : F := ⟨.rst, 0x4, 0x0, 0x0, 2, 1⟩
def RST_STAT_WIGN : F := ⟨.rst, 0x4, 0x0, 0x0, 31, 1⟩
def RST_CAUSE : F := ⟨.rst, 0x10, 0x0, 0x0, 0, 32⟩
def RST_CAUSE_FIRST : F := ⟨.rst, 0x10, 0x0, 0x0, 0, 4⟩
def RST_CAUSE_REACH : F := ⟨.rst, 0x10, 0x0, 0x0, 4, 2⟩
def RST_CAUSE_MASK : F := ⟨.rst, 0x10, 0x0, 0x0, 16, 16⟩
def RST_HOLD : F := ⟨.rst, 0x14, 0x0, 0x0, 0, 32⟩
def RST_HOLD_HOLD_MAX : F := ⟨.rst, 0x14, 0x0, 0x0, 0, 16⟩
def RST_HOLD_MAXAGE : F := ⟨.rst, 0x14, 0x0, 0x0, 16, 16⟩
def RST_CNT : F := ⟨.rst, 0x18, 0x0, 0x0, 0, 32⟩
def RST_CNT_CORE : F := ⟨.rst, 0x18, 0x0, 0x0, 0, 16⟩
def RST_CNT_ESCALATIONS : F := ⟨.rst, 0x18, 0x0, 0x0, 16, 8⟩
def RST_TRIM : F := ⟨.rst, 0x1c, 0x0, 0x0, 0, 32⟩
def RST_TRIM_FAILS : F := ⟨.rst, 0x1c, 0x0, 0x0, 0, 2⟩
def RST_RESUME : F := ⟨.rst, 0x20, 0x0, 0x0, 0, 32⟩
def RST_RESUME_US : F := ⟨.rst, 0x20, 0x0, 0x0, 0, 32⟩
def RST_PLR_STAT : F := ⟨.rst, 0x2c, 0x0, 0x0, 0, 32⟩
def RST_PLR_STAT_STATE : F := ⟨.rst, 0x2c, 0x0, 0x0, 0, 2⟩
def RST_PLR_STAT_WHY : F := ⟨.rst, 0x2c, 0x0, 0x0, 2, 3⟩
def RST_TR_LO : F := ⟨.rst, 0x24, 0x0, 0x0, 0, 32⟩
def RST_TR_LO_TICK : F := ⟨.rst, 0x24, 0x0, 0x0, 0, 32⟩
def RST_TR_HI : F := ⟨.rst, 0x28, 0x0, 0x0, 0, 32⟩
def RST_TR_HI_TICK : F := ⟨.rst, 0x28, 0x0, 0x0, 0, 32⟩
def TIME_CTRL : F := ⟨.time, 0x0, 0x0, 0x0, 0, 32⟩
def TIME_CTRL_EN : F := ⟨.time, 0x0, 0x0, 0x0, 0, 1⟩
def TIME_STAT : F := ⟨.time, 0x4, 0x0, 0x0, 0, 32⟩
def TIME_STAT_PLL : F := ⟨.time, 0x4, 0x0, 0x0, 0, 1⟩
def TIME_STAT_REFLOSS : F := ⟨.time, 0x4, 0x0, 0x0, 1, 1⟩
def TIME_STAT_WIGN : F := ⟨.time, 0x4, 0x0, 0x0, 31, 1⟩
def TIME_CNT_LO : F := ⟨.time, 0x10, 0x0, 0x0, 0, 32⟩
def TIME_CNT_LO_CNT : F := ⟨.time, 0x10, 0x0, 0x0, 0, 32⟩
def TIME_CNT_HI : F := ⟨.time, 0x14, 0x0, 0x0, 0, 32⟩
def TIME_CNT_HI_CNT : F := ⟨.time, 0x14, 0x0, 0x0, 0, 32⟩
def TIME_SNAP_CTL : F := ⟨.time, 0x18, 0x0, 0x0, 0, 32⟩
def TIME_SNAP_CTL_MASK : F := ⟨.time, 0x18, 0x0, 0x0, 0, 8⟩
def TIME_SNAP_CTL_DONE : F := ⟨.time, 0x18, 0x0, 0x0, 8, 1⟩
def TIME_SNAP_CNT_LO : F := ⟨.time, 0x1c, 0x0, 0x0, 0, 32⟩
def TIME_SNAP_CNT_LO_CNT : F := ⟨.time, 0x1c, 0x0, 0x0, 0, 32⟩
def TIME_SNAP_CNT_HI : F := ⟨.time, 0x20, 0x0, 0x0, 0, 32⟩
def TIME_SNAP_CNT_HI_CNT : F := ⟨.time, 0x20, 0x0, 0x0, 0, 32⟩
def TIME_VCTL : F := ⟨.time, 0x100, 0x40, 0x0, 0, 32⟩
def TIME_VCTL_SRC : F := ⟨.time, 0x100, 0x40, 0x0, 0, 2⟩
def TIME_VCTL_SEG : F := ⟨.time, 0x100, 0x40, 0x0, 8, 5⟩
def TIME_VSTAT : F := ⟨.time, 0x104, 0x40, 0x0, 0, 32⟩
def TIME_VSTAT_STATE : F := ⟨.time, 0x104, 0x40, 0x0, 0, 2⟩
def TIME_VSTAT_LOCK : F := ⟨.time, 0x104, 0x40, 0x0, 2, 1⟩
def TIME_VSTAT_SLEW : F := ⟨.time, 0x104, 0x40, 0x0, 3, 1⟩
def TIME_VSTAT_REFUSED : F := ⟨.time, 0x104, 0x40, 0x0, 4, 1⟩
def TIME_VSTAT_WHY : F := ⟨.time, 0x104, 0x40, 0x0, 5, 3⟩
def TIME_INC_LO : F := ⟨.time, 0x108, 0x40, 0x0, 0, 32⟩
def TIME_INC_LO_FRAC : F := ⟨.time, 0x108, 0x40, 0x0, 0, 32⟩
def TIME_INC_HI : F := ⟨.time, 0x10c, 0x40, 0x0, 0, 32⟩
def TIME_INC_HI_FRACHI : F := ⟨.time, 0x10c, 0x40, 0x0, 0, 8⟩
def TIME_INC_HI_INT : F := ⟨.time, 0x10c, 0x40, 0x0, 8, 8⟩
def TIME_SET_FRAC : F := ⟨.time, 0x110, 0x40, 0x0, 0, 32⟩
def TIME_SET_FRAC_V : F := ⟨.time, 0x110, 0x40, 0x0, 0, 32⟩
def TIME_SET_NS_LO : F := ⟨.time, 0x114, 0x40, 0x0, 0, 32⟩
def TIME_SET_NS_LO_V : F := ⟨.time, 0x114, 0x40, 0x0, 0, 32⟩
def TIME_SET_NS_HI : F := ⟨.time, 0x118, 0x40, 0x0, 0, 32⟩
def TIME_SET_NS_HI_V : F := ⟨.time, 0x118, 0x40, 0x0, 0, 32⟩
def TIME_STEP_LO : F := ⟨.time, 0x11c, 0x40, 0x0, 0, 32⟩
def TIME_STEP_LO_V : F := ⟨.time, 0x11c, 0x40, 0x0, 0, 32⟩
def TIME_STEP_HI : F := ⟨.time, 0x120, 0x40, 0x0, 0, 32⟩
def TIME_STEP_HI_V : F := ⟨.time, 0x120, 0x40, 0x0, 0, 32⟩
def TIME_SNAP_FRAC : F := ⟨.time, 0x124, 0x40, 0x0, 0, 32⟩
def TIME_SNAP_FRAC_V : F := ⟨.time, 0x124, 0x40, 0x0, 0, 32⟩
def TIME_SNAP_NS_LO : F := ⟨.time, 0x128, 0x40, 0x0, 0, 32⟩
def TIME_SNAP_NS_LO_V : F := ⟨.time, 0x128, 0x40, 0x0, 0, 32⟩
def TIME_SNAP_NS_HI : F := ⟨.time, 0x12c, 0x40, 0x0, 0, 32⟩
def TIME_SNAP_NS_HI_V : F := ⟨.time, 0x12c, 0x40, 0x0, 0, 32⟩
def TIME_ACT_INC_LO : F := ⟨.time, 0x130, 0x40, 0x0, 0, 32⟩
def TIME_ACT_INC_LO_V : F := ⟨.time, 0x130, 0x40, 0x0, 0, 32⟩
def TIME_ACT_INC_HI : F := ⟨.time, 0x134, 0x40, 0x0, 0, 32⟩
def TIME_ACT_INC_HI_V : F := ⟨.time, 0x134, 0x40, 0x0, 0, 16⟩
def TIME_CADn_CFG : F := ⟨.time, 0x400, 0x10, 0x0, 0, 32⟩
def TIME_CADn_CFG_MULT : F := ⟨.time, 0x400, 0x10, 0x0, 0, 17⟩
def TIME_CADn_CFG_WAITLOCK : F := ⟨.time, 0x400, 0x10, 0x0, 24, 1⟩
def TIME_CADn_PHASE : F := ⟨.time, 0x404, 0x10, 0x0, 0, 32⟩
def TIME_CADn_PHASE_PHASE : F := ⟨.time, 0x404, 0x10, 0x0, 0, 27⟩
def TIME_CADn_CYC : F := ⟨.time, 0x408, 0x10, 0x0, 0, 32⟩
def TIME_CADn_CYC_CYC : F := ⟨.time, 0x408, 0x10, 0x0, 0, 32⟩
def TIME_CADn_STAT : F := ⟨.time, 0x40c, 0x10, 0x0, 0, 32⟩
def TIME_CADn_STAT_RUN : F := ⟨.time, 0x40c, 0x10, 0x0, 0, 1⟩
def TIME_CADn_STAT_WAIT : F := ⟨.time, 0x40c, 0x10, 0x0, 1, 1⟩
def TIME_CADn_STAT_NOLOCK : F := ⟨.time, 0x40c, 0x10, 0x0, 2, 1⟩
def TIME_CMPi_CTL : F := ⟨.time, 0x800, 0x20, 0x0, 0, 32⟩
def TIME_CMPi_CTL_ARM : F := ⟨.time, 0x800, 0x20, 0x0, 0, 1⟩
def TIME_CMPi_CTL_VIEW : F := ⟨.time, 0x800, 0x20, 0x0, 1, 3⟩
def TIME_CMPi_CTL_ACTION : F := ⟨.time, 0x800, 0x20, 0x0, 4, 2⟩
def TIME_CMPi_CTL_TARGET : F := ⟨.time, 0x800, 0x20, 0x0, 8, 8⟩
def TIME_CMPi_LO : F := ⟨.time, 0x804, 0x20, 0x0, 0, 32⟩
def TIME_CMPi_LO_T : F := ⟨.time, 0x804, 0x20, 0x0, 0, 32⟩
def TIME_CMPi_HI : F := ⟨.time, 0x808, 0x20, 0x0, 0, 32⟩
def TIME_CMPi_HI_T : F := ⟨.time, 0x808, 0x20, 0x0, 0, 32⟩
def TIME_CMPi_PER : F := ⟨.time, 0x80c, 0x20, 0x0, 0, 32⟩
def TIME_CMPi_PER_PER : F := ⟨.time, 0x80c, 0x20, 0x0, 0, 32⟩
def TIME_CMPi_STAT : F := ⟨.time, 0x810, 0x20, 0x0, 0, 32⟩
def TIME_CMPi_STAT_FIRED : F := ⟨.time, 0x810, 0x20, 0x0, 0, 16⟩
def TIME_CMPi_STAT_MISSED : F := ⟨.time, 0x810, 0x20, 0x0, 16, 16⟩
def PWR_CTRL : F := ⟨.pwr, 0x0, 0x0, 0x0, 0, 32⟩
def PWR_CTRL_EN : F := ⟨.pwr, 0x0, 0x0, 0x0, 0, 1⟩
def PWR_STAT : F := ⟨.pwr, 0x4, 0x0, 0x0, 0, 32⟩
def PWR_STAT_SHED : F := ⟨.pwr, 0x4, 0x0, 0x0, 0, 3⟩
def PWR_STAT_ILIM : F := ⟨.pwr, 0x4, 0x0, 0x0, 3, 1⟩
def PWR_STAT_FLOORSHORT : F := ⟨.pwr, 0x4, 0x0, 0x0, 4, 1⟩
def PWR_STAT_BOOSTDENY : F := ⟨.pwr, 0x4, 0x0, 0x0, 5, 1⟩
def PWR_STAT_REFUSED : F := ⟨.pwr, 0x4, 0x0, 0x0, 6, 1⟩
def PWR_STAT_WIGN : F := ⟨.pwr, 0x4, 0x0, 0x0, 31, 1⟩
def PWR_BUDGET : F := ⟨.pwr, 0x10, 0x0, 0x0, 0, 32⟩
def PWR_BUDGET_PKG_BUDGET : F := ⟨.pwr, 0x10, 0x0, 0x0, 0, 17⟩
def PWR_ILIM : F := ⟨.pwr, 0x14, 0x0, 0x0, 0, 32⟩
def PWR_ILIM_ILIM : F := ⟨.pwr, 0x14, 0x0, 0x0, 0, 10⟩
def PWR_CFG : F := ⟨.pwr, 0x18, 0x0, 0x0, 0, 32⟩
def PWR_CFG_RESV : F := ⟨.pwr, 0x18, 0x0, 0x0, 0, 4⟩
def PWR_PIN : F := ⟨.pwr, 0x20, 0x0, 0x0, 0, 32⟩
def PWR_PIN_MW : F := ⟨.pwr, 0x20, 0x0, 0x0, 0, 32⟩
def PWR_IIN : F := ⟨.pwr, 0x24, 0x0, 0x0, 0, 32⟩
def PWR_IIN_MA : F := ⟨.pwr, 0x24, 0x0, 0x0, 0, 32⟩
def PWR_PBASE : F := ⟨.pwr, 0x28, 0x0, 0x0, 0, 32⟩
def PWR_PBASE_MW : F := ⟨.pwr, 0x28, 0x0, 0x0, 0, 32⟩
def PWR_SPARE : F := ⟨.pwr, 0x2c, 0x0, 0x0, 0, 32⟩
def PWR_SPARE_MW : F := ⟨.pwr, 0x2c, 0x0, 0x0, 0, 32⟩
def PWR_FLOORc : F := ⟨.pwr, 0x40, 0x4, 0x0, 0, 32⟩
def PWR_FLOORc_MW : F := ⟨.pwr, 0x40, 0x4, 0x0, 0, 32⟩
def PWR_RGN_GRANT : F := ⟨.pwr, 0x100, 0x10, 0x0, 0, 32⟩
def PWR_RGN_GRANT_MW : F := ⟨.pwr, 0x100, 0x10, 0x0, 0, 32⟩
def PWR_RGN_MEAS : F := ⟨.pwr, 0x104, 0x10, 0x0, 0, 32⟩
def PWR_RGN_MEAS_MW : F := ⟨.pwr, 0x104, 0x10, 0x0, 0, 32⟩
def PWR_RGN_STAT : F := ⟨.pwr, 0x108, 0x10, 0x0, 0, 32⟩
def PWR_RGN_STAT_CLASS : F := ⟨.pwr, 0x108, 0x10, 0x0, 0, 3⟩
def PWR_RGN_STAT_CAPPED : F := ⟨.pwr, 0x108, 0x10, 0x0, 3, 1⟩
def PWR_RGN_STAT_ENVHOLD : F := ⟨.pwr, 0x108, 0x10, 0x0, 4, 1⟩
def PWR_RGN_STAT_BOOST : F := ⟨.pwr, 0x108, 0x10, 0x0, 5, 1⟩
def PWR_RGN_OPS : F := ⟨.pwr, 0x10c, 0x10, 0x0, 0, 32⟩
def PWR_RGN_OPS_OPS : F := ⟨.pwr, 0x10c, 0x10, 0x0, 0, 32⟩
def PWR_SUPPLY : F := ⟨.pwr, 0x30, 0x0, 0x0, 0, 32⟩
def PWR_SUPPLY_VIN_OK : F := ⟨.pwr, 0x30, 0x0, 0x0, 0, 1⟩
def PWR_SUPPLY_VDDA_OK : F := ⟨.pwr, 0x30, 0x0, 0x0, 1, 1⟩
def PWR_SUPPLY_VSAFE_OK : F := ⟨.pwr, 0x30, 0x0, 0x0, 2, 1⟩
def PWR_SUPPLY_VDDIO_OK : F := ⟨.pwr, 0x30, 0x0, 0x0, 4, 8⟩
def PWR_TEMP : F := ⟨.pwr, 0x34, 0x0, 0x0, 0, 32⟩
def PWR_TEMP_TJ_M : F := ⟨.pwr, 0x34, 0x0, 0x0, 0, 10⟩
def PWR_TEMP_TJ_A : F := ⟨.pwr, 0x34, 0x0, 0x0, 16, 10⟩
def MARG_CTRL : F := ⟨.marg, 0x0, 0x0, 0x0, 0, 32⟩
def MARG_CTRL_EN : F := ⟨.marg, 0x0, 0x0, 0x0, 0, 1⟩
def MARG_STAT : F := ⟨.marg, 0x4, 0x0, 0x0, 0, 32⟩
def MARG_STAT_HORIZON : F := ⟨.marg, 0x4, 0x0, 0x0, 0, 8⟩
def MARG_STAT_PLANNING : F := ⟨.marg, 0x4, 0x0, 0x0, 8, 8⟩
def MARG_STAT_WIGN : F := ⟨.marg, 0x4, 0x0, 0x0, 31, 1⟩
def MARG_CFG : F := ⟨.marg, 0x10, 0x0, 0x0, 0, 32⟩
def MARG_CFG_BOOST_MV : F := ⟨.marg, 0x10, 0x0, 0x0, 0, 8⟩
def MARG_CFG_HZN_WARN : F := ⟨.marg, 0x10, 0x0, 0x0, 8, 8⟩
def MARG_CMD : F := ⟨.marg, 0x14, 0x0, 0x0, 0, 32⟩
def MARG_CMD_PLAN : F := ⟨.marg, 0x14, 0x0, 0x0, 0, 1⟩
def MARG_RGN_PLAN : F := ⟨.marg, 0x100, 0x20, 0x0, 0, 32⟩
def MARG_RGN_PLAN_PLAN_MV : F := ⟨.marg, 0x100, 0x20, 0x0, 0, 10⟩
def MARG_RGN_PLAN_EXHAUSTED : F := ⟨.marg, 0x100, 0x20, 0x0, 10, 1⟩
def MARG_RGN_PLAN_BOOSTED : F := ⟨.marg, 0x100, 0x20, 0x0, 11, 1⟩
def MARG_RGN_PLAN_HORIZON : F := ⟨.marg, 0x100, 0x20, 0x0, 12, 8⟩
def MARG_RGN_TJ : F := ⟨.marg, 0x104, 0x20, 0x0, 0, 32⟩
def MARG_RGN_TJ_NOW : F := ⟨.marg, 0x104, 0x20, 0x0, 0, 10⟩
def MARG_RGN_TJ_PLAN : F := ⟨.marg, 0x104, 0x20, 0x0, 16, 10⟩
def MARG_RGN_ENV : F := ⟨.marg, 0x108, 0x20, 0x0, 0, 32⟩
def MARG_RGN_ENV_OPS : F := ⟨.marg, 0x108, 0x20, 0x0, 0, 32⟩
def MARG_RGN_SLACK : F := ⟨.marg, 0x10c, 0x20, 0x0, 0, 32⟩
def MARG_RGN_SLACK_SLACK : F := ⟨.marg, 0x10c, 0x20, 0x0, 0, 32⟩
def MARG_RGN_DRIFT : F := ⟨.marg, 0x110, 0x20, 0x0, 0, 32⟩
def MARG_RGN_DRIFT_A_G : F := ⟨.marg, 0x110, 0x20, 0x0, 0, 32⟩
def MARG_RGN_AGE : F := ⟨.marg, 0x114, 0x20, 0x0, 0, 32⟩
def MARG_RGN_AGE_HOURS : F := ⟨.marg, 0x114, 0x20, 0x0, 0, 32⟩
def MARG_MON : F := ⟨.marg, 0x1000, 0x100, 0x4, 0, 32⟩
def MARG_MON_VALUE : F := ⟨.marg, 0x1000, 0x100, 0x4, 0, 16⟩
def MARG_MON_SENSE_MV : F := ⟨.marg, 0x1000, 0x100, 0x4, 16, 10⟩
def CFGCHK_CTRL : F := ⟨.cfgchk, 0x0, 0x0, 0x0, 0, 32⟩
def CFGCHK_CTRL_EN : F := ⟨.cfgchk, 0x0, 0x0, 0x0, 0, 1⟩
def CFGCHK_STAT : F := ⟨.cfgchk, 0x4, 0x0, 0x0, 0, 32⟩
def CFGCHK_STAT_MISMATCH : F := ⟨.cfgchk, 0x4, 0x0, 0x0, 0, 1⟩
def CFGCHK_STAT_REFVALID : F := ⟨.cfgchk, 0x4, 0x0, 0x0, 1, 1⟩
def CFGCHK_STAT_BLKVALID : F := ⟨.cfgchk, 0x4, 0x0, 0x0, 2, 1⟩
def CFGCHK_STAT_SUSP : F := ⟨.cfgchk, 0x4, 0x0, 0x0, 3, 1⟩
def CFGCHK_STAT_DIRTY : F := ⟨.cfgchk, 0x4, 0x0, 0x0, 4, 1⟩
def CFGCHK_STAT_WIGN : F := ⟨.cfgchk, 0x4, 0x0, 0x0, 31, 1⟩
def CFGCHK_CFG : F := ⟨.cfgchk, 0x10, 0x0, 0x0, 0, 32⟩
def CFGCHK_CFG_REACT : F := ⟨.cfgchk, 0x10, 0x0, 0x0, 0, 2⟩
def CFGCHK_CMD : F := ⟨.cfgchk, 0x14, 0x0, 0x0, 0, 32⟩
def CFGCHK_CMD_COMMIT : F := ⟨.cfgchk, 0x14, 0x0, 0x0, 0, 1⟩
def CFGCHK_CMD_SUSPEND : F := ⟨.cfgchk, 0x14, 0x0, 0x0, 1, 1⟩
def CFGCHK_REF : F := ⟨.cfgchk, 0x18, 0x0, 0x0, 0, 32⟩
def CFGCHK_REF_REF : F := ⟨.cfgchk, 0x18, 0x0, 0x0, 0, 32⟩
def CFGCHK_LAST : F := ⟨.cfgchk, 0x1c, 0x0, 0x0, 0, 32⟩
def CFGCHK_LAST_CRC : F := ⟨.cfgchk, 0x1c, 0x0, 0x0, 0, 32⟩
def CFGCHK_PASSES : F := ⟨.cfgchk, 0x20, 0x0, 0x0, 0, 32⟩
def CFGCHK_PASSES_COUNT : F := ⟨.cfgchk, 0x20, 0x0, 0x0, 0, 32⟩
def CFGCHK_WHERE : F := ⟨.cfgchk, 0x24, 0x0, 0x0, 0, 32⟩
def CFGCHK_WHERE_VALID : F := ⟨.cfgchk, 0x24, 0x0, 0x0, 0, 1⟩
def CFGCHK_WHERE_BASE : F := ⟨.cfgchk, 0x24, 0x0, 0x0, 16, 16⟩
def CFGCHK_MMCOUNT : F := ⟨.cfgchk, 0x28, 0x0, 0x0, 0, 32⟩
def CFGCHK_MMCOUNT_COUNT : F := ⟨.cfgchk, 0x28, 0x0, 0x0, 0, 32⟩
def EVT_CTRL : F := ⟨.evt, 0x0, 0x0, 0x0, 0, 32⟩
def EVT_CTRL_EN : F := ⟨.evt, 0x0, 0x0, 0x0, 0, 1⟩
def EVT_STAT : F := ⟨.evt, 0x4, 0x0, 0x0, 0, 32⟩
def EVT_STAT_QOVF : F := ⟨.evt, 0x4, 0x0, 0x0, 0, 1⟩
def EVT_STAT_CLEARING : F := ⟨.evt, 0x4, 0x0, 0x0, 1, 1⟩
def EVT_STAT_PFULL : F := ⟨.evt, 0x4, 0x0, 0x0, 2, 1⟩
def EVT_STAT_WIGN : F := ⟨.evt, 0x4, 0x0, 0x0, 31, 1⟩
def EVT_OPSEC_LO : F := ⟨.evt, 0x10, 0x0, 0x0, 0, 32⟩
def EVT_OPSEC_LO_SEC : F := ⟨.evt, 0x10, 0x0, 0x0, 0, 32⟩
def EVT_OPSEC_HI : F := ⟨.evt, 0x14, 0x0, 0x0, 0, 32⟩
def EVT_OPSEC_HI_SEC : F := ⟨.evt, 0x14, 0x0, 0x0, 0, 8⟩
def EVT_PCYCLE : F := ⟨.evt, 0x18, 0x0, 0x0, 0, 32⟩
def EVT_PCYCLE_COUNT : F := ⟨.evt, 0x18, 0x0, 0x0, 0, 32⟩
def EVT_PFILL : F := ⟨.evt, 0x1c, 0x0, 0x0, 0, 32⟩
def EVT_PFILL_SLOTS : F := ⟨.evt, 0x1c, 0x0, 0x0, 0, 15⟩
def EVT_WPTR : F := ⟨.evt, 0x20, 0x0, 0x0, 0, 32⟩
def EVT_WPTR_SLOT : F := ⟨.evt, 0x20, 0x0, 0x0, 0, 17⟩
def EVT_LOST : F := ⟨.evt, 0x2c, 0x0, 0x0, 0, 32⟩
def EVT_LOST_COUNT : F := ⟨.evt, 0x2c, 0x0, 0x0, 0, 32⟩
def EVT_QUEUE : F := ⟨.evt, 0x30, 0x0, 0x0, 0, 32⟩
def EVT_QUEUE_DEPTH : F := ⟨.evt, 0x30, 0x0, 0x0, 0, 9⟩
def EVT_TOTAL_LO : F := ⟨.evt, 0x24, 0x0, 0x0, 0, 32⟩
def EVT_TOTAL_LO_COUNT : F := ⟨.evt, 0x24, 0x0, 0x0, 0, 32⟩
def EVT_TOTAL_HI : F := ⟨.evt, 0x28, 0x0, 0x0, 0, 32⟩
def EVT_TOTAL_HI_COUNT : F := ⟨.evt, 0x28, 0x0, 0x0, 0, 32⟩
def DISP_CTRL : F := ⟨.disp, 0x0, 0x0, 0x0, 0, 32⟩
def DISP_CTRL_EN : F := ⟨.disp, 0x0, 0x0, 0x0, 0, 1⟩
def DISP_STAT : F := ⟨.disp, 0x4, 0x0, 0x0, 0, 32⟩
def DISP_STAT_SPILL0 : F := ⟨.disp, 0x4, 0x0, 0x0, 0, 1⟩
def DISP_STAT_SPILL1 : F := ⟨.disp, 0x4, 0x0, 0x0, 1, 1⟩
def DISP_STAT_DROP : F := ⟨.disp, 0x4, 0x0, 0x0, 2, 1⟩
def DISP_STAT_LATE : F := ⟨.disp, 0x4, 0x0, 0x0, 3, 1⟩
def DISP_STAT_WIGN : F := ⟨.disp, 0x4, 0x0, 0x0, 31, 1⟩
def DISP_LVL_CFG : F := ⟨.disp, 0x100, 0x80, 0x4, 0, 32⟩
def DISP_LVL_CFG_QUOTA : F := ⟨.disp, 0x100, 0x80, 0x4, 0, 14⟩
def DISP_LVL_CFG_RINGLOG : F := ⟨.disp, 0x100, 0x80, 0x4, 16, 5⟩
def DISP_LVL_CFG_CLASS : F := ⟨.disp, 0x100, 0x80, 0x4, 24, 3⟩
def DISP_LVL_OCC : F := ⟨.disp, 0x200, 0x80, 0x4, 0, 32⟩
def DISP_LVL_OCC_ONCHIP : F := ⟨.disp, 0x200, 0x80, 0x4, 0, 14⟩
def DISP_LVL_SPILL : F := ⟨.disp, 0x300, 0x80, 0x4, 0, 32⟩
def DISP_LVL_SPILL_RING : F := ⟨.disp, 0x300, 0x80, 0x4, 0, 25⟩
def DISP_LVL_DROP : F := ⟨.disp, 0x400, 0x80, 0x4, 0, 32⟩
def DISP_LVL_DROP_COUNT : F := ⟨.disp, 0x400, 0x80, 0x4, 0, 32⟩
def DISP_LOST : F := ⟨.disp, 0x500, 0x0, 0x0, 0, 32⟩
def DISP_LOST_COUNT : F := ⟨.disp, 0x500, 0x0, 0x0, 0, 32⟩
def DISP_FSEL : F := ⟨.disp, 0x600, 0x0, 0x0, 0, 32⟩
def DISP_FSEL_FLOW : F := ⟨.disp, 0x600, 0x0, 0x0, 0, 12⟩
def DISP_FSEL_DIE : F := ⟨.disp, 0x600, 0x0, 0x0, 12, 1⟩
def DISP_FSTAT : F := ⟨.disp, 0x604, 0x0, 0x0, 0, 32⟩
def DISP_FSTAT_LEVEL : F := ⟨.disp, 0x604, 0x0, 0x0, 0, 4⟩
def DISP_FSTAT_INSERV : F := ⟨.disp, 0x604, 0x0, 0x0, 4, 1⟩
def DISP_FSTAT_DEPTH : F := ⟨.disp, 0x604, 0x0, 0x0, 8, 24⟩
def DISP_FLATE : F := ⟨.disp, 0x608, 0x0, 0x0, 0, 32⟩
def DISP_FLATE_LATE : F := ⟨.disp, 0x608, 0x0, 0x0, 0, 16⟩
def DISP_FLATE_CLUSTER : F := ⟨.disp, 0x608, 0x0, 0x0, 16, 5⟩
def DUPX_CTRL : F := ⟨.dupx, 0x0, 0x0, 0x0, 0, 32⟩
def DUPX_CTRL_EN : F := ⟨.dupx, 0x0, 0x0, 0x0, 0, 1⟩
def DUPX_STAT : F := ⟨.dupx, 0x4, 0x0, 0x0, 0, 32⟩
def DUPX_STAT_SIDECONF : F := ⟨.dupx, 0x4, 0x0, 0x0, 0, 1⟩
def DUPX_STAT_COPYLAG : F := ⟨.dupx, 0x4, 0x0, 0x0, 1, 1⟩
def DUPX_STAT_HOGAP : F := ⟨.dupx, 0x4, 0x0, 0x0, 2, 1⟩
def DUPX_STAT_SPLIT : F := ⟨.dupx, 0x4, 0x0, 0x0, 3, 1⟩
def DUPX_STAT_FENCED : F := ⟨.dupx, 0x4, 0x0, 0x0, 4, 1⟩
def DUPX_STAT_WIGN : F := ⟨.dupx, 0x4, 0x0, 0x0, 31, 1⟩
def DUPX_CFG : F := ⟨.dupx, 0x10, 0x0, 0x0, 0, 32⟩
def DUPX_CFG_SIDE : F := ⟨.dupx, 0x10, 0x0, 0x0, 0, 1⟩
def DUPX_CFG_MISS_N : F := ⟨.dupx, 0x10, 0x0, 0x0, 1, 4⟩
def DUPX_CFG_HO_LEAD : F := ⟨.dupx, 0x10, 0x0, 0x0, 5, 10⟩
def DUPX_CFG_PAIR_WAIT : F := ⟨.dupx, 0x10, 0x0, 0x0, 15, 10⟩
def DUPX_STATE : F := ⟨.dupx, 0x14, 0x0, 0x0, 0, 32⟩
def DUPX_STATE_STATE : F := ⟨.dupx, 0x14, 0x0, 0x0, 0, 4⟩
def DUPX_STATE_PEER : F := ⟨.dupx, 0x14, 0x0, 0x0, 4, 4⟩
def DUPX_STATE_WELT_UP : F := ⟨.dupx, 0x14, 0x0, 0x0, 8, 1⟩
def DUPX_STATE_MISS_W : F := ⟨.dupx, 0x14, 0x0, 0x0, 9, 1⟩
def DUPX_STATE_MISS_H : F := ⟨.dupx, 0x14, 0x0, 0x0, 10, 1⟩
def DUPX_STATE_CAUSE : F := ⟨.dupx, 0x14, 0x0, 0x0, 11, 3⟩
def DUPX_CLAIM : F := ⟨.dupx, 0x18, 0x0, 0x0, 0, 32⟩
def DUPX_CLAIM_CLAIM : F := ⟨.dupx, 0x18, 0x0, 0x0, 0, 32⟩
def DUPX_HCLAIM : F := ⟨.dupx, 0x1c, 0x0, 0x0, 0, 32⟩
def DUPX_HCLAIM_HCLAIM : F := ⟨.dupx, 0x1c, 0x0, 0x0, 0, 32⟩
def DUPX_PEER_CLAIM : F := ⟨.dupx, 0x20, 0x0, 0x0, 0, 32⟩
def DUPX_PEER_CLAIM_CLAIM : F := ⟨.dupx, 0x20, 0x0, 0x0, 0, 32⟩
def DUPX_CNT : F := ⟨.dupx, 0x24, 0x0, 0x0, 0, 32⟩
def DUPX_CNT_TAKEOVERS : F := ⟨.dupx, 0x24, 0x0, 0x0, 0, 8⟩
def DUPX_CNT_HANDOVERS : F := ⟨.dupx, 0x24, 0x0, 0x0, 8, 8⟩
def DUPX_CNT_FENCES : F := ⟨.dupx, 0x24, 0x0, 0x0, 16, 8⟩
def DUPX_CNT_VETOES : F := ⟨.dupx, 0x24, 0x0, 0x0, 24, 8⟩
def DUPX_MISSCNT : F := ⟨.dupx, 0x28, 0x0, 0x0, 0, 32⟩
def DUPX_MISSCNT_WELT : F := ⟨.dupx, 0x28, 0x0, 0x0, 0, 16⟩
def DUPX_MISSCNT_HB : F := ⟨.dupx, 0x28, 0x0, 0x0, 16, 16⟩
def DUPX_COPY : F := ⟨.dupx, 0x2c, 0x0, 0x0, 0, 32⟩
def DUPX_COPY_LAST : F := ⟨.dupx, 0x2c, 0x0, 0x0, 0, 16⟩
def DUPX_COPY_MAX : F := ⟨.dupx, 0x2c, 0x0, 0x0, 16, 16⟩
def DUPX_LINK : F := ⟨.dupx, 0x30, 0x0, 0x0, 0, 32⟩
def DUPX_LINK_LANES : F := ⟨.dupx, 0x30, 0x0, 0x0, 0, 4⟩
def DUPX_LINK_RESEND : F := ⟨.dupx, 0x30, 0x0, 0x0, 16, 16⟩
def DUPX_TD_LO : F := ⟨.dupx, 0x34, 0x0, 0x0, 0, 32⟩
def DUPX_TD_LO_NS : F := ⟨.dupx, 0x34, 0x0, 0x0, 0, 32⟩
def DUPX_TD_HI : F := ⟨.dupx, 0x38, 0x0, 0x0, 0, 32⟩
def DUPX_TD_HI_NS : F := ⟨.dupx, 0x38, 0x0, 0x0, 0, 32⟩
def SAFE_CTRL : F := ⟨.safe, 0x0, 0x0, 0x0, 0, 32⟩
def SAFE_CTRL_EN : F := ⟨.safe, 0x0, 0x0, 0x0, 0, 1⟩
def SAFE_STAT : F := ⟨.safe, 0x4, 0x0, 0x0, 0, 32⟩
def SAFE_STAT_LINK : F := ⟨.safe, 0x4, 0x0, 0x0, 0, 1⟩
def SAFE_STAT_CONFIRMED : F := ⟨.safe, 0x4, 0x0, 0x0, 1, 1⟩
def SAFE_STAT_EVLOST : F := ⟨.safe, 0x4, 0x0, 0x0, 2, 1⟩
def SAFE_STAT_WIGN : F := ⟨.safe, 0x4, 0x0, 0x0, 31, 1⟩
def SAFE_STATE : F := ⟨.safe, 0x10, 0x0, 0x0, 0, 32⟩
def SAFE_STATE_STATE : F := ⟨.safe, 0x10, 0x0, 0x0, 0, 3⟩
def SAFE_STATE_FAULT : F := ⟨.safe, 0x10, 0x0, 0x0, 8, 4⟩
def SAFE_STATE_LASTFAULT : F := ⟨.safe, 0x10, 0x0, 0x0, 12, 4⟩
def SAFE_SIN : F := ⟨.safe, 0x20, 0x0, 0x0, 0, 32⟩
def SAFE_SIN_HEALTHY : F := ⟨.safe, 0x20, 0x0, 0x0, 0, 16⟩
def SAFE_SIN_FAULT : F := ⟨.safe, 0x20, 0x0, 0x0, 16, 16⟩
def SAFE_SOUT : F := ⟨.safe, 0x28, 0x0, 0x0, 0, 32⟩
def SAFE_SOUT_ON : F := ⟨.safe, 0x28, 0x0, 0x0, 0, 8⟩
def SAFE_SOUT_RBA : F := ⟨.safe, 0x28, 0x0, 0x0, 8, 8⟩
def SAFE_SOUT_RBB : F := ⟨.safe, 0x28, 0x0, 0x0, 16, 8⟩
def SAFE_SOUT_FAULT : F := ⟨.safe, 0x28, 0x0, 0x0, 24, 8⟩
def SAFE_REQ : F := ⟨.safe, 0x30, 0x0, 0x0, 0, 32⟩
def SAFE_REQ_FUNC : F := ⟨.safe, 0x30, 0x0, 0x0, 0, 5⟩
def SAFE_REQ_KIND : F := ⟨.safe, 0x30, 0x0, 0x0, 5, 3⟩
def SAFE_REQ_MCODE : F := ⟨.safe, 0x30, 0x0, 0x0, 8, 8⟩
def SAFE_REQ_SEQ : F := ⟨.safe, 0x30, 0x0, 0x0, 16, 8⟩
def SAFE_REQ_STAT : F := ⟨.safe, 0x34, 0x0, 0x0, 0, 32⟩
def SAFE_REQ_STAT_SEQ : F := ⟨.safe, 0x34, 0x0, 0x0, 0, 8⟩
def SAFE_REQ_STAT_RESULT : F := ⟨.safe, 0x34, 0x0, 0x0, 8, 2⟩
def SAFE_REQ_STAT_WHY : F := ⟨.safe, 0x34, 0x0, 0x0, 10, 3⟩
def SAFE_PCMD : F := ⟨.safe, 0x38, 0x0, 0x0, 0, 32⟩
def SAFE_PCMD_STORE : F := ⟨.safe, 0x38, 0x0, 0x0, 0, 1⟩
def SAFE_PCMD_CLEAR : F := ⟨.safe, 0x38, 0x0, 0x0, 1, 1⟩
def SAFE_PCMD_PSTAT : F := ⟨.safe, 0x38, 0x0, 0x0, 8, 3⟩
def SAFE_CHECK : F := ⟨.safe, 0x14, 0x0, 0x0, 0, 32⟩
def SAFE_CHECK_CHECK : F := ⟨.safe, 0x14, 0x0, 0x0, 0, 32⟩
def SAFE_PSET_LO : F := ⟨.safe, 0x18, 0x0, 0x0, 0, 32⟩
def SAFE_PSET_LO_ID : F := ⟨.safe, 0x18, 0x0, 0x0, 0, 32⟩
def SAFE_PSET_HI : F := ⟨.safe, 0x1c, 0x0, 0x0, 0, 32⟩
def SAFE_PSET_HI_ID : F := ⟨.safe, 0x1c, 0x0, 0x0, 0, 32⟩
def SAFE_SINRAW : F := ⟨.safe, 0x24, 0x0, 0x0, 0, 32⟩
def SAFE_SINRAW_A : F := ⟨.safe, 0x24, 0x0, 0x0, 0, 16⟩
def SAFE_SINRAW_B : F := ⟨.safe, 0x24, 0x0, 0x0, 16, 16⟩
def SAFE_FUNCSUM : F := ⟨.safe, 0x2c, 0x0, 0x0, 0, 32⟩
def SAFE_FUNCSUM_IDLE : F := ⟨.safe, 0x2c, 0x0, 0x0, 0, 32⟩
def SAFE_LREQi : F := ⟨.safe, 0x40, 0x4, 0x0, 0, 32⟩
def SAFE_LREQi_FUNC : F := ⟨.safe, 0x40, 0x4, 0x0, 0, 5⟩
def SAFE_LREQi_KIND : F := ⟨.safe, 0x40, 0x4, 0x0, 5, 3⟩
def SAFE_LREQi_MCODE : F := ⟨.safe, 0x40, 0x4, 0x0, 8, 8⟩
def SAFE_LREQi_SEQ : F := ⟨.safe, 0x40, 0x4, 0x0, 16, 8⟩
def SAFE_FUNCf : F := ⟨.safe, 0x80, 0x4, 0x0, 0, 32⟩
def SAFE_FUNCf_KIND : F := ⟨.safe, 0x80, 0x4, 0x0, 0, 3⟩
def SAFE_FUNCf_STATE : F := ⟨.safe, 0x80, 0x4, 0x0, 3, 2⟩
def SAFE_FUNCf_UNLOCKED : F := ⟨.safe, 0x80, 0x4, 0x0, 5, 1⟩
def SAFE_FUNCf_MUTED : F := ⟨.safe, 0x80, 0x4, 0x0, 6, 1⟩
def SAFE_FUNCf_OVERRIDE : F := ⟨.safe, 0x80, 0x4, 0x0, 7, 1⟩
def SAFE_FUNCf_SS1_LEFT : F := ⟨.safe, 0x80, 0x4, 0x0, 8, 16⟩
def SAFE_PBUF : F := ⟨.safe, 0x1000, 0x4, 0x0, 0, 32⟩
def SAFE_PBUF_WORD : F := ⟨.safe, 0x1000, 0x4, 0x0, 0, 32⟩
def ACQ_CTRL : F := ⟨.acq, 0x0, 0x0, 0x0, 0, 32⟩
def ACQ_CTRL_EN : F := ⟨.acq, 0x0, 0x0, 0x0, 0, 1⟩
def ACQ_STAT : F := ⟨.acq, 0x4, 0x0, 0x0, 0, 32⟩
def ACQ_STAT_HISTGAP : F := ⟨.acq, 0x4, 0x0, 0x0, 0, 1⟩
def ACQ_STAT_WIGN : F := ⟨.acq, 0x4, 0x0, 0x0, 31, 1⟩
def ACQ_DEVIDX : F := ⟨.acq, 0x10, 0x0, 0x0, 0, 32⟩
def ACQ_DEVIDX_IDX : F := ⟨.acq, 0x10, 0x0, 0x0, 0, 6⟩
def ACQ_SHED : F := ⟨.acq, 0x14, 0x0, 0x0, 0, 32⟩
def ACQ_SHED_DMIN : F := ⟨.acq, 0x14, 0x0, 0x0, 0, 4⟩
def ACQ_HIST_STAT : F := ⟨.acq, 0x18, 0x0, 0x0, 0, 32⟩
def ACQ_HIST_STAT_LAG : F := ⟨.acq, 0x18, 0x0, 0x0, 0, 16⟩
def ACQ_HIST_STAT_GAPS : F := ⟨.acq, 0x18, 0x0, 0x0, 16, 16⟩
def ACQ_FRZ_CMD : F := ⟨.acq, 0x20, 0x0, 0x0, 0, 32⟩
def ACQ_FRZ_CMD_FREEZE : F := ⟨.acq, 0x20, 0x0, 0x0, 0, 1⟩
def ACQ_FRZ_STAT : F := ⟨.acq, 0x24, 0x0, 0x0, 0, 32⟩
def ACQ_FRZ_STAT_BUSY : F := ⟨.acq, 0x24, 0x0, 0x0, 0, 1⟩
def ACQ_FRZ_STAT_QUEUED : F := ⟨.acq, 0x24, 0x0, 0x0, 1, 3⟩
def ACQ_FRZ_STAT_FULL : F := ⟨.acq, 0x24, 0x0, 0x0, 4, 1⟩
def ACQ_FRZ_STAT_SLOT : F := ⟨.acq, 0x24, 0x0, 0x0, 5, 6⟩
def ACQ_FRZ_STAT_REFUSED : F := ⟨.acq, 0x24, 0x0, 0x0, 16, 16⟩
def ETH_CTRL : F := ⟨.eth, 0x0, 0x0, 0x0, 0, 32⟩
def ETH_CTRL_EN : F := ⟨.eth, 0x0, 0x0, 0x0, 0, 1⟩
def ETH_STAT : F := ⟨.eth, 0x4, 0x0, 0x0, 0, 32⟩
def ETH_STAT_LINK : F := ⟨.eth, 0x4, 0x0, 0x0, 0, 1⟩
def ETH_STAT_MODABS : F := ⟨.eth, 0x4, 0x0, 0x0, 1, 1⟩
def ETH_STAT_TXFAULT : F := ⟨.eth, 0x4, 0x0, 0x0, 2, 1⟩
def ETH_STAT_LINKCHG : F := ⟨.eth, 0x4, 0x0, 0x0, 3, 1⟩
def ETH_STAT_WIGN : F := ⟨.eth, 0x4, 0x0, 0x0, 31, 1⟩
def ETH_CFG : F := ⟨.eth, 0x10, 0x0, 0x0, 0, 32⟩
def ETH_CFG_SPEED : F := ⟨.eth, 0x10, 0x0, 0x0, 0, 1⟩
def ETH_CFG_AN : F := ⟨.eth, 0x10, 0x0, 0x0, 1, 1⟩
def ETH_CFG_PAUSE : F := ⟨.eth, 0x10, 0x0, 0x0, 2, 1⟩
def ETH_MTU : F := ⟨.eth, 0x14, 0x0, 0x0, 0, 32⟩
def ETH_MTU_MTU : F := ⟨.eth, 0x14, 0x0, 0x0, 0, 14⟩
def ETH_PCPMAP : F := ⟨.eth, 0x18, 0x0, 0x0, 0, 32⟩
def ETH_PCPMAP_MAP : F := ⟨.eth, 0x18, 0x0, 0x0, 0, 24⟩
def ETH_PRP_CFG : F := ⟨.eth, 0x20, 0x0, 0x0, 0, 32⟩
def ETH_PRP_CFG_PAIRMODE : F := ⟨.eth, 0x20, 0x0, 0x0, 0, 1⟩
def ETH_PRP_STAT : F := ⟨.eth, 0x24, 0x0, 0x0, 0, 32⟩
def ETH_PRP_STAT_PATHA_LOST : F := ⟨.eth, 0x24, 0x0, 0x0, 0, 1⟩
def ETH_PRP_STAT_PATHB_LOST : F := ⟨.eth, 0x24, 0x0, 0x0, 1, 1⟩
def ETH_PRP_STAT_SOURCES : F := ⟨.eth, 0x24, 0x0, 0x0, 2, 10⟩
def ETH_PTP_PORT : F := ⟨.eth, 0x28, 0x0, 0x0, 0, 32⟩
def ETH_PTP_PORT_EN : F := ⟨.eth, 0x28, 0x0, 0x0, 0, 1⟩
def ETH_PTP_PORT_STATE : F := ⟨.eth, 0x28, 0x0, 0x0, 1, 3⟩
def ETH_CNT_RXOK : F := ⟨.eth, 0x40, 0x0, 0x0, 0, 32⟩
def ETH_CNT_RXOK_COUNT : F := ⟨.eth, 0x40, 0x0, 0x0, 0, 32⟩
def ETH_CNT_RXERR : F := ⟨.eth, 0x44, 0x0, 0x0, 0, 32⟩
def ETH_CNT_RXERR_COUNT : F := ⟨.eth, 0x44, 0x0, 0x0, 0, 32⟩
def ETH_CNT_TXOK : F := ⟨.eth, 0x48, 0x0, 0x0, 0, 32⟩
def ETH_CNT_TXOK_COUNT : F := ⟨.eth, 0x48, 0x0, 0x0, 0, 32⟩
def ETH_CNT_TXERR : F := ⟨.eth, 0x4c, 0x0, 0x0, 0, 32⟩
def ETH_CNT_TXERR_COUNT : F := ⟨.eth, 0x4c, 0x0, 0x0, 0, 32⟩
def ETH_CNT_GATEHOLD : F := ⟨.eth, 0x50, 0x0, 0x0, 0, 32⟩
def ETH_CNT_GATEHOLD_COUNT : F := ⟨.eth, 0x50, 0x0, 0x0, 0, 32⟩
def ETH_CNT_TXREPL : F := ⟨.eth, 0x54, 0x0, 0x0, 0, 32⟩
def ETH_CNT_TXREPL_COUNT : F := ⟨.eth, 0x54, 0x0, 0x0, 0, 32⟩
def ETH_PRP_CNT_DUP : F := ⟨.eth, 0x58, 0x0, 0x0, 0, 32⟩
def ETH_PRP_CNT_DUP_COUNT : F := ⟨.eth, 0x58, 0x0, 0x0, 0, 32⟩
def ETH_PRP_CNT_WRONGLAN : F := ⟨.eth, 0x5c, 0x0, 0x0, 0, 32⟩
def ETH_PRP_CNT_WRONGLAN_COUNT : F := ⟨.eth, 0x5c, 0x0, 0x0, 0, 32⟩
def ETH_PRP_CNT_NOTRACK : F := ⟨.eth, 0x60, 0x0, 0x0, 0, 32⟩
def ETH_PRP_CNT_NOTRACK_COUNT : F := ⟨.eth, 0x60, 0x0, 0x0, 0, 32⟩
def ETH_ING_LAT : F := ⟨.eth, 0x80, 0x0, 0x0, 0, 32⟩
def ETH_ING_LAT_ING_LAT : F := ⟨.eth, 0x80, 0x0, 0x0, 0, 32⟩
def ETH_EGR_LAT : F := ⟨.eth, 0x84, 0x0, 0x0, 0, 32⟩
def ETH_EGR_LAT_EGR_LAT : F := ⟨.eth, 0x84, 0x0, 0x0, 0, 32⟩
def ETH_ASYM : F := ⟨.eth, 0x88, 0x0, 0x0, 0, 32⟩
def ETH_ASYM_ASYM : F := ⟨.eth, 0x88, 0x0, 0x0, 0, 32⟩
def ETH_GCL_CTL : F := ⟨.eth, 0x100, 0x0, 0x0, 0, 32⟩
def ETH_GCL_CTL_EN : F := ⟨.eth, 0x100, 0x0, 0x0, 0, 1⟩
def ETH_GCL_CTL_NADMIN : F := ⟨.eth, 0x100, 0x0, 0x0, 1, 6⟩
def ETH_GCL_CTL_SWAP : F := ⟨.eth, 0x100, 0x0, 0x0, 7, 1⟩
def ETH_GCL_CTL_PENDING : F := ⟨.eth, 0x100, 0x0, 0x0, 8, 1⟩
def ETH_GCL_CTL_REFUSED : F := ⟨.eth, 0x100, 0x0, 0x0, 9, 1⟩
def ETH_GCL_CTL_NOPER : F := ⟨.eth, 0x100, 0x0, 0x0, 10, 6⟩
def ETH_GCL_CYC : F := ⟨.eth, 0x104, 0x0, 0x0, 0, 32⟩
def ETH_GCL_CYC_CYC : F := ⟨.eth, 0x104, 0x0, 0x0, 0, 27⟩
def ETH_GCL_PHASE : F := ⟨.eth, 0x108, 0x0, 0x0, 0, 32⟩
def ETH_GCL_PHASE_PHASE : F := ⟨.eth, 0x108, 0x0, 0x0, 0, 27⟩
def ETH_GCL_CHG_LO : F := ⟨.eth, 0x110, 0x0, 0x0, 0, 32⟩
def ETH_GCL_CHG_LO_CHG : F := ⟨.eth, 0x110, 0x0, 0x0, 0, 32⟩
def ETH_GCL_CHG_HI : F := ⟨.eth, 0x114, 0x0, 0x0, 0, 32⟩
def ETH_GCL_CHG_HI_CHG : F := ⟨.eth, 0x114, 0x0, 0x0, 0, 32⟩
def ETH_GCL_ADMIN : F := ⟨.eth, 0x400, 0x4, 0x0, 0, 32⟩
def ETH_GCL_ADMIN_MASK : F := ⟨.eth, 0x400, 0x4, 0x0, 0, 8⟩
def ETH_GCL_ADMIN_INTV : F := ⟨.eth, 0x400, 0x4, 0x0, 8, 24⟩
def ETH_GCL_OPER : F := ⟨.eth, 0x600, 0x4, 0x0, 0, 32⟩
def ETH_GCL_OPER_MASK : F := ⟨.eth, 0x600, 0x4, 0x0, 0, 8⟩
def ETH_GCL_OPER_INTV : F := ⟨.eth, 0x600, 0x4, 0x0, 8, 24⟩
def ETH_CNT_FENCE : F := ⟨.eth, 0x64, 0x0, 0x0, 0, 32⟩
def ETH_CNT_FENCE_COUNT : F := ⟨.eth, 0x64, 0x0, 0x0, 0, 32⟩
def HOL_CTRL : F := ⟨.hol, 0x0, 0x0, 0x0, 0, 32⟩
def HOL_CTRL_EN : F := ⟨.hol, 0x0, 0x0, 0x0, 0, 1⟩
def HOL_STAT : F := ⟨.hol, 0x4, 0x0, 0x0, 0, 32⟩
def HOL_STAT_LONE : F := ⟨.hol, 0x4, 0x0, 0x0, 0, 1⟩
def HOL_STAT_CONFLICT : F := ⟨.hol, 0x4, 0x0, 0x0, 1, 1⟩
def HOL_STAT_FENCED : F := ⟨.hol, 0x4, 0x0, 0x0, 2, 1⟩
def HOL_STAT_CHF_A : F := ⟨.hol, 0x4, 0x0, 0x0, 3, 1⟩
def HOL_STAT_CHF_B : F := ⟨.hol, 0x4, 0x0, 0x0, 4, 1⟩
def HOL_STAT_DEG_A : F := ⟨.hol, 0x4, 0x0, 0x0, 5, 1⟩
def HOL_STAT_DEG_B : F := ⟨.hol, 0x4, 0x0, 0x0, 6, 1⟩
def HOL_STAT_SILENT : F := ⟨.hol, 0x4, 0x0, 0x0, 7, 1⟩
def HOL_STAT_SYNCED : F := ⟨.hol, 0x4, 0x0, 0x0, 8, 1⟩
def HOL_STAT_TXFULL : F := ⟨.hol, 0x4, 0x0, 0x0, 9, 1⟩
def HOL_STAT_RXOVF : F := ⟨.hol, 0x4, 0x0, 0x0, 10, 1⟩
def HOL_STAT_WIGN : F := ⟨.hol, 0x4, 0x0, 0x0, 31, 1⟩
def HOL_CFG : F := ⟨.hol, 0x10, 0x0, 0x0, 0, 32⟩
def HOL_CFG_MODE : F := ⟨.hol, 0x10, 0x0, 0x0, 0, 1⟩
def HOL_CFG_ROLE : F := ⟨.hol, 0x10, 0x0, 0x0, 1, 2⟩
def HOL_CFG_RATE : F := ⟨.hol, 0x10, 0x0, 0x0, 3, 1⟩
def HOL_CFG_NODE : F := ⟨.hol, 0x10, 0x0, 0x0, 4, 5⟩
def HOL_CFG_DLYMODE : F := ⟨.hol, 0x10, 0x0, 0x0, 9, 1⟩
def HOL_CFG_CHEN : F := ⟨.hol, 0x10, 0x0, 0x0, 10, 2⟩
def HOL_CFG_NBC : F := ⟨.hol, 0x10, 0x0, 0x0, 12, 6⟩
def HOL_CFG_ABS_N : F := ⟨.hol, 0x10, 0x0, 0x0, 18, 4⟩
def HOL_CFG_CHF_N : F := ⟨.hol, 0x10, 0x0, 0x0, 22, 4⟩
def HOL_TIMING : F := ⟨.hol, 0x1c, 0x0, 0x0, 0, 32⟩
def HOL_TIMING_GUARD : F := ⟨.hol, 0x1c, 0x0, 0x0, 0, 12⟩
def HOL_TIMING_DMAX : F := ⟨.hol, 0x1c, 0x0, 0x0, 12, 8⟩
def HOL_TIMING_TTA : F := ⟨.hol, 0x1c, 0x0, 0x0, 20, 12⟩
def HOL_STATE : F := ⟨.hol, 0x20, 0x0, 0x0, 0, 32⟩
def HOL_STATE_STATE : F := ⟨.hol, 0x20, 0x0, 0x0, 0, 4⟩
def HOL_STATE_BC : F := ⟨.hol, 0x20, 0x0, 0x0, 4, 6⟩
def HOL_STATE_SCHED : F := ⟨.hol, 0x20, 0x0, 0x0, 16, 16⟩
def HOL_CMD : F := ⟨.hol, 0x24, 0x0, 0x0, 0, 32⟩
def HOL_CMD_RESTART : F := ⟨.hol, 0x24, 0x0, 0x0, 0, 1⟩
def HOL_CMD_RESTORE : F := ⟨.hol, 0x24, 0x0, 0x0, 1, 1⟩
def HOL_CMD_CLRCNT : F := ⟨.hol, 0x24, 0x0, 0x0, 2, 1⟩
def HOL_CYC : F := ⟨.hol, 0x14, 0x0, 0x0, 0, 32⟩
def HOL_CYC_M : F := ⟨.hol, 0x14, 0x0, 0x0, 0, 14⟩
def HOL_PHASE : F := ⟨.hol, 0x18, 0x0, 0x0, 0, 32⟩
def HOL_PHASE_PHASE : F := ⟨.hol, 0x18, 0x0, 0x0, 0, 24⟩
def HOL_CLAIM : F := ⟨.hol, 0x28, 0x0, 0x0, 0, 32⟩
def HOL_CLAIM_V : F := ⟨.hol, 0x28, 0x0, 0x0, 0, 32⟩
def HOL_HCLAIM : F := ⟨.hol, 0x2c, 0x0, 0x0, 0, 32⟩
def HOL_HCLAIM_V : F := ⟨.hol, 0x2c, 0x0, 0x0, 0, 32⟩
def HOL_PRESENT : F := ⟨.hol, 0x30, 0x0, 0x0, 0, 32⟩
def HOL_PRESENT_V : F := ⟨.hol, 0x30, 0x0, 0x0, 0, 32⟩
def HOL_ABSENT : F := ⟨.hol, 0x34, 0x0, 0x0, 0, 32⟩
def HOL_ABSENT_V : F := ⟨.hol, 0x34, 0x0, 0x0, 0, 32⟩
def HOL_OFFSET : F := ⟨.hol, 0x38, 0x0, 0x0, 0, 32⟩
def HOL_OFFSET_V : F := ⟨.hol, 0x38, 0x0, 0x0, 0, 32⟩
def HOL_LDLY : F := ⟨.hol, 0x3c, 0x0, 0x0, 0, 32⟩
def HOL_LDLY_DELAY : F := ⟨.hol, 0x3c, 0x0, 0x0, 0, 32⟩
def HOL_CNT_EARLY : F := ⟨.hol, 0x40, 0x0, 0x0, 0, 32⟩
def HOL_CNT_EARLY_COUNT : F := ⟨.hol, 0x40, 0x0, 0x0, 0, 32⟩
def HOL_CNT_LATE : F := ⟨.hol, 0x44, 0x0, 0x0, 0, 32⟩
def HOL_CNT_LATE_COUNT : F := ⟨.hol, 0x44, 0x0, 0x0, 0, 32⟩
def HOL_CNT_CRC : F := ⟨.hol, 0x48, 0x0, 0x0, 0, 32⟩
def HOL_CNT_CRC_COUNT : F := ⟨.hol, 0x48, 0x0, 0x0, 0, 32⟩
def HOL_CNT_NULLTX : F := ⟨.hol, 0x4c, 0x0, 0x0, 0, 32⟩
def HOL_CNT_NULLTX_COUNT : F := ⟨.hol, 0x4c, 0x0, 0x0, 0, 32⟩
def HOL_CNT_FENCE : F := ⟨.hol, 0x50, 0x0, 0x0, 0, 32⟩
def HOL_CNT_FENCE_COUNT : F := ⟨.hol, 0x50, 0x0, 0x0, 0, 32⟩
def HOL_CNT_COLL : F := ⟨.hol, 0x54, 0x0, 0x0, 0, 32⟩
def HOL_CNT_COLL_COUNT : F := ⟨.hol, 0x54, 0x0, 0x0, 0, 32⟩
def HOL_CNT_SILENCED : F := ⟨.hol, 0x58, 0x0, 0x0, 0, 32⟩
def HOL_CNT_SILENCED_COUNT : F := ⟨.hol, 0x58, 0x0, 0x0, 0, 32⟩
def HOL_CNT_MISSED : F := ⟨.hol, 0x5c, 0x0, 0x0, 0, 32⟩
def HOL_CNT_MISSED_COUNT : F := ⟨.hol, 0x5c, 0x0, 0x0, 0, 32⟩
def HOL_ING_LAT : F := ⟨.hol, 0x80, 0x0, 0x0, 0, 32⟩
def HOL_ING_LAT_ING_LAT : F := ⟨.hol, 0x80, 0x0, 0x0, 0, 32⟩
def HOL_EGR_LAT : F := ⟨.hol, 0x84, 0x0, 0x0, 0, 32⟩
def HOL_EGR_LAT_EGR_LAT : F := ⟨.hol, 0x84, 0x0, 0x0, 0, 32⟩
def HOL_ASYM : F := ⟨.hol, 0x88, 0x0, 0x0, 0, 32⟩
def HOL_ASYM_ASYM : F := ⟨.hol, 0x88, 0x0, 0x0, 0, 32⟩
def HOL_NODE_DLY : F := ⟨.hol, 0x100, 0x4, 0x0, 0, 32⟩
def HOL_NODE_DLY_DELAY : F := ⟨.hol, 0x100, 0x4, 0x0, 0, 32⟩
def HOL_ARBQ_STAT : F := ⟨.hol, 0x200, 0x0, 0x0, 0, 32⟩
def HOL_ARBQ_STAT_RXN : F := ⟨.hol, 0x200, 0x0, 0x0, 0, 6⟩
def HOL_ARBQ_STAT_TXN : F := ⟨.hol, 0x200, 0x0, 0x0, 8, 5⟩
def HOL_ARBQ_CTL : F := ⟨.hol, 0x204, 0x0, 0x0, 0, 32⟩
def HOL_ARBQ_CTL_POP : F := ⟨.hol, 0x204, 0x0, 0x0, 0, 1⟩
def HOL_ARBQ_CTL_SEND : F := ⟨.hol, 0x204, 0x0, 0x0, 1, 1⟩
def HOL_ARBQ_HEAD : F := ⟨.hol, 0x400, 0x4, 0x0, 0, 32⟩
def HOL_ARBQ_HEAD_WORD : F := ⟨.hol, 0x400, 0x4, 0x0, 0, 32⟩
def HOL_ARBQ_TX : F := ⟨.hol, 0x600, 0x4, 0x0, 0, 32⟩
def HOL_ARBQ_TX_WORD : F := ⟨.hol, 0x600, 0x4, 0x0, 0, 32⟩
def CAN_CTRL : F := ⟨.can, 0x0, 0x0, 0x0, 0, 32⟩
def CAN_CTRL_EN : F := ⟨.can, 0x0, 0x0, 0x0, 0, 1⟩
def CAN_STAT : F := ⟨.can, 0x4, 0x0, 0x0, 0, 32⟩
def CAN_STAT_LONE : F := ⟨.can, 0x4, 0x0, 0x0, 0, 1⟩
def CAN_STAT_SILENT : F := ⟨.can, 0x4, 0x0, 0x0, 1, 1⟩
def CAN_STAT_RXOVF0 : F := ⟨.can, 0x4, 0x0, 0x0, 2, 1⟩
def CAN_STAT_RXOVF1 : F := ⟨.can, 0x4, 0x0, 0x0, 3, 1⟩
def CAN_STAT_PEX : F := ⟨.can, 0x4, 0x0, 0x0, 4, 1⟩
def CAN_STAT_WIGN : F := ⟨.can, 0x4, 0x0, 0x0, 31, 1⟩
def CAN_CFG : F := ⟨.can, 0x10, 0x0, 0x0, 0, 32⟩
def CAN_CFG_ROLE : F := ⟨.can, 0x10, 0x0, 0x0, 0, 2⟩
def CAN_CFG_FDEN : F := ⟨.can, 0x10, 0x0, 0x0, 2, 1⟩
def CAN_CFG_AUTOREC : F := ⟨.can, 0x10, 0x0, 0x0, 3, 1⟩
def CAN_CFG_MON : F := ⟨.can, 0x10, 0x0, 0x0, 4, 1⟩
def CAN_CFG_RESTR : F := ⟨.can, 0x10, 0x0, 0x0, 5, 1⟩
def CAN_CFG_PXHD : F := ⟨.can, 0x10, 0x0, 0x0, 6, 1⟩
def CAN_CFG_OVWR0 : F := ⟨.can, 0x10, 0x0, 0x0, 7, 1⟩
def CAN_CFG_OVWR1 : F := ⟨.can, 0x10, 0x0, 0x0, 8, 1⟩
def CAN_CFG_NOMATCH : F := ⟨.can, 0x10, 0x0, 0x0, 9, 2⟩
def CAN_NBT : F := ⟨.can, 0x14, 0x0, 0x0, 0, 32⟩
def CAN_NBT_BRP : F := ⟨.can, 0x14, 0x0, 0x0, 0, 8⟩
def CAN_NBT_TSEG1 : F := ⟨.can, 0x14, 0x0, 0x0, 8, 8⟩
def CAN_NBT_TSEG2 : F := ⟨.can, 0x14, 0x0, 0x0, 16, 7⟩
def CAN_NBT_SJW : F := ⟨.can, 0x14, 0x0, 0x0, 23, 7⟩
def CAN_DBT : F := ⟨.can, 0x18, 0x0, 0x0, 0, 32⟩
def CAN_DBT_DBRP : F := ⟨.can, 0x18, 0x0, 0x0, 0, 5⟩
def CAN_DBT_DTSEG1 : F := ⟨.can, 0x18, 0x0, 0x0, 5, 5⟩
def CAN_DBT_DTSEG2 : F := ⟨.can, 0x18, 0x0, 0x0, 10, 4⟩
def CAN_DBT_DSJW : F := ⟨.can, 0x18, 0x0, 0x0, 14, 4⟩
def CAN_DBT_TDC : F := ⟨.can, 0x18, 0x0, 0x0, 18, 1⟩
def CAN_DBT_TDCO : F := ⟨.can, 0x18, 0x0, 0x0, 19, 7⟩
def CAN_ERR : F := ⟨.can, 0x1c, 0x0, 0x0, 0, 32⟩
def CAN_ERR_TEC : F := ⟨.can, 0x1c, 0x0, 0x0, 0, 8⟩
def CAN_ERR_REC : F := ⟨.can, 0x1c, 0x0, 0x0, 8, 7⟩
def CAN_ERR_RP : F := ⟨.can, 0x1c, 0x0, 0x0, 15, 1⟩
def CAN_ERR_FCS : F := ⟨.can, 0x1c, 0x0, 0x0, 16, 2⟩
def CAN_ERR_LEC : F := ⟨.can, 0x1c, 0x0, 0x0, 18, 3⟩
def CAN_TT_TIMING : F := ⟨.can, 0x2c, 0x0, 0x0, 0, 32⟩
def CAN_TT_TIMING_GUARD : F := ⟨.can, 0x2c, 0x0, 0x0, 0, 12⟩
def CAN_TT_TIMING_REFID : F := ⟨.can, 0x2c, 0x0, 0x0, 12, 11⟩
def CAN_TT_TIMING_PRIO : F := ⟨.can, 0x2c, 0x0, 0x0, 23, 3⟩
def CAN_TT_STATE : F := ⟨.can, 0x30, 0x0, 0x0, 0, 32⟩
def CAN_TT_STATE_STATE : F := ⟨.can, 0x30, 0x0, 0x0, 0, 3⟩
def CAN_TT_STATE_BC : F := ⟨.can, 0x30, 0x0, 0x0, 3, 6⟩
def CAN_TT_STATE_MPRIO : F := ⟨.can, 0x30, 0x0, 0x0, 9, 3⟩
def CAN_CMD : F := ⟨.can, 0x20, 0x0, 0x0, 0, 32⟩
def CAN_CMD_RECOVER : F := ⟨.can, 0x20, 0x0, 0x0, 0, 1⟩
def CAN_CMD_CLRCNT : F := ⟨.can, 0x20, 0x0, 0x0, 1, 1⟩
def CAN_TT_CYC : F := ⟨.can, 0x24, 0x0, 0x0, 0, 32⟩
def CAN_TT_CYC_M : F := ⟨.can, 0x24, 0x0, 0x0, 0, 14⟩
def CAN_TT_CYC_NBC : F := ⟨.can, 0x24, 0x0, 0x0, 14, 6⟩
def CAN_TT_PHASE : F := ⟨.can, 0x28, 0x0, 0x0, 0, 32⟩
def CAN_TT_PHASE_PHASE : F := ⟨.can, 0x28, 0x0, 0x0, 0, 24⟩
def CAN_TT_OFFSET : F := ⟨.can, 0x34, 0x0, 0x0, 0, 32⟩
def CAN_TT_OFFSET_OFFSET : F := ⟨.can, 0x34, 0x0, 0x0, 0, 32⟩
def CAN_TSCNT : F := ⟨.can, 0x38, 0x0, 0x0, 0, 32⟩
def CAN_TSCNT_COUNT : F := ⟨.can, 0x38, 0x0, 0x0, 0, 32⟩
def CAN_TSCAP_CTL : F := ⟨.can, 0x3c, 0x0, 0x0, 0, 32⟩
def CAN_TSCAP_CTL_CAP : F := ⟨.can, 0x3c, 0x0, 0x0, 0, 1⟩
def CAN_TSCAP_CTL_DONE : F := ⟨.can, 0x3c, 0x0, 0x0, 1, 1⟩
def CAN_TSCAP_CNT : F := ⟨.can, 0x40, 0x0, 0x0, 0, 32⟩
def CAN_TSCAP_CNT_V : F := ⟨.can, 0x40, 0x0, 0x0, 0, 32⟩
def CAN_TSCAP_NS_LO : F := ⟨.can, 0x44, 0x0, 0x0, 0, 32⟩
def CAN_TSCAP_NS_LO_V : F := ⟨.can, 0x44, 0x0, 0x0, 0, 32⟩
def CAN_TSCAP_NS_HI : F := ⟨.can, 0x48, 0x0, 0x0, 0, 32⟩
def CAN_TSCAP_NS_HI_V : F := ⟨.can, 0x48, 0x0, 0x0, 0, 32⟩
def CAN_TSCAP_FRAC : F := ⟨.can, 0x4c, 0x0, 0x0, 0, 32⟩
def CAN_TSCAP_FRAC_V : F := ⟨.can, 0x4c, 0x0, 0x0, 0, 32⟩
def CAN_CNT_EARLY : F := ⟨.can, 0x50, 0x0, 0x0, 0, 32⟩
def CAN_CNT_EARLY_COUNT : F := ⟨.can, 0x50, 0x0, 0x0, 0, 32⟩
def CAN_CNT_LATE : F := ⟨.can, 0x54, 0x0, 0x0, 0, 32⟩
def CAN_CNT_LATE_COUNT : F := ⟨.can, 0x54, 0x0, 0x0, 0, 32⟩
def CAN_CNT_RXREJ : F := ⟨.can, 0x58, 0x0, 0x0, 0, 32⟩
def CAN_CNT_RXREJ_COUNT : F := ⟨.can, 0x58, 0x0, 0x0, 0, 32⟩
def CAN_CNT_TXMISS : F := ⟨.can, 0x5c, 0x0, 0x0, 0, 32⟩
def CAN_CNT_TXMISS_COUNT : F := ⟨.can, 0x5c, 0x0, 0x0, 0, 32⟩
def CAN_CNT_LOST0 : F := ⟨.can, 0x60, 0x0, 0x0, 0, 32⟩
def CAN_CNT_LOST0_COUNT : F := ⟨.can, 0x60, 0x0, 0x0, 0, 32⟩
def CAN_CNT_LOST1 : F := ⟨.can, 0x64, 0x0, 0x0, 0, 32⟩
def CAN_CNT_LOST1_COUNT : F := ⟨.can, 0x64, 0x0, 0x0, 0, 32⟩
def CAN_RXQ_STAT : F := ⟨.can, 0x80, 0x4, 0x0, 0, 32⟩
def CAN_RXQ_STAT_HELD : F := ⟨.can, 0x80, 0x4, 0x0, 0, 7⟩
def CAN_RXQ_CTL : F := ⟨.can, 0x88, 0x0, 0x0, 0, 32⟩
def CAN_RXQ_CTL_POP0 : F := ⟨.can, 0x88, 0x0, 0x0, 0, 1⟩
def CAN_RXQ_CTL_POP1 : F := ⟨.can, 0x88, 0x0, 0x0, 1, 1⟩
def CAN_RXQ_HEAD : F := ⟨.can, 0x100, 0x80, 0x4, 0, 32⟩
def CAN_RXQ_HEAD_WORD : F := ⟨.can, 0x100, 0x80, 0x4, 0, 32⟩
def CAN_TXB_CTL : F := ⟨.can, 0x1000, 0x60, 0x0, 0, 32⟩
def CAN_TXB_CTL_PEND : F := ⟨.can, 0x1000, 0x60, 0x0, 0, 1⟩
def CAN_TXB_CTL_REQ : F := ⟨.can, 0x1000, 0x60, 0x0, 1, 1⟩
def CAN_TXB_CTL_CANCEL : F := ⟨.can, 0x1000, 0x60, 0x0, 2, 1⟩
def CAN_TXB_CTL_TXOK : F := ⟨.can, 0x1000, 0x60, 0x0, 3, 1⟩
def CAN_TXB_CTL_CANCEL_LATE : F := ⟨.can, 0x1000, 0x60, 0x0, 4, 1⟩
def CAN_TXB_CTL_CANCELLED : F := ⟨.can, 0x1000, 0x60, 0x0, 5, 1⟩
def CAN_TXB_CTL_KIND : F := ⟨.can, 0x1000, 0x60, 0x0, 6, 2⟩
def CAN_TXB_CTL_CAD : F := ⟨.can, 0x1000, 0x60, 0x0, 8, 3⟩
def CAN_TXB_CTL_REPEAT : F := ⟨.can, 0x1000, 0x60, 0x0, 11, 1⟩
def CAN_TXB_CTL_HACT : F := ⟨.can, 0x1000, 0x60, 0x0, 12, 1⟩
def CAN_TXB_ID : F := ⟨.can, 0x1004, 0x60, 0x0, 0, 32⟩
def CAN_TXB_ID_ID : F := ⟨.can, 0x1004, 0x60, 0x0, 0, 32⟩
def CAN_TXB_DLC : F := ⟨.can, 0x1008, 0x60, 0x0, 0, 32⟩
def CAN_TXB_DLC_DLC : F := ⟨.can, 0x1008, 0x60, 0x0, 0, 8⟩
def CAN_TXB_DATA : F := ⟨.can, 0x1010, 0x60, 0x4, 0, 32⟩
def CAN_TXB_DATA_DATA : F := ⟨.can, 0x1010, 0x60, 0x4, 0, 32⟩
def CAN_RXB_CTL : F := ⟨.can, 0x2800, 0x60, 0x0, 0, 32⟩
def CAN_RXB_CTL_ND : F := ⟨.can, 0x2800, 0x60, 0x0, 0, 1⟩
def CAN_RXB_CTL_OVW : F := ⟨.can, 0x2800, 0x60, 0x0, 1, 1⟩
def CAN_RXB_CTL_CAD : F := ⟨.can, 0x2800, 0x60, 0x0, 2, 3⟩
def CAN_RXB_CTL_AGE : F := ⟨.can, 0x2800, 0x60, 0x0, 8, 8⟩
def CAN_RXB_CTL_AGE_MAX : F := ⟨.can, 0x2800, 0x60, 0x0, 16, 4⟩
def CAN_RXB_STAMP : F := ⟨.can, 0x2804, 0x60, 0x0, 0, 32⟩
def CAN_RXB_STAMP_STAMP : F := ⟨.can, 0x2804, 0x60, 0x0, 0, 32⟩
def CAN_RXB_ID : F := ⟨.can, 0x2808, 0x60, 0x0, 0, 32⟩
def CAN_RXB_ID_ID : F := ⟨.can, 0x2808, 0x60, 0x0, 0, 32⟩
def CAN_RXB_DLC : F := ⟨.can, 0x280c, 0x60, 0x0, 0, 32⟩
def CAN_RXB_DLC_DLC : F := ⟨.can, 0x280c, 0x60, 0x0, 0, 8⟩
def CAN_RXB_DATA : F := ⟨.can, 0x2810, 0x60, 0x4, 0, 32⟩
def CAN_RXB_DATA_DATA : F := ⟨.can, 0x2810, 0x60, 0x4, 0, 32⟩
def CAN_FLT_ID : F := ⟨.can, 0x4000, 0x10, 0x0, 0, 32⟩
def CAN_FLT_ID_ID : F := ⟨.can, 0x4000, 0x10, 0x0, 0, 29⟩
def CAN_FLT_ID_IDE : F := ⟨.can, 0x4000, 0x10, 0x0, 29, 1⟩
def CAN_FLT_ID_ACTION : F := ⟨.can, 0x4000, 0x10, 0x0, 30, 2⟩
def CAN_FLT_MASK : F := ⟨.can, 0x4004, 0x10, 0x0, 0, 32⟩
def CAN_FLT_MASK_MASK : F := ⟨.can, 0x4004, 0x10, 0x0, 0, 29⟩
def CAN_FLT_CFG : F := ⟨.can, 0x4008, 0x10, 0x0, 0, 32⟩
def CAN_FLT_CFG_BUF : F := ⟨.can, 0x4008, 0x10, 0x0, 0, 6⟩
def CAN_FLT_CFG_FMT : F := ⟨.can, 0x4008, 0x10, 0x0, 6, 2⟩
def ADC_CTRL : F := ⟨.adc, 0x0, 0x0, 0x0, 0, 32⟩
def ADC_CTRL_EN : F := ⟨.adc, 0x0, 0x0, 0x0, 0, 1⟩
def ADC_STAT : F := ⟨.adc, 0x4, 0x0, 0x0, 0, 32⟩
def ADC_STAT_OVR : F := ⟨.adc, 0x4, 0x0, 0x0, 0, 1⟩
def ADC_STAT_WIGN : F := ⟨.adc, 0x4, 0x0, 0x0, 31, 1⟩
def ADC_BANK_CFG : F := ⟨.adc, 0x10, 0x0, 0x0, 0, 32⟩
def ADC_BANK_CFG_LP : F := ⟨.adc, 0x10, 0x0, 0x0, 0, 1⟩
def ADC_BANK_CFG_AUTOCAL : F := ⟨.adc, 0x10, 0x0, 0x0, 1, 2⟩
def ADC_BANK_CFG_CAL_PERIOD : F := ⟨.adc, 0x10, 0x0, 0x0, 8, 8⟩
def ADC_CHK_CFG : F := ⟨.adc, 0x14, 0x0, 0x0, 0, 32⟩
def ADC_CHK_CFG_CHK_TOL : F := ⟨.adc, 0x14, 0x0, 0x0, 0, 24⟩
def ADC_CHK_CFG_CHKWIN : F := ⟨.adc, 0x14, 0x0, 0x0, 24, 4⟩
def ADC_CAL_CMD : F := ⟨.adc, 0x18, 0x0, 0x0, 0, 32⟩
def ADC_CAL_CMD_BANKCAL : F := ⟨.adc, 0x18, 0x0, 0x0, 0, 1⟩
def ADC_CAL_CMD_ROLL : F := ⟨.adc, 0x18, 0x0, 0x0, 1, 1⟩
def ADC_CAL_CMD_STOPROLL : F := ⟨.adc, 0x18, 0x0, 0x0, 2, 1⟩
def ADC_CAL_STAT : F := ⟨.adc, 0x1c, 0x0, 0x0, 0, 32⟩
def ADC_CAL_STAT_STATE : F := ⟨.adc, 0x1c, 0x0, 0x0, 0, 2⟩
def ADC_CAL_STAT_CH : F := ⟨.adc, 0x1c, 0x0, 0x0, 2, 5⟩
def ADC_CAL_STAT_BUSY : F := ⟨.adc, 0x1c, 0x0, 0x0, 7, 1⟩
def ADC_CAL_STAT_CALFAIL : F := ⟨.adc, 0x1c, 0x0, 0x0, 8, 16⟩
def ADC_CAL_STAT_CHKFAIL : F := ⟨.adc, 0x1c, 0x0, 0x0, 24, 1⟩
def ADC_CHK_STAT : F := ⟨.adc, 0x20, 0x0, 0x0, 0, 32⟩
def ADC_CHK_STAT_VISIT : F := ⟨.adc, 0x20, 0x0, 0x0, 0, 5⟩
def ADC_CHK_STAT_SUBST : F := ⟨.adc, 0x20, 0x0, 0x0, 5, 1⟩
def ADC_CHK_STAT_MISMATCH : F := ⟨.adc, 0x20, 0x0, 0x0, 16, 16⟩
def ADC_MAINS : F := ⟨.adc, 0x24, 0x0, 0x0, 0, 32⟩
def ADC_MAINS_MLOCK : F := ⟨.adc, 0x24, 0x0, 0x0, 0, 1⟩
def ADC_MAINS_MLOST : F := ⟨.adc, 0x24, 0x0, 0x0, 1, 1⟩
def ADC_MAINS_PERIOD : F := ⟨.adc, 0x24, 0x0, 0x0, 8, 24⟩
def ADC_PAIRp : F := ⟨.adc, 0x40, 0x4, 0x0, 0, 32⟩
def ADC_PAIRp_CHA : F := ⟨.adc, 0x40, 0x4, 0x0, 0, 4⟩
def ADC_PAIRp_CHB : F := ⟨.adc, 0x40, 0x4, 0x0, 4, 4⟩
def ADC_PAIRp_EN : F := ⟨.adc, 0x40, 0x4, 0x0, 8, 1⟩
def ADC_PAIRp_PAIR_TOL : F := ⟨.adc, 0x40, 0x4, 0x0, 12, 20⟩
def ADC_CHn_CTL : F := ⟨.adc, 0x100, 0x20, 0x0, 0, 32⟩
def ADC_CHn_CTL_EN : F := ⟨.adc, 0x100, 0x20, 0x0, 0, 1⟩
def ADC_CHn_CTL_RANGE : F := ⟨.adc, 0x100, 0x20, 0x0, 1, 2⟩
def ADC_CHn_CTL_MODE : F := ⟨.adc, 0x100, 0x20, 0x0, 3, 2⟩
def ADC_CHn_CTL_ALIGN : F := ⟨.adc, 0x100, 0x20, 0x0, 5, 3⟩
def ADC_CHn_CTL_AVG : F := ⟨.adc, 0x100, 0x20, 0x0, 8, 2⟩
def ADC_CHn_CTL_NMAINS : F := ⟨.adc, 0x100, 0x20, 0x0, 10, 2⟩
def ADC_CHn_CTL_PAIRED : F := ⟨.adc, 0x100, 0x20, 0x0, 12, 1⟩
def ADC_CHn_WLEN : F := ⟨.adc, 0x104, 0x20, 0x0, 0, 32⟩
def ADC_CHn_WLEN_WLEN : F := ⟨.adc, 0x104, 0x20, 0x0, 0, 22⟩
def ADC_CHn_STAT : F := ⟨.adc, 0x108, 0x20, 0x0, 0, 32⟩
def ADC_CHn_STAT_VALID : F := ⟨.adc, 0x108, 0x20, 0x0, 0, 1⟩
def ADC_CHn_STAT_OVR : F := ⟨.adc, 0x108, 0x20, 0x0, 1, 1⟩
def ADC_CHn_STAT_STALE : F := ⟨.adc, 0x108, 0x20, 0x0, 2, 1⟩
def ADC_CHn_STAT_CHKMM : F := ⟨.adc, 0x108, 0x20, 0x0, 3, 1⟩
def ADC_CHn_STAT_NOCAL : F := ⟨.adc, 0x108, 0x20, 0x0, 4, 1⟩
def ADC_CHn_STAT_SUBST : F := ⟨.adc, 0x108, 0x20, 0x0, 5, 1⟩
def ADC_CHn_STAT_REFUSED : F := ⟨.adc, 0x108, 0x20, 0x0, 6, 1⟩
def ADC_CHn_STAT_TRIG_MISS : F := ⟨.adc, 0x108, 0x20, 0x0, 7, 1⟩
def ADC_CHn_STAT_SETTLE : F := ⟨.adc, 0x108, 0x20, 0x0, 8, 4⟩
def ADC_CHn_LAST : F := ⟨.adc, 0x10c, 0x20, 0x0, 0, 32⟩
def ADC_CHn_LAST_WORD : F := ⟨.adc, 0x10c, 0x20, 0x0, 0, 32⟩
def ADC_CHn_WCNT : F := ⟨.adc, 0x110, 0x20, 0x0, 0, 32⟩
def ADC_CHn_WCNT_COUNT : F := ⟨.adc, 0x110, 0x20, 0x0, 0, 32⟩
def ADC_CAL_OFF : F := ⟨.adc, 0x800, 0x40, 0x10, 0, 32⟩
def ADC_CAL_OFF_OFF : F := ⟨.adc, 0x800, 0x40, 0x10, 0, 24⟩
def ADC_CAL_GAIN : F := ⟨.adc, 0x804, 0x40, 0x10, 0, 32⟩
def ADC_CAL_GAIN_G : F := ⟨.adc, 0x804, 0x40, 0x10, 0, 24⟩
def ADC_CAL_REC : F := ⟨.adc, 0x808, 0x40, 0x10, 0, 32⟩
def ADC_CAL_REC_VALID : F := ⟨.adc, 0x808, 0x40, 0x10, 0, 1⟩
def ADC_CAL_REC_FAIL : F := ⟨.adc, 0x808, 0x40, 0x10, 1, 1⟩
def ADC_CAL_REC_TJ : F := ⟨.adc, 0x808, 0x40, 0x10, 2, 10⟩
def ADC_CAL_REC_PA : F := ⟨.adc, 0x808, 0x40, 0x10, 16, 16⟩
def AOUT_CTRL : F := ⟨.aout, 0x0, 0x0, 0x0, 0, 32⟩
def AOUT_CTRL_EN : F := ⟨.aout, 0x0, 0x0, 0x0, 0, 1⟩
def AOUT_STAT : F := ⟨.aout, 0x4, 0x0, 0x0, 0, 32⟩
def AOUT_STAT_REJ : F := ⟨.aout, 0x4, 0x0, 0x0, 0, 1⟩
def AOUT_STAT_WIGN : F := ⟨.aout, 0x4, 0x0, 0x0, 31, 1⟩
def AOUT_CHn_CFG : F := ⟨.aout, 0x100, 0x10, 0x0, 0, 32⟩
def AOUT_CHn_CFG_RANGE : F := ⟨.aout, 0x100, 0x10, 0x0, 0, 2⟩
def AOUT_CHn_CFG_SAFEZ : F := ⟨.aout, 0x100, 0x10, 0x0, 2, 1⟩
def AOUT_CHn_CFG_SAFE : F := ⟨.aout, 0x100, 0x10, 0x0, 12, 20⟩
def AOUT_CHn_SET : F := ⟨.aout, 0x104, 0x10, 0x0, 0, 32⟩
def AOUT_CHn_SET_SET : F := ⟨.aout, 0x104, 0x10, 0x0, 0, 32⟩
def AOUT_CHn_CODE : F := ⟨.aout, 0x108, 0x10, 0x0, 0, 32⟩
def AOUT_CHn_CODE_CODE : F := ⟨.aout, 0x108, 0x10, 0x0, 0, 20⟩
def AOUT_CHn_STAT : F := ⟨.aout, 0x10c, 0x10, 0x0, 0, 32⟩
def AOUT_CHn_STAT_SAT : F := ⟨.aout, 0x10c, 0x10, 0x0, 0, 1⟩
def AOUT_CHn_STAT_OVLD : F := ⟨.aout, 0x10c, 0x10, 0x0, 1, 1⟩
def AOUT_CHn_STAT_OPEN : F := ⟨.aout, 0x10c, 0x10, 0x0, 2, 1⟩
def AOUT_CHn_STAT_DISC : F := ⟨.aout, 0x10c, 0x10, 0x0, 3, 1⟩
def DIO_SGn_CFG : F := ⟨.dio, 0x3000, 0x10, 0x0, 0, 32⟩
def DIO_SGn_CFG_STEP : F := ⟨.dio, 0x3000, 0x10, 0x0, 0, 8⟩
def DIO_SGn_CFG_DIR : F := ⟨.dio, 0x3000, 0x10, 0x0, 8, 8⟩
def DIO_SGn_CFG_TPW : F := ⟨.dio, 0x3000, 0x10, 0x0, 16, 8⟩
def DIO_SGn_CFG_TDIR : F := ⟨.dio, 0x3000, 0x10, 0x0, 24, 8⟩
def DIO_SGn_STAT : F := ⟨.dio, 0x3004, 0x10, 0x0, 0, 32⟩
def DIO_SGn_STAT_ACTIVE : F := ⟨.dio, 0x3004, 0x10, 0x0, 0, 1⟩
def DIO_SGn_STAT_STEPLAG : F := ⟨.dio, 0x3004, 0x10, 0x0, 1, 1⟩
def DIO_SGn_STAT_BACKLOG : F := ⟨.dio, 0x3004, 0x10, 0x0, 16, 16⟩
def DIO_SGn_POS : F := ⟨.dio, 0x3008, 0x10, 0x0, 0, 32⟩
def DIO_SGn_POS_STEPS : F := ⟨.dio, 0x3008, 0x10, 0x0, 0, 32⟩
def DIO_CTRL : F := ⟨.dio, 0x0, 0x0, 0x0, 0, 32⟩
def DIO_CTRL_EN : F := ⟨.dio, 0x0, 0x0, 0x0, 0, 1⟩
def DIO_STAT : F := ⟨.dio, 0x4, 0x0, 0x0, 0, 32⟩
def DIO_STAT_REJ : F := ⟨.dio, 0x4, 0x0, 0x0, 0, 1⟩
def DIO_STAT_WIGN : F := ⟨.dio, 0x4, 0x0, 0x0, 31, 1⟩
def DIO_EDGECLK : F := ⟨.dio, 0x10, 0x0, 0x0, 0, 32⟩
def DIO_EDGECLK_SPREAD : F := ⟨.dio, 0x10, 0x0, 0x0, 0, 1⟩
def DIO_BANKb_CFG : F := ⟨.dio, 0x80, 0x4, 0x0, 0, 32⟩
def DIO_BANKb_CFG_VSEL : F := ⟨.dio, 0x80, 0x4, 0x0, 0, 2⟩
def DIO_PINn_CFG : F := ⟨.dio, 0x100, 0x4, 0x0, 0, 32⟩
def DIO_PINn_CFG_DIRM : F := ⟨.dio, 0x100, 0x4, 0x0, 0, 2⟩
def DIO_PINn_CFG_INV : F := ⟨.dio, 0x100, 0x4, 0x0, 2, 1⟩
def DIO_PINn_CFG_PULL : F := ⟨.dio, 0x100, 0x4, 0x0, 3, 1⟩
def DIO_PINn_CFG_EDGE : F := ⟨.dio, 0x100, 0x4, 0x0, 4, 2⟩
def DIO_PINn_CFG_FM : F := ⟨.dio, 0x100, 0x4, 0x0, 6, 4⟩
def DIO_PINn_CFG_FE : F := ⟨.dio, 0x100, 0x4, 0x0, 10, 3⟩
def DIO_PINn_CFG_POL : F := ⟨.dio, 0x100, 0x4, 0x0, 13, 1⟩
def DIO_PINn_CFG_CNT : F := ⟨.dio, 0x100, 0x4, 0x0, 14, 2⟩
def DIO_PINn_CFG_EVT : F := ⟨.dio, 0x100, 0x4, 0x0, 16, 1⟩
def DIO_PINn_CFG_SAFE : F := ⟨.dio, 0x100, 0x4, 0x0, 17, 2⟩
def DIO_PINn_CFG_CHAT_LIM : F := ⟨.dio, 0x100, 0x4, 0x0, 19, 8⟩
def DIO_PINn_CFG_FILT_OFF : F := ⟨.dio, 0x100, 0x4, 0x0, 27, 1⟩
def DIO_CNTn : F := ⟨.dio, 0x400, 0x4, 0x0, 0, 32⟩
def DIO_CNTn_COUNT : F := ⟨.dio, 0x400, 0x4, 0x0, 0, 32⟩
def DIO_INg : F := ⟨.dio, 0x800, 0x4, 0x0, 0, 32⟩
def DIO_INg_LEVELS : F := ⟨.dio, 0x800, 0x4, 0x0, 0, 32⟩
def DIO_OUTg : F := ⟨.dio, 0x820, 0x4, 0x0, 0, 32⟩
def DIO_OUTg_LATCH : F := ⟨.dio, 0x820, 0x4, 0x0, 0, 32⟩
def DIO_CHATg : F := ⟨.dio, 0x840, 0x4, 0x0, 0, 32⟩
def DIO_CHATg_CHAT : F := ⟨.dio, 0x840, 0x4, 0x0, 0, 32⟩
def CHOP_CTRL : F := ⟨.chop, 0x0, 0x0, 0x0, 0, 32⟩
def CHOP_CTRL_EN : F := ⟨.chop, 0x0, 0x0, 0x0, 0, 1⟩
def CHOP_STAT : F := ⟨.chop, 0x4, 0x0, 0x0, 0, 32⟩
def CHOP_STAT_WIGN : F := ⟨.chop, 0x4, 0x0, 0x0, 31, 1⟩
def CHOP_CH_CFG : F := ⟨.chop, 0x100, 0x20, 0x0, 0, 32⟩
def CHOP_CH_CFG_TOFF : F := ⟨.chop, 0x100, 0x20, 0x0, 0, 5⟩
def CHOP_CH_CFG_TBLANK : F := ⟨.chop, 0x100, 0x20, 0x0, 5, 2⟩
def CHOP_CH_CFG_FD : F := ⟨.chop, 0x100, 0x20, 0x0, 7, 3⟩
def CHOP_CH_CFG_MRES : F := ⟨.chop, 0x100, 0x20, 0x0, 10, 4⟩
def CHOP_CH_CFG_SPREAD : F := ⟨.chop, 0x100, 0x20, 0x0, 14, 1⟩
def CHOP_CH_CFG_SAFEOFF : F := ⟨.chop, 0x100, 0x20, 0x0, 15, 1⟩
def CHOP_CH_CFG_VREF : F := ⟨.chop, 0x100, 0x20, 0x0, 16, 2⟩
def CHOP_CH_CUR : F := ⟨.chop, 0x104, 0x20, 0x0, 0, 32⟩
def CHOP_CH_CUR_RUN : F := ⟨.chop, 0x104, 0x20, 0x0, 0, 8⟩
def CHOP_CH_CUR_HOLD : F := ⟨.chop, 0x104, 0x20, 0x0, 8, 8⟩
def CHOP_CH_CUR_HDELAY : F := ⟨.chop, 0x104, 0x20, 0x0, 16, 16⟩
def CHOP_CH_STAT : F := ⟨.chop, 0x108, 0x20, 0x0, 0, 32⟩
def CHOP_CH_STAT_IDX : F := ⟨.chop, 0x108, 0x20, 0x0, 0, 10⟩
def CHOP_CH_STAT_OPEN_A : F := ⟨.chop, 0x108, 0x20, 0x0, 10, 1⟩
def CHOP_CH_STAT_OPEN_B : F := ⟨.chop, 0x108, 0x20, 0x0, 11, 1⟩
def CHOP_CH_STAT_SHORT_A : F := ⟨.chop, 0x108, 0x20, 0x0, 12, 1⟩
def CHOP_CH_STAT_SHORT_B : F := ⟨.chop, 0x108, 0x20, 0x0, 13, 1⟩
def CHOP_CH_STAT_LAG : F := ⟨.chop, 0x108, 0x20, 0x0, 14, 1⟩
def CHOP_CH_STAT_DAC_A : F := ⟨.chop, 0x108, 0x20, 0x0, 16, 8⟩
def CHOP_CH_STAT_DAC_B : F := ⟨.chop, 0x108, 0x20, 0x0, 24, 8⟩
def PWM_CTRL : F := ⟨.pwm, 0x0, 0x0, 0x0, 0, 32⟩
def PWM_CTRL_EN : F := ⟨.pwm, 0x0, 0x0, 0x0, 0, 1⟩
def PWM_STAT : F := ⟨.pwm, 0x4, 0x0, 0x0, 0, 32⟩
def PWM_STAT_REJ : F := ⟨.pwm, 0x4, 0x0, 0x0, 0, 1⟩
def PWM_STAT_WIGN : F := ⟨.pwm, 0x4, 0x0, 0x0, 31, 1⟩
def PWM_CHn_CFG : F := ⟨.pwm, 0x100, 0x10, 0x0, 0, 32⟩
def PWM_CHn_CFG_PIN : F := ⟨.pwm, 0x100, 0x10, 0x0, 0, 8⟩
def PWM_CHn_CFG_EN : F := ⟨.pwm, 0x100, 0x10, 0x0, 8, 1⟩
def PWM_CHn_CFG_ALIGN : F := ⟨.pwm, 0x100, 0x10, 0x0, 9, 1⟩
def PWM_CHn_CFG_SYNC : F := ⟨.pwm, 0x100, 0x10, 0x0, 10, 1⟩
def PWM_CHn_CFG_CAD : F := ⟨.pwm, 0x100, 0x10, 0x0, 11, 3⟩
def PWM_CHn_CFG_SPREAD : F := ⟨.pwm, 0x100, 0x10, 0x0, 14, 1⟩
def PWM_CHn_CFG_SAFELOW : F := ⟨.pwm, 0x100, 0x10, 0x0, 15, 1⟩
def PWM_CHn_PER : F := ⟨.pwm, 0x104, 0x10, 0x0, 0, 32⟩
def PWM_CHn_PER_PER : F := ⟨.pwm, 0x104, 0x10, 0x0, 0, 24⟩
def PWM_CHn_SET : F := ⟨.pwm, 0x108, 0x10, 0x0, 0, 32⟩
def PWM_CHn_SET_SET : F := ⟨.pwm, 0x108, 0x10, 0x0, 0, 32⟩
def PWM_CHn_STAT : F := ⟨.pwm, 0x10c, 0x10, 0x0, 0, 32⟩
def PWM_CHn_STAT_H : F := ⟨.pwm, 0x10c, 0x10, 0x0, 0, 24⟩
def UNIT_CTRL : F := ⟨.unit, 0x0, 0x0, 0x0, 0, 32⟩
def UNIT_CTRL_EN : F := ⟨.unit, 0x0, 0x0, 0x0, 0, 1⟩
def UNIT_CTRL_CLRSTAT : F := ⟨.unit, 0x0, 0x0, 0x0, 1, 1⟩
def UNIT_STAT : F := ⟨.unit, 0x4, 0x0, 0x0, 0, 32⟩
def UNIT_STAT_RUN : F := ⟨.unit, 0x4, 0x0, 0x0, 0, 2⟩
def UNIT_STAT_HOLDM : F := ⟨.unit, 0x4, 0x0, 0x0, 2, 1⟩
def UNIT_STAT_SAT : F := ⟨.unit, 0x4, 0x0, 0x0, 3, 1⟩
def UNIT_STAT_OVR : F := ⟨.unit, 0x4, 0x0, 0x0, 4, 1⟩
def UNIT_STAT_TILE_ERR : F := ⟨.unit, 0x4, 0x0, 0x0, 5, 1⟩
def UNIT_STAT_REMAP : F := ⟨.unit, 0x4, 0x0, 0x0, 6, 1⟩
def UNIT_STAT_LATE : F := ⟨.unit, 0x4, 0x0, 0x0, 7, 1⟩
def UNIT_STAT_WIGN : F := ⟨.unit, 0x4, 0x0, 0x0, 31, 1⟩
def UNIT_CFG : F := ⟨.unit, 0x10, 0x0, 0x0, 0, 32⟩
def UNIT_CFG_KIND : F := ⟨.unit, 0x10, 0x0, 0x0, 0, 3⟩
def UNIT_CFG_EVENT : F := ⟨.unit, 0x10, 0x0, 0x0, 4, 1⟩
def UNIT_CFG_CAD : F := ⟨.unit, 0x10, 0x0, 0x0, 8, 3⟩
def UNIT_CFG_ORDER : F := ⟨.unit, 0x10, 0x0, 0x0, 16, 4⟩
def UNIT_SLACK_LAST : F := ⟨.unit, 0x20, 0x0, 0x0, 0, 32⟩
def UNIT_SLACK_LAST_SLACK : F := ⟨.unit, 0x20, 0x0, 0x0, 0, 32⟩
def UNIT_SLACK_MIN : F := ⟨.unit, 0x24, 0x0, 0x0, 0, 32⟩
def UNIT_SLACK_MIN_SLACK : F := ⟨.unit, 0x24, 0x0, 0x0, 0, 32⟩
def UNIT_OVR_CNT : F := ⟨.unit, 0x28, 0x0, 0x0, 0, 32⟩
def UNIT_OVR_CNT_TOTAL : F := ⟨.unit, 0x28, 0x0, 0x0, 0, 24⟩
def UNIT_OVR_CNT_CONSEC : F := ⟨.unit, 0x28, 0x0, 0x0, 24, 2⟩
def UNIT_TILE_ERR : F := ⟨.unit, 0x2c, 0x0, 0x0, 0, 32⟩
def UNIT_TILE_ERR_LIDX : F := ⟨.unit, 0x2c, 0x0, 0x0, 0, 5⟩
def UNIT_TILE_ERR_PTILE : F := ⟨.unit, 0x2c, 0x0, 0x0, 5, 9⟩
def UNIT_TILE_ERR_COUNT : F := ⟨.unit, 0x2c, 0x0, 0x0, 16, 8⟩
def UNIT_LP_INFO : F := ⟨.unit, 0x100, 0x0, 0x0, 0, 32⟩
def UNIT_LP_INFO_NLOOPS : F := ⟨.unit, 0x100, 0x0, 0x0, 0, 7⟩
def UNIT_LP_INFO_REQTILE : F := ⟨.unit, 0x100, 0x0, 0x0, 8, 5⟩
def UNIT_LP_INFO_NSTATE : F := ⟨.unit, 0x100, 0x0, 0x0, 16, 5⟩
def UNIT_LP_EDIT : F := ⟨.unit, 0x104, 0x0, 0x0, 0, 32⟩
def UNIT_LP_EDIT_MASK : F := ⟨.unit, 0x104, 0x0, 0x0, 0, 32⟩
def UNIT_LP_SEL : F := ⟨.unit, 0x108, 0x0, 0x0, 0, 32⟩
def UNIT_LP_SEL_LOOP : F := ⟨.unit, 0x108, 0x0, 0x0, 0, 6⟩
def UNIT_LP_STAT : F := ⟨.unit, 0x10c, 0x0, 0x0, 0, 32⟩
def UNIT_LP_STAT_MODE : F := ⟨.unit, 0x10c, 0x0, 0x0, 0, 2⟩
def UNIT_LP_STAT_EDIT : F := ⟨.unit, 0x10c, 0x0, 0x0, 2, 1⟩
def UNIT_LP_STAT_HOLDDEV : F := ⟨.unit, 0x10c, 0x0, 0x0, 3, 1⟩
def UNIT_LP_STAT_HCAUSE : F := ⟨.unit, 0x10c, 0x0, 0x0, 4, 3⟩
def UNIT_LP_STAT_SCHINV : F := ⟨.unit, 0x10c, 0x0, 0x0, 7, 1⟩
def UNIT_LP_STAT_SET : F := ⟨.unit, 0x10c, 0x0, 0x0, 8, 3⟩
def UNIT_LP_STAT_LIMHI : F := ⟨.unit, 0x10c, 0x0, 0x0, 11, 1⟩
def UNIT_LP_STAT_LIMLO : F := ⟨.unit, 0x10c, 0x0, 0x0, 12, 1⟩
def UNIT_LP_STAT_RATE : F := ⟨.unit, 0x10c, 0x0, 0x0, 13, 1⟩
def UNIT_LP_STAT_RATEDN : F := ⟨.unit, 0x10c, 0x0, 0x0, 14, 1⟩
def UNIT_LP_STAT_SECLIM : F := ⟨.unit, 0x10c, 0x0, 0x0, 15, 1⟩
def UNIT_LP_STAT_XFINV : F := ⟨.unit, 0x10c, 0x0, 0x0, 16, 1⟩
def UNIT_LP_STAT_INVIN : F := ⟨.unit, 0x10c, 0x0, 0x0, 17, 1⟩
def UNIT_LP_STAT_RES : F := ⟨.unit, 0x10c, 0x0, 0x0, 18, 8⟩
def UNIT_LP_STAT_LASTREQ : F := ⟨.unit, 0x10c, 0x0, 0x0, 26, 2⟩
def UNIT_LP_STAT_REQSRC : F := ⟨.unit, 0x10c, 0x0, 0x0, 28, 1⟩
def UNIT_LP_OUT : F := ⟨.unit, 0x110, 0x0, 0x0, 0, 32⟩
def UNIT_LP_OUT_V : F := ⟨.unit, 0x110, 0x0, 0x0, 0, 32⟩
def UNIT_LP_PV : F := ⟨.unit, 0x114, 0x0, 0x0, 0, 32⟩
def UNIT_LP_PV_V : F := ⟨.unit, 0x114, 0x0, 0x0, 0, 32⟩
def UNIT_LP_ERR : F := ⟨.unit, 0x118, 0x0, 0x0, 0, 32⟩
def UNIT_LP_ERR_V : F := ⟨.unit, 0x118, 0x0, 0x0, 0, 32⟩
def UNIT_LP_RESj : F := ⟨.unit, 0x120, 0x4, 0x0, 0, 32⟩
def UNIT_LP_RESj_V : F := ⟨.unit, 0x120, 0x4, 0x0, 0, 32⟩
def UNIT_LP_CNT : F := ⟨.unit, 0x130, 0x0, 0x0, 0, 32⟩
def UNIT_LP_CNT_SWITCHES : F := ⟨.unit, 0x130, 0x0, 0x0, 0, 16⟩
def UNIT_LP_CNT_REFUSED : F := ⟨.unit, 0x130, 0x0, 0x0, 16, 8⟩
def UNIT_LP_CNT_HOLDS : F := ⟨.unit, 0x130, 0x0, 0x0, 24, 8⟩
def UNIT_LG_PART : F := ⟨.unit, 0x200, 0x0, 0x0, 0, 32⟩
def UNIT_LG_PART_PART : F := ⟨.unit, 0x200, 0x0, 0x0, 0, 5⟩
def UNIT_LG_PART_SEG : F := ⟨.unit, 0x200, 0x0, 0x0, 8, 4⟩
def UNIT_LG_PART_LEAD : F := ⟨.unit, 0x200, 0x0, 0x0, 12, 1⟩
def UNIT_LG_PART_TASK : F := ⟨.unit, 0x200, 0x0, 0x0, 16, 4⟩
def UNIT_LG_CMD : F := ⟨.unit, 0x204, 0x0, 0x0, 0, 32⟩
def UNIT_LG_CMD_CMD : F := ⟨.unit, 0x204, 0x0, 0x0, 0, 3⟩
def UNIT_LG_STAT : F := ⟨.unit, 0x208, 0x0, 0x0, 0, 32⟩
def UNIT_LG_STAT_STATE : F := ⟨.unit, 0x208, 0x0, 0x0, 0, 2⟩
def UNIT_LG_STAT_STRICT : F := ⟨.unit, 0x208, 0x0, 0x0, 2, 1⟩
def UNIT_LG_STAT_TEST : F := ⟨.unit, 0x208, 0x0, 0x0, 3, 1⟩
def UNIT_LG_STAT_WHY : F := ⟨.unit, 0x208, 0x0, 0x0, 4, 4⟩
def UNIT_LG_STAT_LASTCMD : F := ⟨.unit, 0x208, 0x0, 0x0, 8, 2⟩
def UNIT_LG_STAT_STRICT_LEFT : F := ⟨.unit, 0x208, 0x0, 0x0, 16, 16⟩
def UNIT_LG_SCAN : F := ⟨.unit, 0x20c, 0x0, 0x0, 0, 32⟩
def UNIT_LG_SCAN_SCAN : F := ⟨.unit, 0x20c, 0x0, 0x0, 0, 32⟩
def UNIT_LG_OVR : F := ⟨.unit, 0x210, 0x0, 0x0, 0, 32⟩
def UNIT_LG_OVR_OVR : F := ⟨.unit, 0x210, 0x0, 0x0, 0, 16⟩
def UNIT_LG_OVR_LATE : F := ⟨.unit, 0x210, 0x0, 0x0, 16, 16⟩
def UNIT_LG_CARRY : F := ⟨.unit, 0x214, 0x0, 0x0, 0, 32⟩
def UNIT_LG_CARRY_CARRIED : F := ⟨.unit, 0x214, 0x0, 0x0, 0, 16⟩
def UNIT_LG_CARRY_INIT : F := ⟨.unit, 0x214, 0x0, 0x0, 16, 16⟩
def UNIT_AX_INFO : F := ⟨.unit, 0x300, 0x0, 0x0, 0, 32⟩
def UNIT_AX_INFO_NAXES : F := ⟨.unit, 0x300, 0x0, 0x0, 0, 5⟩
def UNIT_AX_INFO_PRANK : F := ⟨.unit, 0x300, 0x0, 0x0, 8, 5⟩
def UNIT_AX_SEL : F := ⟨.unit, 0x304, 0x0, 0x0, 0, 32⟩
def UNIT_AX_SEL_AXIS : F := ⟨.unit, 0x304, 0x0, 0x0, 0, 4⟩
def UNIT_AX_STAT : F := ⟨.unit, 0x308, 0x0, 0x0, 0, 32⟩
def UNIT_AX_STAT_STATE : F := ⟨.unit, 0x308, 0x0, 0x0, 0, 4⟩
def UNIT_AX_STAT_HOMED : F := ⟨.unit, 0x308, 0x0, 0x0, 4, 1⟩
def UNIT_AX_STAT_DEST : F := ⟨.unit, 0x308, 0x0, 0x0, 5, 2⟩
def UNIT_AX_STAT_ENGAGE : F := ⟨.unit, 0x308, 0x0, 0x0, 7, 1⟩
def UNIT_AX_STAT_OFFSET : F := ⟨.unit, 0x308, 0x0, 0x0, 8, 1⟩
def UNIT_AX_STAT_CAUSE : F := ⟨.unit, 0x308, 0x0, 0x0, 9, 4⟩
def UNIT_AX_STAT_STEPLAG : F := ⟨.unit, 0x308, 0x0, 0x0, 13, 1⟩
def UNIT_AX_STAT_LASTREQ : F := ⟨.unit, 0x308, 0x0, 0x0, 14, 2⟩
def UNIT_AX_STAT_REQSRC : F := ⟨.unit, 0x308, 0x0, 0x0, 16, 1⟩
def UNIT_AX_STAT_WHY : F := ⟨.unit, 0x308, 0x0, 0x0, 17, 4⟩
def UNIT_AX_SPOS_LO : F := ⟨.unit, 0x310, 0x0, 0x0, 0, 32⟩
def UNIT_AX_SPOS_LO_V : F := ⟨.unit, 0x310, 0x0, 0x0, 0, 32⟩
def UNIT_AX_SPOS_HI : F := ⟨.unit, 0x314, 0x0, 0x0, 0, 32⟩
def UNIT_AX_SPOS_HI_V : F := ⟨.unit, 0x314, 0x0, 0x0, 0, 32⟩
def UNIT_AX_APOS_LO : F := ⟨.unit, 0x318, 0x0, 0x0, 0, 32⟩
def UNIT_AX_APOS_LO_V : F := ⟨.unit, 0x318, 0x0, 0x0, 0, 32⟩
def UNIT_AX_APOS_HI : F := ⟨.unit, 0x31c, 0x0, 0x0, 0, 32⟩
def UNIT_AX_APOS_HI_V : F := ⟨.unit, 0x31c, 0x0, 0x0, 0, 32⟩
def UNIT_AX_VEL_LO : F := ⟨.unit, 0x320, 0x0, 0x0, 0, 32⟩
def UNIT_AX_VEL_LO_V : F := ⟨.unit, 0x320, 0x0, 0x0, 0, 32⟩
def UNIT_AX_VEL_HI : F := ⟨.unit, 0x324, 0x0, 0x0, 0, 32⟩
def UNIT_AX_VEL_HI_V : F := ⟨.unit, 0x324, 0x0, 0x0, 0, 32⟩
def UNIT_AX_FERR : F := ⟨.unit, 0x328, 0x0, 0x0, 0, 32⟩
def UNIT_AX_FERR_V : F := ⟨.unit, 0x328, 0x0, 0x0, 0, 32⟩
def UNIT_AX_CNT : F := ⟨.unit, 0x32c, 0x0, 0x0, 0, 32⟩
def UNIT_AX_CNT_REFUSED : F := ⟨.unit, 0x32c, 0x0, 0x0, 0, 16⟩
def UNIT_AX_CNT_FAULTS : F := ⟨.unit, 0x32c, 0x0, 0x0, 16, 8⟩
def UNIT_SQ_INFO : F := ⟨.unit, 0x400, 0x0, 0x0, 0, 32⟩
def UNIT_SQ_INFO_NSEQ : F := ⟨.unit, 0x400, 0x0, 0x0, 0, 3⟩
def UNIT_SQ_INFO_SRANK : F := ⟨.unit, 0x400, 0x0, 0x0, 8, 5⟩
def UNIT_SQ_SEL : F := ⟨.unit, 0x404, 0x0, 0x0, 0, 32⟩
def UNIT_SQ_SEL_SEQ : F := ⟨.unit, 0x404, 0x0, 0x0, 0, 2⟩
def UNIT_SQ_STAT : F := ⟨.unit, 0x408, 0x0, 0x0, 0, 32⟩
def UNIT_SQ_STAT_STATE : F := ⟨.unit, 0x408, 0x0, 0x0, 0, 4⟩
def UNIT_SQ_STAT_HKIND : F := ⟨.unit, 0x408, 0x0, 0x0, 4, 2⟩
def UNIT_SQ_STAT_LOADED : F := ⟨.unit, 0x408, 0x0, 0x0, 6, 1⟩
def UNIT_SQ_STAT_FLATE : F := ⟨.unit, 0x408, 0x0, 0x0, 7, 1⟩
def UNIT_SQ_STAT_LASTREQ : F := ⟨.unit, 0x408, 0x0, 0x0, 8, 2⟩
def UNIT_SQ_STAT_REQSRC : F := ⟨.unit, 0x408, 0x0, 0x0, 10, 1⟩
def UNIT_SQ_STAT_WHY : F := ⟨.unit, 0x408, 0x0, 0x0, 11, 4⟩
def UNIT_SQ_STAT_CAUSE : F := ⟨.unit, 0x408, 0x0, 0x0, 15, 2⟩
def UNIT_SQ_STAT_RESUMED : F := ⟨.unit, 0x408, 0x0, 0x0, 17, 1⟩
def UNIT_SQ_STEP : F := ⟨.unit, 0x40c, 0x0, 0x0, 0, 32⟩
def UNIT_SQ_STEP_INDEX : F := ⟨.unit, 0x40c, 0x0, 0x0, 0, 11⟩
def UNIT_SQ_STEP_PEND : F := ⟨.unit, 0x40c, 0x0, 0x0, 16, 11⟩
def UNIT_SQ_ELAPSED : F := ⟨.unit, 0x410, 0x0, 0x0, 0, 32⟩
def UNIT_SQ_ELAPSED_MS : F := ⟨.unit, 0x410, 0x0, 0x0, 0, 32⟩
def UNIT_SQ_KE : F := ⟨.unit, 0x414, 0x0, 0x0, 0, 32⟩
def UNIT_SQ_KE_KE : F := ⟨.unit, 0x414, 0x0, 0x0, 0, 32⟩
def UNIT_SQ_CNT : F := ⟨.unit, 0x418, 0x0, 0x0, 0, 32⟩
def UNIT_SQ_CNT_REFUSED : F := ⟨.unit, 0x418, 0x0, 0x0, 0, 16⟩
def UNIT_SQ_CNT_STEPS : F := ⟨.unit, 0x418, 0x0, 0x0, 16, 16⟩
def UNIT_SQ_LOAD : F := ⟨.unit, 0x41c, 0x0, 0x0, 0, 32⟩
def UNIT_SQ_LOAD_RESULT : F := ⟨.unit, 0x41c, 0x0, 0x0, 0, 4⟩
def UNIT_TG_INFO : F := ⟨.unit, 0x500, 0x0, 0x0, 0, 32⟩
def UNIT_TG_INFO_NENG : F := ⟨.unit, 0x500, 0x0, 0x0, 0, 3⟩
def UNIT_TG_INFO_TRANK : F := ⟨.unit, 0x500, 0x0, 0x0, 8, 5⟩
def UNIT_TG_SEL : F := ⟨.unit, 0x504, 0x0, 0x0, 0, 32⟩
def UNIT_TG_SEL_ENG : F := ⟨.unit, 0x504, 0x0, 0x0, 0, 2⟩
def UNIT_TG_CMD : F := ⟨.unit, 0x508, 0x0, 0x0, 0, 32⟩
def UNIT_TG_CMD_CMD : F := ⟨.unit, 0x508, 0x0, 0x0, 0, 3⟩
def UNIT_TG_CMD_ENG : F := ⟨.unit, 0x508, 0x0, 0x0, 8, 2⟩
def UNIT_TG_CMD_SLOT : F := ⟨.unit, 0x508, 0x0, 0x0, 12, 4⟩
def UNIT_TG_STAT : F := ⟨.unit, 0x50c, 0x0, 0x0, 0, 32⟩
def UNIT_TG_STAT_STATE : F := ⟨.unit, 0x50c, 0x0, 0x0, 0, 3⟩
def UNIT_TG_STAT_DLOG : F := ⟨.unit, 0x50c, 0x0, 0x0, 3, 4⟩
def UNIT_TG_STAT_SLOT : F := ⟨.unit, 0x50c, 0x0, 0x0, 7, 4⟩
def UNIT_TG_STAT_FULL : F := ⟨.unit, 0x50c, 0x0, 0x0, 11, 1⟩
def UNIT_TG_STAT_GAP : F := ⟨.unit, 0x50c, 0x0, 0x0, 12, 1⟩
def UNIT_TG_STAT_SHORTPRE : F := ⟨.unit, 0x50c, 0x0, 0x0, 13, 1⟩
def UNIT_TG_STAT_PARTIAL : F := ⟨.unit, 0x50c, 0x0, 0x0, 14, 1⟩
def UNIT_TG_STAT_LASTCMD : F := ⟨.unit, 0x50c, 0x0, 0x0, 15, 2⟩
def UNIT_TG_STAT_WHY : F := ⟨.unit, 0x50c, 0x0, 0x0, 17, 3⟩
def UNIT_TG_STAT_MASK : F := ⟨.unit, 0x50c, 0x0, 0x0, 20, 7⟩
def UNIT_TG_CNT : F := ⟨.unit, 0x518, 0x0, 0x0, 0, 32⟩
def UNIT_TG_CNT_RECORDS : F := ⟨.unit, 0x518, 0x0, 0x0, 0, 16⟩
def UNIT_TG_CNT_LOST : F := ⟨.unit, 0x518, 0x0, 0x0, 16, 16⟩
def UNIT_TG_KT_LO : F := ⟨.unit, 0x510, 0x0, 0x0, 0, 32⟩
def UNIT_TG_KT_LO_KT : F := ⟨.unit, 0x510, 0x0, 0x0, 0, 32⟩
def UNIT_TG_KT_HI : F := ⟨.unit, 0x514, 0x0, 0x0, 0, 32⟩
def UNIT_TG_KT_HI_KT : F := ⟨.unit, 0x514, 0x0, 0x0, 0, 32⟩
def CLUS_CTRL : F := ⟨.clus, 0x0, 0x0, 0x0, 0, 32⟩
def CLUS_CTRL_EN : F := ⟨.clus, 0x0, 0x0, 0x0, 0, 1⟩
def CLUS_STAT : F := ⟨.clus, 0x4, 0x0, 0x0, 0, 32⟩
def CLUS_STAT_WIGN : F := ⟨.clus, 0x4, 0x0, 0x0, 31, 1⟩
def CLUS_OWN : F := ⟨.clus, 0x10, 0x0, 0x0, 0, 32⟩
def CLUS_OWN_CLASS : F := ⟨.clus, 0x10, 0x0, 0x0, 0, 3⟩
def CLUS_OWN_USED : F := ⟨.clus, 0x10, 0x0, 0x0, 8, 16⟩
def CLUS_TAGLO : F := ⟨.clus, 0x1000, 0x8, 0x0, 0, 32⟩
def CLUS_TAGLO_CRC : F := ⟨.clus, 0x1000, 0x8, 0x0, 0, 32⟩
def CLUS_TAGHI : F := ⟨.clus, 0x1004, 0x8, 0x0, 0, 32⟩
def CLUS_TAGHI_OWNER : F := ⟨.clus, 0x1004, 0x8, 0x0, 0, 9⟩
def CLUS_TAGHI_LIDX : F := ⟨.clus, 0x1004, 0x8, 0x0, 9, 5⟩
def CLUS_TAGHI_CLASS : F := ⟨.clus, 0x1004, 0x8, 0x0, 14, 2⟩
def CLUS_TAGHI_VERIFY_EACH : F := ⟨.clus, 0x1004, 0x8, 0x0, 16, 1⟩
def CLUS_TAGHI_PENDING : F := ⟨.clus, 0x1004, 0x8, 0x0, 17, 1⟩
def CLUS_TAGHI_DIRTY : F := ⟨.clus, 0x1004, 0x8, 0x0, 18, 1⟩
def CLUS_TAGHI_BAD : F := ⟨.clus, 0x1004, 0x8, 0x0, 19, 1⟩
def RGN_CTRL : F := ⟨.rgn, 0x0, 0x0, 0x0, 0, 32⟩
def RGN_CTRL_EN : F := ⟨.rgn, 0x0, 0x0, 0x0, 0, 1⟩
def RGN_STAT : F := ⟨.rgn, 0x4, 0x0, 0x0, 0, 32⟩
def RGN_STAT_WIGN : F := ⟨.rgn, 0x4, 0x0, 0x0, 31, 1⟩
def RGN_CAD : F := ⟨.rgn, 0x10, 0x0, 0x0, 0, 32⟩
def RGN_CAD_CADMASK : F := ⟨.rgn, 0x10, 0x0, 0x0, 0, 8⟩
def RGN_CAD_GUARD : F := ⟨.rgn, 0x10, 0x0, 0x0, 8, 24⟩
def RGN_RAIL : F := ⟨.rgn, 0x14, 0x0, 0x0, 0, 32⟩
def RGN_RAIL_MV : F := ⟨.rgn, 0x14, 0x0, 0x0, 0, 10⟩
def RGN_RAIL_PLAN_MV : F := ⟨.rgn, 0x14, 0x0, 0x0, 16, 10⟩
end R

end Sys2Proof.Machine
end

