-- ==== Sys2Proof/Machine/State.lean ====
section
/-!
DEFINITION. The block's state as plain data, its faults and refusals, and the state right after reset.

`Dev` is everything the block holds but its byte-addressed memory and the queue of waiting commands. INVENTORY.md
lists each field with the rule that names it.
-/
namespace Sys2Proof.Machine

/-- Everything the block holds beside memory and the queue. -/
structure Dev where
  /-- FK7680 = 0, FK7660 = 1, FK7640 = 2 (R1); fixed for a device. -/
  variant : Nat := 0
  /-- Stepping (R2); fixed for a device. -/
  stepping : Nat := 0
  /-- DSIDE strap (R380), sampled into `DUPX.CFG.SIDE`. -/
  strap : Nat := 0
  /-- Register words that differ from their reset values, by byte address (R354 to R364). -/
  regs : Tbl Nat := []
  time : TimeSt := {}
  units : Tbl UnitSt := []
  ckpt : Tbl CkptSt := []
  /-- Latched signal values, without the forces (R32, R33). -/
  sigs : Tbl SigVal := []
  /-- Forces that act at their signals' points of substitution (R167, R168). -/
  forced : Tbl Word := []
  /-- Values of event-driven units that wait for the boundary of their output's cadence (R33). -/
  sigWait : Tbl SigVal := []
  /-- Rim input registers of the converters: sample word and side word, by 16·bank + channel (R229). -/
  rimIn : Tbl (Nat × Nat) := []
  disp : Tbl DispSt := []
  last : Option LastRec := none
  /-- Which of the two copy areas is the current one (R58). -/
  area : Nat := 0
  /-- What the two copy areas hold: the bank group an image lies in, and its bytes (R58). -/
  areas : Tbl (Nat × List Byte) := []
  load : Option LoadSt := none
  /-- The two flash slots of Lasts (R55, R56). -/
  slots : Tbl SlotSt := []
  slotPref : Nat := 0
  /-- The slot write in progress (R56). -/
  slotWr : Option SlotWr := none
  streamed : Option (List Byte) := none
  force : Tbl ForceEnt := []
  /-- The force table as it stood before the changes of a tick, with that tick: they act strictly after it (R168). -/
  forceOld : Option (Nat × Tbl ForceEnt) := none
  forcePend : List ForcePend := []
  recipes : Tbl (List Byte) := []
  recipeParsed : Tbl Recipe := []
  recipeLoad : Tbl (List Byte × Nat × Nat) := []
  /-- `UNIT.SQ_LOAD.RESULT` by device sequencer number (R221). -/
  recipeRes : Tbl Nat := []
  recipeStore : Tbl (List Byte) := []
  adc : Tbl AdcBank := []
  mains : MainsSt := {}
  outs : Tbl OutSt := []
  pins : Tbl PinSt := []
  /-- The words of the AOUT, DIO and PWM blocks that are in force while a block's EN is clear, by block base (R512). -/
  ioHeld : Tbl (Tbl Nat) := []
  /-- The tick of the last carrier start of each PWM channel (R256). -/
  carriers : Tbl Nat := []
  steps : Tbl StepSt := []
  chops : Tbl ChopSt := []
  eng : Tbl EngRim := []
  rings : Tbl RingSt := []
  /-- The summaries of the history signals (R278), by signal. -/
  hsig : Tbl HistSig := []
  /-- Datagram sequence numbers of the history stream, by 256·KIND + SRC (R351). -/
  dseqs : Tbl Nat := []
  snaps : Tbl SnapRec := []
  frz : FreezeSt := {}
  /-- Class A stamps of the last frame received and of the last one sent (R101), by line: Ethernet port n, 0x100 + 2·segment + channel of a
  Holup segment, 0x200 the Welt link. -/
  stamps : Tbl (Nat × Nat) := []
  hol : Tbl HolSt := []
  /-- The view 0 time in ns at which the last frame on a Holup channel releases the line (R294), by 2·segment + channel. -/
  lineRel : Tbl Nat := []
  can : Tbl CanSt := []
  eth : Tbl EthSt := []
  ethRx : Tbl EthRx := []
  netcfg : List Byte := []
  netApplied : List Byte := []
  sessions : Tbl Session := []
  /-- Tile-window writes of Eyelet held until the owner is idle: session, SEQ, unit (R78). -/
  owed : List (Nat × Nat × Nat) := []
  dupx : DupxSt := {}
  /-- The Last whose state an exchange maps (R400). -/
  dupOld : Option LastRec := none
  hclaimMram : Nat := 0
  isl : IslandSt := {}
  pwr : PwrSt := {}
  planHist : List PlanMeas := []
  rst : RstSt := {}
  plr : PlrRec := {}
  evt : EvtSt := {}
  lc : LcSt := {}
  /-- Assertions of event sources that an engine's EVENT condition can name: source, tick, view 0 ns, fraction (R270). -/
  srcHits : List (Nat × Nat × Nat × Nat) := []
  /-- Register words that units wrote, and the tick of it (R366). -/
  unitWr : Nat × List Nat := (0, [])
  /-- Register words that Eyelet or a service core wrote, and the tick of it (R27). -/
  outWr : Nat × List Nat := (0, [])
  /-- The checker's pass in progress is DIRTY (R368); a COMMIT waits: 1 for a pass to start, 2 for the one in progress to end clean
  (R369); committed block CRCs by block base; a run of mismatches is in progress (R370). -/
  cfgDirty : Bool := false
  cfgCommit : Nat := 0
  cfgBlk : Tbl Nat := []
  cfgMism : Bool := false
  /-- The model's record of what the block has sent. -/
  sent : List Emit := []
  /-- The model's counter of free values (`Config.freeNat`). -/
  free : Nat := 0
deriving DecidableEq, Repr

/-- The state: the device, its memory (R354: tile window, DRAM, MRAM) and the commands that wait, first in first out. -/
structure State where
  dev : Dev := {}
  mem : List Host.Cell := []
  pending : List Instr := []
deriving DecidableEq, Repr

/-- Why the machine stops where the spec gives no effect. -/
inductive Fault where
  /-- A logic jump whose target does not lie ahead of it inside its segment's program; the load refuses such programs
  (R151, R152), so the spec gives it no effect. Raised by JMP, JMPC and JMPCN. Safe. -/
  | pastProgram
deriving DecidableEq, Repr

/-- Why a command is not taken. -/
inductive Refusal where
  /-- The command has no meaning yet; raised by the dispatcher's arms only. Safe. -/
  | notModelled (mnemonic : String)
  /-- The command names an instance, an index or a value that no such command can name (WellFormed). Raised by any
  meaning. Safe: the environment never brings such a command. -/
  | badOperand
deriving DecidableEq, Repr

/-- What a meaning answers. -/
abbrev Res := Host.Outcome State Fault Refusal

/-- The device right after its first power-on episode: `RST.CAUSE` names POR with reach POWER-ON (R454), and that episode's RESET event
waits to be recorded (R470, R472). -/
def Dev.reset : Dev :=
  { regs := [(0x10010, 0x20031)],
    evt := { pcycle := 1, queue := [{ code := Ev.RESET, inst := 0, opsec := 0, pcycle := 1, t1 := none, island := false, data := [0x31, 0, 2, 0] }] },
    rst := { phase := 1 } }

/-- The machine right after reset: the power-on episode has just ended (R454, R460 step 1), so the trim load runs; the
queue is empty. -/
def State.reset : State := { dev := Dev.reset }

end Sys2Proof.Machine
end

