-- ==== Sys2Proof/Machine/Ops.lean ====
section
/-!
DEFINITION. The named operations every meaning is built from: register words and fields, memory bytes, time values,
events, event sources, free values, the record of what is sent, and the answer to an Eyelet request.
-/
namespace Sys2Proof.Machine

/-! ### Outcomes -/

/-- An effect on the device alone: memory and queue stay. -/
def State.on (s : State) (f : Dev → Dev) : Res := .next { s with dev := f s.dev }

/-- An effect on the device and memory. -/
def State.onMem (s : State) (f : Dev → List Host.Cell → Dev × List Host.Cell) : Res :=
  .next { s with dev := (f s.dev s.mem).1, mem := (f s.dev s.mem).2 }

/-- A command whose operands are in range; one that names nothing is refused. -/
def State.guarded (s : State) (ok : Bool) (f : Dev → Dev) : Res :=
  if ok then s.on f else .refused .badOperand

/-- An effect that happens only where the state calls for it; elsewhere the command changes nothing (log entry 13). -/
def Dev.when_ (c : Bool) (f : Dev → Dev) (d : Dev) : Dev := if c then f d else d

/-- Apply a function of an optional value. -/
def Dev.withSome {α : Type} (o : Option α) (f : α → Dev → Dev) (d : Dev) : Dev :=
  match o with
  | some x => f x d
  | none => d

/-! ### Registers (R354 to R364) -/

/-- A register word as stored. -/
def Dev.rw (d : Dev) (a : Nat) : Nat := Tbl.getD (rstOf a) d.regs a

/-- Store a register word in canonical form. -/
def Dev.ww (a v : Nat) (d : Dev) : Dev := { d with regs := Tbl.set (rstOf a) a v d.regs }

/-- A field's value at instance `k` and indices `i`, `j`. -/
def Dev.rf (d : Dev) (f : F) (k : Nat := 0) (i : Nat := 0) (j : Nat := 0) : Nat :=
  bitsOf (d.rw (f.addr k i j)) f.lo f.w

/-- A one-bit field as a truth value. -/
def Dev.flag (d : Dev) (f : F) (k : Nat := 0) (i : Nat := 0) (j : Nat := 0) : Bool := d.rf f k i j ≠ 0

/-- Set a field. -/
def Dev.wf (f : F) (v : Nat) (d : Dev) (k : Nat := 0) (i : Nat := 0) (j : Nat := 0) : Dev :=
  d.ww (f.addr k i j) (setBits (d.rw (f.addr k i j)) f.lo f.w v)

/-- Set a one-bit field from a truth value. -/
def Dev.wb (f : F) (b : Bool) (d : Dev) (k : Nat := 0) (i : Nat := 0) (j : Nat := 0) : Dev := d.wf f (b2n b) k i j

/-- Add to a counter field that saturates at its largest value. -/
def Dev.bump (f : F) (n : Nat) (d : Dev) (k : Nat := 0) (i : Nat := 0) (j : Nat := 0) : Dev :=
  d.wf f (satAdd (2 ^ f.w - 1) (d.rf f k i j) n) k i j

/-- Add to a counter field that wraps. -/
def Dev.count (f : F) (n : Nat) (d : Dev) (k : Nat := 0) (i : Nat := 0) (j : Nat := 0) : Dev :=
  d.wf f (d.rf f k i j + n) k i j

/-- Write a 64-bit value to two registers, low word first. -/
def Dev.w64 (lo hi : F) (v : Nat) (d : Dev) (k : Nat := 0) (i : Nat := 0) : Dev :=
  (d.wf lo v k i).wf hi (v / 2 ^ 32) k i

/-- A 64-bit value held in two registers. -/
def Dev.r64 (d : Dev) (lo hi : F) (k : Nat := 0) (i : Nat := 0) : Nat := d.rf lo k i + d.rf hi k i * 2 ^ 32

/-! ### Variants (R1) -/

/-- A number that depends on the variant. -/
def Dev.byVariant {α : Type} (d : Dev) (a b c : α) : α := if d.variant = 0 then a else if d.variant = 1 then b else c

def Dev.nUnits (d : Dev) : Nat := d.byVariant 512 256 256
def Dev.nRegions (d : Dev) : Nat := d.byVariant 8 4 4
def Dev.nDies (d : Dev) : Nat := d.byVariant 2 1 1
def Dev.nPorts (d : Dev) : Nat := d.byVariant 8 4 4
def Dev.nHol (d : Dev) : Nat := d.byVariant 24 12 8
def Dev.nCan (d : Dev) : Nat := d.byVariant 12 6 4
def Dev.nBanks (d : Dev) : Nat := d.byVariant 16 8 0
def Dev.nAout (d : Dev) : Nat := d.byVariant 64 32 0
def Dev.nChop (d : Dev) : Nat := d.byVariant 32 16 0
def Dev.hasWelt (d : Dev) : Bool := d.byVariant true true false
def Dev.dramEnd (d : Dev) : Nat := 0x100000000000 + d.byVariant 0x1000000000 0x800000000 0x400000000

/-- Instances of a block that the variant contains (R1, R3, R378). -/
def Dev.present (d : Dev) : Blk → Nat
  | .eth => d.nPorts
  | .hol => d.nHol
  | .can => d.nCan
  | .adc => d.nBanks
  | .aout => d.byVariant 1 1 0
  | .chop => d.byVariant 1 1 0
  | .dupx => d.byVariant 1 1 0
  | .unit => d.nUnits
  | .clus => d.nUnits / 16
  | .rgn => d.nRegions
  | b => b.count

/-! ### Memory (R354) -/

/-- What a byte of memory that nothing has written reads as (DESIGN CHOICE, log entry 4). -/
def memInit : Byte := 0

/-- One byte of memory. -/
def memGet (m : List Host.Cell) (a : Nat) : Byte := Tbl.getD memInit m a

/-- Write one byte, keeping the canonical form. -/
def memSet (a : Nat) (b : Byte) (m : List Host.Cell) : List Host.Cell := Tbl.set memInit a b m

/-- Write bytes at rising addresses. -/
def memPut : Nat → List Byte → List Host.Cell → List Host.Cell
  | _, [], m => m
  | a, b :: t, m => memPut (a + 1) t (memSet a b m)

/-- Read bytes at rising addresses. -/
def memRead (m : List Host.Cell) (a n : Nat) : List Byte := (List.range n).map (fun i => memGet m (a + i))

/-- The canonical form of memory: addresses strictly rising, no entry that says what an unlisted address reads as. -/
def Memory.wf (m : List Host.Cell) : Bool := Tbl.canon (fun _ => memInit) m

/-- The address of a tile (R13). -/
def tileAddr (t : Nat) : Nat := 0x10000000 + t * 0x400

/-! ### Time (R93 to R95, R106) -/

/-- A view's value at the present tick, in 2^-40 ns. -/
def Dev.view (d : Dev) (v : Nat) : Nat :=
  let w := Tbl.getD {} d.time.views v
  w.base + (d.time.cnt - w.tb) * w.inc

/-- The nanosecond part of a view. -/
def Dev.viewNs (d : Dev) (v : Nat) : Nat := d.view v / 2 ^ 40 % 2 ^ 64

/-- The fraction of a view as reads and snapshots report it: its top 32 bits. -/
def Dev.viewFrac (d : Dev) (v : Nat) : Nat := d.view v % 2 ^ 40 / 2 ^ 8

/-- The class A stamp of a frame whose start passed the port at an instant of the counter in 0.5 ns (R101). -/
def stampA (mode half : Nat) : Nat := half / 4 - Config.nominalLat mode

/-- A view's value at an instant of the counter in 0.5 ns, on its present line, in 2^-42 ns. -/
def Dev.viewHalf (d : Dev) (v half : Nat) : Int :=
  let w := Tbl.getD {} d.time.views v
  4 * w.base + ((half : Int) - 4 * w.tb) * w.inc

/-- The class B stamp before the port's corrections: that value in 2^-32 ns (R102). -/
def Dev.stampB (d : Dev) (v half : Nat) : Int := roundDiv (d.viewHalf v half) 1024

/-- The stamp of a frame received or sent on a line. -/
def Dev.noteRx (line stamp : Nat) (d : Dev) : Dev := { d with stamps := Tbl.upd (0, 0) line (fun x => (stamp, x.2)) d.stamps }
def Dev.noteTx (line stamp : Nat) (d : Dev) : Dev := { d with stamps := Tbl.upd (0, 0) line (fun x => (x.1, stamp)) d.stamps }

/-- The nanoseconds of view 0 at a given tick, at its present increment. -/
def Dev.ns0At (d : Dev) (t : Nat) : Nat :=
  let w := Tbl.getD {} d.time.views 0
  (w.base + (t - w.tb) * w.inc) / 2 ^ 40

/-- Boundary values of a cadence at or before the present, from that of cycle 0 on (R105); zero for an unused cadence. -/
def Dev.cadReach (d : Dev) (n : Nat) : Nat :=
  let p := d.rf R.TIME_CADn_CFG_MULT 0 n * 10000
  (d.viewNs 0 + p - d.rf R.TIME_CADn_PHASE_PHASE 0 n * 10) / p

/-- The cycle number of the latest boundary of a cadence at or before the present (R105). -/
def Dev.cadIdx (d : Dev) (n : Nat) : Nat := d.cadReach n - 1

/-- Boundaries are looked for from the present value of view 0 on (R106): after a step, and when cadences are written. -/
def Dev.resync (d : Dev) : Dev :=
  let f (n : Nat) (c : CadSt) : CadSt := { c with b := d.cadReach n, k := d.cadIdx n }
  { d with time := { d.time with cads := (List.range 8).foldl (fun t n => Tbl.upd {} n (f n) t) d.time.cads } }

/-- Rebase a view at the present tick with a new value. -/
def Dev.setView (v value : Nat) (d : Dev) : Dev :=
  let w : View := { (Tbl.getD {} d.time.views v) with base := value % 2 ^ 104, tb := d.time.cnt }
  let d : Dev := { d with time := { d.time with views := Tbl.put v w d.time.views } }
  if v = 0 then d.resync else d

def Dev.locked (d : Dev) (v : Nat) : Bool := d.flag R.TIME_VSTAT_LOCK 0 v

/-! ### The Last's state (R59, R65) -/

def lsEMPTY : Nat := 0
def lsLOADING : Nat := 1
def lsSTOPPED : Nat := 2
def lsRUNNING : Nat := 3

def Dev.lastState (d : Dev) : Nat := d.rf R.SYS_LAST_STAT_STATE
def Dev.running (d : Dev) : Bool := d.lastState = lsRUNNING
def Dev.setLast (st : Nat) (d : Dev) : Dev := d.wf R.SYS_LAST_STAT_STATE st

/-- The loaded Last, or an empty one. -/
def Dev.cfg (d : Dev) : LastRec := d.last.getD {}

/-! ### Free values and the record of what is sent -/

/-- A fresh free value of `w` bits: the spec leaves it open (log entry 2). -/
def Dev.fresh (w : Nat) (d : Dev) : Nat × Dev := (Config.freeNat d.free % 2 ^ w, { d with free := d.free + 1 })

/-- Record something sent. -/
def Dev.emit (e : Emit) (d : Dev) : Dev := { d with sent := d.sent ++ [e] }

/-! ### Freezes (R281) -/

/-- Record a refused freeze request. -/
def Dev.frzRefuse (d : Dev) : Dev := d.bump R.ACQ_FRZ_STAT_REFUSED 1

/-- The span of a freeze, in milliseconds before and after. -/
def Dev.frzSpan (d : Dev) : Nat × Nat :=
  d.cfg.io.foldl (fun a e => match e.body with
    | .global _ _ _ _ _ _ _ _ pre post => (pre * 1000, post * 1000)
    | _ => a) (0, 0)

/-- The unlocked snapshot slot that was filled longest ago (an unused slot first). -/
def Dev.frzSlot (d : Dev) : Option Nat :=
  ((List.range 64).filter (fun i => !(Tbl.getD {} d.snaps i).locked)).foldl
    (fun (a : Option Nat) i => match a with
      | none => some i
      | some j => if (Tbl.getD {} d.snaps i).order < (Tbl.getD {} d.snaps j).order then some i else some j) none

/-- Slices of every ring in a span. -/
def Dev.frzSlices (d : Dev) (lo hi : Nat) : List (Nat × SliceRec) :=
  (d.rings.map (fun r => (r.2.slices.filter (fun x => lo ≤ x.ms && x.ms ≤ hi)).map (fun x => (r.1, x)))).flatten

/-- Start a copy for a freeze at millisecond `mf`. -/
def Dev.frzStart (cause mf : Nat) (d : Dev) : Dev :=
  match d.frzSlot with
  | none => (d.wb R.ACQ_FRZ_STAT_FULL true).frzRefuse
  | some i =>
    let sp := d.frzSpan
    let d := { d with snaps := Tbl.put i { mf := mf, causes := [cause], valid := true, order := d.frz.nextOrder,
                                           slices := d.frzSlices (mf - sp.1) (mf + sp.2) } d.snaps,
                      frz := { d.frz with copy := some (i, mf), nextOrder := d.frz.nextOrder + 1 } }
    (d.wb R.ACQ_FRZ_STAT_BUSY true).wf R.ACQ_FRZ_STAT_SLOT i

/-- Request a freeze: within the span of a copy in progress it only adds its cause; else it starts, queues (up to 4) or is
refused. -/
def Dev.freezeReq (cause : Nat) (d : Dev) : Dev :=
  let mf := d.viewNs 0 / 1000000
  match d.frz.copy with
  | none => d.frzStart cause mf
  | some (i, m0) =>
    let sp := d.frzSpan
    if m0 - sp.1 ≤ mf ∧ mf ≤ m0 + sp.2 then
      { d with snaps := Tbl.upd {} i (fun r => { r with causes := r.causes ++ [cause] }) d.snaps }
    else if d.frz.queue.length < 4 then
      ({ d with frz := { d.frz with queue := d.frz.queue ++ [(cause, mf)] } }).wf R.ACQ_FRZ_STAT_QUEUED
        (d.frz.queue.length + 1)
    else d.frzRefuse

/-- The queued requests in order: the first that finds a slot starts, those before it are refused. -/
def Dev.frzNext : List (Nat × Nat) → Dev → Dev
  | [], d => d
  | (c, mf) :: t, d =>
    let x := (({ d with frz := { d.frz with queue := t } } : Dev).wf R.ACQ_FRZ_STAT_QUEUED t.length).frzStart c mf
    if x.frz.copy.isSome then x else Dev.frzNext t x

/-- A freeze copy ends, cut short or not; the next queued request starts (R281). -/
def Dev.frzEnd (trunc : Bool) (d : Dev) : Dev :=
  match d.frz.copy with
  | none => d
  | some (i, _) =>
    let d := { d with snaps := Tbl.upd {} i (fun s => { s with trunc := s.trunc || trunc }) d.snaps,
                      frz := { d.frz with copy := none } }
    (d.wb R.ACQ_FRZ_STAT_BUSY false).frzNext d.frz.queue

/-! ### Events (R470 to R475) -/

/-- Codes that bypass the rate limit (R475). -/
def noLimit (code : Nat) : Bool :=
  [Ev.RESET, Ev.HOLD_EXPIRED, Ev.PWR_LOSS, Ev.DUPX_TAKEOVER, Ev.DUPX_FENCED, Ev.SAFE_LOCKOUT, Ev.REC_CLEARED,
   Ev.REC_OVERFLOW].contains code

/-- BURST of a code: the Last's, or 4. -/
def Dev.burstOf (d : Dev) (code : Nat) : Nat := Tbl.getD 4 d.cfg.own.burst code

/-- Queue an event, or lose it to a full queue (R474). -/
def Dev.enqueueEv (e : EvRec) (d : Dev) : Dev :=
  if d.evt.queue.length < 256 then { d with evt := { d.evt with queue := d.evt.queue ++ [e] } }
  else (({ d with evt := { d.evt with lostNow := d.evt.lostNow + 1 } }).bump R.EVT_LOST 1).wb R.EVT_STAT_QOVF true

/-- Raise an event: a listed code requests a freeze first; the code's bucket decides between a record and a suppression. -/
def Dev.raiseFrom (island : Bool) (code inst : Nat) (data : List Byte) (d : Dev) : Dev :=
  let d := if d.cfg.own.frz.contains code then d.freezeReq code else d
  if d.evt.stopped then d
  else if noLimit code || Tbl.getD 0 d.evt.taken code < d.burstOf code then
    let e : EvRec := { tick := d.time.cnt, code := code, inst := inst, opsec := d.evt.opsec, pcycle := d.evt.pcycle,
                       t1 := if d.locked 1 then some (d.viewNs 1) else none, island := island, data := data }
    let d := if noLimit code then d
             else { d with evt := { d.evt with taken := Tbl.upd 0 code (· + 1) d.evt.taken } }
    d.enqueueEv e
  else { d with evt := { d.evt with supp := Tbl.upd 0 code (fun n => satAdd 0xFFFF n 1) d.evt.supp } }

/-- Raise an event of the device itself. -/
def Dev.raise (code inst : Nat) (data : List Byte) (d : Dev) : Dev := d.raiseFrom false code inst data

/-- Raise the events a unit raised, in order. -/
def Dev.raiseAll (u : Nat) (evs : List UEv) (d : Dev) : Dev :=
  evs.foldl (fun d e => d.raise (0x2000 + e.num) u e.data) d

/-! ### Dispatcher and event sources (R82 to R87) -/

/-- A flow of a die. -/
def Dev.flowOf (d : Dev) (die flow : Nat) : Option FlowRec :=
  d.cfg.flows.find? (fun f => f.flow = flow && f.die = die)

/-- A level of a die: levels of die 1 are listed after 15. -/
def Dev.levelOf (d : Dev) (die level : Nat) : Option LevelRec := Tbl.get? d.cfg.levels (16 * die + level)

/-- An accepted item goes on chip or to the tail of its level's ring, or is refused (R87). While the fabric is down nothing is accepted (R89). -/
def Dev.acceptItem (die flow origin : Nat) (payload : List Byte) (d : Dev) : Dev :=
  match (if d.rst.dark || d.rst.epi.isSome then none else d.flowOf die flow) with
  | none => d
  | some f =>
    match d.levelOf die f.level with
    | none => d
    | some l =>
      let q := Tbl.getD {} d.disp die
      let it : Item := { stamp := d.time.cnt, flow := flow, level := f.level, origin := origin, payload := payload }
      let onChip := (q.store.filter (fun x => x.level = f.level)).length
      let inRing := (q.ring.filter (fun x => x.level = f.level)).length
      if onChip < l.quota ∧ !(q.ring.any (fun x => x.level = f.level && x.flow = flow)) then
        { d with disp := Tbl.put die { q with store := q.store ++ [it] } d.disp }
      else if l.ringlog ≠ 0 ∧ inRing < 2 ^ l.ringlog then
        { d with disp := Tbl.put die { q with ring := q.ring ++ [it] } d.disp }
      else ((d.bump R.DISP_LVL_DROP_COUNT 1 0 die f.level).wb R.DISP_STAT_DROP true).raise Ev.DISP_DROP 0 []

/-- The units of a kind, ascending (R173, R198, R263): those that an absent OPTIONAL resource leaves out count among them. -/
def LastRec.ranked (l : LastRec) (kind : Nat) : List Nat :=
  (List.range 512).filter (fun u => l.units.any (fun x => decide (x.unit = u) && decide (x.kind = kind)) || l.gone.any (fun x => decide (x.unit = u) && decide (x.kind = kind)))

/-- The arming group that lists a device engine number among its members (R51, R273). -/
def LastRec.armGrp (l : LastRec) (n : Nat) : Option ArmMember :=
  l.io.findSome? (fun e => match e.body with
    | .armgrp g _ lead ls => (ls.find? (fun x => decide (x.1 = n))).map (fun x => { gid := g, lead := lead, master := x.2 })
    | _ => none)

/-- An event source asserts for one tick: an item for every flow bound to it, with its view 0 time-stamp and 12 bytes of
data, zeros where its rule names none (log entry 89); engines remember the assertion for their EVENT conditions (R83, R84, R270). -/
def Dev.assertAt (src ns frac : Nat) (data : List Byte) (d : Dev) : Dev :=
  let d := (d.cfg.binds.filter (fun b => b.src = src)).foldl
    (fun d b => d.acceptItem b.die b.flow src (leBytes 8 ns ++ (data ++ zeros 12).take 12)) d
  if d.units.any (fun u => decide (u.2.kind = 5)) then { d with srcHits := d.srcHits ++ [(src, d.time.cnt, ns, frac)] } else d

/-- An event source asserts with the present view 0 time. -/
def Dev.assertSrc (src : Nat) (data : List Byte) (d : Dev) : Dev := d.assertAt src (d.viewNs 0) (d.viewFrac 0) data

/-! ### Signals and forces (R71, R167, R168) -/

/-- Signals that a unit of a kind writes, by its descriptors. -/
def LastRec.writes (l : LastRec) (kind u : Nat) : List Nat :=
  match kind with
  | 1 => ((Tbl.getD [] l.loops u).map (fun c => c.out :: c.sPv :: c.sErr :: c.sRes)).flatten
  | 2 => (l.parts.map (fun p => (p.objs.filter (fun o => decide (o.owner = u))).filterMap (fun o =>
      some ((if o.mapTo = 2 then [o.sig] else []) ++ o.dirSig.toList).eraseDups))).flatten.flatten
  | 3 => ((Tbl.getD [] l.axes u).map (fun c => [c.sSpos, c.sApos, c.sVel, c.sState] ++ c.sSvel.toList ++ c.sCtrl.toList)).flatten
  | 4 => ((Tbl.getD [] l.seqs u).map (fun c => c.chans.map (fun x => x.2.1) ++ [c.sStep, c.sFlags, c.sState, c.sElapsed])).flatten
  | 6 => (Tbl.getD [] l.conds u).map (·.out)
  | _ => []

/-- The force table as it acts at an occasion of this tick: changes committed in the tick itself do not act yet (R168). -/
def Dev.forceTab (d : Dev) : Tbl ForceEnt :=
  match d.forceOld with
  | some (t, f) => if t = d.time.cnt then f else d.force
  | none => d.force

/-- Change the force table at this tick. -/
def Dev.setForce (f : Tbl ForceEnt) (d : Dev) : Dev :=
  { d with force := f, forceOld := some (d.time.cnt, d.forceTab) }

/-- The value that an entry forces (R166). -/
def ForceEnt.word (e : ForceEnt) : Word := if e.kind % 4 = 1 then (if e.val = 0 then 0 else 1) else e.val

/-- The value a force gives a signal at an occasion of this tick. -/
def Dev.forceOf (d : Dev) (sig : Nat) : Option Word := (d.forceTab.find? (fun e => e.2.id = sig)).map (fun e => e.2.word)

/-- Every entry of the table acts: a Last is loaded or resumed with the forces that were kept (R169, R466). -/
def Dev.forceNow (d : Dev) : Dev := { d with forced := d.force.foldl (fun t e => Tbl.put e.2.id e.2.word t) [] }

/-- An occasion of a signal's point of substitution: its force, if any, acts from here on; a removed one no longer does. -/
def Dev.reForce (sig : Nat) (d : Dev) : Dev :=
  { d with forced := match d.forceOf sig with | some w => Tbl.put sig w d.forced | none => Tbl.del sig d.forced }

/-- Latch a value under a signal's name; a force takes its place for every reader (R167). -/
def Dev.showSig (sig : Nat) (v : SigVal) (d : Dev) : Dev := ({ d with sigs := Tbl.put sig v d.sigs } : Dev).reForce sig

/-- The visible value of a signal: forced, or as latched. -/
def Dev.sig (d : Dev) (n : Nat) : SigVal :=
  match Tbl.get? d.forced n with
  | some w => forcedSig w
  | none => Tbl.getD {} d.sigs n

/-- All visible signals. -/
def Dev.visible (d : Dev) : Tbl SigVal := d.forced.foldl (fun t e => Tbl.put e.1 (forcedSig e.2) t) d.sigs

/-! ### Ignored writes (R361, R364, R510) -/

/-- Bytes that say who wrote (R510): byte 8 the writer, bytes 10:9 the unit. -/
def Writer.bytes : Writer → List Byte
  | .eyelet => [0]
  | .core => [1]
  | .unit u => [2] ++ leBytes 2 u

/-- What R510 adds to every write ignored or dropped with a WIGN flag. -/
def Dev.wignAny (w : Writer) (a : Nat) (d : Dev) : Dev :=
  let d := if d.flag R.SYS_STAT_WIGN_ANY then d else d.wf R.SYS_WIGN_ADDR_ADDR a
  (d.wb R.SYS_STAT_WIGN_ANY true).raise Ev.REG_WIGN 0 (leBytes 8 a ++ w.bytes)

/-- A write dropped by a block: its STAT.WIGN and R510. -/
def Dev.wign (b : Blk) (k : Nat) (w : Writer) (a : Nat) (d : Dev) : Dev :=
  (d.wf ⟨b, 4, 0, 0, 31, 1⟩ 1 k).wignAny w a

/-- An access to an absent block (R3, R364). -/
def Dev.absentAcc (w : Writer) (a : Nat) (d : Dev) : Dev :=
  if d.flag R.SYS_STAT_ABSENT_ACC then d
  else ((d.wf R.SYS_ABSENT_ADDR_ADDR a).wb R.SYS_STAT_ABSENT_ACC true).raise Ev.REG_ABSENT 0 (leBytes 8 a ++ w.bytes)

/-- A command that is a write of register `g` of instance `k`, index `i`, of its block (R3): on an instance that the variant lacks the write is
dropped and reported. Its writer is a service core (log entry 96). -/
def State.regCmd (s : State) (g : F) (k i : Nat) (ok : Bool) (f : Dev → Dev) : Res :=
  if ok && decide (k < s.dev.present g.blk) then s.on f
  else if ok && decide (k < g.blk.count) then s.on (Dev.absentAcc .core (g.addr k i 0))
  else .refused .badOperand

end Sys2Proof.Machine
end

