-- ==== Sys2Proof/Types/Layout.lean ====
section
/-!
DEFINITION. Layouts that the spec names and does not give: how the bytes of a section or a tile spell a descriptor. Each is
a constant without a body, so that a statement holds for every layout (log entry 9).
-/
namespace Sys2Proof.Config

open Sys2Proof.Machine

/-- Conditions, PRE and POST of engine `e` in a TRIG unit's request tile (R264, R270). -/
opaque decTrig : List Byte → Nat → List TrigCond × Nat × Nat

/-- The ROUTE section (R68). -/
opaque decRoutes : List Byte → List RouteRec

/-- The loops of a LOOP unit, from its descriptor tiles (R116). -/
opaque decLoops : List Byte → List LoopCfg

/-- The logic partitions of the PROG section (R145). -/
opaque decProg : List Byte → List PartCfg

/-- The axes of a PROFILE unit, from the MOTION section, the unit's number and its descriptor tiles (R36, R39, R176). -/
opaque decAxes : List Byte → Nat → List Byte → List AxisCfg

/-- The sequencers of a SEQUENCE unit, from its descriptor tiles (R201). -/
opaque decSeqs : List Byte → List SeqCfg

/-- The inputs of a COND unit, from its descriptor tiles (R74). -/
opaque decConds : List Byte → List CondIn

/-- The engines of a TRIG unit, from its descriptor tiles (R264). -/
opaque decEngines : List Byte → List EngCfg

/-- The schedules of the Holup segments, from the HOLSCH section (R292, R295). -/
opaque decHol : List Byte → List (Nat × HolSched)

/-- The flows that an event-driven unit holds a handler for, from its CONST tiles (R82, R45). -/
opaque decHandlers : List Byte → List Nat

/-- The gate lists that a Last gives the ports, by port number, from its image: R339 and R340 speak of them, and no section of R46 to R54 is named for
them (log entry 6). -/
opaque decGates : List Byte → List (Nat × GateRec)

/-- The RES references that the entries of a HOLSCH or CANSCH section carry, by segment or controller (R43). -/
opaque decRefs : List Byte → List (Nat × Nat)

/-- For ROUTE, HOLSCH, CANSCH, PROG, MOTION and RECIPE, whose layouts other chapters name and do not give: the LENGTH that header and
records give, and whether every field is in its range, every reference present and every reserved byte zero (R46). -/
opaque secLen : Nat → List Byte → Nat
opaque secFields : Nat → List Byte → Bool

/-- Which eighths of the SERVICE bank group are the two copy areas of 256 MiB (R58), and which 16 MiB of a class's bank group hold the
checkpoints of its tiles (R25, R35), by bank group. -/
opaque copyAreaAt : Nat → Nat
opaque ckptAt : Nat → Nat

/-- Which of several bank groups of one class holds the checkpoint of a cluster (R25). -/
opaque ckptGroup : Nat → Nat

/-- The matrices of the CAN controllers, from the CANSCH section (R326). -/
opaque decCan : List Byte → List (Nat × List CanWin)

/-- The register words that a HOLSCH or CANSCH section sets, by address (R292, R295, R315, R321, R326). -/
opaque decRegs : List Byte → List (Nat × Nat)

/-- The images of the RECIPE section, by device sequencer number (R208). -/
opaque decRecipes : List Byte → List (Nat × List Byte)

/-- A firmware image (R486): whether its form is right, whether its CRCs agree, its security version, where its signed part ends. -/
opaque fwForm : List Byte → Bool
opaque fwCrc : List Byte → Bool
opaque fwSvn : List Byte → Nat

/-- What the STATE tiles of a unit of a kind hold: a standby receives tiles as bytes (R389, R390). -/
opaque decSem : Nat → List Byte → UnitSem

/-- The bytes of a logical STATE tile of a unit of a kind that hold a content: what an exchange writes (R400). -/
opaque encSem : Nat → UnitSem → Nat → List Byte

/-- The force mirror of a LOGIC segment (R145, R167): the bytes of its tile for the objects of the segment that are forced, by signal. -/
opaque encMirror : Nat → List (Nat × Word) → List Byte

/-- NETCFG's bytes (R349): no layout is given. -/
opaque decNetcfg : List Byte → NetCfg

end Sys2Proof.Config
end

