-- ==== Sys2Proof/Machine/Egress.lean ====
section
/-!
DEFINITION. The egress side of the Ethernet ports: addresses and frames, gate lists, queues, the PRP trailer, and datagrams to clients, peers and
historians (R333, R335, R338 to R341, R348, R350).
-/
namespace Sys2Proof.Machine

def Dev.port (d : Dev) (n : Nat) : EthSt := Tbl.getD {} d.eth n
def Dev.setPort (n : Nat) (x : EthSt) (d : Dev) : Dev := { d with eth := Tbl.put n x d.eth }
def Dev.portUp (n : Nat) (f : EthSt → EthSt) (d : Dev) : Dev := d.setPort n (f (d.port n))
def Dev.ethOn (d : Dev) (n : Nat) : Bool := decide (n < d.nPorts) && d.flag R.ETH_CTRL_EN n
def Dev.ethOk (d : Dev) (n : Nat) : Bool := decide (n < d.nPorts)
def Dev.prp (d : Dev) (n : Nat) : Bool := d.flag R.ETH_PRP_CFG_PAIRMODE (n / 2 * 2)
def Dev.net (d : Dev) : NetCfg := Config.decNetcfg d.netApplied

/-- The IPv4 address of a pair: NETCFG's; link-local for pair 0 without one, none for pair 1 and up (R349). -/
def Dev.addr (d : Dev) (p : Nat) : Option Nat :=
  match (nth (none, none) d.net.pairs p).1 with
  | some (a, _, _) => some a
  | none => if p = 0 then some Config.linkLocal else none

/-! ### Bytes of frames -/

/-- Big-endian bytes and back. -/
def beBytes (n x : Nat) : List Byte := (leBytes n x).reverse
def be (bs : List Byte) (off n : Nat) : Nat := leNat (slice bs off n).reverse

/-- The MAC address of a port (R333). -/
def Dev.mac (d : Dev) (n : Nat) : Nat := if d.prp n then Config.macBase + n / 2 else Config.macBase + 4 + n

/-- Offset of the EtherType: behind an IEEE 802.1Q tag if there is one. -/
def etOff (b : List Byte) : Nat := if be b 12 2 = 0x8100 then 16 else 12
def etOf (b : List Byte) : Nat := be b (etOff b) 2
def vlanOf (b : List Byte) : Nat := if be b 12 2 = 0x8100 then be b 14 2 % 4096 else 0xFFFF
def payOf (b : List Byte) : List Byte := b.drop (etOff b + 2)

/-- One's-complement checksum of IPv4 and ICMP. -/
def ipSum : List Byte → Nat
  | a :: b :: t => a.toNat * 256 + b.toNat + ipSum t
  | [a] => a.toNat * 256
  | [] => 0
def ipCheck (b : List Byte) : Nat :=
  let s := ipSum b
  let s := s % 65536 + s / 65536
  0xFFFF - (s % 65536 + s / 65536) % 65536

/-- A frame's tag: PCP and VLAN ID. -/
def tagFrame (pcp vid : Nat) (b : List Byte) : List Byte := slice b 0 12 ++ beBytes 2 0x8100 ++ beBytes 2 (pcp * 8192 + vid % 4096) ++ b.drop 12

/-- An IPv4 datagram with DF set (R333). -/
def ipv4 (proto src dst : Nat) (body : List Byte) : List Byte :=
  let h (c : Nat) : List Byte := [0x45, 0] ++ beBytes 2 (20 + body.length) ++ [0, 0, 0x40, 0, 64, BitVec.ofNat 8 proto] ++
    beBytes 2 c ++ beBytes 4 src ++ beBytes 4 dst
  h (ipCheck (h 0)) ++ body

/-- A UDP datagram without checksum. -/
def udp (sport dport : Nat) (body : List Byte) : List Byte :=
  beBytes 2 sport ++ beBytes 2 dport ++ beBytes 2 (8 + body.length) ++ [0, 0] ++ body

/-- An Ethernet frame without tag. -/
def ethFrame (dst src typ : Nat) (body : List Byte) : List Byte :=
  beBytes 6 dst ++ beBytes 6 src ++ beBytes 2 typ ++ body ++ zeros (46 - body.length)

/-! ### Gates (R340, R341) -/

/-- The entries of an operating or administrative list: mask, interval in 10 ns. -/
def Dev.gateList (d : Dev) (n : Nat) (oper : Bool) : List (Nat × Nat) :=
  if oper then (List.range (d.rf R.ETH_GCL_CTL_NOPER n + 1)).map (fun i => (d.rf R.ETH_GCL_OPER_MASK n i, d.rf R.ETH_GCL_OPER_INTV n i))
  else (List.range (d.rf R.ETH_GCL_CTL_NADMIN n + 1)).map (fun i => (d.rf R.ETH_GCL_ADMIN_MASK n i, d.rf R.ETH_GCL_ADMIN_INTV n i))

/-- A list is sound (R340): cycle time and phase in range, intervals sum to the cycle time. -/
def GateRec.sound (g : GateRec) : Bool :=
  decide (1000 ≤ g.cyc) && decide (g.cyc ≤ 100000000) && decide (g.phase < g.cyc) && decide (0 < g.ents.length) && decide (g.ents.length ≤ 64) &&
    decide ((g.ents.map Prod.snd).sum = g.cyc)

/-- The list that a SWAP would put into operation, with the cycle time and phase of the registers. -/
def Dev.gateOk (d : Dev) (n : Nat) (l : List (Nat × Nat)) : Bool :=
  ({ cyc := d.rf R.ETH_GCL_CYC_CYC n, phase := d.rf R.ETH_GCL_PHASE_PHASE n, ents := l } : GateRec).sound

/-- Every entry that takes time has the queue's gate open. -/
def gateAlways (q : Nat) (l : List (Nat × Nat)) : Bool := l.any (fun e => decide (e.2 ≠ 0)) && l.all (fun e => decide (e.2 = 0) || bitAt e.1 q)

/-- Time for which a queue's gate stays open from a point of the cycle on, in ns; to the end of the list at most. -/
def openFor (q : Nat) : List (Nat × Nat) → Nat → Nat
  | [], _ => 0
  | (m, t) :: l, pos =>
    if t * 10 ≤ pos then openFor q l (pos - t * 10)
    else if bitAt m q then t * 10 - pos + openFor q l 0
    else 0

/-- How long a gate stays open now; none when it stays open without end. -/
def Dev.gateOpen (d : Dev) (n q : Nat) : Option Nat :=
  let l := d.gateList n true
  if !d.flag R.ETH_GCL_CTL_EN n || gateAlways q l then none
  else
    let cyc := max 1 ((d.port n).operCyc * 10)
    let pos := (((d.viewNs 0 : Int) - ((d.port n).operPhase * 10 : Nat)) % (cyc : Nat)).toNat
    some (openFor q (l ++ l) pos)

/-- The longest opening of a queue's gate in a list, in ns; none without end. -/
def gateMax (q : Nat) (l : List (Nat × Nat)) : Option Nat :=
  if gateAlways q l then none else some ((List.range l.length).foldl (fun a i => max a (openFor q (l.drop i ++ l) 0)) 0)

/-- A time on the wire, in tenths of a ns, lies within an opening. -/
def fitsOpen (w : Nat) : Option Nat → Bool
  | none => true
  | some t => decide (w ≤ t * 10)

/-- Time on the wire in tenths of a ns, preamble, check sequence and inter-frame gap included (R341). -/
def Dev.wireTime (d : Dev) (n len : Nat) : Nat := (8 + max 60 len + 4 + 12) * (if d.flag R.ETH_CFG_SPEED n then 8 else 80)

/-- A counter of 32 bits. -/
def cnt32 (n k : Nat) : Nat := satAdd 0xFFFFFFFF n k

/-- Frames longer than every opening of their gate are discarded and counted (R341). -/
def Dev.ethDrop (n : Nat) (d : Dev) : Dev :=
  if !d.flag R.ETH_GCL_CTL_EN n then d
  else
    let s := d.port n
    let (keep, out) := s.queues.partition (fun x => fitsOpen (d.wireTime n x.bytes.length) (gateMax x.queue (d.gateList n true)))
    d.setPort n { s with queues := keep, txErr := cnt32 s.txErr out.length }

/-- The first element with a property, between what stands before it and what follows. -/
def splitFirst {α : Type} (p : α → Bool) : List α → Option (List α × α × List α)
  | [] => none
  | x :: t => if p x then some ([], x, t) else (splitFirst p t).map (fun r => (x :: r.1, r.2))

/-- Serve the highest-numbered open queue whose first frame may start (R338, R341). -/
def Dev.ethKick (n : Nat) (d : Dev) : Dev :=
  let d := d.ethDrop n
  let s := d.port n
  if s.sending.isSome || !d.ethOn n || !d.flag R.ETH_STAT_LINK n then d
  else
    [7, 6, 5, 4, 3, 2, 1, 0].foldl (fun d q =>
      let s := d.port n
      if s.sending.isSome then d
      else match splitFirst (fun x => decide (x.queue = q)) s.queues with
        | none => d
        | some (a, x, b) =>
          if q < 4 ∧ d.flag R.ETH_CFG_PAUSE n ∧ d.time.cnt < s.pauseUntil then d
          else
            let o := d.gateOpen n q
            if fitsOpen (d.wireTime n x.bytes.length) o then d.setPort n { s with queues := a ++ b, sending := some x }
            else if o = some 0 ∨ x.held then d
            else d.setPort n { s with queues := a ++ { x with held := true } :: b, gateHold := cnt32 s.gateHold 1 }) d

/-- Enqueue a frame on one port; an older fill of the same cyclic frame is replaced (R342). -/
def Dev.ethPut (n : Nat) (x : EthTx) (d : Dev) : Dev :=
  if !d.ethOn n then d
  else
    let s := d.port n
    match splitFirst (fun y => x.cyc.isSome && decide (y.cyc = x.cyc)) s.queues with
    | some (a, _, b) => (d.setPort n { s with queues := a ++ b ++ [x], txRepl := cnt32 s.txRepl 1 }).ethKick n
    | none => (d.setPort n { s with queues := s.queues ++ [x] }).ethKick n

/-- The redundancy control trailer (R335). -/
def rct (lan seq : Nat) (b : List Byte) : List Byte :=
  let lsdu := b.length - etOff b - 2 + 6
  b ++ beBytes 2 seq ++ beBytes 2 (lan * 4096 + lsdu % 4096) ++ [0x88, 0xFB]

/-- Send a frame on a port, or on both ports of its PRP pair with one trailer sequence number (R335). -/
def Dev.ethSend (n queue : Nat) (cyc : Option Nat) (bytes : List Byte) (d : Dev) : Dev :=
  if d.prp n then
    let e := n / 2 * 2
    let seq := (d.port e).prpSeq
    let d := d.portUp e (fun s => { s with prpSeq := (s.prpSeq + 1) % 65536 })
    (d.ethPut e { queue := queue, bytes := rct 0xA seq bytes, cyc := cyc }).ethPut (e + 1)
      { queue := queue, bytes := rct 0xB seq bytes, cyc := cyc }
  else d.ethPut n { queue := queue, bytes := bytes, cyc := cyc }

/-- The management and PTP queues of a port (R339). -/
def Dev.mgmtQ (d : Dev) (n : Nat) : Nat := if d.lastState = lsEMPTY then 0 else nth 0 d.cfg.own.mgmtq n
def Dev.ptpQ (d : Dev) (n : Nat) : Nat := if d.lastState = lsEMPTY then 0 else nth 0 d.cfg.own.ptpq n

/-- The queue that PCPMAP gives a PCP. -/
def Dev.pcpQueue (d : Dev) (n v : Nat) : Nat := bitsOf (d.rf R.ETH_PCPMAP_MAP n) (3 * v) 3

/-- The queue of a frame for which no rule names one (R338): by its PCP, or queue 0 without a tag. Cyclic frames name theirs (R342), and so do
management, PTP and ACQUIRE traffic (R339; log entry 132). -/
def Dev.frameQueue (d : Dev) (n : Nat) (b : List Byte) : Nat := if be b 12 2 = 0x8100 then d.pcpQueue n (be b 14 2 / 8192) else 0

/-- The PCP under which a tagged frame of a named queue is in that queue by PCPMAP too; 0 where none is (log entry 132). -/
def Dev.queuePcp (d : Dev) (n q : Nat) : Nat := ((List.range 8).find? (fun v => decide (d.pcpQueue n v = q))).getD 0

/-- The ACQUIRE queue of a port that the Last names (R348, R350): the lowest of that class, or none. -/
def Dev.acqQ (d : Dev) (n : Nat) : Option Nat := (List.range 8).find? (fun q => decide (nth 0 d.cfg.own.qclass (8 * n + q) = 5))

/-! ### Datagrams to clients, peers and historians (R333, R339, R348 to R350) -/

/-- The next hop toward an address from a pair: the address itself inside the pair's subnet, else its gateway (RFC 791). -/
def Dev.nextHop (d : Dev) (p ip : Nat) : Nat :=
  match (nth (none, none) d.net.pairs p).1 with
  | some (a, m, gw) => if a &&& m = ip &&& m then ip else gw
  | none => ip

/-- A UDP datagram leaves a port in a queue, or in the one that R338 gives it, with the VLAN tag of the pair's management traffic or none. -/
def Dev.udpOut (n : Nat) (queue : Option Nat) (mgmt : Bool) (ip sport dport : Nat) (body : List Byte) (d : Dev) : Dev :=
  let b := ethFrame (Config.neighbour (d.nextHop (n / 2) ip)) (d.mac n) 0x0800 (ipv4 17 ((d.addr (n / 2)).getD 0) ip (udp sport dport body))
  let b := match (if mgmt then (nth (none, none) d.net.pairs (n / 2)).2 else none) with
    | some v => tagFrame (match queue with | some q => d.queuePcp n q | none => 0) v b
    | none => b
  d.ethSend n (match queue with | some q => q | none => d.frameQueue n b) none b

/-- A message leaves over an Eyelet session in a DTLS record (R345, R346). -/
def Dev.sessSend (i : Nat) (queue : Nat → Option Nat) (msg : List Nat) (pay : List Byte) (d : Dev) : Dev :=
  match Tbl.get? d.sessions i with
  | none => d
  | some x =>
    let d := { d with sessions := Tbl.put i { x with recs := x.recs + 1 } d.sessions }
    d.udpOut x.port (queue x.port) true x.ip d.net.eylPort x.udp (Config.dtlsRecord i x.recs msg pay)

/-- An Eyelet response leaves in the management queue (R339, R346). -/
def Dev.tell (i seq status : Nat) (pay : List Byte) (d : Dev) : Dev :=
  (d.emit (.eyelet i seq status pay)).sessSend i (fun n => some (d.mgmtQ n)) [1, seq, status] pay

/-- A group message leaves over the peer sessions in an ACQUIRE queue (R348). -/
def Dev.tellPeers (msg : List Nat) (d : Dev) : Dev :=
  (d.sessions.filter (fun e => e.2.peer)).foldl (fun d e => d.sessSend e.1 d.acqQ (3 :: msg) []) d

/-- The port toward an address: of the first pair whose subnet holds it, else of the first with a gateway; the even port unless only the odd one is
enabled (log entry 131). -/
def Dev.routePort (d : Dev) (ip : Nat) : Nat :=
  let ps := List.range (d.nPorts / 2)
  let at_ (f : Nat → Nat → Nat → Bool) : Option Nat := ps.find? (fun p => match (nth (none, none) d.net.pairs p).1 with | some (a, m, g) => f a m g | none => false)
  let p := match at_ (fun a m _ => decide (a &&& m = ip &&& m)) with
    | some p => p
    | none => match at_ (fun _ _ g => decide (g ≠ 0)) with | some p => p | none => 0
  if !d.prp (2 * p) && !d.ethOn (2 * p) && d.ethOn (2 * p + 1) then 2 * p + 1 else 2 * p

/-- The historians of the Last: address and UDP port (R51). -/
def Dev.historians (d : Dev) : List (Nat × Nat) :=
  d.cfg.io.foldl (fun a e => match e.body with | .global _ _ _ n _ hs _ _ _ _ => hs.take n | _ => a) []

/-- A datagram of the history stream to every historian, from port 47 361, in an ACQUIRE queue (R350). -/
def Dev.histSend (bs : List Byte) (d : Dev) : Dev :=
  d.historians.foldl (fun d h => (List.range d.nPorts).foldl (fun d n =>
    if d.ethOn n && decide (d.routePort h.1 = n) then d.udpOut n (d.acqQ n) false h.1 47361 h.2 bs else d) d) d

end Sys2Proof.Machine
end

