-- ==== Sys2Proof/Machine/Session.lean ====
section
/-!
DEFINITION. The envelope of Eyelet requests and their answers (R345 to R347, R373, R374).
-/
namespace Sys2Proof.Machine

/-! ### Eyelet (R345 to R347, R373, R374) -/

def eyOK : Nat := 0
def eyCONTINUE : Nat := 1
def eyMALFORMED : Nat := 2
def eySTALE : Nat := 3
def eyUNKNOWN : Nat := 4
def eyDENIED : Nat := 5
def eyBAD_ADDR : Nat := 6
def eyABSENT : Nat := 7
def eyIGNORED : Nat := 8
def eyREJECTED : Nat := 9
def eyBUSY : Nat := 10
def eyREFUSED : Nat := 11

/-- Privileges, in rising order (R373). -/
def pvVIEW : Nat := 0
def pvOPERATE : Nat := 1
def pvENGINEER : Nat := 2
def pvOWNER : Nat := 3
def pvMAKER : Nat := 4

/-- Insert an answer in SEQ order. -/
def insertResp (r : KeptResp) : List KeptResp → List KeptResp
  | [] => [r]
  | x :: t => if r.seq < x.seq then r :: x :: t else x :: insertResp r t

/-- Answer a request: the answer is kept among the session's last 64 and sent once every request of lower SEQ is answered (R347). -/
def Dev.respond (sess seq status : Nat) (payload : List Byte) (d : Dev) : Dev :=
  match Tbl.get? d.sessions sess with
  | none => d
  | some x =>
    let r : KeptResp := { seq := seq, status := status, payload := payload }
    let kept := x.kept ++ [r]
    let prog := x.inProg.filter (· ≠ seq)
    let all := insertResp r x.held
    let free (r : KeptResp) : Bool := prog.all (fun p => decide (r.seq < p))
    let y : Session := { x with kept := kept.drop (kept.length - 64), inProg := prog, held := all.filter (fun r => !free r), last := d.time.cnt }
    (all.filter free).foldl (fun d r => d.tell sess r.seq r.status r.payload) { d with sessions := Tbl.put sess y d.sessions }

def Dev.answer (q : Req) (status : Nat) (payload : List Byte) (d : Dev) : Dev := d.respond q.sess q.seq status payload

/-- Answer a request that was taken earlier, if one waits. -/
def Dev.answerOwed (o : Option (Nat × Nat)) (status : Nat) (payload : List Byte) (d : Dev) : Dev :=
  match o with
  | some (a, b) => d.respond a b status payload
  | none => d

/-- What the envelope of a request decides before its command runs (R346, R347, R373): no open session, a kept answer,
STALE, a request already in progress, DENIED; otherwise the command runs. -/
inductive Envelope where
  | dead
  | again (r : KeptResp)
  | stale
  | busy
  | denied
  | go
deriving DecidableEq, Repr

def Dev.envelope (d : Dev) (q : Req) (priv : Nat) : Envelope :=
  match Tbl.get? d.sessions q.sess with
  | none => .dead
  | some x =>
    match x.kept.find? (fun r => r.seq = q.seq) with
    | some r => .again r
    | none =>
      if x.kept.length = 64 ∧ x.kept.all (fun r => q.seq < r.seq) then .stale
      else if x.inProg.contains q.seq then .busy
      else if x.priv < priv then .denied
      else .go

/-- Note that a request was taken and is not answered yet. -/
def Dev.taken (q : Req) (d : Dev) : Dev :=
  let f (x : Session) : Session := { x with inProg := x.inProg ++ [q.seq], last := d.time.cnt }
  { d with sessions := Tbl.upd { priv := 0 } q.sess f d.sessions }

/-- Run an Eyelet request through its envelope. -/
def State.eyelet (s : State) (q : Req) (priv : Nat) (f : State → Res) : Res :=
  match s.dev.envelope q priv with
  | .dead => .next s
  | .again r => s.on (Dev.tell q.sess r.seq r.status r.payload)
  | .stale => s.on (Dev.tell q.sess q.seq eySTALE [])
  | .busy => .next s
  | .denied => s.on (fun d => d.answer q eyDENIED [])
  | .go => f s

/-- The parts of a message received so far under an operation. -/
def Dev.parts (d : Dev) (sess op : Nat) : List Byte :=
  match Tbl.get? d.sessions sess with
  | none => []
  | some x => (x.parts.filter (fun p => p.1 = op)).foldl (fun a p => a ++ p.2) []

/-- Put the parts of an operation away. -/
def Dev.setParts (sess op : Nat) (bs : List Byte) (d : Dev) : Dev :=
  let f (x : Session) : Session :=
    { x with parts := x.parts.filter (fun p => p.1 ≠ op) ++ (if bs.isEmpty then [] else [(op, bs)]) }
  { d with sessions := Tbl.upd { priv := 0 } sess f d.sessions }

/-- An image command: a part with MORE is acknowledged with CONTINUE and kept, the final part runs the command on the
whole image (R346). -/
def State.eyeletImg (s : State) (q : Req) (op priv : Nat) (img : List Byte) (f : List Byte → State → Res) : Res :=
  s.eyelet q priv (fun s =>
    let whole := s.dev.parts q.sess op ++ img
    if q.more then s.on (fun d => (d.setParts q.sess op whole).answer q eyCONTINUE [])
    else f whole { s with dev := s.dev.setParts q.sess op [] })

end Sys2Proof.Machine
end

