-- ==== Sys2Proof/Machine/Io.lean ====
section
/-!
DEFINITION. Local outputs and digital pins (R247 to R262, R512), step generators and choppers (R191 to R197).

Outputs are keyed by 4096·kind + index: kind 0 digital pin, 1 analogue output, 2 PWM channel.
-/
namespace Sys2Proof.Machine

/-- The output or input an IOMAP entry maps, and its signal (R51). -/
def IoBody.outKey : IoBody → Option (Nat × Nat)
  | .dio pin _ sig => some (pin, sig)
  | .aout ch _ sig => some (4096 + ch, sig)
  | .pwm ch _ _ _ sig => some (8192 + ch, sig)
  | _ => none

/-- The signal that an entry maps, and those of its fields. -/
def IoBody.sigs : IoBody → List Nat
  | .ain _ _ _ _ _ s => [s]
  | .aout _ _ s => [s]
  | .dio _ _ s => [s]
  | .pwm _ _ _ _ s => [s]
  | .safeLreq _ s => [s]
  | .ethTx _ _ _ _ _ _ fs => fs.map (·.sig)
  | .ethRx _ _ _ _ _ _ _ _ _ fs => fs.map (·.sig)
  | .holField _ _ _ fs => fs.map (·.sig)
  | .canField _ _ _ fs => fs.map (·.sig)
  | _ => []

/-- The writer class SERVICE (R166). -/
def wcSERVICE : Nat := 7

/-- The IOMAP entry of an output. -/
def Dev.outEnt (d : Dev) (key : Nat) : Option IoEntry :=
  d.cfg.io.find? (fun e => e.body.outKey.map Prod.fst = some key)

/-- A writer class (`SYS.FRC_ID.WCLASS`) belongs to an activity class (`CLUS.OWN.CLASS`): the units of a kind lie in clusters of one
class, COND units in any cluster but RECIPE's (R14, R24; log entry 80). -/
def ownerIn (owner cls : Nat) : Bool :=
  match owner with
  | 1 => cls = 1
  | 2 => cls = 2
  | 3 => cls = 3
  | 4 => cls = 4
  | 5 => cls = 5
  | 6 => cls = 1 || cls = 2 || cls = 3 || cls = 5 || cls = 6
  | 7 => cls = 7
  | _ => false

/-! ### Configuration in force (R512) -/

/-- A block's `CTRL.EN` changes. While it is clear the words that were in force when it cleared stay in force. -/
def Dev.setEn (b : Blk) (on : Bool) (d : Dev) : Dev :=
  let a := b.base
  let was := bitAt (d.rw a) 0
  let held := d.regs.filter (fun e => decide (a ≤ e.1) && decide (e.1 < a + 0x10000))
  let d : Dev := if on then { d with ioHeld := Tbl.del a d.ioHeld } else if was then { d with ioHeld := Tbl.put a held d.ioHeld } else d
  d.ww a (setBits (d.rw a) 0 1 (b2n on))

/-- A configuration field of the AOUT, DIO or PWM block as it is in force: the register's while EN is set; else as it was when EN cleared, its reset
value after a power-on or system reset. -/
def Dev.inForce (d : Dev) (f : F) (i : Nat) : Nat :=
  let a := f.addr 0 i 0
  if bitAt (d.rw f.blk.base) 0 then d.rf f 0 i else bitsOf (Tbl.getD (rstOf a) (Tbl.getD [] d.ioHeld f.blk.base) a) f.lo f.w

/-- A mapped pin that is an output (R249). -/
def Dev.isOut (d : Dev) (key : Nat) : Bool := decide (4096 ≤ key) || inR 1 (d.inForce R.DIO_PINn_CFG_DIRM key) 2

/-- The output is program-owned (R257). -/
def Dev.progOwned (d : Dev) (key : Nat) : Bool :=
  d.isOut key && (match d.outEnt key with | some e => decide (e.owner ≠ wcSERVICE) | none => false)

/-- The output is SERVICE-owned (R257). -/
def Dev.svcOwned (d : Dev) (key : Nat) : Bool :=
  d.isOut key && (match d.outEnt key with | some e => decide (e.owner = wcSERVICE) | none => false)

/-- The block of an output is enabled (R512). -/
def Dev.outEn (d : Dev) (key : Nat) : Bool :=
  if key < 4096 then d.flag R.DIO_CTRL_EN else if key < 8192 then d.flag R.AOUT_CTRL_EN else d.flag R.PWM_CTRL_EN

def Dev.outSt (d : Dev) (key : Nat) : OutSt := Tbl.getD {} d.outs key
def Dev.setOut (key : Nat) (o : OutSt) (d : Dev) : Dev := { d with outs := Tbl.put key o d.outs }

/-! ### Latching (R247, R256 to R259) -/

/-- The code of a latched value and whether it saturated (R247). -/
def aoutCode (range : Nat) (x : Word) : Nat × Bool :=
  if range < 2 then
    let c := roundDiv (sW x) 4096
    let k := clampI (-(2 ^ 19)) (2 ^ 19 - 1) c
    (ofS 20 k, decide (k ≠ c))
  else
    let u := roundDiv (sW x) 2048
    let k := clampI 0 (2 ^ 20 - 1) u
    (k.toNat, decide (k ≠ u))

/-- The high time of a latched value (R256). -/
def pwmHigh (per : Nat) (x : Word) : Nat :=
  let h := (roundDiv ((if sW x < 0 then 0 else sW x) * per) (2 ^ 31)).toNat
  if h < 2 then 0 else if per < h + 2 then per else h

/-- What a latch holds from this tick on: a value, and whether it is a safe one (`shows` 2). -/
def Dev.setLatch (key : Nat) (w : Word) (shows : Nat) (d : Dev) : Dev :=
  let o := d.outSt key
  let o := if o.ltick = some d.time.cnt then o else { o with was := o.val, wasShows := o.shows, ltick := some d.time.cnt }
  d.setOut key { o with val := w, shows := shows, old := false }

/-- What a latch held in a tick that lies no further back than its last latch: value and `shows`. -/
def Dev.latchAt (d : Dev) (key t : Nat) : Word × Nat :=
  let o := d.outSt key
  if o.ltick.any (fun l => decide (t < l)) then (o.was, o.wasShows) else (o.val, o.shows)

/-- An output's latch takes a value. -/
def Dev.latchVal (key : Nat) (w : Word) (d : Dev) : Dev :=
  let d := d.setLatch key w 1
  if key < 4096 ∨ 8192 ≤ key then d
  else
    let n := key - 4096
    let c := aoutCode (d.inForce R.AOUT_CHn_CFG_RANGE n) w
    let d := (d.wf R.AOUT_CHn_CODE_CODE c.1 0 n).wb R.AOUT_CHn_STAT_DISC (!d.flag R.PWR_SUPPLY_VDDA_OK) 0 n
    if c.2 then d.wf R.AOUT_CHn_STAT_SAT 1 0 n else d

/-- An output's latch takes its safe value (R258). A disconnected analogue output shows code 0. -/
def Dev.latchSafe (key : Nat) (d : Dev) : Dev :=
  if key < 4096 then
    d.setLatch key (BitVec.ofNat 32 (d.inForce R.DIO_PINn_CFG_SAFE key)) 2
  else if key < 8192 then
    let n := key - 4096
    let d := d.setLatch key 0 2
    if d.inForce R.AOUT_CHn_CFG_SAFEZ n = 1 then (d.wf R.AOUT_CHn_CODE_CODE 0 0 n).wf R.AOUT_CHn_STAT_DISC 1 0 n
    else (d.wf R.AOUT_CHn_CODE_CODE (d.rf R.AOUT_CHn_CFG_SAFE 0 n) 0 n).wb R.AOUT_CHn_STAT_DISC
      (!d.flag R.PWR_SUPPLY_VDDA_OK) 0 n
  else d.setLatch key 0 2

/-- The high time that a carrier start in this tick takes: that of the value latched before the tick, or the safe H of IOMAP (R256, R258). -/
def Dev.pwmWant (d : Dev) (n : Nat) : Nat :=
  let o := d.latchAt (8192 + n) (d.time.cnt - 1)
  if o.2 = 1 then pwmHigh (d.inForce R.PWM_CHn_PER_PER n) o.1
  else if o.2 = 2 ∧ d.inForce R.PWM_CHn_CFG_SAFELOW n = 0 then
    match d.outEnt (8192 + n) with
    | some { body := .pwm _ _ _ h _, .. } => h
    | _ => 0
  else 0

/-- The latch of an output at a boundary of its cadence: the forced value, else the safe value, else the latest staged or
written value (R167, R257, R259); nothing while its block is disabled (R512). -/
def Dev.latchOut (key sig : Nat) (d : Dev) : Dev :=
  if !d.outEn key || !d.isOut key then d
  else match d.forceOf sig with
    | some w => d.latchVal key w
    | none =>
      let o := d.outSt key
      if o.toSafe then d.latchSafe key
      else match o.wait with
        | some w => d.latchVal key w
        | none => d

/-- VDDA comes or goes: the analogue outputs are disconnected while it is not good (R497). -/
def Dev.aoutVdda (good : Bool) (d : Dev) : Dev :=
  (List.range d.nAout).foldl (fun d n =>
    let o := d.outSt (4096 + n)
    let off := decide (o.shows = 0) || (decide (o.shows = 2) && decide (d.inForce R.AOUT_CHn_CFG_SAFEZ n = 1))
    d.wb R.AOUT_CHn_STAT_DISC (!good || off) 0 n) d

/-- Every output of a cadence latches (R110 step 1). -/
def Dev.latchCad (c : Nat) (d : Dev) : Dev :=
  d.cfg.io.foldl (fun d e => match e.body.outKey with
    | some (key, sig) => if e.cad = some c then d.latchOut key sig else d
    | none => d) d

/-- Outputs for which `p` holds take their safe values at the next boundary (R160, R163, R259). -/
def Dev.wantSafe (p : IoEntry → Bool) (d : Dev) : Dev :=
  d.cfg.io.foldl (fun d e => match e.body.outKey with
    | some (key, _) => if p e then d.setOut key { d.outSt key with toSafe := true, wait := none } else d
    | none => d) d

/-- Outputs take their safe values in this tick, a forced output keeps its forced value (R108, R259, R463). -/
def Dev.safeNow (p : IoEntry → Bool) (d : Dev) : Dev :=
  d.cfg.io.foldl (fun d e => match e.body.outKey with
    | some (key, sig) =>
      if p e && d.isOut key then
        let d := d.setOut key { d.outSt key with toSafe := true, wait := none }
        if d.outEn key && (d.forceOf sig).isNone then d.latchSafe key else d
      else d
    | none => d) d

/-- A value that unit `u` has staged waits for the next boundary of every program-owned output that names the signal and whose owner's class is the
unit's (R257). -/
def Dev.stageOut (u sig : Nat) (w : Word) (d : Dev) : Dev :=
  d.cfg.io.foldl (fun d e => match e.body.outKey with
    | some (key, g) =>
      if decide (g = sig) && decide (e.owner ≠ wcSERVICE) && ownerIn e.owner (nth 0 d.cfg.own.clClass (u / 16)) && d.isOut key then
        d.setOut key { d.outSt key with wait := some w, toSafe := false }
      else d
    | none => d) d

/-- A written value of a SERVICE-owned output waits for the next boundary (R257). One that holds its safe value while the Last is stopped keeps it
(R259): the value waits for the Last to run. -/
def Dev.svcOut (key : Nat) (w : Word) (d : Dev) : Dev :=
  d.setOut key { d.outSt key with wait := some w, toSafe := (d.outSt key).toSafe && decide (d.lastState = lsSTOPPED) }

/-- The Last runs again: a value written to a SERVICE-owned output while it was stopped waits for the next boundary (R257, R259). -/
def Dev.outsRun (d : Dev) : Dev :=
  { d with outs := Tbl.mapVals (fun _ o => { o with toSafe := o.toSafe && o.wait.isNone }) d.outs }

/-- No channel drives a phase: the present codes are 0 (R197). -/
def Dev.chopsDark (d : Dev) : Dev :=
  (List.range 32).foldl (fun d c => (d.wf R.CHOP_CH_STAT_DAC_A 0 0 c).wf R.CHOP_CH_STAT_DAC_B 0 0 c) d

/-- Outputs, carriers, generators, choppers and pins fall to their power-on state (R258, R259). -/
def Dev.outsPowerOn (d : Dev) : Dev :=
  let clearA (d : Dev) (n : Nat) : Dev :=
    ((d.wf R.AOUT_CHn_CODE_CODE 0 0 n).wf R.AOUT_CHn_STAT_DISC 1 0 n)
  let d := (List.range 64).foldl clearA d
  let d := (List.range 32).foldl (fun d n => d.wf R.PWM_CHn_STAT_H 0 0 n) d
  { d.chopsDark with outs := [], steps := [], chops := [], ioHeld := [], carriers := [] }

/-! ### Writes of output words (R257) -/

/-- The level a pin's latch holds (R257). -/
def Dev.pinLatch (d : Dev) (n : Nat) : Bool :=
  let o := d.outSt n
  o.shows ≠ 0 && o.val = 1 || o.shows = 1 && o.val ≠ 0

/-- The word of the latches of a group of pins. -/
def Dev.outWord (d : Dev) (g : Nat) : Nat :=
  (List.range 32).foldl (fun a i => a + b2n (d.pinLatch (32 * g + i)) * 2 ^ i) 0

/-- A write of `DIO.OUTg`, alias 0 base, 1 SET, 2 CLR, 3 TGL: judged as one word (R257). -/
def Dev.dioOutWrite (g al w : Nat) (d : Dev) : Dev × Nat :=
  let old := d.outWord g
  let new (i : Nat) : Bool :=
    if al = 0 then bitAt w i else if bitAt w i then decide (al = 1) || (decide (al = 3) && !bitAt old i) else bitAt old i
  if (List.range 32).any (fun i => d.progOwned (32 * g + i) && decide (new i ≠ bitAt old i)) then
    (d.wf R.DIO_STAT_REJ 1, eyREJECTED)
  else
    ((List.range 32).foldl (fun d i =>
      if d.svcOwned (32 * g + i) && (al = 0 || bitAt w i) then
        d.svcOut (32 * g + i) (BitVec.ofNat 32 (b2n (new i)))
      else d) d, eyOK)

/-- A write of `AOUT.CHn_SET` (R257). -/
def Dev.aoutSetWrite (n : Nat) (w : Word) (d : Dev) : Dev × Nat :=
  if d.progOwned (4096 + n) then (d.wf R.AOUT_STAT_REJ 1, eyREJECTED)
  else
    let d := d.wf R.AOUT_CHn_SET_SET w.toNat 0 n
    (if d.svcOwned (4096 + n) then d.svcOut (4096 + n) w else d, eyOK)

/-- A write of `PWM.CHn_SET` (R257). -/
def Dev.pwmSetWrite (n : Nat) (w : Word) (d : Dev) : Dev × Nat :=
  if d.progOwned (8192 + n) then (d.wf R.PWM_STAT_REJ 1, eyREJECTED)
  else
    let d := d.wf R.PWM_CHn_SET_SET w.toNat 0 n
    (if d.svcOwned (8192 + n) then d.svcOut (8192 + n) w else d, eyOK)

/-- AOUT_CHECK (R248): a voltage range in current limit sets OVLD, a current range out of compliance sets OPEN; each entry
raises AOUT_FAULT. -/
def Dev.aoutCheck (n : Nat) (ovld opn : Bool) (d : Dev) : Dev :=
  let cur := decide (d.inForce R.AOUT_CHn_CFG_RANGE n = 3)
  let isO := ovld && !cur
  let isP := opn && cur
  let o := d.outSt (4096 + n)
  let d := d.setOut (4096 + n) { o with ovld := isO, opn := isP }
  let d := if isO then d.wf R.AOUT_CHn_STAT_OVLD 1 0 n else d
  let d := if isP then d.wf R.AOUT_CHn_STAT_OPEN 1 0 n else d
  let d := if isO && !o.ovld then d.raise Ev.AOUT_FAULT 0 [] else d
  if isP && !o.opn then d.raise Ev.AOUT_FAULT 0 [] else d

def execAoutCheck (n : Nat) (ovld opn : Bool) (s : State) : Res :=
  s.guarded (decide (n < s.dev.nAout)) (Dev.aoutCheck n ovld opn)

/-- PWM_CARRIER_START (R256): the channel takes the high time latched last before this tick. -/
def Dev.carrierStart (n : Nat) (d : Dev) : Dev :=
  if d.inForce R.PWM_CHn_CFG_EN n = 1 then
    { d.wf R.PWM_CHn_STAT_H (d.pwmWant n) 0 n with carriers := Tbl.put n d.time.cnt d.carriers }
  else d

def execPwmCarrierStart (n : Nat) (s : State) : Res := s.guarded (decide (n < 32)) (Dev.carrierStart n)

/-- SYNC: a boundary of the named cadence is a carrier start (R256). -/
def Dev.pwmSync (c : Nat) (d : Dev) : Dev :=
  (List.range 32).foldl (fun d n =>
    if decide (d.inForce R.PWM_CHn_CFG_SYNC n = 1) && decide (d.inForce R.PWM_CHn_CFG_CAD n = c) then d.carrierStart n else d) d

/-- The level of a PWM channel in a tick of its present carrier period (R256): the pulse starts with the carrier, or is centred in the period.
Open with SPREAD, whose period is not fixed. -/
def Dev.pwmLevel (d : Dev) (n t : Nat) : Option Bool :=
  let h := d.rf R.PWM_CHn_STAT_H 0 n
  let per := d.inForce R.PWM_CHn_PER_PER n
  if h = 0 then some false
  else if per ≤ h then some true
  else match Tbl.get? d.carriers n with
    | some c =>
      if d.inForce R.PWM_CHn_CFG_SPREAD n = 1 ∨ t < c then none
      else
        let lead := if d.inForce R.PWM_CHn_CFG_ALIGN n = 1 then (per - h) * 5 / 2 else 0
        some (decide (lead ≤ t - c) && decide (t - c < lead + h * 5))
    | none => none

/-! ### Pads (R249) -/

/-- The generator that drives a pin: a PWM channel that is enabled (R256, R258), or a step generator, none within. -/
def Dev.pinGen (d : Dev) (n : Nat) : Option (Option Nat) :=
  match d.cfg.io.find? (fun e => match e.body with
    | .pwm c _ _ _ _ => decide (d.inForce R.PWM_CHn_CFG_PIN c = n) && decide (d.inForce R.PWM_CHn_CFG_EN c = 1)
    | .stepgen g _ => decide (d.inForce R.DIO_SGn_CFG_STEP g = n) || decide (d.inForce R.DIO_SGn_CFG_DIR g = n)
    | _ => false) with
  | some { body := .pwm c _ _ _ _, .. } => some (some c)
  | some _ => some none
  | none => none

/-- The level that the device drives on a pin's pad in a tick (R249): its generator's, which makes the pin's own latch ignored; else the latch's.
None where nothing of the device fixes it: an input, high-Z, a released open drain, a step generator, a bank without its supply. -/
def Dev.padAt (d : Dev) (n t : Nat) : Option Bool :=
  if !bitAt (d.rf R.PWR_SUPPLY_VDDIO_OK) (n / 24) then none
  else match d.pinGen n with
    | some (some c) => d.pwmLevel c t
    | some none => none
    | none =>
      let l := d.latchAt n t
      if !d.isOut n || l.2 = 0 || (l.2 = 2 && l.1 ≥ 2) then none
      else if l.1 = 0 then some false
      else if d.inForce R.DIO_PINn_CFG_DIRM n = 1 then some true else none

/-- A raw sample of this tick may show a level (R249, R500): the pad carried it in one of the 13 ticks before, the delay to the first raw sample at
EDGE 0; at any time where the delay is not given (log entry 125). -/
def Dev.rawMay (d : Dev) (n : Nat) (lvl : Bool) : Bool :=
  d.inForce R.DIO_PINn_CFG_EDGE n ≠ 0 || (List.range 13).any (fun i => (d.padAt n (d.time.cnt - 1 - i)).all (fun l => l == lvl))

/-! ### Digital inputs (R250 to R254) -/

def Dev.pin (d : Dev) (n : Nat) : PinSt := Tbl.getD {} d.pins n
def Dev.setPin (n : Nat) (p : PinSt) (d : Dev) : Dev := { d with pins := Tbl.put n p d.pins }

/-- DIO_RAW_EDGE (R250): the raw level departs from the filtered level; the run's first tick is t_e. An output pin's raw level is its pad's (R249). -/
def Dev.rawEdge (n : Nat) (d : Dev) : Dev :=
  let p := d.pin n
  if p.run.isSome || !d.rawMay n (!p.lvl) then d else d.setPin n { p with run := some (d.time.cnt, d.viewNs 0, d.viewFrac 0) }

def execDioRawEdge (pin : Nat) (s : State) : Res := s.guarded (decide (pin < 192)) (Dev.rawEdge pin)

/-- The asserted level of a pin is high (R251). -/
def Dev.assertHigh (d : Dev) (n : Nat) : Bool := decide (d.inForce R.DIO_PINn_CFG_POL n = 0)

/-- T_f of a pin's filter in 2 ns ticks; zero where it is bypassed (R250). -/
def Dev.filterTicks (d : Dev) (n : Nat) : Nat :=
  let fm := d.inForce R.DIO_PINn_CFG_FM n
  let fe := d.inForce R.DIO_PINn_CFG_FE n
  if fm = 0 ∧ fe = 0 ∧ d.inForce R.DIO_PINn_CFG_FILT_OFF n = 1 then 0 else (fm + 1) * 5 * 10 ^ fe

/-- A raw run has lasted T_f (R250). -/
def Dev.runPassed (d : Dev) (n : Nat) : Bool := (d.pin n).run.any (fun r => decide (r.1 + d.filterTicks n ≤ d.time.cnt))

/-- DIO_FILTERED_TRANSITION (R250 to R253) of a run that has lasted T_f: the level changes, the count follows CNT, an armed event asserts with the view 0
time of t_e and 12 bytes of count, level and CHATTER. -/
def Dev.filtered (n : Nat) (d : Dev) : Dev :=
  let p := d.pin n
  match p.run with
  | none => d
  | some (_, ns, frac) =>
    let lvl := !p.lvl
    let asserted := decide (lvl = d.assertHigh n)
    let cnt := d.inForce R.DIO_PINn_CFG_CNT n
    let counts := (asserted && (cnt = 1 || cnt = 3)) || (!asserted && (cnt = 2 || cnt = 3))
    let d := if counts then d.count R.DIO_CNTn_COUNT 1 0 n else d
    let fire := asserted && p.armed && decide (d.inForce R.DIO_PINn_CFG_EVT n = 1)
    let d := d.setPin n { lvl := lvl, te := some (ns, frac), run := none, rej := 0, armed := !asserted,
                          edge := if counts then some d.time.cnt else p.edge }
    if fire then
      d.assertAt n ns frac (leBytes 4 (d.rf R.DIO_CNTn_COUNT 0 n) ++
        [BitVec.ofNat 8 (b2n lvl), BitVec.ofNat 8 (b2n (bitAt (d.rf R.DIO_CHATg_CHAT 0 (n / 32)) (n % 32)))])
    else d

def execDioFilteredTransition (pin : Nat) (s : State) : Res :=
  s.guarded (decide (pin < 192)) (Dev.when_ (s.dev.runPassed pin) (Dev.filtered pin))

/-- DIO_REJECTED_PULSE (R250, R253): a run that ends before T_f. -/
def Dev.rejected (n : Nat) (d : Dev) : Dev :=
  let p := d.pin n
  match p.run with
  | none => d
  | some _ =>
    let lim := d.inForce R.DIO_PINn_CFG_CHAT_LIM n
    if lim ≠ 0 ∧ lim ≤ p.rej + 1 then
      let d := d.setPin n { p with run := none, rej := 0 }
      (d.wf R.DIO_CHATg_CHAT (setBits (d.rf R.DIO_CHATg_CHAT 0 (n / 32)) (n % 32) 1 1) 0 (n / 32)).raise Ev.DIO_CHATTER 0 []
    else d.setPin n { p with run := none, rej := satAdd 255 p.rej 1 }

def execDioRejectedPulse (pin : Nat) (s : State) : Res :=
  s.guarded (decide (pin < 192)) (Dev.when_ (!s.dev.runPassed pin && s.dev.rawMay pin (s.dev.pin pin).lvl) (Dev.rejected pin))

/-- A write of a pin's counter (R252): an edge of the same tick counts after it. -/
def Dev.cntWrite (pin : Nat) (w : Word) (d : Dev) : Dev :=
  d.wf R.DIO_CNTn_COUNT (w.toNat + b2n (decide ((d.pin pin).edge = some d.time.cnt))) 0 pin

/-- DIO_CNT_WRITE (R252). -/
def execDioCntWrite (pin : Nat) (w : Word) (s : State) : Res := s.guarded (decide (pin < 192)) (Dev.cntWrite pin w)

/-- The word of a digital input group (R254). -/
def Dev.inWord (d : Dev) (g : Nat) : Nat :=
  (List.range 32).foldl (fun a i =>
    a + b2n ((d.pin (32 * g + i)).lvl != decide (d.inForce R.DIO_PINn_CFG_INV (32 * g + i) = 1)) * 2 ^ i) 0

/-! ### Step generators (R191) -/

def Dev.step (d : Dev) (g : Nat) : StepSt := Tbl.getD {} d.steps g

/-- A setpoint latched at a boundary: the steps of the period, at most `nmax`, and the backlog; above 65 535 the backlog
is discarded and the axis faults. -/
def StepSt.latch (s : StepSt) (pos : Int) (nmax : Nat) : StepSt × Bool :=
  let delta := pos - s.target + s.backlog
  let n := min delta.natAbs nmax
  let rest := delta - sgnI delta * n
  let big := decide (65535 < rest.natAbs)
  ({ left := n, down := if delta = 0 then s.down else decide (delta < 0), target := pos,
     backlog := if big then 0 else rest, bigLag := s.bigLag || big }, decide (rest ≠ 0))

/-- The largest count of steps in a period of `p` nanoseconds (R191). -/
def Dev.stepMax (d : Dev) (g p : Nat) : Nat :=
  (p - (d.inForce R.DIO_SGn_CFG_TDIR g + 1) * 100) / (2 * ((d.inForce R.DIO_SGn_CFG_TPW g + 1) * 100))

/-- A step generator latches its axis' setpoint for the next period. -/
def Dev.stepLatch (g p : Nat) (pos : Int) (d : Dev) : Dev :=
  let r := (d.step g).latch pos (d.stepMax g p)
  let d := { d with steps := Tbl.put g r.1 d.steps }
  let d := d.wf R.DIO_SGn_STAT_BACKLOG (min r.1.backlog.natAbs 65535) 0 g
  if r.2 then d.wf R.DIO_SGn_STAT_STEPLAG 1 0 g else d

/-- STEP_PULSE (R191): the next step of the period. -/
def Dev.stepPulse (g : Nat) (d : Dev) : Dev :=
  let x := d.step g
  if x.left = 0 then d
  else
    let d := { d with steps := Tbl.put g { x with left := x.left - 1 } d.steps }
    d.wf R.DIO_SGn_POS_STEPS (ofS 32 (toS 32 (d.rf R.DIO_SGn_POS_STEPS 0 g) + (if x.down then -1 else 1))) 0 g

def execStepPulse (g : Nat) (s : State) : Res := s.guarded (decide (g < 32)) (Dev.stepPulse g)

/-! ### Choppers (R192, R193) -/

def Dev.chop (d : Dev) (c : Nat) : ChopSt := Tbl.getD {} d.chops c
def Dev.setChop (c : Nat) (x : ChopSt) (d : Dev) : Dev := { d with chops := Tbl.put c x d.chops }

/-- 2π in units of 2^-60. -/
def twoPi60 : Nat := 7244019458077122842

/-- The Taylor terms of a sine in fixed point: terms left, index, sign, term, sum. -/
def sinTerms (x2 : Nat) : Nat → Nat → Int → Nat → Int → Int
  | 0, _, _, _, s => s
  | n + 1, k, sg, t, s => sinTerms x2 n (k + 1) (-sg) (t * x2 / 2 ^ 60 / ((2 * k + 2) * (2 * k + 3))) (s + sg * t)

/-- sin(2π i / 1024) for i from 0 to 256, in units of 2^-60. -/
def sinQ (i : Nat) : Nat :=
  let x := twoPi60 * i / 1024
  (sinTerms (x * x / 2 ^ 60) 13 0 1 x 0).toNat

/-- |sin(2π idx / 1024)| in units of 2^-60. -/
def absSin (idx : Nat) : Nat :=
  let q := idx % 512
  sinQ (if q ≤ 256 then q else 512 - q)

/-- The code of a phase (R192): the current scale lies `mix` sixteenths of the way from RUN to HOLD. -/
def chopCode (run hold mix idx : Nat) : Nat :=
  (2 * (run * (16 - mix) + hold * mix) * absSin idx + 16 * 2 ^ 60) / (32 * 2 ^ 60)

/-- The present index, codes and phase drives of a channel follow its state; while its axis has it disabled its phases are off (R179). A code of zero leaves the phase in slow
decay; a phase that was in it starts at step 1. -/
def Dev.chopShow (c : Nat) (d : Dev) : Dev :=
  let x := d.chop c
  if !x.used then d
  else
    let idx := d.rf R.CHOP_CH_STAT_IDX 0 c
    let cur (i : Nat) : Nat := chopCode (d.rf R.CHOP_CH_CUR_RUN 0 c) (d.rf R.CHOP_CH_CUR_HOLD 0 c) x.mix i
    let off := !x.on || (x.safeV && d.flag R.CHOP_CH_CFG_SAFEOFF 0 c)
    let ca := if off then 0 else cur idx
    let cb := if off then 0 else cur (idx + 256)
    let ph (p : PhaseSt) (code : Nat) : PhaseSt :=
      if p.cut || off || !d.flag R.PWR_SUPPLY_VDDA_OK then { p with st := 0 }
      else if code = 0 then { p with st := 3 }
      else if p.st = 0 || p.st = 3 then { p with st := 1 } else p
    let d := d.setChop c { x with a := ph x.a ca, b := ph x.b cb }
    (d.wf R.CHOP_CH_STAT_DAC_A ca 0 c).wf R.CHOP_CH_STAT_DAC_B cb 0 c

/-- The bridge polarity of a phase: true when its sine is negative (R192). -/
def Dev.chopNeg (d : Dev) (c : Nat) (phB : Bool) : Bool :=
  decide (512 < (d.rf R.CHOP_CH_STAT_IDX 0 c + (if phB then 256 else 0)) % 1024)

/-- A chopper latches its axis' setpoint for the next period of `p` nanoseconds and whether it is enabled; `still`: the axis is in STANDSTILL. -/
def Dev.chopLatch (c p : Nat) (pos : Int) (still en : Bool) (d : Dev) : Dev :=
  let x := d.chop c
  let r := x.steps.latch pos (p / 500)
  let n := if still then satAdd 65535 x.still 1 else 0
  let hd := d.rf R.CHOP_CH_CUR_HDELAY 0 c
  let mix := if hd ≠ 0 ∧ hd ≤ n then min 16 (x.mix + 1) else x.mix - 1
  let d := d.setChop c { x with used := true, steps := r.1, still := n, mix := mix, safeV := false, on := en }
  (if r.2 then d.wf R.CHOP_CH_STAT_LAG 1 0 c else d).chopShow c

/-- MICROSTEP_ADVANCE (R192). -/
def Dev.microstep (c : Nat) (d : Dev) : Dev :=
  let x := d.chop c
  if x.steps.left = 0 then d
  else
    let inc : Int := 256 / 2 ^ d.rf R.CHOP_CH_CFG_MRES 0 c
    let idx : Int := d.rf R.CHOP_CH_STAT_IDX 0 c
    let d := d.setChop c { x with steps := { x.steps with left := x.steps.left - 1 } }
    (d.wf R.CHOP_CH_STAT_IDX ((idx + (if x.steps.down then -inc else inc)) % 1024).toNat 0 c).chopShow c

def execMicrostepAdvance (ch : Nat) (s : State) : Res := s.guarded (decide (ch < s.dev.nChop)) (Dev.microstep ch)

/-- The state of a phase; `ph` false for A, true for B. -/
def ChopSt.phase (x : ChopSt) (ph : Bool) : PhaseSt := if ph then x.b else x.a

/-- Replace a phase. -/
def ChopSt.withPhase (x : ChopSt) (ph : Bool) (p : PhaseSt) : ChopSt :=
  if ph then { x with b := p } else { x with a := p }

/-- CHOP_TRIP (R193): the off time starts; the eighth consecutive trip at the first sample after blanking sets SHORT and turns
the phase off. -/
def Dev.chopTrip (c : Nat) (ph first : Bool) (d : Dev) : Dev :=
  let x := d.chop c
  let p := x.phase ph
  if p.st ≠ 1 then d
  else
    let q := if first then p.quick + 1 else 0
    if 8 ≤ q then
      let d := d.setChop c (x.withPhase ph { st := 0, cut := true })
      if ph then d.wf R.CHOP_CH_STAT_SHORT_B 1 0 c else d.wf R.CHOP_CH_STAT_SHORT_A 1 0 c
    else d.setChop c (x.withPhase ph { p with st := 2, full := 0, quick := q })

def execChopTrip (ch : Nat) (ph first : Bool) (s : State) : Res :=
  s.guarded (decide (ch < s.dev.nChop)) (Dev.chopTrip ch ph first)

/-- CHOP_MAX_ON (R193): 50 µs without a trip; the sixteenth consecutive one at a code of at least 16 sets OPEN. -/
def Dev.chopMaxOn (c : Nat) (ph : Bool) (d : Dev) : Dev :=
  let x := d.chop c
  let p := x.phase ph
  if p.st ≠ 1 then d
  else
    let code := if ph then d.rf R.CHOP_CH_STAT_DAC_B 0 c else d.rf R.CHOP_CH_STAT_DAC_A 0 c
    let n := if 16 ≤ code then satAdd 255 p.full 1 else 0
    let d := d.setChop c (x.withPhase ph { p with st := 2, full := n, quick := 0 })
    if 16 ≤ n then (if ph then d.wf R.CHOP_CH_STAT_OPEN_B 1 0 c else d.wf R.CHOP_CH_STAT_OPEN_A 1 0 c) else d

def execChopMaxOn (ch : Nat) (ph : Bool) (s : State) : Res :=
  s.guarded (decide (ch < s.dev.nChop)) (Dev.chopMaxOn ch ph)

/-- CHOP_OFF_END (R193): the next cycle starts at step 1. -/
def Dev.chopOffEnd (c : Nat) (ph : Bool) (d : Dev) : Dev :=
  let x := d.chop c
  let p := x.phase ph
  if p.st = 2 then d.setChop c (x.withPhase ph { p with st := 1 }) else d

def execChopOffEnd (ch : Nat) (ph : Bool) (s : State) : Res :=
  s.guarded (decide (ch < s.dev.nChop)) (Dev.chopOffEnd ch ph)

/-- A phase that a short turned off is on again once SHORT is cleared and RESET_FAULT was accepted (R193). -/
def Dev.chopReset (c : Nat) (d : Dev) : Dev :=
  let x := d.chop c
  let fix (p : PhaseSt) (short : Bool) : PhaseSt := if p.cut && !short then { p with cut := false } else p
  (d.setChop c { x with a := fix x.a (d.flag R.CHOP_CH_STAT_SHORT_A 0 c),
                        b := fix x.b (d.flag R.CHOP_CH_STAT_SHORT_B 0 c) }).chopShow c

/-- The declared safe value of a chopper: phases off, or HOLD current at the present index (R194). -/
def Dev.chopSafe (c : Nat) (d : Dev) : Dev :=
  let x := d.chop c
  if x.used then (d.setChop c { x with safeV := true, mix := 16, steps := { x.steps with left := 0 } }).chopShow c else d

end Sys2Proof.Machine
end

