-- ==== Sys2Proof/Machine/LogicUnit.lean ====
section
/-!
DEFINITION. The logic instructions, timers, counters and edge detectors of a LOGIC segment (R144 to R158), on the
segment's scan registers and objects.
-/
namespace Sys2Proof.Machine

/-- What a segment reads outside its own objects: the partition's declarations, its unit, the signals visible at its
token, the forces in its mirror, and the objects of other segments at the end of their scans (R144, R167). -/
structure LogicEnv where
  cfg : PartCfg
  unit : Nat
  strict : Bool
  sig : Nat → SigVal
  force : Nat → Option Word
  typ : Nat → Nat
  below : Nat → Bool
  objsOf : Nat → LogicObjs

/-- A scan and the segment's objects in it, with the record of a saturation (R153). -/
structure LogicRun where
  scan : ScanSt
  objs : LogicObjs
  sat : Bool := false
deriving DecidableEq, Repr

/-- The declaration of an object. -/
def findObj (cfg : PartCfg) (kind idx : Nat) : Option ObjCfg :=
  cfg.objs.find? (fun o => o.kind = kind && o.idx = idx)

/-- The object an instruction word reads or writes, by kind and number (R149 to R151). -/
def insnObj (w : Word) : Option (Nat × Nat) :=
  let op := bitsOf w.toNat 26 6
  let i := bitsOf w.toNat 0 23
  if decide (1 ≤ op) && decide (op ≤ 0x0C) || decide (0x10 ≤ op) && decide (op ≤ 0x14) then
    match bitsOf w.toNat 23 3 with
    | 0 => some (0, i) | 1 => some (1, i / 32) | 2 => some (2, i) | 3 => some (3, i) | _ => none
  else if decide (0x28 ≤ op) && decide (op ≤ 0x36) then
    match bitsOf w.toNat 23 3 with
    | 0 => some (1, i) | 2 => some (2, i) | 3 => some (2, i) | 4 => some (3, i) | 5 => some (3, i) | _ => none
  else none

/-- The objects an owner shows to this segment (R144): its own live, a lower-ranked segment of the same cyclic task
as of the end of its scan, any other as visible at the token. -/
def ownerObjs (e : LogicEnv) (r : LogicRun) (owner : Nat) : LogicObjs :=
  if owner = e.unit then r.objs
  else if e.below owner then e.objsOf owner
  else Tbl.getD {} r.scan.vis owner

/-- The value of a bit variable: the force on its own signal, else the mapped signal's, else its owner's object (R144, R150, R167). -/
def rdBV (e : LogicEnv) (r : LogicRun) (i : Nat) : Bool :=
  match findObj e.cfg 0 i with
  | none => false
  | some o => match o.dirSig.bind e.force with
    | some w => decide (w ≠ 0)
    | none => if o.mapTo = 1 then decide ((e.sig o.sig).val ≠ 0) else Tbl.getD false (ownerObjs e r o.owner).bits i

/-- The value of a word variable, as a bit variable's; a signal-mapped one holds the signal's 32 bits unchanged (R150). -/
def rdWV (e : LogicEnv) (r : LogicRun) (i : Nat) : Word :=
  match findObj e.cfg 1 i with
  | none => 0
  | some o => match o.dirSig.bind e.force with
    | some w => w
    | none => if o.mapTo = 1 then (e.sig o.sig).val else Tbl.getD 0 (ownerObjs e r o.owner).words i

/-- The force on an object, with the type of its signal (R166, R167). -/
def objForce (e : LogicEnv) (kind n : Nat) : Option (Nat × Word) :=
  ((findObj e.cfg kind n).bind (·.dirSig)).bind (fun s => (e.force s).map (fun w => (e.typ s, w)))

/-- A timer as its owner holds it. -/
def stTimer (e : LogicEnv) (r : LogicRun) (n : Nat) : TimerSt :=
  match findObj e.cfg 2 n with
  | none => {}
  | some o => Tbl.getD o.timer (ownerObjs e r o.owner).timers n

/-- A timer as this segment reads it: a force on its BOOL signal gives Q, one on a DINT signal ET (R167; log entry 99). -/
def rdTimer (e : LogicEnv) (r : LogicRun) (n : Nat) : TimerSt :=
  let t := stTimer e r n
  match objForce e 2 n with
  | some (ty, w) => if ty = 1 then { t with q := decide (w ≠ 0) } else { t with et := w.toNat }
  | none => t

/-- A counter as its owner holds it. -/
def stCtr (e : LogicEnv) (r : LogicRun) (n : Nat) : CtrSt :=
  match findObj e.cfg 3 n with
  | none => {}
  | some o => Tbl.getD o.ctr (ownerObjs e r o.owner).ctrs n

/-- A counter as this segment reads it: a force on its BOOL signal gives Q, one on a DINT signal CV (R167; log entry 99). -/
def rdCtr (e : LogicEnv) (r : LogicRun) (n : Nat) : CtrSt :=
  let c := stCtr e r n
  match objForce e 3 n with
  | some (ty, w) => if ty = 1 then { c with q := decide (w ≠ 0) } else { c with cv := w }
  | none => c

/-- The status of a signal-mapped word variable (R149 area SS). -/
def rdStatus (e : LogicEnv) (w b : Nat) : Bool :=
  match findObj e.cfg 1 w with
  | some o => if o.mapTo ≠ 0 then (e.sig o.sig).bit b else false
  | none => false

/-- A system bit (R154). -/
def rdSB (e : LogicEnv) (r : LogicRun) (i : Nat) : Bool :=
  match i with
  | 0 => true
  | 1 => r.scan.first
  | 2 => e.strict
  | 3 => r.scan.resumed
  | 4 => r.scan.arith
  | 5 => r.scan.event
  | _ => false

/-- Whether a bit operand lies in its area's range (R149, R151). -/
def bitOperandOk (area i : Nat) : Bool :=
  match area with
  | 0 => i < 16384
  | 1 => i < 32 * 4096
  | 2 => i < 256
  | 3 => i < 256
  | 4 => i < 8 * 4096
  | 5 => i < 6
  | _ => false

/-- Read a bit operand (R149). -/
def rdBit (e : LogicEnv) (r : LogicRun) (area i : Nat) : Bool :=
  match area with
  | 0 => rdBV e r i
  | 1 => bitAt (rdWV e r (i / 32)).toNat (i % 32)
  | 2 => (rdTimer e r i).q
  | 3 => (rdCtr e r i).q
  | 4 => rdStatus e (i / 8) (i % 8)
  | 5 => rdSB e r i
  | _ => false

/-- An object the segment may write: owned and not input-mapped (R149, R150). -/
def ownsObj (e : LogicEnv) (kind i : Nat) : Bool :=
  match findObj e.cfg kind i with
  | some o => o.owner = e.unit && o.mapTo ≠ 1
  | none => false

/-- Whether a bit operand is writable by ST, STN, S and R. -/
def bitWritable (e : LogicEnv) (area i : Nat) : Bool :=
  bitOperandOk area i && (match area with | 0 => ownsObj e 0 i | 1 => ownsObj e 1 (i / 32) | _ => false)

/-- Write a bit operand. A write to a forced object goes to its storage (R167). -/
def wrBit (r : LogicRun) (area i : Nat) (x : Bool) : LogicRun :=
  match area with
  | 0 => { r with objs := { r.objs with bits := Tbl.put i x r.objs.bits } }
  | 1 =>
    let w := Tbl.getD 0 r.objs.words (i / 32)
    { r with objs := { r.objs with
        words := Tbl.put (i / 32) (BitVec.ofNat 32 (setBits w.toNat (i % 32) 1 (b2n x))) r.objs.words } }
  | _ => r

/-- Whether a word operand lies in its area's range (R150, R151). -/
def wordOperandOk (area i : Nat) : Bool :=
  match area with
  | 0 => i < 4096
  | 1 => i < 2 ^ 23
  | 2 => i < 256
  | 3 => i < 256
  | 4 => i < 256
  | 5 => i < 256
  | 6 => i < 8
  | _ => false

/-- Read a word operand (R150). -/
def rdWord (e : LogicEnv) (r : LogicRun) (area i : Nat) : Word :=
  match area with
  | 0 => rdWV e r i
  | 1 => imm23 i
  | 2 => BitVec.ofNat 32 (rdTimer e r i).et
  | 3 => BitVec.ofNat 32 (rdTimer e r i).pt
  | 4 => (rdCtr e r i).cv
  | 5 => (rdCtr e r i).pv
  | 6 => if r.scan.event then nth 0 r.scan.item i else 0
  | _ => 0

/-- Whether a word operand is writable by STW (R150). -/
def wordWritable (e : LogicEnv) (area i : Nat) : Bool :=
  wordOperandOk area i &&
    (match area with | 0 => ownsObj e 1 i | 3 => ownsObj e 2 i | 5 => ownsObj e 3 i | _ => false)

/-- Write a word operand (R150); a new PT leaves ET alone (R156). -/
def wrWord (e : LogicEnv) (r : LogicRun) (area i : Nat) (w : Word) : LogicRun :=
  match area with
  | 0 => { r with objs := { r.objs with words := Tbl.put i w r.objs.words } }
  | 3 => { r with objs := { r.objs with timers := Tbl.put i { stTimer e r i with pt := w.toNat } r.objs.timers } }
  | 5 => { r with objs := { r.objs with ctrs := Tbl.put i { stCtr e r i with pv := w } r.objs.ctrs } }
  | _ => r

/-- Set the current result. -/
def LogicRun.setCR (r : LogicRun) (x : Bool) : LogicRun := { r with scan := { r.scan with cr := x } }

/-- Set the accumulator. -/
def LogicRun.setACC (r : LogicRun) (w : Word) : LogicRun := { r with scan := { r.scan with acc := w } }

/-- Go on to the next instruction. -/
def LogicRun.next (r : LogicRun) : LogicRun := { r with scan := { r.scan with pc := r.scan.pc + 1 } }

/-- Set the accumulator to a saturating result: a saturation sets ARITH for the scan (R153). -/
def LogicRun.setSat (r : LogicRun) (t : Taken) : LogicRun :=
  { r with scan := { r.scan with acc := t.w, arith := r.scan.arith || t.sat }, sat := r.sat || t.sat }

/-- The operator of a popped branch (R151). -/
def PushOp.apply (op : PushOp) (c x : Bool) : Bool :=
  match op with
  | .and => c && x
  | .andn => c && !x
  | .or => c || x
  | .orn => c || !x
  | .xor => c != x

/-- A timer's instruction (R156) with IN. -/
def timerExec (t : TimerSt) (inp : Bool) : TimerSt :=
  let t1 : TimerSt := match t.typ with
    | 0 =>
      let a := if inp && !t.inLast then { t with et := 0, running := true } else t
      let b := if !inp then { a with et := 0, running := false } else a
      { b with q := inp && decide (b.pt ≤ b.et) }
    | 1 =>
      let a := if !inp && t.inLast then { t with et := 0, running := true } else t
      let b := if inp then { a with et := 0, running := false } else a
      { b with q := inp || (b.running && decide (b.et < b.pt)) }
    | _ =>
      let a := if inp && !t.inLast && !t.running then { t with et := 0, running := true } else t
      let b := if a.running && decide (a.pt ≤ a.et) then
          (if inp then { a with et := a.pt } else { a with running := false }) else a
      { b with q := b.running && decide (b.et < b.pt) }
  { t1 with inLast := inp, ptA := t.pt }

/-- Run timer n with IN := CR; CR := Q (R151). -/
def doTimer (e : LogicEnv) (typ n : Nat) (r : LogicRun) : LogicRun :=
  let t := timerExec { stTimer e r n with typ := typ } r.scan.cr
  let r : LogicRun := { r with objs := { r.objs with timers := Tbl.put n t r.objs.timers } }
  r.setCR (rdTimer e r n).q

/-- R_TRIG and F_TRIG (R157); a force on the detector gives the m that the rule reads (R167; log entry 99). -/
def doEdge (e : LogicEnv) (falling : Bool) (n : Nat) (r : LogicRun) : LogicRun :=
  let g := Tbl.getD {} r.objs.edges n
  let cr := r.scan.cr
  let m := match objForce e 4 n with | some f => decide (f.2 ≠ 0) | none => if g.primed then g.m else cr
  let out := if falling then !cr && m else cr && !m
  ({ r with objs := { r.objs with edges := Tbl.put n { m := cr, primed := true } r.objs.edges } }).setCR out

/-- CTU and CTD (R158). -/
def doCount (e : LogicEnv) (down : Bool) (n : Nat) (r : LogicRun) : LogicRun :=
  let c := stCtr e r n
  let cr := r.scan.cr
  let m := if c.primed then c.mem else cr
  let rise := cr && !m
  let cv := if rise then (satW (if down then sW c.cv - 1 else sW c.cv + 1)).w else c.cv
  let out := if down then decide (sW cv ≤ 0) else decide (sW c.pv ≤ sW cv)
  let r : LogicRun := { r with objs := { r.objs with ctrs := Tbl.put n { c with cv := cv, mem := cr, primed := true, q := out } r.objs.ctrs } }
  r.setCR (rdCtr e r n).q

/-- RESC and LDC (R158): with CR, CV := 0 or CV := PV. -/
def doCtrSet (e : LogicEnv) (load : Bool) (n : Nat) (r : LogicRun) : LogicRun :=
  if !r.scan.cr then r
  else
    let c := stCtr e r n
    { r with objs := { r.objs with
        ctrs := Tbl.put n { c with cv := if load then c.pv else 0 } r.objs.ctrs } }

/-- SHL, SHR (R151): logical left, arithmetic right shift of ACC by an immediate 0 to 31. -/
def doShift (right : Bool) (n : Nat) (r : LogicRun) : LogicRun :=
  r.setACC (if right then r.scan.acc.sshiftRight n else r.scan.acc <<< n)

/-- The timer prologue (R155): every running timer advances by its share of the scan times' difference, up to the PT of its latest
execution (R156). -/
def timerPrologue (tPrev ts : Nat) (o : LogicObjs) : LogicObjs :=
  { o with timers := Tbl.mapVals (fun _ t =>
      if t.running then { t with et := min (t.et + (ts / t.base - tPrev / t.base)) t.ptA } else t) o.timers }

/-- Initial objects of a segment (R161): COLD takes all initial values; WARM keeps variables and counters marked
RETAIN. Edge and counter memories are primed at their next execution. -/
def startObjs (cfg : PartCfg) (unit : Nat) (warm : Bool) (old : LogicObjs) : LogicObjs :=
  (cfg.objs.filter (fun o => o.owner = unit)).foldl (fun (a : LogicObjs) o =>
    let keep := warm && o.retain
    match o.kind with
    | 0 => { a with bits := Tbl.put o.idx (if keep then Tbl.getD (decide (o.init ≠ 0)) old.bits o.idx
                                           else decide (o.init ≠ 0)) a.bits }
    | 1 => { a with words := Tbl.put o.idx (if keep then Tbl.getD o.init old.words o.idx else o.init) a.words }
    | 2 => { a with timers := Tbl.put o.idx { o.timer with et := 0, running := false, ptA := o.timer.pt } a.timers }
    | 3 => { a with ctrs := Tbl.put o.idx { (if keep then Tbl.getD o.ctr old.ctrs o.idx else o.ctr) with
                                            mem := false, primed := false } a.ctrs }
    | _ => { a with edges := Tbl.put o.idx {} a.edges }) {}

/-- R165: carry the objects of an old program into a new one by partition number and name; second component counts
carried and initialised objects. -/
def carryObjs (old new : PartCfg) (unit : Nat) (objsOld : Nat → LogicObjs) : LogicObjs × Nat × Nat :=
  (new.objs.filter (fun o => o.owner = unit)).foldl (fun (a : LogicObjs × Nat × Nat) o =>
    let base := startObjs { new with objs := [o] } unit false {}
    let init : LogicObjs × Nat × Nat :=
      ({ bits := base.bits.foldl (fun t e => Tbl.put e.1 e.2 t) a.1.bits,
         words := base.words.foldl (fun t e => Tbl.put e.1 e.2 t) a.1.words,
         timers := base.timers.foldl (fun t e => Tbl.put e.1 e.2 t) a.1.timers,
         ctrs := base.ctrs.foldl (fun t e => Tbl.put e.1 e.2 t) a.1.ctrs,
         edges := base.edges.foldl (fun t e => Tbl.put e.1 e.2 t) a.1.edges }, a.2.1, a.2.2 + 1)
    match old.objs.find? (fun p => p.name = o.name && p.kind = o.kind) with
    | none => init
    | some p =>
      let w := objsOld p.owner
      match o.kind with
      | 0 => ({ a.1 with bits := Tbl.put o.idx (Tbl.getD false w.bits p.idx) a.1.bits }, a.2.1 + 1, a.2.2)
      | 1 => ({ a.1 with words := Tbl.put o.idx (Tbl.getD 0 w.words p.idx) a.1.words }, a.2.1 + 1, a.2.2)
      | 2 =>
        if p.timer.typ = o.timer.typ && p.timer.base = o.timer.base then
          let t := Tbl.getD p.timer w.timers p.idx
          ({ a.1 with timers := Tbl.put o.idx { o.timer with ptA := o.timer.pt, et := min t.et o.timer.pt, running := t.running,
                                                             inLast := t.inLast, q := t.q } a.1.timers },
            a.2.1 + 1, a.2.2)
        else init
      | 3 => ({ a.1 with ctrs := Tbl.put o.idx { o.ctr with cv := (Tbl.getD p.ctr w.ctrs p.idx).cv, mem := false,
                                                            primed := false } a.1.ctrs }, a.2.1 + 1, a.2.2)
      | _ => init) ({}, 0, 0)

/-- What `UNIT.LG_STAT` shows (R170). -/
def partStat (p : PartSt) : Nat :=
  p.st + b2n p.strict * 4 + b2n p.test * 8 + p.why * 16 + p.lastCmd * 256 + p.left * 65536

end Sys2Proof.Machine
end

