-- ==== Sys2Proof/Machine/LoopEngine.lean ====
section
/-!
DEFINITION. The loop engine (R114 to R140): one evaluation of one loop, as a function of its descriptor, its state and
what it reads. The unit's cycle around it is in Units.lean.
-/
namespace Sys2Proof.Machine

/-- What a loop reads in a cycle: signals as visible at the token, words of the unit's WRITABLE tiles (256·tile + word),
tap sources, its output latch (none before the latch first takes a value of this Last, R126), the output's declared
safe value, and whether an overrun HOLD (R133) or a skip (R129) precedes this cycle. -/
structure LoopEnv where
  sig : Nat → SigVal
  word : Nat → Word
  tap : Tap → SigVal
  latch : Option Word
  safe : Word
  ovr3 : Bool
  skipped : Bool
  req : Word
  mv : Word

/-- A loop after one evaluation, with what it stages and raises. -/
structure LoopRes where
  st : LoopSt
  staged : List Staged := []
  evs : List UEv := []
  sat : Bool := false

/-- A loop's state after a Last load (R136); `entering` 3 marks INIT_MODE AUTO, whose transfer takes the safe value as u_ref. -/
def loopInit (c : LoopCfg) (safe : Word) : LoopSt :=
  { mode := c.initMode, secs := c.aws.map (fun _ => {}), models := c.models.map (fun _ => {}),
    uPrev := safe, uLat := safe, entering := if c.initMode = 3 then 3 else 0 }

/-- SP: the named signal, or the constant SPK (R116). -/
def loopSp (c : LoopCfg) (e : LoopEnv) : SigVal :=
  match c.sp with
  | some s => e.sig s
  | none => { val := c.spk, st := stOk }

/-- The inputs are valid when SP and PV both have VALID set (R120). -/
def loopValid (c : LoopCfg) (e : LoopEnv) : Bool := (loopSp c e).valid && (e.sig c.pv).valid

/-- R129: start, or start again, the suppression of the residual monitors. -/
def loopSuppress (c : LoopCfg) (s : LoopSt) : LoopSt := { s with supp := c.supp }

/-- R132 step 1 and R133: a device HOLD for a cause that arose since the last executed cycle. -/
def loopHold (idx : Nat) (c : LoopCfg) (e : LoopEnv) (s : LoopSt) : LoopSt × List UEv :=
  let cause := if e.ovr3 then 1 else s.pendHold
  if cause = 0 then (s, [])
  else
    let s1 := if s.mode = 2 then s else loopSuppress c s
    ({ s1 with mode := 2, holdDev := true, hcause := cause, pendHold := 0, heldNow := true,
               holds := satAdd 0xFF s.holds 1 },
     [{ num := 5, data := leBytes 1 idx ++ leBytes 1 cause }])

/-- The fields of a request word (R131). -/
def reqMode (w : Word) : Nat := bitsOf w.toNat 0 2
def reqEdit (w : Word) : Bool := bitAt w.toNat 2
def reqSet (w : Word) : Nat := bitsOf w.toNat 4 3
def reqSeq (w : Word) : Nat := bitsOf w.toNat 8 8

/-- A request is new when its SEQ differs from the last acknowledged one of its source (R131). -/
def loopReqNew (fromSig : Bool) (w : Word) (s : LoopSt) : Bool :=
  if fromSig then reqSeq w ≠ s.ackS else reqSeq w ≠ s.ackW

/-- The acceptance rules of R132 for a whole request; AUTO needs valid inputs, and so does leaving a device HOLD of cause INPUT (R133; log
entry 103). -/
def loopAccepts (c : LoopCfg) (valid : Bool) (w : Word) (s : LoopSt) : Bool :=
  let setChg := !c.sched && reqSet w ≠ s.set
  (!(reqEdit w) || reqMode w ≠ 3)
    && (!setChg || (s.mode ≠ 3 && reqSet w < c.sets))
    && (!(reqMode w = 3 || (s.holdDev && s.hcause = 2)) || valid)

/-- An accepted request: EDIT, then SET, then MODE (R132). -/
def loopApplyReq (c : LoopCfg) (w : Word) (s : LoopSt) : LoopSt :=
  let s := { s with edit := reqEdit w }
  let s := if !c.sched && reqSet w ≠ s.set then
      loopSuppress c { s with set := reqSet w, switches := satAdd 0xFFFF s.switches 1 } else s
  let s := if reqMode w ≠ s.mode then
      loopSuppress c { s with entering := if reqMode w = 3 then 1 else 0 } else s
  { s with mode := reqMode w, holdDev := false }

/-- Take a new request (R132): refused in a cycle with a device HOLD, and for the request word in a cycle that took a
MODE_SIG request; refused and accepted requests are both acknowledged. -/
def loopTake (c : LoopCfg) (valid fromSig : Bool) (w : Word) (s : LoopSt) : LoopSt :=
  if !loopReqNew fromSig w s then s
  else
    let ok := !s.heldNow && !(s.sigTaken && !fromSig) && loopAccepts c valid w s
    let s1 := if fromSig then { s with ackS := reqSeq w, sigTaken := true } else { s with ackW := reqSeq w }
    let s2 := { s1 with lastReq := if ok then 1 else 2, reqSrc := b2n fromSig }
    if ok then loopApplyReq c w s2 else { s2 with refused := satAdd 0xFF s2.refused 1 }

/-- Both sources' requests, MODE_SIG first (R132); a MODE_SIG with VALID clear is no request (log entry 20). -/
def loopRequests (c : LoopCfg) (e : LoopEnv) (s : LoopSt) : LoopSt :=
  let valid := loopValid c e
  let s := match c.modeSig with
    | some g => if (e.sig g).valid then loopTake c valid true (e.sig g).val s else s
    | none => s
  loopTake c valid false e.req s

/-- The region that contains a value (R138): the number of edges not above it. -/
def regionOf (edges : List Word) (x : Word) : Nat := (edges.filter (fun g => decide (sW g ≤ sW x))).length

/-- The scheduling region (R138, R139): without hysteresis in the first cycle after a load only. A change in AUTO while SP or PV is invalid keeps its
transfer for the first cycle with valid inputs: the model's choice, R139 does not speak of that case (log entry 113). -/
def loopRegion (c : LoopCfg) (e : LoopEnv) (s : LoopSt) : LoopSt :=
  if !c.sched || c.sets ≤ 1 then { s with schInv := false }
  else
    let sch := match c.sch with | some g => e.sig g | none => {}
    if !sch.valid then { s with schInv := true, regionKnown := true }
    else
      let cand := regionOf c.edges sch.val
      let s := { s with schInv := false }
      if !s.regionKnown then { s with set := cand, regionKnown := true }
      else
        let up := decide (s.set < cand) && decide (sW (nth 0 c.edges s.set) + sW c.hyst ≤ sW sch.val)
        let dn := decide (cand < s.set) && decide (sW sch.val < sW (nth 0 c.edges (s.set - 1)) - sW c.hyst)
        if up || dn then
          loopSuppress c { s with set := cand, switches := satAdd 0xFFFF s.switches 1,
                                  entering := if s.mode = 3 && s.entering = 0 then 2 else s.entering }
        else s

/-- The terms of the taps of one injection point, and whether a source was invalid (R121). -/
def tapTerms (c : LoopCfg) (e : LoopEnv) (onOut : Bool) : List Int × Bool :=
  (c.taps.filter (fun t => t.onOut = onOut)).foldl
    (fun r t =>
      let v := e.tap t
      if v.valid && !v.bit stABSENT then (r.1 ++ [sigCoef v.val t.c], r.2) else (r.1, true)) ([], false)

/-- The eight words of a section or model. -/
def words8 (rd : Nat → Word) (at_ : Nat) : List Word := (List.range 8).map (fun i => rd (at_ + i))

/-- The biquad sum of R122 in the order written, taken once. -/
def biquad (cs : List Word) (s : SecSt) (x : Word) : Taken :=
  (accSum [sigCoef x (nth 0 cs 0), sigCoef s.x1 (nth 0 cs 1), sigCoef s.x2 (nth 0 cs 2),
           -(sigCoef s.y1 (nth 0 cs 3)), -(sigCoef s.y2 (nth 0 cs 4))]).take

/-- min(max(y, lo), hi): `hi` when lo > hi (R122). -/
def clampW (lo hi y : Word) : Word :=
  let m := if sW y < sW lo then lo else y
  if sW hi < sW m then hi else m

/-- One control section (R122, R123): new state, output, whether it clamped, whether it saturated. `up` and `dn` are
the previous cycle's limit flags. -/
def ctlSection (cs : List Word) (aw : Nat × Bool) (up dn : Bool) (x : Word) (s : SecSt) :
    SecSt × Word × Bool × Bool :=
  let t := biquad cs s x
  let y := clampW (nth 0 cs 5) (nth 0 cs 6) t.w
  let d := (if aw.2 then -1 else 1) * (sW t.w - sW s.y1)
  let hold := aw.1 = 2 && ((up && decide (0 < d)) || (dn && decide (d < 0)))
  let ys := if aw.1 = 0 then t.w else y
  let s' : SecSt :=
    if hold then { s with x2 := s.x1, x1 := x } else { x2 := s.x1, x1 := x, y2 := s.y1, y1 := ys }
  (s', y, decide (y ≠ t.w), t.sat)

/-- Coefficient words of section i of the active set. -/
def secWords (c : LoopCfg) (e : LoopEnv) (set i : Nat) : List Word :=
  words8 e.word (c.coefAt + 8 * (set * c.aws.length + i))

/-- R137 with BUMPSEC b ≥ 1: preload sections S down to b (0-based from the end) with the reference value; whether a taken value
saturated. -/
def preload (c : LoopCfg) (e : LoopEnv) (set b : Nat) (uref : Word) (secs : List SecSt) : List SecSt × Bool :=
  let n := c.aws.length
  let r := (List.range (n - b)).foldl (fun (acc : List SecSt × Taken) k =>
    let i := n - 1 - k
    let v := acc.2.w
    let t := (accSum [sigCoef v (nth 0 (secWords c e set i) 7)]).take
    (setNth acc.1 i { y1 := v, y2 := v, x1 := t.w, x2 := t.w }, ⟨t.w, acc.2.sat || t.sat⟩)) (secs, ⟨uref, false⟩)
  let sb := nth {} r.1 (b - 1)
  (setNth r.1 (b - 1) { sb with y1 := r.2.w, y2 := r.2.w }, r.2.sat)

/-- A cascade in evaluation: states so far, value passed on, clamp and saturation records. -/
structure Casc where
  secs : List SecSt
  x : Word
  lim : Bool := false
  sat : Bool := false

/-- The cascade of R122 in section order; section `b` (1-based, 0 none) takes its present input into its x states. -/
def cascade (c : LoopCfg) (e : LoopEnv) (set b : Nat) (up dn : Bool) (secs : List SecSt) (x : Word) : Casc :=
  (List.range c.aws.length).foldl (fun (k : Casc) i =>
    let s0 := nth {} k.secs i
    let s0 := if b = i + 1 then { s0 with x1 := k.x, x2 := k.x } else s0
    let r := ctlSection (secWords c e set i) (nth (0, false) c.aws i) up dn k.x s0
    { secs := setNth k.secs i r.1, x := r.2.1, lim := k.lim || r.2.2.1, sat := k.sat || r.2.2.2 })
    { secs := secs, x := x }

/-- A rate bound (R116): 0x7FFF_FFFF disables, a negative value acts as 0. -/
def rateOf (r : Word) : Option Int := if r = 0x7FFFFFFF then none else some (if sW r < 0 then 0 else sW r)

/-- Limits, then rate limits, with their flags (R124): output, LIMHI, LIMLO, RATE, RATEDN. -/
def outLimit (c : LoopCfg) (uPrev uc : Word) : Word × Bool × Bool × Bool × Bool :=
  let u1 := clampW c.uLo c.uHi uc
  let lo := match rateOf c.rDn with | some r => if sW u1 < sW uPrev - r then sW uPrev - r else sW u1 | none => sW u1
  let u := match rateOf c.rUp with | some r => if sW uPrev + r < lo then sW uPrev + r else lo | none => lo
  (wS u, decide (sW u1 < sW uc), decide (sW uc < sW u1), decide (u ≠ sW u1), decide (sW u1 < u))

/-- The AUTO path (R120 to R124, R137): new state with its limit flags, command, saturation. -/
def loopAuto (c : LoopCfg) (e : LoopEnv) (errv : Word) (ffTerm : Int) (outTaps : List Int) (s : LoopSt) :
    LoopSt × Word × Bool × Bool :=
  let up := s.limHi || (s.rate && !s.rateDn)
  let dn := s.limLo || (s.rate && s.rateDn)
  let uref : Taken :=
    if s.entering = 1 then (accSum ([sigIn s.uPrev, -ffTerm] ++ outTaps.map (fun x => -x))).take
    else if s.entering = 3 then ⟨s.uPrev, false⟩ else ⟨s.ycasPrev, false⟩
  let pre := decide (s.entering ≠ 0) && decide (c.bumpSec ≠ 0)
  let secs0 := if pre then preload c e s.set c.bumpSec uref.w s.secs else (s.secs, false)
  let k := cascade c e s.set (if pre then c.bumpSec else 0) up dn secs0.1 errv
  let bump : Taken :=
    if s.entering = 0 then ⟨s.bump, false⟩
    else if c.bumpSec ≠ 0 then ⟨0, false⟩
    else (accSum [sigIn uref.w, -(sigIn k.x)]).take
  let decay := (accSum [sigCoef bump.w c.beta]).take
  let uc := (accSum ([sigIn k.x, ffTerm] ++ outTaps ++ [sigIn bump.w])).take
  let o := outLimit c s.uPrev uc.w
  let s' := { s with secs := k.secs, ycasPrev := k.x, secLim := k.lim, entering := 0,
                     bump := decay.w,
                     limHi := o.2.1, limLo := o.2.2.1, rate := o.2.2.2.1, rateDn := o.2.2.2.2 }
  (s', o.1, uref.sat || secs0.2 || k.sat || bump.sat || decay.sat || uc.sat, uc.sat)

/-- The open modes and AUTO with invalid inputs (R130, R134): command, with its flags in the state. -/
def loopOpen (c : LoopCfg) (e : LoopEnv) (s : LoopSt) : LoopSt × Word :=
  let s0 := { s with limHi := false, limLo := false, rate := false, rateDn := false, secLim := false }
  match s.mode with
  | 0 => (s0, e.safe)
  | 1 =>
    let o := outLimit c s.uPrev e.mv
    ({ s0 with limHi := o.2.1, limLo := o.2.2.1, rate := o.2.2.2.1, rateDn := o.2.2.2.2 }, o.1)
  | _ => (s0, s.uPrev)

/-- Absolute value of a signal as an integer. -/
def absW (w : Word) : Int := (sW w).natAbs

/-- The monitor of R128 for one evaluated cycle: new state, and 0 no entry, 1 entry to WARN, 2 entry to ALARM. -/
def monitorStep (persist : Nat) (rhyst warn alarm : Word) (m : ModSt) : ModSt × Nat :=
  let a := absW m.rf
  let cW := if sW warn ≤ a then satAdd 255 m.cWarn 1 else 0
  let cA := if sW alarm ≤ a then satAdd 255 m.cAlarm 1 else 0
  let below := if m.mon = 2 then decide (a < sW alarm - sW rhyst) else decide (a < sW warn - sW rhyst)
  let cD := if m.mon ≠ 0 && below then satAdd 255 m.cDown 1 else 0
  let m' := { m with cWarn := cW, cAlarm := cA, cDown := cD }
  if m.mon ≠ 2 && persist ≤ cA then ({ m' with mon := 2, cDown := 0 }, 2)
  else if m.mon = 0 && persist ≤ cW then ({ m' with mon := 1, cDown := 0 }, 1)
  else if m.mon = 2 && persist ≤ cD then ({ m' with mon := 1, cDown := 0 }, 1)
  else if m.mon = 1 && persist ≤ cD then ({ m' with mon := 0, cDown := 0 }, 0)
  else (m', 0)

/-- Accumulator of the model pass. -/
structure ModPass where
  ms : List ModSt := []
  prevY : Word := 0
  staged : List Staged := []
  evs : List UEv := []
  alarm : Bool := false
  sat : Bool := false

/-- Model sections and residual monitors in order (R127, R128); `supp` is whether the monitors are suppressed (R129). -/
def loopModels (idx : Nat) (c : LoopCfg) (e : LoopEnv) (uApp pv : Word) (supp : Bool) (ms : List ModSt) : ModPass :=
  (List.range c.models.length).foldl (fun (k : ModPass) j =>
    let m := nth {} ms j
    let f := nth (false, false) c.models j
    let cs := words8 e.word (c.modelAt + 8 * j)
    let x := if f.1 && j ≠ 0 then k.prevY else uApp
    let t := biquad cs m.sec x
    let m1 := { m with sec := { x2 := m.sec.x1, x1 := x, y2 := m.sec.y1, y1 := t.w }, y := t.w }
    if !f.2 then { k with ms := k.ms ++ [m1], prevY := t.w, sat := k.sat || t.sat }
    else
      let r := (accSum [sigIn pv, -(sigIn t.w)]).take
      let df := (accSum [sigIn m.rf, sigCoef r.w (nth 0 cs 5), -(sigCoef m.rf (nth 0 cs 5))]).take
      let m2 := { m1 with rf := df.w }
      let step := if supp then (m2, 0) else monitorStep c.persist c.rhyst (nth 0 cs 6) (nth 0 cs 7) m2
      let m3 := { step.1 with shown := if supp then 3 else step.1.mon }
      let evs := if step.2 = 0 then [] else
        [{ num := if step.2 = 2 then 7 else 6, data := leBytes 1 idx ++ leBytes 1 j ++ wordBytes df.w }]
      { ms := k.ms ++ [m3], prevY := t.w,
        staged := k.staged ++ [stg (nth 0 c.sRes j) df.w (mkStatus true 0 false false false df.sat)],
        evs := k.evs ++ evs, alarm := k.alarm || step.2 = 2, sat := k.sat || t.sat || r.sat || df.sat }) {}

/-- One loop's evaluation in the order of R119. Of two device HOLD causes that arise before the next executed cycle RESIDUAL replaces INPUT and OVERRUN
either: the model's choice, R133 gives no order (log entry 114). -/
def loopEval (idx : Nat) (c : LoopCfg) (e : LoopEnv) (s : LoopSt) : LoopRes :=
  let s := if e.skipped || s.modelWr then loopSuppress c { s with modelWr := false } else s
  let h := loopHold idx c e s
  let s := loopRequests c e h.1
  let uApp := s.uLat
  let s := { s with uLat := e.latch.getD s.uLat }
  let s := loopRegion c e s
  let valid := loopValid c e
  let pvIn := e.sig c.pv
  let spIn := loopSp c e
  let pv := scaleSig c.gPv pvIn.val c.oPv
  let te := tapTerms c e false
  let to_ := tapTerms c e true
  let sgn : Int := if c.rev then -1 else 1
  let er := (accSum ([sgn * sigIn spIn.val, -(sgn * sigIn pv.w)] ++ te.1)).take
  let ffTerm : Int := match c.ff with
    | some g => if (e.sig g).valid then sigCoef (e.sig g).val c.kff else 0
    | none => 0
  let auto := s.mode = 3 && valid
  let r := if auto then loopAuto c e er.w ffTerm to_.1 { s with invCnt := 0 } else
    let o := loopOpen c e s
    (o.1, o.2, false, false)
  let s := r.1
  let u := r.2.1
  let invCnt := if valid then 0 else if s.mode = 3 then satAdd 255 s.invCnt 1 else s.invCnt
  let pend := if s.mode = 3 && !valid && invCnt = c.invMax then 2 else s.pendHold
  let suppNow := decide (s.supp ≠ 0)
  let mp := loopModels idx c e uApp pv.w suppNow s.models
  let supp := if !valid || pvIn.held then c.supp else s.supp - 1
  let mid := if auto then pvIn.st.toNat ||| spIn.st.toNat else 0
  let oSt := mkStatus true mid false false false (s.limHi || s.limLo || s.rate || r.2.2.2)
  let midPv := pvIn.st.toNat
  let s := { s with models := mp.ms, supp := supp, invCnt := invCnt,
                    pendHold := if mp.alarm && c.alarmHold then 3 else pend,
                    xfInv := te.2 || to_.2, invIn := !valid, uPrev := u, out := u, pv := pv.w, err := er.w,
                    heldNow := false, sigTaken := false }
  { st := s,
    staged := [stg c.out u oSt, stg c.sPv pv.w (mkStatus pvIn.valid midPv false false false pv.sat),
               stg c.sErr er.w (mkStatus valid midPv false false false er.sat)] ++ mp.staged,
    evs := h.2 ++ mp.evs,
    sat := pv.sat || er.sat || r.2.2.1 || mp.sat }

/-- Tiles of a LOOP unit: T_state and T_total (R117). -/
def loopTiles (cs : List LoopCfg) : Nat × Nat :=
  let s (f : LoopCfg → Nat) : Nat := ceilDiv (cs.map f).sum 256
  let st := s (fun c => 8 + 4 * c.aws.length + 5 * c.models.length)
  (st, 1 + s (fun c => 16 + 2 * c.taps.length + (if 1 < c.sets then 8 else 0)) + s (fun c => 8 * c.aws.length * c.sets) +
    s (fun c => 8 * c.models.length) + s (fun _ => 2) + st)

/-- The device HOLD of a loop whose unit goes FAULTED (R133). -/
def loopFaulted (idx : Nat) (s : LoopSt) : LoopSt × UEv :=
  ({ s with mode := 2, holdDev := true, hcause := 4, holds := satAdd 0xFF s.holds 1 }, { num := 5, data := leBytes 1 idx ++ leBytes 1 4 })

/-- What `UNIT.LP_STAT` shows of a loop (R141). -/
def loopStat (s : LoopSt) : Nat :=
  let res := (List.range s.models.length).foldl (fun a j => a + (nth {} s.models j).shown % 4 * 4 ^ j) 0
  s.mode + b2n s.edit * 4 + b2n s.holdDev * 8 + s.hcause * 16 + b2n s.schInv * 2 ^ 7 + s.set * 2 ^ 8
    + b2n s.limHi * 2 ^ 11 + b2n s.limLo * 2 ^ 12 + b2n s.rate * 2 ^ 13 + b2n s.rateDn * 2 ^ 14
    + b2n s.secLim * 2 ^ 15 + b2n s.xfInv * 2 ^ 16 + b2n s.invIn * 2 ^ 17 + res * 2 ^ 18
    + s.lastReq * 2 ^ 26 + s.reqSrc * 2 ^ 28

end Sys2Proof.Machine
end

