-- ==== Sys2Proof/Machine/MotionUnit.lean ====
section
/-!
DEFINITION. Axes (R172 to R194): planning, velocity rule, gearing, homing, commands and faults of one axis in one
cycle, as functions of its descriptor, its state and what it reads. Distances are integers in units of 2^-32.
-/
namespace Sys2Proof.Machine

/-- One in Q32.32. -/
def qOne : Int := 2 ^ 32

/-- What an axis reads in cycle k. `cmdW` is the request tile's command word with its parameters; `par` PAR_SIG; `m` the
master position; `apos` the drive's 32-bit position when valid; `drive` READY, FAULT, LATCHED; `capture` a captured
edge position (R188), `mMod` the MODULUS of the master axis; `hold3`, `short`, `backlogBig`, `stepLag`, `forced` as R189 and R194 name them. -/
structure AxisEnv where
  k : Nat
  sig : Nat → SigVal
  cmdW : Word
  p0 : Int
  p1 : Int
  rv : Int
  ra : Int
  rj : Int
  p0raw : Nat
  m : Int
  mMod : Int
  apos : Option Nat
  driveFault : Bool
  capture : Option Int
  index : Option Int
  hold3 : Bool
  short : Bool
  backlogBig : Bool
  stepLag : Bool
  forced : Bool

/-- The parameters of a command (R177). -/
structure AxisPar where
  p0 : Int
  p1 : Int
  v : Int
  a : Int
  j : Int
  kEff : Nat
  arg : Nat

/-- Position in a phase (R181): p + v t + a t²/2 + j t³/6, formed exactly and rounded once (log entry 101). -/
def phasePos (p v a j t : Int) : Qv :=
  qTake (p + roundDiv (6 * 2 ^ 64 * v * t + 3 * 2 ^ 32 * a * t * t + j * t * t * t) (6 * 2 ^ 96))

/-- Velocity in a phase, formed and rounded likewise. -/
def phaseVel (v a j t : Int) : Qv := qTake (v + roundDiv (2 * 2 ^ 32 * a * t + j * t * t) (2 * 2 ^ 64))

/-- Position, velocity and acceleration, with the record of a saturation on the way. -/
structure Mot where
  p : Int
  v : Int
  a : Int
  sat : Bool := false
deriving DecidableEq, Repr

/-- The end of a stretch of time in one phase. -/
def Mot.phase (m : Mot) (j t : Int) : Mot :=
  let p := phasePos m.p m.v m.a j t
  let v := phaseVel m.v m.a j t
  let a := Qv.mul ⟨j, false⟩ ⟨t, false⟩
  { p := p.v, v := v.v, a := m.a + a.v, sat := m.sat || p.sat || v.sat || a.sat }

/-- Walk the phases (length, jerk) to time t from start values. -/
def walkPhases : List (Int × Int) → Int → Mot → Mot
  | [], _, m => m
  | (len, j) :: rest, t, m => if t < len ∨ rest = [] then m.phase j t else walkPhases rest (t - len) (m.phase j len)

/-- An axis takes a motion's values. -/
def AxisSt.take (m : Mot) (s : AxisSt) : AxisSt := { s with p := m.p, v := m.v, a := m.a, sat := s.sat || m.sat }

/-- Plan a move from rest (R180) in cycle k from p0 by the signed distance d; whether a result saturated. -/
def planMove (k : Nat) (p0 d v a j : Int) : MovePlan × Bool :=
  let q (x : Int) : Qv := { v := x }
  let l : Qv := q d.natAbs
  let aa := (q a).mul (q a)
  let vj := (q v).mul (q j)
  let tt : Qv × Qv := if aa.v ≤ vj.v then
      ((q a).div (q j), ((q v).div (q a)).sub ((q a).div (q j))) else (((q v).div (q j)).sqrt, q 0)
  let full := (q v).mul ((tt.1.times 2).add tt.2)
  let a3 := ((((q a).times 2).mul (q a)).mul (q a)).div ((q j).mul (q j))
  let r : Qv × Qv × Qv :=
    if l.v < full.v then
      if a3.v ≤ l.v then
        let aj := aa.div (q j)
        let a4 := (aa.mul (q a)).mul (q a)
        let w := (((a4.div ((q j).mul (q j))).add (((q a).times 4).mul l)).sqrt).sub aj
        let vp : Qv := { w with v := roundDiv w.v 2 }
        (vp, (q a).div (q j), (vp.div (q a)).sub ((q a).div (q j)))
      else
        let tj := (l.div ((q j).times 2)).cbrt
        (((q j).mul tj).mul tj, tj, q 0)
    else (q v, tt.1, tt.2)
  let ramp := (r.2.1.times 2).add r.2.2
  let tv := (l.div r.1).sub ramp
  let tEnd := (ramp.times 2).add tv
  ({ k0 := k, p0 := p0, target := p0 + d, s := sgnI d, tj := r.2.1.v, ta := r.2.2.v, tv := if d = 0 then 0 else tv.v, vp := r.1.v,
     j := j, tEnd := if d = 0 then 0 else tEnd.v }, aa.sat || vj.sat || full.sat || (decide (l.v < full.v) && a3.sat) || (decide (d ≠ 0) && (tEnd.sat || r.1.sat)))

/-- Position, velocity and acceleration of a plan at time t (R180, R181). -/
def planAt (m : MovePlan) (t : Int) : Mot :=
  let sj := m.s * m.j
  walkPhases [(m.tj, sj), (m.ta, 0), (m.tj, -sj), (m.tv, 0), (m.tj, -sj), (m.ta, 0), (m.tj, sj)] t { p := m.p0, v := 0, a := 0 }

/-- A plan in cycle k: the profile, or none once k − k0 has reached t_end (R181). -/
def planStep (m : MovePlan) (k : Nat) : Option Mot :=
  let t : Int := (k - m.k0 : Nat) * qOne
  if m.tEnd ≤ t then none else some (planAt m t)

/-- The profile's values in cycle k, the target at rest once it has ended. -/
def planNow (m : MovePlan) (k : Nat) : Mot := (planStep m k).getD { p := m.target, v := 0, a := 0 }

/-- The velocity rule of R182. -/
def velRule (vt amax j : Int) (m : Mot) : Mot :=
  let s := sgnI (vt - m.v)
  let d := (Qv.mul ⟨m.a, false⟩ ⟨m.a.natAbs, false⟩).div (Qv.times 2 ⟨j, false⟩)
  let vz := m.v + d.v
  let a1 := if 0 < s * (vt - vz) then clampI (-amax) amax (m.a + s * j) else m.a - sgnI m.a * min j m.a.natAbs
  let vn := m.v + a1
  let reach := decide (sgnI (vt - vn) ≠ s)
  let p := qTake (m.p + (if reach then vt else vn))
  { p := p.v, v := if reach then vt else vn, a := if reach then 0 else a1, sat := d.sat || p.sat }

/-- The motion an axis is in. -/
def AxisSt.mot (s : AxisSt) : Mot := { p := s.p, v := s.v, a := s.a }

/-- Start a stop with limits (R182), ending in STANDSTILL, or in FAULT with a cause (R189). -/
def axStop (a j : Int) (cause : Nat) (s : AxisSt) : AxisSt :=
  { s with st := 5, plan := none, gear := none, offset := none, vt := some (0, a, j), stopFault := cause }

/-- A stop during a move starts from the profile's values of this cycle (R182), which the axis stages; the rule runs from the next cycle on (log
entry 77). -/
def axProfile (c : AxisCfg) (k : Nat) (s : AxisSt) : AxisSt :=
  match s.plan with
  | some m => if s.st = 2 then (let s := s.take (planNow m k); { s with p := pMod c.modulus s.p, stopAt := some k }) else s
  | none => s

/-- Enter FAULT with a cause: setpoint frozen, velocity zero (R189). -/
def axFault (cause : Nat) (s : AxisSt) : AxisSt :=
  { s with st := 7, cause := cause, v := 0, a := 0, plan := none, vt := none, gear := none, offset := none,
           stopFault := 0, faults := satAdd 0xFF s.faults 1 }

/-- The value selected by a zero (R177): the default. -/
def orDef (x d : Int) : Int := if x = 0 then d else x

/-- Parameters of the request tile (R177). K_eff of VM_SPEED is P0's 64 bits as a whole number: the model's reading, R184 names only K_eff = P0 (log
entry 119). -/
def parTile (c : AxisCfg) (e : AxisEnv) (w : Word) : AxisPar :=
  { p0 := e.p0, p1 := e.p1, v := orDef e.rv c.vDef, a := orDef e.ra c.aDef, j := orDef e.rj c.jDef,
    kEff := e.p0raw, arg := bitsOf w.toNat 4 4 }

/-- Parameters of a CMD_SIG command (R177): PAR_SIG as an integer, the defaults otherwise. -/
def parSig (c : AxisCfg) (e : AxisEnv) (w : Word) : AxisPar :=
  let p := match c.parSig with | some g => sW (e.sig g).val | none => 0
  { p0 := p * qOne, p1 := c.p1Def, v := c.vDef, a := c.aDef, j := c.jDef, kEff := p.toNat, arg := bitsOf w.toNat 4 4 }

/-- A switch is active when it is 1 or its VALID is clear (R189). -/
def swActive (e : AxisEnv) (g : Option Nat) : Bool :=
  match g with
  | some n => !(e.sig n).valid || decide ((e.sig n).val ≠ 0)
  | none => false

/-- Conditions that fault at once or by a quick stop on what the cycle reads (R189), lowest cause; 0 none. -/
def axCond (c : AxisCfg) (e : AxisEnv) (s : AxisSt) : Nat :=
  let limHom := s.st = 4 && (c.homing = 5 || c.homing = 6)
  if swActive e c.limPos && decide (0 ≤ s.v) && !limHom then 1
  else if swActive e c.limNeg && decide (s.v ≤ 0) && !limHom then 2
  else if e.driveFault then 5
  else if e.backlogBig then 6
  else if e.short then 7
  else if c.dest = 1 && decide (c.invMax ≤ s.inv) then 9
  else 0

/-- A cause that RESET_FAULT finds still there (R179, R189): a condition of the cycle, or the following error of the last one. -/
def axPersists (c : AxisCfg) (e : AxisEnv) (s : AxisSt) : Bool :=
  decide (axCond c e s ≠ 0) || (decide (c.dest = 1) && !e.forced && e.apos.isSome && decide (c.feMax < s.fe.natAbs))

/-- Signed difference to a target on a modulo axis, by MODDIR (R176, R180). -/
def modDiff (c : AxisCfg) (p target : Int) : Int :=
  if c.modulus ≤ 0 then target - p
  else
    let d := (target - p) % c.modulus
    match c.modDir with
    | 1 => d
    | 2 => if d = 0 then 0 else d - c.modulus
    | _ => if 2 * d ≤ c.modulus then d else d - c.modulus

/-- Whether a position lies within enabled software limits (R176, R179). -/
def inSlim (c : AxisCfg) (p : Int) : Bool :=
  c.slimLo = c.slimHi || (decide (c.slimLo ≤ p) && decide (p ≤ c.slimHi))

/-- WHY codes of R195. -/
def whySTATE : Nat := 1
def whyNOTHOMED : Nat := 2
def whyLIMIT : Nat := 3
def whyMASTER : Nat := 4
def whyLATE : Nat := 5
def whyBUSY : Nat := 6
def whyPARAM : Nat := 7
def whySOURCE : Nat := 8

/-- V, A and J all positive (R179). -/
def parOk (r : AxisPar) : Bool := decide (0 < r.v) && decide (0 < r.a) && decide (0 < r.j)

/-- Change of the master in this cycle, reduced on a modulo master (R185). -/
def masterDelta (e : AxisEnv) (prev : Int) : Int :=
  let d := e.m - prev
  if e.mMod ≤ 0 then d
  else
    let r := d % e.mMod
    if e.mMod < 2 * r then r - e.mMod else r

/-- The master position of the previous cycle as the axis holds it. -/
def mPrevOf (s : AxisSt) : Int := match s.gear with | some g => g.mPrev | none => s.mSeen

/-- A refusal reason for a move (R179). -/
def moveWhy (c : AxisCfg) (r : AxisPar) (target : Int) (s : AxisSt) : Nat :=
  if !(s.st = 1 && c.kind = 1) then whySTATE
  else if !parOk r then whyPARAM
  else if c.slimLo ≠ c.slimHi && !s.homed then whyNOTHOMED
  else if !inSlim c target then whyLIMIT
  else 0

/-- Acceptance of a command (R179, R184, R186): 0, or the WHY code of the refusal. -/
def axWhy (code : Nat) (c : AxisCfg) (e : AxisEnv) (r : AxisPar) (s : AxisSt) : Nat :=
  match code with
  | 1 => if s.st = 0 then 0 else whySTATE
  | 2 => if s.st = 1 || s.st = 6 || s.st = 7 then 0 else whySTATE
  | 3 => moveWhy c r r.p0 s
  | 4 => moveWhy c r (s.p + r.p0) s
  | 5 =>
    if !(c.kind = 1 && (s.st = 1 || (s.st = 2 && s.vt.isSome))) then whySTATE
    else if !parOk r then whyPARAM else 0
  | 6 => if !(s.st = 2 || s.st = 3 || s.st = 4 || s.st = 5 || s.st = 6) then whySTATE
         else if !parOk r then whyPARAM else 0
  | 7 =>
    let ramped := bitAt r.arg 3
    let rt := nth (0, 0) c.ratios (r.arg % 4)
    if !(s.st = 1 || (s.st = 3 && ramped)) then whySTATE
    else if rt.2 = 0 then whyPARAM
    else if !ramped && masterDelta e s.mSeen ≠ 0 then whyMASTER else 0
  | 8 => if s.st ≠ 3 then whySTATE else if !parOk r then whyPARAM else 0
  | 9 => if !(s.st = 3 && s.offset.isNone) then whySTATE
         else if !(decide (0 < orDef r.a c.aDef) && decide (0 < orDef r.j c.jDef) && decide (0 < c.vAdj)) then whyPARAM
         else 0
  | 10 => if !(s.st = 1 && c.kind = 1) then whySTATE else if !parOk r then whyPARAM else 0
  | 11 => if s.st = 1 || s.st = 0 then 0 else whySTATE
  | 12 => if !(s.st = 7 || s.st = 6) then whySTATE else if axPersists c e s then whyLIMIT else 0
  | 13 =>
    if c.kind ≠ 2 || s.st = 6 || s.st = 7 then whySTATE
    else if s.ramp.isSome then whyBUSY
    else if r.kEff ≤ e.k then whyLATE
    else if !parOk r then whyPARAM else 0
  | _ => whySTATE

/-- VM_SPEED's three-phase ramp (R184); whether a result saturated. -/
def planVirt (kEff : Nat) (v0 vt a j : Int) : VirtRamp × Bool :=
  let q (x : Int) : Qv := { v := x }
  let dv := q (vt - v0).natAbs
  let aa := (q a).mul (q a)
  let tt : Qv × Qv := if aa.v ≤ (dv.mul (q j)).v then ((q a).div (q j), (dv.div (q a)).sub ((q a).div (q j)))
    else ((dv.div (q j)).sqrt, q 0)
  ({ kEff := kEff, v0 := v0, vt := vt, tj := tt.1.v, ta := tt.2.v, j := j }, aa.sat || (dv.mul (q j)).sat || tt.1.sat || tt.2.sat)

/-- The length of a ramp. -/
def VirtRamp.len (r : VirtRamp) : Int := 2 * r.tj + r.ta

/-- A ramp's values `t` after its start at position `pE`. -/
def VirtRamp.at_ (r : VirtRamp) (pE t : Int) : Mot :=
  let sj := sgnI (r.vt - r.v0) * r.j
  walkPhases [(r.tj, sj), (r.ta, 0), (r.tj, -sj)] (min t r.len) { p := pE, v := r.v0, a := 0 }

/-- The position of a virtual axis at constant velocity (R184): exact, reduced where a MODULUS is set, saturated where none is (R175). -/
def virtAt (c : AxisCfg) (s : AxisSt) (k : Int) : Qv :=
  let x := s.pRef + (k - s.kRef) * s.vRef
  if 0 < c.modulus then { v := x % c.modulus } else qTake x

/-- From the end of its ramp on a virtual axis is at constant velocity again; every 2^24 cycles of that its reference is rebased (R184). -/
def virtSettle (c : AxisCfg) (k : Nat) (s : AxisSt) : AxisSt :=
  match s.ramp with
  | some r =>
    let t : Int := ((k : Int) - r.kEff) * qOne
    if t < r.len then s
    else
      let b := virtAt c s r.kEff
      let w := r.at_ b.v r.len
      let d := Qv.mul ⟨r.vt, false⟩ ⟨t - r.len, false⟩
      let p := qTake (w.p + d.v)
      { s with ramp := none, vRef := r.vt, kRef := k, pRef := pMod c.modulus p.v, sat := s.sat || b.sat || w.sat || d.sat || p.sat }
  | none => if k % 2 ^ 24 = 0 then { s with pRef := (virtAt c s k).v, kRef := k } else s

/-- A virtual axis takes its values at constant velocity. -/
def AxisSt.even (c : AxisCfg) (k : Nat) (s : AxisSt) : AxisSt :=
  let b := virtAt c s k
  { s with p := b.v, v := s.vRef, a := 0, sat := s.sat || b.sat }

/-- A virtual axis in cycle k (R184). -/
def virtStep (c : AxisCfg) (k : Nat) (s : AxisSt) : AxisSt :=
  let s := virtSettle c k s
  match s.ramp with
  | some r =>
    if k < r.kEff then s.even c k
    else
      let b := virtAt c s r.kEff
      let s := s.take (r.at_ b.v (((k : Int) - r.kEff) * qOne))
      { s with p := pMod c.modulus s.p, sat := s.sat || b.sat }
  | none => s.even c k

/-- The switch a homing method watches (R187). -/
def homeSwitch (c : AxisCfg) (e : AxisEnv) : Bool :=
  match c.homing with
  | 5 => swActive e c.limPos
  | 6 => swActive e c.limNeg
  | _ => swActive e c.homeSw

/-- The ratio of blend cycle i of n (R186): r_old + f_i (r_new − r_old) with f_i = 3x² − 2x³, x = i/n, formed exactly and rounded to Q4.28. -/
def blendRatio (g : GearSt) (i : Int) : Taken :=
  let n : Int := g.engN
  let f := 3 * i * i * n - 2 * i * i * i
  let num := g.oNum * g.den * n ^ 3 + f * (g.num * g.oDen - g.oNum * g.den)
  satW (roundDiv (num * 2 ^ 28) (g.oDen * g.den * g.engN ^ 3))

/-- The ratio in effect, as a fraction: that of the last blend cycle while a blend runs (R186). -/
def GearSt.ratio (g : GearSt) : Int × Nat := if g.engI < g.engN then (sW (blendRatio g g.engI).w, 2 ^ 28) else (g.num, g.den)

/-- A reference shifts the axis frame by `d` (R188): the setpoint, the offset of the actual position and that of whole positions (R191). -/
def AxisSt.reframe (d : Int) (s : AxisSt) : AxisSt :=
  { s with p := s.p + d, aOff := s.aOff + d, sOff := s.sOff + (qFloor (s.p + d) - qFloor s.p), shift := d, posref := true, homed := true }

/-- The effect of an accepted command (R179 to R187). A HOME command clears HOMED: the model's choice, R187 says only when it is set (log entry
120). -/
def axApply (code : Nat) (c : AxisCfg) (e : AxisEnv) (r : AxisPar) (s : AxisSt) : AxisSt :=
  match code with
  | 1 => { s with st := 1, enOut := true, v := 0, a := 0 }
  | 2 => { s with st := 0, enOut := false, v := 0, a := 0, plan := none, vt := none, gear := none, offset := none }
  | 3 =>
    let m := planMove e.k s.p (modDiff c s.p r.p0) r.v r.a r.j
    { s with st := 2, vt := none, plan := some m.1, sat := s.sat || m.2 }
  | 4 =>
    let m := planMove e.k s.p r.p0 r.v r.a r.j
    { s with st := 2, vt := none, plan := some m.1, sat := s.sat || m.2 }
  | 5 => { s with st := 2, plan := none, vt := some (r.p1, r.a, r.j) }
  | 6 => if s.st = 6 then { s with st := 1, v := 0, a := 0, vt := none, plan := none }
         else axStop r.a r.j (if s.st = 5 then s.stopFault else 0) (axProfile c e.k s)
  | 7 =>
    let n := r.arg % 4
    let rt := nth (0, 1) c.ratios n
    if bitAt r.arg 3 then
      let old : Int × Nat := match s.gear with | some g => g.ratio | none => (0, 1)
      { s with st := 3, ratioSet := n, gear := some { num := rt.1, den := rt.2, engI := 0, engN := c.eng, oNum := old.1,
                                                      oDen := old.2, mPrev := mPrevOf s } }
    else { s with st := 3, ratioSet := n, gear := some { num := rt.1, den := rt.2, mPrev := e.m } }
  | 8 =>
    let q := match s.gear with | some g => g.q | none => 0
    axStop r.a r.j 0 { s with v := q, a := 0 }
  | 9 =>
    let m := planMove e.k 0 r.p0 c.vAdj r.a r.j
    { s with offset := some m.1, offDone := 0, sat := s.sat || m.2 }
  | 10 =>
    if c.homing = 0 then { s.reframe (c.homePos - s.p) with p := pMod c.modulus c.homePos }
    else { s with st := 4, homPhase := 0, homStart := s.p, homeFe := 0, homed := false, latClear := false,
                           swPrev := homeSwitch c e }
  | 11 =>
    let np := pMod c.modulus r.p0
    { s.reframe (np - s.p) with pRef := if c.kind = 2 then s.pRef + (np - (virtStep c e.k s).p) else s.pRef }
  | 12 => { s with st := 1, v := 0, a := 0, stopFault := 0, enOut := true, resetOk := true }
  | 13 =>
    let m := planVirt r.kEff s.vRef r.p1 r.a r.j
    { s with ramp := some m.1, sat := s.sat || m.2 }
  | _ => s

/-- Judge and take a new command word of a source (R178): acknowledged either way. `only` restricts to one code. -/
def axTake (only : Option Nat) (fromSig : Bool) (w : Word) (r : AxisPar) (c : AxisCfg) (e : AxisEnv) (s : AxisSt) :
    AxisSt :=
  let seq := bitsOf w.toNat 8 8
  let code := bitsOf w.toNat 0 4
  let new := if fromSig then seq ≠ s.ackS else seq ≠ s.ackW
  if !(decide new && (only = none || only = some code)) then s
  else
    let why := if s.heldNow then whySTATE else if s.sigTaken && !fromSig then whySOURCE else axWhy code c e r s
    let s1 := if fromSig then { s with ackS := seq, sigTaken := true } else { s with ackW := seq }
    let s2 := { s1 with lastReq := if why = 0 then 1 else 2, reqSrc := b2n fromSig, why := why }
    if why = 0 then axApply code c e r s2 else { s2 with refused := satAdd 0xFFFF s2.refused 1 }

/-- A new command of CMD_SIG; one with VALID clear is none (log entry 20). -/
def axFromSig (c : AxisCfg) (e : AxisEnv) (s : AxisSt) : AxisSt :=
  match c.cmdSig with
  | some g => if (e.sig g).valid then axTake none true (e.sig g).val (parSig c e (e.sig g).val) c e s else s
  | none => s

/-- Both sources, CMD_SIG first (R178). -/
def axRequests (c : AxisCfg) (e : AxisEnv) (s : AxisSt) : AxisSt := axTake none false e.cmdW (parTile c e e.cmdW) c e (axFromSig c e s)

/-- Faults and device HOLD at the start of the evaluation, once in a cycle (R178 step 1), after a virtual axis has seen the end of its ramp. -/
def axFaults (c : AxisCfg) (e : AxisEnv) (s : AxisSt) : AxisSt :=
  if s.checked then s else
  let s := { if c.kind = 2 then virtSettle c e.k s else s with checked := true }
  let live := s.st ≠ 0 && s.st ≠ 6 && s.st ≠ 7 && c.kind = 1
  let cause := if s.pendFault ≠ 0 then s.pendFault else axCond c e s
  let s0 := { s with pendFault := 0 }
  let now := if e.driveFault then 5 else if e.short then 7 else 0
  if e.hold3 && c.kind ≠ 0 then
    { s0 with st := 6, heldNow := true, v := 0, a := 0, plan := none, vt := none, gear := none, offset := none }
  else if live && now ≠ 0 then { axFault now { s0 with enOut := false } with heldNow := true }
  else if live && cause ≠ 0 && s.stopFault = 0 then
    { axStop c.aQuick c.jQuick cause (axProfile c e.k s0) with heldNow := true }
  else s0

/-- One cycle of the gear (R185, R186): new gear state and the step q, with the record of a saturation. -/
def gearStep (e : AxisEnv) (g : GearSt) : GearSt × Qv :=
  let x := masterDelta e g.mPrev
  if g.engI < g.engN then
    let i := g.engI + 1
    let r := blendRatio g i
    let q := qTake (roundDiv (x * sW r.w) (2 ^ 28))
    ({ g with engI := i, rem := 0, mPrev := e.m, q := q.v, blend := true }, { q with sat := q.sat || r.sat })
  else
    let nn := x * g.num + g.rem
    let q := nn / g.den
    ({ g with rem := nn - q * g.den, mPrev := e.m, q := q, blend := false }, qTake q)

/-- One cycle of a stop (R182, R189): STANDSTILL, or FAULT, once it leaves no velocity and no acceleration. -/
def axStopping (c : AxisCfg) (e : AxisEnv) (s : AxisSt) : AxisSt :=
  let m : Mot := if s.stopAt = some e.k then s.mot
    else match s.vt with | some x => velRule x.1 x.2.1 x.2.2 s.mot | none => { p := s.p, v := 0, a := 0 }
  let s1 := s.take m
  let s1 := { s1 with p := if s.stopFault = 3 then clampI c.slimLo c.slimHi m.p else pMod c.modulus m.p }
  if m.v = 0 && m.a = 0 then
    if s.stopFault ≠ 0 then axFault s.stopFault s1 else { s1 with st := 1, vt := none }
  else s1

/-- Extend a 32-bit drive position to the value nearest the setpoint (R190). -/
def extPos (p : Int) (x : Nat) : Int :=
  let xi : Int := x
  (xi + 2 ^ 32 * roundDiv (qFloor p - xi) (2 ^ 32)) * qOne

/-- The actual position of this cycle. -/
def axApos (e : AxisEnv) (s : AxisSt) : Int :=
  match e.apos with | some x => extPos (s.p - s.aOff) x + s.aOff | none => s.apos

/-- Take a home reference (R188): add HOME_POS − p_c to p and to the actual-position offset, and stop the creep in the same cycle. -/
def homeRef (c : AxisCfg) (e : AxisEnv) (pc : Int) (s : AxisSt) : AxisSt :=
  axStopping c e { s.reframe (c.homePos - pc) with homPhase := 9, st := 5, vt := some (0, c.aDef, c.jDef), stopFault := 0, stopAt := none }

/-- Direction of the search of a homing method. -/
def homeDir (c : AxisCfg) : Int := if c.homing = 2 ∨ c.homing = 4 ∨ c.homing = 6 then -1 else 1

/-- The drive's latch is armed in the phase whose edge is the reference (log entry 105). -/
def homArmed (c : AxisCfg) (s : AxisSt) : Bool :=
  s.st = 4 && decide (s.homPhase = if c.homing = 3 ∨ c.homing = 4 then 2 else 1)

/-- One cycle of a search or creep, with the default A and J: the model's choice, R187 names no limits (log entry 120); on a modulo axis the start moves with p, so that their difference stays the travel. -/
def homeGo (c : AxisCfg) (vt : Int) (s : AxisSt) : AxisSt :=
  let s := s.take (velRule vt c.aDef c.jDef s.mot)
  { s with p := pMod c.modulus s.p, homStart := s.homStart + (pMod c.modulus s.p - s.p) }

/-- One cycle of homing (R187). A latched position counts once LATCHED has been seen clear with the latch armed. An edge for which neither the drive
nor a pin has captured a position takes the present setpoint: the model's choice, R188 gives no other (log entry 121). -/
def homeStep (c : AxisCfg) (e : AxisEnv) (s : AxisSt) : AxisSt :=
  let sw := homeSwitch c e
  let was := s.swPrev
  let d := homeDir c
  let s := { s with swPrev := sw, latClear := homArmed c s && (s.latClear || e.index.isNone) }
  let creep (dir : Int) (s : AxisSt) : AxisSt := homeGo c (dir * c.vCreep.natAbs) s
  let index := if s.latClear then e.index else none
  if c.homeMax < (s.p - s.homStart).natAbs then axStopping c e (axStop c.aQuick c.jQuick 8 s)
  else if c.homing = 7 then
    let n := if c.feMax < 2 * s.fe.natAbs then s.homeFe + 1 else 0
    if c.feCnt ≤ n then homeRef c e (axApos e s) s else homeGo c c.vCreep { s with homeFe := n }
  else match s.homPhase with
    | 0 => if sw && (!was || c.homing = 5 || c.homing = 6) then creep (-d) { s with homPhase := 1 } else homeGo c (d * c.vSearch.natAbs) s
    | 1 =>
      if !sw && was then
        if c.homing = 3 || c.homing = 4 then creep d { s with homPhase := 2 }
        else homeRef c e ((index.orElse (fun _ => e.capture)).getD s.p) s
      else creep (-d) s
    | _ => match index with
      | some pc => homeRef c e pc s
      | none => creep d s

/-- The offset move's increment of this cycle (R186). -/
def offsetStep (e : AxisEnv) (s : AxisSt) : AxisSt × Int :=
  match s.offset with
  | none => (s, 0)
  | some m =>
    match planStep m e.k with
    | some x => ({ s with offDone := x.p, sat := s.sat || x.sat }, x.p - s.offDone)
    | none => ({ s with offset := none, offDone := 0 }, m.target - s.offDone)

/-- Motion of one cycle by state (R180 to R189). -/
def axMove (c : AxisCfg) (e : AxisEnv) (s : AxisSt) : AxisSt :=
  if c.kind = 2 then (if s.st = 6 ∨ s.st = 7 then { s with v := 0, a := 0 } else virtStep c e.k s)
  else match s.st with
    | 2 =>
      match s.plan with
      | some m =>
        match planStep m e.k with
        | some x => let s := s.take x; { s with p := pMod c.modulus s.p }
        | none => { s with p := pMod c.modulus m.target, v := 0, a := 0, plan := none, st := 1 }
      | none =>
        let s := s.take (match s.vt with | some x => velRule x.1 x.2.1 x.2.2 s.mot | none => s.mot)
        { s with p := pMod c.modulus s.p }
    | 3 =>
      match s.gear with
      | some g =>
        let r := gearStep e g
        let o := offsetStep e s
        let d := r.2.v + o.2
        let p := qTake (s.p + d)
        { o.1 with gear := some { r.1 with q := d }, p := pMod c.modulus p.v, v := d, a := 0, sat := o.1.sat || r.2.sat || p.sat }
      | none => s
    | 4 => homeStep c e s
    | 5 => axStopping c e s
    | _ => { s with v := 0, a := 0 }

/-- The setpoint staged in a cycle, or in the latest one executed before it; older than every one kept: the oldest. -/
def histAt : List (Nat × Int) → Nat → Int
  | [], _ => 0
  | [x], _ => x.2
  | x :: t, k => if x.1 ≤ k then x.2 else histAt t k

/-- The SOFT_LIMIT hold (R189), actual position, which SPOS follows in DISABLED (R190), following error and their counts. -/
def axAfter (c : AxisCfg) (e : AxisEnv) (s : AxisSt) : AxisSt :=
  let ap := axApos e s
  let slim := c.slimLo ≠ c.slimHi && s.homed && ((s.st = 2 && s.plan.isNone) || s.st = 3) && !inSlim c s.p
  let s := if slim then axStop c.aQuick c.jQuick 3 { s with p := clampI c.slimLo c.slimHi s.p } else s
  let s := if s.st = 0 && c.dest = 1 && e.apos.isSome then { s with p := pMod c.modulus ap } else s
  let hist := ((e.k, s.p) :: s.hist.filter (fun x => decide (x.1 < e.k))).take 1024
  let fe0 := ap - histAt hist (e.k - c.feDelay)
  let fe := if 0 < c.modulus then fe0 - c.modulus * roundDiv fe0 c.modulus.toNat else fe0
  let tooFar := decide (c.feMax < fe.natAbs) && !e.forced && c.dest = 1 && e.apos.isSome
    && !(s.st = 4 && c.homing = 7) && s.st ≠ 0 && s.st ≠ 6 && s.st ≠ 7
  let n := if tooFar then satAdd 255 s.feCnt 1 else 0
  { s with apos := ap, hist := hist, mSeen := e.m, fe := fe, feCnt := n, stepLag := e.stepLag,
           inv := if e.apos.isSome || c.dest ≠ 1 then 0 else satAdd 255 s.inv 1,
           pendFault := if tooFar && decide (c.feCnt ≤ n) && s.stopFault = 0 then 4 else s.pendFault }

/-- What `UNIT.AX_STAT` shows (R195), bits 20:0. -/
def axisStat (c : AxisCfg) (s : AxisSt) : Nat :=
  let eng := match s.gear with | some g => g.blend | none => false
  s.st + b2n s.homed * 2 ^ 4 + c.dest * 2 ^ 5 + b2n eng * 2 ^ 7 + b2n s.offset.isSome * 2 ^ 8 + s.cause * 2 ^ 9
    + b2n s.stepLag * 2 ^ 13 + s.lastReq * 2 ^ 14 + s.reqSrc * 2 ^ 16 + s.why * 2 ^ 17

/-- VEL (R176): v over V as a Q1.31 value. -/
def axVel (c : AxisCfg) (s : AxisSt) : Taken := satW (if c.vDef = 0 then 0 else roundDiv (s.v * 2 ^ 31) c.vDef.natAbs)

/-- The signals an axis stages (R176), and SVEL and CTRLW of its drive object (R190); `p0` is the setpoint of the cycle
before. -/
def axisStaged (c : AxisCfg) (e : AxisEnv) (p0 : Int) (s : AxisSt) : List Staged :=
  let dp0 := s.p - p0
  let dp := if 0 < c.modulus then (dp0 + c.modulus / 2) % c.modulus - c.modulus / 2 else dp0
  let ctl := b2n s.enOut + b2n (s.st = 5 && s.stopFault ≠ 0) * 2 + b2n (homArmed c s) * 4 + b2n s.posref * 8
  let opt (o : Option Nat) (w : Word) : List Staged := match o with | some g => [stg g w stOk] | none => []
  [stg c.sSpos (wS (qFloor s.p)) stOk,
   stg c.sApos (wS (qFloor s.apos)) (mkStatus (c.dest ≠ 1 || e.apos.isSome) 0 false false false false),
   stg c.sVel (axVel c s).w (mkStatus true 0 false false false (axVel c s).sat),
   stg c.sState (BitVec.ofNat 32 (axisStat c s)) stOk] ++ opt c.sSvel (wS (roundDiv dp (2 ^ 16)))
    ++ opt c.sCtrl (BitVec.ofNat 32 ctl)

/-- One axis in one cycle: faults, commands, motion, actual position (R178, R181 to R189). -/
def axisEval (c : AxisCfg) (e : AxisEnv) (s : AxisSt) : AxisSt × List Staged :=
  if c.kind = 0 then (s, [])
  else
    let p0 := match s.hist with | x :: _ => x.2 | [] => s.p
    let s := axAfter c e (axMove c e (axRequests c e (axFaults c e s)))
    ({ s with sigTaken := false, heldNow := false, checked := false, posref := false, shift := 0, sat := s.sat || (axVel c s).sat },
     axisStaged c e p0 s)

/-- An axis after a resume (R194): CONTINUE keeps its state, STOP starts a stop from the checkpoint's velocity, or goes on with one, at the setpoint
that is still latched. The stop's limits are the default A and J: the model's choice, R194 names none (log entry 122). -/
def axResume (c : AxisCfg) (latched : Option Word) (s : AxisSt) : AxisSt :=
  if c.resumeStop && c.kind = 1 && (s.st = 2 || s.st = 3 || s.st = 4 || s.st = 5) then
    let p := match latched with
      | some w => if wS (qFloor s.p) = w then s.p else pMod c.modulus (extPos s.p w.toNat)
      | none => s.p
    if s.st = 5 then { s with p := p, stopAt := none } else axStop c.aDef c.jDef 0 { s with p := p, stopAt := none }
  else s

end Sys2Proof.Machine
end

