-- ==== Sys2Proof/Machine/Power.lean ====
section
/-!
DEFINITION. The power arbiter and the margin planner (R430 to R449).
-/
namespace Sys2Proof.Machine

def Dev.rgn (d : Dev) (g : Nat) : RgnSt := Tbl.getD {} d.pwr.rgns g
def Dev.setRgn (g : Nat) (r : RgnSt) (d : Dev) : Dev := { d with pwr := { d.pwr with rgns := Tbl.put g r d.pwr.rgns } }

/-- The rank of a class code (R26); a region without a class ranks last. -/
def classRank (c : Nat) : Nat :=
  if c = 1 then 1 else if c = 3 then 2 else if c = 2 then 3 else if c = 4 then 4 else if c = 6 then 5 else if c = 5 then 6
  else if c = 7 then 7 else 8

/-- Class codes from the highest rank to ACQUIRE. -/
def rankedClasses : List Nat := [1, 3, 2, 4, 6, 5]

/-- The region of a unit (R13, R16). -/
def rgnOf (u : Nat) : Nat := u / 64

/-- The arbitration class of a region: the highest-ranked class among its clusters' owners (R432). -/
def Dev.rgnClass (d : Dev) (g : Nat) : Nat :=
  (List.range 4).foldl (fun a i =>
    let c := nth 0 d.cfg.own.clClass (4 * g + i)
    if classRank c < classRank a then c else a) 0

/-- Regions with used units (R432). -/
def Dev.rgnUsed (d : Dev) (g : Nat) : Bool := d.cfg.units.any (fun u => decide (u.unit / 64 = g))

def Dev.rgnsUsed (d : Dev) : List Nat := (List.range d.nRegions).filter d.rgnUsed

/-- Rails lie between 0.55 V and 0.95 V (R16, R436). -/
def railMv (v : Nat) : Nat := max 550 (min 950 v)

/-- The rail of a region at V_eol (R44, R446). -/
def Dev.eolV (d : Dev) (g : Nat) : Nat := railMv (nth (0, []) d.cfg.proof.regions g).1

/-- The voltage a region is planned to hold: its plan's, or V_eol before the first plan (R446). -/
def Dev.planV (d : Dev) (g : Nat) : Nat :=
  let p := d.rf R.MARG_RGN_PLAN_PLAN_MV 0 g
  if p = 0 then d.eolV g else p

/-- The planned voltage plus any boost in force (R432). -/
def Dev.vTgt (d : Dev) (g : Nat) : Nat := min 950 (d.planV g + (d.rgn g).boost)

/-- Regions in the order of R27: by rank, then rotating from region e mod 8. -/
def Dev.rgnOrder (d : Dev) (e : Nat) : List Nat :=
  let rot := (List.range 8).map (fun i => (e + i) % 8)
  ([1, 2, 3, 4, 5, 6, 7, 8].map (fun r => rot.filter (fun g => decide (classRank (d.rgnClass g) = r)))).flatten

/-- The present epoch (R430). -/
def Dev.epoch (d : Dev) : Nat := d.time.cnt / 500000

/-! ### Requests to planner and arbiter -/

/-- A plan trigger (R440): it starts a plan, restarts the window of one in progress, or waits for the cores (R446). -/
def Dev.planTrigger (g : Nat) (d : Dev) : Dev :=
  let r := d.rgn g
  if d.rst.coresUp then
    (d.setRgn g { r with planning := true, planAt := d.time.cnt, trig := false }).wf R.MARG_STAT_PLANNING
      (setBits (d.rf R.MARG_STAT_PLANNING) g 1 1)
  else d.setRgn g { r with trig := true }

/-- A boost request (R437). -/
def Dev.boostAsk (g : Nat) (d : Dev) : Dev :=
  let r := d.rgn g
  d.setRgn g { r with wants := true, wantAt := if r.wants then r.wantAt else d.time.cnt }

/-- A rail change that waits for the current-step limit (R436). -/
def Dev.railAsk (g mv : Nat) (d : Dev) : Dev := d.setRgn g { d.rgn g with railWait := some mv }

/-- Count the operations of a completed cycle or item (R434). -/
def Dev.countOps (g n : Nat) (d : Dev) : Dev := d.setRgn g { d.rgn g with ops := (d.rgn g).ops + n }

/-- The envelope is reached: the dispatcher holds items of the region; a hold lasts to the next epoch, whatever plan completes in it
(R434, R447). -/
def Dev.envFull (d : Dev) (g : Nat) : Bool :=
  let e := d.rf R.MARG_RGN_ENV_OPS 0 g
  d.flag R.PWR_RGN_STAT_ENVHOLD 0 g || (decide (e ≠ 0) && decide (e ≤ (d.rgn g).ops))

/-- What the arbiter does at a hold (R434). -/
def Dev.envHold (g : Nat) (d : Dev) : Dev :=
  let d := d.wf R.PWR_RGN_STAT_ENVHOLD 1 0 g
  let r := d.rgn g
  if r.held then d else ((d.setRgn g { r with held := true }).raise Ev.PWR_ENVELOPE 0 []).planTrigger g

/-! ### The epoch (R430 to R435) -/

/-- The need of a region, in mW, rounded to nearest (R432). -/
def needOf (p vm vt : Nat) : Nat := if vm = 0 then 0 else (roundDiv ((p * vt ^ 3 : Nat) : Int) (vm ^ 3)).toNat

/-- Floors given to the regions of a class in proportion to their need (R432). -/
def shareFloor (fl : Nat) (needs : List (Nat × Nat)) : List (Nat × Nat) :=
  let tot := needs.foldl (fun a x => a + x.2) 0
  needs.map (fun x => (x.1, if tot = 0 then 0 else fl * x.2 / tot))

/-- Cut floors in reverse rank order until the overdraft is covered; CONTROL is never cut (R433). The list runs from the
lowest rank up; entries are (class, floor). -/
def cutFloors : Nat → List (Nat × Nat) → List (Nat × Nat)
  | _, [] => []
  | x, (c, f) :: t =>
    if c = 1 then (c, f) :: cutFloors x t
    else (c, f - min x f) :: cutFloors (x - min x f) t

/-- Give what is left to regions in order, up to their need (R432). -/
def giveExtra : Nat → List (Nat × Nat × Nat) → List (Nat × Nat) × Nat
  | avail, [] => ([], avail)
  | avail, (g, need, fl) :: t =>
    let x := min (need - fl) avail
    let r := giveExtra (avail - x) t
    ((g, fl + x) :: r.1, r.2)

/-- The shed level changes (R435). -/
def Dev.setShed (l : Nat) (d : Dev) : Dev :=
  if d.rf R.PWR_STAT_SHED = l then d
  else (d.wf R.PWR_STAT_SHED l).raise Ev.PWR_SHED 0 [BitVec.ofNat 8 l]

/-- Shedding at an epoch start (R435). -/
def Dev.shedStep (bad : Bool) (spare : Nat) (d : Dev) : Dev :=
  let l := d.rf R.PWR_STAT_SHED
  let ok := !bad && decide (d.pwr.budget * 2 ≤ spare * 100)
  let q := if ok then d.pwr.quiet + 1 else 0
  let down := decide (100 ≤ q) && decide (l ≠ 0)
  let d : Dev := { d with pwr := { d.pwr with quiet := if down then 0 else q } }
  let d := if bad then d.setShed (min 4 (l + 1)) else if down then d.setShed (l - 1) else d
  let dm := d.rf R.ACQ_SHED_DMIN
  if d.rf R.PWR_STAT_SHED ≠ 0 then
    let d : Dev := { d with pwr := { d.pwr with shedQuiet := 0 } }
    if d.rgnsUsed.any (fun g => d.flag R.PWR_RGN_STAT_CAPPED 0 g) then d.wf R.ACQ_SHED_DMIN (min 8 (1 + dm)) else d
  else if dm = 0 then d
  else if 99 ≤ d.pwr.shedQuiet then
    ({ d with pwr := { d.pwr with shedQuiet := 0 } } : Dev).wf R.ACQ_SHED_DMIN (dm - 1)
  else { d with pwr := { d.pwr with shedQuiet := d.pwr.shedQuiet + 1 } }

/-- A rail has changed: the window of a plan in progress starts again (R441). -/
def Dev.railSet (g v : Nat) (d : Dev) : Dev :=
  let r := d.rgn g
  (if r.planning && decide (v ≠ d.rf R.RGN_RAIL_MV g) then d.setRgn g { r with planAt := d.time.cnt } else d).wf R.RGN_RAIL_MV v g

/-- A lower V_plan is taken in steps of 10 mV, one per epoch (R442). -/
def Dev.descend (g : Nat) (d : Dev) : Dev :=
  let r := d.rgn g
  let v := d.rf R.RGN_RAIL_MV g
  let t := d.vTgt g
  if r.descend && decide (t < v) then (d.setRgn g { r with descend := decide (t + 10 < v) }).railSet g (max t (v - 10))
  else d

/-- PWR_EPOCH (R430 to R435). -/
def Dev.pwrEpoch (m : EpochMeas) (d : Dev) : Dev :=
  let e := d.epoch
  let d : Dev := { d with pwr := { d.pwr with budget := d.rf R.PWR_BUDGET_PKG_BUDGET, ilim := d.rf R.PWR_ILIM_ILIM, vin := m.vin,
                                              hist := (m.base :: d.pwr.hist).take 4, epochAt := some e } }
  let pbase := d.pwr.hist.foldl max 0
  let rb := d.pwr.budget * d.rf R.PWR_CFG_RESV / 100
  let cap := min d.pwr.budget (m.vin * d.pwr.ilim / 100)
  let a := cap - pbase - rb
  let meas (g : Nat) : Nat × Nat := nth (0, 0) m.rgns g
  let needR (g : Nat) : Nat := if d.rgnUsed g then needOf (meas g).1 (meas g).2 (d.vTgt g) else 0
  let need := (List.range 8).map needR
  let regs (c : Nat) : List Nat := d.rgnsUsed.filter (fun g => decide (d.rgnClass g = c))
  let floor0 := rankedClasses.reverse.map (fun c =>
    (c, min (nth 0 d.cfg.own.floors (c - 1)) ((regs c).foldl (fun s g => s + nth 0 need g) 0)))
  let tot := floor0.foldl (fun s x => s + x.2) 0
  let floors := cutFloors (tot - a) floor0
  let cut := decide (floors ≠ floor0) || d.pwr.short
  let given := (floors.map (fun x => shareFloor x.2 ((regs x.1).map (fun g => (g, nth 0 need g))))).flatten
  let flOf (g : Nat) : Nat := Tbl.getD 0 given g
  let left := a - floors.foldl (fun s x => s + x.2) 0
  let ex := giveExtra left ((d.rgnOrder e).map (fun g => (g, nth 0 need g, flOf g)))
  let d := (d.wf R.PWR_PIN_MW m.pin).wf R.PWR_IIN_MA m.iin
  let d := (d.wf R.PWR_PBASE_MW pbase).wf R.PWR_SPARE_MW ex.2
  let d := (List.range 6).foldl (fun d i =>
    let f := Tbl.getD 0 floors (i + 1)
    d.wf R.PWR_FLOORc_MW (if f = Tbl.getD 0 floor0 (i + 1) then nth 0 d.cfg.own.floors i else f) 0 i) d
  let d := (List.range d.nRegions).foldl (fun d g =>
    let r := d.rgn g
    let gr := Tbl.getD 0 ex.1 g
    let capped := decide (gr < nth 0 need g) || decide (r.cut ≠ 0)
    let d := d.setRgn g { r with ops := 0, floorG := flOf g, cut := 0, vm := (meas g).2 }
    let d := (d.wf R.PWR_RGN_GRANT_MW gr 0 g).wf R.PWR_RGN_MEAS_MW (meas g).1 0 g
    let d := (d.wb R.PWR_RGN_STAT_CAPPED capped 0 g).wf R.PWR_RGN_STAT_ENVHOLD 0 0 g
    ((d.wf R.PWR_RGN_OPS_OPS (min r.ops (2 ^ 32 - 1)) 0 g).wf R.PWR_RGN_STAT_CLASS (d.rgnClass g) 0 g).descend g) d
  let within := if 100 ≤ d.pwr.ilimFor then 100 else if m.iin ≤ d.pwr.ilim * 10 then d.pwr.ilimFor + 1 else 0
  let d : Dev := { d with pwr := { d.pwr with reserve := rb, short := false, ilimFor := within } }
  let d := if cut then
      let d := d.wf R.PWR_STAT_FLOORSHORT 1
      let due := match d.pwr.floorEvt with | some t => decide (t + 500000000 ≤ d.time.cnt) | none => true
      if due then ({ d with pwr := { d.pwr with floorEvt := some d.time.cnt } } : Dev).raise Ev.PWR_FLOOR_SHORT 0 [] else d
    else d
  let capd := d.rgnsUsed.any (fun g => d.flag R.PWR_RGN_STAT_CAPPED 0 g)
  d.shedStep (capd || cut) ex.2

/-- PWR_EPOCH: once in every epoch. -/
def execPwrEpoch (m : EpochMeas) (s : State) : Res :=
  s.on (fun d => if d.flag R.PWR_CTRL_EN && decide (d.pwr.epochAt ≠ some d.epoch) then d.pwrEpoch m else d)

/-- ILIM_EXCEEDED (R431). -/
def execIlimExceeded (s : State) : Res :=
  s.on (fun d =>
    ({ ((d.wf R.PWR_STAT_ILIM 1).raise Ev.PWR_ILIM 0 []) with pwr := { d.pwr with ilimFor := 0 } } : Dev).setShed 4)

/-- The power cap for a budget and a limit at the last measured VIN (R430). -/
def Dev.capOf (d : Dev) (budget ilim : Nat) : Nat :=
  if d.pwr.vin = 0 then budget else min budget (d.pwr.vin * ilim / 100)

/-- Floors and P_base that a cap must cover (R430). -/
def Dev.capNeed (d : Dev) : Nat :=
  (d.cfg.own.floors.take 6).foldl (· + ·) 0 + d.rf R.PWR_PBASE_MW

/-- A budget write (R430); the second component says whether it was refused. -/
def Dev.budgetWrite (w : Nat) (d : Dev) : Dev × Bool :=
  let v := bitsOf w 0 17
  if 30000 ≤ v ∧ v ≤ 95000 ∧ d.capNeed ≤ d.capOf v (d.rf R.PWR_ILIM_ILIM) then (d.wf R.PWR_BUDGET_PKG_BUDGET v, false)
  else (d.wf R.PWR_STAT_REFUSED 1, true)

def execPwrBudgetWrite (w : Word) (s : State) : Res := s.on (fun d => (d.budgetWrite w.toNat).1)

/-- A VIN limit write (R430). -/
def Dev.ilimWrite (w : Nat) (d : Dev) : Dev × Bool :=
  let v := bitsOf w 0 10
  if 100 ≤ v ∧ v ≤ 850 ∧ d.capNeed ≤ d.capOf (d.rf R.PWR_BUDGET_PKG_BUDGET) v then (d.wf R.PWR_ILIM_ILIM v, false)
  else (d.wf R.PWR_STAT_REFUSED 1, true)

def execPwrIlimWrite (w : Word) (s : State) : Res := s.on (fun d => (d.ilimWrite w.toNat).1)

/-! ### Boosts and rails (R436 to R438) -/

/-- Take from grants above floor of regions of lower rank, the lowest rank first; answers what is still uncovered. -/
def Dev.takeGrants (rank : Nat) : List Nat → Nat → Dev → Dev × Nat
  | [], cost, d => (d, cost)
  | g :: t, cost, d =>
    if classRank (d.rgnClass g) ≤ rank then Dev.takeGrants rank t cost d
    else
      let gr := d.rf R.PWR_RGN_GRANT_MW 0 g
      let x := min cost (gr - (d.rgn g).floorG)
      let d := if x = 0 then d
        else (d.wf R.PWR_RGN_GRANT_MW (gr - x) 0 g).setRgn g { d.rgn g with cut := (d.rgn g).cut + x }
      Dev.takeGrants rank t (cost - x) d

/-- A boost takes effect (R437, R447). -/
def Dev.boostApply (g : Nat) (d : Dev) : Dev :=
  let r := d.rgn g
  let b := min (r.boost + d.rf R.MARG_CFG_BOOST_MV) (950 - d.planV g)
  let d := d.setRgn g { r with boost := b, wants := false, planAt := if r.planning then d.time.cnt else r.planAt }
  let d := (d.wf R.PWR_RGN_STAT_BOOST 1 0 g).wf R.MARG_RGN_PLAN_BOOSTED 1 0 g
  d.railAsk g (d.vTgt g)

/-- The request that is served first among those that arrived in the tick of region `g`'s (R438). -/
def Dev.boostFirst (d : Dev) (g : Nat) : Option Nat :=
  (d.rgnOrder d.epoch).find? (fun h => (d.rgn h).wants && decide ((d.rgn h).wantAt = (d.rgn g).wantAt))

/-- What a boost adds to a region's need (R432, Example 18-1). Before the first epoch has measured the region it is the arbiter's
estimate `est`. -/
def Dev.boostCost (d : Dev) (g est : Nat) : Nat :=
  let p := d.rf R.PWR_RGN_MEAS_MW 0 g
  let vm := (d.rgn g).vm
  let v := d.vTgt g
  if vm = 0 then est else needOf p vm (min 950 (v + d.rf R.MARG_CFG_BOOST_MV)) - needOf p vm v

/-- BOOST_DECISION (R437, R438): the request is funded by spare, reserve, then grants of lower ranks, or refused; CONTROL is
never refused. A request waits for those of its tick that come before it. -/
def Dev.boostDecision (g est : Nat) (d : Dev) : Dev :=
  let r := d.rgn g
  if !r.wants || decide (d.boostFirst g ≠ some g) then d
  else
    let cost := d.boostCost g est
    let ctl := decide (d.rgnClass g = 1)
    let limited := decide (d.pwr.ilimFor < 100)
    let deny (d : Dev) : Dev :=
      ((d.setRgn g { d.rgn g with wants := false }).wf R.PWR_STAT_BOOSTDENY 1).raise Ev.PWR_BOOST_DENIED 0 []
    if limited && !ctl then deny d
    else
      let sp := d.rf R.PWR_SPARE_MW
      let c1 := cost - sp
      let c2 := c1 - d.pwr.reserve
      let avail := d.rgnsUsed.filter (fun h => classRank (d.rgnClass g) < classRank (d.rgnClass h))
      let most := avail.foldl (fun s h => s + (d.rf R.PWR_RGN_GRANT_MW 0 h - (d.rgn h).floorG)) 0
      if most < c2 ∧ !ctl then deny d
      else
        let d := d.wf R.PWR_SPARE_MW (sp - cost)
        let d : Dev := { d with pwr := { d.pwr with reserve := d.pwr.reserve - c1 } }
        let t := d.takeGrants (classRank (d.rgnClass g)) ((d.rgnOrder d.epoch).reverse) c2
        let d : Dev := if t.2 = 0 then t.1 else { t.1 with pwr := { t.1.pwr with short := true } }
        d.boostApply g

def execBoostDecision (g cost : Nat) (s : State) : Res :=
  s.guarded (decide (g < s.dev.nRegions)) (Dev.boostDecision g cost)

/-- The highest voltage a CAPPED region may take: that at which its need equals its grant (R432). -/
def Dev.capV (d : Dev) (g : Nat) : Nat :=
  let p := d.rf R.PWR_RGN_MEAS_MW 0 g
  if d.flag R.PWR_RGN_STAT_CAPPED 0 g ∧ p ≠ 0 then railMv (iroot 3 ((d.rgn g).vm ^ 3 * d.rf R.PWR_RGN_GRANT_MW 0 g / p) 10 0) else 950

/-- What a waiting change makes of a rail now: none where a CAPPED region may not go on towards its target (R432). -/
def Dev.railNext (d : Dev) (g : Nat) : Option Nat :=
  match (d.rgn g).railWait with
  | some mv =>
    let now := d.rf R.RGN_RAIL_MV g
    let v := railMv (if now < mv then max now (min mv (d.capV g)) else mv)
    if v = now ∧ now < railMv mv then none else some v
  | none => none

/-- PWR_RAIL_CHANGE (R436): the first waiting change in the order of R27 is carried out; what CAPPED keeps back goes on waiting. -/
def Dev.railChange (g : Nat) (d : Dev) : Dev :=
  let first := (d.rgnOrder d.epoch).find? (fun h => (d.railNext h).isSome)
  match d.railNext g with
  | some v =>
    if first = some g then
      let r := d.rgn g
      (d.setRgn g { r with railWait := r.railWait.bind (fun mv => if v < railMv mv then some mv else none) }).railSet g v
    else d
  | none => d

def execPwrRailChange (g : Nat) (s : State) : Res := s.guarded (decide (g < s.dev.nRegions)) (Dev.railChange g)

/-! ### Margin plans (R440 to R444) -/

/-- PLAN (R440): every region. -/
def Dev.planAll (d : Dev) : Dev := d.rgnsUsed.foldl (fun d g => d.planTrigger g) d

def execMarginPlan (s : State) : Res := s.on Dev.planAll

/-- MARGIN_PLAN_TIMER (R440): 24 h since the region's last plan. -/
def Dev.planTimer (g : Nat) (d : Dev) : Dev :=
  if d.rgnUsed g && decide ((d.rgn g).lastPlan + 43200000000000 ≤ d.time.cnt) then d.planTrigger g else d

def execMarginPlanTimer (g : Nat) (s : State) : Res := s.guarded (decide (g < s.dev.nRegions)) (Dev.planTimer g)

/-- REGION_TJ_DRIFT (R440): `tj` in 0.25 °C, as a 10-bit field. -/
def execRegionTjDrift (g tj : Nat) (s : State) : Res :=
  s.guarded (decide (g < s.dev.nRegions)) (fun d =>
    let d := d.wf R.MARG_RGN_TJ_NOW tj 0 g
    if d.rgnUsed g && decide (40 < (toS 10 tj - toS 10 (d.rf R.MARG_RGN_TJ_PLAN 0 g)).natAbs) then d.planTrigger g else d)

/-- k_T × k_A of R441 in units of 10^-15. -/
def PlanMeas.k (m : PlanMeas) : Int := (10 ^ 6 + 10 * m.alphaT) * (10 ^ 9 + 24 * m.ag)

/-- A unit in a plan (R441), in 2 ns ticks: T_c - T_fix, T_fix, the time it may take, and the time to its boundary or bound. -/
structure PlanUnit where
  volt : Nat
  fix : Nat
  limit : Nat
  full : Nat
deriving DecidableEq, Repr

/-- The least bound of the flows that an event-driven unit serves, in ticks (R441). -/
def Dev.boundLeast (d : Dev) (u : Nat) : Nat :=
  let fs := (Tbl.getD [] d.cfg.handlers u).filterMap (fun f => d.flowOf (u / 256) f)
  match fs.map (fun f => f.bound * 5) with
  | [] => 0
  | b :: t => t.foldl min b

/-- The units of a region as a plan takes them (R17, R441): A and X from the proof entry, P_u and G(g) from cadence and region. -/
def Dev.planUnits (d : Dev) (m : PlanMeas) : List PlanUnit :=
  (d.cfg.units.filter (fun u => decide (u.unit / 64 = m.rgn))).map (fun u =>
    let p := if u.event then
        (d.cfg.proof.handlers.filter (fun h => decide (h.unit = u.unit))).foldl (fun s h => (max s.1 h.a, max s.2 h.x)) (0, 0)
      else match d.cfg.proof.units.find? (fun x => decide (x.unit = u.unit)) with
        | some x => (x.a, x.x)
        | none => (0, 0)
    let fix := p.1 * 500 + p.2 * 20
    let full := if u.event then d.boundLeast u.unit else d.rf R.TIME_CADn_CFG_MULT 0 u.cad * 5000
    { volt := Tbl.getD 0 m.units u.unit - fix, fix := fix, full := full,
      limit := if u.event then full else full - d.rf R.RGN_CAD_GUARD m.rgn * 5 })

/-- Whether every unit meets R441 at a replica ratio (10^-6). -/
def PlanMeas.meets (m : PlanMeas) (us : List PlanUnit) (r : Nat) : Bool :=
  us.all (fun u => decide ((u.fix : Int) * 10 ^ 21 + u.volt * r * m.k ≤ u.limit * 10 ^ 21))

/-- The index on the 5 mV grid of the lowest voltage that meets R441. -/
def PlanMeas.grid (m : PlanMeas) (us : List PlanUnit) : Option Nat := (List.range 81).find? (fun i => m.meets us (nth 0 m.ratio i))

/-- The horizon in months (R444). -/
def PlanMeas.horizon (m : PlanMeas) (us : List PlanUnit) : Nat :=
  if m.ag ≤ 0 then 255
  else
    let r9 : Int := ((nth 0 m.ratio 80 : Nat) : Int)
    let one (u : PlanUnit) : Nat :=
      let den : Int := u.volt * m.k * r9
      let num : Int := ((u.limit : Int) - u.fix) * 10 ^ 21 - den
      if den ≤ 0 then 255
      else if num < 0 then 0 else (min 255 (num * 10 ^ 9 / (den * m.ag * 730))).toNat
    us.foldl (fun a u => min a (one u)) 255

/-- The smallest predicted slack at a ratio (R442), in ticks. -/
def PlanMeas.slack (m : PlanMeas) (us : List PlanUnit) (r : Nat) : Int :=
  us.foldl (fun a u =>
    let s : Int := (u.full : Int) - (u.fix + (u.volt * r * m.k + 10 ^ 21 - 1) / 10 ^ 21)
    min a s) (2 ^ 31 - 1)

/-- The least envelope of a region: Σ W(g, Cn) × max(1, 1 ms / P_n) (R434). -/
def Dev.envMin (d : Dev) (g : Nat) : Nat :=
  let ws := (nth (0, []) d.cfg.proof.regions g).2
  (List.range 8).foldl (fun a n =>
    let w := nth 0 ws n
    let mlt := d.rf R.TIME_CADn_CFG_MULT 0 n
    a + (if mlt = 0 then 0 else if 100 ≤ mlt then w else ceilDiv (w * 100) mlt)) 0

/-- The announcement of the package's smallest horizon (R444). -/
def Dev.horizonShow (d : Dev) : Dev :=
  let h := d.rgnsUsed.foldl (fun a g => min a (d.rf R.MARG_RGN_PLAN_HORIZON 0 g)) 255
  let warn := d.rf R.MARG_CFG_HZN_WARN
  let old := d.pwr.minH
  let d := (({ d with pwr := { d.pwr with minH := h } } : Dev)).wf R.MARG_STAT_HORIZON h
  if h < warn ∧ h < old then d.raise Ev.MARGIN_HORIZON 0 [] else d

/-- The plan history in MRAM: of every region the last 256 plans (R442). -/
def planKeep (m : PlanMeas) (l : List PlanMeas) : List PlanMeas :=
  (if (l.filter (fun p => decide (p.rgn = m.rgn))).length < 256 then l else l.eraseP (fun p => decide (p.rgn = m.rgn))) ++ [m]

/-- A plan completes (R442 to R444). -/
def Dev.planApply (m : PlanMeas) (d : Dev) : Dev :=
  let g := m.rgn
  let us := d.planUnits m
  let i := m.grid us
  let v := match i with | some i => 550 + 5 * i | none => 950
  let r := nth 0 m.ratio (match i with | some i => i | none => 80)
  let rs := d.rgn g
  let d := d.setRgn g { rs with planning := false, boost := 0, held := false, descend := false, lastPlan := d.time.cnt }
  let d := d.wf R.MARG_STAT_PLANNING (setBits (d.rf R.MARG_STAT_PLANNING) g 1 0)
  let d := (d.wf R.MARG_RGN_PLAN_PLAN_MV v 0 g).wb R.MARG_RGN_PLAN_EXHAUSTED i.isNone 0 g
  let d := (d.wf R.MARG_RGN_PLAN_BOOSTED 0 0 g).wf R.MARG_RGN_PLAN_HORIZON (if i.isNone then 0 else m.horizon us) 0 g
  let d := (d.wf R.MARG_RGN_TJ_NOW (ofS 10 m.tj) 0 g).wf R.MARG_RGN_TJ_PLAN (ofS 10 m.tj) 0 g
  let d := d.wf R.MARG_RGN_ENV_OPS (max (roundDiv (11 * m.ops) 10).toNat (d.envMin g)) 0 g
  let d := d.wf R.MARG_RGN_SLACK_SLACK (ofS 32 (m.slack us r)) 0 g
  let d := (d.wf R.MARG_RGN_DRIFT_A_G (ofS 32 m.ag) 0 g).wf R.MARG_RGN_AGE_HOURS m.hours 0 g
  let d := (d.wf R.RGN_RAIL_PLAN_MV v g).wf R.PWR_RGN_STAT_BOOST 0 0 g
  let d : Dev := { d with planHist := planKeep m d.planHist }
  let now := d.rf R.RGN_RAIL_MV g
  let d := if now < v then d.railAsk g v
    else if v < now then d.setRgn g { d.rgn g with descend := true, railWait := none } else d
  let d := if i.isNone then d.raise Ev.MARGIN_EXHAUSTED 0 [] else d
  (if rs.wants then d.planTrigger g else d).horizonShow

/-- The planning window of a region, in ticks: 1 s, or four times the longest period served in it (R441). -/
def Dev.planWindow (d : Dev) (g : Nat) : Nat :=
  (d.cfg.units.filter (fun u => decide (u.unit / 64 = g) && !u.event)).foldl (fun w u =>
    max w (4 * (d.rf R.TIME_CADn_CFG_MULT 0 u.cad * 5000))) 500000000

/-- A plan in progress has had its window (R441). -/
def Dev.planReady (d : Dev) (g : Nat) : Bool :=
  (d.rgn g).planning && decide ((d.rgn g).planAt + d.planWindow g ≤ d.time.cnt)

/-- MARGIN_PLAN_COMPLETE (R442). -/
def execMarginPlanComplete (m : PlanMeas) (s : State) : Res :=
  s.guarded (decide (m.rgn < s.dev.nRegions)) (fun d => if d.planReady m.rgn then d.planApply m else d)

/-- The cores are up: abandoned plans and kept triggers start (R446). -/
def Dev.plansAgain (d : Dev) : Dev :=
  d.rgnsUsed.foldl (fun d g => if (d.rgn g).trig || (d.rgn g).planning then d.planTrigger g else d) d

end Sys2Proof.Machine
end

