-- ==== Sys2Proof/Machine/LastParse.lean ====
section
/-!
DEFINITION. The byte layouts of a Last (R37 to R41, R46 to R54): header, section table, trailer, sections, entries.
-/
namespace Sys2Proof.Machine

/-! ### Header, table, trailer (R37, R38, R40) -/

/-- Entry i of the section table. -/
def secEntry (im : List Byte) (i : Nat) : SecEnt :=
  let b := slice im (0x40 + 16 * i) 16
  { typ := le b 0 2, sflags := le b 2 2, off := le b 4 4, len := le b 8 4, crc := le b 12 4 }

def secCount (im : List Byte) : Nat := le im 0x28 2

def secTable (im : List Byte) : List SecEnt := (List.range (secCount im)).map (secEntry im)

/-- The bytes of the section of a type, if the image has it. -/
def secBytes (im : List Byte) (typ : Nat) : Option (List Byte) :=
  ((secTable im).find? (fun e => decide (e.typ = typ))).map (fun e => slice im e.off e.len)

def stRES : Nat := 1
def stUNIT : Nat := 2
def stROUTE : Nat := 3
def stTILE : Nat := 4
def stCAD : Nat := 5
def stFLOW : Nat := 6
def stOWN : Nat := 7
def stIOMAP : Nat := 8
def stHOLSCH : Nat := 9
def stCANSCH : Nat := 10
def stPROG : Nat := 11
def stMOTION : Nat := 12
def stRECIPE : Nat := 13
def stSIGNAL : Nat := 14
def stPROOF : Nat := 15
def stXMAP : Nat := 16

/-- The trailer (R40). -/
def trailer (im : List Byte) : List Byte := im.drop (im.length - 256)

def isSigned (im : List Byte) : Bool := decide (le (trailer im) 0 4 = 0x5349474E)

/-! ### Section headers (R46) -/

def hdCount (b : List Byte) : Nat := le b 0 4
def hdRecLen (b : List Byte) : Nat := le b 4 2
def hdAux (b : List Byte) : Nat := le b 6 2

/-- n records of a length from an offset. -/
def recsAt {α : Type} (b : List Byte) (off n len : Nat) (f : List Byte → α) : List α :=
  (List.range n).map (fun i => f (slice b (off + i * len) len))

/-! ### Records (R41, R46 to R50, R52 to R54) -/

def parseRes (b : List Byte) : ResRec :=
  { rtype := byteAt b 0, opt := bitAt (byteAt b 1) 0, first := le b 2 2, count := le b 4 2 }

def parseUnit (b : List Byte) : UnitRec :=
  let m := byteAt b 3
  { unit := le b 0 2, kind := byteAt b 2, event := bitAt m 0, cad := bitsOf m 1 3, order := bitsOf m 4 4, resref := le b 4 2,
    kdata := (List.range 8).map (fun i => byteAt b (8 + i)) }

def parseTile (b : List Byte) : TileRec :=
  let f := byteAt b 3
  { unit := le b 0 2, lidx := byteAt b 2, cls := bitsOf f 0 2, verify := bitAt f 2, ptile := le b 4 2, img := le b 6 2 }

def parseCad (b : List Byte) : CadRec :=
  { mult := le b 0 4, phase := le b 4 4, waitLock := bitAt (byteAt b 8) 0, timeout := le b 10 2 }

def parseLevel (b : List Byte) : LevelRec := { quota := le b 0 2, ringlog := byteAt b 2, cls := byteAt b 3, bank := byteAt b 4 }

def parseFlow (b : List Byte) : FlowRec :=
  { flow := le b 0 2, die := byteAt b 2, level := byteAt b 3, cluster := byteAt b 4, bound := le b 8 4, resref := le b 12 2 }

def parseBind (b : List Byte) : BindRec := { src := le b 0 2, flow := le b 2 2, die := byteAt b 4 }

/-- The OWN section's body. -/
def parseOwn (b : List Byte) : OwnRec :=
  let nb := le b 0xD0 2
  { duplex := bitAt (byteAt b 0) 0, react := byteAt b 1, resv := byteAt b 2, boostMv := byteAt b 3, hznWarn := byteAt b 4,
    missN := byteAt b 5, hoLead := le b 6 2, pairWait := le b 8 2, svcGrp := byteAt b 10,
    clClass := (List.range 32).map (fun i => byteAt b (0x10 + i)), bgClass := (List.range 32).map (fun i => byteAt b (0x30 + i)),
    floors := (List.range 7).map (fun i => le b (0x50 + 4 * i) 4), pbaseDecl := le b 0x6C 4,
    qclass := (List.range 64).map (fun i => byteAt b (0x80 + i)), mgmtq := (List.range 8).map (fun i => byteAt b (0xC0 + i)),
    ptpq := (List.range 8).map (fun i => byteAt b (0xC8 + i)),
    burst := recsAt b 0xE0 nb 4 (fun e => (le e 0 2, byteAt e 2)),
    frz := recsAt b (0xE0 + 4 * nb) (le b 0xD2 2) 2 (fun e => le e 0 2) }

def parseSig (b : List Byte) : SigRec :=
  let f := byteAt b 6
  { id := le b 0 4, typ := byteAt b 4, wclass := byteAt b 5, noForce := bitAt f 0, history := bitAt f 1, ring := bitsOf f 2 3,
    engLo := BitVec.ofNat 32 (le b 8 4), engHi := BitVec.ofNat 32 (le b 12 4) }

def parseProofUnit (b : List Byte) : ProofUnit :=
  { unit := le b 0 2, cad := byteAt b 2, n := le b 4 4, h := le b 8 4, x := le b 12 2, a := byteAt b 14, vreq := le b 16 2 }

def parseProofHandler (b : List Byte) : ProofHandler :=
  { unit := le b 0 2, flow := le b 2 2, die := byteAt b 4, n := le b 8 4, h := le b 12 4, x := le b 16 2, a := byteAt b 18 }

/-- The PROOF section. -/
def parseProof (b : List Byte) : ProofRec :=
  let n := hdCount b
  { reh := le b 16 2, regions := recsAt b 24 8 48 (fun e => (le e 0 2, (List.range 8).map (fun i => le e (8 + 4 * i) 4))),
    units := recsAt b 408 n 24 parseProofUnit, handlers := recsAt b (408 + 24 * n) (hdAux b) 24 parseProofHandler }

def parseXmap (b : List Byte) : XmapRec :=
  { kind := byteAt b 0, oldUnit := le b 2 2, oldIdx := byteAt b 4, newIdx := byteAt b 5, newUnit := le b 6 2 }

/-! ### IOMAP (R51) -/

def parseField (b : List Byte) : FieldEl :=
  let f := byteAt b 7
  { sig := bitsOf (le b 0 4) 0 20, offset := le b 4 2, width := byteAt b 6, fmt := bitsOf f 0 3, bit := bitsOf f 3 5 }

def wordOf (b : List Byte) (off : Nat) : Word := BitVec.ofNat 32 (le b off 4)

def sigOf (b : List Byte) (off : Nat) : Nat := bitsOf (le b off 4) 0 20

/-- Bytes 0 to n − 1 as a number, most significant byte first: MAC addresses as they stand in frames. -/
def beNat (bs : List Byte) : Nat := bs.foldl (fun a b => a * 256 + b.toNat) 0

def padTo8 (n : Nat) : Nat := (n + 7) / 8 * 8

/-- The body of an entry by its kind; `fl` EFLAGS. An unlisted kind has no body. -/
def parseIoBody (kind fl : Nat) (b : List Byte) : Option IoBody :=
  match kind with
  | 0x01 => some (.global (le b 0 2) (le b 2 2) (byteAt b 4) (byteAt b 5) (le b 6 2)
      ((List.range 2).map (fun i => (le b (8 + 8 * i) 4, le b (12 + 8 * i) 2))) (beNat (slice b 24 6))
      ((List.range 8).map (fun i => le b (32 + 4 * i) 4)) (le b 64 2) (le b 66 2))
  | 0x02 => some (.ain (byteAt b 0) (wordOf b 4) (wordOf b 8) ((List.range 4).map (fun i => wordOf b (12 + 4 * i))) (wordOf b 28)
      (sigOf b 32))
  | 0x03 => some (.adcBank (byteAt b 0) (wordOf b 4) (wordOf b 8) ((List.range 8).map (fun i => wordOf b (16 + 4 * i))))
  | 0x04 => some (.aout (byteAt b 0) (wordOf b 4) (sigOf b 8))
  | 0x05 => some (.dio (byteAt b 0) (wordOf b 4) (sigOf b 8))
  | 0x06 => some (.pwm (byteAt b 0) (wordOf b 4) (wordOf b 8) (le b 12 4) (sigOf b 16))
  | 0x07 => some (.stepgen (byteAt b 0) (wordOf b 4))
  | 0x08 => some (.chopper (byteAt b 0) (wordOf b 4) (wordOf b 8))
  | 0x09 => some (.grant (le b 0 2) (le b 4 4))
  | 0x0A => some (.ethTx (byteAt b 0) (byteAt b 1) (bitAt fl 0) (bitAt fl 1) (bitAt fl 2) (slice b 8 (le b 4 2))
      (recsAt b (8 + padTo8 (le b 4 2)) (le b 6 2) 8 parseField))
  | 0x0B => some (.ethRx (byteAt b 0) (byteAt b 1) (bitAt fl 0) (bitAt fl 1) (beNat (slice b 7 6)) (le b 13 2) (le b 15 2) (le b 19 4)
      (le b 23 2) (recsAt b 27 (le b 2 2) 8 parseField))
  | 0x0C => some (.holField (byteAt b 0) (byteAt b 1) (le b 2 2) (recsAt b 8 (le b 4 2) 8 parseField))
  | 0x0D => some (.canField (byteAt b 0) (byteAt b 1) (byteAt b 2) (recsAt b 8 (le b 4 2) 8 parseField))
  | 0x0E => some (.safeLreq (byteAt b 0) (sigOf b 4))
  | 0x0F => some (.armgrp (le b 0 2) (byteAt b 2) (le b 4 2) (recsAt b 8 (byteAt b 3) 4 (fun e => (byteAt e 0, bitAt (byteAt e 1) 0))))
  | _ => none

/-- Length of an entry with its header, as its kind and counts give it. The spec does not say which result an unlisted KIND gives: it is
given the length 8 here, so that another ELEN is BAD_FORMAT and an ELEN of 8 BAD_STRUCT (log entry 79). -/
def ioLen (kind : Nat) (b : List Byte) : Nat :=
  8 + padTo8 (match kind with
    | 0x01 => 72 | 0x02 => 40 | 0x03 => 48 | 0x04 => 16 | 0x05 => 16 | 0x06 => 24 | 0x07 => 8 | 0x08 => 16 | 0x09 => 8
    | 0x0A => 8 + padTo8 (le b 4 2) + 8 * le b 6 2
    | 0x0B => 27 + 8 * le b 2 2
    | 0x0C => 8 + 8 * le b 4 2
    | 0x0D => 8 + 8 * le b 4 2
    | 0x0E => 8
    | 0x0F => 8 + 4 * byteAt b 3
    | _ => 0)

/-- Stretches of an entry's body that its kind does not name and the rest up to its padded length: zero (R51). -/
def ioZeros (kind : Nat) (b : List Byte) : List (Nat × Nat) :=
  match kind with
  | 0x01 => [(14, 2), (22, 2), (30, 2), (68, 4)]
  | 0x02 => [(1, 3), (36, 4)]
  | 0x03 => [(1, 3), (12, 4)]
  | 0x04 => [(1, 3), (12, 4)]
  | 0x05 => [(1, 3), (12, 4)]
  | 0x06 => [(1, 3), (20, 4)]
  | 0x07 => [(1, 3)]
  | 0x08 => [(1, 3), (12, 4)]
  | 0x09 => [(2, 2)]
  | 0x0A => [(2, 2), (8 + le b 4 2, padTo8 (le b 4 2) - le b 4 2)]
  | 0x0B => [(4, 3), (17, 2), (25, 2), (27 + 8 * le b 2 2, 5)]
  | 0x0C => [(6, 2)]
  | 0x0D => [(3, 1), (6, 2)]
  | 0x0E => [(1, 3)]
  | 0x0F => (6, 2) :: (List.range (byteAt b 3)).map (fun i => (8 + 4 * i + 2, 2)) ++ [(8 + 4 * byteAt b 3, padTo8 (8 + 4 * byteAt b 3) - (8 + 4 * byteAt b 3))]
  | _ => []

/-- Offsets in an entry's body at which a SIGID stands; its bits 31:20 are zero (R51). -/
def ioSigs (kind : Nat) (b : List Byte) : List Nat :=
  let fields (off n : Nat) : List Nat := (List.range n).map (fun i => off + 8 * i)
  match kind with
  | 0x02 => [32]
  | 0x04 => [8]
  | 0x05 => [8]
  | 0x06 => [16]
  | 0x0A => fields (8 + padTo8 (le b 4 2)) (le b 6 2)
  | 0x0B => fields 27 (le b 2 2)
  | 0x0C => fields 8 (le b 4 2)
  | 0x0D => fields 8 (le b 4 2)
  | 0x0E => [4]
  | _ => []

/-- EFLAGS that a kind names (R51): the number of its values. -/
def ioFlagsMax (kind : Nat) : Nat := if kind = 0x0A then 8 else if kind = 0x0B then 4 else 1

/-- An entry's reserved bits and bytes are zero (R46, R51): EFLAGS, bits 6:3 of byte 7, what its body does not name, bits 31:20 of each
SIGID, bits 7:1 of an arming group's MASTER byte. -/
def ioRawOk (e : List Byte) : Bool :=
  let k := byteAt e 0
  let b := e.drop 8
  decide (byteAt e 1 < ioFlagsMax k) && decide (bitsOf (byteAt e 7) 3 4 = 0) && (ioZeros k b).all (fun z => allZero b z.1 z.2) &&
  (ioSigs k b).all (fun o => decide (le b o 4 < 2 ^ 20)) &&
  (decide (k ≠ 0x0F) || (List.range (byteAt b 3)).all (fun i => decide (byteAt b (8 + 4 * i + 1) < 2)))

/-- The entries as byte strings with their headers: none if a length does not fit what is left. -/
def ioSplit : Nat → List Byte → Option (List (List Byte))
  | 0, b => if b = [] then some [] else none
  | n + 1, b =>
    let l := le b 2 2
    if l < 8 ∨ l % 8 ≠ 0 ∨ b.length < l then none
    else (ioSplit n (b.drop l)).map (fun es => b.take l :: es)

def parseIo (b : List Byte) : Option IoEntry :=
  let c := byteAt b 7
  (parseIoBody (byteAt b 0) (byteAt b 1) (b.drop 8)).map (fun x =>
    { kind := byteAt b 0, resref := le b 4 2, owner := byteAt b 6, cad := if bitAt c 7 then none else some (bitsOf c 0 3), body := x })

def ioEntries (im : List Byte) : List (List Byte) :=
  match secBytes im stIOMAP with
  | some b => (ioSplit (hdCount b) (b.drop 16)).getD []
  | none => []

/-! ### The whole Last -/

/-- Offset in the image of tile image i (R47). -/
def tileImgOff (im : List Byte) (i : Nat) : Nat :=
  match (secTable im).find? (fun e => decide (e.typ = stTILE)) with
  | some e => e.off + (16 + 8 * le im e.off 4 + 63) / 64 * 64 + 1024 * i
  | none => 0

/-- The 32 logical tiles of a unit as the image gives them, in logical order. -/
def LastRec.unitImage (l : LastRec) (u : Nat) : List Byte :=
  ((List.range 32).map (fun i =>
    match l.tiles.find? (fun t => decide (t.unit = u) && decide (t.lidx = i)) with
    | some t => if t.img = 0xFFFF then zeros 1024 else slice l.image (tileImgOff l.image t.img) 1024
    | none => zeros 1024)).flatten

/-- What the request tile of an image holds for an engine: conditions, PRE and POST (R264). -/
def LastRec.engReq (l : LastRec) (u e : Nat) : List TrigCond × Nat × Nat := Config.decTrig (slice (l.unitImage u) 2048 1024) e

/-- Descriptors of the units of a kind. -/
def LastRec.descs {α : Type} (l : LastRec) (kind : Nat) (f : List Byte → List α) : Tbl (List α) :=
  (l.units.filter (fun u => decide (u.kind = kind))).foldl (fun t u => Tbl.put u.unit (f (l.unitImage u.unit)) t) []

/-- The axes of the PROFILE units, from the MOTION section and their descriptor tiles (R39, R176). -/
def LastRec.axesFrom (l : LastRec) : Tbl (List AxisCfg) :=
  (l.units.filter (fun u => decide (u.kind = 3))).foldl (fun t u =>
    Tbl.put u.unit (Config.decAxes l.motion u.unit (l.unitImage u.unit)) t) []

/-- The flows that the event-driven units handle (R82). -/
def LastRec.handlersFrom (l : LastRec) : Tbl (List Nat) :=
  (l.units.filter (·.event)).foldl (fun t u => Tbl.put u.unit (Config.decHandlers (l.unitImage u.unit)) t) []

/-- The gate lists of the ports; a Last that lists no Ethernet pair among its resources gives none (R41, R340; log entry 6). -/
def LastRec.gatesFrom (l : LastRec) : List (Nat × GateRec) := if l.res.any (fun r => decide (r.rtype = 6)) then Config.decGates l.image else []

/-- Everything an image says. -/
def parseLast (im : List Byte) : LastRec :=
  let sec (t : Nat) := (secBytes im t).getD []
  let has {α : Type} (t : Nat) (f : List Byte → List α) : List α := match secBytes im t with | some b => f b | none => []
  let fl := sec stFLOW
  let nf := hdCount fl
  let l : LastRec := {
    id := slice im 0x10 16, image := im, autostart := bitAt (byteAt im 0x0E) 0, flowSec := (secBytes im stFLOW).isSome,
    res := recsAt (sec stRES) 0 ((sec stRES).length / 8) 8 parseRes,
    units := recsAt (sec stUNIT) 16 (hdCount (sec stUNIT)) 16 parseUnit,
    tiles := recsAt (sec stTILE) 16 (hdCount (sec stTILE)) 8 parseTile,
    cads := recsAt (sec stCAD) 16 8 16 parseCad,
    vsrc := le (sec stCAD) 144 3,
    levels := has stFLOW (fun b => (List.range 32).map (fun i => (i, parseLevel (slice b (16 + 8 * i) 8)))),
    flows := recsAt fl 272 nf 16 parseFlow, binds := recsAt fl (272 + 16 * nf) (hdAux fl) 8 parseBind,
    own := parseOwn ((sec stOWN).drop 16), io := (ioEntries im).filterMap parseIo,
    sigs := recsAt (sec stSIGNAL) 16 (hdCount (sec stSIGNAL)) 16 parseSig,
    proof := parseProof (sec stPROOF),
    xmap := has stXMAP (fun b => recsAt b 32 (hdCount b) 8 parseXmap), xmapOld := has stXMAP (fun b => slice b 16 16),
    routes := has stROUTE Config.decRoutes, parts := has stPROG Config.decProg,
    hol := (has stHOLSCH Config.decHol).foldl (fun t e => Tbl.put e.1 e.2 t) [],
    can := (has stCANSCH Config.decCan).foldl (fun t e => Tbl.put e.1 e.2 t) [],
    regs := has stHOLSCH Config.decRegs ++ has stCANSCH Config.decRegs,
    holRef := has stHOLSCH Config.decRefs, canRef := has stCANSCH Config.decRefs,
    recipes := has stRECIPE Config.decRecipes, motion := sec stMOTION }
  { l with loops := l.descs 1 Config.decLoops, axes := l.axesFrom, seqs := l.descs 4 Config.decSeqs,
           engs := l.descs 5 Config.decEngines, conds := l.descs 6 Config.decConds, handlers := l.handlersFrom,
           gates := l.gatesFrom }

end Sys2Proof.Machine
end

