-- ==== Sys2Proof/Machine/RecipeUnit.lean ====
section
/-!
DEFINITION. Recipe images and sequencers (R198 to R220): parsing and checking an image, and one sequencer's evaluation
in one cycle.
-/
namespace Sys2Proof.Machine

/-- SQ_LOAD results (R221). -/
def sqOK : Nat := 0
def sqBUSY : Nat := 1
def sqFORMAT : Nat := 2
def sqCRC : Nat := 3
def sqTARGET : Nat := 4
def sqSUCC : Nat := 5
def sqVALUE : Nat := 6
def sqSIGNAL : Nat := 7

/-- A branch word (R207): ACTION, TARGET. -/
def parseBranch (w : Nat) : Nat × Nat := (bitsOf w 0 8, bitsOf w 16 16)

/-- A step record at an offset (R203, R205, R206). -/
def parseStep (b : List Byte) (o : Nat) : StepRec :=
  { dur := le b o 4, tmo := le b (o + 4) 4, wait := byteAt b (o + 8) = 1,
    brEnd := parseBranch (le b (o + 0x0C) 4), brTmo := parseBranch (le b (o + 0x10) 4),
    fset := BitVec.ofNat 32 (le b (o + 0x14) 4), fclr := BitVec.ofNat 32 (le b (o + 0x18) 4),
    conds := (List.range (byteAt b (o + 0x0A))).map (fun i =>
      let q := o + 0x20 + 16 * i
      let br := parseBranch (le b (q + 12) 4)
      { sig := bitsOf (le b q 3) 0 20, op := bitsOf (le b q 3) 20 4, persist := byteAt b (q + 3),
        a := BitVec.ofNat 32 (le b (q + 4) 4), b := BitVec.ofNat 32 (le b (q + 8) 4), br := br.1, tgt := br.2 }),
    ramps := (List.range (byteAt b (o + 9))).map (fun i =>
      let q := o + 0x80 + 8 * i
      { ch := bitsOf (le b q 4) 0 6, shape := bitsOf (le b q 4) 6 2, rt := bitsOf (le b q 4) 8 24,
        target := BitVec.ofNat 32 (le b (q + 4) 4) }) }

/-- The recipe an image holds (R202). -/
def parseRecipe (b : List Byte) : Recipe :=
  { rid := slice b 0x18 16, abortStep := if le b 0x0C 2 = 0xFFFF then none else some (le b 0x0C 2),
    chmask := le b 0x10 8,
    chans := (List.range 64).map (fun c => (byteAt b (0x40 + 8 * c), BitVec.ofNat 32 (le b (0x44 + 8 * c) 4))),
    steps := (List.range (le b 6 2)).map (fun i => parseStep b (le b (0x240 + 4 * i) 4)) }

/-- Check 1 of R208: MAGIC, VER, TOTAL_LEN, STEPS and offsets, with the record heads inside the image. -/
def recipeFormatOk (b : List Byte) : Bool :=
  let n := le b 6 2
  decide (0x40 + 512 + 4 * n ≤ b.length) && decide (b.length ≤ 2 ^ 20) && le b 0 4 = 0x52504345 && le b 4 2 = 1
    && le b 8 4 = b.length && decide (1 ≤ n) && decide (n ≤ 1024) && le b 0x0E 2 = 0 && allZero b 0x2C 20
    && (List.range n).all (fun i =>
      let o := le b (0x240 + 4 * i) 4
      o % 64 = 0 && decide (0x240 + 4 * n ≤ o) && decide (o + 0x80 ≤ b.length)
        && byteAt b (o + 9) ≤ 64 && byteAt b (o + 0x0A) ≤ 4 && byteAt b (o + 8) ≤ 1
        && decide (o + 0x80 + 8 * byteAt b (o + 9) ≤ b.length))

/-- Check 2 of R208: the CRC over the whole image with its own field as zero. -/
def recipeCrcOk (b : List Byte) : Bool := crc32c (slice b 0 0x28 ++ zeros 4 ++ b.drop 0x2C) = le b 0x28 4

/-- All branches of a step (R207). -/
def stepBranches (s : StepRec) : List (Nat × Nat) := s.brEnd :: s.brTmo :: s.conds.map (fun c => (c.br, c.tgt))

/-- A branch is well formed (R207): a known action, and a target below STEPS. -/
def branchOk (n : Nat) (b : Nat × Nat) : Bool := b.1 ≤ 4 && b.2 < n

/-- The distinct successors of step i (R207). -/
def successors (n i : Nat) (s : StepRec) : List Nat :=
  ((stepBranches s).filterMap (fun b => match b.1 with
    | 0 => if i + 1 < n then some (i + 1) else none
    | 1 => some b.2
    | 2 => some b.2
    | _ => none)).eraseDups

/-- Whether a step names a channel twice (R204). -/
def dupChan : List RampRec → Bool
  | [] => false
  | r :: t => t.any (fun x => x.ch = r.ch) || dupChan t

/-- A channel is used by the recipe, declared by the Last, and the value lies in its limits (R204). -/
def chanOk (cfg : SeqCfg) (mask ch : Nat) (v : Word) (checkV : Bool) : Bool :=
  bitAt mask ch && (match cfg.chans.find? (fun d => d.1 = ch) with
    | some d => !checkV || (decide (sW d.2.2.1 ≤ sW v) && decide (sW v ≤ sW d.2.2.2.1))
    | none => false)

/-- Check 5 of R208 (R204): channels, ranges, shapes and timeouts. The table names the channels of CHMASK and those with an ABORT_MODE; every
abort value of a channel so named lies in its range, whatever the mode (DEDUCED, log entry 106). -/
def recipeValuesOk (cfg : SeqCfg) (r : Recipe) : Bool :=
  (List.range 64).all (fun c =>
      let t := nth (0, 0) r.chans c
      (t.1 ≤ 2) && ((t.1 = 0 && !bitAt r.chmask c) || chanOk cfg r.chmask c t.2 true))
    && r.steps.all (fun s => !dupChan s.ramps
        && s.ramps.all (fun x => x.shape ≠ 3 && chanOk cfg r.chmask x.ch x.target true)
        && (!s.wait || s.tmo = 0 || decide (s.dur < s.tmo))
        && decide (s.dur ≤ 86400000) && decide (s.tmo ≤ 86400000))

/-- The checks of R208 in order; the first failure is the result. -/
def recipeCheck (cfg : SeqCfg) (sigTyp : Nat → Option Nat) (b : List Byte) : Nat :=
  if !recipeFormatOk b then sqFORMAT
  else if !recipeCrcOk b then sqCRC
  else
    let r := parseRecipe b
    let n := r.steps.length
    if !(r.steps.all (fun s => (stepBranches s).all (branchOk n)))
        || (match r.abortStep with | some a => n ≤ a | none => false) then sqTARGET
    else if !((List.range n).all (fun i => match r.steps[i]? with
        | some s => (successors n i s).length ≤ 3 | none => true)) then sqSUCC
    else if !recipeValuesOk cfg r then sqVALUE
    else if !(r.steps.all (fun s => s.conds.all (fun c => c.op ≤ 9 && (sigTyp c.sig).isSome))) then sqSIGNAL
    else sqOK

/-- What a sequencer reads in cycle k: its period in ms, its command signal, the signals visible at the token (R213), its recipe, the
request tile's words, the power arbiter's shed of new recipes. -/
structure SeqEnv where
  k : Nat
  pms : Nat
  sig : Nat → SigVal
  vis : Nat → SigVal
  recipe : Option Recipe
  cmdW : Word
  startStep : Nat
  kStart : Nat
  shed : Bool

/-- WHY codes of R221. -/
def sqWhySTATE : Nat := 1
def sqWhyNOTLOADED : Nat := 2
def sqWhyPARAM : Nat := 3
def sqWhyLATE : Nat := 4
def sqWhySHED : Nat := 5
def sqWhySOURCE : Nat := 6

/-- The step record of an index. -/
def stepOf (r : Option Recipe) (i : Nat) : Option StepRec := match r with | some x => x.steps[i]? | none => none

/-- A sequencer after one operation, with the events it raises, and whether a ramp saturated (R70). -/
structure SeqRes where
  st : SeqSt
  evs : List UEv := []
  sat : Bool := false

/-- The present value of channel c. -/
def chanVal (s : SeqSt) (c : Nat) : Word := (nth {} s.ramps c).val

/-- The cycles that the step of a sequencer has lasted (R216): a held one i_h; between recipes those of the last step. -/
def sqLasted (e : SeqEnv) (s : SeqSt) : Int := if s.cur = 0x7FF then s.last else if s.st = 4 then (s.ih : Int) else (e.k : Int) - s.ke

/-- Enter ABORTED and raise SEQ_ABORT (R218): each channel of CHMASK takes the value of its ABORT_MODE. -/
def sqAborted (idx : Nat) (cfg : SeqCfg) (e : SeqEnv) (cause : Nat) (s : SeqSt) : SeqRes :=
  let idle (c : Nat) : Word := match cfg.chans.find? (fun d => d.1 = c) with | some d => d.2.2.2.2 | none => 0
  let rs := match e.recipe with
    | none => s.ramps
    | some r => (List.range s.ramps.length).map (fun c =>
        let x := nth {} s.ramps c
        let m := nth (0, 0) r.chans c
        if !bitAt r.chmask c then x
        else match m.1 with
          | 1 => { x with v0 := m.2, v1 := m.2, nR := 0, val := m.2, sat := false }
          | 2 => { x with v0 := idle c, v1 := idle c, nR := 0, val := idle c, sat := false }
          | _ => { x with v0 := x.val, v1 := x.val, nR := 0 })
  { st := { s with st := 7, cause := cause, ramps := rs, cur := 0x7FF, pend := 0x7FF, hkind := 0, wait := none, last := sqLasted e s },
    evs := [{ num := 11, data := leBytes 1 idx ++ leBytes 2 s.cur ++ leBytes 1 cause }] }

/-- Enter a step whose record is present (R215, R216), the previous step having lasted so many cycles. -/
def sqEnter (e : SeqEnv) (target ke : Nat) (lasted : Int) (s : SeqSt) : SeqSt :=
  match stepOf e.recipe target with
  | none => s
  | some p =>
    let ramps := (List.range s.ramps.length).map (fun c =>
      let x := nth {} s.ramps c
      match p.ramps.find? (fun q => q.ch = c) with
      | some q => { v0 := x.val, v1 := q.target, o := 0, shape := q.shape,
                    nR := if q.shape = 0 then 0 else ceilDiv q.rt e.pms, val := x.val, sat := x.sat }
      | none => { x with o := x.o - lasted })
    { s with cur := target, ke := ke, ramps := ramps, counts := p.conds.map (fun _ => 0), wait := none,
             flags := (s.flags &&& ~~~p.fclr) ||| p.fset, fetchPend := true,
             pend := 0x7FF, hkind := 0, stepsTaken := (s.stepsTaken + 1) % 65536, flate := false }

/-- The steps that a sequencer's five slots hold after their positions: current, abort and three successors (R200); none is empty. -/
def sqSlots (start : Nat) (abort : Option Nat) : List (Option Nat) := [some start, abort, none, none, none]

/-- Move to a step (R215, R219): entered if its record is in a slot; otherwise the transition waits and FLATE is set. A time-based transition
keeps its nominal entry cycle `at_`; any other takes the cycle in which it takes place. -/
def sqGoto (idx : Nat) (e : SeqEnv) (target : Nat) (at_ : Option Nat) (s : SeqSt) : SeqRes :=
  if s.slots.contains (some target) then
    let ke := at_.getD e.k
    { st := sqEnter e target ke ((ke : Int) - s.ke) s }
  else
    { st := { s with flate := true, wait := some { target := target, ke := at_ } },
      evs := if s.wait.isSome then [] else [{ num := 12, data := leBytes 1 idx ++ leBytes 2 target }] }

/-- Abort in cycle k with a cause (R218): into the handler, or at once into ABORTED without one or from within it. -/
def sqAbort (idx : Nat) (cfg : SeqCfg) (e : SeqEnv) (cause : Nat) (s : SeqSt) : SeqRes :=
  match (if s.handler then none else e.recipe.bind (·.abortStep)) with
  | some a =>
    { st := sqEnter e a e.k (sqLasted e s) { s with st := 5, cause := cause, handler := true } }
  | none => sqAborted idx cfg e cause s

/-- Take a branch (R207), its entry cycle as for `sqGoto`. -/
def sqBranch (idx : Nat) (cfg : SeqCfg) (e : SeqEnv) (b : Nat × Nat) (at_ : Option Nat) (s : SeqSt) : SeqRes :=
  let n := match e.recipe with | some r => r.steps.length | none => 0
  let done : SeqRes := if s.handler then sqAborted idx cfg e s.cause s
    else { st := { s with st := 6, cur := 0x7FF, wait := none, last := (e.k : Int) - s.ke } }
  match b.1 with
  | 0 => if s.cur + 1 < n then sqGoto idx e (s.cur + 1) at_ s else done
  | 1 => sqGoto idx e b.2 at_ s
  | 2 => { st := { s with st := 4, hkind := 2, pend := b.2, ih := e.k - s.ke } }
  | 3 => sqAbort idx cfg e 2 s
  | _ => done

/-- Acceptance of a command (R209, R211): 0, or WHY. -/
def sqWhy (code : Nat) (loaded : Bool) (e : SeqEnv) (startStep kStart : Nat) (s : SeqSt) : Nat :=
  match code with
  | 1 =>
    if !(s.st = 0 || s.st = 6 || s.st = 7) then sqWhySTATE
    else if !loaded then sqWhyNOTLOADED
    else if (match e.recipe with | some r => r.steps.length | none => 0) ≤ startStep then sqWhyPARAM
    else if kStart ≠ 0 && kStart ≤ e.k then sqWhyLATE
    else if e.shed then sqWhySHED else 0
  | 2 => if s.st = 3 then 0 else sqWhySTATE
  | 3 => if s.st = 4 then 0 else sqWhySTATE
  | 4 => if s.st = 2 || s.st = 3 || s.st = 4 || s.st = 5 then 0 else sqWhySTATE
  | 5 => if s.st = 6 || s.st = 7 then 0 else sqWhySTATE
  | _ => sqWhySTATE

/-- The effect of an accepted command (R209, R211, R217, R218). -/
def sqApply (idx : Nat) (cfg : SeqCfg) (code : Nat) (e : SeqEnv) (startStep kStart : Nat) (s : SeqSt) : SeqRes :=
  match code with
  | 1 =>
    let s1 := { s with flags := 0, handler := false, startStep := startStep, kStart := kStart, resumed := false,
                       slots := sqSlots startStep (e.recipe.bind (·.abortStep)), fetchPend := true, fetchBad := false }
    if kStart = 0 then { st := sqEnter e startStep e.k s.last { s1 with st := 3 } }
    else { st := { s1 with st := 2 } }
  | 2 => { st := { s with st := 4, hkind := 1, ih := e.k - s.ke } }
  | 3 =>
    let run : SeqSt := { s with st := if s.handler then 5 else 3, ke := e.k - s.ih, hkind := 0, pend := 0x7FF }
    if s.hkind = 2 then sqGoto idx e s.pend none run
    else { st := { run with wait := s.wait.map (fun w => { w with ke := w.ke.map (fun n => run.ke + (n - s.ke)) }) } }
  | 4 => if s.st = 2 then { st := { s with st := 0, fetchPend := false } } else sqAbort idx cfg e 1 s
  | 5 => { st := { s with st := 0 } }
  | _ => { st := s }

/-- Judge and take a new command of a source (R209); `only` restricts to one code. -/
def sqTake (idx : Nat) (cfg : SeqCfg) (only : Option Nat) (loaded fromSig : Bool) (w : Word)
    (startStep kStart : Nat) (e : SeqEnv) (s : SeqSt) : SeqRes :=
  let seq := bitsOf w.toNat 8 8
  let code := bitsOf w.toNat 0 4
  let new := if fromSig then seq ≠ s.ackS else seq ≠ s.ackW
  if !(decide new && (only = none || only = some code)) then { st := s }
  else
    let why := if s.sigTaken && !fromSig then sqWhySOURCE else sqWhy code loaded e startStep kStart s
    let s1 := if fromSig then { s with ackS := seq, sigTaken := true } else { s with ackW := seq }
    let s2 := { s1 with lastReq := if why = 0 then 1 else 2, reqSrc := b2n fromSig, why := why }
    if why = 0 then sqApply idx cfg code e startStep kStart s2
    else { st := { s2 with refused := satAdd 0xFFFF s2.refused 1 } }

/-- A new CMD_SIG command, of one code or of any (R209). -/
def sqFromSig (idx : Nat) (cfg : SeqCfg) (only : Option Nat) (loaded : Bool) (e : SeqEnv) (s : SeqSt) : SeqRes :=
  match cfg.cmdSig with
  | some g => if (e.sig g).valid then sqTake idx cfg only loaded true (e.sig g).val 0 0 e s else { st := s }
  | none => { st := s }

/-- A record that could not be read aborts the recipe, before any command of the cycle (R209, R219): the abort slot is already present. -/
def sqFaults (idx : Nat) (cfg : SeqCfg) (e : SeqEnv) (s : SeqSt) : SeqRes :=
  if !s.fetchBad then { st := s }
  else if s.st = 2 || s.st = 3 || s.st = 4 || s.st = 5 then sqAbort idx cfg e 3 { s with fetchBad := false }
  else { st := { s with fetchBad := false } }

/-- What a cycle takes before a request-tile command: a failed fetch, then a new CMD_SIG command (R209). -/
def sqFirst (idx : Nat) (cfg : SeqCfg) (only : Option Nat) (loaded : Bool) (e : SeqEnv) (s : SeqSt) : SeqRes :=
  let f := sqFaults idx cfg e s
  let r := sqFromSig idx cfg only loaded e f.st
  { r with evs := f.evs ++ r.evs }

/-- Faults, then both sources, CMD_SIG first (R209). -/
def sqRequests (idx : Nat) (cfg : SeqCfg) (only : Option Nat) (loaded : Bool) (e : SeqEnv) (s : SeqSt) : SeqRes :=
  let r := sqFirst idx cfg none loaded e s
  let t := sqTake idx cfg only loaded false e.cmdW e.startStep e.kStart e r.st
  { t with evs := r.evs ++ t.evs }

/-- The operator of an end condition (R205), compared as signed integers. -/
def condHolds (c : CondRec) (x : Word) : Bool :=
  let v := sW x
  match c.op with
  | 0 => sW c.a ≤ v
  | 1 => v ≤ sW c.a
  | 2 => sW c.a < v
  | 3 => v < sW c.a
  | 4 => v = sW c.a
  | 5 => v ≠ sW c.a
  | 6 => sW c.a ≤ v && v ≤ sW c.b
  | 7 => v < sW c.a || sW c.b < v
  | 8 => bitAt x.toNat (c.a.toNat % 32)
  | _ => !bitAt x.toNat (c.a.toNat % 32)

/-- Persistence counts of the armed conditions, over the values visible at the token (R213). -/
def sqCounts (e : SeqEnv) (p : StepRec) (armed : Bool) (s : SeqSt) : List Nat :=
  (List.range p.conds.length).map (fun i => match p.conds[i]? with
    | none => 0
    | some c =>
      let v := e.vis c.sig
      if armed && v.valid && condHolds c v.val then satAdd 255 (nth 0 s.counts i) 1 else 0)

/-- Conditions, duration and timeout of a running step (R212 to R215). -/
def sqRun (idx : Nat) (cfg : SeqCfg) (e : SeqEnv) (s : SeqSt) : SeqRes :=
  match stepOf e.recipe s.cur with
  | none => { st := s }
  | some p =>
    let i := e.k - s.ke
    let nD := max 1 (ceilDiv p.dur e.pms)
    let nT := ceilDiv p.tmo e.pms
    let armed := if p.wait then decide (nD ≤ i) else decide (1 ≤ i)
    let s1 := { s with counts := sqCounts e p armed s }
    match s.wait with
    | some w => sqGoto idx e w.target w.ke s1
    | none =>
      match (List.range p.conds.length).find? (fun j => match p.conds[j]? with
          | some c => max 1 c.persist ≤ nth 0 s1.counts j | none => false) with
      | some j => match p.conds[j]? with
        | some c => sqBranch idx cfg e (c.br, c.tgt) none s1
        | none => { st := s1 }
      | none =>
        if p.wait then
          if p.tmo ≠ 0 && nT ≤ i then sqBranch idx cfg e p.brTmo (some (s.ke + nT)) s1 else { st := s1 }
        else if nD ≤ i then sqBranch idx cfg e p.brEnd (some (s.ke + nD)) s1 else { st := s1 }

/-- x = (j + 1) / n_R as a Q1.31 word, rounded per R70. -/
def rampX (j1 n : Nat) : Taken := satW (roundDiv ((j1 : Int) * 2 ^ 31) n)

/-- f = 3x² − 2x³ in Q1.31 (R216). -/
def rampS (x : Taken) : Taken :=
  let x2 := (accSum [sigSig x.w x.w]).take
  let x3 := (accSum [sigSig x2.w x.w]).take
  let f := (accSum [sigIn x2.w, sigIn x2.w, sigIn x2.w, -(sigIn x3.w), -(sigIn x3.w)]).take
  { f with sat := f.sat || x.sat || x2.sat || x3.sat }

/-- The value a channel stages in cycle k (R216), clamped to its limits, and whether take saturated on the way (R70). -/
def rampVal (cfg : SeqCfg) (ch k ke : Nat) (r : RampSt) : Taken :=
  let j : Int := (k : Int) - ke - r.o
  let raw : Taken :=
    if r.nR = 0 ∨ (r.nR : Int) ≤ j + 1 then { w := r.v1, sat := false }
    else
      let x := rampX (j + 1).toNat r.nR
      let f := if r.shape = 2 then rampS x else x
      let y := (accSum [sigIn r.v0, sigSig f.w r.v1, -(sigSig f.w r.v0)]).take
      { y with sat := y.sat || f.sat }
  match cfg.chans.find? (fun d => d.1 = ch) with
  | some d => { raw with w := clampW3 d.2.2.1 d.2.2.2.1 raw.w }
  | none => raw
where
  clampW3 (lo hi y : Word) : Word := if sW y < sW lo then lo else if sW hi < sW y then hi else y

/-- Stage the ramps of a running sequencer. -/
def sqRamps (cfg : SeqCfg) (e : SeqEnv) (s : SeqSt) : SeqRes :=
  if s.st = 3 || s.st = 5 then
    let vs := (List.range s.ramps.length).map (fun c =>
      let r := nth {} s.ramps c
      let v := rampVal cfg c e.k s.ke r
      ({ r with val := v.w, sat := v.sat }, v.sat))
    { st := { s with ramps := vs.map Prod.fst }, sat := vs.any (·.2) }
  else { st := s }

/-- What `UNIT.SQ_STAT` shows (R221). -/
def seqStat (loaded : Bool) (s : SeqSt) : Nat :=
  s.st + s.hkind * 16 + b2n loaded * 64 + b2n s.flate * 128 + s.lastReq * 2 ^ 8 + s.reqSrc * 2 ^ 10 + s.why * 2 ^ 11
    + s.cause * 2 ^ 15 + b2n s.resumed * 2 ^ 17

/-- The signals a sequencer stages (R201). -/
def seqStaged (cfg : SeqCfg) (loaded : Bool) (s : SeqSt) : List Staged :=
  cfg.chans.map (fun d => stg d.2.1 (chanVal s d.1) (mkStatus true 0 false false false (nth {} s.ramps d.1).sat))
    ++ [stg cfg.sStep (if s.cur = 0x7FF then wS (-1) else BitVec.ofNat 32 s.cur) stOk, stg cfg.sFlags s.flags stOk,
        stg cfg.sState (BitVec.ofNat 32 (seqStat loaded s)) stOk, stg cfg.sElapsed (BitVec.ofNat 32 s.elapsed) stOk]

/-- One sequencer in one cycle (R209, R211 to R219). A HOLD or ABORT leaves no running step whose end could act, and a step that was
entered ends no earlier than in the next cycle (R212, R214). -/
def seqEval (idx : Nat) (cfg : SeqCfg) (loaded : Bool) (e : SeqEnv) (s : SeqSt) : SeqRes × List Staged :=
  let r := sqRequests idx cfg none loaded e s
  let s1 := r.st
  let t : SeqRes :=
    if s1.st = 2 && s1.kStart ≤ e.k then { st := sqEnter e s1.startStep e.k s1.last { s1 with st := 3 } }
    else if s1.st = 3 || s1.st = 5 then sqRun idx cfg e s1
    else { st := s1 }
  let rs := sqRamps cfg e { t.st with sigTaken := false }
  let s2 := rs.st
  let s3 := { s2 with elapsed := if s2.cur = 0x7FF then 0
                                 else if s2.st = 4 then s2.ih * e.pms else (e.k - s2.ke) * e.pms }
  ({ st := s3, evs := r.evs ++ t.evs, sat := rs.sat }, seqStaged cfg loaded s3)

/-- A sequencer's state after a Last load: channels at their idle values (R201). -/
def seqInit (cfg : SeqCfg) : SeqSt :=
  { ramps := (List.range 64).map (fun c => match cfg.chans.find? (fun d => d.1 = c) with
      | some d => { v0 := d.2.2.2.2, v1 := d.2.2.2.2, val := d.2.2.2.2 } | none => {}) }

/-- A sequencer after a resume or takeover (R220); `pms` its cadence's period in ms, `plr` for a power-loss resume. i_h is what the
checkpoint's last cycle had elapsed. -/
def seqResume (cfg : SeqCfg) (plr : Bool) (pms : Nat) (s : SeqSt) : SeqSt :=
  if (plr && (s.st = 3 || s.st = 5)) || (cfg.resumeHold && s.st = 3) then
    { s with st := 4, hkind := 1, ih := s.elapsed / pms, resumed := true }
  else if s.st = 3 || s.st = 5 || s.st = 4 then { s with resumed := true } else s

/-! ### What the units of a Last read (R30, R45) -/

/-- The signal of the axis that an axis names as its master (R176, R183). -/
def LastRec.masterSig (l : LastRec) (c : AxisCfg) : List Nat :=
  match (l.ranked 3)[c.masterAxis / 16]? with
  | some v => (match (Tbl.getD [] l.axes v)[c.masterAxis % 16]? with
    | some m => [if c.masterAct then m.sApos else m.sSpos]
    | none => [])
  | none => []

/-- Signals that the end conditions of the recipes preloaded into a unit's sequencers read (R205). -/
def LastRec.recipeSigs (l : LastRec) (u : Nat) : List Nat :=
  (l.recipes.map (fun e => if (l.ranked 4)[e.1 / 4]? = some u then
    ((parseRecipe e.2).steps.map (fun s => s.conds.map (·.sig))).flatten else [])).flatten

/-- Input signals that a segment's program reads through mapped variables, its own and those of the partition's other segments (R144, R149). -/
def PartCfg.readSigs (p : PartCfg) (u : Nat) : List Nat :=
  let named := (Tbl.getD [] p.progs u).filterMap (fun w => (insnObj w).bind (fun k => findObj p k.1 k.2))
  ((p.objs.filter (fun o => decide (o.owner = u)) ++ named).filter (fun o => decide (o.mapTo = 1))).map (·.sig)

/-- Signals a unit reads. -/
def LastRec.reads (l : LastRec) (kind u : Nat) : List Nat :=
  match kind with
  | 1 => ((Tbl.getD [] l.loops u).map (fun c => c.pv :: (c.sp.toList ++ c.ff.toList ++ c.sch.toList ++ c.modeSig.toList))).flatten
  | 2 => (l.parts.map (fun p => p.readSigs u)).flatten
  | 3 => ((Tbl.getD [] l.axes u).map (fun c => c.cmdSig.toList ++ c.parSig.toList ++ c.limPos.toList ++ c.limNeg.toList ++ c.homeSw.toList ++
      c.aposIn.toList ++ c.statIn.toList ++ c.latchIn.toList ++
      (if c.masterVirt then [] else l.masterSig c))).flatten
  | 4 => ((Tbl.getD [] l.seqs u).map (fun c => c.cmdSig.toList)).flatten ++ l.recipeSigs u
  | 5 => (List.range (Tbl.getD [] l.engs u).length).foldl (fun a e =>
      a ++ (nth {} (Tbl.getD [] l.engs u) e).sigs ++ ((l.engReq u e).1.filter (fun q => decide (1 ≤ q.typ) && decide (q.typ ≤ 5))).map (·.sig)) []
  | 6 => ((Tbl.getD [] l.conds u).filter (fun c => !c.sample)).map (·.src)
  | _ => []

end Sys2Proof.Machine
end

