-- ==== Sys2Proof/Machine/Acq.lean ====
section
/-!
DEFINITION. Acquisition engines and signal history (R263 to R283, R350, R351).
-/
namespace Sys2Proof.Machine

/-! ### The rim's side of an engine: rows and blocks (R265, R266, R269) -/

/-- Bytes of a row of `s` signals (R265). -/
def rowSize (s : Nat) : Nat := 4 * s + 4 * ((s + 3) / 4)

/-- Rows of a full block. -/
def rowsPerBlock (s : Nat) : Nat := 4032 / rowSize s

/-- Data blocks of a slot (R266). -/
def EngCfg.blocks (c : EngCfg) : Nat := c.area / (4096 * c.nrec) - 1

/-- The blocks that a slot, a circular buffer, still holds (R266). -/
def EngCfg.keep (c : EngCfg) (bs : List BlockRec) : List BlockRec := bs.drop (bs.length - c.blocks)

/-- The cycle after the last one for which a block stands: decimated cycles belong to the row before them (R265). -/
def BlockRec.fin (b : BlockRec) : Nat := b.k0 + b.rows.length * 2 ^ b.d

/-- Block flags (R265). -/
def bfTRIG : Nat := 1
def bfGAP : Nat := 2
def bfENDROW : Nat := 4
def bfSHED : Nat := 8

/-- The larger occupancy of the write queue and the stream backlog (R269). -/
def EngRim.q (r : EngRim) : Nat := max r.queue.length r.stream.length

/-- The decimation after a block close at tick `now` (R269). -/
def EngRim.judge (r : EngRim) (dmin now : Nat) : Nat :=
  let quiet := match r.quietFrom with | some t => decide (t + 500000000 ≤ now) | none => false
  let d := if 12 ≤ r.q ∧ r.d < 8 then r.d + 1 else if quiet = true ∧ dmin < r.d then r.d - 1 else r.d
  max d dmin

/-- Note since when at most two blocks have waited. -/
def EngRim.watch (r : EngRim) (now : Nat) : EngRim :=
  { r with quietFrom := if 2 < r.q then none else some (r.quietFrom.getD now) }

/-- Close the block in progress: it is queued or dropped, and the decimation is judged. -/
def EngRim.close (c : EngCfg) (dmin shed now slot : Nat) (r : EngRim) : EngRim :=
  match r.cur with
  | none => r
  | some b =>
    let trig := decide (b.flags % 2 = 1)
    let full := decide (16 ≤ r.queue.length) || (decide (16 ≤ r.q) && decide (r.d = 8))
    let r1 : EngRim :=
      if full && !trig then
        { r with cur := none, lostNext := r.lostNext + 1, dropped := satAdd 65535 r.dropped 1 }
      else
        let fl := b.flags ||| (if r.lostNext ≠ 0 then bfGAP else 0) ||| (if c.dMin < shed then bfSHED else 0)
        let b' : BlockRec := { b with seq := r.seq, flags := fl, lost := r.lostNext, pos := r.wpos, slot := slot }
        { r with cur := none, queue := r.queue ++ [b'], stream := if c.cont then r.stream ++ [b'] else r.stream,
                 seq := (r.seq + 1) % 2 ^ 32, wpos := (r.wpos + 1) % max 1 c.blocks, lostNext := 0, blks := c.keep (r.blks ++ [b']) }
    let dn := r1.judge dmin now
    ({ r1 with d := dn, nextK := if dn = b.d then b.kEnd + 2 ^ b.d else b.kEnd + 1 }).watch now

/-- Start a block with a row. -/
def EngRim.start (flags : Nat) (row : RowRec) (r : EngRim) : EngRim :=
  let b : BlockRec := { d := r.d, flags := flags ||| (if r.gapNext then bfGAP else 0), k0 := row.k, kEnd := row.k, rows := [row] }
  { r with cur := some b, gapNext := false }

/-- Close the block when it is full. -/
def EngRim.full (c : EngCfg) (dmin shed now slot : Nat) (r : EngRim) : EngRim :=
  match r.cur with
  | some b => if rowsPerBlock c.sigs.length ≤ b.rows.length then r.close c dmin shed now slot else r
  | none => r

/-- The next cycle whose row is to be stored is past: rows are missing before this one (R265). -/
def EngRim.missed (k : Nat) (r : EngRim) : Bool :=
  let due := match r.cur with | some b => b.fin | none => r.nextK
  decide (due ≠ 0) && decide (due < k)

/-- Take the row of a cycle: `flags` non-zero starts a block with it; `last` ends the record with it. A gap closes the block. -/
def EngRim.push (c : EngCfg) (dmin shed now slot flags : Nat) (last : Bool) (row : RowRec) (r : EngRim) : EngRim :=
  let r := { r with gapNext := r.gapNext || r.missed row.k }
  let r := if flags ≠ 0 || r.gapNext then r.close c dmin shed now slot else r
  let add (b : BlockRec) (fl : Nat) : EngRim :=
    { r with cur := some { b with rows := b.rows ++ [row], kEnd := row.k, flags := b.flags ||| fl } }
  let r := match r.cur with
    | none =>
      if flags ≠ 0 || r.gapNext || r.nextK ≤ row.k then r.start flags row
      else if last then r.start bfENDROW row else r
    | some b =>
      if (row.k - b.k0) % 2 ^ b.d = 0 then add b 0 else if last then add b bfENDROW else r
  if last then r.close c dmin shed now slot else r.full c dmin shed now slot

/-- Bytes of a block (R265). -/
def BlockRec.bytes (eng : Nat) (b : BlockRec) : List Byte :=
  let head := leBytes 4 0x41424C4B ++ [BitVec.ofNat 8 eng, BitVec.ofNat 8 b.d] ++ leBytes 2 b.rows.length
    ++ leBytes 4 b.seq ++ leBytes 4 b.flags ++ leBytes 8 b.k0 ++ leBytes 8 b.kEnd ++ leBytes 4 b.lost
  let rowB (r : RowRec) : List Byte :=
    (r.vals.map wordBytes).flatten ++ r.sts ++ zeros ((4 - r.sts.length % 4) % 4)
  let body := (b.rows.map rowB).flatten
  let tail := body ++ zeros (4032 - body.length)
  let crc := crc32c (head ++ zeros 28 ++ tail)
  head ++ leBytes 4 crc ++ zeros 24 ++ tail

/-- Part of a block. -/
def BlockRec.part (b : BlockRec) (flags lost : Nat) (rs : List RowRec) : List BlockRec :=
  match rs, rs.getLast? with
  | r :: _, some l => [{ b with rows := rs, k0 := r.k, kEnd := l.k, flags := flags, lost := lost }]
  | _, _ => []

/-- The block for cycle `k` is split so that the row of `k` starts a block with TRIG set (R275). A row that was decimated or dropped comes from the
engine's samples and is a block by itself, for the trigger row is stored at any decimation (R269; log entry 123). -/
def BlockRec.cutAt (k : Nat) (row : Option RowRec) (b : BlockRec) : List BlockRec :=
  let front := b.rows.filter (fun r => r.k < k)
  let back := b.rows.filter (fun r => k ≤ r.k)
  let on := back.head?.any (fun r => decide (r.k = k))
  let gap := if front.isEmpty then b.flags &&& bfGAP else 0
  let own := b.flags &&& bfSHED
  b.part (b.flags / 2 * 2) b.lost front
    ++ (if on then [] else b.part (own ||| bfTRIG ||| gap) 0 row.toList)
    ++ b.part ((b.flags &&& bfENDROW) ||| own ||| gap ||| (if on then bfTRIG else 0)) (if front.isEmpty then b.lost else 0) back

/-- A block of a record that ends at cycle `k`: rows after it are discarded, and the row of `k` is the last one (R275). -/
def BlockRec.endAt (c : EngCfg) (k : Nat) (row : Option RowRec) (b : BlockRec) : List BlockRec :=
  let rs := b.rows.filter (fun r => r.k ≤ k)
  match rs.getLast? with
  | none => []
  | some l =>
    if l.k = k ∨ b.fin ≤ k then b.part b.flags b.lost rs
    else match row with
      | none => b.part b.flags b.lost rs
      | some x =>
        if rs.length < rowsPerBlock c.sigs.length then b.part (b.flags ||| bfENDROW) b.lost (rs ++ [x])
        else b.part b.flags b.lost rs ++ b.part (bfENDROW ||| (b.flags &&& bfSHED)) 0 [x]

/-- The blocks of the slot are cut anew, each into what `f` makes of it: they follow one another in the slot and in SEQ. Those not written yet stay
in the write queue; of the written ones the changed are answered, which the rim writes again (log entry 123). -/
def EngRim.relay (c : EngCfg) (f : BlockRec → List BlockRec) (r : EngRim) : EngRim × List BlockRec :=
  match r.blks with
  | [] => (r, [])
  | h :: _ =>
    let mine (b : BlockRec) : Bool := r.blks.any (fun x => decide (x.seq = b.seq))
    let nw := r.blks.length - r.queue.countP mine
    let wr := r.blks.take nw
    let cut (bs : List BlockRec) : List BlockRec := (bs.map f).flatten
    let all := (cut r.blks).mapIdx (fun i b => { b with seq := (h.seq + i) % 2 ^ 32, pos := (h.pos + i) % max 1 c.blocks })
    let n := (cut wr).length
    ({ r with queue := r.queue.filter (fun b => !mine b) ++ all.drop n, blks := c.keep all, seq := (h.seq + all.length) % 2 ^ 32,
              wpos := (h.pos + all.length) % max 1 c.blocks }, (all.take n).filter (fun b => !wr.contains b))

/-- The parts of the block in progress: all but the last are closed. -/
def EngRim.closeParts (c : EngCfg) (dmin shed now slot : Nat) (ps : List BlockRec) (r : EngRim) : EngRim :=
  { ps.dropLast.foldl (fun (r : EngRim) p => ({ r with cur := some p } : EngRim).close c dmin shed now slot) { r with cur := none } with cur := ps.getLast? }

/-- The blocks of the slot and the one in progress, oldest first. -/
def EngRim.held (r : EngRim) : List BlockRec := r.blks ++ r.cur.toList

/-- The row of cycle `k` is made the trigger row (R275); blocks after it are no longer marked. -/
def EngRim.split (c : EngCfg) (dmin shed now slot k : Nat) (row : Option RowRec) (r : EngRim) : EngRim × List BlockRec :=
  match r.held.find? (fun b => decide (k < b.fin)) with
  | none => (match row with | some x => (r.start bfTRIG x, []) | none => (r, []))
  | some t =>
    let f (b : BlockRec) : List BlockRec :=
      if b.k0 = t.k0 then b.cutAt k row else if k < b.k0 then [{ b with flags := b.flags / 2 * 2 }] else [b]
    let x := r.relay c f
    (x.1.closeParts c dmin shed now slot (r.cur.toList.map f).flatten, x.2)

/-- The record ends at a cycle `k` that has passed (R275). -/
def EngRim.finish (c : EngCfg) (dmin shed now slot k : Nat) (row : Option RowRec) (r : EngRim) : EngRim × List BlockRec :=
  let f := BlockRec.endAt c k row
  let x := r.relay c f
  ((x.1.closeParts c dmin shed now slot (r.cur.toList.map f).flatten).close c dmin shed now slot, x.2)

/-! ### Conditions and trigger times (R270, R271) -/

/-- What an engine reads in a cycle: cycle, boundary values in ns, token ticks of this and the last cycle, signals, source
assertions (source, tick, ns, fraction), decimation limits, present tick. -/
structure EngEnv where
  k : Nat
  tk : Nat
  tPrev : Nat
  tok : Nat
  tokPrev : Nat
  vis : Nat → SigVal
  hits : List (Nat × Nat × Nat × Nat)
  dmin : Nat
  shed : Nat
  now : Nat

/-- The value of a signal in a row, if valid. -/
def rowVal (sigs : List Nat) (r : RowRec) (sig : Nat) : Option Int :=
  let i := (sigs.takeWhile (· ≠ sig)).length
  if i < r.vals.length ∧ bitAt (nth 0 r.sts i).toNat 7 then some (sW (nth 0 r.vals i)) else none

/-- A condition in a cycle: true or not, and its RISE or FALL memory after it. -/
def condEval (env : EngEnv) (c : TrigCond) (low : Bool) : Bool × Bool :=
  if c.typ = 6 then
    (env.hits.any (fun h => h.1 = c.a.toNat && decide (env.tokPrev < h.2.1) && decide (h.2.1 ≤ env.tok)), low)
  else
    let v := env.vis c.sig
    if !v.valid || c.typ = 0 then (false, low)
    else
      let x := sW v.val
      if c.typ = 1 then
        if low && decide (sW c.a ≤ x) then (true, false) else (false, low || decide (x ≤ sW c.a - sW c.h))
      else if c.typ = 2 then
        if low && decide (x ≤ sW c.a) then (true, false) else (false, low || decide (sW c.a + sW c.h ≤ x))
      else if c.typ = 3 then (decide (x < sW c.a) || decide (sW c.b < x), low)
      else if c.typ = 4 then (decide (sW c.a ≤ x) && decide (x ≤ sW c.b), low)
      else if c.typ = 5 then (bitAt v.val.toNat (c.a.toNat % 32), low)
      else (false, low)

/-- An interpolated crossing of level `a` between the last cycle and this one, in 2^-32 ns (R271). -/
def crossTime (env : EngEnv) (prev : Option Int) (x a : Int) : Nat :=
  match prev with
  | some y =>
    if x = y then env.tk * 2 ^ 32
    else
      let num := (a - y) * sgnI (x - y) * ((env.tk : Int) - env.tPrev) * 2 ^ 32
      (env.tPrev * 2 ^ 32 + roundDiv num (x - y).natAbs).toNat
  | none => env.tk * 2 ^ 32

/-- A comparator fired for this engine in the interval of this cycle (R270). -/
def EngSt.timeHit (env : EngEnv) (s : EngSt) : Option (Nat × Nat) :=
  s.timeReqs.find? (fun t => decide (env.tokPrev < t.1) && decide (t.1 ≤ env.tok))

/-- The trigger time of the lowest source in a mask, in ns and 2^-32 ns. -/
def trigTime (env : EngEnv) (s : EngSt) (mask : Nat) : Nat × Nat :=
  match (List.range 7).find? (fun i => bitAt mask i) with
  | some i =>
    if i < 4 then
      let q := nth {} s.conds i
      if q.typ = 1 ∨ q.typ = 2 then
        let prev := if s.prevRow.any (fun r => decide (r.k + 1 = env.k)) then nth none s.prevC i else none
        let t := crossTime env prev (sW (env.vis q.sig).val) (sW q.a)
        (t / 2 ^ 32, t % 2 ^ 32)
      else if q.typ = 6 then
        match env.hits.find? (fun h => h.1 = q.a.toNat && decide (env.tokPrev < h.2.1) && decide (h.2.1 ≤ env.tok)) with
        | some h => (h.2.2.1, h.2.2.2)
        | none => (env.tk, 0)
      else (env.tk, 0)
    else if i = 4 then (match s.timeHit env with | some (_, t) => (t, 0) | none => (env.tk, 0))
    else if i = 6 then (match s.grpReq with | some (_, n, f, _) => (n, f) | none => (env.tk, 0))
    else (env.tk, 0)
  | none => (env.tk, 0)

/-! ### Measurements (R272) -/

/-- Take one sample into a measured signal's sums. -/
def MeasSt.add (env : EngEnv) (l h : Int) (prev : Option Int) (x : Int) (m : MeasSt) : MeasSt :=
  let m1 := { m with mn := if m.n = 0 ∨ x < m.mn then x else m.mn, mx := if m.n = 0 ∨ m.mx < x then x else m.mx,
                     sum := m.sum + x, sq := m.sq + (roundDiv (x * x) (2 ^ 31)).toNat, n := m.n + 1 }
  if m.armedX && decide (l ≤ x) then
    let t : Int := crossTime env prev x l
    { m1 with armedX := false, crossings := m.crossings + 1, cross := some t,
              span := match m.cross with | some t0 => m.span + (t - t0) | none => 0 }
  else { m1 with armedX := m.armedX || decide (x ≤ l - h) }

/-- A row taken into all measurements. -/
def measRow (env : EngEnv) (c : EngCfg) (prev : Option RowRec) (row : RowRec) (ms : List MeasSt) : List MeasSt :=
  (List.range c.meas.length).map (fun i =>
    let q := nth (0, 0, 0) c.meas i
    let m := nth {} ms i
    match rowVal c.sigs row q.1 with
    | some x =>
      m.add env (sW q.2.1) (sW q.2.2) (prev.bind (fun r => if r.k + 1 = row.k then rowVal c.sigs r q.1 else none)) x
    | none => m)

/-- Measurements over the samples of a span of cycles, each with the boundary value of its own cycle (R272). -/
def measSpan (env : EngEnv) (c : EngCfg) (k0 k1 : Nat) (past : List (Nat × RowRec)) : List MeasSt :=
  ((past.filter (fun x => decide (k0 ≤ x.2.k) && decide (x.2.k ≤ k1))).foldl (fun (a : List MeasSt × Option (Nat × RowRec)) x =>
    let at_ : EngEnv := { env with k := x.2.k, tk := x.1, tPrev := match a.2 with | some p => p.1 | none => x.1 }
    (measRow at_ c (a.2.map Prod.snd) x.2 a.1, some x)) (c.meas.map (fun _ => ({} : MeasSt)), none)).1

/-- A measurement entry (R272). -/
def MeasSt.bytes (gapped : Bool) (m : MeasSt) : List Byte :=
  let i32 (x : Int) : List Byte := leBytes 4 (ofS 32 x)
  let per := if m.crossings < 2 then 0
    else min (2 ^ 32 - 1) (roundDiv m.span ((m.crossings - 1) * 2 ^ 32)).toNat
  let head := if m.n = 0 then zeros 20
    else i32 m.mn ++ i32 m.mx ++ i32 (roundDiv m.sum m.n) ++ leBytes 4 ((iroot 2 (4 * (2 ^ 31 * m.sq) / m.n) 40 0 + 1) / 2)
      ++ i32 (m.mx - m.mn)
  let fl := min m.crossings 65535 + b2n (decide (m.crossings < 2)) * 2 ^ 16 + b2n (decide (m.n = 0)) * 2 ^ 17
    + b2n gapped * 2 ^ 18
  head ++ leBytes 4 per ++ leBytes 4 m.n ++ leBytes 4 fl

/-! ### Records (R266) -/

/-- The blocks of a record: from the one for cycle k_t − PRE_ACT on; where that one is gone, from the first that is left (R266, R275). -/
def EngSt.span (s : EngSt) (bs : List BlockRec) : List BlockRec :=
  bs.filter (fun b => decide (s.kT - s.preAct < b.fin) && decide (b.k0 ≤ s.kT + s.post))

/-- The pre-trigger cycles that the blocks still hold. -/
def EngSt.preHeld (s : EngSt) (bs : List BlockRec) : Nat :=
  match s.span bs with | b :: _ => s.kT - max (s.kT - s.preAct) b.k0 | [] => 0

/-- The record header (R266): `grp` the arming group. -/
def recHeader (c : EngCfg) (grp : Option Nat) (engNo devidx : Nat) (s : EngSt) (r : EngRim) : List Byte :=
  let bs := s.span r.blks
  let act := s.preHeld r.blks
  let lost := (bs.tail.map (·.lost)).sum + r.lostNext
  let fl := b2n s.shortPre + b2n (s.partialPre || decide (act < s.preAct)) * 2 + b2n s.gapRec * 4 + b2n (bs.any (fun b => decide (b.d ≠ 0))) * 8
    + b2n grp.isSome * 16
  let head := leBytes 4 0x54524543 ++ leBytes 2 1 ++ leBytes 2 fl ++ [BitVec.ofNat 8 devidx, BitVec.ofNat 8 engNo,
      BitVec.ofNat 8 s.mask, BitVec.ofNat 8 c.sigs.length] ++ leBytes 2 (grp.getD 0xFFFF) ++ leBytes 2 (min s.retrig 65535)
    ++ leBytes 8 s.kT ++ leBytes 8 s.trigNs ++ leBytes 4 s.trigFrac ++ leBytes 4 act ++ leBytes 4 s.post
    ++ leBytes 4 bs.length ++ leBytes 4 ((bs.head?.map (·.pos)).getD 0) ++ leBytes 4 lost
  let sigs := (c.sigs.map (fun n => leBytes 4 n)).flatten
  let meas := (s.meas.map (fun m => m.bytes s.gapRec)).flatten
  let tail := zeros 196 ++ sigs ++ zeros (256 - sigs.length) ++ meas ++ zeros (512 - meas.length)
  head ++ leBytes 4 (crc32c (head ++ zeros 4 ++ tail)) ++ tail

/-- The address of a slot's header, and of a data block. -/
def EngCfg.slotAt (c : EngCfg) (slot : Nat) : Nat := c.base + slot * (c.area / max 1 c.nrec)
def EngCfg.blockAt (c : EngCfg) (slot pos : Nat) : Nat := c.slotAt slot + 4096 * (1 + pos)

/-! ### One cycle (R267, R270, R271, R275, R277) -/

/-- The outcome of a cycle: state, rim, whether the engine triggered, whether by itself, whether its record ended, blocks written again. -/
structure EngOut where
  st : EngSt
  rim : EngRim
  trig : Bool := false
  fired : Bool := false
  done : Bool := false
  again : List BlockRec := []

/-- The next free slot, from the present one on. -/
def EngSt.freeSlot (c : EngCfg) (s : EngSt) : Option Nat :=
  ((List.range c.nrec).map (fun i => (s.slot + i) % c.nrec)).find? (fun i => !s.used.contains i)

/-- Capture into a slot starts: conditions and counts start anew. MASK stays that of the last trigger (R282). -/
def EngSt.begin (st slot : Nat) (s : EngSt) : EngSt :=
  { s with st := st, slot := slot, used := s.used ++ [slot], lows := List.replicate 4 false, was := List.replicate 4 false,
           prevRow := none, prevC := [], past := [], startK := 0, captured := 0, armPend := none, retrig := 0, forceReq := false,
           grpReq := none, meas := [], shortPre := false, partialPre := false, gapRec := false, gapAt := none, gapOpen := false,
           preAct := 0 }

/-- The rim's side of a new capture: a fresh slot. -/
def EngRim.begin (r : EngRim) : EngRim :=
  { r with cur := none, wpos := 0, nextK := 0, lostNext := 0, blks := [], gapNext := false }

/-- What a trigger at cycle `kT` fixes: the pre-trigger cycles, SHORTPRE, PARTIAL, whether a gap lies in the record. -/
def EngSt.fix (kT ns frac mask : Nat) (r : EngRim) (s : EngSt) : EngSt :=
  let cap := s.past.countP (fun x => decide (x.2.k < kT))
  let act := min s.pre cap
  let x := { s with st := if s.st = 1 then 2 else s.st, kT := kT, trigNs := ns, trigFrac := frac, mask := mask, preAct := act,
                    shortPre := decide (cap < s.pre), gapRec := s.gapRec || s.gapAt.any (fun g => decide (kT - act < g)) }
  { x with partialPre := decide (x.preHeld r.held < act) }

/-- The conditions and other sources present in a cycle, as a mask, with the memories after it. -/
def EngSt.sources (env : EngEnv) (c : EngCfg) (s : EngSt) : Nat × EngSt :=
  let rs := (List.range 4).map (fun i => condEval env (nth {} s.conds i) (nth false s.lows i))
  let gate := !c.prefill || decide (s.pre ≤ s.captured)
  let conds := foldUp 4 (fun a i => a + b2n ((nth (false, false) rs i).1 && gate) * 2 ^ i) 0
  let time := (s.timeHit env).isSome
  let grp := match s.grpReq with | some (kf, _) => decide (kf ≤ env.k) | none => false
  (conds + b2n (time && gate) * 16 + b2n s.forceReq * 32 + b2n grp * 64,
   { s with lows := rs.map Prod.snd, was := rs.map Prod.fst })

/-- What a group trigger or a source of this cycle makes of an engine: state, rim, blocks written again, whether the row of this cycle is the trigger
row, whether the engine triggered by itself (R271, R275). -/
def EngSt.trigger (env : EngEnv) (c : EngCfg) (mask : Nat) (r0 : EngRim) (s : EngSt) : EngSt × EngRim × List BlockRec × Bool × Bool :=
  let grp := bitAt mask 6
  let own := mask % 64
  let g := s.grpReq.getD (env.k, s.trigNs, s.trigFrac, false)
  let kf := g.1
  let s' := { s with grpReq := none }
  -- the group's earlier cycle is adopted: its row starts a block, the measurements start there
  let adopt (m : Nat) : EngSt × EngRim × List BlockRec × Bool × Bool :=
    let x := if kf < env.k then r0.split c env.dmin env.shed env.now s.slot kf ((s.past.find? (fun p => decide (p.2.k = kf))).map Prod.snd) else (r0, [])
    (({ s' with meas := measSpan env c kf (kf + s.post) s.past }).fix kf g.2.1 g.2.2.1 m x.1, x.1, x.2, decide (kf = env.k), false)
  if s.st = 1 && mask ≠ 0 then
    if grp && (own = 0 || kf < env.k) then adopt 64
    else
      let t := if grp && g.2.2.2 then (g.2.1, g.2.2.1) else trigTime env s own
      (({ s' with meas := c.meas.map (fun _ => ({} : MeasSt)) }).fix env.k t.1 t.2 mask r0, r0, [], true, true)
  else if s.st = 2 && grp then
    if kf < s.kT then adopt (s.mask ||| 64)
    else if kf = s.kT then ({ s' with trigNs := g.2.1, trigFrac := g.2.2.1 }, r0, [], false, false)
    else (s', r0, [], false, false)
  else (s, r0, [], false, false)

/-- An engine that captures takes its sample of cycle k. -/
def EngSt.capture (env : EngEnv) (c : EngCfg) (slot0 : EngRim) (s : EngSt) : EngOut :=
  let row : RowRec := { k := env.k, vals := c.sigs.map (fun g => (env.vis g).val), sts := c.sigs.map (fun g => (env.vis g).st) }
  let was := s.was
  let src := s.sources env c
  let mask := src.1
  let s := src.2
  let push (fl : Nat) (last : Bool) (r : EngRim) : EngRim := r.push c env.dmin env.shed env.now s.slot fl last row
  let next (s : EngSt) : EngSt :=
    { s with prevRow := some row, captured := s.captured + 1, forceReq := false,
             prevC := s.conds.map (fun q => if (env.vis q.sig).valid then some (sW (env.vis q.sig).val) else none),
             past := if s.st = 1 ∨ s.st = 2 then s.past ++ [(env.tk, row)] else [] }
  let gap := s.gapOpen || s.prevRow.any (fun r => decide (r.k + 1 < env.k))
  let slot0 := { slot0 with gapNext := slot0.gapNext || s.gapOpen }
  let s := if gap then { s with gapOpen := false, gapAt := some env.k, gapRec := s.gapRec || decide (s.st = 2) } else s
  if s.st = 4 then
    let hit := decide (mask ≠ 0)
    { st := next { s with mask := if hit then mask else s.mask }, rim := push (if hit then bfTRIG + mask * 2 ^ 24 else 0) false slot0, trig := hit, fired := hit }
  else
    let x := s.trigger env c mask slot0
    let trig := decide (s.st = 1 ∧ x.1.st = 2)
    let fired := x.2.2.2.2
    let r := x.2.1
    let s := x.1
    if s.st = 2 then
      let kEnd := s.kT + s.post
      -- conditions that become true in a cycle after the trigger's
      let re := if s.kT < env.k then (List.range 4).countP (fun i => nth false s.was i && !nth false was i) else 0
      let s := { s with retrig := satAdd 65535 s.retrig re }
      let live := decide (env.k ≤ kEnd)
      let s := if live then { s with meas := measRow env c s.prevRow row s.meas } else s
      let f := if live then (push (if x.2.2.2.1 then bfTRIG else 0) (env.k = kEnd) r, [])
        else r.finish c env.dmin env.shed env.now s.slot kEnd ((s.past.find? (fun p => decide (p.2.k = kEnd))).map Prod.snd)
      let again := x.2.2.1 ++ f.2
      if kEnd ≤ env.k then
        { st := next { s with st := 3, used := if s.used.contains s.slot then s.used else s.used ++ [s.slot] },
          rim := { f.1 with records := (f.1.records + 1) % 65536 }, trig := trig, fired := fired, done := true, again := again }
      else { st := next s, rim := f.1, trig := trig, fired := fired, again := again }
    else { st := next s, rim := push 0 false r }

/-- One cycle of an engine. A group member with MODE = CONT streams from its arm cycle on. -/
def engCycle (env : EngEnv) (c : EngCfg) (s : EngSt) (r : EngRim) : EngOut :=
  let due := match s.armPend with | some k => decide (k ≤ env.k) && decide (s.st = 0) | none => false
  let rearm := decide (s.st = 3) && c.autoRearm
  let o : EngOut :=
    if due || rearm then
      match s.freeSlot c with
      | some sl => (s.begin (if c.cont then 4 else 1) sl).capture env c r.begin
      | none => { st := { s with armPend := none }, rim := r }
    else if (s.st = 1 ∨ s.st = 2 ∨ s.st = 4) ∧ s.startK ≤ env.k then s.capture env c r
    else { st := s, rim := r }
  { o with st := { o.st with timeReqs := o.st.timeReqs.filter (fun t => decide (env.tok < t.1)) } }

/-! ### Engines in the block -/

/-- The state of engine (u, e) as committed. -/
def Dev.engSt (d : Dev) (u e : Nat) : EngSt := Tbl.getD {} (Tbl.getD {} d.units u).base.engs e
def Dev.engRim (d : Dev) (u e : Nat) : EngRim := Tbl.getD {} d.eng (4 * u + e)
def Dev.engCfg (d : Dev) (u e : Nat) : Option EngCfg := (Tbl.getD [] d.cfg.engs u)[e]?

/-- Change an engine's state, committed and in the cycle in progress. -/
def Dev.updEng (u e : Nat) (f : EngSt → EngSt) (d : Dev) : Dev :=
  let g (m : UnitSem) : UnitSem := { m with engs := Tbl.upd {} e f m.engs }
  { d with units := Tbl.upd {} u (fun x => { x with base := g x.base, work := g x.work }) d.units }

def Dev.setRim (u e : Nat) (r : EngRim) (d : Dev) : Dev := { d with eng := Tbl.put (4 * u + e) r d.eng }

/-- TRIG units of the Last in ascending order, left out ones among them: the rank gives the device engine number (R263). -/
def Dev.trigUnits (d : Dev) : List Nat := d.cfg.ranked 5

/-- The device engine number 4r + e. -/
def Dev.engNo (d : Dev) (u e : Nat) : Nat := 4 * (d.trigUnits.takeWhile (· ≠ u)).length + e

/-- The engine of a device engine number. -/
def Dev.engOf (d : Dev) (n : Nat) : Option (Nat × Nat) := ((d.trigUnits[n / 4]?).map (fun u => (u, n % 4))).filter (fun x => (d.engCfg x.1 x.2).isSome)

/-- A TRIG_FIRE comparator presents its target to an engine (R112, R270). -/
def Dev.trigFire (n target : Nat) (d : Dev) : Dev :=
  match d.engOf n with
  | some (u, e) => d.updEng u e (fun s => { s with timeReqs := s.timeReqs ++ [(d.time.cnt, target)] })
  | none => d

/-- Whether a unit number and engine can name an engine. -/
def Dev.engOk (d : Dev) (u e : Nat) : Bool := decide (u < d.nUnits) && decide (e < 4)

/-- A command is refused with its reason (R267). -/
def EngSt.refuse (why : Nat) (s : EngSt) : EngSt := { s with lastCmd := 2, why := why }

/-- A message of a group to every member on this device, and to the others (R274). -/
def Dev.groupEmit (kind : Nat) (m : GroupMsg) (d : Dev) : Dev :=
  (d.emit (.group kind m.gid m.devidx m.eng m.k m.ns m.frac m.post m.mask)).tellPeers
    [kind, m.gid, m.devidx, m.eng, m.k, m.ns, m.frac, m.post, m.mask, m.period, m.phase]

/-- The arming group of an engine, its ARM_LEAD, and whether the engine is its master (R51, R273). -/
def Dev.grpOf (d : Dev) (u e : Nat) : Option ArmMember := d.cfg.armGrp (d.engNo u e)

/-- Members of a group on this device. -/
def Dev.members (d : Dev) (gid : Nat) : List (Nat × Nat) :=
  (d.cfg.io.map (fun x => match x.body with
    | .armgrp g _ _ ls => if g = gid then ls.filterMap (fun l => d.engOf l.1) else []
    | _ => [])).flatten

/-- The cadence of a TRIG unit as (period, phase) in 10 ns units. -/
def Dev.unitCad (d : Dev) (u : Nat) : Nat × Nat :=
  let n := (Tbl.getD {} d.units u).cad
  (d.rf R.TIME_CADn_CFG_MULT 0 n * 1000, d.rf R.TIME_CADn_PHASE_PHASE 0 n)

/-- A member takes ARM for cycle k (R273, R274): a mismatch sends it to IDLE. After cycle k it arms at once, and captures from the next token on. The
conditions of its request tile are read at ARM. -/
def Dev.memberArm (u e k post period phase : Nat) (conds : List TrigCond × Nat × Nat) (d : Dev) : Dev :=
  if d.unitCad u ≠ (period, phase) then
    (d.updEng u e (fun s => { s with st := 0, armPend := none, used := if s.st = 1 ∨ s.st = 2 ∨ s.st = 4 then s.used.filter (· ≠ s.slot) else s.used })).raise Ev.ACQ_GRP_MISMATCH 0 []
  else
    let now := (Tbl.getD {} d.units u).cycle
    d.updEng u e (fun s => if s.st = 0 then { s with armPend := some (if k < now then now + 1 else k), conds := conds.1, pre := conds.2.1, post := post } else s)

/-- The 1 KiB of a unit's mapped tile (R13). -/
def Dev.tileBytes (d : Dev) (m : List Host.Cell) (u lidx : Nat) : List Byte :=
  match (Tbl.getD {} d.units u).tiles.find? (fun t => t.lidx = lidx) with
  | some t => memRead m (tileAddr t.ptile) 1024
  | none => zeros 1024

/-- What the request tile holds for an engine (R264). -/
def Dev.engConds (d : Dev) (m : List Host.Cell) (u e : Nat) : List TrigCond × Nat × Nat :=
  Config.decTrig (d.tileBytes m u 2) e

/-- The members of a group take a message on this device (R274, R275). `self` is the sender when it is local. -/
def Dev.groupTake (kind : Nat) (msg : GroupMsg) (m : List Host.Cell) (d : Dev) : Dev :=
  (d.members msg.gid).foldl (fun d ue =>
    let u := ue.1
    let e := ue.2
    if kind = 0 then d.memberArm u e msg.k msg.post msg.period msg.phase (d.engConds m u e)
    else if kind = 2 then
      d.updEng u e (fun s =>
        if s.st = 1 ∨ s.st = 2 ∨ s.st = 4 then { s with st := 0, armPend := none, used := s.used.filter (· ≠ s.slot) }
        else { s with armPend := none })
    else if msg.devidx = d.rf R.ACQ_DEVIDX_IDX ∧ msg.eng = d.engNo u e then d
    else
      let lower := decide (msg.devidx < d.rf R.ACQ_DEVIDX_IDX) ||
        (decide (msg.devidx = d.rf R.ACQ_DEVIDX_IDX) && decide (msg.eng < d.engNo u e))
      d.updEng u e (fun s =>
        if s.st = 1 ∨ (s.st = 2 ∧ (msg.k < s.kT ∨ (msg.k = s.kT ∧ lower))) then
          match s.grpReq with
          | some (k0, _) => if k0 < msg.k ∨ (k0 = msg.k ∧ lower = false) then s else { s with grpReq := some (msg.k, msg.ns, msg.frac, lower) }
          | none => { s with grpReq := some (msg.k, msg.ns, msg.frac, lower) }
        else s)) d

/-- Commands of `UNIT.TG_CMD` (R267): 1 ARM, 2 DISARM, 3 FORCE, 4 RELEASE; others are refused. -/
def Dev.engCmd (u e cmd slot : Nat) (m : List Host.Cell) (d : Dev) : Dev :=
  match d.engCfg u e with
  | none => d
  | some c =>
    let s := d.engSt u e
    let grp := d.grpOf u e
    let member := grp.any (fun g => !g.master)
    let now := (Tbl.getD {} d.units u).cycle
    let ok (f : EngSt → EngSt) (d : Dev) : Dev := d.updEng u e (fun s => { f s with lastCmd := 1, why := 0 })
    let no (why : Nat) : Dev := d.updEng u e (EngSt.refuse why)
    let send (kind : Nat) (g : ArmMember) (d : Dev) : Dev :=
      let pp := d.unitCad u
      let post := (d.engConds m u e).2.2
      let msg : GroupMsg := { gid := g.gid, devidx := d.rf R.ACQ_DEVIDX_IDX, eng := d.engNo u e, k := now + g.lead, post := post, period := pp.1, phase := pp.2 }
      (d.groupEmit kind msg).groupTake kind msg m
    if cmd = 1 then
      if member then no 2
      else if s.st ≠ 0 then no 1
      else
        let q := d.engConds m u e
        let start (st sl : Nat) : Dev :=
          (ok (fun s => { ({ s with conds := q.1, pre := q.2.1, post := q.2.2 } : EngSt).begin st sl with startK := now + 1 }) d).setRim u e (d.engRim u e).begin
        match grp, (if c.cont then some 0 else s.freeSlot c) with
        | _, none => no 3
        | some g, some _ => send 0 g (ok id d)
        | none, some sl => start (if c.cont then 4 else 1) sl
    else if cmd = 2 then
      if member then no 2
      else if s.st ≠ 1 ∧ s.st ≠ 2 ∧ s.st ≠ 4 ∧ s.armPend.isNone then no 1
      else match grp with
      | some g => send 2 g (ok id d)
      | none => ok (fun s => { s with st := 0, used := s.used.filter (· ≠ s.slot) }) d
    else if cmd = 3 then
      if s.st = 1 then ok (fun s => { s with forceReq := true }) d else no 1
    else if cmd = 4 then
      if s.st = 3 ∧ slot = s.slot then ok (fun s => { s with st := 0, used := s.used.filter (· ≠ slot) }) d
      else ok (fun s => { s with used := s.used.filter (· ≠ slot) }) d
    else no 1

def execEngArm (u e : Nat) (s : State) : Res := s.regCmd R.UNIT_TG_CMD u 0 (decide (e < 4)) (Dev.engCmd u e 1 0 s.mem)
def execEngDisarm (u e : Nat) (s : State) : Res := s.regCmd R.UNIT_TG_CMD u 0 (decide (e < 4)) (Dev.engCmd u e 2 0 s.mem)
def execEngForce (u e : Nat) (s : State) : Res := s.regCmd R.UNIT_TG_CMD u 0 (decide (e < 4)) (Dev.engCmd u e 3 0 s.mem)
def execEngRelease (u e slot : Nat) (s : State) : Res :=
  s.regCmd R.UNIT_TG_CMD u 0 (decide (e < 4) && decide (slot < 16)) (Dev.engCmd u e 4 slot s.mem)

/-- GROUP_ARM (R274): a message from another device. -/
def execGroupArm (m : GroupMsg) (s : State) : Res := s.on (Dev.groupTake 0 m s.mem)

/-- GROUP_FIRE (R275). -/
def execGroupFire (m : GroupMsg) (s : State) : Res := s.on (Dev.groupTake 1 m s.mem)

/-- GROUP_DISARM (R274). -/
def execGroupDisarm (m : GroupMsg) (s : State) : Res := s.on (Dev.groupTake 2 m s.mem)

/-- The cycle of one engine of a TRIG unit: its state goes into the cycle's work, a trigger sends FIRE and requests a freeze,
an ended record writes its header; answers what goes to DRAM. -/
def Dev.engEval (u e : Nat) (c : EngCfg) (env : EngEnv) (dm : Dev × List (Nat × List Byte)) : Dev × List (Nat × List Byte) :=
  let d := dm.1
  let x := Tbl.getD {} d.units u
  let o := engCycle env c (Tbl.getD {} x.work.engs e) (d.engRim u e)
  let w : UnitSem := { x.work with engs := Tbl.put e o.st x.work.engs }
  let x' : UnitSt := { x with work := w }
  let d : Dev := { d with units := Tbl.put u x' d.units }
  let d := d.setRim u e o.rim
  let d := if o.trig && c.freeze then d.freezeReq (0x10000 + d.engNo u e) else d
  let grp := (d.grpOf u e).map (·.gid)
  let d := match grp with
    | some g =>
      if o.fired then
        let msg : GroupMsg := { gid := g, devidx := d.rf R.ACQ_DEVIDX_IDX, eng := d.engNo u e, k := o.st.kT, ns := o.st.trigNs,
                                frac := o.st.trigFrac, mask := o.st.mask, post := o.st.post }
        (d.groupEmit 1 msg).groupTake 1 msg []
      else d
    | none => d
  let again := o.again.map (fun b => (c.blockAt b.slot b.pos, b.bytes (d.engNo u e)))
  (d, dm.2 ++ again ++ (if o.done then [(c.slotAt o.st.slot, recHeader c grp (d.engNo u e) (d.rf R.ACQ_DEVIDX_IDX) o.st o.rim)] else []))

/-- ACQ_BLOCK_WRITTEN (R265, R269): the oldest queued block goes to DRAM. -/
def execAcqBlockWritten (u e : Nat) (s : State) : Res :=
  if s.dev.engOk u e then
    s.onMem (fun d m =>
      match d.engCfg u e, (d.engRim u e).queue with
      | some c, b :: t =>
        let r := (({ d.engRim u e with queue := t } : EngRim)).watch d.time.cnt
        (d.setRim u e r, memPut (c.blockAt b.slot b.pos) (b.bytes (d.engNo u e)) m)
      | _, _ => (d, m))
  else .refused .badOperand

/-- Engines after a resume (R277): rows of the lost cycles are missing; an armed engine's conditions start anew. -/
def EngSt.resume (s : EngSt) : EngSt :=
  if s.st = 1 ∨ s.st = 4 then { s with lows := List.replicate 4 false, prevRow := none, startK := 0, gapOpen := true }
  else if s.st = 2 then { s with prevRow := none, gapOpen := true } else s

/-! ### History rings and their stream (R278 to R281, R350, R351) -/

/-- The ring lengths of the Last (R51). -/
def Dev.ringLen (d : Dev) (r : Nat) : Nat :=
  d.cfg.io.foldl (fun a e => match e.body with
    | .global _ _ _ _ _ _ _ ls _ _ => nth 0 ls r
    | _ => a) 0

/-- Signals of a ring. -/
def Dev.ringSigs (d : Dev) (r : Nat) : List SigRec := d.cfg.sigs.filter (fun s => s.history && s.ring = r)

def Dev.ring (d : Dev) (r : Nat) : RingSt := Tbl.getD {} d.rings r

/-- The largest unsent span of any ring (R283). -/
def Dev.histLag (d : Dev) : Dev :=
  d.wf R.ACQ_HIST_STAT_LAG (min 65535 (d.rings.foldl (fun a r => max a (match r.2.slices.getLast? with
    | some s => s.ms + 1 - r.2.sendFrom
    | none => 0)) 0))

/-- A freeze copy in progress takes the slices of its span as they are written (R281). -/
def Dev.frzTake (r : Nat) (x : SliceRec) (d : Dev) : Dev :=
  match d.frz.copy with
  | some (i, mf) =>
    if mf - d.frzSpan.1 ≤ x.ms ∧ x.ms ≤ mf + d.frzSpan.2 then
      { d with snaps := Tbl.upd {} i (fun s => { s with slices := s.slices ++ [(r, x)] }) d.snaps }
    else d
  | none => d

/-- A sample of a signal enters its present interval (R278). -/
def HistSig.add (v : SigVal) (h : HistSig) : HistSig :=
  let x := sW v.val
  let h := { h with cnt := h.cnt + 1, st := h.st ||| v.st.toNat, last := v }
  if v.valid then
    { h with n := h.n + 1, mn := if h.n = 0 ∨ x < h.mn then x else h.mn, mx := if h.n = 0 ∨ h.mx < x then x else h.mx, sum := h.sum + x }
  else h

/-- The summary of the present interval (R278): of its valid samples; without a sample the latest one again. MIN, MAX and MEAN of an interval
whose samples are all invalid are not stated: free values (log entry 107). -/
def Dev.histEntry (h : HistSig) (d : Dev) : HistEntry × Dev :=
  if h.cnt = 0 then ({ mn := h.last.val, mx := h.last.val, mean := h.last.val, st := h.last.st.toNat, count := 0 }, d)
  else if h.n = 0 then
    let a := d.fresh 32
    let b := a.2.fresh 32
    let c := b.2.fresh 32
    ({ mn := BitVec.ofNat 32 a.1, mx := BitVec.ofNat 32 b.1, mean := BitVec.ofNat 32 c.1, st := h.st % 128, count := 0 }, c.2)
  else ({ mn := wS h.mn, mx := wS h.mx, mean := wS (roundDiv h.sum h.n), st := 128 + h.st % 128, count := min 255 h.n }, d)

/-- The summaries of `left` intervals are emitted, and the interval after them begins. -/
def Dev.histEmit : Nat → HistSig → Dev → HistSig × Dev
  | 0, h, d => (h, d)
  | left + 1, h, d =>
    let e := d.histEntry h
    let out := if h.start ≤ h.ms then h.out ++ [(h.ms, e.1)] else h.out
    Dev.histEmit left { h with ms := h.ms + 1, cnt := 0, n := 0, mn := 0, mx := 0, sum := 0, st := 0, out := out } e.2

/-- A sample of a history signal whose boundary value is `ns` in a cadence of this period; `first` since the fabric started (R278). An interval in
which a boundary fell before the first one is not whole. -/
def Dev.histTake (sig ns period : Nat) (first : Bool) (d : Dev) : Dev :=
  let m := ns / 1000000
  let old : HistSig := (Tbl.get? d.hsig sig).getD { start := if ns % 1000000 < period then m else m + 1, ms := m }
  let h : HistSig := if first then { start := if ns % 1000000 < period then m else m + 1, ms := m, out := old.out } else old
  let r := d.histEmit (m - h.ms) h
  { r.2 with hsig := Tbl.put sig (r.1.add (r.2.sig sig)) r.2.hsig }

/-- The summaries up to an interval whose slice has been written are done with. -/
def HistSig.written (ms : Nat) (h : HistSig) : HistSig := { h with out := h.out.filter (fun e => decide (ms < e.1)) }

/-- No fabric runs whose samples could fill a slice: the Last does not run, or a core reset is on. -/
def Dev.histDark (d : Dev) : Bool := !d.running || d.rst.dark

/-- The interval of a ring's next slice: the one after the last slice; the first that is whole for every signal of the ring. -/
def Dev.sliceNext (r : Nat) (d : Dev) : Nat :=
  match (d.ring r).slices.getLast? with
  | some s => s.ms + 1
  | none => if d.histDark then d.viewNs 0 / 1000000 - 1
            else (d.ringSigs r).foldl (fun a s => max a (match Tbl.get? d.hsig s.id with | some (h : HistSig) => h.start | none => 0)) 0

/-- HISTORY_SLICE_WRITE (R279): the slice of interval `ms`, the next of a ring, once it has an entry for every signal; a NODATA slice where the
interval has passed while the fabric did not run. -/
def Dev.sliceWrite (r ms : Nat) (d : Dev) : Dev :=
  let sigs := d.ringSigs r
  let len := d.ringLen r
  if len = 0 ∨ ms ≠ d.sliceNext r then d
  else
    let x := d.ring r
    let zero : HistEntry := { mn := 0, mx := 0, mean := 0, st := 0, count := 0 }
    let found := sigs.filterMap (fun s => (Tbl.get? d.hsig s.id).bind (fun h => (h.out.find? (fun e => decide (e.1 = ms))).map Prod.snd))
    let lost := decide (ms + 1 ≤ d.viewNs 0 / 1000000) &&
      (d.histDark || sigs.any (fun s => (Tbl.get? d.hsig s.id).any (fun h => decide (ms < h.start) && !h.out.any (fun e => decide (e.1 = ms)))))
    let sl : Option SliceRec :=
      if found.length = sigs.length then some { ms := ms, flags := 0, entries := found }
      else if lost then some { ms := ms, flags := 1, entries := List.replicate sigs.length zero } else none
    match sl with
    | none => d
    | some sl =>
      let all := x.slices ++ [sl]
      let kept := all.drop (all.length - len)
      let oldest := match kept with | s :: _ => s.ms | [] => ms
      let from_ := if x.slices.isEmpty then ms else x.sendFrom
      let skip := decide (from_ < oldest)
      let y : RingSt := { slices := kept, sendFrom := if skip then oldest else from_,
                          skipped := if skip then some (x.skipped.getD from_) else x.skipped }
      let done (i : Nat) (h : HistSig) : HistSig := if sigs.any (fun s => decide (s.id = i)) then h.written ms else h
      let d : Dev := { d with rings := Tbl.put r y d.rings, hsig := Tbl.mapVals done d.hsig }
      let d := if skip && x.skipped.isNone then (d.bump R.ACQ_HIST_STAT_GAPS 1).wb R.ACQ_STAT_HISTGAP true else d
      (d.frzTake r sl).histLag

def execHistorySliceWrite (ring ms : Nat) (s : State) : Res :=
  s.guarded (decide (ring < 8)) (Dev.sliceWrite ring ms)

/-- Bytes of a slice (R279); the header's items follow one another in the order the rule names them (log entry 22). -/
def SliceRec.bytes (ring : Nat) (x : SliceRec) : List Byte :=
  let head := leBytes 8 x.ms ++ leBytes 2 x.entries.length ++ leBytes 2 x.flags ++ [BitVec.ofNat 8 ring]
  let body := (x.entries.map (fun e => wordBytes e.mn ++ wordBytes e.mx ++ wordBytes e.mean ++
    [BitVec.ofNat 8 e.st, BitVec.ofNat 8 e.count] ++ zeros 2)).flatten
  head ++ leBytes 4 (crc32c (head ++ zeros 51 ++ body)) ++ zeros 47 ++ body

/-- Historians of the Last. -/
def Dev.nHist (d : Dev) : Nat :=
  d.cfg.io.foldl (fun a e => match e.body with | .global _ _ _ n _ _ _ _ _ _ => n | _ => a) 0

/-- One datagram to every historian (R351). -/
def Dev.datagram (kind src obj frag frags gapn : Nat) (body : List Byte) (d : Dev) : Dev :=
  let key := 256 * kind + src
  let head := leBytes 4 0x4853544D ++ [1, BitVec.ofNat 8 kind, BitVec.ofNat 8 (d.rf R.ACQ_DEVIDX_IDX), BitVec.ofNat 8 src]
    ++ leBytes 4 (Tbl.getD 0 d.dseqs key) ++ leBytes 8 obj ++ leBytes 2 frag ++ leBytes 2 frags ++ leBytes 2 body.length
    ++ leBytes 2 (min gapn 65535)
  let bs := head ++ leBytes 4 (crc32c (head ++ zeros 4 ++ body)) ++ body
  let d := { d with dseqs := Tbl.upd 0 key (fun n => (n + 1) % 2 ^ 32) d.dseqs }
  ((List.range d.nHist).foldl (fun d h => d.emit (.history h bs)) d).histSend bs

/-- An object in fragments of F bytes, F from the MTU of port 0 (R351). -/
def Dev.fragments (kind src obj : Nat) (bs : List Byte) (d : Dev) : Dev :=
  let f := max 64 ((d.rf R.ETH_MTU_MTU 0 - 60) / 64 * 64)
  let n := max 1 (ceilDiv bs.length f)
  (List.range n).foldl (fun d i => d.datagram kind src obj i n 0 ((bs.drop (i * f)).take f)) d

/-- HISTORY_STREAM_SEND (R280, R351): the next slice of ring `n` or its GAP datagram, or the next block of device engine `n`. -/
def Dev.streamSend (block : Bool) (n : Nat) (d : Dev) : Dev :=
  if block then
    match d.engOf n with
    | none => d
    | some (u, e) =>
      let r := d.engRim u e
      match r.stream with
      | [] => d
      | b :: t => (d.setRim u e ((({ r with stream := t } : EngRim)).watch d.time.cnt)).fragments 2 n b.k0 (b.bytes n)
  else
    let x := d.ring n
    match x.skipped with
    | some m0 => (({ d with rings := Tbl.put n { x with skipped := none } d.rings }).datagram 3 n m0 0 1 (x.sendFrom - m0) [])
    | none =>
      match x.slices.find? (fun s => x.sendFrom ≤ s.ms) with
      | none => d
      | some s =>
        (({ d with rings := Tbl.put n { x with sendFrom := s.ms + 1 } d.rings }).fragments 1 n s.ms (s.bytes n)).histLag

def execHistoryStreamSend (block : Bool) (n : Nat) (s : State) : Res :=
  s.guarded (decide (n < if block then 128 else 8)) (Dev.streamSend block n)

/-- FREEZE (R281): a request, with its cause. -/
def execFreeze (cause : Nat) (s : State) : Res := s.on (Dev.freezeReq cause)

/-- Every slice of the span of the copy in progress has been written (R281). -/
def Dev.frzWhole (d : Dev) : Bool :=
  match d.frz.copy with
  | none => false
  | some (_, mf) => (List.range 8).all (fun r => decide (d.ringLen r = 0) ||
      ((d.ring r).slices.getLast?).any (fun s => decide (mf + d.frzSpan.2 ≤ s.ms)))

/-- FREEZE_COPY_END (R281): the copy ends after the last slice of its span; the next queued request starts. -/
def execFreezeCopyEnd (s : State) : Res := s.on (Dev.when_ s.dev.frzWhole (Dev.frzEnd false))

end Sys2Proof.Machine
end

