-- ==== Sys2Proof/Machine/Adc.lean ====
section
/-!
DEFINITION. The converters (R222 to R246): windows, averaging, validity, calibration, the check converter, pairs.
-/
namespace Sys2Proof.Machine

/-! ### Reading the settings -/

def Dev.bank (d : Dev) (k : Nat) : AdcBank := Tbl.getD {} d.adc k
def Dev.setBank (k : Nat) (b : AdcBank) (d : Dev) : Dev := { d with adc := Tbl.put k b d.adc }
def Dev.adcCh (d : Dev) (k n : Nat) : AdcCh := Tbl.getD {} (d.bank k).chs n
def Dev.setCh (k n : Nat) (c : AdcCh) (d : Dev) : Dev :=
  d.setBank k { d.bank k with chs := Tbl.put n c (d.bank k).chs }

/-- A bank and channel that the variant has. -/
def Dev.adcOk (d : Dev) (k n : Nat) : Bool := decide (k < d.nBanks) && decide (n < 16)

/-- A channel delivers results: bank and channel enabled (R222). -/
def Dev.chOn (d : Dev) (k n : Nat) : Bool := d.flag R.ADC_CTRL_EN k && d.flag R.ADC_CHn_CTL_EN k n

/-- Enabled channels of a bank, ascending. -/
def Dev.chsOn (d : Dev) (k : Nat) : List Nat := (List.range 16).filter (fun n => d.chOn k n)

/-- The pair a channel is in, as (pair, other channel) (R243). -/
def Dev.pairOf (d : Dev) (k n : Nat) : Option (Nat × Nat) :=
  ((List.range 8).find? (fun p => d.flag R.ADC_PAIRp_EN k p &&
      (d.rf R.ADC_PAIRp_CHA k p = n || d.rf R.ADC_PAIRp_CHB k p = n))).map
    (fun p => (p, if d.rf R.ADC_PAIRp_CHA k p = n then d.rf R.ADC_PAIRp_CHB k p else d.rf R.ADC_PAIRp_CHA k p))

/-- A converter has a valid record for a range (R238); converter 16 is the check converter. -/
def Dev.calOk (d : Dev) (k conv r : Nat) : Bool := d.flag R.ADC_CAL_REC_VALID k conv r

/-- R236: the calibrated result of a raw result in 2^-8 codes. -/
def Dev.calibrated (d : Dev) (k conv r : Nat) (raw : Int) : Int :=
  let off := toS 24 (d.rf R.ADC_CAL_OFF_OFF k conv r)
  let g : Int := d.rf R.ADC_CAL_GAIN_G k conv r
  clampI (-(2 ^ 23)) (2 ^ 23 - 1) (roundDiv (g * (raw - off * 256)) (2 ^ 30))

/-- STALE_CAL (R239). -/
def Dev.calStale (d : Dev) (k conv r : Nat) (m : AdcMeas) : Bool :=
  let tj := toS 10 (d.rf R.ADC_CAL_REC_TJ k conv r)
  let pa := d.rf R.ADC_CAL_REC_PA k conv r
  decide (32 < (m.tj - tj).natAbs) || decide (pa < 4 * ((m.pa : Int) - pa).natAbs)

/-- Windows averaged (R230). -/
def AdcCh.n (c : AdcCh) : Nat := 2 ^ c.avg

/-- The end of the invalidity cannot be counted (R228, R233, R237, R238, R497). -/
def Dev.adcEndless (d : Dev) (k n conv : Nat) (c : AdcCh) : Bool :=
  (d.bank k).cal || (d.rf R.ADC_CHn_CTL_MODE k n = 2 && !d.mains.lock) || !d.calOk k conv c.range
    || !d.flag R.PWR_SUPPLY_VDDA_OK

/-! ### Window changes (R234, R235) -/

/-- The settings of `CHn_CTL` come into force. -/
def Dev.chForce (d : Dev) (k n : Nat) (c : AdcCh) : AdcCh :=
  { c with range := d.rf R.ADC_CHn_CTL_RANGE k n, avg := d.rf R.ADC_CHn_CTL_AVG k n,
           nm := d.rf R.ADC_CHn_CTL_NMAINS k n, pend := false, pendInv := 0, pendNo := 0 }

/-- The tick at which a channel's windows begin when it has none: at once in FREE mode and, without mains lock, in MAINS mode; at the next
boundary, edge or trigger otherwise (R226, R228). -/
def Dev.chOpens (d : Dev) (k n : Nat) : Option Nat :=
  match d.rf R.ADC_CHn_CTL_MODE k n with
  | 1 => some d.time.cnt
  | 2 => if d.mains.lock then none else some d.time.cnt
  | _ => none

/-- `CHn_STAT.NOCAL` follows the records and the range in force (R238, R246). -/
def Dev.nocalShow (k n : Nat) (d : Dev) : Dev :=
  if decide (n < 16) && d.chOn k n then d.wf R.ADC_CHn_STAT_NOCAL (b2n (!d.calOk k n (d.adcCh k n).range)) k n else d

/-- A channel (re)starts its windows: two invalid windows, the average empty (R234 row EN 0 → 1). -/
def Dev.chRestart (k n : Nat) (d : Dev) : Dev :=
  let c := d.chForce k n (d.adcCh k n)
  let d := d.setCh k n { c with opened := d.chOpens k n, edges := 0, settle := 2, skip := 2, wins := [], shut := [], pairRes := none,
                                noBefore := d.time.cnt + 2 * d.rf R.ADC_CHn_WLEN_WLEN k n * 20 }
  d.nocalShow k n

/-! ### Rolling calibration and visits (R240 to R242) -/

/-- The next channel of a pass begins its roll, or the pass ends; while the service cores are down the pass waits (R244). Channels no longer enabled are passed over. A channel whose range the
check converter has no valid record for waits for its calibration (R241); where that has failed in this pass, the channel is passed over. -/
def Dev.passNext (k : Nat) (d : Dev) : Dev :=
  let b := d.bank k
  let able (n : Nat) : Bool := d.chOn k n && !(b.chkTried && !d.calOk k 16 (d.adcCh k n).range)
  if !d.rst.coresUp then d
  else if b.chkFirst then d.wf R.ADC_CAL_STAT_CH 16 k
  else match b.pass.map (fun l => l.dropWhile (fun n => !able n)) with
    | none => d
    | some [] => (d.setBank k { b with pass := none, roll := none, passEnd := d.time.cnt }).wf R.ADC_CAL_STAT_STATE 0 k
    | some (n :: t) =>
      if d.calOk k 16 (d.adcCh k n).range then
        (d.setBank k { b with pass := some t, roll := some { ch := n, phase := 0, left := 2 }, visit := none, taken := n :: b.taken }).wf
          R.ADC_CAL_STAT_CH n k
      else (d.setBank k { b with pass := some (n :: t), chkFirst := true, roll := none, visit := none }).wf R.ADC_CAL_STAT_CH 16 k

/-- A rolling pass over channels starts; the check converter first where it has no valid record for one of their ranges
or is named itself. -/
def Dev.passStart (k : Nat) (chs : List Nat) (chk : Bool) (d : Dev) : Dev :=
  let need := chk || chs.any (fun n => !d.calOk k 16 (d.adcCh k n).range)
  let d := d.setBank k { d.bank k with pass := some chs, chkFirst := need, chkTried := false, roll := none, visit := none, stale := false, taken := [] }
  (d.wf R.ADC_CAL_STAT_STATE 2 k).passNext k

/-- The present channel's roll ends. -/
def Dev.rollEnd (k n : Nat) (d : Dev) : Dev :=
  let b := d.bank k
  let retry := match b.roll with | some r => r.abandoned | none => false
  let d := d.setBank k { b with roll := none, pass := b.pass.map (fun t => if retry then t ++ [n] else t) }
  (((d.wf R.ADC_CHn_STAT_SUBST 0 k n).wf R.ADC_CHK_STAT_SUBST 0 k).passNext k)

/-- R241: a window close of the channel under its roll. -/
def Dev.rollStep (k n : Nat) (d : Dev) : Dev :=
  let b := d.bank k
  match b.roll with
  | none => d
  | some r =>
    if r.ch ≠ n then d
    else if r.phase = 0 then
      (d.setBank k { b with roll := some { r with phase := 1, left := 2 } }).wf R.ADC_CHK_STAT_VISIT n k
    else if r.phase = 1 then
      if r.left ≤ 1 then
        if d.calOk k 16 (d.adcCh k n).range then
          (((d.setBank k { b with roll := some { r with phase := 2, left := 0 } }).wf R.ADC_CHn_STAT_SUBST 1 k n).wf
            R.ADC_CHK_STAT_SUBST 1 k)
        else (d.setBank k { b with roll := some { r with abandoned := true } }).rollEnd k n
      else d.setBank k { b with roll := some { r with left := r.left - 1 } }
    else if r.phase = 2 then
      if r.calEnded || r.abandoned then d.setBank k { b with roll := some { r with phase := 3, left := 2 } } else d
    else if r.left ≤ 1 then d.rollEnd k n
    else d.setBank k { b with roll := some { r with left := r.left - 1 } }

/-- A channel stops: its sample word reads zero (R222); a visit or a roll of it ends. -/
def Dev.chStop (k n : Nat) (d : Dev) : Dev :=
  let d := d.setCh k n { d.adcCh k n with opened := none, wins := [], settle := 0, skip := 0, pend := false, shut := [],
                                          waits := false, pairRes := none }
  let d := { (d.wf R.ADC_CHn_LAST 0 k n) with rimIn := Tbl.del (16 * k + n) d.rimIn }
  let d := (d.wf R.ADC_CHn_STAT_VALID 0 k n).wf R.ADC_CHn_STAT_STALE 0 k n
  let d := (d.wf R.ADC_CHn_STAT_CHKMM 0 k n).wf R.ADC_CHn_STAT_SETTLE 0 k n
  let b := d.bank k
  let d := if b.visit.any (fun v => decide (v.ch = n)) then d.setBank k { b with visit := none } else d
  if b.roll.any (fun r => decide (r.ch = n)) then d.rollEnd k n else d

/-- Disabling a bank stops all its activity; factors and records stay (R244). -/
def Dev.bankDisable (k : Nat) (d : Dev) : Dev :=
  let d := (List.range 16).foldl (fun d n => d.chStop k n) d
  let b := d.bank k
  let d := d.setBank k { b with pass := none, roll := none, visit := none, cal := false, chkFirst := false, again := [],
                                passEnd := if b.pass.isSome then d.time.cnt else b.passEnd }
  let d := (d.wf R.ADC_CAL_STAT_STATE 0 k).wf R.ADC_CHK_STAT_SUBST 0 k
  (List.range 16).foldl (fun d n => d.wf R.ADC_CHn_STAT_SUBST 0 k n) d

/-- Enabling a bank restarts every enabled channel (R231, R234). -/
def Dev.bankEnable (k : Nat) (d : Dev) : Dev :=
  (d.chsOn k).foldl (fun d n => (d.chRestart k n).wf R.ADC_CHn_WCNT 0 k n) d

/-- The next channel that the check converter visits: enabled, in no pair, range with a valid record; ascending after the
last one, then the inconclusive ones again (R240). Its windows are those that open from tick `t` on. -/
def Dev.visitNext (k t : Nat) (d : Dev) : Dev :=
  let b := d.bank k
  let win := d.rf R.ADC_CHK_CFG_CHKWIN k
  let idle := b.pass.isNone && b.roll.isNone && b.visit.isNone && !b.cal
  let shed := decide (2 ≤ d.rf R.PWR_STAT_SHED)
  if win = 0 || !idle || shed then d
  else
    let cand := (d.chsOn k).filter (fun n => (d.pairOf k n).isNone && d.calOk k n (d.adcCh k n).range)
    let again := b.again.filter cand.contains
    let pick := match cand.find? (fun n => b.after ≤ n) with
      | some n => some (n, n + 1, again)
      | none => match again with
        | n :: t => some (n, 16, t)
        | [] => match cand with
          | n :: _ => some (n, n + 1, [])
          | [] => none
    match pick with
    | none => d
    | some (n, aft, again) =>
      (d.setBank k { b with visit := some { ch := n, settle := 2, left := win, start := t, seen := t }, after := aft, again := again }).wf
        R.ADC_CHK_STAT_VISIT n k

/-- The verdict of a visit (R240). -/
def Dev.visitEnd (k : Nat) (v : VisitSt) (d : Dev) : Dev :=
  let b := d.bank k
  let win := d.rf R.ADC_CHK_CFG_CHKWIN k
  let d := d.setBank k { b with visit := none, again := if v.bad then b.again ++ [v.ch] else b.again }
  if v.bad then d
  else if d.rf R.ADC_CHK_CFG_CHK_TOL k * win < v.sum.natAbs then
    let d := d.setCh k v.ch { d.adcCh k v.ch with mism := true }
    (d.wf R.ADC_CHK_STAT_MISMATCH (setBits (d.rf R.ADC_CHK_STAT_MISMATCH k) v.ch 1 1) k).raise Ev.ADC_CHK_MISMATCH k
      [BitVec.ofNat 8 v.ch]
  else
    let d := d.setCh k v.ch { d.adcCh k v.ch with mism := false }
    d.wf R.ADC_CHK_STAT_MISMATCH (setBits (d.rf R.ADC_CHK_STAT_MISMATCH k) v.ch 1 0) k

/-- A window of the visited channel (R240): `res` its unaveraged result if valid and without OVR, the check converter's. One that opened before the
visit is none of its windows. -/
def Dev.visitStep (k n : Nat) (w : ShutWin) (res : Option Int) (chk : Int) (chkOvr : Bool) (d : Dev) : Dev :=
  let r := w.range
  match (d.bank k).visit with
  | none => d.visitNext k w.t1
  | some v =>
    if v.ch ≠ n || decide (w.t0 < v.start) then d
    else
    let v := { v with seen := w.t1 }
    if v.settle ≠ 0 then d.setBank k { d.bank k with visit := some { v with settle := v.settle - 1 } }
    else
      let v := match res with
        | some x =>
          if chkOvr || !d.calOk k 16 r then { v with bad := true }
          else { v with sum := v.sum + (d.calibrated k 16 r chk - x) }
        | none => { v with bad := true }
      let v := { v with left := v.left - 1 }
      if v.left = 0 then (d.visitEnd k v).visitNext k w.t1
      else d.setBank k { d.bank k with visit := some v }

/-- The tick after which a window must have closed for a unit to see it as NEW: the previous boundary of its cadence (R229); for an
event-driven unit, which has none, its previous hand-over (log entry 94). -/
def Dev.newSince (d : Dev) (x : UnitSt) : Nat := if x.event then x.tokPrev else (Tbl.getD {} d.time.cads x.cad).ptick

/-- The word and side word of a channel as a unit reads them (R229). -/
def Dev.rimWord (d : Dev) (x : UnitSt) (i : Nat) : Nat × Nat :=
  let w := Tbl.getD (0, 0) d.rimIn i
  (w.1, setBits w.2 2 1 (b2n (decide (d.newSince x < (d.adcCh (i / 16) (i % 16)).shutAt))))

/-- A channel's word is still on its way to the rim. -/
def AdcCh.inFlight (c : AdcCh) : Bool := c.waits || !c.shut.isEmpty

/-! ### A window close (R223, R230, R233, R239, R243) -/

/-- The sample word of R223. -/
def sampleWord (res : Int) (valid : Bool) (flags settle : Nat) : Nat :=
  ofS 24 res * 256 + b2n valid * 128 + flags * 16 + min settle 15

/-- Deliver a sample word: `CHn_LAST`, the status bits and the window count. -/
def Dev.deliver (k n : Nat) (w side : Nat) (ovr : Bool) (d : Dev) : Dev :=
  let d := (d.wf R.ADC_CHn_LAST w k n).wf R.ADC_CHn_STAT_VALID (bitsOf w 7 1) k n
  let d := (d.wf R.ADC_CHn_STAT_STALE (bitsOf w 5 1) k n).wf R.ADC_CHn_STAT_CHKMM (bitsOf w 4 1) k n
  let d := d.wf R.ADC_CHn_STAT_SETTLE (bitsOf w 0 4) k n
  let d := if ovr then (d.wf R.ADC_CHn_STAT_OVR 1 k n).wf R.ADC_STAT_OVR 1 k else d
  let d := d.nocalShow k n
  d.setCh k n { d.adcCh k n with side := side, waits := true }

/-- A change that waited comes into force at a close (R234, R235): the larger count of invalid samples goes on; a new range or average
restarts the average, after the last window that has closed. -/
def Dev.chClose (k n : Nat) (d : Dev) : Dev :=
  let c := d.adcCh k n
  if c.pend then
    let c' := d.chForce k n c
    let settle := max c.settle c.pendInv
    let re := decide (c'.range ≠ c.range) || decide (c'.avg ≠ c.avg)
    let last := c.shut.getLast?.toList.map (fun x => { x with clear := x.clear || re })
    (d.setCh k n { c' with settle := settle, noBefore := max c.noBefore c.pendNo, wins := if re && c.shut.isEmpty then [] else c.wins,
                           skip := if c'.range = c.range then c.skip else max c.skip (min 2 settle), shut := c.shut.dropLast ++ last }).nocalShow k n
  else d

/-- The pair comparison at the close of tick `t`, when the second of its two words is delivered (R243). -/
def Dev.pairStep (k n t : Nat) (res : Option Int) (d : Dev) : Dev :=
  match d.pairOf k n with
  | none => d
  | some (p, o) =>
    let c := d.adcCh k n
    let co := d.adcCh k o
    match res, (co.pairRes.filter (fun e => decide (e.1 = t))).map Prod.snd with
    | some x, some y =>
      let bad := decide (16 * d.rf R.ADC_PAIRp_PAIR_TOL k p < (x - y).natAbs)
      let d := (d.setCh k n { c with pairRes := none, pairBad := bad }).setCh k o { co with pairRes := none, pairBad := bad }
      if bad then
        let mark (d : Dev) (i : Nat) : Dev :=
          let c := d.adcCh k i
          let w := setBits (d.rf R.ADC_CHn_LAST k i) 4 1 1
          let d := d.setCh k i { c with wins := match c.wins with | some (x, f) :: t => some (x, f ||| 1) :: t | l => l }
          let d := if c.waits then d else { d with rimIn := Tbl.put (16 * k + i) (w, c.side) d.rimIn }
          (d.wf R.ADC_CHn_LAST w k i).wf R.ADC_CHn_STAT_CHKMM 1 k i
        let d := mark (mark d n) o
        if c.pairBad then d else d.raise Ev.ADC_PAIR_MISMATCH k [BitVec.ofNat 8 (min n o), BitVec.ofNat 8 (max n o)]
      else d
    | r, _ => d.setCh k n { c with pairRes := r.map (fun x => (t, x)) }

/-- A rolling pass that STALE_CAL starts (R242, AUTOCAL 1 and 3); a channel that becomes stale while it runs is taken too. The scheduler runs on the
service cores. -/
def Dev.autoStale (k : Nat) (m : AdcMeas) (d : Dev) : Dev :=
  let a := d.rf R.ADC_BANK_CFG_AUTOCAL k
  let b := d.bank k
  let chs := (d.chsOn k).filter (fun n => d.flag R.ADC_CHn_STAT_STALE k n)
  if !(a = 1 || a = 3) || b.cal || chs.isEmpty || !d.rst.coresUp then d
  else match b.pass with
    | none =>
      let d := d.passStart k chs (chs.any (fun n => d.calStale k 16 (d.adcCh k n).range m))
      d.setBank k { d.bank k with stale := true }
    | some l =>
      if b.stale then d.setBank k { b with pass := some ((List.range 16).filter (fun n => l.contains n || (chs.contains n && !b.taken.contains n))) } else d

/-- The channel's window closes at tick `t`, and the next one opens at `next` (R226, R230, R233): what its word will show is settled
now; the change that waited for the close comes into force. -/
def Dev.chShut (k n t : Nat) (next : Option Nat) (d : Dev) : Dev :=
  let c := d.adcCh k n
  match c.opened with
  | none => d.setCh k n { c with opened := next, edges := 0 }
  | some t0 =>
    let b := d.bank k
    let subst := match b.roll with | some r => decide (r.ch = n) && decide (2 ≤ r.phase) | none => false
    let conv := if subst then 16 else n
    let trig := decide (d.rf R.ADC_CHn_CTL_MODE k n = 3)
    let early := trig && decide (t0 < c.noBefore)
    let cnt := d.rf R.ADC_CHn_WCNT k n + 1
    let w : ShutWin := { t0 := t0, t1 := t, range := c.range, conv := conv, n := c.n, settle := if trig then b2n early else c.settle,
                         endless := d.adcEndless k n conv c, measured := !b.cal && d.flag R.PWR_SUPPLY_VDDA_OK,
                         skip := early || (!trig && decide (c.skip ≠ 0)), clear := false, cnt := cnt }
    let d := (d.setCh k n { c with opened := next, edges := 0, settle := c.settle - 1, skip := c.skip - 1, shut := c.shut ++ [w] }).wf
      R.ADC_CHn_WCNT cnt k n
    (if b.pass.isSome then d.rollStep k n else d).chClose k n

/-- The uncalibrated result of a window in 2^-8 codes (R224): c ticks to a modulator clock, residues in 2^-24 packets. How it is held to
2^-8 of a code is not said; it is rounded to nearest (log entry 83). -/
def adcRaw (q rho0 rho1 : Int) (c n : Nat) : Int := roundDiv ((q * 2 ^ 24 + rho1 - rho0) * c * 2 ^ 7) (max 1 n)

/-- Ticks to a modulator clock (R224, R231). -/
def Dev.modTicks (d : Dev) (k : Nat) : Nat := if d.flag R.ADC_BANK_CFG_LP k then 80 else 20

/-- The word of the oldest window that has closed is delivered (R223, R224, R230, R233, R239, R240, R243). -/
def Dev.windowDeliver (k n : Nat) (m : AdcMeas) (d : Dev) : Dev :=
  let c := d.adcCh k n
  match c.shut with
  | [] => d
  | w :: rest =>
    let b := d.bank k
    let tk := d.modTicks k
    let own := adcRaw m.q m.rho0 m.rho1 tk (w.t1 - w.t0)
    let chk := adcRaw m.chkQ m.chkRho0 m.chkRho1 tk (w.t1 - w.t0)
    let subst := decide (w.conv = 16)
    let res := if w.measured then d.calibrated k w.conv w.range (if subst then chk else own) else 0
    let ovr := w.measured && (if subst then m.chkOvr else m.ovr)
    let valid := decide (w.settle = 0) && !w.endless
    let stale := d.calOk k w.conv w.range && d.calStale k w.conv w.range m
    let fl := b2n ovr * 4 + b2n stale * 2 + b2n c.mism
    let wins := ((if w.skip || w.endless then none else some (res, fl)) :: c.wins).take w.n
    let got := wins.filterMap id
    let mean := if valid && !got.isEmpty then roundDiv ((got.map Prod.fst).foldl (· + ·) 0) got.length else res
    let flAll := if valid then (got.map Prod.snd).foldl (· ||| ·) 0 else fl
    let word := sampleWord mean valid flAll (if w.endless then 15 else w.settle)
    let d := d.setCh k n { c with wins := if w.clear then [] else wins, shut := rest, shutAt := w.t1 }
    let d := d.deliver k n word (w.range + w.cnt % 2 ^ 24 * 256) ovr
    let plain := if valid then some res else none
    let d := d.pairStep k n w.t1 plain
    let d := if b.pass.isNone then d.visitStep k n w (if ovr then none else plain) chk m.chkOvr else d
    d.autoStale k m

/-- The tick at which the window in progress closes by its length (R226, R228): FREE and TRIGGERED after WLEN × 40 ns, MAINS without lock after the
last accepted period; aligned windows and those of a locked mains end at a boundary or an edge. -/
def Dev.windowEnd (d : Dev) (k n : Nat) : Option Nat :=
  let len := d.rf R.ADC_CHn_WLEN_WLEN k n * 20
  match d.rf R.ADC_CHn_CTL_MODE k n with
  | 1 => (d.adcCh k n).opened.map (· + len)
  | 3 => (d.adcCh k n).opened.map (· + len)
  | 2 => if d.mains.lock || decide (d.mains.period = 0) then none else (d.adcCh k n).opened.map (· + d.mains.period)
  | _ => none

/-- A window whose length is over closes; the next one follows it back to back except after a trigger. -/
def Dev.windowDue (k n : Nat) (d : Dev) : Dev :=
  match d.windowEnd k n with
  | some t => if t ≤ d.time.cnt then d.chShut k n t (if d.rf R.ADC_CHn_CTL_MODE k n = 3 then none else some t) else d
  | none => d

/-- A window close as the environment brings it: the window whose length is over closes, and the word of the oldest closed window is
delivered. -/
def Dev.windowClose (k n : Nat) (m : AdcMeas) (d : Dev) : Dev :=
  (if (d.adcCh k n).shut.isEmpty then d.windowDue k n else d).windowDeliver k n m

/-- Windows aligned to cadence `a` close at its boundary, and the next ones open (R28, R110 step 2). -/
def Dev.cadWindows (a : Nat) (d : Dev) : Dev :=
  (List.range d.nBanks).foldl (fun d k => (List.range 16).foldl (fun d n =>
    if d.chOn k n && decide (d.rf R.ADC_CHn_CTL_MODE k n = 0) && decide (d.rf R.ADC_CHn_CTL_ALIGN k n = a) then
      d.chShut k n d.time.cnt (some d.time.cnt)
    else d) d) d

/-- ADC_WINDOW_CLOSE (R223, R224): the environment brings what the modulator measured over a window that has closed (R226). -/
def execAdcWindowClose (bank ch : Nat) (m : AdcMeas) (s : State) : Res :=
  s.guarded (s.dev.adcOk bank ch) (Dev.when_ (s.dev.chOn bank ch) (Dev.windowClose bank ch m))

/-- The units that wait for the word of a channel take it, and the signal it delivers (R29, R229). -/
def Dev.sampleUnits (k n : Nat) (d : Dev) : Dev :=
  let i := 16 * k + n
  let sigs := d.cfg.io.filterMap (fun e => match e.body with | .ain j _ _ _ _ sig => if j = i then some sig else none | _ => none)
  { d with units := Tbl.mapVals (fun _ x =>
      if x.smpWait.contains i then
        { x with smpWait := x.smpWait.filter (· ≠ i), smp := Tbl.put i (d.rimWord x i) x.smp,
                 vis := sigs.foldl (fun v g => Tbl.put g (d.sig g) v) x.vis }
      else x) d.units }

/-- SAMPLE_PRESENT (R29, R227, R229): the word and its side word stand in the rim input register; when the words of a
bank's triggered windows all stand there, its event source asserts. -/
def Dev.samplePresent (k n : Nat) (d : Dev) : Dev :=
  let c := d.adcCh k n
  let d := { d with rimIn := Tbl.put (16 * k + n) (d.rf R.ADC_CHn_LAST k n, c.side) d.rimIn }
  let w := d.rf R.ADC_CHn_LAST k n
  let sv : SigVal := { val := BitVec.ofNat 32 (w / 256 * 256), st := BitVec.ofNat 8 (w % 256 / 16 * 16) }
  let d := d.cfg.io.foldl (fun d e => match e.body with
    | .ain i _ _ _ _ sig => if i = 16 * k + n then d.showSig sig sv else d
    | _ => d) d
  let d := (d.setCh k n { c with waits := false }).sampleUnits k n
  let trig := (d.chsOn k).filter (fun i => d.rf R.ADC_CHn_CTL_MODE k i = 3)
  if trig.contains n && trig.all (fun i => !(d.adcCh k i).waits && (d.adcCh k i).opened.isNone && (d.adcCh k i).shut.isEmpty) then
    d.assertSrc (1856 + k) []
  else d

/-- Words that have been delivered and stand in no rim input register yet are presented at a boundary of a cadence to which their channel is
not aligned (R110 step 3, R229). -/
def Dev.presentWords (a : Nat) (d : Dev) : Dev :=
  (List.range d.nBanks).foldl (fun d k => (List.range 16).foldl (fun d n =>
    let c := d.adcCh k n
    if d.chOn k n && c.waits && c.shut.isEmpty && !(decide (d.rf R.ADC_CHn_CTL_MODE k n = 0) && decide (d.rf R.ADC_CHn_CTL_ALIGN k n = a)) then
      d.samplePresent k n
    else d) d) d

def execSamplePresent (bank ch : Nat) (s : State) : Res :=
  s.guarded (s.dev.adcOk bank ch)
    (Dev.when_ (s.dev.chOn bank ch && (s.dev.adcCh bank ch).waits) (Dev.samplePresent bank ch))

/-- ADC_START of a comparator (R112, R227): a window opens on every triggered channel; one that is open stays and the
trigger is ignored for it. -/
def Dev.adcStart (k : Nat) (d : Dev) : Dev :=
  ((d.chsOn k).filter (fun n => d.rf R.ADC_CHn_CTL_MODE k n = 3)).foldl (fun d n =>
    let c := d.adcCh k n
    if c.opened.isSome then d.wf R.ADC_CHn_STAT_TRIG_MISS 1 k n
    else d.setCh k n { c with opened := some d.time.cnt }) d

/-! ### Mains (R228) -/

/-- The value of MLOCK and PERIOD in every bank. -/
def Dev.mainsShow (d : Dev) : Dev :=
  (List.range d.nBanks).foldl (fun d k =>
    (d.wb R.ADC_MAINS_MLOCK d.mains.lock k).wf R.ADC_MAINS_PERIOD d.mains.period k) d

/-- MAINS channels without a window in progress start one of the last accepted period (R228). -/
def Dev.mainsFree (d : Dev) : Dev :=
  (List.range d.nBanks).foldl (fun d k => (d.chsOn k).foldl (fun d n =>
    let c := d.adcCh k n
    if d.rf R.ADC_CHn_CTL_MODE k n = 2 ∧ c.opened.isNone then d.setCh k n { c with opened := some d.time.cnt, edges := 0 } else d) d) d

/-- Lock is lost: MLOCK clears, MLOST is set, MAINS_LOST is raised. -/
def Dev.mainsLose (d : Dev) : Dev :=
  if d.mains.lock then
    let d := ({ d with mains := { d.mains with lock := false } }).mainsShow.mainsFree
    ((List.range d.nBanks).foldl (fun d k => d.wf R.ADC_MAINS_MLOST 1 k) d).raise Ev.MAINS_LOST 0 []
  else d

/-- An accepted period lies from 15.0 ms to 22.5 ms. -/
def periodOk (p : Nat) : Bool := decide (7500000 ≤ p) && decide (p ≤ 11250000)

/-- MAINS channels at an edge (R226, R228): at the edge of a lock a new window starts and what ran before it is abandoned; under a lock
the NMAINS-th edge closes the window and opens the next. -/
def Dev.mainsWindows (fresh : Bool) (d : Dev) : Dev :=
  (List.range d.nBanks).foldl (fun d k => (d.chsOn k).foldl (fun d n =>
    let c := d.adcCh k n
    if d.rf R.ADC_CHn_CTL_MODE k n ≠ 2 ∨ d.mains.lock = false then d
    else if fresh ∨ c.opened.isNone then (let d := d.chClose k n; d.setCh k n { d.adcCh k n with opened := some d.time.cnt, edges := 0 })
    else if c.nm ≤ c.edges then d.chShut k n d.time.cnt (some d.time.cnt)
    else d.setCh k n { c with edges := c.edges + 1 }) d) d

/-- MAINS_EDGE (R228). -/
def Dev.mainsEdge (d : Dev) : Dev :=
  let now := d.time.cnt
  match d.mains.edge with
  | none => { d with mains := { d.mains with edge := some now, prev := none } }
  | some e =>
    let p := now - e
    if periodOk p then
      let near := match d.mains.prev with
        | some q => decide (100 * ((p : Int) - q).natAbs < q)
        | none => false
      let fresh := near && !d.mains.lock
      let d := ({ d with mains := { edge := some now, prev := some p, period := p, lock := d.mains.lock || near } }).mainsShow
      (if fresh then d.raise Ev.MAINS_LOCK 0 [] else d).mainsWindows fresh
    else ({ d with mains := { d.mains with edge := some now, prev := none } }).mainsLose

def execMainsEdge (s : State) : Res := s.on (Dev.when_ (s.dev.nBanks ≠ 0) Dev.mainsEdge)

/-- MAINS_TIMEOUT (R228): no edge within 25 ms of the previous one. -/
def execMainsTimeout (s : State) : Res :=
  s.on (Dev.when_ (s.dev.mains.edge.any (fun e => decide (e + 12500000 ≤ s.dev.time.cnt))) fun d => ({ d with mains := { d.mains with edge := none, prev := none } }).mainsLose)

/-! ### Channel writes (R226, R234, R235, R243, R244) -/

/-- The window length is within its limits (R226). -/
def Dev.wlenOk (d : Dev) (k w : Nat) : Bool :=
  decide ((if d.flag R.ADC_BANK_CFG_LP k then 1000 else 250) ≤ w) && decide (w ≤ 2500000)

/-- The cadence period is within its limits (R226); the period is M·10 µs. -/
def Dev.alignOk (d : Dev) (k a : Nat) : Bool :=
  let m := d.rf R.TIME_CADn_CFG_MULT 0 a
  decide ((if d.flag R.ADC_BANK_CFG_LP k then 4 else 1) ≤ m) && decide (m ≤ 10000)

/-- A control word that an enabled channel may take. -/
def Dev.ctlOk (d : Dev) (k n w : Nat) : Bool :=
  let mode := bitsOf w 3 2
  if bitsOf w 0 1 = 0 then true
  else if mode = 0 then d.alignOk k (bitsOf w 5 3)
  else if mode = 2 then true
  else d.wlenOk k (d.rf R.ADC_CHn_WLEN_WLEN k n)

/-- A roll of the channel is abandoned by a change (R244); before the stand-in has taken over nothing else is left to do. -/
def Dev.rollAbandon (k n : Nat) (d : Dev) : Dev :=
  let b := d.bank k
  match b.roll with
  | some r =>
    if r.ch ≠ n then d
    else
      let d := d.setBank k { b with roll := some { r with abandoned := true } }
      if r.phase < 2 then d.rollEnd k n else d
  | none => d

/-- The window in progress ends as a partial window, and N − 1 more are invalid (R234); where none is in progress, N − 1. The change that waits
for a close is applied with it, and the larger count holds for the partial window on (R235). The environment's measurement is that of the
partial window. -/
def Dev.partialEnd (k n : Nat) (m : AdcMeas) (d : Dev) : Dev :=
  let c := d.adcCh k n
  let inv := max c.settle (max (if c.opened.isSome then c.n else c.n - 1) c.pendInv)
  let d := d.setCh k n { c with settle := inv, pendInv := 0, noBefore := max c.noBefore (d.time.cnt + inv * d.rf R.ADC_CHn_WLEN_WLEN k n * 20) }
  let d := if d.chOn k n && c.opened.isSome then (d.chShut k n d.time.cnt (d.chOpens k n)).windowDeliver k n m
    else d.chClose k n
  let c := d.adcCh k n
  if c.opened.isNone then d.setCh k n { c with opened := d.chOpens k n } else d

/-- In TRIGGERED mode the samples that a change leaves invalid run out with time (R234): what is left of them now. -/
def Dev.chLapse (k n : Nat) (d : Dev) : Dev :=
  let c := d.adcCh k n
  let left := ceilDiv (c.noBefore - d.time.cnt) (max 1 (d.rf R.ADC_CHn_WLEN_WLEN k n * 20))
  if d.rf R.ADC_CHn_CTL_MODE k n = 3 then d.setCh k n { c with settle := left, skip := min c.skip left } else d

/-- A write changes a setting of the channel: its length, or a field of its control word that a channel has. -/
def Dev.chNew (d : Dev) (k n : Nat) (wlen : Bool) (w : Nat) : Bool :=
  if wlen then decide (d.rf R.ADC_CHn_WLEN_WLEN k n ≠ w % 2 ^ 22) else decide (bitsOf (d.rw (R.ADC_CHn_CTL.addr k n 0)) 0 12 ≠ bitsOf w 0 12)

/-- Apply one channel's control or length change. -/
def Dev.chChange (k n : Nat) (wlen : Bool) (w : Nat) (m : AdcMeas) (d : Dev) : Dev :=
  let d := (if d.chNew k n wlen w then d.rollAbandon k n else d).chLapse k n
  if wlen then
    let old := d.rf R.ADC_CHn_WLEN_WLEN k n
    let mode := d.rf R.ADC_CHn_CTL_MODE k n
    let d := d.wf R.ADC_CHn_WLEN_WLEN w k n
    if old ≠ w % 2 ^ 22 ∧ (mode = 1 ∨ mode = 3) then d.partialEnd k n m else d
  else
    let old := d.rw (R.ADC_CHn_CTL.addr k n 0)
    let d := d.ww (R.ADC_CHn_CTL.addr k n 0) (setBits w 12 1 (bitsOf old 12 1) % 2 ^ 32)
    let f (lo wd : Nat) : Bool := decide (bitsOf old lo wd ≠ bitsOf w lo wd)
    let c := d.adcCh k n
    if bitsOf old 0 1 = 0 then
      if bitsOf w 0 1 = 1 then (d.chRestart k n).wf R.ADC_CHn_WCNT 0 k n
      else d.setCh k n (d.chForce k n c)
    else if bitsOf w 0 1 = 0 then d.chStop k n
    else
      let nNew := 2 ^ bitsOf w 8 2
      let inv := max (if f 1 2 then 2 else 0) (max (if f 8 2 then nNew - 1 else 0) (if f 10 2 then c.n - 1 else 0))
      let d := if f 1 2 || f 8 2 || f 10 2 then
          d.setCh k n { c with pend := true, pendInv := if c.settle = 0 then max c.pendInv inv else c.pendInv,
                               settle := if c.settle = 0 then 0 else max c.settle inv, pendNo := max c.pendNo (d.time.cnt + inv * d.rf R.ADC_CHn_WLEN_WLEN k n * 20) }
        else d
      if f 3 2 then
        if bitsOf w 3 2 = 2 then
          let d := d.chClose k n
          d.setCh k n { d.adcCh k n with opened := d.chOpens k n, edges := 0 }
        else d.partialEnd k n m
      else if f 5 3 then d.partialEnd k n m
      else if c.opened.isNone then d.chClose k n
      else d

/-- A write of `CHn_CTL` or `CHn_WLEN` (R226, R234): refused as a whole where it breaks a limit; in a pair it is applied to
both channels. The second component says whether it was refused. -/
def Dev.adcChWrite (k n : Nat) (wlen : Bool) (w : Nat) (m : AdcMeas) (d : Dev) : Dev × Bool :=
  let ok := if wlen then d.wlenOk k (w % 2 ^ 22) else d.ctlOk k n w
  if !ok then (d.wf R.ADC_CHn_STAT_REFUSED 1 k n, true)
  else
    let d1 := d.chChange k n wlen w m
    match d.pairOf k n with
    | some (_, o) => (d1.chChange k o wlen w m, false)
    | none => (d1, false)

def execAdcChWrite (bank ch : Nat) (wlen : Bool) (w : Word) (m : AdcMeas) (s : State) : Res :=
  s.regCmd (if wlen then R.ADC_CHn_WLEN else R.ADC_CHn_CTL) bank ch (decide (ch < 16)) (fun d => (d.adcChWrite bank ch wlen w.toNat m).1)

/-! ### Calibration commands (R236 to R244) -/

/-- What one calibration of a range sets (R236, R238). -/
def Dev.calApply (k : Nat) (c : CalMeas) (d : Dev) : Dev :=
  let span := c.r - c.z
  let g : Int := if span ≤ 0 then 0 else roundDiv (6710886 * 256 * 2 ^ 22) span.toNat
  let bad := decide (2 ^ 19 * 256 < c.z.natAbs) || decide (g * 100 < 95 * 2 ^ 22) || decide (105 * 2 ^ 22 < g * 100)
  if bad then
    let d := d.wf R.ADC_CAL_REC_FAIL 1 k c.ch c.range
    let d := if c.ch = 16 then d.wf R.ADC_CAL_STAT_CHKFAIL 1 k
      else d.wf R.ADC_CAL_STAT_CALFAIL (setBits (d.rf R.ADC_CAL_STAT_CALFAIL k) c.ch 1 1) k
    d.raise Ev.ADC_CALFAIL k [BitVec.ofNat 8 c.ch, BitVec.ofNat 8 c.range]
  else
    let d := (d.wf R.ADC_CAL_OFF_OFF (ofS 24 (roundDiv c.z 256)) k c.ch c.range).wf R.ADC_CAL_GAIN_G (ofS 24 g) k c.ch c.range
    let d := (d.wf R.ADC_CAL_REC_VALID 1 k c.ch c.range).wf R.ADC_CAL_REC_FAIL 0 k c.ch c.range
    ((d.wf R.ADC_CAL_REC_TJ (ofS 10 c.tj) k c.ch c.range).wf R.ADC_CAL_REC_PA c.pa k c.ch c.range).nocalShow k c.ch

/-- BANKCAL (R237, R244). -/
def Dev.bankcal (k : Nat) (d : Dev) : Dev :=
  let b := d.bank k
  if !d.flag R.ADC_CTRL_EN k then d
  else if b.cal then d.wf R.ADC_CAL_STAT_BUSY 1 k
  else
    let d := d.setBank k { b with cal := true, pass := none, roll := none, chkFirst := false, visit := none,
                                  passEnd := if b.pass.isSome then d.time.cnt else b.passEnd }
    let d := (d.wf R.ADC_CAL_STAT_STATE 1 k).wf R.ADC_CHK_STAT_SUBST 0 k
    (d.chsOn k).foldl (fun d n =>
      (d.setCh k n { d.adcCh k n with opened := d.chOpens k n, edges := 0, wins := [] }).wf R.ADC_CHn_STAT_SUBST 0 k n) d

def execBankcal (bank : Nat) (s : State) : Res := s.regCmd R.ADC_CAL_CMD bank 0 true (Dev.bankcal bank)

/-- A bank calibration ends (R237): factors set, every channel restarts as after an enable. -/
def Dev.bankcalDone (k : Nat) (ms : List CalMeas) (d : Dev) : Dev :=
  if (d.bank k).cal then
    let d := ms.foldl (fun d c => if c.ch = 16 || d.chOn k c.ch then d.calApply k c else d) d
    let d := (d.setBank k { d.bank k with cal := false }).wf R.ADC_CAL_STAT_STATE 0 k
    (d.chsOn k).foldl (fun d n => d.chRestart k n) d
  else d

/-- ROLL (R242, R244). -/
def Dev.roll (k : Nat) (d : Dev) : Dev :=
  let b := d.bank k
  if !d.flag R.ADC_CTRL_EN k then d
  else if b.cal || b.pass.isSome then d.wf R.ADC_CAL_STAT_BUSY 1 k
  else d.passStart k (d.chsOn k) false

def execRoll (bank : Nat) (s : State) : Res := s.regCmd R.ADC_CAL_CMD bank 0 true (Dev.roll bank)

/-- STOPROLL (R242): the pass ends after the present channel. -/
def Dev.stoproll (k : Nat) (d : Dev) : Dev := d.setBank k { d.bank k with pass := (d.bank k).pass.map (fun _ => []), stale := false }

def execStoproll (bank : Nat) (s : State) : Res := s.regCmd R.ADC_CAL_CMD bank 0 true (Dev.stoproll bank)

/-- ROLL_CAL_DONE (R241): the check converter's own calibration, or the channel's 40 ms, have ended. -/
def Dev.rollCalDone (k : Nat) (ms : List CalMeas) (d : Dev) : Dev :=
  let b := d.bank k
  match b.pass with
  | none => d
  | some _ =>
    if b.chkFirst then
      let d := (ms.filter (fun c => c.ch = 16)).foldl (fun d c => d.calApply k c) d
      (d.setBank k { d.bank k with chkFirst := false, chkTried := true }).passNext k
    else match b.roll with
      | none => d
      | some r =>
        if r.phase = 2 && !r.abandoned && !r.calEnded then
          let d := (ms.filter (fun c => c.ch = r.ch && c.range = (d.adcCh k r.ch).range)).foldl (fun d c => d.calApply k c) d
          d.setBank k { d.bank k with roll := some { r with calEnded := true } }
        else d

def execRollCalDone (bank : Nat) (ms : List CalMeas) (s : State) : Res :=
  s.guarded (decide (bank < s.dev.nBanks)) (Dev.rollCalDone bank ms)

/-- AUTOCAL_PERIOD (R242): CAL_PERIOD hours after the end of the last pass, the check converter, then all enabled channels. -/
def execAutocalPeriod (bank : Nat) (s : State) : Res :=
  s.guarded (decide (bank < s.dev.nBanks)) (fun d =>
    let b := d.bank bank
    let a := d.rf R.ADC_BANK_CFG_AUTOCAL bank
    let due := d.rst.coresUp && decide (b.passEnd + d.rf R.ADC_BANK_CFG_CAL_PERIOD bank * 1800000000000 ≤ d.time.cnt)
    if (a = 2 || a = 3) && due && d.flag R.ADC_CTRL_EN bank && b.pass.isNone && !b.cal then
      d.passStart bank (d.chsOn bank) true
    else d)

/-- CHECK_VISIT_TIMEOUT (R240): a visit that has seen no window for 1 s is inconclusive and abandoned. -/
def execCheckVisitTimeout (bank : Nat) (s : State) : Res :=
  s.guarded (decide (bank < s.dev.nBanks)) (fun d =>
    match (d.bank bank).visit with
    | some v =>
      if d.time.cnt < v.seen + 500000000 then d
      else (d.setBank bank { d.bank bank with visit := none, again := (d.bank bank).again ++ [v.ch] }).visitNext bank d.time.cnt
    | none => d)

end Sys2Proof.Machine
end

