-- ==== Sys2Proof/Machine/Time.lean ====
section
/-!
DEFINITION. The time base, the views and the comparators (R93 to R113).
-/
namespace Sys2Proof.Machine

/-! ### Views (R95 to R99) -/

def Dev.vw (d : Dev) (v : Nat) : View := Tbl.getD {} d.time.views v
def Dev.putView (v : Nat) (w : View) (d : Dev) : Dev := { d with time := { d.time with views := Tbl.put v w d.time.views } }

/-- The active increment changes at this tick: the value runs on from here (R95). -/
def Dev.setInc (v inc : Nat) (d : Dev) : Dev :=
  let w := d.vw v
  let w' : View := { w with base := d.view v % 2 ^ 104, tb := d.time.cnt, inc := inc }
  (d.putView v w').wb R.TIME_VSTAT_SLEW (decide (inc ≠ w.tgt)) 0 v

/-- The increment target changes; its registers show it. -/
def Dev.setTgt (v tgt : Nat) (d : Dev) : Dev :=
  let w : View := { d.vw v with tgt := tgt }
  let d := (d.putView v w).wf R.TIME_INC_LO_FRAC tgt 0 v
  let d := (d.wf R.TIME_INC_HI_FRACHI (tgt / 2 ^ 32) 0 v).wf R.TIME_INC_HI_INT (tgt / 2 ^ 40) 0 v
  d.wb R.TIME_VSTAT_SLEW (decide (w.inc ≠ tgt)) 0 v

/-- R98: 200 ppm of 2.0 ns, in 2^-40 ns. -/
def incBand : Nat := 439804651

/-- The target is within the band. -/
def incOk (t : Nat) : Bool := decide (((t : Int) - 2 ^ 41).natAbs ≤ incBand)

/-- Step states (R98). -/
def vsFREE : Nat := 0
def vsARMED : Nat := 1
def vsSPENT : Nat := 2

def Dev.vstate (d : Dev) (v : Nat) : Nat := d.rf R.TIME_VSTAT_STATE 0 v

/-- A refused write (R98). -/
def Dev.timeRefuse (v why : Nat) (d : Dev) : Dev :=
  ((d.wf R.TIME_VSTAT_REFUSED 1 0 v).wf R.TIME_VSTAT_WHY why 0 v).raise Ev.TIME_REFUSED 0 []

/-- A view loses LOCK; view 0 following view 1 loses it in the same tick (R97, R99). -/
def Dev.loseLock (v : Nat) (d : Dev) : Dev :=
  let drop (v : Nat) (d : Dev) : Dev :=
    if d.locked v then (d.wf R.TIME_VSTAT_LOCK 0 0 v).raise Ev.TIME_UNLOCK 0 [] else d
  let d := drop v d
  if v = 1 ∧ d.rf R.TIME_VCTL_SRC 0 0 = 2 then drop 0 d else d

/-- Cadences that wait for LOCK take this tick as their reference (R108). -/
def Dev.releaseWait (d : Dev) : Dev :=
  if !d.running then d
  else (List.range 8).foldl (fun d n =>
    let c := Tbl.getD {} d.time.cads n
    if c.used && c.ref.isNone then
      let c' : CadSt := { c with ref := some d.time.cnt }
      ({ d with time := { d.time with cads := Tbl.put n c' d.time.cads } }).wb R.TIME_CADn_STAT_WAIT c.deferred 0 n
    else d) d

/-- A view declares LOCK: the first declaration arms it (R98, R99). -/
def Dev.declareLock (v : Nat) (d : Dev) : Dev :=
  if d.locked v then d
  else
    let d := (d.wf R.TIME_VSTAT_LOCK 1 0 v).raise Ev.TIME_LOCK 0 []
    let d := if d.vstate v = vsFREE then d.wf R.TIME_VSTAT_STATE vsARMED 0 v else d
    if v = 0 then d.releaseWait else d

/-- R99: with view 1 locked, view 0 without LOCK and FREE or ARMED, and the Last not RUNNING, the rim steps view 0 to view 1. -/
def Dev.followStep (d : Dev) : Dev :=
  if d.rf R.TIME_VCTL_SRC 0 0 = 2 && d.locked 1 && !d.locked 0 && !d.running && decide (d.vstate 0 ≠ vsSPENT) then
    let armed := decide (d.vstate 0 = vsARMED)
    let diff : Int := (d.view 1 / 2 ^ 40 : Int) - (d.view 0 / 2 ^ 40 : Nat)
    let d := d.setView 0 (d.view 1)
    let d := d.raise Ev.TIME_STEP 0 ([0] ++ leBytes 8 d.time.cnt ++ leBytes 8 (ofS 64 diff))
    let d := if armed then d.wf R.TIME_VSTAT_STATE vsSPENT 0 0 else d
    d.declareLock 0
  else d

/-- The service cores are down: a view that PTP or view 1 steers keeps its active increment (R96). -/
def Dev.holdover (d : Dev) (v : Nat) : Bool :=
  !d.rst.coresUp && (decide (d.rf R.TIME_VCTL_SRC 0 v = 1) || decide (d.rf R.TIME_VCTL_SRC 0 v = 2))

/-- The active increment stays as it is: holdover, or view 0 following a view 1 without LOCK (R96, R99). -/
def Dev.steady (d : Dev) (v : Nat) : Bool :=
  d.holdover v || (decide (v = 0) && decide (d.rf R.TIME_VCTL_SRC 0 0 = 2) && !d.locked 1)

/-- What the rim's correction may be, for a difference in 2^-40 ns: at most 200 ppm, and once LOCK is declared at most the rate that the slew
of R98 can still take away within the difference, and at least half of it, so that rate alone brings the difference below 50 ns and keeps it
there (R99). Its size inside these bounds is free (log entry 93). -/
def followBand (lock : Bool) (diff : Nat) : Nat × Nat :=
  if lock then
    let m := min incBand (2 ^ (Nat.log2 (64 * diff + 1) / 2))
    ((m + 1) / 2, m)
  else (0, incBand)

/-- R99: otherwise the rim steers by rate, with the sign that reduces the difference. -/
def Dev.followRate (d : Dev) : Dev :=
  if d.rf R.TIME_VCTL_SRC 0 0 = 2 && d.locked 1 && !d.holdover 0 then
    let r := d.fresh 32
    let d := r.2
    let band := followBand (d.locked 0) ((d.view 0 : Int) - d.view 1).natAbs
    let c : Int := band.1 + r.1 % (band.2 - band.1 + 1)
    let sgn : Int := if d.view 0 < d.view 1 then 1 else if d.view 1 < d.view 0 then -1 else 0
    let t := clampI (2 ^ 41 - incBand) (2 ^ 41 + incBand) ((d.vw 1).inc + sgn * c)
    d.setTgt 0 t.toNat
  else d

/-- How far the active increment of a view may still slew in this microsecond of the counter: 16 384 units less what it has slewed in it (R98). -/
def Dev.slewLeft (d : Dev) (v : Nat) : Nat :=
  let w := d.vw v
  16384 - (if w.movedIn = d.time.cnt / 500 then w.moved else 0)

/-- Slewing of a privileged view in this microsecond (R98). -/
def Dev.slew (v : Nat) (d : Dev) : Dev :=
  let w := d.vw v
  let left := d.slewLeft v
  if d.steady v || decide (w.inc = w.tgt) then d
  else
    let new := if w.inc < w.tgt then min w.tgt (w.inc + left) else max w.tgt (w.inc - left)
    let gone := 16384 - left + ((new : Int) - w.inc).natAbs
    (d.putView v { w with movedIn := d.time.cnt / 500, moved := gone }).setInc v new

/-- One tick of the rim clock (R93, R98, R99): what the block does on an empty queue (log entry 1). -/
def Dev.tick (d : Dev) : Dev :=
  let d : Dev := { d with rst := { d.rst with epi := d.rst.epi.map (fun e => { e with fresh := false }) } }
  if d.time.pll then
    let d : Dev := { d with time := { d.time with cnt := d.time.cnt + 1 } }
    let d := d.followStep
    if d.time.cnt % 500 = 0 then (d.followRate.slew 0).slew 1 else d
  else d

/-- VIEW_SLEW_DONE (R98): the active increment reaches its target, which it can where no more is left than it may still slew in this
microsecond. -/
def Dev.slewDone (v : Nat) (d : Dev) : Dev :=
  let w := d.vw v
  if ((w.tgt : Int) - w.inc).natAbs ≤ d.slewLeft v then d.slew v else d

def execViewSlewDone (v : Nat) (s : State) : Res := s.guarded (decide (v < 2)) (Dev.slewDone v)

/-- FOLLOW1_LOCK (R99): within 1 µs of view 1. -/
def execFollow1Lock (s : State) : Res :=
  s.on (fun d =>
    if d.rf R.TIME_VCTL_SRC 0 0 = 2 && d.locked 1 &&
        decide (((d.view 0 : Int) - d.view 1).natAbs < 1000 * 2 ^ 40) then d.declareLock 0 else d)

/-! ### Reads and writes (R94, R97, R98, R100, R111) -/

/-- TIME_CNT_LO_READ (R94). -/
def Dev.cntLoRead (d : Dev) : Dev := { d with time := { d.time with hi := d.time.cnt / 2 ^ 32 % 2 ^ 32 } }

def execTimeCntLoRead (s : State) : Res := s.on Dev.cntLoRead

/-- TIME_SNAP (R100). -/
def Dev.timeSnap (mask : Nat) (d : Dev) : Dev :=
  let d := d.w64 R.TIME_SNAP_CNT_LO_CNT R.TIME_SNAP_CNT_HI_CNT d.time.cnt
  let d := (List.range 8).foldl (fun d v =>
    if bitAt mask v then
      ((d.wf R.TIME_SNAP_FRAC_V (d.viewFrac v) 0 v).wf R.TIME_SNAP_NS_LO_V (d.viewNs v) 0 v).wf R.TIME_SNAP_NS_HI_V
        (d.viewNs v / 2 ^ 32) 0 v
    else d) d
  d.wf R.TIME_SNAP_CTL_DONE 1

def execTimeSnap (mask : Nat) (s : State) : Res := s.guarded (decide (mask < 256)) (Dev.timeSnap mask)

/-- An absolute set commits (R98). The second component: refused. -/
def Dev.timeSet (v : Nat) (hi : Word) (d : Dev) : Dev × Bool :=
  if v = 0 ∧ d.running then (d.timeRefuse v 1, true)
  else if v < 2 ∧ d.vstate v ≠ vsFREE then (d.timeRefuse v 2, true)
  else
    let ns := d.rf R.TIME_SET_NS_LO_V 0 v + hi.toNat * 2 ^ 32
    ((d.wf R.TIME_SET_NS_HI_V hi.toNat 0 v).setView v (ns * 2 ^ 40 + d.rf R.TIME_SET_FRAC_V 0 v * 2 ^ 8), false)

def execTimeSetWrite (v : Nat) (hi : Word) (s : State) : Res :=
  s.guarded (decide (v < 8)) (fun d => (d.timeSet v hi).1)

/-- A step commits (R98): in ARMED it uses the allowance. -/
def Dev.timeStep (v : Nat) (hi : Word) (d : Dev) : Dev × Bool :=
  if v = 0 ∧ d.running then (d.timeRefuse v 1, true)
  else if v < 2 ∧ d.vstate v = vsSPENT then (d.timeRefuse v 2, true)
  else
    let raw := d.rf R.TIME_STEP_LO_V 0 v + hi.toNat * 2 ^ 32
    let new := ((d.view v : Int) + toS 64 raw * 2 ^ 40) % (2 ^ 104)
    let d := (d.wf R.TIME_STEP_HI_V hi.toNat 0 v).setView v new.toNat
    let d := if v < 2 ∧ d.vstate v = vsARMED then d.wf R.TIME_VSTAT_STATE vsSPENT 0 v else d
    (d.raise Ev.TIME_STEP 0 ([BitVec.ofNat 8 v] ++ leBytes 8 d.time.cnt ++ leBytes 8 raw), false)

def execTimeStepWrite (v : Nat) (hi : Word) (s : State) : Res :=
  s.guarded (decide (v < 8)) (fun d => (d.timeStep v hi).1)

/-- An increment commits (R98): a target for views 0 and 1, at once for the others. Eyelet alone is bound to a FREE source. -/
def Dev.timeInc (w : Writer) (v : Nat) (hi : Word) (d : Dev) : Dev × Bool :=
  let t := d.rf R.TIME_INC_LO_FRAC 0 v + bitsOf hi.toNat 0 16 * 2 ^ 32
  if v < 2 then
    if !incOk t then ((d.setTgt v (d.vw v).tgt).timeRefuse v 3, true)
    else if w = .eyelet ∧ d.rf R.TIME_VCTL_SRC 0 v ≠ 0 then ((d.setTgt v (d.vw v).tgt).timeRefuse v 4, true)
    else (d.setTgt v t, false)
  else ((d.setTgt v t).setInc v t, false)

def execTimeIncWrite (v : Writer × Nat) (hi : Word) (s : State) : Res :=
  s.guarded (decide (v.2 < 8) && (match v.1 with | .unit _ => false | _ => true)) (fun d => (d.timeInc v.1 v.2 hi).1)

/-- A write of `VCTL` (R97): an unlisted SRC keeps the field; a change ends LOCK and stops the slewing where it is. That the refused SRC sets
no flag, raises no event and leaves SEG of the same word to be taken is the model's choice (log entry 90). -/
def Dev.timeVctl (v w : Nat) (d : Dev) : Dev × Bool :=
  if 2 ≤ v then (d.wf R.TIME_VCTL_SEG (bitsOf w 8 5) 0 v, false)
  else
    let src := bitsOf w 0 2
    let bad := if v = 0 then decide (src = 1) else decide (1 < src)
    let o := d.rw (R.TIME_VCTL_SRC.addr 0 v 0)
    let d := if bad then d else d.wf R.TIME_VCTL_SRC src 0 v
    let d := d.wf R.TIME_VCTL_SEG (bitsOf w 8 5) 0 v
    if d.rw (R.TIME_VCTL_SRC.addr 0 v 0) ≠ o then
      (((d.loseLock v).setTgt v (d.vw v).inc).followStep, bad)
    else (d, bad)

def execTimeVctlWrite (v : Nat) (w : Word) (s : State) : Res :=
  s.guarded (decide (v < 8)) (fun d => (d.timeVctl v w.toNat).1)

/-- A comparator's target commits (R111). -/
def Dev.cmpTarget (i : Nat) (hi : Word) (d : Dev) : Dev :=
  let t := d.rf R.TIME_CMPi_LO_T 0 i + hi.toNat * 2 ^ 32
  let d := d.wf R.TIME_CMPi_HI_T hi.toNat 0 i
  { d with time := { d.time with cmp := Tbl.set 0 i t d.time.cmp } }

def execTimeCmpTargetWrite (i : Nat) (hi : Word) (s : State) : Res :=
  s.guarded (decide (i < 64)) (Dev.cmpTarget i hi)

/-- CAD_RELEASE (R112): cadences in the mask that wait for it are released. -/
def Dev.cadRelease (mask : Nat) (d : Dev) : Dev :=
  (List.range 8).foldl (fun d n =>
    let c := Tbl.getD {} d.time.cads n
    if bitAt mask n && c.used && c.deferred then
      let c' : CadSt := { c with deferred := false }
      ({ d with time := { d.time with cads := Tbl.put n c' d.time.cads } }).wb R.TIME_CADn_STAT_WAIT c.ref.isNone 0 n
    else d) d

/-- A comparator is armed and its view has reached its target (R111). -/
def Dev.cmpDue (d : Dev) (i : Nat) : Bool :=
  d.flag R.TIME_CMPi_CTL_ARM 0 i && decide (Tbl.getD 0 d.time.cmp i ≤ d.viewNs (d.rf R.TIME_CMPi_CTL_VIEW 0 i))

/-- Comparators of action CAD_RELEASE that fire in this tick have their effect before its boundaries (R112: at the first boundary at or after the
tick). -/
def Dev.cmpReleases (d : Dev) : Dev :=
  (List.range 64).foldl (fun d i =>
    if d.cmpDue i && decide (d.rf R.TIME_CMPi_CTL_ACTION 0 i = 2) then d.cadRelease (d.rf R.TIME_CMPi_CTL_TARGET 0 i) else d) d

/-- A comparator fires (R111, R112); one of a lower number that is due too fires first. -/
def Dev.cmpFire (i : Nat) (d : Dev) : Dev :=
  let now := d.viewNs (d.rf R.TIME_CMPi_CTL_VIEW 0 i)
  let t := Tbl.getD 0 d.time.cmp i
  if !d.cmpDue i || (List.range i).any d.cmpDue then d
  else
    let per := d.rf R.TIME_CMPi_PER_PER 0 i
    let act := d.rf R.TIME_CMPi_CTL_ACTION 0 i
    let tg := d.rf R.TIME_CMPi_CTL_TARGET 0 i
    let n := (now - t) / max 1 per + 1
    let d := if per = 0 then d.wf R.TIME_CMPi_CTL_ARM 0 0 i
      else { d with time := { d.time with cmp := Tbl.set 0 i ((t + n * per) % 2 ^ 64) d.time.cmp } }
    let d := d.bump R.TIME_CMPi_STAT_FIRED 1 0 i
    let d := if per = 0 then d else d.bump R.TIME_CMPi_STAT_MISSED (n - 1) 0 i
    let d := if act = 1 then (if tg < d.nBanks then d.adcStart tg else d)
      else if act = 2 then d.cadRelease tg
      else if act = 3 then d.trigFire tg t
      else d
    d.assertSrc (1920 + i) []

def execCmpFire (i : Nat) (s : State) : Res := s.guarded (decide (i < 64)) (Dev.cmpFire i)

/-- The timeout of a cadence that waits for LOCK is over (R105, R108). -/
def Dev.lockLate (d : Dev) (n : Nat) : Bool :=
  let c := Tbl.getD {} d.time.cads n
  let lim := (nth { mult := 0, phase := 0, waitLock := false, timeout := 0 } d.cfg.cads n).timeout
  d.running && c.used && c.ref.isNone && decide (lim ≠ 0) && decide (c.since + lim * 500000000 ≤ d.time.cnt)

/-- WAIT_LOCK_TIMEOUT (R108): the cadence is released in free run. -/
def Dev.waitLockTimeout (n : Nat) (d : Dev) : Dev :=
  let c := Tbl.getD {} d.time.cads n
  if d.lockLate n then
    let c' : CadSt := { c with ref := some d.time.cnt }
    let d : Dev := { d with time := { d.time with cads := Tbl.put n c' d.time.cads } }
    ((d.wb R.TIME_CADn_STAT_WAIT c.deferred 0 n).wf R.TIME_CADn_STAT_NOLOCK 1 0 n).raise Ev.TIME_NOLOCK 0 []
  else d

def execWaitLockTimeout (n : Nat) (s : State) : Res := s.guarded (decide (n < 8)) (Dev.waitLockTimeout n)

/-- REFCLK_LOSS (R113). -/
def execRefclkLoss (s : State) : Res :=
  s.on (fun d => ({ d with time := { d.time with refOk := false } }).wf R.TIME_STAT_REFLOSS 1)

/-- REFCLK_RETURN (R113): the rim leaves holdover; REFLOSS stays until it is cleared. -/
def execRefclkReturn (s : State) : Res := s.on (fun d => { d with time := { d.time with refOk := true } })

end Sys2Proof.Machine
end

