-- ==== Sys2Proof/Machine/Units.lean ====
section
/-!
DEFINITION. The units of the fabric: what a unit reads, one evaluation of each kind, commits, tiles and their
verification, the partitions, completion and checkpoints (R28 to R35, R66 to R81, R91, R160 to R163, R511).
-/
namespace Sys2Proof.Machine

/-! ### Reaching units -/

def Dev.un (d : Dev) (u : Nat) : UnitSt := Tbl.getD {} d.units u
def Dev.setUn (u : Nat) (x : UnitSt) (d : Dev) : Dev := { d with units := Tbl.put u x d.units }
def Dev.unUp (u : Nat) (f : UnitSt → UnitSt) (d : Dev) : Dev := d.setUn u (f (d.un u))

/-- `UNIT.STAT.RUN` (R90): 0 IDLE, 1 BUSY, 2 FAULTED, 3 RESTORING. -/
def Dev.setRun (u r : Nat) (d : Dev) : Dev := (d.unUp u (fun x => { x with run := r })).wf R.UNIT_STAT_RUN r u

/-- Change a unit's committed content and the one of the cycle in progress alike. -/
def UnitSt.both (f : UnitSem → UnitSem) (x : UnitSt) : UnitSt := { x with base := f x.base, work := f x.work }

/-- Units of the device in some state, ascending. -/
def Dev.unitsWhere (d : Dev) (p : UnitSt → Bool) : List Nat := (List.range d.nUnits).filter (fun u => p (d.un u))

/-- Units of a cadence, ascending. -/
def Dev.cadUnits (d : Dev) (n : Nat) : List Nat :=
  d.unitsWhere (fun x => decide (x.kind ≠ 0) && !x.event && decide (x.cad = n))

/-- Event-driven units, ascending. -/
def Dev.evUnits (d : Dev) : List Nat := d.unitsWhere (fun x => decide (x.kind ≠ 0) && x.event)

/-- Units of a kind, ascending. -/
def Dev.kindUnits (d : Dev) (k : Nat) : List Nat := d.unitsWhere (fun x => decide (x.kind = k))

/-- The UNIT record of a unit and a byte of its kind data (R46). -/
def Dev.kdata (d : Dev) (u i : Nat) : Nat :=
  match d.cfg.units.find? (fun r => decide (r.unit = u)) with
  | some r => nth 0 r.kdata i
  | none => 0

def Dev.loopsOf (d : Dev) (u : Nat) : List LoopCfg := Tbl.getD [] d.cfg.loops u
def Dev.axesOf (d : Dev) (u : Nat) : List AxisCfg := Tbl.getD [] d.cfg.axes u
def Dev.seqsOf (d : Dev) (u : Nat) : List SeqCfg := Tbl.getD [] d.cfg.seqs u
def Dev.condsOf (d : Dev) (u : Nat) : List CondIn := Tbl.getD [] d.cfg.conds u
def Dev.engsOf (d : Dev) (u : Nat) : List EngCfg := Tbl.getD [] d.cfg.engs u

/-- Units of a kind of the Last, ascending, those among them that an absent OPTIONAL resource leaves out (R173, R198, R263: ranks count them). -/
def Dev.ranked (d : Dev) (k : Nat) : List Nat :=
  (List.range 512).filter (fun u => decide ((d.un u).kind = k) || d.cfg.gone.any (fun x => decide (x.unit = u) && decide (x.kind = k)))

/-- The rank of a unit among those of its kind (R173, R198). -/
def Dev.rankOf (d : Dev) (k u : Nat) : Nat := ((d.ranked k).takeWhile (· ≠ u)).length

/-- The device sequencer number of (u, s), and back (R198). -/
def Dev.seqNo (d : Dev) (u s : Nat) : Nat := 4 * d.rankOf 4 u + s
def Dev.seqOf (d : Dev) (num : Nat) : Option (Nat × Nat) :=
  ((d.ranked 4)[num / 4]?).bind (fun u => if (d.un u).kind = 4 then some (u, num % 4) else none)

/-! ### Time of boundaries (R105, R106) -/

/-- The boundary value t_k of a cadence, in ns of view 0. -/
def Dev.cadNs (d : Dev) (n k : Nat) : Nat := k * (d.rf R.TIME_CADn_CFG_MULT 0 n * 10000) + d.rf R.TIME_CADn_PHASE_PHASE 0 n * 10

/-- The first tick at which view 0, on its present line, reaches a time in ns. -/
def Dev.tickOf (d : Dev) (ns : Nat) : Int :=
  let w := d.vw 0
  (w.tb : Int) - (((w.base : Int) - (ns * 2 ^ 40 : Nat)) / (max 1 w.inc : Nat))

/-! ### Tiles (R13, R76 to R79, R91) -/

/-- A word of a unit's mapped tile. -/
def Dev.tileWord (d : Dev) (m : List Host.Cell) (u lidx w : Nat) : Word :=
  match (d.un u).tiles.find? (fun t => decide (t.lidx = lidx)) with
  | some t => BitVec.ofNat 32 (leNat (memRead m (tileAddr t.ptile + 4 * w) 4))
  | none => 0

/-- A two-word value of a tile, low word first. -/
def Dev.tileDW (d : Dev) (m : List Host.Cell) (u lidx w : Nat) : Nat :=
  (d.tileWord m u lidx w).toNat + (d.tileWord m u lidx (w + 1)).toNat * 2 ^ 32

/-- Write a tile with a new tag; it is PENDING, and DIRTY when its change must be checkpointed (R77, R78). -/
def Dev.tileWrite (t : Nat) (bs : List Byte) (dirty : Bool) (dm : Dev × List Host.Cell) : Dev × List Host.Cell :=
  let d := dm.1.wf R.CLUS_TAGLO_CRC (crc32c bs) (t / 512) (t % 512)
  let d := d.wf R.CLUS_TAGHI_PENDING 1 (t / 512) (t % 512)
  (if dirty then d.wf R.CLUS_TAGHI_DIRTY 1 (t / 512) (t % 512) else d, memPut (tileAddr t) bs dm.2)

/-- Commit the changed shadows of a unit's STATE tiles (R77). -/
def Dev.commitTiles (u : Nat) (tiles : List (Nat × List Byte)) (dm : Dev × List Host.Cell) : Dev × List Host.Cell :=
  tiles.foldl (fun dm w =>
    match (dm.1.un u).tiles.find? (fun t => decide (t.lidx = w.1) && decide (t.cls = 3)) with
    | some t => Dev.tileWrite t.ptile (slice w.2 0 1024) true dm
    | none => dm) dm

/-- Bit errors that strike tile memory. -/
def Dev.strike (d : Dev) (flips : List (Nat × Byte)) (m : List Host.Cell) : List Host.Cell :=
  flips.foldl (fun m f =>
    if tileAddr 0 ≤ f.1 ∧ f.1 < tileAddr (d.nUnits * 32) then memSet f.1 (memGet m f.1 ^^^ f.2) m else m) m

/-- A tile's tag agrees with its content (R76). -/
def Dev.tileOk (d : Dev) (m : List Host.Cell) (t : Nat) : Bool :=
  decide (crc32c (memRead m (tileAddr t) 1024) = d.rf R.CLUS_TAGLO_CRC (t / 512) (t % 512))

/-- The first STATE tile that a unit wrote in its cycle and whose tag does not agree with its content (R77): its shadow is filled from the tile
at the first write and the tag is checked in the same pass. -/
def Dev.shadowBad (d : Dev) (m : List Host.Cell) (u : Nat) (tiles : List (Nat × List Byte)) : Option TileMap :=
  (List.range 32).findSome? (fun i => (d.un u).tiles.find? (fun t => decide (t.lidx = i) && decide (t.cls = 3) &&
    tiles.any (fun w => decide (w.1 = i)) && !d.tileOk m t.ptile))

/-- The first tile in logical order that fails the verification at a start token (R76). -/
def Dev.failing (d : Dev) (m : List Host.Cell) (u : Nat) : Option TileMap :=
  (List.range 32).foldl (fun a i =>
    if a.isSome then a
    else (d.un u).tiles.find? (fun t => decide (t.lidx = i) &&
      (t.verify || d.flag R.CLUS_TAGHI_PENDING (t.ptile / 512) (t.ptile % 512)) && !d.tileOk m t.ptile)) none

/-- Tiles of a unit whose verification passed: their PENDING marks go, and a failure of theirs is a first one again (R76, R79). -/
def Dev.passed (u : Nat) (p : TileMap → Bool) (d : Dev) : Dev :=
  let d := ((d.un u).tiles.filter p).foldl (fun d t => d.wf R.CLUS_TAGHI_PENDING 0 (t.ptile / 512) (t.ptile % 512)) d
  d.unUp u (fun x => { x with tiles := x.tiles.map (fun t => if p t then { t with again := false } else t) })

/-- The whole verification of a unit passed. -/
def Dev.verified (u : Nat) (d : Dev) : Dev := d.passed u (fun _ => true)

/-- A tile's initial content in the current area (R58). -/
def Dev.tileImage (d : Dev) (t : TileMap) : List Byte := slice d.cfg.image t.img 1024

/-- The last complete checkpoint that holds a unit (R35, R79). -/
def Dev.ckptOf (d : Dev) (u : Nat) : Option Ckpt :=
  let x := d.un u
  let c := (Tbl.getD {} d.ckpt (if x.event then 8 else x.cad)).complete
  match c with
  | some c => if (Tbl.get? c.sems u).isSome then some c else none
  | none => none

/-! ### Initial contents (R136, R161, R201, R264) -/

/-- The units of the loaded Last are mapped (R15, R18, R90): not in EMPTY, not at step 9 of a load, not from the entry of a core reset
until its resume has mapped them again. -/
def Dev.mapped (d : Dev) : Bool :=
  d.last.isSome && decide (d.lastState ≠ lsEMPTY) && d.rst.epi.isNone && !d.rst.dark &&
    (match d.load with | some l => decide (l.step ≠ 9) | none => true)

/-- The declared safe value of an output as a Q1.31 value (R258); an internal signal's is zero, and so is that of an analogue output whose
safe state is disconnected, for which the spec states no number (log entry 84). -/
def Dev.safeOf (d : Dev) (sig : Nat) : Word :=
  match d.cfg.io.find? (fun e => e.body.outKey.map Prod.snd = some sig) with
  | some { body := .aout n _ _, .. } =>
    if d.flag R.AOUT_CHn_CFG_SAFEZ 0 n then 0
    else if d.rf R.AOUT_CHn_CFG_RANGE 0 n < 2 then BitVec.ofNat 32 (d.rf R.AOUT_CHn_CFG_SAFE 0 n * 2 ^ 12)
    else BitVec.ofNat 32 (d.rf R.AOUT_CHn_CFG_SAFE 0 n * 2 ^ 11)
  | some { body := .pwm n _ per h _, .. } =>
    if d.flag R.PWM_CHn_CFG_SAFELOW 0 n ∨ per = 0 then 0
    else (satW (roundDiv ((h * 2 ^ 31 : Nat) : Int) per.toNat)).w
  | some { body := .dio n _ _, .. } => BitVec.ofNat 32 (d.rf R.DIO_PINn_CFG_SAFE 0 n)
  | _ => 0

/-- The partition of a LOGIC unit. -/
def Dev.partOf (d : Dev) (u : Nat) : Nat := d.kdata u 0

def Dev.partCfg (d : Dev) (p : Nat) : PartCfg := (d.cfg.parts.find? (fun c => decide (c.part = p))).getD { part := p }

/-- The segments of a partition, ascending. -/
def Dev.segs (d : Dev) (p : Nat) : List Nat := (d.kindUnits 2).filter (fun u => decide (d.partOf u = p))

/-- Segments of its cyclic task. -/
def Dev.cycSegs (d : Dev) (p : Nat) : List Nat := (d.segs p).filter (fun u => !(d.un u).event)

/-- The lead segment (R142). -/
def Dev.lead (d : Dev) (p : Nat) : Nat := ((d.cycSegs p ++ d.segs p).head?).getD 0

/-- The cadence of a partition's cyclic task. -/
def Dev.partCad (d : Dev) (p : Nat) : Option Nat := (d.cycSegs p).head?.map (fun u => (d.un u).cad)

/-- The content of a unit after a Last load. -/
def Dev.initSem (d : Dev) (u : Nat) : UnitSem :=
  let num {α : Type} (l : List α) : Tbl α := (List.range l.length).zip l
  match (d.un u).kind with
  | 1 => { loops := num ((d.loopsOf u).map (fun c => loopInit c (d.safeOf c.out))) }
  | 2 => { objs := startObjs (d.partCfg (d.partOf u)) u false {} }
  | 3 => { axes := num ((d.axesOf u).map (fun _ => ({} : AxisSt))) }
  | 4 => { seqs := num ((d.seqsOf u).map seqInit) }
  | 5 => { engs := num ((d.engsOf u).map (fun _ => ({} : EngSt))) }
  | _ => {}

/-- REFUSED and FAULTS of `UNIT.AX_CNT`, REFUSED and STEPS of `UNIT.SQ_CNT` have no reach C: a restore leaves them (R195, R221). -/
def UnitSem.keepCounts (s old : UnitSem) : UnitSem :=
  { s with axes := Tbl.mapVals (fun i a => let o := Tbl.getD {} old.axes i; { a with refused := o.refused, faults := o.faults }) s.axes,
           seqs := Tbl.mapVals (fun i a => let o := Tbl.getD {} old.seqs i; { a with refused := o.refused, stepsTaken := o.stepsTaken }) s.seqs }

/-! ### What a unit delivers and reads (R30, R33, R68, R511) -/

/-- The signals a unit writes. -/
def Dev.unitSigs (d : Dev) (u : Nat) : List Nat := d.cfg.writes (d.un u).kind u

/-- The unit whose route value a unit reads for a signal. -/
def Dev.routeSrc (d : Dev) (u sig : Nat) : Option Nat :=
  (d.cfg.routes.find? (fun r => decide (r.dst = u) && (d.unitSigs r.src).contains sig)).map (·.src)

/-- The route value of a signal for a reader in cycle k: the producer's of this cycle, or its last one with HELD (R511). -/
def UnitSt.routeVal (p : UnitSt) (k sig : Nat) : SigVal :=
  match Tbl.get? p.routeV sig with
  | some v => if p.done && decide (p.cycle = k) then v else v.asHeld
  | none => { val := 0, st := mkStatus false 0 true false false false }

/-- A signal as a unit reads it: over a route, else as visible at its token; a forced signal reads its forced value. -/
def Dev.inSig (d : Dev) (u sig : Nat) : SigVal :=
  let x := d.un u
  let v := Tbl.getD {} x.vis sig
  if v.bit stFORCED then v
  else match d.routeSrc u sig with
    | some p => (d.un p).routeVal x.cycle sig
    | none => v

/-- A producer is still at work in the cycle. -/
def Dev.working (d : Dev) (u p : Nat) : Bool :=
  let y := d.un p
  decide (y.run = 1) && !y.late && !y.done && !y.event && decide (y.cad = (d.un u).cad) && decide (y.cycle = (d.un u).cycle)

/-- The program of a segment, as instruction words (R148). -/
def Dev.progOf (d : Dev) (u : Nat) : List Word := Tbl.getD [] (d.partCfg (d.partOf u)).progs u

/-- A segment's program reads an object that another segment owns (R144). -/
def Dev.readsSeg (d : Dev) (u s : Nat) : Bool :=
  let c := d.partCfg (d.partOf u)
  (d.progOf u).any (fun w => match (insnObj w).bind (fun k => findObj c k.1 k.2) with
    | some o => decide (o.owner = s) && decide (o.mapTo ≠ 1)
    | none => false)

/-- Everything a unit reads is present: route producers have completed or are released, converter words stand in the rim
(R29, R30, R144). -/
def Dev.ready (d : Dev) (u : Nat) : Bool :=
  let x := d.un u
  x.smpWait.isEmpty && (x.event ||
  (!d.cfg.routes.any (fun r => decide (r.dst = u) && d.working u r.src) &&
   !(decide (x.kind = 2) && (d.cycSegs (d.partOf u)).any (fun s => decide ((d.un s).order < x.order) && d.working u s && d.readsSeg u s))))

/-- Signals that a unit reads, as far as converter inputs deliver them, with their channels (R29). -/
def Dev.ainsRead (d : Dev) (u : Nat) : List Nat :=
  let ains := d.cfg.io.filterMap (fun e => match e.body with | .ain n _ _ _ _ s => some (n, s) | _ => none)
  let rd := d.cfg.reads (d.un u).kind u
  ((ains.filter (fun a => rd.contains a.2)).map Prod.fst ++ ((d.condsOf u).filter (·.sample)).map (·.src)).eraseDups

/-- At its token a unit takes the words that stand in the rim and waits for those on their way (R29, R229). -/
def Dev.takeSamples (u : Nat) (d : Dev) : Dev :=
  let x := d.un u
  let ns := d.ainsRead u
  let wait := ns.filter (fun n => (d.adcCh (n / 16) (n % 16)).inFlight)
  let taken : Tbl (Nat × Nat) := (ns.filter (fun n => !wait.contains n)).foldl (fun t n => Tbl.put n (d.rimWord x n) t) []
  d.setUn u { x with smpWait := wait, smp := taken }

/-! ### Condition units (R74) -/

/-- The IOMAP entry of a converter input: its gains, offset and signal. -/
def Dev.ainEntry (d : Dev) (n : Nat) : Option (List Word × Word × Nat) :=
  d.cfg.io.findSome? (fun e => match e.body with | .ain i _ _ g o sig => if i = n then some (g, o, sig) else none | _ => none)

/-- The sample word of a mapped input as a signal, as the unit took it; an input that was forced when the word was presented to it reads its forced
value (R167, R168), and one that an absent resource leaves out is ABSENT (R43). -/
def Dev.sampleSig (d : Dev) (u n : Nat) : SigVal :=
  let w := (Tbl.getD (0, 0) (d.un u).smp n).1
  let raw : SigVal := if d.cfg.absAins.contains n then absentSig
    else { val := BitVec.ofNat 32 (w / 256 * 256), st := BitVec.ofNat 8 (w % 256 / 16 * 16) }
  match d.ainEntry n with
  | some e =>
    let v := Tbl.getD {} (d.un u).vis e.2.2
    if v.bit stFORCED then v else raw
  | none => raw

/-- Gain and offset of a mapped input (R74, R229): a converter sample takes the gain of its side word's RANGE and the offset from its
IOMAP entry. -/
def Dev.condScale (d : Dev) (u : Nat) (c : CondIn) : CondIn :=
  if c.sample then
    match d.ainEntry c.src with
    | some e => { c with gain := nth 0 e.1 (bitsOf (Tbl.getD (0, 0) (d.un u).smp c.src).2 0 2), offset := e.2.1 }
    | none => c
  else c

/-- One mapped input (R74): the value delivered, the last valid value after it, saturation. -/
def condInput (c : CondIn) (x last : SigVal) : SigVal × SigVal × Bool :=
  if x.valid then
    let a := scaleSig c.gain x.val c.offset
    let b := c.tab.apply a.w
    let y : SigVal := ({ x with val := b.w } : SigVal).setBit stSAT (a.sat || b.sat)
    (y, y, a.sat || b.sat)
  else ({ x with val := last.val }, last, false)

/-- Evaluate a COND unit. A value held at a table's end sets SAT of the signal by R75; that it also sets `UNIT.STAT.SAT` is the model's reading
of R90 (log entry 85). -/
def Dev.evalCond (u : Nat) (d : Dev) : Dev :=
  let r := (d.condsOf u).foldl (fun (a : List Staged × Tbl SigVal × Bool) c =>
    let x := if c.sample then d.sampleSig u c.src else d.inSig u c.src
    let e := condInput (d.condScale u c) x (Tbl.getD {} a.2.1 c.out)
    (a.1 ++ [({ sig := c.out, v := e.1 } : Staged)], Tbl.put c.out e.2.1 a.2.1, a.2.2 || e.2.2)) ([], (d.un u).work.last, false)
  let f (x : UnitSt) : UnitSt := { x with staged := x.staged ++ r.1, work := { x.work with last := r.2.1 } }
  let d := d.unUp u f
  if r.2.2 then d.wf R.UNIT_STAT_SAT 1 u else d

/-! ### Loops (R116 to R139) -/

/-- The output latch of a loop's output, once it has taken a value of this Last (R126). -/
def Dev.latchOf (d : Dev) (u sig : Nat) : Option Word :=
  match d.cfg.io.find? (fun e => e.body.outKey.map Prod.snd = some sig) with
  | some e => (match e.body.outKey with
    | some (key, _) => if (d.outSt key).shows = 0 ∨ (d.outSt key).old then none
        else if (d.outSt key).shows = 2 then some (d.safeOf sig) else some (d.outSt key).val
    | none => none)
  | none => (Tbl.get? (d.un u).vis sig).map (·.val)

/-- What loop l of a unit reads. -/
def Dev.loopEnv (d : Dev) (m : List Host.Cell) (u l : Nat) (c : LoopCfg) : LoopEnv :=
  let req := d.kdata u 1
  { sig := d.inSig u,
    word := fun a => d.tileWord m u (a / 256) (a % 256),
    tap := fun t =>
      let s := nth {} (d.loopsOf t.unit) t.loop
      Tbl.getD {} (d.un u).vis (if t.what = 0 then s.out else if t.what = 1 then s.sPv else s.sErr),
    latch := d.latchOf u c.out, safe := d.safeOf c.out, ovr3 := false, skipped := (d.un u).skipped,
    req := d.tileWord m u req (2 * l), mv := d.tileWord m u req (2 * l + 1) }

/-- The tiles that hold a loop's coefficient words, and its model records. -/
def LoopCfg.coefTiles (c : LoopCfg) : List Nat :=
  let n := c.sets * c.aws.length * 8
  if n = 0 then [] else (List.range ((c.coefAt + n - 1) / 256 - c.coefAt / 256 + 1)).map (· + c.coefAt / 256)
def LoopCfg.modelTiles (c : LoopCfg) : List Nat :=
  let n := c.models.length * 8
  if n = 0 then [] else (List.range ((c.modelAt + n - 1) / 256 - c.modelAt / 256 + 1)).map (· + c.modelAt / 256)

/-- `UNIT.LP_EDIT` at a completion (R135). -/
def Dev.editMask (d : Dev) (u : Nat) : Nat :=
  let cs := d.loopsOf u
  let has (t : Nat) (i : Nat) : Bool := (nth {} cs i).coefTiles.contains t
  (List.range 32).foldl (fun a t =>
    let ls := (List.range cs.length).filter (has t)
    a + b2n (!ls.isEmpty && ls.all (fun i => (Tbl.getD {} (d.un u).work.loops i).edit)) * 2 ^ t) 0

/-- Evaluate a LOOP unit: its loops in ascending index (R119). -/
def Dev.evalLoops (u : Nat) (m : List Host.Cell) (d : Dev) : Dev :=
  let cs := d.loopsOf u
  (List.range cs.length).foldl (fun d l =>
    let c := nth {} cs l
    let x := d.un u
    let r := loopEval l c (d.loopEnv m u l c) (Tbl.getD {} x.work.loops l)
    let w : UnitSem := { x.work with loops := Tbl.put l r.st x.work.loops }
    let d := (d.setUn u { x with staged := x.staged ++ r.staged, work := w }).raiseAll u r.evs
    if r.sat then d.wf R.UNIT_STAT_SAT 1 u else d) d

/-! ### Logic (R142 to R163) -/

/-- What a segment reads outside itself. -/
def Dev.logicEnv (d : Dev) (u : Nat) : LogicEnv :=
  let p := d.partOf u
  let x := d.un u
  { cfg := d.partCfg p, unit := u, strict := (d.un (d.lead p)).base.part.strict,
    sig := fun s => Tbl.getD {} x.vis s,
    typ := fun s => ((d.cfg.sigs.find? (fun r => decide (r.id = s))).map (·.typ)).getD 0,
    force := fun s => match x.scan with | some sc => (sc.frc.find? (fun e => decide (e.1 = s))).map Prod.snd | none => d.forceOf s,
    below := fun s => !x.event && (d.cycSegs p).contains s && decide ((d.un s).order < x.order),
    objsOf := fun s => if (d.un s).done then (d.un s).work.objs else (d.un s).base.objs }

/-- Change a partition's state. -/
def Dev.partUp (p : Nat) (f : PartSt → PartSt) (d : Dev) : Dev :=
  let g (m : UnitSem) : UnitSem := { m with part := f m.part }
  d.unUp (d.lead p) (UnitSt.both g)

def Dev.partSt (d : Dev) (p : Nat) : PartSt := (d.un (d.lead p)).base.part

/-- The signals and outputs a partition writes. -/
def Dev.partSigs (d : Dev) (p : Nat) : List Nat := ((d.segs p).map d.unitSigs).flatten

/-- Entries of outputs that a partition owns. -/
def Dev.partOwns (d : Dev) (p : Nat) (e : IoEntry) : Bool :=
  match e.body.outKey with
  | some (_, sig) => (d.partSigs p).contains sig
  | none => false

/-- A partition stops (R160, R163): its outputs take their safe values, those of cadence `now` in this tick; its exported
signals keep their last value with VALID clear, and what waited to be shown under their names is gone; scans in progress end. -/
def Dev.partHalt (p st : Nat) (now : Option Nat) (d : Dev) : Dev :=
  let own := d.partOwns p
  let d := d.wantSafe own
  let d := match now with | some n => d.safeNow (fun e => own e && decide (e.cad = some n)) | none => d
  let d : Dev := { d with sigWait := d.sigWait.filter (fun e => !(d.partSigs p).contains e.1) }
  let d := (d.partSigs p).foldl (fun d s => match Tbl.get? d.sigs s with
    | some v => { d with sigs := Tbl.put s (v.setBit stVALID false) d.sigs }
    | none => d) d
  let stop (x : UnitSt) : UnitSt :=
    { x with scan := none, staged := [], work := x.base, routeV := Tbl.mapVals (fun _ v => v.setBit stVALID false) x.routeV }
  let d := (d.segs p).foldl (fun d u => d.unUp u stop) d
  d.partUp p (fun s => { s with st := st, stopPend := false })

/-- The watchdog (R163): WDSTOP with LOGIC_WATCHDOG of partition, segment and WHY. -/
def Dev.watchdog (p seg why : Nat) (now : Option Nat) (d : Dev) : Dev :=
  let d := (d.partHalt p 2 now).partUp p (fun s => { s with why := why })
  d.raise Ev.LOGIC_WATCHDOG seg [BitVec.ofNat 8 p, BitVec.ofNat 8 (d.kdata seg 1), BitVec.ofNat 8 why]

/-- A start (R161, R162). -/
def Dev.partStart (warm : Bool) (p : Nat) (d : Dev) : Dev :=
  let cfg := d.partCfg p
  let d := (d.segs p).foldl (fun d u =>
    let g (m : UnitSem) : UnitSem :=
      { m with objs := startObjs cfg u warm m.objs, part := { m.part with firstPend := true, resumedPend := false } }
    d.unUp u (fun x => let y := x.both g; { y with shown := y.base.objs, scan := none })) d
  d.partUp p (fun s => { s with st := 1, strict := true, left := cfg.strictScans, scans := 0, stopPend := false })

/-- A completed scan, or item of a partition without a cyclic task, counts (R162, R170). -/
def Dev.scanCount (p : Nat) (d : Dev) : Dev :=
  d.partUp p (fun s =>
    if s.st ≠ 1 then s
    else
      let l := s.left - 1
      { s with scans := (s.scans + 1) % 2 ^ 32, left := if s.strict && !s.test then l else s.left,
               strict := s.strict && (s.test || decide (l ≠ 0)) })

/-- The segment that owns the logic object behind a signal (R168). -/
def Dev.objOwner (d : Dev) (id : Nat) : Option Nat :=
  ((d.cfg.parts.map (·.objs)).flatten.find? (fun o => decide (o.dirSig = some id))).map (·.owner)

/-- The forces that a scan reads (R167, R168): on the segment's own objects those of its mirror, on any other object those that act since the last
latch of its signal. -/
def Dev.scanForces (d : Dev) (u : Nat) : List (Nat × Word) :=
  d.forceTab.filterMap (fun e => if d.objOwner e.2.id = some u then (d.forceOf e.2.id).map (fun w => (e.2.id, w)) else none) ++
    d.forced.filter (fun e => decide (d.objOwner e.1 ≠ some u))

/-- A scan opens at a token or a hand-over (R147, R155): registers clear, objects of other segments as latched, timers
advanced to the scan time. T_prev does not carry over an on-line exchange: the first scan of a new program advances its timers by zero, the model's
choice, R155 does not speak of it (log entry 116). -/
def Dev.scanOpen (u ts : Nat) (item : Option Item) (d : Dev) : Dev :=
  let p := d.partOf u
  let x := d.un u
  if (d.partSt p).st ≠ 1 then d.setUn u { x with scan := none }
  else
    let first := x.base.part.firstPend
    let ws : List Word := match item with
      | some it =>
        let bs := (it.payload ++ zeros 20).take 20 ++ leBytes 8 it.stamp ++ leBytes 2 (it.flow + 4096 * it.level)
          ++ leBytes 2 it.origin
        let w (i : Nat) : Word := BitVec.ofNat 32 (le bs (4 * i) 4)
        [w 0, w 1, w 2, w 3, w 4, w 5, w 6, BitVec.ofNat 32 ((it.flow + 4096 * it.level) % 2 ^ 16 + it.origin % 2 ^ 16 * 2 ^ 16)]
      | none => []
    let sc : ScanSt := { ended := (d.progOf u).isEmpty, first := first, resumed := x.base.part.resumedPend, event := item.isSome, item := ws,
                         vis := ((d.segs p).filter (· ≠ u)).map (fun s => (s, (d.un s).shown)),
                         frc := d.scanForces u }
    let tp := if first then ts else x.base.tPrev
    let w : UnitSem := { x.base with objs := timerPrologue tp ts x.base.objs, tPrev := ts,
                                     part := { x.base.part with firstPend := false, resumedPend := false } }
    d.setUn u { x with scan := some sc, work := w }

/-- What a segment exports when its scan ends: its own variables, an input-mapped one with the value of its mapped signal. -/
def Dev.evalLogic (u : Nat) (d : Dev) : Dev :=
  let x := d.un u
  if x.scan.isNone then d
  else
    let own := (d.partCfg (d.partOf u)).objs.filter (fun o => decide (o.owner = u) && decide (o.kind < 2))
    let val (o : ObjCfg) : Word :=
      if o.mapTo = 1 then (if o.kind = 0 then BitVec.ofNat 32 (b2n (decide ((Tbl.getD {} x.vis o.sig).val ≠ 0))) else (Tbl.getD {} x.vis o.sig).val)
      else if o.kind = 0 then BitVec.ofNat 32 (b2n (Tbl.getD false x.work.objs.bits o.idx))
      else Tbl.getD 0 x.work.objs.words o.idx
    let st := own.map (fun o => (((if o.mapTo = 2 then [o.sig] else []) ++ o.dirSig.toList).eraseDups).map (fun g => stg g (val o) stOk))
    d.setUn u { x with staged := x.staged ++ st.flatten, scan := none }

/-! ### Axes (R172 to R194) -/

/-- A 32-bit position read from another unit, taken as the value nearest the last one read (R183). -/
def nearPos (prev : Int) (w : Word) : Int := extPos prev w.toNat

/-- The pin behind a bit signal: its own, or the one that a COND unit forms it from. -/
def Dev.pinOf (d : Dev) (g : Nat) : Option Nat :=
  let own (g : Nat) : Option Nat := d.cfg.io.findSome? (fun e => match e.body with | .dio p _ q => if q = g then some p else none | _ => none)
  (own g).orElse (fun _ => (d.cfg.conds.map Prod.snd).flatten.findSome? (fun c => if decide (c.out = g) && !c.sample then own c.src else none))

/-- A captured position (R188): the edge of the home or limit switch's pin lies between two boundaries, whose latched setpoints are those staged
one cycle before each; on a modulo axis the way between them is the shorter one. An edge older than the setpoints kept gives none. -/
def Dev.captured (d : Dev) (u : Nat) (c : AxisCfg) (s : AxisSt) : Option Int :=
  let sw := if c.homing = 5 then c.limPos else if c.homing = 6 then c.limNeg else c.homeSw
  match (sw.bind d.pinOf).bind (fun n => (d.pin n).te) with
  | none => none
  | some (ns, frac) =>
    let x := d.un u
    let old := (s.hist.getLast?.map Prod.fst).getD x.cycle
    ((List.range (x.cycle - old)).find? (fun j => decide (d.cadNs x.cad (x.cycle - j - 1) ≤ ns) && decide (ns < d.cadNs x.cad (x.cycle - j)))).map (fun j =>
      let k := x.cycle - j
      let t0 := d.cadNs x.cad (k - 1)
      let s0 := histAt s.hist (k - 2)
      let w0 := histAt s.hist (k - 1) - s0
      let w := if 0 < c.modulus then w0 - c.modulus * roundDiv w0 c.modulus.toNat else w0
      s0 + roundDiv ((((ns - t0) * 2 ^ 32 + frac : Nat) : Int) * w) ((d.cadNs x.cad k - t0) * 2 ^ 32))

/-- A drive's latched position, when LATCHED is set. -/
def Dev.latched (d : Dev) (u : Nat) (c : AxisCfg) (s : AxisSt) : Option Int :=
  match c.statIn, c.latchIn with
  | some g, some l =>
    let v := d.inSig u g
    let w := d.inSig u l
    if v.valid && bitAt v.val.toNat 2 && w.valid then some (extPos (s.p - s.aOff) w.val.toNat + s.aOff) else none
  | _, _ => none

/-- What axis a of a unit reads, with the position and MODULUS of its master. -/
def Dev.axisEnvM (d : Dev) (m : List Host.Cell) (u a : Nat) (c : AxisCfg) (s : AxisSt) (master : Int × Int) : AxisEnv :=
  let q (w : Nat) : Nat := d.tileDW m u 5 (16 * a + w)
  let i (w : Nat) : Int := toS 64 (q w)
  let ap := match c.aposIn with
    | some g => if (d.inSig u g).valid then some (d.inSig u g).val.toNat else none
    | none => none
  let fault := match c.statIn with | some g => bitAt (d.inSig u g).val.toNat 1 && (d.inSig u g).valid | none => false
  let g := c.destNo
  { k := (d.un u).cycle, sig := d.inSig u, cmdW := d.tileWord m u 5 (16 * a), p0 := i 1, p1 := i 3, rv := i 5, ra := i 7,
    rj := i 9, p0raw := q 1, m := master.1, mMod := master.2, apos := ap, driveFault := fault,
    capture := d.captured u c s, index := d.latched u c s, hold3 := (d.un u).ovr3,
    short := decide (c.dest = 3) && (d.flag R.CHOP_CH_STAT_SHORT_A 0 g || d.flag R.CHOP_CH_STAT_SHORT_B 0 g ||
      !d.flag R.PWR_SUPPLY_VDDA_OK),
    backlogBig := (decide (c.dest = 2) && (d.step g).bigLag) || (decide (c.dest = 3) && (d.chop g).steps.bigLag),
    stepLag := (decide (c.dest = 2) && decide ((d.step g).backlog ≠ 0)) ||
      (decide (c.dest = 3) && decide ((d.chop g).steps.backlog ≠ 0)),
    forced := (Tbl.get? d.forced c.sSpos).isSome }

/-- The virtual axis of a unit: its position in this cycle and its MODULUS (R183). -/
def Dev.virtMaster (d : Dev) (m : List Host.Cell) (u : Nat) : Int × Int :=
  let cs := d.axesOf u
  match (List.range cs.length).find? (fun i => decide ((nth {} cs i).kind = 2)) with
  | some i =>
    let c := nth {} cs i
    let s := Tbl.getD {} (d.un u).work.axes i
    ((axisEval c (d.axisEnvM m u i c s (0, 0)) s).1.p, c.modulus)
  | none => (0, 0)

/-- The master an axis reads (R183): position and MODULUS. -/
def Dev.masterPos (d : Dev) (m : List Host.Cell) (u : Nat) (c : AxisCfg) (s : AxisSt) : Int × Int :=
  if c.masterVirt then d.virtMaster m u
  else
    match (d.ranked 3)[c.masterAxis / 16]? with
    | some v =>
      let mc := nth {} (d.axesOf v) (c.masterAxis % 16)
      let g := d.inSig u (if c.masterAct then mc.sApos else mc.sSpos)
      (nearPos (mPrevOf s) g.val, mc.modulus)
    | none => (0, 0)

/-- What axis a of a unit reads. -/
def Dev.axisEnv (d : Dev) (m : List Host.Cell) (u a : Nat) (c : AxisCfg) (s : AxisSt) : AxisEnv :=
  d.axisEnvM m u a c s (d.masterPos m u c s)

/-- The output stage of an axis that a drive fault or a short has put in FAULT is off at once (R189). -/
def Dev.axisCut (c : AxisCfg) (s : AxisSt) (d : Dev) : Dev :=
  if c.dest = 3 ∧ s.st = 7 ∧ s.enOut = false then (d.setChop c.destNo { d.chop c.destNo with on := false }).chopShow c.destNo else d

/-- A backlog fault has been seen by its axis. -/
def Dev.lagSeen (c : AxisCfg) (d : Dev) : Dev :=
  let g := c.destNo
  if c.dest = 2 ∧ (d.step g).bigLag then { d with steps := Tbl.put g { d.step g with bigLag := false } d.steps }
  else if c.dest = 3 ∧ (d.chop g).steps.bigLag then
    let x := d.chop g
    d.setChop g { x with steps := { x.steps with bigLag := false } }
  else d

/-- Evaluate a PROFILE unit: its virtual axes first, since slaves read their position of this cycle (R183). -/
def Dev.evalAxes (u : Nat) (m : List Host.Cell) (d : Dev) : Dev :=
  let cs := d.axesOf u
  let idx := List.range cs.length
  let order := idx.filter (fun i => decide ((nth {} cs i).kind = 2)) ++ idx.filter (fun i => decide ((nth {} cs i).kind ≠ 2))
  let d := order.foldl (fun d a =>
    let c := nth {} cs a
    let x := d.un u
    let s := Tbl.getD {} x.work.axes a
    let r := axisEval c (d.axisEnv m u a c s) s
    let w : UnitSem := { x.work with axes := Tbl.put a { r.1 with sat := false, resetOk := false } x.work.axes }
    let d := ((d.setUn u { x with staged := x.staged ++ r.2, work := w }).lagSeen c).axisCut c r.1
    let d := if c.dest = 3 ∧ r.1.resetOk then d.chopReset c.destNo else d
    if r.1.sat then d.wf R.UNIT_STAT_SAT 1 u else d) d
  d.unUp u (fun x => { x with ovr3 := false })

/-! ### Sequencers (R198 to R221) -/

/-- A valid recipe is in the area of a sequencer. -/
def Dev.seqLoaded (d : Dev) (u s : Nat) : Bool := (Tbl.get? d.recipeParsed (d.seqNo u s)).isSome

/-- What sequencer s of a unit reads. -/
def Dev.seqEnv (d : Dev) (m : List Host.Cell) (u s : Nat) : SeqEnv :=
  let x := d.un u
  { k := x.cycle, pms := d.rf R.TIME_CADn_CFG_MULT 0 x.cad / 100, sig := d.inSig u, vis := fun g => Tbl.getD {} x.vis g,
    recipe := Tbl.get? d.recipeParsed (d.seqNo u s), cmdW := d.tileWord m u 2 (8 * s),
    startStep := (d.tileWord m u 2 (8 * s + 1)).toNat, kStart := d.tileDW m u 2 (8 * s + 2), shed := decide (4 ≤ x.shed) }

/-- Evaluate a SEQ unit. -/
def Dev.evalSeqs (u : Nat) (m : List Host.Cell) (d : Dev) : Dev :=
  let cs := d.seqsOf u
  (List.range cs.length).foldl (fun d i =>
    let x := d.un u
    let r := seqEval i (nth {} cs i) (d.seqLoaded u i) (d.seqEnv m u i) (Tbl.getD {} x.work.seqs i)
    let w : UnitSem := { x.work with seqs := Tbl.put i r.1.st x.work.seqs }
    let d := (d.setUn u { x with staged := x.staged ++ r.2, work := w }).raiseAll u r.1.evs
    if r.1.sat then d.wf R.UNIT_STAT_SAT 1 u else d) d

/-! ### Engines (R263 to R277) -/

/-- Evaluate a TRIG unit; answers what it writes to DRAM. -/
def Dev.evalTrig (u : Nat) (d : Dev) : Dev × List (Nat × List Byte) :=
  let cs := d.engsOf u
  let x := d.un u
  let env (c : EngCfg) : EngEnv :=
    { k := x.cycle, tk := d.cadNs x.cad x.cycle, tPrev := d.cadNs x.cad (x.cycle - 1), tok := x.tok, tokPrev := x.tokPrev,
      vis := fun s => Tbl.getD {} x.vis s, hits := d.srcHits, dmin := max c.dMin (d.rf R.ACQ_SHED_DMIN),
      shed := d.rf R.ACQ_SHED_DMIN, now := d.time.cnt }
  let r := (List.range cs.length).foldl (fun a e => Dev.engEval u e (nth {} cs e) (env (nth {} cs e)) a) (d, [])
  let d := r.1
  -- a TRIG unit that has not completed its cycle still needs the assertions before its token
  let low := (d.kindUnits 5).foldl (fun a v =>
    let y := d.un v
    if v = u ∨ y.run = 2 then a else min a (if y.done then y.tok else y.tokPrev)) x.tok
  ({ d with srcHits := d.srcHits.filter (fun h => decide (low < h.2.1)) }, r.2)

/-! ### One evaluation and its commit (R66, R67, R77) -/

/-- A LOGIC unit whose evaluation runs no scan: the fields of R170 go on reading zero after a core reset. -/
def Dev.noScan (d : Dev) (u : Nat) : Bool := decide ((d.un u).kind = 2) && (d.un u).scan.isNone

/-- Evaluate a unit by its kind and commit: staged results, route values, STATE tiles, typed content. -/
def Dev.evalUnit (u : Nat) (tiles : List (Nat × List Byte)) (dm : Dev × List Host.Cell) : Dev × List Host.Cell :=
  let d := dm.1
  let m := dm.2
  let dh : Dev × List (Nat × List Byte) := match (d.un u).kind with
    | 1 => (d.evalLoops u m, [])
    | 2 => (d.evalLogic u, [])
    | 3 => (d.evalAxes u m, [])
    | 4 => (d.evalSeqs u m, [])
    | 5 => d.evalTrig u
    | 6 => (d.evalCond u, [])
    | _ => (d, [])
  let m := dh.2.foldl (fun m h => memPut h.1 h.2 m) m
  let dm := Dev.commitTiles u tiles (dh.1, m)
  let x := dm.1.un u
  let rv := x.staged.foldl (fun (a : Tbl SigVal) s => Tbl.put s.sig s.v a) x.routeV
  let still := x.resumed && d.noScan u
  (dm.1.setUn u { x with base := x.work, engShown := x.work.engs, routeV := rv, done := true, skipped := false, resumed := still }, dm.2)

/-- Loops or axes of the unit are still held after three overruns (R34). -/
def Dev.stillHeld (d : Dev) (u : Nat) : Bool :=
  let s := (d.un u).base
  s.loops.any (fun l => l.2.holdDev && decide (l.2.hcause = 1)) || s.axes.any (fun a => decide (a.2.st = 6))

/-- The slack registers (R31, R90). -/
def Dev.slack (u : Nat) (s : Int) (d : Dev) : Dev :=
  let c := clampI (-(2 ^ 31)) (2 ^ 31 - 1) s
  let d := d.wf R.UNIT_SLACK_LAST_SLACK (ofS 32 c) u
  if c < toS 32 (d.rf R.UNIT_SLACK_MIN_SLACK u) then d.wf R.UNIT_SLACK_MIN_SLACK (ofS 32 c) u else d

/-- A slack alarm (R31, R81, R437): the planner runs; below half the guard a boost is requested. -/
def Dev.slackAlarm (u : Nat) (s : Int) (d : Dev) : Dev :=
  let g := rgnOf u
  let guard : Int := (d.rf R.RGN_CAD_GUARD g * 5 : Nat)
  let d := (d.raise Ev.SLACK_ALARM u (leBytes 2 u ++ leBytes 8 (d.un u).cycle ++ leBytes 4 (ofS 32 s))).planTrigger g
  if 2 * s < guard then d.boostAsk g else d

/-- Every unit of a cadence that is not FAULTED has completed its cycle. -/
def Dev.cadDone (d : Dev) (n : Nat) : Bool :=
  (d.cadUnits n).all (fun u => (d.un u).done || decide ((d.un u).run = 2))

/-- DIRTY tiles of some units, with their content (R35). -/
def Dev.dirtyTiles (d : Dev) (m : List Host.Cell) (us : List Nat) : List (Nat × List Byte) :=
  (us.map (fun u => ((d.un u).tiles.filter (fun t => decide (1 < t.cls) && decide ((d.un u).run ≠ 2) &&
      d.flag R.CLUS_TAGHI_DIRTY (t.ptile / 512) (t.ptile % 512))).map
    (fun t => (32 * u + t.lidx, memRead m (tileAddr t.ptile) 1024)))).flatten

/-- The copy of a cycle starts when its last unit completes (R35): tiles and contents as they are now. Event-driven units
ride with the copy of any cadence (log entry 23). -/
def Dev.ckptStart (n : Nat) (m : List Host.Cell) (d : Dev) : Dev :=
  let us := d.cadUnits n ++ d.evUnits
  let live := us.filter (fun u => decide ((d.un u).run ≠ 2))
  let k := (Tbl.getD {} d.time.cads n).k
  let c : Ckpt := { k := k, tiles := d.dirtyTiles m us,
                    sems := live.foldl (fun (a : Tbl UnitSem) u => Tbl.put u (d.un u).base a) [] }
  { d with ckpt := Tbl.upd {} n (fun s => { s with pend := some c, copied := false }) d.ckpt }

/-- A complete checkpoint takes the changed tiles over the ones it held. -/
def Ckpt.merge (old : Option Ckpt) (c : Ckpt) : Ckpt :=
  match old with
  | none => c
  | some o =>
    let keep := o.tiles.filter (fun t => !c.tiles.any (fun x => decide (x.1 = t.1)))
    { k := c.k, tiles := keep ++ c.tiles, sems := c.sems.foldl (fun (a : Tbl UnitSem) e => Tbl.put e.1 e.2 a) o.sems }

/-- A checkpoint becomes complete: DIRTY goes where the tile has not changed since. -/
def Dev.ckptComplete (n : Nat) (m : List Host.Cell) (d : Dev) : Dev :=
  let s := Tbl.getD {} d.ckpt n
  match s.pend with
  | none => d
  | some c =>
    let d := c.tiles.foldl (fun d t =>
      match (d.un (t.1 / 32)).tiles.find? (fun x => decide (x.lidx = t.1 % 32)) with
      | some x => if memRead m (tileAddr x.ptile) 1024 = t.2 then d.wf R.CLUS_TAGHI_DIRTY 0 (x.ptile / 512) (x.ptile % 512) else d
      | none => d) d
    let ev := d.evUnits
    let isEv (u : Nat) : Bool := ev.contains u
    let cyc : Ckpt := { c with tiles := c.tiles.filter (fun t => !isEv (t.1 / 32)), sems := c.sems.filter (fun e => !isEv e.1) }
    let evc : Ckpt := { c with tiles := c.tiles.filter (fun t => isEv (t.1 / 32)), sems := c.sems.filter (fun e => isEv e.1) }
    let o8 := (Tbl.getD {} d.ckpt 8).complete
    let t := Tbl.put n { complete := some (Ckpt.merge s.complete cyc), pend := none, copied := false } d.ckpt
    { d with ckpt := Tbl.upd {} 8 (fun s => { s with complete := some (Ckpt.merge o8 evc) }) t }

/-- The operations of one evaluation of a unit, and of an item of a flow by its handler: N of the proof entry (R53, R434). -/
def Dev.proofN (d : Dev) (u : Nat) : Nat := ((d.cfg.proof.units.find? (fun x => decide (x.unit = u))).map (·.n)).getD 0
def Dev.handlerN (d : Dev) (u flow : Nat) : Nat :=
  ((d.cfg.proof.handlers.find? (fun h => decide (h.unit = u) && decide (h.flow = flow))).map (·.n)).getD 0

/-- A LOGIC unit's scan is still to end. -/
def UnitSt.scanning (x : UnitSt) : Bool := match x.scan with | some sc => !sc.ended | none => false

/-- UNIT_COMPLETION (R31, R67, R80): the unit commits, its slack is recorded; a late completion commits nothing. -/
def Dev.complete (u : Nat) (tiles : List (Nat × List Byte)) (dm : Dev × List Host.Cell) : Dev × List Host.Cell :=
  let d := dm.1
  let x := d.un u
  let s : Int := d.tickOf (d.cadNs x.cad (x.cycle + 1)) - d.time.cnt
  if x.run ≠ 1 ∨ x.event ∨ x.done then dm
  else if x.late then
    let d := (d.setUn u { x with late := false, staged := [], regw := [], scan := none, work := x.base }).setRun u 0
    (d.slack u s, dm.2)
  else if !d.ready u || x.scanning then dm
  else
    let scanned := x.scan.isSome
    let r := Dev.evalUnit u tiles dm
    let d := r.1.setRun u 0
    let g := rgnOf u
    let d := ((d.slack u s).wf R.UNIT_OVR_CNT_CONSEC 0 u).countOps g (d.proofN u)
    let d := d.wb R.UNIT_STAT_HOLDM (d.flag R.UNIT_STAT_HOLDM u && d.stillHeld u) u
    let d := if x.kind = 1 then d.wf R.UNIT_LP_EDIT_MASK (d.editMask u) u else d
    let d := if 0 ≤ s ∧ s < (d.rf R.RGN_CAD_GUARD g * 5 : Nat) then d.slackAlarm u s else d
    let p := d.partOf u
    let d := if x.kind = 2 ∧ scanned ∧ (d.cycSegs p).all (fun v => (d.un v).done) then d.scanCount p else d
    (if d.cadDone x.cad then d.ckptStart x.cad r.2 else d, r.2)

end Sys2Proof.Machine
end

