-- ==== Sys2Proof/Machine/Logic.lean ====
section
/-!
DEFINITION. The logic instructions (R147 to R158) as commands on a segment's open scan, and the partition commands of
`UNIT.LG_CMD` (R160 to R162).
-/
namespace Sys2Proof.Machine

/-! ### Running one instruction -/

/-- The run of a segment's open scan. -/
def Dev.logicRun (d : Dev) (u : Nat) (sc : ScanSt) : LogicRun := { scan := sc, objs := (d.un u).work.objs }

/-- Store a run after an instruction; the scan ends at END or after the last instruction (R147). -/
def Dev.logicPut (u pc : Nat) (r : LogicRun) (d : Dev) : Dev :=
  let x := d.un u
  let sc : ScanSt := { r.scan with pc := pc, ended := r.scan.ended || decide ((d.progOf u).length ≤ pc) }
  let d := d.setUn u { x with scan := some sc, work := { x.work with objs := r.objs } }
  if r.sat then d.wf R.UNIT_STAT_SAT 1 u else d

/-- The segment can take an instruction: its scan is open and what it reads is present. -/
def Dev.scanGoes (d : Dev) (u : Nat) : Option ScanSt :=
  match (d.un u).scan with
  | some sc => if sc.ended || !d.ready u then none else some sc
  | none => none

/-- A segment's word at a place is the instruction with these OP, AREA and INDEX (R148); `none` for an instruction whose operand's
AREA the spec does not state (log entry 88). -/
def Dev.wordIs (d : Dev) (u pc op : Nat) (area : Option Nat) (i : Nat) : Bool :=
  match (d.progOf u)[pc]? with
  | some w => decide (bitsOf w.toNat 26 6 = op) && area.all (fun a => decide (bitsOf w.toNat 23 3 = a)) && decide (bitsOf w.toNat 0 23 = i)
  | none => false

/-- The scan that runs this instruction next: the loaded program's word at its place is this one (R147, R148). -/
def Dev.scanAt (d : Dev) (u op : Nat) (area : Option Nat) (i : Nat) : Option ScanSt :=
  (d.scanGoes u).bind (fun sc => if d.wordIs u sc.pc op area i then some sc else none)

/-- An instruction of a segment: `ok` says whether its operand is one a loaded program can hold (R149 to R151). Where no scan has it as
its next one it changes nothing (log entries 13, 50). -/
def State.logic (u op : Nat) (area : Option Nat) (i : Nat) (ok : LogicEnv → LogicRun → Bool) (f : LogicEnv → LogicRun → LogicRun)
    (s : State) : Res :=
  match s.dev.scanAt u op area i with
  | none => .next s
  | some sc =>
    let e := s.dev.logicEnv u
    let r := s.dev.logicRun u sc
    if ok e r then s.on (Dev.logicPut u (sc.pc + 1) (f e r)) else .refused .badOperand

/-- An instruction without an operand. -/
def State.logicNone (u op : Nat) (ok : LogicRun → Bool) (f : LogicRun → LogicRun) (s : State) : Res :=
  s.logic u op (some 0) 0 (fun _ r => ok r) (fun _ r => f r)

/-- An instruction that reads a bit operand. -/
def State.logicBit (u op area i : Nat) (f : LogicRun → Bool → LogicRun) (s : State) : Res :=
  s.logic u op (some area) i (fun _ _ => bitOperandOk area i) (fun e r => f r (rdBit e r area i))

/-- An instruction that writes a bit operand: `some x` writes x. -/
def State.logicWr (u op area i : Nat) (f : Bool → Option Bool) (s : State) : Res :=
  s.logic u op (some area) i (fun e _ => bitWritable e area i)
    (fun _ r => match f r.scan.cr with | some x => wrBit r area i x | none => r)

/-- An instruction that reads a word operand. -/
def State.logicWord (u op area i : Nat) (f : LogicRun → Word → LogicRun) (s : State) : Res :=
  s.logic u op (some area) i (fun _ _ => wordOperandOk area i) (fun e r => f r (rdWord e r area i))

/-- Push (CR, operator) and load a bit. -/
def State.logicPush (u op area i : Nat) (b : PushOp) (s : State) : Res :=
  s.logic u op (some area) i (fun _ r => bitOperandOk area i && decide (r.scan.stack.length < 16))
    (fun e r => { r with scan := { r.scan with stack := (r.scan.cr, b) :: r.scan.stack, cr := rdBit e r area i } })

/-- A comparison of ACC with a word, signed. -/
def State.logicCmp (u op area i : Nat) (p : Int → Int → Bool) (s : State) : Res :=
  s.logicWord u op area i (fun r w => r.setCR (p (sW r.scan.acc) (sW w)))

/-- A shift of ACC by an immediate 0 to 31. -/
def State.logicShift (u op n : Nat) (right : Bool) (s : State) : Res :=
  s.logic u op (some 1) n (fun _ _ => decide (n < 32)) (fun _ r => doShift right n r)

/-- A jump (R152). -/
def State.logicJump (u op t : Nat) (c : Bool → Bool) (s : State) : Res :=
  match s.dev.scanAt u op none t with
  | none => .next s
  | some sc =>
    if sc.pc < t ∧ t < (s.dev.progOf u).length then
      s.on (Dev.logicPut u (if c sc.cr then t else sc.pc + 1) (s.dev.logicRun u sc))
    else .fault .pastProgram

/-- An edge detector's instruction. -/
def State.logicEdge (op : Nat) (falling : Bool) (u n : Nat) (s : State) : Res :=
  s.logic u op none n (fun e _ => decide (n < 256) && ownsObj e 4 n) (fun e r => doEdge e falling n r)

/-- A timer's instruction. -/
def State.logicTimer (op typ u n : Nat) (s : State) : Res :=
  s.logic u op none n (fun e _ => decide (n < 256) && ownsObj e 2 n) (fun e r => doTimer e typ n r)

/-- A counter's instruction. -/
def State.logicCtr (op u n : Nat) (f : LogicEnv → LogicRun → LogicRun) (s : State) : Res :=
  s.logic u op none n (fun e _ => decide (n < 256) && ownsObj e 3 n) f

/-! ### Instructions (R151), with their OP -/

def execLgNop (u : Nat) (s : State) : Res := s.logicNone u 0x00 (fun _ => true) (fun r => r)
def execLgLd (u area i : Nat) (s : State) : Res := s.logicBit u 0x01 area i (fun r x => r.setCR x)
def execLgLdn (u area i : Nat) (s : State) : Res := s.logicBit u 0x02 area i (fun r x => r.setCR (!x))
def execLgAnd (u area i : Nat) (s : State) : Res := s.logicBit u 0x03 area i (fun r x => r.setCR (r.scan.cr && x))
def execLgAndn (u area i : Nat) (s : State) : Res := s.logicBit u 0x04 area i (fun r x => r.setCR (r.scan.cr && !x))
def execLgOr (u area i : Nat) (s : State) : Res := s.logicBit u 0x05 area i (fun r x => r.setCR (r.scan.cr || x))
def execLgOrn (u area i : Nat) (s : State) : Res := s.logicBit u 0x06 area i (fun r x => r.setCR (r.scan.cr || !x))
def execLgXor (u area i : Nat) (s : State) : Res := s.logicBit u 0x07 area i (fun r x => r.setCR (r.scan.cr != x))
def execLgXorn (u area i : Nat) (s : State) : Res := s.logicBit u 0x08 area i (fun r x => r.setCR (r.scan.cr != !x))
def execLgSt (u area i : Nat) (s : State) : Res := s.logicWr u 0x09 area i (fun c => some c)
def execLgStn (u area i : Nat) (s : State) : Res := s.logicWr u 0x0A area i (fun c => some (!c))
def execLgS (u area i : Nat) (s : State) : Res := s.logicWr u 0x0B area i (fun c => if c then some true else none)
def execLgR (u area i : Nat) (s : State) : Res := s.logicWr u 0x0C area i (fun c => if c then some false else none)
def execLgNot (u : Nat) (s : State) : Res := s.logicNone u 0x0D (fun _ => true) (fun r => r.setCR (!r.scan.cr))
def execLgAndPush (u area i : Nat) (s : State) : Res := s.logicPush u 0x10 area i .and
def execLgAndnPush (u area i : Nat) (s : State) : Res := s.logicPush u 0x11 area i .andn
def execLgOrPush (u area i : Nat) (s : State) : Res := s.logicPush u 0x12 area i .or
def execLgOrnPush (u area i : Nat) (s : State) : Res := s.logicPush u 0x13 area i .orn
def execLgXorPush (u area i : Nat) (s : State) : Res := s.logicPush u 0x14 area i .xor

/-- Pop (c, op); CR := c op CR. -/
def execLgPop (u : Nat) (s : State) : Res :=
  s.logicNone u 0x15 (fun r => !r.scan.stack.isEmpty) (fun r => match r.scan.stack with
    | (c, op) :: t => { r with scan := { r.scan with stack := t, cr := op.apply c r.scan.cr } }
    | [] => r)

def execLgRTrig (u n : Nat) (s : State) : Res := s.logicEdge 0x18 false u n
def execLgFTrig (u n : Nat) (s : State) : Res := s.logicEdge 0x19 true u n
def execLgTon (u n : Nat) (s : State) : Res := s.logicTimer 0x1A 0 u n
def execLgTof (u n : Nat) (s : State) : Res := s.logicTimer 0x1B 1 u n
def execLgTp (u n : Nat) (s : State) : Res := s.logicTimer 0x1C 2 u n
def execLgCtu (u n : Nat) (s : State) : Res := s.logicCtr 0x1D u n (fun e r => doCount e false n r)
def execLgCtd (u n : Nat) (s : State) : Res := s.logicCtr 0x1E u n (fun e r => doCount e true n r)
def execLgResc (u n : Nat) (s : State) : Res := s.logicCtr 0x1F u n (fun e r => doCtrSet e false n r)
def execLgLdc (u n : Nat) (s : State) : Res := s.logicCtr 0x20 u n (fun e r => doCtrSet e true n r)

def execLgLdw (u area i : Nat) (s : State) : Res := s.logicWord u 0x28 area i (fun r w => r.setACC w)

def execLgStw (u area i : Nat) (s : State) : Res :=
  s.logic u 0x29 (some area) i (fun e _ => wordWritable e area i) (fun e r => wrWord e r area i r.scan.acc)

def execLgAdd (u area i : Nat) (s : State) : Res :=
  s.logicWord u 0x2A area i (fun r w => r.setSat (satW (sW r.scan.acc + sW w)))
def execLgSub (u area i : Nat) (s : State) : Res :=
  s.logicWord u 0x2B area i (fun r w => r.setSat (satW (sW r.scan.acc - sW w)))
def execLgMul (u area i : Nat) (s : State) : Res :=
  s.logicWord u 0x2C area i (fun r w => r.setSat (satW (sW r.scan.acc * sW w)))
def execLgDiv (u area i : Nat) (s : State) : Res := s.logicWord u 0x2D area i (fun r w => r.setSat (divW r.scan.acc w))
def execLgWand (u area i : Nat) (s : State) : Res := s.logicWord u 0x2E area i (fun r w => r.setACC (r.scan.acc &&& w))
def execLgWor (u area i : Nat) (s : State) : Res := s.logicWord u 0x2F area i (fun r w => r.setACC (r.scan.acc ||| w))
def execLgWxor (u area i : Nat) (s : State) : Res := s.logicWord u 0x30 area i (fun r w => r.setACC (r.scan.acc ^^^ w))
def execLgGt (u area i : Nat) (s : State) : Res := s.logicCmp u 0x31 area i (fun a b => decide (b < a))
def execLgGe (u area i : Nat) (s : State) : Res := s.logicCmp u 0x32 area i (fun a b => decide (b ≤ a))
def execLgEq (u area i : Nat) (s : State) : Res := s.logicCmp u 0x33 area i (fun a b => decide (a = b))
def execLgNe (u area i : Nat) (s : State) : Res := s.logicCmp u 0x34 area i (fun a b => decide (a ≠ b))
def execLgLe (u area i : Nat) (s : State) : Res := s.logicCmp u 0x35 area i (fun a b => decide (a ≤ b))
def execLgLt (u area i : Nat) (s : State) : Res := s.logicCmp u 0x36 area i (fun a b => decide (a < b))

def execLgShl (u n : Nat) (s : State) : Res := s.logicShift u 0x37 n false
def execLgShr (u n : Nat) (s : State) : Res := s.logicShift u 0x38 n true

def execLgJmp (u d : Nat) (s : State) : Res := s.logicJump u 0x3C d (fun _ => true)
def execLgJmpc (u d : Nat) (s : State) : Res := s.logicJump u 0x3D d (fun c => c)
def execLgJmpcn (u d : Nat) (s : State) : Res := s.logicJump u 0x3E d (fun c => !c)

def execLgEnd (u : Nat) (s : State) : Res :=
  s.logicNone u 0x3F (fun _ => true) (fun r => { r with scan := { r.scan with ended := true } })

/-! ### Partition commands (R160 to R162, R170) -/

/-- A command of `UNIT.LG_CMD`, 1 START_COLD to 5 TEST_OFF; the status an Eyelet writer reads. In a unit that is no lead
segment the write is dropped with WIGN. TEST_OFF while no TEST_ON is in force is refused: the model's choice, R162 does not say (log entry 115). -/
def Dev.partCmd (w : Writer) (u cmd : Nat) (d : Dev) : Dev × Nat :=
  let p := d.partOf u
  if (d.un u).kind ≠ 2 ∨ d.lead p ≠ u then
    (d.wign .unit u w (R.UNIT_LG_CMD.addr u 0 0), eyIGNORED)
  else
    let s := d.partSt p
    let ok (f : Dev → Dev) : Dev × Nat := ((f d).partUp p (fun s => { s with lastCmd := 1 }), eyOK)
    let no : Dev × Nat := (d.partUp p (fun s => { s with lastCmd := 2 }), eyREFUSED)
    if cmd = 1 ∨ cmd = 2 then
      if s.st ≠ 1 && d.running then ok (Dev.partStart (decide (cmd = 2)) p) else no
    else if cmd = 3 then
      if s.st = 1 then
        ok (fun d => if (d.partCad p).isNone then d.partHalt p 0 none else d.partUp p (fun s => { s with stopPend := true }))
      else no
    else if cmd = 4 then
      if s.st = 1 then ok (Dev.partUp p (fun s => { s with strict := true, test := true })) else no
    else if cmd = 5 then
      if s.st = 1 ∧ s.test then
        ok (Dev.partUp p (fun s => { s with test := false, strict := true, left := (d.partCfg p).strictScans }))
      else no
    else no

/-- A LOGIC unit of the loaded Last. -/
def Dev.isLogic (d : Dev) (u : Nat) : Bool := decide (u < d.nUnits)

def execStartCold (u : Nat) (s : State) : Res := s.regCmd R.UNIT_LG_CMD u 0 true (fun d => (d.partCmd .core u 1).1)
def execStartWarm (u : Nat) (s : State) : Res := s.regCmd R.UNIT_LG_CMD u 0 true (fun d => (d.partCmd .core u 2).1)
def execLogicStop (u : Nat) (s : State) : Res := s.regCmd R.UNIT_LG_CMD u 0 true (fun d => (d.partCmd .core u 3).1)
def execTestOn (u : Nat) (s : State) : Res := s.regCmd R.UNIT_LG_CMD u 0 true (fun d => (d.partCmd .core u 4).1)
def execTestOff (u : Nat) (s : State) : Res := s.regCmd R.UNIT_LG_CMD u 0 true (fun d => (d.partCmd .core u 5).1)

end Sys2Proof.Machine
end

