-- ==== Sys2Proof/Machine/Fabric.lean ====
section
/-!
DEFINITION. Tokens and verification, restores, tile-window writes, the dispatcher and its items, requests to loops, axes
and sequencers (R28, R66, R76 to R89, R131, R177, R209, R219).
-/
namespace Sys2Proof.Machine

/-! ### Descriptors (log entry 9) -/

/-- The 32 KiB of a unit's tiles in logical order. -/
def Dev.unitBytes (d : Dev) (m : List Host.Cell) (u : Nat) : List Byte :=
  ((List.range 32).map (fun i => d.tileBytes m u i)).flatten

/-- Read a unit's descriptors from its tiles. -/
def Dev.decodeUnit (u : Nat) (m : List Host.Cell) (d : Dev) : Dev :=
  let b := d.unitBytes m u
  let c := d.cfg
  let c : LastRec := match (d.un u).kind with
    | 1 => { c with loops := Tbl.put u (Config.decLoops b) c.loops }
    | 3 => { c with axes := Tbl.put u (Config.decAxes c.motion u b) c.axes }
    | 4 => { c with seqs := Tbl.put u (Config.decSeqs b) c.seqs }
    | 5 => { c with engs := Tbl.put u (Config.decEngines b) c.engs }
    | 6 => { c with conds := Tbl.put u (Config.decConds b) c.conds }
    | _ => c
  let c : LastRec := if (d.un u).event then { c with handlers := Tbl.put u (Config.decHandlers b) c.handlers } else c
  { d with last := some c }

/-- Bit errors strike tile memory (R77): until a verification finds them, the operations of a unit read the changed bits, in its descriptors and in
its state. What the bytes of a struck STATE tile then hold is read by a layout that the spec does not give (log entry 9). -/
def Dev.struck (flips : List (Nat × Byte)) (dm : Dev × List Host.Cell) : Dev × List Host.Cell :=
  let m := dm.1.strike flips dm.2
  let hit := (flips.filter (fun f => decide (memGet m f.1 ≠ memGet dm.2 f.1))).map (fun f => (f.1 - tileAddr 0) / 1024)
  let ts := (dm.1.units.map (fun e => (e.2.tiles.filter (fun t => hit.contains t.ptile)).map (fun t => (e.1, t.cls)))).flatten.eraseDups
  (ts.foldl (fun d e =>
    if e.2 = 3 then
      let sem := Config.decSem (d.un e.1).kind (d.unitBytes m e.1)
      d.unUp e.1 (fun x => { x with base := sem, work := sem })
    else d.decodeUnit e.1 m) dm.1, m)

/-! ### Verification failures and restores (R79) -/

/-- The lowest-numbered spare tile of a cluster that is not BAD. -/
def Dev.spare (d : Dev) (c : Nat) : Option Nat :=
  (List.range 512).find? (fun i => decide (d.rf R.CLUS_TAGHI_CLASS c i = 0) && !d.flag R.CLUS_TAGHI_BAD c i)

/-- The tag fields of a mapped tile (R91). -/
def Dev.tagMap (u : Nat) (t : TileMap) (d : Dev) : Dev :=
  let c := t.ptile / 512
  let i := t.ptile % 512
  let d := (d.wf R.CLUS_TAGHI_OWNER u c i).wf R.CLUS_TAGHI_LIDX t.lidx c i
  (d.wf R.CLUS_TAGHI_CLASS t.cls c i).wb R.CLUS_TAGHI_VERIFY_EACH t.verify c i

/-- A tile leaves its owner: its tag says spare. -/
def Dev.tagSpare (pt : Nat) (d : Dev) : Dev :=
  let bad := d.flag R.CLUS_TAGHI_BAD (pt / 512) (pt % 512)
  (d.wf R.CLUS_TAGHI_OWNER 0 (pt / 512) (pt % 512)).ww (R.CLUS_TAGHI_OWNER.addr (pt / 512) (pt % 512) 0)
    (b2n bad * 2 ^ 19)

/-- What a FAULTED unit's kind does (R133, R160): a LOGIC unit's partition stops, every loop is held; a sequencer or axis shows it when it is
read. -/
def Dev.faulted (u : Nat) (now : Option Nat) (d : Dev) : Dev :=
  match (d.un u).kind with
  | 1 =>
    let r := (d.un u).base.loops.map (fun l => (l.1, loopFaulted l.1 l.2))
    let g (s : UnitSem) : UnitSem := { s with loops := r.map (fun l => (l.1, l.2.1)) }
    (d.unUp u (UnitSt.both g)).raiseAll u (r.map (fun l => l.2.2))
  | 2 => if (d.partSt (d.partOf u)).st = 1 then d.watchdog (d.partOf u) u 3 now else d
  | _ => d

/-- A unit goes FAULTED (R79). -/
def Dev.unitFault (u : Nat) (now : Option Nat) (d : Dev) : Dev :=
  let d := (d.setRun u 2).raise Ev.TILE_HARD u []
  (d.unUp u (fun x => { x with staged := [], regw := [], scan := none, work := x.base })).faulted u now

/-- A tile fails its verification at a token (R79): recorded, staging discarded; a tile that fails again right after its
restore moves to a spare, or the unit faults; else its restore starts. -/
def Dev.tokenFail (u : Nat) (t : TileMap) (d : Dev) : Dev :=
  let c := t.ptile / 512
  let i := t.ptile % 512
  let d := ((d.wf R.UNIT_TILE_ERR_LIDX t.lidx u).wf R.UNIT_TILE_ERR_PTILE i u).bump R.UNIT_TILE_ERR_COUNT 1 u
  let d := (d.wf R.UNIT_STAT_TILE_ERR 1 u).raise Ev.TILE_CRC u []
  let d := d.unUp u (fun x => { x with staged := [], regw := [], scan := none, skipped := true, done := false, late := false, work := x.base })
  let restore (d : Dev) : Dev := (d.unUp u (fun x => { x with restoring := true, rest := t.lidx })).setRun u 3
  let mark (l : Nat) (f : TileMap → TileMap) (d : Dev) : Dev :=
    d.unUp u (fun x => { x with tiles := x.tiles.map (fun y => if y.lidx = l then f y else y) })
  if !t.again then restore (mark t.lidx (fun y => { y with again := true }) d)
  else
    match d.spare c with
    | some j =>
      let d := d.wf R.CLUS_TAGHI_BAD 1 c i
      let n : TileMap := { t with ptile := 512 * c + j }
      let d := ((d.tagSpare t.ptile).tagMap u n).wf R.UNIT_STAT_REMAP 1 u
      restore ((mark t.lidx (fun _ => n) d).raise Ev.TILE_REMAP u [])
    | none => (d.wf R.CLUS_TAGHI_BAD 1 c i).unitFault u (if (d.un u).event then none else some (d.un u).cad)

/-- A tile fails at a token or a hand-over: the tiles before it in logical order have passed (R76). -/
def Dev.verifyFail (u : Nat) (t : TileMap) (d : Dev) : Dev :=
  (d.passed u (fun y => decide (y.lidx < t.lidx) && (y.verify || d.flag R.CLUS_TAGHI_PENDING (y.ptile / 512) (y.ptile % 512)))).tokenFail u t

/-- The content a tile is restored from: the current area for CONST, the last complete checkpoint for the others, or their
initial content when no complete checkpoint holds the unit. -/
def Dev.restoreOf (d : Dev) (u : Nat) (t : TileMap) : List Byte :=
  if t.cls = 1 then d.tileImage t
  else match d.ckptOf u with
    | some c => (match c.tiles.find? (fun x => decide (x.1 = 32 * u + t.lidx)) with
      | some x => x.2
      | none => d.tileImage t)
    | none => d.tileImage t

/-- TILE_RESTORE_DONE (R79): the failing tile, or all STATE and WRITABLE tiles of the unit, hold their restored content and
are PENDING; counts of no reach C keep their values (R195, R221). Bit errors may strike tiles afterwards. -/
def Dev.restoreDone (u : Nat) (flips : List (Nat × Byte)) (dm : Dev × List Host.Cell) : Dev × List Host.Cell :=
  let x := dm.1.un u
  if !x.restoring then dm
  else
    let all := x.tiles.any (fun t => decide (t.lidx = x.rest) && decide (t.cls ≠ 1))
    let ts := x.tiles.filter (fun t => if all then decide (t.cls ≠ 1) else decide (t.lidx = x.rest))
    let r := ts.foldl (fun dm t => Dev.tileWrite t.ptile (dm.1.restoreOf u t) false dm) dm
    let old : UnitSem := match r.1.ckptOf u with | some c => Tbl.getD {} c.sems u | none => r.1.initSem u
    let sem := if all then old.keepCounts x.base else x.base
    let d := (r.1.unUp u (fun x => { x with restoring := false, base := sem, work := sem })).setRun u 0
    Dev.struck flips (d.decodeUnit u r.2, r.2)

def execTileRestoreDone (u : Nat) (flips : List (Nat × Byte)) (s : State) : Res :=
  if u < s.dev.nUnits then s.onMem (fun d m => Dev.restoreDone u flips (d, m)) else .refused .badOperand

/-- A start token (R28, R66, R76): the unit's tiles are verified; it runs with the signals visible now. -/
def Dev.token (k : Nat) (m : List Host.Cell) (d : Dev) (u : Nat) : Dev :=
  match d.failing m u with
  | some t => d.verifyFail u t
  | none =>
    let x := d.un u
    let y : UnitSt := { x with tokPrev := x.tok, tok := d.time.cnt, cycle := k, vis := d.visible, shed := d.rf R.PWR_STAT_SHED,
                               staged := [], regw := [], work := x.base }
    let d := (((d.setUn u y).verified u).takeSamples u).setRun u 1
    if x.kind = 2 then d.scanOpen u (d.cadNs x.cad k) none else d

/-! ### Force mirrors (R145, R167, R168) -/

/-- The forces on the objects of a segment. -/
def Dev.mirrored (d : Dev) (u : Nat) : List (Nat × Word) :=
  let own := ((d.cfg.parts.map (·.objs)).flatten.filter (fun o => decide (o.owner = u))).filterMap (·.dirSig)
  (d.force.filter (fun e => own.contains e.2.id)).map (fun e => (e.2.id, e.2.word))

/-- The rim updates the force mirror of a segment: its WRITABLE tile. -/
def Dev.mirror (u : Nat) (dm : Dev × List Host.Cell) : Dev × List Host.Cell :=
  match (dm.1.un u).tiles.find? (fun t => decide (t.cls = 2)) with
  | some t => Dev.tileWrite t.ptile (slice (Config.encMirror u (dm.1.mirrored u)) 0 1024) true dm
  | none => dm

/-- Every segment with forced objects holds them in its mirror. -/
def Dev.mirrorAll (dm : Dev × List Host.Cell) : Dev × List Host.Cell :=
  ((dm.1.kindUnits 2).filter (fun u => !(dm.1.mirrored u).isEmpty)).foldl (fun dm u => Dev.mirror u dm) dm

/-! ### Tile-window writes (R78, R135) -/

/-- Bytes of one request for one tile. -/
def tilePart (l : Nat) (ws : List (Nat × Byte)) : List (Nat × Byte) :=
  (ws.filter (fun w => decide (w.1 / 1024 = l))).map (fun w => (w.1 % 1024, w.2))

/-- Apply a held write to one tile, or drop it by the EDIT rule; the third component: something was dropped. -/
def Dev.tileApply (u : Nat) (ws : List (Nat × Byte)) (a : (Dev × List Host.Cell) × Bool) (l : Nat) :
    (Dev × List Host.Cell) × Bool :=
  let d := a.1.1
  let m := a.1.2
  let part := tilePart l ws
  match (d.un u).tiles.find? (fun t => decide (t.lidx = l) && decide (t.cls = 2)) with
  | none => a
  | some t =>
    if part.isEmpty then a
    else
      let coef := (d.loopsOf u).any (fun c => c.coefTiles.contains l)
      if coef && !bitAt (d.rf R.UNIT_LP_EDIT_MASK u) l then
        (((d.wign .unit u .eyelet (tileAddr t.ptile)).raise Ev.COEF_REFUSED u [], m), true)
      else
        let m' := part.foldl (fun m w => memSet (tileAddr t.ptile + w.1) w.2 m) m
        let dm := Dev.tileWrite t.ptile (memRead m' (tileAddr t.ptile) 1024) true (d, m')
        let cs := d.loopsOf u
        let g (s : UnitSem) : UnitSem := { s with loops := Tbl.mapVals (fun i x =>
          if (nth {} cs i).modelTiles.contains l then { x with modelWr := true } else x) s.loops }
        ((dm.1.unUp u (UnitSt.both g), dm.2), a.2)

/-- TILE_WRITE_APPLY (R78): the oldest held write of an idle unit is applied or dropped, and its request answered. -/
def Dev.tileWriteApply (u : Nat) (dm : Dev × List Host.Cell) : Dev × List Host.Cell :=
  let x := dm.1.un u
  match x.deferW with
  | [] => dm
  | (o, ws) :: rest =>
    if x.run ≠ 0 then dm
    else
      let r := (List.range 32).foldl (Dev.tileApply u ws) ((dm.1.setUn u { x with deferW := rest }, dm.2), false)
      let d := if x.kind = 3 ∨ x.kind = 6 then r.1.1.decodeUnit u r.1.2 else r.1.1
      (d.answerOwed o (if r.2 then eyIGNORED else eyOK) [], r.1.2)

def execTileWriteApply (u : Nat) (s : State) : Res :=
  if u < s.dev.nUnits then s.onMem (fun d m => Dev.tileWriteApply u (d, m)) else .refused .badOperand

/-- UNIT_CLRSTAT (R90). -/
def Dev.clrstat (u : Nat) (d : Dev) : Dev := (d.wf R.UNIT_SLACK_MIN_SLACK 0x7FFFFFFF u).wf R.UNIT_OVR_CNT_TOTAL 0 u

def execUnitClrstat (u : Nat) (s : State) : Res := s.regCmd R.UNIT_CTRL u 0 true (Dev.clrstat u)

/-! ### Dispatcher (R82 to R89) -/

/-- DISPATCH_ACCEPT (R84, R87): an item enters a flow; `prod` 0 event source, 1 unit, 2 service core. -/
def execDispatchAccept (die flow prod orig : Nat) (payload : List Byte) (s : State) : Res :=
  s.guarded (decide (die < s.dev.nDies) && decide (flow < 4096) && decide (prod < 3) && decide (orig < 2048))
    (Dev.acceptItem die flow (orig + 2048 * prod) ((payload ++ zeros 20).take 20))

/-- SPILL_RETURN (R87): items at the head of a level's ring go back on chip while the quota has room. -/
def Dev.spillReturn (die level : Nat) (d : Dev) : Dev :=
  match d.levelOf die level with
  | none => d
  | some l =>
    let q := Tbl.getD {} d.disp die
    let n := (q.store.filter (fun x => decide (x.level = level))).length
    let mine := q.ring.filter (fun x => decide (x.level = level))
    let back := mine.take (l.quota - n)
    let q' : DispSt := { q with store := q.store ++ back,
                                ring := q.ring.filter (fun x => decide (x.level ≠ level)) ++ mine.drop (l.quota - n) }
    { d with disp := Tbl.put die q' d.disp }

def execSpillReturn (die level : Nat) (s : State) : Res :=
  s.guarded (decide (die < s.dev.nDies) && decide (level < 16)) (Dev.spillReturn die level)

/-- The oldest item of a list of one flow: by STAMP; items of one tick by producer (sources, units, service cores), then by its
number (R85). -/
def oldest : List Item → Option Item
  | [] => none
  | x :: t => match oldest t with
    | some y => if y.stamp < x.stamp ∨ (y.stamp = x.stamp ∧ y.origin < x.origin) then some y else some x
    | none => some x

/-- The first of two items by R86: level, STAMP, flow. -/
def itemFirst (a b : Item) : Bool :=
  decide (a.level < b.level) || (decide (a.level = b.level) &&
    (decide (a.stamp < b.stamp) || (decide (a.stamp = b.stamp) && decide (a.flow ≤ b.flow))))

/-- The die of a unit (R19). -/
def dieOf (u : Nat) : Nat := u / 256

/-- The item a unit would be handed (R85, R86): eligible, of a flow it holds a handler for; one that has stayed with it comes first (log
entry 42). -/
def Dev.choice (d : Dev) (u : Nat) : Option Item :=
  if (d.un u).item.isSome then (d.un u).item else
  let die := dieOf u
  let q := Tbl.getD {} d.disp die
  let flows := Tbl.getD [] d.cfg.handlers u
  let el := flows.filterMap (fun f =>
    if q.serv.contains f then none else oldest (q.store.filter (fun x => decide (x.flow = f))))
  el.foldl (fun a x => match a with
    | none => some x
    | some y => if itemFirst y x then a else some x) none

/-- An event-driven unit that can take an item now. -/
def Dev.idleEv (d : Dev) (u : Nat) : Bool :=
  let x := d.un u
  decide (x.kind ≠ 0) && x.event && decide (x.run = 0) && d.running && d.mapped

/-- DISPATCH_HANDOVER (R86, R434): the lowest-numbered idle unit of the cluster that has a choice takes it; a full operation
envelope of the region holds it back. The unit's tiles are verified first (R76); after a failure the item keeps waiting (log entry 42). -/
def Dev.handover (u : Nat) (m : List Host.Cell) (d : Dev) : Dev :=
  let lower := (d.evUnits.filter (fun v => decide (v / 16 = u / 16) && decide (v < u))).any (fun v =>
    d.idleEv v && (d.choice v).isSome)
  match d.choice u with
  | none => d
  | some it =>
    if !d.idleEv u || lower then d
    else if d.envFull (rgnOf u) then d.envHold (rgnOf u)
    else match d.failing m u with
    | some t => d.verifyFail u t
    | none =>
      let die := dieOf u
      let q := Tbl.getD {} d.disp die
      let x := d.un u
      let q' : DispSt := if x.item.isSome then q else { q with store := q.store.erase it, serv := q.serv ++ [it.flow] }
      let y : UnitSt := { x with tokPrev := x.tok, tok := d.time.cnt, cycle := d.time.cnt, vis := d.visible, done := false,
                                 shed := d.rf R.PWR_STAT_SHED, work := x.base, item := some it, regw := [] }
      let d := (((({ d with disp := Tbl.put die q' d.disp } : Dev).setUn u y).verified u).takeSamples u).setRun u 1
      if x.kind = 2 then d.scanOpen u (d.viewNs 0) (some it) else d

def execDispatchHandover (u : Nat) (s : State) : Res := s.guarded (decide (u < s.dev.nUnits)) (Dev.handover u s.mem)

/-- The declared bound of a flow, in ticks. -/
def Dev.boundOf (d : Dev) (die flow : Nat) : Nat := match d.flowOf die flow with | some f => f.bound * 5 | none => 0

/-- The cadence at whose boundary a signal's output is latched (R33). -/
def Dev.outCad (d : Dev) (sig : Nat) : Option Nat :=
  (d.cfg.io.find? (fun e => decide (e.body.outKey.map Prod.snd = some sig))).bind (·.cad)

/-- What staged values of a completed item do (R32, R33, R159): outputs wait for their cadence's boundary, and so do the signals they carry; a
LOGIC unit's signals for the partition's, others show at once. -/
def Dev.itemStage (u : Nat) (d : Dev) : Dev :=
  let x := d.un u
  let d := x.staged.foldl (fun d s => d.stageOut u s.sig s.v.val) d
  if x.kind = 2 ∧ (d.partCad (d.partOf u)).isSome then d
  else
    let d := x.staged.foldl (fun (d : Dev) s =>
      if (d.outCad s.sig).isSome then { d with sigWait := Tbl.put s.sig s.v d.sigWait } else d.showSig s.sig s.v) d
    d.unUp u (fun x => { x with staged := [], shown := x.base.objs })

/-- The shadow check of a unit that is about to commit fails (R77): the cycle or item is not executed. The item goes back to wait where its
level's quota has room (R87); else it stays with the unit, which takes it again when its tiles are restored (log entry 42). -/
def Dev.shadowFail (u : Nat) (t : TileMap) (d : Dev) : Dev :=
  let x := d.un u
  let die := dieOf u
  let q := Tbl.getD {} d.disp die
  let d : Dev := match x.item with
    | none => d
    | some it =>
      let quota := ((d.levelOf die it.level).map (·.quota)).getD 0
      if (q.store.filter (fun y => decide (y.level = it.level))).length < quota then
        ({ d with disp := Tbl.put die { q with store := it :: q.store, serv := q.serv.filter (· ≠ it.flow) } d.disp } : Dev).unUp u
          (fun x => { x with item := none })
      else d
  d.tokenFail u t

/-- ITEM_COMPLETION (R81, R85): the item's writes commit, its slack against the flow's bound is recorded, the flow is free. It waits for converter
words that were in flight at the hand-over (R29, R229). -/
def Dev.itemComplete (u : Nat) (tiles : List (Nat × List Byte)) (dm : Dev × List Host.Cell) :
    Dev × List Host.Cell :=
  let x := dm.1.un u
  match x.item with
  | none => dm
  | some it =>
    if x.run ≠ 1 ∨ x.scanning ∨ !x.smpWait.isEmpty then dm
    else match dm.1.shadowBad dm.2 u tiles with
    | some t => (dm.1.shadowFail u t, dm.2)
    | none =>
      let scanned := x.scan.isSome
      let r := Dev.evalUnit u tiles dm
      let d := (r.1.unUp u (fun x => { x with item := none, done := false })).setRun u 0
      let die := dieOf u
      let q := Tbl.getD {} d.disp die
      let d : Dev := { d with disp := Tbl.put die { q with serv := q.serv.filter (· ≠ it.flow) } d.disp }
      let s : Int := (d.boundOf die it.flow : Int) - (d.time.cnt - x.tok : Nat)
      let d := ((d.slack u s).countOps (rgnOf u) (d.handlerN u it.flow)).itemStage u
      let p := d.partOf u
      let d := if x.kind = 2 ∧ scanned ∧ (d.partCad p).isNone then d.scanCount p else d
      if 0 ≤ s then (d, r.2)
      else
        let key := 4096 * die + it.flow
        let d : Dev := { d with disp := Tbl.put die (
          let q := Tbl.getD {} d.disp die
          { q with late := Tbl.upd 0 key (fun n => satAdd 0xFFFF n 1) q.late }) d.disp }
        let d := ((d.wf R.UNIT_STAT_LATE 1 u).wf R.DISP_STAT_LATE 1).raise Ev.FLOW_LATE u []
        let d := d.slackAlarm u s
        let d := if x.kind = 2 then
            let d := d.bump R.UNIT_LG_OVR_LATE 1 (d.lead p)
            let ps := d.partSt p
            if ps.st = 1 ∧ ps.strict then d.watchdog p u 2 (d.partCad p) else d
          else d
        (d, r.2)

/-! ### Requests to loops, axes and sequencers (R131, R132, R177 to R179, R209) -/

/-- The unit runs a cycle, its inputs are present and it holds the numbered thing. -/
def Dev.inCycle (d : Dev) (u kind n len : Nat) : Bool :=
  let x := d.un u
  decide (x.kind = kind) && decide (x.run = 1) && !x.late && !x.done && d.ready u && decide (n < len)

/-- A request is judged in the loop's evaluation (R132): the device's HOLD first, then a new MODE_SIG, then the request word if that is the
source named. -/
def Dev.loopReq (u l : Nat) (sig : Bool) (m : List Host.Cell) (d : Dev) : Dev :=
  let cs := d.loopsOf u
  if !d.inCycle u 1 l cs.length then d
  else
    let c := nth {} cs l
    let e := d.loopEnv m u l c
    let x := d.un u
    let h := loopHold l c e (Tbl.getD {} x.work.loops l)
    let st := if sig then
        (match c.modeSig with
        | some g => if (e.sig g).valid then loopTake c (loopValid c e) true (e.sig g).val h.1 else h.1
        | none => h.1)
      else loopRequests c e h.1
    let w : UnitSem := { x.work with loops := Tbl.put l st x.work.loops }
    (d.setUn u { x with work := w }).raiseAll u h.2

/-- A unit and loop, axis or sequencer number. -/
def Dev.reqOk (d : Dev) (u n mx : Nat) : Bool := decide (u < d.nUnits) && decide (n < mx)

def execLoopMode (u l : Nat) (sig : Bool) (s : State) : Res := s.guarded (s.dev.reqOk u l 64) (Dev.loopReq u l sig s.mem)
def execLoopEdit (u l : Nat) (sig : Bool) (s : State) : Res := s.guarded (s.dev.reqOk u l 64) (Dev.loopReq u l sig s.mem)
def execLoopSet (u l : Nat) (sig : Bool) (s : State) : Res := s.guarded (s.dev.reqOk u l 64) (Dev.loopReq u l sig s.mem)

/-- A command is judged in the axis's evaluation (R178): faults first, then a new CMD_SIG command, then the request tile's if that is the source
named. -/
def Dev.axisReq (code u a : Nat) (sig : Bool) (m : List Host.Cell) (d : Dev) : Dev :=
  let cs := d.axesOf u
  if !d.inCycle u 3 a cs.length || decide ((nth {} cs a).kind = 0) then d
  else
    let c := nth {} cs a
    let x := d.un u
    let s0 := Tbl.getD {} x.work.axes a
    let e := d.axisEnv m u a c s0
    let s := axFaults c e s0
    let st := if sig then
        (match c.cmdSig with
        | some g =>
          if (e.sig g).valid then axTake (some code) true (e.sig g).val (parSig c e (e.sig g).val) c e s else s
        | none => s)
      else axTake (some code) false e.cmdW (parTile c e e.cmdW) c e (axFromSig c e s)
    let w : UnitSem := { x.work with axes := Tbl.put a st x.work.axes }
    (d.setUn u { x with work := w }).axisCut c st

/-- An axis command. -/
def State.axis (code u a : Nat) (sig : Bool) (s : State) : Res :=
  s.guarded (s.dev.reqOk u a 16) (Dev.axisReq code u a sig s.mem)

def execAxEnable (u a : Nat) (sig : Bool) (s : State) : Res := s.axis 1 u a sig
def execAxDisable (u a : Nat) (sig : Bool) (s : State) : Res := s.axis 2 u a sig
def execAxMoveAbs (u a : Nat) (sig : Bool) (s : State) : Res := s.axis 3 u a sig
def execAxMoveRel (u a : Nat) (sig : Bool) (s : State) : Res := s.axis 4 u a sig
def execAxVelocity (u a : Nat) (sig : Bool) (s : State) : Res := s.axis 5 u a sig
def execAxStop (u a : Nat) (sig : Bool) (s : State) : Res := s.axis 6 u a sig
def execAxGearIn (u a : Nat) (sig : Bool) (s : State) : Res := s.axis 7 u a sig
def execAxGearOut (u a : Nat) (sig : Bool) (s : State) : Res := s.axis 8 u a sig
def execAxOffset (u a : Nat) (sig : Bool) (s : State) : Res := s.axis 9 u a sig
def execAxHome (u a : Nat) (sig : Bool) (s : State) : Res := s.axis 10 u a sig
def execAxSetPos (u a : Nat) (sig : Bool) (s : State) : Res := s.axis 11 u a sig
def execAxResetFault (u a : Nat) (sig : Bool) (s : State) : Res := s.axis 12 u a sig
def execAxVmSpeed (u a : Nat) (sig : Bool) (s : State) : Res := s.axis 13 u a sig

/-- A command is judged in the sequencer's evaluation (R209): faults first, then a new CMD_SIG command, then the request tile's if that is the
source named. -/
def Dev.seqReq (code u i : Nat) (sig : Bool) (m : List Host.Cell) (d : Dev) : Dev :=
  let cs := d.seqsOf u
  if !d.inCycle u 4 i cs.length then d
  else
    let c := nth {} cs i
    let x := d.un u
    let s := Tbl.getD {} x.work.seqs i
    let e := d.seqEnv m u i
    let ld := d.seqLoaded u i
    let r : SeqRes := if sig then sqFirst i c (some code) ld e s else sqRequests i c (some code) ld e s
    let w : UnitSem := { x.work with seqs := Tbl.put i r.st x.work.seqs }
    (d.setUn u { x with work := w }).raiseAll u r.evs

/-- A sequencer command. -/
def State.sequencer (code u i : Nat) (sig : Bool) (s : State) : Res :=
  s.guarded (s.dev.reqOk u i 4) (Dev.seqReq code u i sig s.mem)

def execSqStart (u s : Nat) (sig : Bool) (st : State) : Res := st.sequencer 1 u s sig
def execSqHold (u s : Nat) (sig : Bool) (st : State) : Res := st.sequencer 2 u s sig
def execSqResume (u s : Nat) (sig : Bool) (st : State) : Res := st.sequencer 3 u s sig
def execSqAbort (u s : Nat) (sig : Bool) (st : State) : Res := st.sequencer 4 u s sig
def execSqReset (u s : Nat) (sig : Bool) (st : State) : Res := st.sequencer 5 u s sig

/-- The slots after a fetch (R219): the current step and the abort step stay; each successor that is in no slot goes to the lowest-numbered slot
that holds neither of them nor another successor; without one, to a slot whose record stands in a later slot as well (START_STEP = ABORT_STEP). -/
def slotsFilled (cur : Nat) (abort : Option Nat) (succ : List Nat) (slots : List (Option Nat)) : List (Option Nat) :=
  let keep (o : Option Nat) : Bool := o.isSome && (decide (o = some cur) || decide (o = abort) || succ.any (fun n => decide (o = some n)))
  succ.foldl (fun ss n =>
    if ss.contains (some n) then ss
    else match ((List.range 5).find? (fun p => !keep (ss.getD p none))).orElse (fun _ => (List.range 5).find? (fun p => (ss.drop (p + 1)).contains (ss.getD p none))) with
      | some p => ss.set p (some n)
      | none => ss) slots

/-- The step record of a recipe image, as a slot tile holds it: its head and ramp entries, the rest zero (R203). -/
def stepBytes (img : List Byte) (n : Nat) : List Byte :=
  let o := le img (0x240 + 4 * n) 4
  slice (slice img o (0x80 + 8 * byteAt img (o + 9))) 0 1024

/-- The records go into the slot tiles 3 + 5i to 7 + 5i (R200); a tile that holds its record already is left. -/
def Dev.slotTiles (u i : Nat) (img : List Byte) (slots : List (Option Nat)) (dm : Dev × List Host.Cell) : Dev × List Host.Cell :=
  (List.range 5).foldl (fun dm p => match slots.getD p none with
    | none => dm
    | some n => match (dm.1.un u).tiles.find? (fun t => decide (t.lidx = 3 + 5 * i + p)) with
      | some t => if memRead dm.2 (tileAddr t.ptile) 1024 = stepBytes img n then dm else Dev.tileWrite t.ptile (stepBytes img n) true dm
      | none => dm) dm

/-- STEP_FETCH_DONE (R219): while the unit is idle, the records of the current step, the abort step and the successors are in the slots; a record
that cannot be read aborts the recipe in the next evaluation (log entries 51, 53). -/
def Dev.fetchDone (u : Nat) (n : FetchEnd) (dm : Dev × List Host.Cell) : Dev × List Host.Cell :=
  let d := dm.1
  let x := d.un u
  let s := Tbl.getD {} x.base.seqs n.seq
  match Tbl.get? d.recipeParsed (d.seqNo u n.seq) with
  | none => dm
  | some r =>
    if x.run ≠ 0 ∨ !s.fetchPend then dm
    else
      let succ := match r.steps[s.cur]? with | some p => successors r.steps.length s.cur p | none => []
      let slots := if n.bad then s.slots else slotsFilled s.cur r.abortStep succ s.slots
      let g (m : UnitSem) : UnitSem := { m with seqs := Tbl.upd {} n.seq (fun s => { s with slots := slots, fetchPend := false, fetchBad := n.bad }) m.seqs }
      let d := d.unUp u (UnitSt.both g)
      if n.bad then (d, dm.2) else Dev.slotTiles u n.seq (Tbl.getD [] d.recipes (d.seqNo u n.seq)) slots (d, dm.2)

def execStepFetchDone (u : Nat) (n : FetchEnd) (s : State) : Res :=
  if s.dev.reqOk u n.seq 4 then s.onMem (fun d m => Dev.fetchDone u n (d, m)) else .refused .badOperand

/-- RECIPE_STORE_WRITE (R468): an accepted image goes to the flash recipe store. -/
def Dev.recipeStoreWrite (num : Nat) (d : Dev) : Dev :=
  match Tbl.get? d.recipes num with
  | some b => { d with recipeStore := Tbl.put num b d.recipeStore }
  | none => d

def execRecipeStoreWrite (num : Nat) (s : State) : Res := s.guarded (decide (num < 128)) (Dev.recipeStoreWrite num)

end Sys2Proof.Machine
end

