-- ==== Sys2Proof/Machine/Run.lean ====
section
/-!
DEFINITION. Starting and stopping the cadences of a Last, the fields of port payloads, and the claims a device sees (R51,
R65, R108, R377, R381, R396).
-/
namespace Sys2Proof.Machine

/-! ### Starting and stopping (R108, R160, R259, R377) -/

def Dev.setCad (n : Nat) (f : CadSt → CadSt) (d : Dev) : Dev :=
  { d with time := { d.time with cads := Tbl.put n (f (Tbl.getD {} d.time.cads n)) d.time.cads } }

def Dev.cad (d : Dev) (n : Nat) : CadSt := Tbl.getD {} d.time.cads n

/-- Cadences of the loaded Last, ascending. -/
def Dev.usedCads (d : Dev) : List Nat := (List.range 8).filter (fun n => (d.cad n).used)

/-- An armed comparator of action CAD_RELEASE names the cadence (R108, R112). -/
def Dev.heldByCmp (d : Dev) (n : Nat) : Bool :=
  (List.range 64).any (fun i => d.flag R.TIME_CMPi_CTL_ARM 0 i && decide (d.rf R.TIME_CMPi_CTL_ACTION 0 i = 2) &&
    bitAt (d.rf R.TIME_CMPi_CTL_TARGET 0 i) n)

/-- STATE becomes RUNNING at this tick: each cadence's reference tick, or its wait for LOCK or a comparator (R108). -/
def Dev.startCads (d : Dev) : Dev :=
  let d := d.setLast lsRUNNING
  d.usedCads.foldl (fun d n =>
    let wait := d.flag R.TIME_CADn_CFG_WAITLOCK 0 n && !d.locked 0
    let defer := d.heldByCmp n
    let d := d.setCad n (fun c => { c with ref := if wait then none else some d.time.cnt, since := d.time.cnt, deferred := defer, run := false,
                                           halt := false, stopping := false, firstLatch := false })
    d.wb R.TIME_CADn_STAT_WAIT (wait || defer) 0 n) d

/-- A comparator's settings change: cadences that wait for their release wait for those armed now (R108, R112). -/
def Dev.deferAgain (d : Dev) : Dev :=
  if !d.running then d
  else d.usedCads.foldl (fun d n =>
    let c := d.cad n
    if c.ref.isNone || c.deferred then
      (d.setCad n (fun c => { c with deferred := d.heldByCmp n })).wb R.TIME_CADn_STAT_WAIT (c.ref.isNone || d.heldByCmp n) 0 n
    else d) d

/-- Partitions with AUTORUN start cold when the Last is released (R160). -/
def Dev.autorun (d : Dev) : Dev :=
  ((d.kindUnits 2).map d.partOf).eraseDups.foldl (fun d p =>
    if bitAt (d.kdata (d.lead p) 3) 0 ∧ (d.partSt p).st ≠ 1 then Dev.partStart false p d else d) d

/-- The Last runs again: no slot and no cyclic CAN buffer is held or safe any more, and no Holup slot is ready before the first boundary
(R304, R306, R330). -/
def Dev.linksRun (d : Dev) : Dev :=
  { d with hol := Tbl.mapVals (fun _ s => { s with holdC := [], safeC := [], outs := [] }) d.hol,
           can := Tbl.mapVals (fun _ s => { s with holdC := [], safeC := [] }) d.can }

/-- RUN: the Last is released. -/
def Dev.runLast (d : Dev) : Dev := d.outsRun.linksRun.startCads.autorun

/-- Partitions of the Last. -/
def Dev.partsOf (d : Dev) : List Nat := ((d.kindUnits 2).map d.partOf).eraseDups

/-- STOP: STATE becomes STOPPED; each cadence still takes its final latch (R108). A partition without a cyclic task stops at once
(R160). -/
def Dev.stopLast (d : Dev) : Dev :=
  let d := d.setLast lsSTOPPED
  let d := (d.partsOf.filter (fun p => (d.partCad p).isNone && decide ((d.partSt p).st ≠ 0))).foldl (fun d p => d.partHalt p 0 none) d
  d.usedCads.foldl (fun d n =>
    let d := d.setCad n (fun c => { c with ref := none, deferred := false, halt := false, stopping := true, firstLatch := true })
    (d.wf R.TIME_CADn_STAT_WAIT 0 0 n).wf R.TIME_CADn_STAT_RUN 0 0 n) d

/-! ### Fields of port payloads (R51) -/

/-- Replace bytes of a string from an offset; what lies beyond its end is lost. -/
def putBytes (off : Nat) (xs bs : List Byte) : List Byte :=
  (bs.take off) ++ (xs.take (bs.length - off)) ++ bs.drop (off + xs.length)

/-- Bytes that a field takes in the payload. -/
def FieldEl.size (f : FieldEl) : Nat := if f.fmt = 2 then 4 else if f.fmt = 3 then 1 else f.width

/-- Place a value in a payload: the low bytes, or one bit. -/
def FieldEl.put (f : FieldEl) (w : Word) (bs : List Byte) : List Byte :=
  if f.fmt = 3 then
    let o := f.offset + f.bit / 8
    putBytes o [BitVec.ofNat 8 (setBits (byteAt bs o) (f.bit % 8) 1 (b2n (decide (w ≠ 0))))] bs
  else putBytes f.offset (leBytes f.size w.toNat) bs

/-- Take a value from a payload: zero-extended, sign-extended, as it stands, or one bit. -/
def FieldEl.get (f : FieldEl) (bs : List Byte) : Word :=
  if f.fmt = 3 then BitVec.ofNat 32 (bitsOf (byteAt bs (f.offset + f.bit / 8)) (f.bit % 8) 1)
  else
    let x := le bs f.offset f.size
    if f.fmt = 1 then wS (toS (8 * f.size) x) else BitVec.ofNat 32 x

/-- A payload filled with the latched values of its signals, or with their declared safe values. -/
def Dev.fillFields (d : Dev) (fs : List FieldEl) (safe : Bool) (bs : List Byte) : List Byte :=
  fs.foldl (fun b f => f.put (if safe && !(d.sig f.sig).bit stFORCED then d.safeOf f.sig else (d.sig f.sig).val) b) bs

/-- Show the signals of a frozen payload with a status; without a payload their last values stay. -/
def Dev.showFields (fs : List FieldEl) (pay : Option (List Byte)) (st : Byte) (d : Dev) : Dev :=
  fs.foldl (fun d f =>
    let v : Word := match pay with | some b => f.get b | none => (d.sig f.sig).val
    d.showSig f.sig { val := v, st := st }) d

/-- Signal numbers under which COND units name a receive buffer's descriptor words (log entry 24). -/
def descSig (kind no w : Nat) : Nat := 0x110000 + 0x40000 * kind + 4 * no + w

/-- Show the 12 bytes of a frozen buffer's descriptor. -/
def Dev.showDesc (kind no : Nat) (bs : List Byte) (d : Dev) : Dev :=
  (List.range 3).foldl (fun d w =>
    d.showSig (descSig kind no w) { val := BitVec.ofNat 32 (le bs (4 * w) 4), st := stOk }) d

/-- The body of the GLOBAL entry that bounds a hold (R51, R463), in ms. -/
def Dev.holdMaxMs (d : Dev) : Nat :=
  d.cfg.io.foldl (fun a e => match e.body with | .global h _ _ _ _ _ _ _ _ _ => h | _ => a) 0

/-! ### What a Last configures and what its inputs produce (R51) -/

/-- A field taken out of a register word that the Last gives. -/
def F.of (f : F) (w : Word) : Nat := bitsOf w.toNat f.lo f.w

/-- A register word as HOLSCH and CANSCH leave it. -/
def LastRec.regW (l : LastRec) (a : Nat) : Nat := ((l.regs.find? (fun e => decide (e.1 = a))).map Prod.snd).getD (rstOf a)

/-- A register field as HOLSCH and CANSCH leave it. -/
def LastRec.regF (l : LastRec) (f : F) (k : Nat := 0) (i : Nat := 0) : Nat := bitsOf (l.regW (f.addr k i 0)) f.lo f.w

/-- A HOL_FIELD entry of a direction takes data in: on a segment whose device is a slave DIR 0 does (R51, R301). -/
def LastRec.holIn (l : LastRec) (n dr : Nat) : Bool := decide (dr = if l.regF R.HOL_CFG_ROLE n = 0 then 0 else 1)

/-- Signals that an input entry produces (R51). -/
def LastRec.inSigs (l : LastRec) : IoBody → List Nat
  | .ain _ _ _ _ _ s => [s]
  | .dio _ w s => if inR 1 (R.DIO_PINn_CFG_DIRM.of w) 2 then [] else [s]
  | .ethRx _ _ _ _ _ _ _ _ _ fs => fs.map (·.sig)
  | .holField n dr _ fs => if l.holIn n dr then fs.map (·.sig) else []
  | .canField _ 1 _ fs => fs.map (·.sig)
  | _ => []

/-- The supply of an I/O bank is good (R497). -/
def Dev.vddio (d : Dev) (b : Nat) : Bool := bitAt (d.rf R.PWR_SUPPLY_VDDIO_OK) b

/-! ### Claims (R381, R396) -/

/-- The highest claim seen anywhere, with its copy in MRAM. -/
def Dev.seeClaim (c : Nat) (d : Dev) : Dev :=
  if d.hasWelt && decide (d.rf R.DUPX_HCLAIM_HCLAIM < c) then
    { d.wf R.DUPX_HCLAIM_HCLAIM c with hclaimMram := c }
  else d

def dxOFF : Nat := 0
def dxPAIRING : Nat := 1
def dxSYNCING : Nat := 2
def dxSTANDBY : Nat := 3
def dxISOLATED : Nat := 4
def dxACTIVE : Nat := 5
def dxSOLO : Nat := 6
def dxTAKING : Nat := 7
def dxFENCED : Nat := 8
def dxOUTDATED : Nat := 9
def dxEXCHANGE : Nat := 10
def dxREADY : Nat := 11
def dxDETACHED : Nat := 12

def Dev.dx (d : Dev) : Nat := d.rf R.DUPX_STATE_STATE

/-- The device runs the Last of its pair (R393). -/
def Dev.dxRuns (d : Dev) : Bool := decide (d.dx = dxACTIVE) || decide (d.dx = dxSOLO) || decide (d.dx = dxTAKING)

/-- The device may run its Last: it is no member of a pair, or its role says so. -/
def Dev.mayRun (d : Dev) : Bool := decide (d.dx = dxOFF) || d.dxRuns

/-- t_w of R396: the tick by which both paths have missed a heartbeat. -/
def Dev.tW (d : Dev) : Nat := max (d.dupx.tvW.getD 0 + 10000) (d.dupx.tvH.getD 0 + 50000)

/-- A frame with the partner's claim that started at a tick is a witness if it started late enough (R396). -/
def Dev.witnessAt (claim start : Nat) (d : Dev) : Dev :=
  if (d.dx = dxSTANDBY ∨ d.dx = dxREADY ∨ d.dx = dxISOLATED) ∧ claim = d.rf R.DUPX_PEER_CLAIM_CLAIM ∧ d.tW + 1000 ≤ start then
    { d with dupx := { d.dupx with witness := some start } }
  else d

end Sys2Proof.Machine
end

