-- ==== Sys2Proof/Machine/Hol.lean ====
section
/-!
DEFINITION. The Holup segments (R284 to R312): schedules, frames sent and received, delays, presence, channels, claims and
the ARB queues. The instant at which a received frame's start crossed the sampler is in 0.5 ns of the counter.
-/
namespace Sys2Proof.Machine

def Dev.seg (d : Dev) (n : Nat) : HolSt := Tbl.getD {} d.hol n
def Dev.setSeg (n : Nat) (x : HolSt) (d : Dev) : Dev := { d with hol := Tbl.put n x d.hol }
def Dev.segUp (n : Nat) (f : HolSt → HolSt) (d : Dev) : Dev := d.setSeg n (f (d.seg n))
def Dev.holState (d : Dev) (n : Nat) : Nat := d.rf R.HOL_STATE_STATE n
def Dev.setHol (n st : Nat) (d : Dev) : Dev := d.wf R.HOL_STATE_STATE st n

/-- States (R311); of a slave, `sub` takes LISTEN, RUN, SYNCING and SILENT (R301). -/
def hsOFF : Nat := 0
def hsLISTEN : Nat := 1
def hsCOLDSTART : Nat := 2
def hsBACKOFF : Nat := 3
def hsFOLLOW : Nat := 4
def hsRUN : Nat := 5
def hsPASSIVE : Nat := 6
def hsYIELD : Nat := 7
def hsFENCED : Nat := 8
def hsSYNCING : Nat := 9
def hsSILENT : Nat := 10

/-- Frame types (R288). -/
def htSYNC : Nat := 1
def htOUT : Nat := 2
def htIN : Nat := 3
def htPOLL : Nat := 4
def htNULL : Nat := 5
def htARB : Nat := 6
def htCSTART : Nat := 7
def htDLYREQ : Nat := 8
def htDLYRSP : Nat := 9
def htDLYSET : Nat := 10

/-! ### Schedule (R291 to R295, R303) -/

def Dev.holRole (d : Dev) (n : Nat) : Nat := d.rf R.HOL_CFG_ROLE n
def Dev.holNode (d : Dev) (n : Nat) : Nat := d.rf R.HOL_CFG_NODE n
def Dev.holPoll (d : Dev) (n : Nat) : Bool := d.flag R.HOL_CFG_MODE n

/-- The device acts as master: RUN of a master role. -/
def Dev.holMaster (d : Dev) (n : Nat) : Bool := decide (d.holRole n ≠ 0) && decide (d.holState n = hsRUN)

/-- The device acts as slave: ROLE SLAVE or FOLLOW. -/
def Dev.holSlave (d : Dev) (n : Nat) : Bool :=
  decide (d.holState n ≠ hsOFF) && (decide (d.holRole n = 0) || decide (d.holState n = hsFOLLOW))

def Dev.holSch (d : Dev) (n : Nat) : HolSched := Tbl.getD {} d.cfg.hol n
def Dev.holPbc (d : Dev) (n : Nat) : Nat := d.rf R.HOL_CYC_M n * 10000
def Dev.holNbc (d : Dev) (n : Nat) : Nat := d.rf R.HOL_CFG_NBC n + 1

/-- The latest basic-cycle start at or before a view 0 time in ns (R291). -/
def Dev.holStart (d : Dev) (n ns : Nat) : Nat :=
  let ph := d.rf R.HOL_PHASE_PHASE n * 10
  let p := max 1 (d.holPbc n)
  (ns - ph) / p * p + ph

/-- The index of a basic cycle (R291). -/
def Dev.holIdx (d : Dev) (n b : Nat) : Nat := (b - d.rf R.HOL_PHASE_PHASE n * 10) / max 1 (d.holPbc n) % d.holNbc n

/-- Channel and offset of a descriptor under the schedule in force (R303); none: dropped. -/
def Dev.holPlace (d : Dev) (n : Nat) (x : HolDesc) : Option (Nat × Nat) :=
  let deg := if x.ch = 0 then d.flag R.HOL_STAT_DEG_A n else d.flag R.HOL_STAT_DEG_B n
  if deg then (if x.crit then some (x.chD, x.offsetD) else none) else some (x.ch, x.offset)

def Dev.chEn (d : Dev) (n ch : Nat) : Bool := bitAt (d.rf R.HOL_CFG_CHEN n) ch

/-- The descriptors that occur in the present basic cycle: index, descriptor, channel, offset. -/
def Dev.holNow (d : Dev) (n : Nat) : List (Nat × HolDesc × Nat × Nat) :=
  let bc := d.rf R.HOL_STATE_BC n
  ((d.holSch n).descs.mapIdx (fun i x => (i, x))).filterMap (fun e =>
    if bc % 2 ^ e.2.rep = e.2.base then
      match d.holPlace n e.2 with
      | some (c, o) => if d.chEn n c then some (e.1, e.2, c, o) else none
      | none => none
    else none)

/-- The slot index of a descriptor: its place among the exclusive slots of its channel and cycle, Sync at 0 (R292; log
entry 26). -/
def Dev.slotNo (d : Dev) (n i : Nat) : Nat :=
  let l := d.holNow n
  match l.find? (fun e => decide (e.1 = i)) with
  | none => 0
  | some (_, _, c, o) => 1 + (l.filter (fun e => decide (e.2.1.kind ≠ 2) && decide (e.2.2.1 = c) && decide (e.2.2.2 < o))).length

/-- Duration of a code group in ns (R285). -/
def Dev.tCg (d : Dev) (n : Nat) : Nat := if d.flag R.HOL_CFG_RATE n then 320 else 80

/-! ### Payloads and buffers (R304 to R306) -/

def Dev.holFields (d : Dev) (n dir i : Nat) : List FieldEl :=
  (d.cfg.io.filterMap (fun e => match e.body with
    | .holField s k x fs => if s = n ∧ k = dir ∧ x = i then some fs else none
    | _ => none)).flatten

/-- The device sends the buffer of this descriptor: OUT and POLL of a master, the node's own IN of a slave, poll replies. -/
def Dev.holSends (d : Dev) (n : Nat) (x : HolDesc) : Bool :=
  if d.holSlave n then (decide (x.kind = 1) || decide (x.kind = 3)) && decide (x.node = d.holNode n)
  else decide (x.kind = 0) || decide (x.kind = 3)

/-- Direction number of the fields the device sends, and of those it receives, in a descriptor. -/
def Dev.txDir (d : Dev) (n : Nat) : Nat := if d.holSlave n then 1 else 0
def Dev.rxDir (d : Dev) (n : Nat) : Nat := if d.holSlave n then 0 else 1

/-- Length of the data the device sends in a descriptor. -/
def Dev.txLen (d : Dev) (n : Nat) (x : HolDesc) : Nat := if x.kind = 3 ∧ d.holSlave n then x.ilen else x.len

def Dev.outBuf (d : Dev) (n i : Nat) : OutBuf := Tbl.getD {} (d.seg n).outs i
def Dev.setOutBuf (n i : Nat) (b : OutBuf) (d : Dev) : Dev := d.segUp n (fun x => { x with outs := Tbl.put i b x.outs })

/-- The cadences whose buffers a segment carries. -/
def HolSched.cads (x : HolSched) : List Nat := ((x.descs.filter (fun y => decide (y.kind ≠ 2))).map (·.cad)).eraseDups

/-- Fill the transmit buffers of a cadence (R110 step 6, R304); the first fill ends a hold (R306). -/
def Dev.holFill (c : Nat) (d : Dev) : Dev :=
  d.cfg.hol.foldl (fun d e =>
    if d.holState e.1 = hsOFF then d
    else (e.2.descs.mapIdx (fun i x => (i, x))).foldl (fun d y =>
      if y.2.cad = c ∧ y.2.kind ≠ 2 ∧ d.holSends e.1 y.2 then
        let pay := d.fillFields (d.holFields e.1 (d.txDir e.1) y.1) false (zeros (d.txLen e.1 y.2))
        (d.setOutBuf e.1 y.1 { d.outBuf e.1 y.1 with fill := pay, filled := true, fresh := true }).segUp e.1
          (fun s => { s with holdC := s.holdC.filter (· ≠ c), safeC := s.safeC.filter (· ≠ c) })
      else d) d) d

/-- The outputs of a cadence take their safe values: its slots send safe data (R306). -/
def Dev.holSafe (c : Option Nat) (d : Dev) : Dev :=
  d.cfg.hol.foldl (fun d e =>
    let cs := e.2.cads.filter (fun k => c.isNone || decide (c = some k))
    d.segUp e.1 (fun s => { s with holdC := s.holdC.filter (fun k => !cs.contains k), safeC := s.safeC.filter (fun k => !cs.contains k) ++ cs })) d

/-- A core reset: values held (R306). -/
def Dev.holHold (d : Dev) : Dev :=
  d.cfg.hol.foldl (fun d e => d.segUp e.1 (fun s => { s with holdC := e.2.cads.filter (fun k => !s.safeC.contains k) })) d

/-- The data of a segment are held until the first fill: the first frames of a takeover (R394). -/
def Dev.segHold (n : Nat) (d : Dev) : Dev := d.segUp n (fun s => { s with holdC := (d.holSch n).cads })

/-- Header flags HOLD and SAFE of a descriptor's data (R306). -/
def Dev.holFlags (d : Dev) (n : Nat) (x : HolDesc) : Bool × Bool := ((d.seg n).holdC.contains x.cad, (d.seg n).safeC.contains x.cad)

/-- SFLAGS HOLD and SAFE: every cadence of the segment is held, or safe (R306; log entry 124). -/
def Dev.segFlags (d : Dev) (n : Nat) : Bool × Bool :=
  let cs := (d.holSch n).cads
  let all (l : List Nat) : Bool := !cs.isEmpty && cs.all l.contains
  (all (d.seg n).holdC, all (d.seg n).safeC)

/-- The data of a data frame as it leaves: none when the slot is not ready (R304, R306). A slave sends its data as of the last SYNC (R310). -/
def Dev.holData (n i : Nat) (x : HolDesc) (d : Dev) : Option (List Byte) × Dev :=
  let b := d.outBuf n i
  let fl := d.holFlags n x
  let again := x.repeatF || fl.1
  if fl.2 then (some (d.fillFields (d.holFields n (d.txDir n) i) true (zeros (d.txLen n x))), d)
  else if d.holSlave n then
    match b.atSync with
    | some (p, new) => if new || again then (some p, d.setOutBuf n i { b with atSync := some (p, false) }) else (none, d)
    | none => (none, d)
  else if b.fresh || (b.filled && again) then (some b.fill, d.setOutBuf n i { b with fresh := false })
  else (none, d)

/-- The data of a POLL (R295): where the output is not ready the entry is polled all the same, with the latest fill; before any fill the bytes are not
stated: free values (log entry 124). -/
def Dev.pollData (n i : Nat) (x : HolDesc) (d : Dev) : List Byte × Dev :=
  let r := d.holData n i x
  match r.1 with
  | some p => (p, r.2)
  | none =>
    if (d.outBuf n i).filled then ((d.outBuf n i).fill, d)
    else (List.range x.len).foldl (fun (a : List Byte × Dev) _ => let v := a.2.fresh 8; (a.1 ++ [BitVec.ofNat 8 v.1], v.2)) ([], d)

/-- CLAIM of a master's frames, ECHO of a node's (R287, R307). -/
def Dev.claimField (d : Dev) (n : Nat) : Nat := if d.holSlave n then d.rf R.HOL_HCLAIM_V n else d.rf R.HOL_CLAIM_V n

/-- The mode of a segment as stamps know it (R101). -/
def Dev.holMode (d : Dev) (n : Nat) : Nat := 2 + b2n (d.flag R.HOL_CFG_RATE n)

/-- Class A stamp of a frame that this tick starts to send: SYNC and CSTART start here, others with their lead, seven code groups before
(R286, R291, R304). -/
def Dev.sendStamp (d : Dev) (n typ : Nat) : Nat :=
  stampA (d.holMode n) (4 * d.time.cnt + (if typ = htSYNC ∨ typ = htCSTART then 0 else 14 * d.tCg n))

/-- A frame on a channel releases the line at a view 0 time in ns (R294). -/
def Dev.lineBusy (n ch ns : Nat) (d : Dev) : Dev := { d with lineRel := Tbl.put (2 * n + ch) ns d.lineRel }

/-- Send a frame; `fl` its header flags HOLD and SAFE. -/
def Dev.holSend (n typ ch slot : Nat) (fl : Bool × Bool) (pay : List Byte) (d : Dev) : Dev :=
  let f : HolFrame := { typ := typ, hold := fl.1, safe := fl.2, src := d.holNode n, ch := ch, slot := slot, claim := d.claimField n, payload := pay }
  let groups := if typ = htSYNC ∨ typ = htCSTART then 14 + pay.length else 21 + pay.length
  ((d.noteTx (0x100 + 2 * n + ch) (d.sendStamp n typ)).lineBusy n ch (d.viewNs 0 + groups * d.tCg n)).emit (.hol n f f.line)

/-- Freeze the receive buffers of a cadence: newer data with AGE 0, else AGE rises; their signals take the status of R305. -/
def Dev.holFreeze (c : Nat) (d : Dev) : Dev :=
  d.cfg.hol.foldl (fun d e => (e.2.descs.mapIdx (fun i x => (i, x))).foldl (fun d y =>
    let takes := decide (y.2.kind = 3) || (if d.holSlave e.1 then decide (y.2.kind = 0) else decide (y.2.kind = 1))
    if !takes || decide (y.2.cad ≠ c) then d
    else
      let b := Tbl.getD {} (d.seg e.1).ins y.1
      let b : InBuf := if b.newer then { b with frozen := b.latest, newer := false, age := 0 } else { b with age := b.age + 1 }
      let d := d.segUp e.1 (fun s => { s with ins := Tbl.put y.1 b s.ins })
      let fs := d.holFields e.1 (d.rxDir e.1) y.1
      match b.frozen with
      | none => d.showFields fs none (mkStatus false 0 false false false false)
      | some (t, f) =>
        let ok := decide (b.age ≤ y.2.ageMax) && !f.safe
        let d := d.showFields fs (some f.payload) (mkStatus ok 0 (ok && f.hold) false false false)
        d.showDesc 0 (512 * e.1 + y.1) (leBytes 8 t ++ f.header.take 1 ++
          [BitVec.ofNat 8 f.payload.length, BitVec.ofNat 8 (min b.age 255), 0])) d) d

/-! ### Enabling, fencing -/

/-- A covered segment: ROLE DUPLEX (R379). -/
def Dev.covered (d : Dev) (n : Nat) : Bool := decide (d.holRole n = 3) && d.flag R.HOL_CTRL_EN n

def Dev.coveredSegs (d : Dev) : List Nat := (List.range d.nHol).filter d.covered

/-- Nanoseconds have passed since the present state of a segment began or its last valid SYNC came (R298). -/
def Dev.segWaited (d : Dev) (n ns : Nat) : Bool := decide (ns ≤ 2 * (d.time.cnt - (d.seg n).since))

/-- Enter a state of R298 in which time is measured. -/
def Dev.holEnter (n st : Nat) (d : Dev) : Dev := (d.setHol n st).segUp n (fun s => { s with since := d.time.cnt })

/-- Enter LISTEN. -/
def Dev.holListen (n : Nat) (d : Dev) : Dev :=
  ((d.holEnter n hsLISTEN).wf R.HOL_STAT_SYNCED 0 n).wf R.HOL_STAT_SILENT 0 n |>.segUp n (fun s => { s with sub := hsLISTEN, inb := 0 })

/-- EN becomes 1 (R298): LISTEN, or PASSIVE on a standby of a pair. Outputs of a Last that does not run are safe (R306). -/
def Dev.holEnable (n : Nat) (d : Dev) : Dev :=
  let d := ((d.wf R.HOL_CTRL_EN 1 n).wf R.HOL_STATE_SCHED (d.holSch n).sched n).wf R.HOL_STAT_FENCED 0 n
  let d := d.setSeg n { ldlyKnown := d.flag R.HOL_CFG_DLYMODE n, rxq := (d.seg n).rxq, txq := (d.seg n).txq, safeC := if d.running then [] else (d.holSch n).cads }
  if d.holRole n = 3 ∧ !d.dxRuns then d.setHol n hsPASSIVE else d.holListen n

/-- EN becomes 0: lines undriven. -/
def Dev.holDisable (n : Nat) (d : Dev) : Dev :=
  let d := (((d.wf R.HOL_CTRL_EN 0 n).setHol n hsOFF).wf R.HOL_STAT_SYNCED 0 n).wf R.HOL_STAT_FENCED 0 n
  d.setSeg n { rxq := (d.seg n).rxq, txq := (d.seg n).txq }

/-- Stop covered ports and the Last, and enter FENCED (R397). -/
def Dev.dxFence (d : Dev) : Dev :=
  if !d.dxRuns then d
  else
    let d := d.coveredSegs.foldl (fun d n => ((d.setHol n hsFENCED).wf R.HOL_STAT_FENCED 1 n).wf R.HOL_CLAIM_V 0 n) d
    let d := if d.running then d.stopLast else d
    let d := ((d.wf R.DUPX_STATE_STATE dxFENCED).wf R.DUPX_STAT_FENCED 1).wf R.DUPX_CLAIM_CLAIM 0
    (d.bump R.DUPX_CNT_FENCES 1).raise Ev.DUPX_FENCED 0 []

/-- Every port with DUPLEX frames has sent one with the new claim: a cadence of such a frame has had its first boundary (R394 step 5). -/
def Dev.dupPortsSend (d : Dev) : Bool :=
  let dup := d.cfg.io.filterMap (fun e => match e.body with | .ethTx p _ _ _ true _ _ => some (p, e.cad) | _ => none)
  dup.all (fun a => dup.any (fun b => decide (a.1 = b.1) && (match b.2 with | some n => (d.cad n).run | none => true)))

/-- A takeover is complete (R394): every covered port sends with the new claim and the fastest cadence has issued a token. -/
def Dev.takeCheck (d : Dev) : Dev :=
  let fast := d.usedCads.foldl (fun a n => if (d.rf R.TIME_CADn_CFG_MULT 0 n) < (d.rf R.TIME_CADn_CFG_MULT 0 a) then n else a)
    (d.usedCads.head?.getD 0)
  if d.dx = dxTAKING && d.coveredSegs.all (fun n => decide (d.holState n = hsRUN)) && d.dupPortsSend && (d.cad fast).run then
    d.wf R.DUPX_STATE_STATE dxSOLO
  else d

/-- A segment is fenced (R308): a covered one fences the device. -/
def Dev.holFence (n : Nat) (d : Dev) : Dev :=
  let d := ((d.setHol n hsFENCED).wf R.HOL_STAT_FENCED 1 n).raise Ev.HOL_FENCED n []
  if d.covered n then d.dxFence else d

/-! ### Presence and channels (R302, R303) -/

/-- The nodes of the schedule. -/
def Dev.holNodes (d : Dev) (n : Nat) : List Nat :=
  (((d.holSch n).descs.filter (fun x => decide (x.kind = 1) || decide (x.kind = 3))).map (·.node)).eraseDups

/-- A frame of a node was accepted on a channel. -/
def Dev.holHeard (n node ch : Nat) (d : Dev) : Dev :=
  let pres := d.rf R.HOL_PRESENT_V n
  let abs := d.rf R.HOL_ABSENT_V n
  let f (s : HolSt) : HolSt := { s with absN := Tbl.put node 0 s.absN, accA := s.accA || decide (ch = 0),
                                        accB := s.accB || decide (ch = 1),
                                        dlyNew := if bitAt pres node then s.dlyNew else s.dlyNew ++ [node] }
  let d := (d.segUp n f).wf R.HOL_PRESENT_V (setBits pres node 1 1) n
  if bitAt abs node then
    let d := d.wf R.HOL_ABSENT_V (setBits abs node 1 0) n
    let d := if (d.holNodes n).contains node then d.wf R.HOL_STAT_LONE 0 n else d
    d.raise Ev.HOL_NODE_BACK n [BitVec.ofNat 8 node]
  else d

/-- An expected frame of a node was not accepted. -/
def Dev.holMiss (n node : Nat) (d : Dev) : Dev :=
  let c := Tbl.getD 0 (d.seg n).absN node + 1
  let d := (d.segUp n (fun s => { s with absN := Tbl.put node c s.absN })).bump R.HOL_CNT_MISSED_COUNT 1 n
  let abs := d.rf R.HOL_ABSENT_V n
  if c < d.rf R.HOL_CFG_ABS_N n ∨ bitAt abs node then d
  else
    let d := (d.wf R.HOL_ABSENT_V (setBits abs node 1 1) n).wf R.HOL_PRESENT_V (setBits (d.rf R.HOL_PRESENT_V n) node 1 0) n
    let d := d.raise Ev.HOL_NODE_ABSENT n [BitVec.ofNat 8 node]
    if (d.holNodes n).all (fun i => bitAt (d.rf R.HOL_ABSENT_V n) i) ∧ !d.flag R.HOL_STAT_LONE n then
      (d.wf R.HOL_STAT_LONE 1 n).raise Ev.HOL_LONE n []
    else d

/-- One channel's verdict on the basic cycle (R303). -/
def Dev.holChan (n ch : Nat) (sched acc other : Bool) (d : Dev) : Dev :=
  let s := d.seg n
  let old := if ch = 0 then s.chfA else s.chfB
  let k := if sched && !acc && other then old + 1 else 0
  let d := d.segUp n (fun s => if ch = 0 then { s with chfA := k } else { s with chfB := k })
  let chf := if ch = 0 then R.HOL_STAT_CHF_A else R.HOL_STAT_CHF_B
  if k < d.rf R.HOL_CFG_CHF_N n ∨ k = 0 ∨ d.flag chf n then d
  else
    let d := (d.wf chf 1 n).raise Ev.HOL_CHFAIL n [BitVec.ofNat 8 ch]
    if (d.seg n).nextDeg = 0 then d.segUp n (fun s => { s with nextDeg := 2 ^ ch }) else d

/-- The verdict of a basic cycle, at the close of its last acceptance window. -/
def Dev.holJudge (n : Nat) (d : Dev) : Dev :=
  let s := d.seg n
  let d := if d.holMaster n then (d.holChan n 0 s.schedA s.accA s.accB).holChan n 1 s.schedB s.accB s.accA else d
  d.segUp n (fun s => { s with schedA := false, schedB := false, accA := false, accB := false })

/-! ### Sending -/

/-- Payload of SYNC and CSTART (R290): the frame start, which lies at the tick of the basic-cycle start (R291), as the medium sees it (R102,
R104). -/
def Dev.syncPayload (d : Dev) (n : Nat) : List Byte :=
  let s := d.seg n
  let t := (d.stampB 0 (4 * d.time.cnt) + toS 32 (d.rf R.HOL_EGR_LAT_EGR_LAT n) * 65536).toNat
  let hs := d.segFlags n
  let fl := d.rf R.HOL_STAT_DEG_A n + 2 * d.rf R.HOL_STAT_DEG_B n + 4 * s.nextDeg + 16 * b2n hs.1 + 32 * b2n hs.2
  leBytes 8 (t / 2 ^ 32) ++ leBytes 4 (t % 2 ^ 32) ++ [BitVec.ofNat 8 (d.rf R.HOL_STATE_BC n), BitVec.ofNat 8 fl] ++ leBytes 2 (d.holSch n).sched

/-- Send on both enabled channels. -/
def Dev.holBoth (n typ : Nat) (d : Dev) : Dev :=
  [0, 1].foldl (fun d c => if d.chEn n c then d.holSend n typ c 0 (false, false) (d.syncPayload n) else d) d

/-- The in-force bits take the next-macrocycle bits that SYNC frames have given (R303). -/
def Dev.degradeStep (n : Nat) (d : Dev) : Dev :=
  let nx := (d.seg n).annDeg
  let old := d.rf R.HOL_STAT_DEG_A n + 2 * d.rf R.HOL_STAT_DEG_B n
  let d := (d.wb R.HOL_STAT_DEG_A (bitAt nx 0) n).wb R.HOL_STAT_DEG_B (bitAt nx 1) n
  if nx = old then d else if nx = 0 then d.raise Ev.HOL_RESTORED n [] else d.raise Ev.HOL_DEGRADED n []

/-- HOL_BASIC_CYCLE_START (R291, R298, R299, R303, R309). -/
def Dev.holCycle (n : Nat) (d : Dev) : Dev :=
  if d.holState n = hsOFF ∨ d.rf R.HOL_CYC_M n < 2 then d
  else
    let b := d.holStart n (d.viewNs 0)
    let d := d.segUp n (fun s => { s with gotSlots := [], polled := none, lastB := b })
    let d := d.wf R.HOL_STATE_BC (d.holIdx n b) n
    let nx := (d.seg n).next
    let d := if nx = 1 ∧ d.dupx.goAt ≤ d.time.cnt then ((d.setHol n hsRUN).segUp n (fun s => { s with next := 0 })).takeCheck
             else if nx = 2 then (d.setHol n hsPASSIVE).segUp n (fun s => { s with next := 0 }) else d
    if d.holMaster n then
      let d := if d.rf R.HOL_STATE_BC n = 0 then d.degradeStep n else d
      (d.holBoth n htSYNC).segUp n (fun s => { s with annDeg := s.nextDeg })
    else if d.holState n = hsCOLDSTART ∧ 0 < (d.seg n).csLeft then
      (d.segUp n (fun s => { s with csLeft := s.csLeft - 1 })).holBoth n htCSTART
    else d

def Dev.holOk (d : Dev) (n : Nat) : Bool := decide (n < d.nHol)

def execHolBasicCycleStart (seg : Nat) (s : State) : Res := s.guarded (s.dev.holOk seg) (Dev.holCycle seg)

/-- HOL_SLOT_START (R295, R304). -/
def Dev.holSlot (n i : Nat) (d : Dev) : Dev :=
  match (d.holNow n).find? (fun e => decide (e.1 = i)) with
  | none => d
  | some (_, x, c, o) =>
    let own := (d.holMaster n && (decide (x.kind = 0) || decide (x.kind = 3))) ||
      (d.holSlave n && decide ((d.seg n).sub = hsRUN) && decide (x.kind = 1) && decide (x.node = d.holNode n))
    if !own then d
    else
      let fl := d.holFlags n x
      if x.kind = 3 then
        let r := d.pollData n i x
        let d := r.2
        let b := d.holStart n (d.viewNs 0 + 7 * d.tCg n)
        let e := b + 10 * o + (13 + r.1.length) * d.tCg n
        (d.segUp n (fun s => { s with polled := some (i, e) })).holSend n htPOLL c x.node fl r.1
      else
        let r := d.holData n i x
        match r.1 with
        | none => (r.2.holSend n htNULL c (d.slotNo n i) (false, false) []).bump R.HOL_CNT_NULLTX_COUNT 1 n
        | some pay => r.2.holSend n (if x.kind = 0 then htOUT else htIN) c (d.slotNo n i) fl pay

def execHolSlotStart (seg i : Nat) (s : State) : Res := s.guarded (s.dev.holOk seg) (Dev.holSlot seg i)

/-- HOL_SLOT_WINDOW_CLOSE (R302, R303). -/
def Dev.holClose (n i : Nat) (d : Dev) : Dev :=
  let l := (d.holNow n).filter (fun e => decide (e.2.1.kind = 1) || decide (e.2.1.kind = 3))
  match l.find? (fun e => decide (e.1 = i)) with
  | none => d
  | some (_, x, c, o) =>
    if !(d.holMaster n || decide (d.holState n = hsPASSIVE)) then d
    else
      let s := d.seg n
      let expected := decide (x.kind = 1) || decide (d.holState n = hsPASSIVE) || decide (s.polled.map Prod.fst = some i)
      let d := if expected && !s.gotSlots.contains i then d.holMiss n x.node else d
      let d := d.segUp n (fun s => { s with schedA := s.schedA || (expected && decide (c = 0)),
                                            schedB := s.schedB || (expected && decide (c = 1)),
                                            polled := if s.polled.map Prod.fst = some i then none else s.polled })
      if l.all (fun e => decide (e.2.2.2 < o) || (decide (e.2.2.2 = o) && decide (e.1 ≤ i))) then d.holJudge n else d

def execHolSlotWindowClose (seg i : Nat) (s : State) : Res := s.guarded (s.dev.holOk seg) (Dev.holClose seg i)

/-- Number in the receive and transmit queues, and the head entry (R312). -/
def Dev.arbShow (n : Nat) (d : Dev) : Dev :=
  let s := d.seg n
  let d := (d.wf R.HOL_ARBQ_STAT_RXN s.rxq.length n).wf R.HOL_ARBQ_STAT_TXN s.txq.length n
  let h := s.rxq.headD []
  (List.range 72).foldl (fun d w => d.wf R.HOL_ARBQ_HEAD_WORD (le h (4 * w) 4) n w) d

/-- The arbitrating window of a channel that is open now: its opening and its close in view 0, ns. -/
def Dev.arbWindow (d : Dev) (n ch : Nat) : Option (Nat × Nat) :=
  let now := d.viewNs 0
  let b := d.holStart n now
  ((d.holNow n).find? (fun e => decide (e.2.1.kind = 2) && decide (e.2.2.1 = ch) && decide (b + 10 * e.2.2.2 ≤ now) &&
    decide (now < b + 10 * (e.2.2.2 + e.2.1.len)))).map (fun e => (b + 10 * e.2.2.2, b + 10 * (e.2.2.2 + e.2.1.len)))

/-- A frame of priority `p` may start now: its wait (32p + i + 1) × t_m since the opening or the last release has passed, and its line occupation
ends at least g/2 before the close (R294). -/
def Dev.arbMay (d : Dev) (n ch p len : Nat) : Bool :=
  let now := d.viewNs 0
  let tm := 20 * d.rf R.HOL_TIMING_DMAX n + 2 * d.tCg n
  match d.arbWindow n ch with
  | some (op, cl) => decide (max op (Tbl.getD 0 d.lineRel (2 * n + ch)) + (32 * p + d.holNode n + 1) * tm ≤ now) &&
      decide (now + (21 + len) * d.tCg n + 5 * d.rf R.HOL_TIMING_GUARD n ≤ cl)
  | none => false

/-- The queued ARB frame of a channel with the lowest priority value, the first of equals. -/
def bestArb (ch : Nat) (q : List (List Byte)) : Option (List Byte) :=
  (q.filter (fun b => decide (byteAt b 8 % 2 = ch))).foldl (fun (a : Option (List Byte)) b => match a with
    | none => some b
    | some x => if byteAt b 15 % 8 < byteAt x 15 % 8 then some b else some x) none

/-- HOL_ARB_CONTEND (R294, R296): in an open window, the pending DLY_REQ, else the queued ARB frame that goes first. A delay request unanswered when a
later window opens counts toward its node's absence and is sent again. -/
def Dev.holContend (n ch : Nat) (d : Dev) : Dev :=
  let may := d.holMaster n || (d.holSlave n && decide ((d.seg n).sub = hsRUN))
  if !may || !d.chEn n ch then d
  else
    let t1 := d.sendStamp n htDLYREQ
    let d := match (d.seg n).dly, d.arbWindow n ch with
      | some (node, _, sent), some (op, _) => if d.holMaster n ∧ sent < op then
          (d.holMiss n node).segUp n (fun s => { s with dly := none, dlyPend := some node }) else d
      | _, _ => d
    match (d.seg n).dlyPend with
    | some node =>
      if d.arbMay n ch 0 0 then
        (d.segUp n (fun s => { s with dlyPend := none, dly := some (node, t1, d.viewNs 0) })).holSend n htDLYREQ ch node (false, false) []
      else d
    | none =>
      match bestArb ch (d.seg n).txq with
      | some b =>
        let pay := slice b 20 (min 254 (byteAt b 14))
        if d.arbMay n ch (byteAt b 15 % 8) pay.length then
          let d := d.segUp n (fun s => { s with txq := s.txq.erase b })
          (d.holSend n htARB ch (byteAt b 15 % 8) (false, false) pay).arbShow n
        else d
      | none => d

def execHolArbContend (seg ch : Nat) (s : State) : Res := s.guarded (s.dev.holOk seg && decide (ch < 2)) (Dev.holContend seg ch)

/-- HOL_POLL_REPLY_DUE (R295, R296, R301): the answer the device owes as a node, on the channel of the request; a silenced node sends nothing. -/
def Dev.holReply (n : Nat) (d : Dev) : Dev :=
  let sub := (d.seg n).sub
  let may := d.holSlave n && (decide (sub = hsSYNCING) || decide (sub = hsRUN))
  let owed := (d.seg n).owed
  let d := d.segUp n (fun s => { s with owed := none })
  match owed, may with
  | some (0, i, ch), true =>
    (match ((d.holSch n).descs[i]?) with
    | none => d
    | some x =>
      let fl := d.holFlags n x
      let r := d.holData n i x
      (match r.1 with
      | some pay => r.2.holSend n htIN ch (d.slotNo n i) fl pay
      | none => (r.2.holSend n htNULL ch (d.slotNo n i) (false, false) []).bump R.HOL_CNT_NULLTX_COUNT 1 n))
  | some (_, ch, t2), true =>
    let turn := (d.sendStamp n htDLYRSP - t2) * 2 ^ 17
    d.holSend n htDLYRSP ch 0 (false, false) (leBytes 4 turn ++ zeros 4)
  | _, _ => d

def execHolPollReplyDue (seg : Nat) (s : State) : Res := s.guarded (s.dev.holOk seg) (Dev.holReply seg)

/-- HOL_DELAY_MEASURE (R296): a node newly present, else the next present one in ascending node ID. -/
def Dev.holMeasure (n : Nat) (d : Dev) : Dev :=
  let s := d.seg n
  if !d.holMaster n || d.flag R.HOL_CFG_DLYMODE n || s.dlyPend.isSome || s.dly.isSome then d
  else
    let pres := d.rf R.HOL_PRESENT_V n
    let cyc := (List.range 32).map (fun k => (s.dlyLast + 1 + k) % 32)
    match s.dlyNew with
    | x :: t => d.setSeg n { s with dlyPend := some x, dlyNew := t }
    | [] =>
      match cyc.find? (fun x => bitAt pres x) with
      | some x => d.setSeg n { s with dlyPend := some x, dlyLast := x }
      | none => d

def execHolDelayMeasure (seg : Nat) (s : State) : Res := s.guarded (s.dev.holOk seg) (Dev.holMeasure seg)

/-! ### Receiving -/

/-- A collision in COLDSTART (R299). -/
def Dev.holCollide (n : Nat) (d : Dev) : Dev :=
  if d.holState n = hsCOLDSTART then (d.bump R.HOL_CNT_COLL_COUNT 1 n).holEnter n hsBACKOFF else d

/-- A frame is discarded (R289): a collision within the basic cycles of the three CSTART frames (R299). -/
def Dev.holDiscard (n : Nat) (d : Dev) : Dev :=
  if d.holState n = hsOFF then d
  else
    let d := d.bump R.HOL_CNT_CRC_COUNT 1 n
    if (d.seg n).csLeft < 3 then d.holCollide n else d

def execHolFrameDiscarded (seg arr : Nat) (s : State) : Res :=
  s.guarded (s.dev.holOk seg) (Dev.when_ (s.dev.chEn seg arr && s.dev.vddio (if seg < 12 then 4 else 5)) (fun d =>
    (d.holDiscard seg).lineBusy seg arr (d.viewNs 0)))

/-- Another master's frame, its claim no higher, is heard by a master in RUN, which keeps running (R300). -/
def Dev.holRival (n claim : Nat) (d : Dev) : Dev :=
  if d.holMaster n ∧ claim ≤ d.rf R.HOL_CLAIM_V n then
    let d := d.wf R.HOL_STAT_CONFLICT 1 n
    let due := match (d.seg n).conflictAt with | some t => decide (t + 500000000 ≤ d.time.cnt) | none => true
    if due then (d.segUp n (fun s => { s with conflictAt := some d.time.cnt })).raise Ev.HOL_MASTER_CONFLICT n [] else d
  else d

/-- A frame whose CLAIM is too low is ignored (R307). -/
def Dev.claimLow (d : Dev) (n claim : Nat) : Bool := decide (claim < d.rf R.HOL_HCLAIM_V n)
def Dev.holIgnore (n : Nat) (d : Dev) : Dev := d.bump R.HOL_CNT_FENCE_COUNT 1 n

/-- A frame with CLAIM is accepted (R307); it fences a master whose own claim is lower (R308). The second component: not fenced. -/
def Dev.holClaim (n claim : Nat) (d : Dev) : Dev × Bool :=
  let d := (d.wf R.HOL_HCLAIM_V claim n).seeClaim claim
  let master := decide (d.holRole n ≠ 0) && decide (d.holState n ≠ hsPASSIVE) && decide (d.holState n ≠ hsFENCED)
  if master && decide (d.rf R.HOL_CLAIM_V n < claim) then (d.holFence n, false) else (d, true)

/-- A frame that carries ECHO (R308). -/
def Dev.holEcho (n echo : Nat) (d : Dev) : Dev :=
  let d := (d.wf R.HOL_HCLAIM_V (max (d.rf R.HOL_HCLAIM_V n) echo) n).seeClaim echo
  let master := decide (d.holRole n ≠ 0) && decide (d.holState n ≠ hsPASSIVE) && decide (d.holState n ≠ hsFENCED)
  if master && decide (d.rf R.HOL_CLAIM_V n < echo) then d.holFence n else d

/-- Whether a frame can be received: segment on, channel in use, frame of another node on the channel it names, right type. -/
def Dev.holTakes (d : Dev) (n : Nat) (f : HolFrame) (arr typ : Nat) : Bool :=
  decide (d.holState n ≠ hsOFF) && d.chEn n arr && decide (f.ch = arr) && decide (f.typ = typ) &&
    decide (f.payload.length < 255)

/-- The lines of a segment carry something to its channels: HOL0 to HOL11 lie in bank 4, the others in bank 5 (R493, R497). -/
def Dev.holCarrier (d : Dev) (n : Nat) : Bool := d.vddio (if n < 12 then 4 else 5)

/-- The class A stamp of a received frame (R101), and a stamp as a view 0 time in 2^-42 ns (R293). -/
def Dev.stampOf (d : Dev) (n t : Nat) : Nat := stampA (d.holMode n) t
def Dev.stampView (d : Dev) (tick : Nat) : Int := d.viewHalf 0 (4 * tick)

/-- A reception: discarded when it does not fit (R289), else handled. -/
def State.holRx (s : State) (n : Nat) (f : HolFrame) (arr t typ : Nat) (g : Dev → Dev) : Res :=
  s.guarded (s.dev.holOk n && decide (arr < 2)) (fun d =>
    if d.holState n = hsOFF ∨ !d.chEn n arr ∨ !d.holCarrier n then d
    else
      let d := (d.noteRx (0x100 + 2 * n + arr) (d.stampOf n t)).lineBusy n arr
        ((d.stampView (d.stampOf n t)).toNat / 2 ^ 42 + (14 + f.payload.length) * d.tCg n)
      if d.holTakes n f arr typ then g d else d.holDiscard n)

/-- View 0 is stepped by −o (R297), o in 2^-32 ns. -/
def Dev.holStep (o : Int) (d : Dev) : Dev :=
  let d := d.setView 0 ((d.view 0 : Int) - o * 2 ^ 8).toNat
  d.raise Ev.TIME_STEP 0 ([0] ++ leBytes 8 d.time.cnt ++ leBytes 8 (ofS 64 (-(o / 2 ^ 32))))

/-- Steering of view 0 from a valid SYNC (R297, R98); the correction by rate has the sign of −o and a free size. -/
def Dev.holSteer (n : Nat) (o : Int) (inb : Bool) (two : Bool) (d : Dev) : Dev :=
  if !d.holSlave n || decide (d.rf R.TIME_VCTL_SRC 0 0 ≠ 3) || decide (d.rf R.TIME_VCTL_SEG 0 0 ≠ n) then d
  else
    let st := d.vstate 0
    if !inb && !d.running && decide (st = vsFREE) then d.holStep o
    else if !inb && !d.running && decide (st = vsARMED) && !d.locked 0 then
      (d.holStep o).wf R.TIME_VSTAT_STATE vsSPENT 0 0
    else
      let d := if !inb then d.loseLock 0 else if two then d.declareLock 0 else d
      let r := d.fresh 32
      let c : Int := r.1 % (incBand + 1)
      let t := clampI (2 ^ 41 - incBand) (2 ^ 41 + incBand) (2 ^ 41 - sgnI o * c)
      r.2.setTgt 0 t.toNat

/-- The slave's state after a valid SYNC (R301). -/
def Dev.slaveSync (n : Nat) (inb two : Bool) (d : Dev) : Dev :=
  let s := d.seg n
  let go (st : Nat) (d : Dev) : Dev :=
    let d := d.segUp n (fun s => { s with sub := st })
    let d := if d.holRole n = 0 then d.setHol n st else d
    (d.wb R.HOL_STAT_SYNCED (decide (st = hsRUN)) n).wb R.HOL_STAT_SILENT (decide (st = hsSILENT)) n
  if s.sub = hsRUN then
    if inb then d else ((go hsSILENT d).bump R.HOL_CNT_SILENCED_COUNT 1 n).raise Ev.HOL_SILENT n []
  else if s.sub = hsSILENT then (if two then go hsRUN d else d)
  else if s.sub = hsSYNCING then (if two && s.ldlyKnown then go hsRUN d else d)
  else go hsSYNCING d

/-- Another master's SYNC or CSTART ends LISTEN, COLDSTART and BACKOFF (R298 to R300). -/
def Dev.holHearMaster (n : Nat) (d : Dev) : Dev :=
  let st := d.holState n
  let follow (d : Dev) : Dev := (d.holEnter n hsFOLLOW).segUp n (fun s => { s with sub := hsLISTEN, inb := 0 })
  if d.holRole n = 0 then d
  else if st = hsLISTEN then
    if d.holRole n ≠ 2 ∧ d.holPoll n then
      ((d.setHol n hsYIELD).wf R.HOL_STAT_CONFLICT 1 n).raise Ev.HOL_MASTER_CONFLICT n []
    else follow d
  else if st = hsBACKOFF then follow d
  else if st = hsCOLDSTART then d.holCollide n
  else d

/-- A descriptor occurs in a basic cycle and is not dropped. -/
def Dev.holOccurs (d : Dev) (n bc : Nat) (x : HolDesc) : Bool := decide (bc % 2 ^ x.rep = x.base) && (d.holPlace n x).isSome

/-- The frame start of a SYNC at a slave (R310): output data received in the basic cycle before are applied, one that is missing makes a hold cycle, in
which the last data repeat; input data are sampled. -/
def Dev.slaveApply (n bc : Nat) (d : Dev) : Dev :=
  let before := (bc + d.holNbc n - 1) % d.holNbc n
  ((d.holSch n).descs.mapIdx (fun i x => (i, x))).foldl (fun d y =>
    let b := d.outBuf n y.1
    let d := if d.holSends n y.2 && b.fresh then d.setOutBuf n y.1 { b with fresh := false, atSync := some (b.fill, true) } else d
    let held (x : Option (Nat × HolFrame)) : Option (Nat × HolFrame) := x.map (fun p => (p.1, { p.2 with hold := true }))
    let g (z : InBuf) : InBuf := match z.recv with
      | some r => { z with latest := some r, newer := true, recv := none }
      | none => { z with latest := held z.latest, frozen := held z.frozen }
    let mine := decide (y.2.kind = 0) || (decide (y.2.kind = 3) && decide (y.2.node = d.holNode n))
    if mine && d.holOccurs n before y.2 then d.segUp n (fun s => { s with ins := Tbl.upd {} y.1 g s.ins }) else d) d

/-- HOL_SYNC (R290, R297, R300, R301, R307, R310, R396). -/
def Dev.holSync (n : Nat) (f : HolFrame) (t : Nat) (d : Dev) : Dev :=
  if f.payload.length ≠ 16 then d.holDiscard n
  else
    let d := if d.covered n then d.witnessAt f.claim (d.stampOf n t) else d
    let d := d.holRival n f.claim
    if d.claimLow n f.claim then d.holIgnore n else
    let a := d.holClaim n f.claim
    let d := a.1
    let own := (d.holSch n).sched
    let sched := le f.payload 14 2
    if !a.2 ∨ (d.holSlave n ∧ own ≠ 0 ∧ own ≠ sched) ∨ d.holMaster n then d
    else
      let d := d.holHearMaster n
      let lat := toS 32 (d.rf R.HOL_ING_LAT_ING_LAT n) + toS 32 (d.rf R.HOL_ASYM_ASYM n)
      let time : Int := ((le f.payload 0 8 * 2 ^ 32 + le f.payload 8 4 : Nat) : Int)
      let ldly : Int := (d.rf R.HOL_LDLY_DELAY n : Nat)
      let o : Int := d.stampB 0 t - (lat + ldly) * 65536 - time
      let o16 := roundDiv o 65536
      let inb := decide (4 * o.natAbs ≤ d.rf R.HOL_TIMING_GUARD n * (10 * 2 ^ 32))
      let k := if inb then (d.seg n).inb + 1 else 0
      let d := if d.holSlave n then d.slaveApply n (byteAt f.payload 12) else d
      let d := d.segUp n (fun s => { s with inb := k, nextDeg := byteAt f.payload 13 / 4 % 4, annDeg := byteAt f.payload 13 / 4 % 4, since := d.time.cnt,
                                            master := some f.src })
      let d := if decide (-(2 ^ 31) ≤ o16) && decide (o16 < 2 ^ 31) then d.wf R.HOL_OFFSET_V (ofS 32 o16) n
               else (d.fresh 32).2.wf R.HOL_OFFSET_V (d.fresh 32).1 n
      let d := (d.wf R.HOL_STAT_DEG_A (byteAt f.payload 13) n).wf R.HOL_STAT_DEG_B (byteAt f.payload 13 / 2) n
      let d := (d.wf R.HOL_STATE_BC (byteAt f.payload 12) n).wf R.HOL_STATE_SCHED sched n
      let d := if d.holSlave n then d.slaveSync n inb (decide (2 ≤ k)) else d
      d.holSteer n o inb (decide (2 ≤ k))

def execHolSync (seg : Nat) (f : HolFrame) (arr t : Nat) (s : State) : Res := s.holRx seg f arr t htSYNC (Dev.holSync seg f t)

/-- HOL_CSTART (R299): time is never taken from it. -/
def Dev.holCstart (n : Nat) (f : HolFrame) (d : Dev) : Dev :=
  if f.payload.length ≠ 16 then d.holDiscard n
  else
    let d := d.holRival n f.claim
    if d.claimLow n f.claim then d.holIgnore n
    else
      let a := d.holClaim n f.claim
      if a.2 then a.1.holHearMaster n else a.1

def execHolCstart (seg : Nat) (f : HolFrame) (arr t : Nat) (s : State) : Res :=
  s.holRx seg f arr t htCSTART (Dev.holCstart seg f)

/-- Complete an input buffer (R305); a slave applies output data at the next SYNC (R310). -/
def Dev.holFillIn (n i stamp : Nat) (f : HolFrame) (d : Dev) : Dev :=
  let g (b : InBuf) : InBuf := if d.holSlave n then { b with recv := some (stamp, f) } else { b with latest := some (stamp, f), newer := true }
  d.segUp n (fun s => { s with ins := Tbl.upd {} i g s.ins })

/-- The acceptance window of a frame in an exclusive slot (R293): the occurrence it falls in, or EARLY or LATE against the
nearest slot start. -/
def Dev.windowAt (n arr stamp : Nat) (kinds : List Nat) (d : Dev) : Option (Nat × HolDesc) × Dev :=
  let g : Nat := d.rf R.HOL_TIMING_GUARD n * 5 * 2 ^ 42
  let t' : Int := d.stampView stamp - (d.rf R.HOL_TIMING_DMAX n * 5 * 2 ^ 42 : Nat)
  let b : Int := ((d.holStart n ((t' + (g : Int)).toNat / 2 ^ 42) * 2 ^ 42 : Nat) : Int)
  let rel := t' - b
  let l := (d.holNow n).filter (fun e => kinds.contains e.2.1.kind && decide (e.2.2.1 = arr))
  let off (e : Nat × HolDesc × Nat × Nat) : Int := (e.2.2.2 * 10 * 2 ^ 42 : Nat)
  match l.find? (fun e => decide ((rel - off e).natAbs ≤ g)) with
  | some (i, x, _, _) => (some (i, x), d)
  | none =>
    match l.foldl (fun (a : Option (Nat × HolDesc × Nat × Nat)) e => match a with
      | none => some e
      | some y => if (rel - off e).natAbs < (rel - off y).natAbs then some e else some y) none with
    | some e => (none, if rel < off e then d.bump R.HOL_CNT_EARLY_COUNT 1 n else d.bump R.HOL_CNT_LATE_COUNT 1 n)
    | none => (none, d.bump R.HOL_CNT_LATE_COUNT 1 n)

/-- The window of a frame that started at an instant of the counter. -/
def Dev.holWindow (n arr t : Nat) (kinds : List Nat) (d : Dev) : Option (Nat × HolDesc) × Dev := d.windowAt n arr (d.stampOf n t) kinds

/-- The exclusive slot of a frame, at every receiver (R289, R293): none when it starts outside every window, when its length, slot or sender do not
agree (an OUT slot's sender is the master of the last SYNC), or when the occurrence has had its frame. -/
def Dev.holFit (n arr t : Nat) (f : HolFrame) (kinds : List Nat) (d : Dev) : Option (Nat × HolDesc) × Dev :=
  let w := d.holWindow n arr t kinds
  match w.1 with
  | none => w
  | some (i, x) =>
    let d := w.2
    let lenOk := decide (f.payload.length = if f.typ = htNULL then 0 else x.len)
    let srcOk := if x.kind = 0 then (d.seg n).master.all (fun m => decide (f.src = m)) else decide (f.src = x.node)
    if !lenOk || !srcOk || decide (f.slot ≠ d.slotNo n i) then (none, d.holDiscard n)
    else if (d.seg n).gotSlots.contains i then (none, d) else (some (i, x), d)

/-- A frame is accepted for a slot or entry: one an occurrence (R293). -/
def Dev.holGot (n i : Nat) (d : Dev) : Dev := d.segUp n (fun s => { s with gotSlots := s.gotSlots ++ [i] })

/-- HOL_OUT (R289, R293, R305, R307, R308): an accepted frame's claim counts, and a slave takes the data. -/
def Dev.holOut (n : Nat) (f : HolFrame) (arr t : Nat) (d : Dev) : Dev :=
  let d := d.holRival n f.claim
  if d.claimLow n f.claim then d.holIgnore n
  else
    let w := d.holFit n arr t f [0]
    match w.1 with
    | none => w.2
    | some (i, _) =>
      let a := (w.2.holGot n i).holClaim n f.claim
      if a.2 ∧ a.1.holSlave n then a.1.holFillIn n i (a.1.stampOf n t) f else a.1

def execHolOut (seg : Nat) (f : HolFrame) (arr t : Nat) (s : State) : Res := s.holRx seg f arr t htOUT (Dev.holOut seg f arr t)

/-- An answer to the POLL in flight (R295): its entry, whether it comes from the polled node with the declared length, whether it lies in its window. -/
def Dev.pollAnswer (n : Nat) (f : HolFrame) (arr t : Nat) (d : Dev) : Option (Nat × Bool × Bool) :=
  match (d.seg n).polled with
  | none => none
  | some (i, e) =>
    match (d.holSch n).descs[i]? with
    | none => none
    | some x =>
      let due : Int := ((e + d.rf R.HOL_TIMING_TTA n * 10) * 2 ^ 42 + 2 * d.rf R.HOL_NODE_DLY_DELAY n x.node * 2 ^ 26 : Nat)
      let inWin := decide ((d.stampView (d.stampOf n t) - due).natAbs ≤ d.rf R.HOL_TIMING_GUARD n * 5 * 2 ^ 42)
      let fits := decide (f.src = x.node) && decide (f.ch = arr) && decide (f.typ = htNULL ∨ f.payload.length = x.ilen)
      some (i, fits, inWin)

/-- A node's data or NULL frame is accepted for a slot or entry: it counts as heard and its ECHO counts (R302, R305, R308); a master or its standby
takes the data. -/
def Dev.holNode_ (n i : Nat) (f : HolFrame) (arr t : Nat) (d : Dev) : Dev :=
  let d := (d.holGot n i).holEcho n f.claim
  if !(d.holMaster n || decide (d.holState n = hsPASSIVE)) then d
  else
    let d := d.holHeard n f.src arr
    if f.typ = htNULL then d else d.holFillIn n i (d.stampOf n t) f

/-- A poll answer at the master or its standby (R295). -/
def Dev.holAnswer (n : Nat) (f : HolFrame) (arr t : Nat) (d : Dev) : Dev :=
  match d.pollAnswer n f arr t with
  | some (i, fits, inWin) =>
    if !fits then d.holDiscard n else if !inWin then d else (d.segUp n (fun s => { s with polled := none })).holNode_ n i f arr t
  | none =>
    if d.holState n = hsPASSIVE then
      (match (d.holNow n).find? (fun e => decide (e.2.1.kind = 3) && decide (e.2.1.node = f.src) && decide (e.2.2.1 = arr) &&
          !(d.seg n).gotSlots.contains e.1) with
      | some (i, x, _, _) => if f.typ ≠ htNULL ∧ f.payload.length ≠ x.ilen then d.holDiscard n else d.holNode_ n i f arr t
      | none => d)
    else d.holEcho n f.claim

/-- HOL_IN (R289, R293, R295, R305, R308). -/
def Dev.holIn (n : Nat) (f : HolFrame) (arr t : Nat) (d : Dev) : Dev :=
  if d.holPoll n then d.holAnswer n f arr t
  else
    let w := d.holFit n arr t f [1]
    match w.1 with
    | none => w.2
    | some (i, _) => w.2.holNode_ n i f arr t

def execHolIn (seg : Nat) (f : HolFrame) (arr t : Nat) (s : State) : Res := s.holRx seg f arr t htIN (Dev.holIn seg f arr t)

/-- HOL_NULL (R289, R293, R300, R302, R304): no data, in an OUT slot from the master or in an IN slot or an answer from a node. -/
def Dev.holNull (n : Nat) (f : HolFrame) (arr t : Nat) (d : Dev) : Dev :=
  if f.payload.length ≠ 0 then d.holDiscard n
  else if d.holPoll n then d.holAnswer n f arr t
  else
    let w := d.holFit n arr t f [0, 1]
    match w.1 with
    | none => w.2
    | some (i, x) => if x.kind = 0 then (w.2.holGot n i).holRival n f.claim else w.2.holNode_ n i f arr t

def execHolNull (seg : Nat) (f : HolFrame) (arr t : Nat) (s : State) : Res := s.holRx seg f arr t htNULL (Dev.holNull seg f arr t)

/-- HOL_POLL (R289, R295, R300, R301, R307): its destination takes the data and owes an answer. -/
def Dev.holPollRx (n : Nat) (f : HolFrame) (arr t : Nat) (d : Dev) : Dev :=
  let d := d.holRival n f.claim
  let es := (d.holSch n).descs.filter (fun x => decide (x.kind = 3) && decide (x.node = f.slot))
  if d.claimLow n f.claim then d.holIgnore n
  else if !es.isEmpty && es.all (fun x => decide (x.len ≠ f.payload.length)) then d.holDiscard n else
  let a := d.holClaim n f.claim
  let d := a.1
  if !a.2 then d
  else if d.holRole n ≠ 0 ∧ d.holState n = hsLISTEN ∧ d.holPoll n then d.holHearMaster n
  else
    let sub := (d.seg n).sub
    if !d.holSlave n || !d.holPoll n || decide (f.slot ≠ d.holNode n) || !(decide (sub = hsSYNCING) || decide (sub = hsRUN)) then d
    else
      match (d.holNow n).find? (fun e => decide (e.2.1.kind = 3) && decide (e.2.1.node = f.slot) && decide (e.2.2.1 = arr) &&
          !(d.seg n).gotSlots.contains e.1) with
      | none => d
      | some (i, x, _, _) =>
        if f.payload.length ≠ x.len then d.holDiscard n
        else
          let d := d.segUp n (fun s => { s with gotSlots := s.gotSlots ++ [i], owed := some (0, i, arr) })
          d.holFillIn n i (d.stampOf n t) f

def execHolPoll (seg : Nat) (f : HolFrame) (arr t : Nat) (s : State) : Res := s.holRx seg f arr t htPOLL (Dev.holPollRx seg f arr t)

/-- An ARB queue entry (R312). -/
def arbEntry (stamp : Nat) (f : HolFrame) : List Byte :=
  slice (leBytes 8 stamp ++ [BitVec.ofNat 8 f.ch, 0, 0, 0] ++ f.header ++ f.payload) 0 288

/-- HOL_ARB (R308, R312). -/
def Dev.holArb (n : Nat) (f : HolFrame) (arr t : Nat) (d : Dev) : Dev :=
  if f.payload.length < 2 then d.holDiscard n
  else
    let d := (d.holEcho n f.claim).holHeard n f.src arr
    let dest := byteAt f.payload 0
    if dest ≠ d.holNode n ∧ dest ≠ 0x3F then d
    else if 32 ≤ (d.seg n).rxq.length then d.wf R.HOL_STAT_RXOVF 1 n
    else
      let e := arbEntry (d.stampOf n t) f
      ((d.segUp n (fun s => { s with rxq := s.rxq ++ [e] })).arbShow n).assertSrc (1792 + n) []

def execHolArb (seg : Nat) (f : HolFrame) (arr t : Nat) (s : State) : Res := s.holRx seg f arr t htARB (Dev.holArb seg f arr t)

/-- HOL_DLY_REQ (R296, R301): the node owes a DLY_RSP. -/
def Dev.holDlyReq (n : Nat) (f : HolFrame) (arr t : Nat) (d : Dev) : Dev :=
  let sub := (d.seg n).sub
  if f.payload.length ≠ 0 then d.holDiscard n else
  let d := d.holRival n f.claim
  if d.holSlave n && decide (f.slot = d.holNode n) && (decide (sub = hsSYNCING) || decide (sub = hsRUN)) then
    d.segUp n (fun s => { s with owed := some (1, arr, d.stampOf n t) })
  else d

def execHolDlyReq (seg : Nat) (f : HolFrame) (arr t : Nat) (s : State) : Res := s.holRx seg f arr t htDLYREQ (Dev.holDlyReq seg f arr t)

/-- HOL_DLY_RSP (R296): d = ((t4 − t1) − TURN) / 2. -/
def Dev.holDlyRsp (n : Nat) (f : HolFrame) (arr t : Nat) (d : Dev) : Dev :=
  if f.payload.length ≠ 8 then d.holDiscard n
  else
    let d := d.holEcho n f.claim
    match (d.seg n).dly with
    | none => d
    | some (node, t1, _) =>
      if !d.holMaster n || decide (f.src ≠ node) then d
      else
        let dn : Int := (((d.stampOf n t : Int) - t1) * 2 ^ 17 - (le f.payload 0 4 : Nat)) / 2
        let d := ((d.segUp n (fun s => { s with dly := none })).holHeard n node arr).wf R.HOL_NODE_DLY_DELAY dn.toNat n node
        d.holSend n htDLYSET arr node (false, false) (leBytes 4 dn.toNat)

def execHolDlyRsp (seg : Nat) (f : HolFrame) (arr t : Nat) (s : State) : Res := s.holRx seg f arr t htDLYRSP (Dev.holDlyRsp seg f arr t)

/-- HOL_DLY_SET (R296): the node stores its line delay; a standby tracks the delays of the nodes (R298). -/
def Dev.holDlySet (n : Nat) (f : HolFrame) (d : Dev) : Dev :=
  if f.payload.length ≠ 4 then d.holDiscard n else
  let d := d.holRival n f.claim
  if d.holSlave n && decide (f.slot = d.holNode n) && !d.flag R.HOL_CFG_DLYMODE n then
    (d.wf R.HOL_LDLY_DELAY (le f.payload 0 4) n).segUp n (fun s => { s with ldlyKnown := true })
  else if d.holState n = hsPASSIVE ∧ !d.flag R.HOL_CFG_DLYMODE n ∧ f.slot < 32 then
    d.wf R.HOL_NODE_DLY_DELAY (le f.payload 0 4) n f.slot
  else d

def execHolDlySet (seg : Nat) (f : HolFrame) (arr t : Nat) (s : State) : Res :=
  s.holRx seg f arr t htDLYSET (Dev.holDlySet seg f)

/-! ### Time-outs and commands -/

/-- HOL_LISTEN_TIMEOUT (R298): 2 × NBC × P_bc have passed. -/
def Dev.listenEnd (n : Nat) (d : Dev) : Dev :=
  if d.holRole n = 0 ∨ d.holState n ≠ hsLISTEN ∨ d.segWaited n (2 * d.holNbc n * d.holPbc n) = false then d
  else if d.holRole n = 2 then (d.setHol n hsCOLDSTART).segUp n (fun s => { s with csLeft := 3 })
  else d.setHol n hsRUN

def execHolListenTimeout (seg : Nat) (s : State) : Res := s.guarded (s.dev.holOk seg) (Dev.listenEnd seg)

/-- HOL_COLDSTART_END (R299): the basic cycle of the third CSTART is over. -/
def Dev.coldEnd (n : Nat) (d : Dev) : Dev :=
  if d.holState n = hsCOLDSTART ∧ (d.seg n).csLeft = 0 ∧ (d.seg n).lastB + d.holPbc n ≤ d.viewNs 0 then (d.setHol n hsRUN).raise Ev.HOL_COLDSTART n [] else d

def execHolColdstartEnd (seg : Nat) (s : State) : Res := s.guarded (s.dev.holOk seg) (Dev.coldEnd seg)

/-- HOL_BACKOFF_END (R298): (node ID + 1) × P_bc have passed. -/
def Dev.backoffEnd (n : Nat) (d : Dev) : Dev :=
  if d.holState n = hsBACKOFF ∧ d.segWaited n ((d.holNode n + 1) * d.holPbc n) = true then (d.setHol n hsCOLDSTART).segUp n (fun s => { s with csLeft := 3 }) else d

def execHolBackoffEnd (seg : Nat) (s : State) : Res := s.guarded (s.dev.holOk seg) (Dev.backoffEnd seg)

/-- HOL_SYNC_TIMEOUT (R297, R298, R301, R310): 3 basic cycles without a valid SYNC. A slave in RUN and a master in FOLLOW listen again. The device's
loss reaction: the signals of its received data are not VALID (log entry 124). -/
def Dev.syncEnd (n : Nat) (d : Dev) : Dev :=
  if !d.holSlave n ∨ (d.holRole n = 0 ∧ d.holState n = hsLISTEN) ∨ d.segWaited n (3 * d.holPbc n) = false then d
  else
    let d := if d.rf R.TIME_VCTL_SRC 0 0 = 3 ∧ d.rf R.TIME_VCTL_SEG 0 0 = n then d.loseLock 0 else d
    let lost (x : Option (Nat × HolFrame)) : Option (Nat × HolFrame) := x.map (fun p => (p.1, { p.2 with safe := true }))
    let d := d.segUp n (fun s => { s with ins := Tbl.mapVals (fun _ b => { b with recv := none, latest := lost b.latest, frozen := lost b.frozen }) s.ins })
    if d.holRole n ≠ 0 ∨ (d.seg n).sub = hsRUN then d.holListen n else d

def execHolSyncTimeout (seg : Nat) (s : State) : Res := s.guarded (s.dev.holOk seg) (Dev.syncEnd seg)

/-- RESTART (R298, R311). -/
def Dev.holRestart (n : Nat) (d : Dev) : Dev := if d.holState n = hsYIELD then d.holListen n else d

def execHolRestart (seg : Nat) (s : State) : Res := s.regCmd R.HOL_CMD seg 0 true (Dev.holRestart seg)

/-- RESTORE (R303): the next macrocycle returns to the full schedule. -/
def Dev.holRestore (n : Nat) (d : Dev) : Dev :=
  if !d.holMaster n then d
  else ((d.wf R.HOL_STAT_CHF_A 0 n).wf R.HOL_STAT_CHF_B 0 n).segUp n (fun s => { s with nextDeg := 0, chfA := 0, chfB := 0 })

def execHolRestore (seg : Nat) (s : State) : Res := s.regCmd R.HOL_CMD seg 0 true (Dev.holRestore seg)

/-- CLRCNT (R311). -/
def Dev.holClrcnt (n : Nat) (d : Dev) : Dev :=
  [R.HOL_CNT_EARLY_COUNT, R.HOL_CNT_LATE_COUNT, R.HOL_CNT_CRC_COUNT, R.HOL_CNT_NULLTX_COUNT, R.HOL_CNT_FENCE_COUNT,
   R.HOL_CNT_COLL_COUNT, R.HOL_CNT_SILENCED_COUNT, R.HOL_CNT_MISSED_COUNT].foldl (fun d f => d.wf f 0 n) d

def execHolClrcnt (seg : Nat) (s : State) : Res := s.regCmd R.HOL_CMD seg 0 true (Dev.holClrcnt seg)

/-- ARBQ POP (R312). -/
def Dev.arbPop (n : Nat) (d : Dev) : Dev := (d.segUp n (fun s => { s with rxq := s.rxq.drop 1 })).arbShow n

def execArbqPop (seg : Nat) (s : State) : Res := s.regCmd R.HOL_ARBQ_CTL seg 0 true (Dev.arbPop seg)

/-- ARBQ SEND (R312). -/
def Dev.arbSend (n : Nat) (d : Dev) : Dev :=
  if 16 ≤ (d.seg n).txq.length then d.wf R.HOL_STAT_TXFULL 1 n
  else
    let e := ((List.range 72).map (fun w => leBytes 4 (d.rf R.HOL_ARBQ_TX_WORD n w))).flatten
    (d.segUp n (fun s => { s with txq := s.txq ++ [e] })).arbShow n

def execArbqSend (seg : Nat) (s : State) : Res := s.regCmd R.HOL_ARBQ_CTL seg 0 true (Dev.arbSend seg)

end Sys2Proof.Machine
end

