-- ==== Sys2Proof/Machine/Can.lean ====
section
/-!
DEFINITION. The CAN controllers (R313 to R331): filters, queues and buffers, transmission, fault confinement and
time-triggered operation.
-/
namespace Sys2Proof.Machine

def Dev.can_ (d : Dev) (c : Nat) : CanSt := Tbl.getD {} d.can c
def Dev.setCan (c : Nat) (x : CanSt) (d : Dev) : Dev := { d with can := Tbl.put c x d.can }
def Dev.canUp (c : Nat) (f : CanSt → CanSt) (d : Dev) : Dev := d.setCan c (f (d.can_ c))
def Dev.canOn (d : Dev) (c : Nat) : Bool := decide (c < d.nCan) && d.flag R.CAN_CTRL_EN c
def Dev.ttState (d : Dev) (c : Nat) : Nat := d.rf R.CAN_TT_STATE_STATE c
def Dev.setTt (c st : Nat) (d : Dev) : Dev := d.wf R.CAN_TT_STATE_STATE st c
def Dev.canRole (d : Dev) (c : Nat) : Nat := d.rf R.CAN_CFG_ROLE c
def Dev.canOk (d : Dev) (c : Nat) : Bool := decide (c < d.nCan)

/-- The controllers' lines lie in bank 6: without its supply they see no carrier (R493, R497). -/
def Dev.canCarrier (d : Dev) : Bool := d.vddio 6

/-- TT_STATE (R331). -/
def ttOFF : Nat := 0
def ttLISTEN : Nat := 1
def ttRUN : Nat := 2
def ttSILENT : Nat := 3
def ttMASTER : Nat := 4
def ttBACKUP : Nat := 5

/-! ### Frames -/

/-- Byte 8 of an entry (R319). -/
def CanFrame.dlcByte (f : CanFrame) : Nat := f.dlc + 16 * b2n f.fdf + 32 * b2n f.brs + 64 * b2n f.esi

/-- The ID word of an entry (R319). -/
def CanFrame.idWord (f : CanFrame) : Nat := f.id + 2 ^ 29 * b2n f.ide + 2 ^ 30 * b2n f.rtr

/-- A receive entry (R319). -/
def canEntry (stamp flt : Nat) (f : CanFrame) : List Byte :=
  leBytes 4 stamp ++ leBytes 4 f.idWord ++ [BitVec.ofNat 8 f.dlcByte, BitVec.ofNat 8 flt, BitVec.ofNat 8 f.data.length, 0] ++
    slice f.data 0 64 ++ zeros 4

/-- The frame stamp of a tick (R316). -/
def tscOf (tick : Nat) : Nat := tick / 50 % 2 ^ 32

/-- A frame stamp's tick as a view 0 time in ns (R326). -/
def Dev.stampNs (d : Dev) (tick : Nat) : Nat :=
  let w := d.vw 0
  ((w.base : Int) + ((tick / 50 * 50 : Nat) - (w.tb : Int)) * w.inc).toNat / 2 ^ 40

/-- The frame a transmit buffer holds (R314): FD frames need FDEN, a remote frame is a classic one of an event buffer, and an error-passive
sender sends ESI recessive. A buffer that asks for more is sent as the classic data frame of its DLC (log entry 127). -/
def Dev.txFrame (d : Dev) (c b : Nat) : CanFrame :=
  let i := d.rf R.CAN_TXB_ID_ID c b
  let k := d.rf R.CAN_TXB_DLC_DLC c b
  let fdf := bitAt k 4 && d.flag R.CAN_CFG_FDEN c
  let rtr := bitAt i 30 && !fdf && decide (d.rf R.CAN_TXB_CTL_KIND c b = 2)
  let data := ((List.range 16).map (fun w => leBytes 4 (d.rf R.CAN_TXB_DATA_DATA c b w))).flatten
  { id := i % 2 ^ 29, ide := bitAt i 29, rtr := rtr, dlc := k % 16, fdf := fdf, brs := fdf && bitAt k 5,
    esi := fdf && (bitAt k 6 || decide (d.rf R.CAN_ERR_FCS c = 1)), data := if rtr then [] else slice data 0 (dlcLen fdf (k % 16)) }

/-- The arbitration value: identifier, then RTR and IDE as they stand on the bus (R322). -/
def CanFrame.arb (f : CanFrame) : Nat :=
  let base := f.id / 2 ^ 18
  if f.ide then base * 2 ^ 21 + 2 ^ 20 + 2 ^ 19 + f.id % 2 ^ 18 * 2 + b2n f.rtr else base * 2 ^ 21 + b2n f.rtr * 2 ^ 20

/-- Nominal and data bit times in periods of the 80 MHz clock (R315). -/
def Dev.nbt (d : Dev) (c : Nat) : Nat :=
  (d.rf R.CAN_NBT_BRP c + 1) * (3 + d.rf R.CAN_NBT_TSEG1 c + d.rf R.CAN_NBT_TSEG2 c)
def Dev.dbt (d : Dev) (c : Nat) : Nat :=
  (d.rf R.CAN_DBT_DBRP c + 1) * (3 + d.rf R.CAN_DBT_DTSEG1 c + d.rf R.CAN_DBT_DTSEG2 c)

/-- Worst-case duration of a frame in 10^-1 ns (R326). -/
def Dev.frameNs10 (d : Dev) (c : Nat) (f : CanFrame) : Nat :=
  let n := f.data.length
  if f.fdf then
    let b := Config.canFdBits n f.ide f.brs
    b.1 * d.nbt c * 125 + b.2 * d.dbt c * 125
  else if f.ide then (67 + 8 * n + (53 + 8 * n) / 4) * d.nbt c * 125
  else (47 + 8 * n + (33 + 8 * n) / 4) * d.nbt c * 125

/-! ### Matrix (R326 to R329) -/

def Dev.canPbc (d : Dev) (c : Nat) : Nat := d.rf R.CAN_TT_CYC_M c * 10000
def Dev.canG (d : Dev) (c : Nat) : Nat := d.rf R.CAN_TT_TIMING_GUARD c * 100
def Dev.canWins (d : Dev) (c : Nat) : List CanWin := Tbl.getD [] d.cfg.can c

/-- Windows of the present basic cycle, with their indices in the matrix. -/
def Dev.canNow (d : Dev) (c : Nat) : List (Nat × CanWin) :=
  let bc := d.rf R.CAN_TT_STATE_BC c
  ((d.canWins c).mapIdx (fun i w => (i, w))).filter (fun e => decide (bc % 2 ^ e.2.rep = e.2.base))

/-- The latest basic-cycle start B at or before the present, and its index. -/
def Dev.canStart (d : Dev) (c : Nat) : Nat × Nat :=
  let ph := d.rf R.CAN_TT_PHASE_PHASE c * 10
  let k := (d.viewNs 0 - ph) / max 1 (d.canPbc c)
  (k * d.canPbc c + ph, k % (d.rf R.CAN_TT_CYC_NBC c + 1))

/-- The view 0 time is at or after an instant measured from the mark, in ns (R327 to R329). -/
def Dev.pastMark (d : Dev) (c ns : Nat) : Bool := (d.can_ c).mark.any (fun m => decide (m + ns ≤ d.viewNs 0))

/-- The controller may send in windows: it has a mark and is not silenced (R328, R329). -/
def Dev.ttSends (d : Dev) (c : Nat) : Bool :=
  let st := d.ttState c
  (d.can_ c).mark.isSome && (decide (st = ttRUN) || decide (st = ttMASTER) || decide (st = ttBACKUP))

/-! ### Reception (R318 to R321, R329) -/

/-- Entries held and the head entry of a receive queue (R319, R331). -/
def Dev.rxqShow (c : Nat) (d : Dev) : Dev :=
  [0, 1].foldl (fun d q =>
    let l := if q = 0 then (d.can_ c).q0 else (d.can_ c).q1
    let h := l.headD []
    (List.range 20).foldl (fun d w => d.wf R.CAN_RXQ_HEAD_WORD (le h (4 * w) 4) c q w) (d.wf R.CAN_RXQ_STAT_HELD l.length c q)) d

/-- Place an entry in a receive queue (R319). -/
def Dev.toQueue (c q : Nat) (e : List Byte) (d : Dev) : Dev :=
  let s := d.can_ c
  let l := if q = 0 then s.q0 else s.q1
  let put (l : List (List Byte)) (d : Dev) : Dev :=
    d.canUp c (fun s => if q = 0 then { s with q0 := l } else { s with q1 := l })
  let src := 1824 + 2 * c + q
  if l.length < 64 then ((put (l ++ [e]) d).rxqShow c).assertSrc src []
  else
    let ovwr := if q = 0 then d.flag R.CAN_CFG_OVWR0 c else d.flag R.CAN_CFG_OVWR1 c
    let d := if ovwr then ((put (l.drop 1 ++ [e]) d).rxqShow c).assertSrc src [] else d
    let d := if q = 0 then (d.wf R.CAN_STAT_RXOVF0 1 c).bump R.CAN_CNT_LOST0_COUNT 1 c
             else (d.wf R.CAN_STAT_RXOVF1 1 c).bump R.CAN_CNT_LOST1_COUNT 1 c
    let last := if q = 0 then s.ovf0 else s.ovf1
    let due := match last with | some t => decide (t + 500000000 ≤ d.time.cnt) | none => true
    if due then
      (d.canUp c (fun s => if q = 0 then { s with ovf0 := some d.time.cnt } else { s with ovf1 := some d.time.cnt })).raise
        Ev.CAN_RXOVF c [BitVec.ofNat 8 q]
    else d

/-- The registers of a receive buffer show an entry (R331). -/
def Dev.rxbShow (c b : Nat) (e : List Byte) (d : Dev) : Dev :=
  let d := ((d.wf R.CAN_RXB_STAMP_STAMP (le e 0 4) c b).wf R.CAN_RXB_ID_ID (le e 4 4) c b).wf R.CAN_RXB_DLC_DLC (le e 8 1) c b
  (List.range 16).foldl (fun d w => d.wf R.CAN_RXB_DATA_DATA (le e (12 + 4 * w) 4) c b w) d

/-- Place an entry in a receive buffer: a message buffer, or the latest of a cyclic one (R320, R321). -/
def Dev.toBuffer (c b : Nat) (e : List Byte) (d : Dev) : Dev :=
  if d.rf R.CAN_RXB_CTL_CAD c b = 0 then
    let d := if d.flag R.CAN_RXB_CTL_ND c b then d.wf R.CAN_RXB_CTL_OVW 1 c b else d
    (d.rxbShow c b e).wf R.CAN_RXB_CTL_ND 1 c b
  else d.canUp c (fun s => { s with rxb := Tbl.upd {} b (fun x => { x with latest := some e, newer := true }) s.rxb })

/-- A filter accepts a frame (R318). -/
def Dev.fltMatch (d : Dev) (c : Nat) (f : CanFrame) (i : Nat) : Bool :=
  let fmt := d.rf R.CAN_FLT_CFG_FMT c i
  decide (d.rf R.CAN_FLT_ID_ACTION c i ≠ 0) &&
    decide ((f.id ^^^ d.rf R.CAN_FLT_ID_ID c i) &&& d.rf R.CAN_FLT_MASK_MASK c i = 0) &&
    decide (f.ide = d.flag R.CAN_FLT_ID_IDE c i) &&
    (decide (fmt = 0) || (decide (fmt = 1) && !f.fdf && !f.rtr) || (decide (fmt = 2) && f.fdf) || (decide (fmt = 3) && f.rtr))

/-- A complete frame meets the filters (R318). -/
def Dev.canFilter (c : Nat) (f : CanFrame) (sof : Nat) (d : Dev) : Dev :=
  match (List.range 128).find? (d.fltMatch c f) with
  | some i =>
    let e := canEntry (tscOf sof) i f
    let a := d.rf R.CAN_FLT_ID_ACTION c i
    if a = 3 then d.toBuffer c (d.rf R.CAN_FLT_CFG_BUF c i) e else d.toQueue c (a - 1) e
  | none =>
    let e := canEntry (tscOf sof) 0xFF f
    let a := d.rf R.CAN_CFG_NOMATCH c
    if a = 1 ∨ a = 2 then d.toQueue c (a - 1) e else d.bump R.CAN_CNT_RXREJ_COUNT 1 c

/-! ### Error state (R324, R325) -/

/-- The error registers and state from the counters; each change of state raises its event. -/
def Dev.canErrShow (c : Nat) (d : Dev) : Dev :=
  let s := d.can_ c
  let old := d.rf R.CAN_ERR_FCS c
  let new := if old = 2 ∨ 256 ≤ s.tec then 2 else if 128 ≤ s.tec ∨ 128 ≤ s.rxerr then 1 else 0
  let d := ((d.wf R.CAN_ERR_TEC (min 255 s.tec) c).wf R.CAN_ERR_REC s.rxerr c).wb R.CAN_ERR_RP (decide (128 ≤ s.rxerr)) c
  if new = old then d
  else
    let d := d.wf R.CAN_ERR_FCS new c
    let d := if new = 2 then d.canUp c (fun s => { s with cur := none, recov := d.flag R.CAN_CFG_AUTOREC c }) else d
    d.raise (if new = 2 then Ev.CAN_BUSOFF else if new = 1 then Ev.CAN_PASSIVE else Ev.CAN_ACTIVE) c []

def Dev.busOff (d : Dev) (c : Nat) : Bool := decide (d.rf R.CAN_ERR_FCS c = 2)

/-- A successful reception lowers REC (ISO 11898-1); above 127 it takes a value the standard leaves open. -/
def Dev.recGood (c : Nat) (d : Dev) : Dev :=
  let r := (d.can_ c).rxerr
  if r = 0 then d
  else if r ≤ 127 then (d.canUp c (fun s => { s with rxerr := r - 1 })).canErrShow c
  else
    let v := d.fresh 32
    (v.2.canUp c (fun s => { s with rxerr := 119 + v.1 % 9 })).canErrShow c

/-- An exclusive window expects this frame's ID. -/
def CanWin.expects (w : CanWin) (f : CanFrame) : Bool := w.excl && decide (w.id = some (f.id, f.ide))

/-- How far an instant, in view 0 ns, lies from the start of the nearest window of a frame's ID, over the basic cycles up to one matrix before and after
the present one (R329). -/
def Dev.nearWin (d : Dev) (c mark : Nat) (f : CanFrame) (t : Int) : Option Int :=
  let bc := d.rf R.CAN_TT_STATE_BC c
  let nbc := d.rf R.CAN_TT_CYC_NBC c + 1
  let ws := (d.canWins c).filter (·.expects f)
  let l := (List.range (2 * nbc + 1)).flatMap (fun j => (ws.filter (fun w => decide ((bc + j) % nbc % 2 ^ w.rep = w.base))).map
    (fun w => t - (mark + w.offset * 100 : Nat) - ((j : Int) - nbc) * d.canPbc c))
  l.foldl (fun (a : Option Int) x => match a with
    | none => some x
    | some y => if x.natAbs < y.natAbs then some x else some y) none

/-- CAN_FRAME_RECEIVED (R318, R329): `sof` the tick of the frame's SOF. -/
def Dev.canRx (c : Nat) (f : CanFrame) (sof : Nat) (d : Dev) : Dev :=
  if !d.canOn c || !d.canCarrier || d.busOff c || (f.fdf && !d.flag R.CAN_CFG_FDEN c) then d
  else
    let d := d.recGood c
    let excl := (d.canWins c).filter (·.expects f)
    match (d.can_ c).mark, excl with
    | some m, _ :: _ =>
      if d.canRole c = 0 then d.canFilter c f sof
      else
        let t : Int := (d.stampNs sof : Nat)
        let on (e : Nat × CanWin) : Bool := e.2.expects f && decide (2 * (t - (m + e.2.offset * 100 : Nat)).natAbs ≤ d.canG c)
        if (d.canNow c).any on then d.canFilter c f sof
        else
          (match d.nearWin c m f t with
          | some x => if x < 0 then d.bump R.CAN_CNT_EARLY_COUNT 1 c else d.bump R.CAN_CNT_LATE_COUNT 1 c
          | none => d.bump R.CAN_CNT_LATE_COUNT 1 c)
    | _, _ => d.canFilter c f sof

def execCanFrameReceived (c : Nat) (f : CanFrame) (sof : Nat) (s : State) : Res :=
  s.guarded (s.dev.canOk c && f.ok) (Dev.canRx c f sof)

/-! ### References (R327, R329) -/

/-- The time master is now the one of priority p. -/
def Dev.canMaster (c p : Nat) (d : Dev) : Dev :=
  let old := (d.can_ c).master
  let d := (d.canUp c (fun s => { s with master := some p })).wf R.CAN_TT_STATE_MPRIO p c
  if old = some p then d else d.raise Ev.CAN_MASTER c []

/-- The slave's offset and state at a reference (R329). -/
def Dev.canOffset (c mark : Nat) (d : Dev) : Dev :=
  let s := d.can_ c
  match s.mark with
  | none => if d.ttState c = ttLISTEN then d.setTt c ttRUN else d
  | some m =>
    let o : Int := (mark : Int) - (m + d.canPbc c : Nat)
    let d := d.wf R.CAN_TT_OFFSET_OFFSET (ofS 32 o) c
    let inb := decide (4 * o.natAbs ≤ d.canG c)
    let k := if inb then s.good + 1 else 0
    let d := d.setCan c { s with good := k }
    if !inb then
      if d.ttState c = ttSILENT then d
      else (((d.setTt c ttSILENT).wf R.CAN_STAT_SILENT 1 c).canUp c (fun s => { s with wait := none, win := none })).raise
        Ev.CAN_SILENT c []
    else if d.ttState c = ttSILENT ∧ 2 ≤ k then (d.setTt c ttRUN).wf R.CAN_STAT_SILENT 0 c
    else d

/-- A valid reference: a classic base data frame of DLC 8 whose ID is REF_ID + p, with p in its payload and the zero bits zero (R327). -/
def Dev.isRef (d : Dev) (c : Nat) (f : CanFrame) : Bool :=
  !f.ide && !f.rtr && !f.fdf && decide (f.dlc = 8) &&
    decide (f.id / 2 ^ 18 / 8 * 8 = d.rf R.CAN_TT_TIMING_REFID c) && decide (byteAt f.data 1 = f.id / 2 ^ 18 % 8) &&
    decide (byteAt f.data 0 < 64)

/-- CAN_REFERENCE_RECEIVED (R326, R327, R329). -/
def Dev.canRef (c : Nat) (f : CanFrame) (sof : Nat) (d : Dev) : Dev :=
  if !d.canOn c || !d.canCarrier || d.busOff c || decide (d.canRole c = 0) || !d.isRef c f then d
  else
    let d := (d.recGood c).canFilter c f sof
    let mark := d.stampNs sof
    let d := if d.canRole c = 1 then d.canOffset c mark else d.setTt c ttBACKUP
    let d := d.canUp c (fun s => { s with mark := some mark, win := none, wait := none, opened := [], refPend := false })
    (d.wf R.CAN_TT_STATE_BC (byteAt f.data 0) c).canMaster c (f.id / 2 ^ 18 % 8)

def execCanReferenceReceived (c : Nat) (f : CanFrame) (sof : Nat) (s : State) : Res :=
  s.guarded (s.dev.canOk c && f.ok) (Dev.canRef c f sof)

/-- A basic-cycle start B has come since the last mark (R327). A mark follows its B within the delay to the next idle bit, and its stamp may lie
100 ns early (R316): a B is a new one when it lies more than half a period after the mark (log entry 108). -/
def Dev.newStart (d : Dev) (c : Nat) : Bool :=
  (d.can_ c).mark.all (fun m => decide (2 * m + d.canPbc c < 2 * (d.canStart c).1))

/-- CAN_REFERENCE_DUE (R327): at a basic-cycle start the time master queues its reference. -/
def Dev.refDue (c : Nat) (d : Dev) : Dev :=
  if d.canOn c && decide (d.canRole c = 2) && decide (d.ttState c = ttMASTER) && d.newStart c then d.canUp c (fun s => { s with refPend := true }) else d

def execCanReferenceDue (c : Nat) (s : State) : Res := s.guarded (s.dev.canOk c) (Dev.refDue c)

/-- A backup's instant (R327): the previous mark + P_bc + (p + 1) × g; without a mark, the first B after it has listened for 2 × NBC × P_bc. -/
def Dev.backupTime (d : Dev) (c : Nat) : Bool :=
  if (d.can_ c).mark.isSome then d.pastMark c (d.canPbc c + (d.rf R.CAN_TT_TIMING_PRIO c + 1) * d.canG c)
  else decide ((d.can_ c).since + 2 * (d.rf R.CAN_TT_CYC_NBC c + 1) * d.canPbc c ≤ (d.canStart c).1)

/-- CAN_BACKUP_DUE (R327): a backup, or a potential master without a mark, sends one. -/
def Dev.backupDue (c : Nat) (d : Dev) : Dev :=
  if d.canOn c && decide (d.canRole c = 2) && (decide (d.ttState c = ttBACKUP) || decide (d.ttState c = ttLISTEN)) && d.backupTime c then
    d.canUp c (fun s => { s with refPend := true })
  else d

def execCanBackupDue (c : Nat) (s : State) : Res := s.guarded (s.dev.canOk c) (Dev.backupDue c)

/-- CAN_REFERENCE_TIMEOUT (R329): no reference by mark + P_bc + g/2; the slave sends nothing until the next valid reference, against
which no offset is measured: its predecessor is missing (log entry 128). -/
def Dev.refTimeout (c : Nat) (d : Dev) : Dev :=
  if d.canOn c && decide (d.canRole c = 1) && d.pastMark c (d.canPbc c + d.canG c / 2) then
    let d := d.canUp c (fun s => { s with mark := none, win := none, wait := none, good := 0 })
    if d.ttState c = ttSILENT then d else d.setTt c ttLISTEN
  else d

def execCanReferenceTimeout (c : Nat) (s : State) : Res := s.guarded (s.dev.canOk c) (Dev.refTimeout c)

/-- The reference message this controller sends (R327). -/
def Dev.refFrame (d : Dev) (c : Nat) : CanFrame :=
  let p := d.rf R.CAN_TT_TIMING_PRIO c
  let b := d.canStart c
  { id := (d.rf R.CAN_TT_TIMING_REFID c + p) * 2 ^ 18, dlc := 8,
    data := [BitVec.ofNat 8 b.2, BitVec.ofNat 8 p] ++ leBytes 6 (b.1 / 1000) }

/-! ### Transmission (R322, R323, R328) -/

def Dev.txbSt (d : Dev) (c b : Nat) : TxBuf := Tbl.getD {} (d.can_ c).txb b
def Dev.setTxb (c b : Nat) (x : TxBuf) (d : Dev) : Dev := d.canUp c (fun s => { s with txb := Tbl.put b x s.txb })

/-- Buffers bound to exclusive windows. -/
def Dev.exclBufs (d : Dev) (c : Nat) : List Nat := (d.canWins c).filterMap (fun w => if w.excl then w.buf else none)

/-- A fill has completed that was not sent yet. -/
def TxBuf.fresh (x : TxBuf) : Bool := decide (x.sent < x.fills)

/-- The cyclic buffer's values are held or safe (R330). -/
def Dev.txHeld (d : Dev) (c b : Nat) : Bool :=
  ((d.can_ c).holdC ++ (d.can_ c).safeC).contains (d.rf R.CAN_TXB_CTL_CAD c b)

/-- A buffer has something to send in its exclusive window (R328, R330). -/
def Dev.txReady (d : Dev) (c b : Nat) : Bool :=
  let x := d.txbSt c b
  if d.rf R.CAN_TXB_CTL_KIND c b = 1 then
    x.fresh || (decide (x.fills ≠ 0) && (d.flag R.CAN_TXB_CTL_REPEAT c b || d.txHeld c b))
  else decide (d.rf R.CAN_TXB_CTL_KIND c b = 2) && d.flag R.CAN_TXB_CTL_PEND c b

/-- CAN_WINDOW_START (R328), once in a basic cycle from mark + OFFSET on: an arbitrating window opens, or a bound buffer waits for an idle
bus with the latest fill completed before. -/
def Dev.winStart (c i : Nat) (d : Dev) : Dev :=
  if !d.canOn c || !d.ttSends c then d
  else match (d.canNow c).find? (fun e => decide (e.1 = i)) with
    | none => d
    | some (_, w) =>
      let wait := match w.buf with | some b => if w.excl && d.txReady c b then some (b, d.txFrame c b, (d.txbSt c b).fills) else none | none => none
      if (d.can_ c).opened.contains i || !d.pastMark c (w.offset * 100) then d
      else d.canUp c (fun s => { s with win := some i, wait := wait, opened := s.opened ++ [i] })

def execCanWindowStart (c i : Nat) (s : State) : Res := s.guarded (s.dev.canOk c) (Dev.winStart c i)

/-- The SOF of the window that waits would fall later than s + g/2 (R328). -/
def Dev.sofLate (d : Dev) (c : Nat) : Bool :=
  match (d.can_ c).win.bind (fun i => (d.canWins c)[i]?) with
  | some w => (d.can_ c).mark.any (fun m => decide (m + w.offset * 100 + d.canG c / 2 < d.viewNs 0))
  | none => true

/-- CAN_TXMISS (R328). -/
def Dev.txMiss (c : Nat) (d : Dev) : Dev :=
  if (d.can_ c).wait.isSome && d.sofLate c then (d.canUp c (fun s => { s with wait := none })).bump R.CAN_CNT_TXMISS_COUNT 1 c else d

def execCanTxmiss (c : Nat) (s : State) : Res := s.guarded (s.dev.canOk c) (Dev.txMiss c)

/-- A frame started now ends at least g/2 before the arbitrating window closes (R328). -/
def Dev.fitsWin (d : Dev) (c : Nat) (f : CanFrame) (m : Nat) (w : CanWin) : Bool :=
  decide (d.viewNs 0 * 10 + d.frameNs10 c f + d.canG c * 5 ≤ (m + (w.offset + w.len) * 100) * 10)

/-- Pending buffers that may send now, with their frames. -/
def Dev.offers (d : Dev) (c : Nat) : List (Nat × CanFrame) :=
  let all := (List.range 64).filterMap (fun b => if d.flag R.CAN_TXB_CTL_PEND c b then some (b, d.txFrame c b) else none)
  if d.canRole c = 0 then all
  else
    let s := d.can_ c
    match s.win, s.mark with
    | some i, some m =>
      (match (d.canWins c)[i]? with
      | some w =>
        if w.excl || !d.ttSends c then []
        else
          let bound := match w.buf with
            | some b => if d.rf R.CAN_TXB_CTL_KIND c b = 1 ∧ d.txReady c b then [(b, d.txFrame c b)] else []
            | none => []
          (bound ++ all.filter (fun e => !(d.exclBufs c).contains e.1)).filter (fun e => d.fitsWin c e.2 m w)
      | none => [])
    | _, _ => []

/-- The lowest arbitration value, then the lowest buffer. -/
def lowestArb : List (Nat × CanFrame) → Option (Nat × CanFrame)
  | [] => none
  | e :: t => match lowestArb t with
    | some y => if y.2.arb < e.2.arb ∨ (y.2.arb = e.2.arb ∧ y.1 < e.1) then some y else some e
    | none => some e

/-- CAN_TX_START: the bus is idle; the reference, the buffer of the open exclusive window, or the lowest pending frame
starts. -/
def Dev.txStart (c : Nat) (d : Dev) : Dev :=
  let s := d.can_ c
  if !d.canOn c || d.busOff c || d.flag R.CAN_CFG_MON c || d.flag R.CAN_CFG_RESTR c || s.cur.isSome then d
  else
    let go (b : Nat) (f : CanFrame) (fill : Nat) (excl : Bool) (d : Dev) : Dev :=
      let d := d.canUp c (fun s => { s with cur := some (b, f, d.time.cnt, excl), wait := if excl then none else s.wait })
      if b < 64 then d.setTxb c b { d.txbSt c b with sent := fill } else d
    if s.refPend then go 64 (d.refFrame c) 0 false d
    else match s.wait with
      | some (b, f, n) => if d.sofLate c then d else go b f n true d
      | none => match lowestArb (d.offers c) with
        | some (b, f) => go b f (d.txbSt c b).fills false d
        | none => d

def execCanTxStart (c : Nat) (s : State) : Res := s.guarded (s.dev.canOk c) (Dev.txStart c)

/-- A pending buffer ends without being sent: a cyclic one waits for its next fill. -/
def Dev.txDrop (c b : Nat) (cancelled : Bool) (d : Dev) : Dev :=
  let d := (d.wf R.CAN_TXB_CTL_PEND 0 c b).setTxb c b { d.txbSt c b with cancelHeld := false, sent := (d.txbSt c b).fills }
  if cancelled then d.wf R.CAN_TXB_CTL_CANCELLED 1 c b else d

/-- An attempt ends without success: a held cancel is honoured, a frame of an exclusive window is not sent again, others stay
pending, a cyclic buffer's in an arbitrating window as its latest fill (R322, R323). -/
def Dev.txEnd (c : Nat) (d : Dev) : Dev :=
  match (d.can_ c).cur with
  | none => d
  | some (b, _, _, excl) =>
    let d := d.canUp c (fun s => { s with cur := none })
    let x := d.txbSt c b
    if 64 ≤ b then d
    else if x.cancelHeld then d.txDrop c b true
    else if excl then (d.wf R.CAN_TXB_CTL_PEND 0 c b).setTxb c b { x with cancelHeld := false }
    else d.setTxb c b { x with sent := x.fills - 1 }

/-- CAN_ARBITRATION_LOST (R323, R327): a reference that loses stays queued, and its sender is backup once the reference that won is taken. -/
def Dev.arbLost (c : Nat) (d : Dev) : Dev := d.txEnd c

def execCanArbitrationLost (c : Nat) (s : State) : Res := s.guarded (s.dev.canOk c) (Dev.arbLost c)

/-- CAN_TX_COMPLETE (R322, R323, R325, R327): no frame completes on a line that shows no carrier (R497). -/
def Dev.txComplete (c : Nat) (d : Dev) : Dev :=
  match (d.can_ c).cur with
  | none => d
  | some (b, f, sof, _) =>
    if !d.canCarrier then d else
    let d := (d.canUp c (fun s => { s with cur := none, ack := 0, tec := s.tec - 1 })).emit (.can c f)
    let d := d.canErrShow c
    let d := if d.flag R.CAN_STAT_LONE c then (d.wf R.CAN_STAT_LONE 0 c).raise Ev.CAN_LONE_END c [] else d
    if 64 ≤ b then
      let d := d.canUp c (fun s => { s with refPend := false, mark := some (d.stampNs sof), win := none, wait := none, opened := [] })
      ((d.setTt c ttMASTER).wf R.CAN_TT_STATE_BC (byteAt f.data 0) c).canMaster c (d.rf R.CAN_TT_TIMING_PRIO c)
    else
      let x := d.txbSt c b
      let d := (d.wb R.CAN_TXB_CTL_PEND (x.fresh && decide (d.canRole c = 0)) c b).wf R.CAN_TXB_CTL_TXOK 1 c b
      let d := if x.cancelHeld then d.wf R.CAN_TXB_CTL_CANCEL_LATE 1 c b else d
      d.setTxb c b { x with cancelHeld := false }

def execCanTxComplete (c : Nat) (s : State) : Res := s.guarded (s.dev.canOk c) (Dev.txComplete c)

/-- What an error adds to TEC (ISO 11898-1): 8, but nothing for an error-passive transmitter's ACK error whose passive flag stays recessive and
for a stuff error in arbitration; 8 for each further event. -/
def CanErr.tecAdd (e : CanErr) (passive : Bool) : Nat :=
  if !e.tx then 0 else (if (decide (e.lec = 3) && passive && !e.dom) || (decide (e.lec = 1) && e.stuffArb) then 0 else 8) + 8 * e.extra

/-- What an error adds to REC: 1, 8 for a dominant bit after the receiver's flag, 8 for each further event. -/
def CanErr.recAdd (e : CanErr) : Nat := if e.tx then 0 else 1 + (if e.dom then 8 else 0) + 8 * e.extra

/-- CAN_ERROR (R314, R324, R325): the counters change as ISO 11898-1 has it (log entry 129). -/
def Dev.canError (c : Nat) (e : CanErr) (d : Dev) : Dev :=
  if !d.canOn c || d.busOff c then d
  else if e.pex ∧ !d.flag R.CAN_CFG_PXHD c then d.wf R.CAN_STAT_PEX 1 c
  else
    let d := if e.tx then d.txEnd c else d
    let d := (d.canUp c (fun s => { s with tec := s.tec + e.tecAdd (decide (d.rf R.CAN_ERR_FCS c = 1)), rxerr := s.rxerr + e.recAdd })).wf R.CAN_ERR_LEC
      (if e.pex then 2 else e.lec) c
    let d := d.canErrShow c
    if e.tx ∧ e.lec = 3 then
      let k := (d.can_ c).ack + 1
      let d := d.canUp c (fun s => { s with ack := k })
      if k = 16 then (d.wf R.CAN_STAT_LONE 1 c).raise Ev.CAN_LONE c [] else d
    else d

def execCanError (c : Nat) (e : CanErr) (s : State) : Res := s.guarded (s.dev.canOk c && decide (e.lec < 7)) (Dev.canError c e)

/-- CAN_BUSOFF_RECOVERY (R324). -/
def Dev.busBack (c : Nat) (d : Dev) : Dev :=
  if d.busOff c && (d.can_ c).recov then
    let d := d.canUp c (fun s => { s with tec := 0, rxerr := 0, recov := false })
    (((d.wf R.CAN_ERR_FCS 0 c).wf R.CAN_ERR_TEC 0 c).wf R.CAN_ERR_REC 0 c).wf R.CAN_ERR_RP 0 c |>.raise Ev.CAN_ACTIVE c []
  else d

def execCanBusoffRecovery (c : Nat) (s : State) : Res := s.guarded (s.dev.canOk c) (Dev.busBack c)

/-! ### Commands -/

/-- REQ (R322, R323): a REQ while a cancel is held replaces the cancel. -/
def Dev.canReq (c b : Nat) (d : Dev) : Dev :=
  if d.rf R.CAN_TXB_CTL_KIND c b = 2 then
    (d.wf R.CAN_TXB_CTL_PEND 1 c b).setTxb c b { d.txbSt c b with cancelHeld := false }
  else d

def execCanReq (c b : Nat) (s : State) : Res := s.regCmd R.CAN_TXB_CTL c b (decide (b < 64)) (Dev.canReq c b)

/-- A buffer waits to be sent: PEND is set, its exclusive window waits for an idle bus, or it may start in the open arbitrating window. -/
def Dev.txPending (d : Dev) (c b : Nat) : Bool :=
  d.flag R.CAN_TXB_CTL_PEND c b || decide ((d.can_ c).wait.map Prod.fst = some b) || (d.offers c).any (fun e => decide (e.1 = b))

/-- A buffer's exclusive window no longer waits for it. -/
def CanSt.unwait (b : Nat) (s : CanSt) : CanSt := { s with wait := if s.wait.map Prod.fst = some b then none else s.wait }

/-- CANCEL (R323). -/
def Dev.canCancel (c b : Nat) (d : Dev) : Dev :=
  if (d.can_ c).cur.map Prod.fst = some b then d.setTxb c b { d.txbSt c b with cancelHeld := true }
  else if d.txPending c b then (d.txDrop c b true).canUp c (CanSt.unwait b)
  else d

def execCanCancel (c b : Nat) (s : State) : Res := s.regCmd R.CAN_TXB_CTL c b (decide (b < 64)) (Dev.canCancel c b)

/-- RXQ_POP (R319). -/
def Dev.rxqPop (c q : Nat) (d : Dev) : Dev :=
  (d.canUp c (fun s => if q = 0 then { s with q0 := s.q0.drop 1 } else { s with q1 := s.q1.drop 1 })).rxqShow c

def execRxqPop (c qn : Nat) (s : State) : Res := s.regCmd R.CAN_RXQ_CTL c 0 (decide (qn < 2)) (Dev.rxqPop c qn)

/-- RECOVER (R324). -/
def Dev.canRecover (c : Nat) (d : Dev) : Dev := if d.busOff c then d.canUp c (fun s => { s with recov := true }) else d

def execCanRecover (c : Nat) (s : State) : Res := s.regCmd R.CAN_CMD c 0 true (Dev.canRecover c)

/-- CLRCNT (R331). -/
def Dev.canClrcnt (c : Nat) (d : Dev) : Dev :=
  [R.CAN_CNT_EARLY_COUNT, R.CAN_CNT_LATE_COUNT, R.CAN_CNT_RXREJ_COUNT, R.CAN_CNT_TXMISS_COUNT, R.CAN_CNT_LOST0_COUNT,
   R.CAN_CNT_LOST1_COUNT].foldl (fun d f => d.wf f 0 c) d

def execCanClrcnt (c : Nat) (s : State) : Res := s.regCmd R.CAN_CMD c 0 true (Dev.canClrcnt c)

/-- TSCAP (R317). -/
def Dev.tscap (c : Nat) (d : Dev) : Dev :=
  let d := (d.wf R.CAN_TSCAP_CNT_V (tscOf d.time.cnt) c).wf R.CAN_TSCAP_NS_LO_V (d.viewNs 1) c
  ((d.wf R.CAN_TSCAP_NS_HI_V (d.viewNs 1 / 2 ^ 32) c).wf R.CAN_TSCAP_FRAC_V (d.viewFrac 1) c).wf R.CAN_TSCAP_CTL_DONE 1 c

def execTscap (c : Nat) (s : State) : Res := s.regCmd R.CAN_TSCAP_CTL c 0 true (Dev.tscap c)

/-! ### Enabling, boundaries and holds (R321, R322, R330) -/

/-- EN becomes 0: TXD recessive. -/
def Dev.canDisable (c : Nat) (d : Dev) : Dev :=
  (((d.wf R.CAN_CTRL_EN 0 c).wf R.CAN_STAT_SILENT 0 c).canUp c (fun s => { s with cur := none, win := none, wait := none, refPend := false, mark := none })).setTt
    c ttOFF

/-- The fields that IOMAP gives a buffer: direction 0 transmit, 1 receive. -/
def Dev.canFields (d : Dev) (c dir b : Nat) : List FieldEl :=
  (d.cfg.io.map (fun e => match e.body with
    | .canField c' r b' fs => if c' = c ∧ r = dir ∧ b' = b then fs else []
    | _ => [])).flatten

/-- The controllers that are enabled, with each of their buffers. -/
def Dev.canBufs (d : Dev) : List (Nat × Nat) :=
  ((List.range d.nCan).filter d.canOn).flatMap (fun c => (List.range 64).map (fun b => (c, b)))

/-- A cyclic transmit buffer of a cadence. -/
def Dev.canCyc (d : Dev) (cad c b : Nat) : Bool :=
  decide (d.rf R.CAN_TXB_CTL_KIND c b = 1) && decide (d.rf R.CAN_TXB_CTL_CAD c b = cad)

/-- The transmit buffers of a cadence: controller, buffer. -/
def Dev.canTx (d : Dev) (cad : Nat) : List (Nat × Nat) := d.canBufs.filter (fun e => d.canCyc cad e.1 e.2)

/-- Fill one transmit buffer. -/
def Dev.canFillOne (safe : Bool) (c b : Nat) (d : Dev) : Dev :=
  let k := d.rf R.CAN_TXB_DLC_DLC c b
  let pay := slice (d.fillFields (d.canFields c 0 b) safe (zeros (dlcLen (bitAt k 4) (k % 16)))) 0 64
  let d := (List.range 16).foldl (fun d w => d.wf R.CAN_TXB_DATA_DATA (le pay (4 * w) 4) c b w) d
  let d := d.setTxb c b { d.txbSt c b with fills := (d.txbSt c b).fills + 1 }
  if d.canRole c = 0 then d.wf R.CAN_TXB_CTL_PEND 1 c b else d

/-- Fill the cyclic buffers of a cadence (R110 step 6, R322); a fill ends a hold. -/
def Dev.canFill (cad : Nat) (d : Dev) : Dev :=
  (d.canTx cad).foldl (fun d e =>
    (d.canFillOne false e.1 e.2).canUp e.1 (fun s => { s with holdC := s.holdC.filter (· ≠ cad), safeC := s.safeC.filter (· ≠ cad) })) d

/-- A cyclic buffer after a stop or HOLD_MAX (R330): safe values, or nothing. -/
def Dev.canSafeOne (c b : Nat) (d : Dev) : Dev :=
  if d.flag R.CAN_TXB_CTL_HACT c b then d.canFillOne true c b
  else ((d.wf R.CAN_TXB_CTL_PEND 0 c b).setTxb c b {}).canUp c (CanSt.unwait b)

/-- The cyclic buffers of a cadence after a stop or HOLD_MAX (R330). -/
def Dev.canSafe (cad : Nat) (d : Dev) : Dev :=
  (d.canTx cad).foldl (fun d e => (d.canSafeOne e.1 e.2).canUp e.1
    (fun s => { s with holdC := s.holdC.filter (· ≠ cad), safeC := s.safeC.filter (· ≠ cad) ++ [cad] })) d

/-- A core reset: latched values, REPEAT treated as set, but where they are safe already. -/
def Dev.canHold (d : Dev) : Dev :=
  (List.range d.nCan).foldl (fun d c =>
    if d.canOn c then d.canUp c (fun s => { s with holdC := (List.range 8).filter (fun k => !s.safeC.contains k) }) else d) d

/-- EN becomes 1: queues and error counters are as they were (R331), and the cyclic buffers of a Last that does not run are safe (R330). -/
def Dev.canEnable (c : Nat) (d : Dev) : Dev :=
  let s := d.can_ c
  let d := (((d.wf R.CAN_CTRL_EN 1 c).wf R.CAN_STAT_SILENT 0 c).setCan c
    { q0 := s.q0, q1 := s.q1, ovf0 := s.ovf0, ovf1 := s.ovf1, tec := s.tec, rxerr := s.rxerr, recov := s.recov, ack := s.ack, since := d.viewNs 0,
      safeC := if d.running then [] else List.range 8 }).setTt c (if d.canRole c = 0 then ttOFF else ttLISTEN)
  if d.running then d
  else ((List.range 64).filter (fun b => decide (d.rf R.CAN_TXB_CTL_KIND c b = 1))).foldl (fun d b => d.canSafeOne c b) d

/-- Freeze one cyclic receive buffer and show its fields and its descriptor (R321, R305). -/
def Dev.canFreezeOne (c b : Nat) (d : Dev) : Dev :=
  let x := Tbl.getD {} (d.can_ c).rxb b
  let x : RxBuf := if x.newer then { x with frozen := x.latest, newer := false, age := 0 } else { x with age := x.age + 1 }
  let d := (d.canUp c (fun s => { s with rxb := Tbl.put b x s.rxb })).wf R.CAN_RXB_CTL_AGE (min 255 x.age) c b
  let fs := d.canFields c 1 b
  match x.frozen with
  | none => d.showFields fs none (mkStatus false 0 false false false false)
  | some en =>
    let ok := decide (x.age ≤ d.rf R.CAN_RXB_CTL_AGE_MAX c b)
    let d := (d.rxbShow c b en).showFields fs (some (slice en 12 64)) (mkStatus ok 0 false false false false)
    d.showDesc 1 (64 * c + b) (slice en 0 4 ++ zeros 4 ++ slice en 8 1 ++ slice en 10 1 ++ [BitVec.ofNat 8 (min 255 x.age), 0])

/-- Freeze the cyclic receive buffers of a cadence (R321). -/
def Dev.canFreeze (cad : Nat) (d : Dev) : Dev :=
  (d.canBufs.filter (fun e => decide (d.rf R.CAN_RXB_CTL_CAD e.1 e.2 = cad + 1))).foldl (fun d e => d.canFreezeOne e.1 e.2) d

end Sys2Proof.Machine
end

