-- ==== Sys2Proof/Machine/Net.lean ====
section
/-!
DEFINITION. The Ethernet ports: links, PRP, egress queues and gates, cyclic frames and buffers, and PTP (R332 to R353).
-/
namespace Sys2Proof.Machine

/-! ### One-step stamping (R101, R102, R104) -/

/-- Fields of a PTP message: type, two-step flag, sequence, correction and timestamp in 2^-32 ns. -/
def ptpType (m : List Byte) : Nat := byteAt m 0 % 16
def ptpTwoStep (m : List Byte) : Bool := bitAt (byteAt m 6) 1
def ptpSeq (m : List Byte) : Nat := be m 30 2
def ptpCorr (m : List Byte) : Int := toS 64 (be m 8 8) * 65536
def ptpTime (m : List Byte) : Int := ((be m 34 6 * 1000000000 + be m 40 4) * 2 ^ 32 : Nat)

/-- The corrected class B stamps of a PTP event message whose start crossed the sampler at an instant of the counter in 0.5 ns (R102). -/
def Dev.ptpRx (d : Dev) (n t : Nat) : Int :=
  d.stampB 1 t - (toS 32 (d.rf R.ETH_ING_LAT_ING_LAT n) + toS 32 (d.rf R.ETH_ASYM_ASYM n)) * 65536
def Dev.ptpTx (d : Dev) (n t : Nat) : Int := d.stampB 1 t + toS 32 (d.rf R.ETH_EGR_LAT_EGR_LAT n) * 65536

/-- A message's header and body (IEEE 1588). -/
def Dev.ptpMsg (d : Dev) (n typ seq : Nat) (corr : Int) (logI : Int) (body : List Byte) : List Byte :=
  [BitVec.ofNat 8 typ, 0x12] ++ beBytes 2 (34 + body.length) ++ [BitVec.ofNat 8 d.net.domain, 0, 0,
   (if typ = 11 then 0x0C else 0)] ++ beBytes 8 (ofS 64 corr) ++ zeros 4 ++
    (beBytes 3 (d.mac n / 2 ^ 24) ++ [0xFF, 0xFE] ++ beBytes 3 (d.mac n % 2 ^ 24)) ++ beBytes 2 (n + 1) ++ beBytes 2 seq ++
    [0, BitVec.ofNat 8 (ofS 8 logI)] ++ body

/-- A timestamp in seconds and nanoseconds; the rest of a time, in 2^-16 ns rounded down, goes to the correction (R104). -/
def tsBytes (t : Int) : List Byte :=
  let ns := (t / 2 ^ 32).toNat
  beBytes 6 (ns / 1000000000) ++ beBytes 4 (ns % 1000000000)
def subNs (t : Int) : Int := t % 2 ^ 32 / 65536

/-- An event message as it leaves (R104): Sync, Delay_Req and Pdelay_Req carry t_tx, Pdelay_Resp the turnaround. -/
def PtpTx.stamped (x : PtpTx) (tx : Int) : List Byte :=
  let m := x.msg
  let c (e : Int) : List Byte := beBytes 8 (ofS 64 (toS 64 (be m 8 8) + e))
  if ptpType m = 3 then slice m 0 8 ++ c ((tx - x.rx) / 65536) ++ m.drop 16
  else slice m 0 8 ++ c (subNs tx) ++ slice m 16 18 ++ tsBytes tx ++ m.drop 44

/-- A PTP message in the port's transport, without trailer (R343, R344). -/
def Dev.ptpFrame (d : Dev) (n : Nat) (m : List Byte) : List Byte :=
  let ev := decide (ptpType m < 8)
  let pd := decide (ptpType m = 2) || decide (ptpType m = 3) || decide (ptpType m = 10)
  if d.net.l2 then ethFrame (if pd then 0x0180C200000E else 0x011B19000000) (d.mac n) 0x88F7 m
  else
    let addr := (d.addr (n / 2)).getD 0
    let p := if ev then 319 else 320
    ethFrame (if pd then 0x01005E00006B else 0x01005E000181) (d.mac n) 0x0800
      (ipv4 17 addr (if pd then 0xE000006B else 0xE0000181) (udp p p m))

/-- The mode of a port, as stamps know it (R101, R332), and the time of bytes on its line in 0.5 ns. -/
def Dev.ethMode (d : Dev) (n : Nat) : Nat := b2n (d.flag R.ETH_CFG_SPEED n)
def Dev.byteHalves (d : Dev) (n len : Nat) : Nat := if d.flag R.ETH_CFG_SPEED n then ceilDiv (len * 8) 5 else len * 16

/-- The bytes of a frame as it leaves; a request's departure is kept for its answer (R104, R343). -/
def Dev.ptpLeave (n half : Nat) (x : EthTx) (d : Dev) : List Byte × Dev :=
  match x.ptp with
  | none => (x.bytes, d)
  | some p =>
    let tx := d.ptpTx n (half + p.sub)
    let d := d.portUp n (fun s =>
      if ptpType p.msg = 1 then { s with dlyT3 := some (ptpSeq p.msg, tx) }
      else if ptpType p.msg = 2 then { s with pdT1 := some (ptpSeq p.msg, tx), pdResp := none }
      else s)
    (d.ptpFrame n (p.stamped tx), d)

/-- ETH_FRAME_SENT (R101, R104, R341). -/
def Dev.ethSent (n : Nat) (d : Dev) : Dev :=
  match (d.port n).sending with
  | none => d
  | some x =>
    let half := 4 * d.time.cnt - d.byteHalves n (x.bytes.length + 4)
    let f := d.ptpLeave n half x
    let d := (f.2.portUp n (fun s => { s with sending := none })).emit (.eth n x.queue f.1)
    ((d.noteTx n (stampA (d.ethMode n) half)).bump R.ETH_CNT_TXOK_COUNT 1 n).ethKick n

def execEthFrameSent (port : Nat) (s : State) : Res := s.guarded (s.dev.ethOk port) (Dev.ethSent port)

/-- SWAP (R340, R341). -/
def Dev.gclSwap (n : Nat) (d : Dev) : Dev :=
  if d.gateOk n (d.gateList n false) then
    (d.portUp n (fun s => { s with swapAt := some s.chg })).wf R.ETH_GCL_CTL_PENDING 1 n
  else d.wf R.ETH_GCL_CTL_REFUSED 1 n

def execEthSwap (port : Nat) (s : State) : Res := s.regCmd R.ETH_GCL_CTL port 0 true (Dev.gclSwap port)

/-- A list becomes the operating list (R341). -/
def Dev.gateOper (n : Nat) (l : List (Nat × Nat)) (d : Dev) : Dev :=
  let d := (List.range l.length).foldl (fun (d : Dev) i =>
    (d.wf R.ETH_GCL_OPER_MASK (nth (0, 0) l i).1 n i).wf R.ETH_GCL_OPER_INTV (nth (0, 0) l i).2 n i) d
  ((d.wf R.ETH_GCL_CTL_NOPER (l.length - 1) n).wf R.ETH_GCL_CTL_PENDING 0 n).portUp n
    (fun s => { s with swapAt := none, operCyc := d.rf R.ETH_GCL_CYC_CYC n, operPhase := d.rf R.ETH_GCL_PHASE_PHASE n })

/-- ETH_GATE_CHANGE (R340, R341): at a cycle start of the list that waits a due swap takes effect (log entry 6); then a frame may start. -/
def Dev.gateChange (n : Nat) (d : Dev) : Dev :=
  let cyc := max 1 (d.rf R.ETH_GCL_CYC_CYC n * 10)
  let ph := d.rf R.ETH_GCL_PHASE_PHASE n * 10
  let start := (d.viewNs 0 - ph) / cyc * cyc + ph
  let fresh := decide (d.viewNs 0 < start + 3)
  let d : Dev := match (d.port n).swapAt with
    | some t =>
      if fresh && decide (t ≤ start) then d.gateOper n (d.gateList n false)
      else d
    | none => d
  d.ethKick n

def execEthGateChange (port : Nat) (s : State) : Res := s.guarded (s.dev.ethOk port) (Dev.gateChange port)

/-- The gate list that a Last gives a port: it operates from the load on (R340; log entry 6). -/
def Dev.gateLoad (e : Nat × GateRec) (d : Dev) : Dev :=
  if d.nPorts ≤ e.1 then d
  else
    let d := (d.wf R.ETH_GCL_CYC_CYC e.2.cyc e.1).wf R.ETH_GCL_PHASE_PHASE e.2.phase e.1
    let d := (List.range e.2.ents.length).foldl (fun (d : Dev) i =>
      (d.wf R.ETH_GCL_ADMIN_MASK (nth (0, 0) e.2.ents i).1 e.1 i).wf R.ETH_GCL_ADMIN_INTV (nth (0, 0) e.2.ents i).2 e.1 i) d
    ((d.wf R.ETH_GCL_CTL_NADMIN (e.2.ents.length - 1) e.1).gateOper e.1 e.2.ents).wf R.ETH_GCL_CTL_EN 1 e.1

/-! ### Links and modules (R332, R334) -/

/-- TX_DISABLE of a port's cage: high while EN = 0 (R332). -/
def Dev.txDisable (d : Dev) (n : Nat) : Bool := !d.flag R.ETH_CTRL_EN n

/-- ETH_LINK_CHANGE. -/
def Dev.linkChange (n : Nat) (up : Bool) (d : Dev) : Dev :=
  if d.flag R.ETH_STAT_LINK n = up then d
  else
    let d := (d.wb R.ETH_STAT_LINK up n).wf R.ETH_STAT_LINKCHG 1 n
    let d := d.raise Ev.ETH_LINK n [BitVec.ofNat 8 n, BitVec.ofNat 8 (b2n up)]
    if up then d.ethKick n
    else match (d.port n).sending with
      | some _ => d.portUp n (fun s => { s with sending := none, txErr := cnt32 s.txErr 1 })
      | none => d

def execEthLinkChange (port : Nat) (up : Bool) (s : State) : Res := s.guarded (s.dev.ethOk port) (Dev.linkChange port up)

/-- ETH_MODULE_CHANGE. -/
def Dev.moduleChange (n : Nat) (present fault : Bool) (id : List Byte) (d : Dev) : Dev :=
  ((d.wb R.ETH_STAT_MODABS (!present) n).wb R.ETH_STAT_TXFAULT fault n).portUp n
    (fun s => { s with moduleId := if present then id else [] })

def execEthModuleChange (port : Nat) (present fault : Bool) (id : List Byte) (s : State) : Res :=
  s.guarded (s.dev.ethOk port) (Dev.moduleChange port present fault id)

/-! ### Cyclic frames and buffers (R342, R352, R398) -/

/-- The transmit frames of a cadence: entry number, port, queue, REPEAT, HACT, DUPLEX, template, fields. -/
def Dev.ethTxs (d : Dev) (cad : Nat) : List (Nat × Nat × Nat × Bool × Bool × Bool × List Byte × List FieldEl) :=
  (d.cfg.io.mapIdx (fun i e => (i, e))).filterMap (fun e => match e.2.body with
    | .ethTx p q r h x t fs => if e.2.cad = some cad then some (e.1, p, q, r, h, x, t, fs) else none
    | _ => none)

/-- CLAIM, SIDE and three zero bytes at the end of a DUPLEX frame's payload (R398). -/
def Dev.claimTail (d : Dev) : List Byte :=
  leBytes 4 (d.rf R.DUPX_CLAIM_CLAIM) ++ [BitVec.ofNat 8 (d.rf R.DUPX_CFG_SIDE), 0, 0, 0]

/-- Cyclic frames of a cadence at its boundary: `mode` 0 the values latched, 1 the last fill again (a core reset), 2 safe values
or nothing by HACT. A device of a pair sends DUPLEX frames only while it runs the Last. -/
def Dev.ethFill (cad mode : Nat) (d : Dev) : Dev :=
  (d.ethTxs cad).foldl (fun d e =>
    let (i, p, q, _, h, dup, t, fs) := e
    let body : Option (List Byte) := if mode = 0 then some (d.fillFields fs false t)
      else if mode = 1 then Tbl.get? (d.port p).fills i
      else if h && (Tbl.get? (d.port p).fills i).isSome then some (d.fillFields fs true t) else none
    match body with
    | none => d
    | some b =>
      let d := d.portUp p (fun s => { s with fills := Tbl.put i b s.fills })
      if dup && decide (d.dx ≠ dxOFF) then
        (if d.dxRuns then d.ethSend p q (some i) (b.take (b.length - 8) ++ d.claimTail) else d)
      else d.ethSend p q (some i) b) d

def Dev.rxBuf (d : Dev) (i : Nat) : EthRx := Tbl.getD {} d.ethRx i

/-- Freeze the receive buffers of a cadence (R110 step 5, R305, R342). -/
def Dev.ethFreeze (cad : Nat) (d : Dev) : Dev :=
  (d.cfg.io.mapIdx (fun i e => (i, e))).foldl (fun d e => match e.2.body with
    | .ethRx _ am _ _ _ _ _ _ _ fs =>
      if e.2.cad ≠ some cad then d
      else
        let x := d.rxBuf e.1
        let x : EthRx := if x.newer then { x with frozen := x.latest, newer := false, age := 0 } else { x with age := x.age + 1 }
        let d := { d with ethRx := Tbl.put e.1 x d.ethRx }
        (match x.frozen with
        | none => d.showFields fs none (mkStatus false 0 false false false false)
        | some (t, b) =>
          let d := d.showFields fs (some b) (mkStatus (decide (x.age ≤ am)) 0 false false false false)
          d.showDesc 2 e.1 (leBytes 8 t ++ [0, BitVec.ofNat 8 b.length, BitVec.ofNat 8 (min 255 x.age), 0]))
    | _ => d) d

/-- A received frame matches a receive buffer (R342); the payload it takes. -/
def rxMatch (b : List Byte) (ip : Bool) (mac vlan etype addr port : Nat) : Option (List Byte) :=
  let p := payOf b
  if ip then
    let ihl := byteAt p 0 % 16 * 4
    if etOf b = 0x0800 ∧ byteAt p 9 = 17 ∧ be p 6 2 % 0x4000 = 0 ∧ be p 16 4 = addr ∧ be p (ihl + 2) 2 = port then
      some ((p.drop (ihl + 8)).take (be p (ihl + 4) 2 - 8))
    else none
  else if be b 0 6 = mac ∧ vlanOf b = vlan ∧ etOf b = etype then some p
  else none

/-- A frame goes to the receive buffers it matches; CLAIMCHK drops lower claims (R398). -/
def Dev.rxCyclic (n : Nat) (b : List Byte) (d : Dev) : Dev :=
  (d.cfg.io.mapIdx (fun i e => (i, e))).foldl (fun d e => match e.2.body with
    | .ethRx p _ chk ip mac vlan et addr port _ =>
      if p ≠ (if d.prp n then n / 2 * 2 else n) then d
      else
        (match rxMatch b ip mac vlan et addr port with
        | none => d
        | some pay =>
          let x := d.rxBuf e.1
          let claim := le pay (pay.length - 8) 4
          if chk && decide (claim < x.claim) then d.bump R.ETH_CNT_FENCE_COUNT 1 n
          else
            let y : EthRx := { x with latest := some ((Tbl.getD (0, 0) d.stamps n).1, pay), newer := true, claim := if chk then claim else x.claim }
            { d with ethRx := Tbl.put e.1 y d.ethRx })
    | _ => d) d

/-! ### Reception, duplicate discard (R333, R336, R337) -/

/-- ARP requests and ICMP echo requests to the pair's address are answered, with the tag of the request (R333). -/
def Dev.rxHost (n : Nat) (b : List Byte) (d : Dev) : Dev :=
  match d.addr (n / 2) with
  | none => d
  | some addr =>
    let p := payOf b
    let ihl := byteAt p 0 % 16 * 4
    let back (f : List Byte) : List Byte := if be b 12 2 = 0x8100 then slice f 0 12 ++ slice b 12 4 ++ f.drop 12 else f
    if etOf b = 0x0806 ∧ be p 6 2 = 1 ∧ be p 24 4 = addr then
      d.ethSend n (d.mgmtQ n) none (back (ethFrame (be b 6 6) (d.mac n) 0x0806
        (slice p 0 6 ++ [0, 2] ++ beBytes 6 (d.mac n) ++ beBytes 4 addr ++ slice p 8 10)))
    else if etOf b = 0x0800 ∧ byteAt p 9 = 1 ∧ be p 16 4 = addr ∧ be p 6 2 % 0x4000 = 0 ∧ byteAt p ihl = 8 then
      let body := (p.drop (ihl + 4)).take (be p 2 2 - ihl - 4)
      let icmp (c : Nat) : List Byte := [0, 0] ++ beBytes 2 c ++ body
      d.ethSend n (d.mgmtQ n) none (back (ethFrame (be b 6 6) (d.mac n) 0x0800 (ipv4 1 addr (be p 12 4) (icmp (ipCheck (icmp 0))))))
    else d

/-- A frame of the network: PAUSE, cyclic buffers, ARP and ICMP. -/
def Dev.rxDeliver (n : Nat) (b : List Byte) (d : Dev) : Dev :=
  if etOf b = 0x8808 then
    if d.flag R.ETH_CFG_PAUSE n ∧ be (payOf b) 0 2 = 1 then
      let q := be (payOf b) 2 2
      let t := if d.flag R.ETH_CFG_SPEED n then q * 128 / 5 else q * 256
      d.portUp n (fun s => { s with pauseUntil := d.time.cnt + t })
    else d
  else (d.rxCyclic n b).rxHost n b

/-- A supervision frame or a trailered frame of a tracked source was seen on a port (R337). -/
def Dev.prpSeen (n : Nat) (d : Dev) : Dev :=
  let f := if n % 2 = 0 then R.ETH_PRP_STAT_PATHA_LOST else R.ETH_PRP_STAT_PATHB_LOST
  (d.portUp n (fun s => { s with lastTracked := d.time.cnt })).wf f 0 (n / 2 * 2)

/-- A source's numbers that have not expired: 400 ms, 128 of them (R336). -/
def PrpSrc.live (now : Nat) (x : PrpSrc) : PrpSrc := { x with seqs := (x.seqs.filter (fun q => decide (now < q.2 + 200000000))).take 128 }

/-- The sources of a pair with a number that has not expired (R336). -/
def Dev.prpSrcs (d : Dev) (n : Nat) : List PrpSrc := ((d.port (n / 2 * 2)).srcs.map (PrpSrc.live d.time.cnt)).filter (fun x => !x.seqs.isEmpty)

/-- A frame of a PRP pair: of two copies of one tick the one of the odd port counts as the duplicate; a frame of the wrong LAN is delivered
(R336). -/
def Dev.rxPrp (n : Nat) (b : List Byte) (d : Dev) : Dev :=
  let e := n / 2 * 2
  let l := b.length
  if etOf b = 0x88FB then d.prpSeen n
  else if be b (l - 2) 2 ≠ 0x88FB then d.rxDeliver n b
  else
    let seq := be b (l - 6) 2
    let mac := be b 6 6
    let body := b.take (l - 6)
    let d := d.portUp e (fun s => { s with srcs := d.prpSrcs n })
    let srcs := (d.port e).srcs
    match srcs.find? (fun x => decide (x.mac = mac)) with
    | some x =>
      let d := d.prpSeen n
      if be b (l - 4) 2 / 4096 ≠ 0xA + n % 2 then (d.bump R.ETH_PRP_CNT_WRONGLAN_COUNT 1 n).rxDeliver n body
      else if x.seqs.any (fun q => decide (q.1 = seq)) then
        let port := if n = e ∧ x.seqs.contains (seq, d.time.cnt) then n + 1 else n
        d.bump R.ETH_PRP_CNT_DUP_COUNT 1 port
      else
        let y : PrpSrc := { x with seqs := ((seq, d.time.cnt) :: x.seqs).take 128 }
        (d.portUp e (fun s => { s with srcs := srcs.map (fun z => if z.mac = mac then y else z) })).rxDeliver n body
    | none =>
      if be b (l - 4) 2 / 4096 ≠ 0xA + n % 2 then (d.bump R.ETH_PRP_CNT_WRONGLAN_COUNT 1 n).rxDeliver n body
      else if srcs.length < 512 then
        ((d.portUp e (fun s => { s with srcs := srcs ++ [{ mac := mac, seqs := [(seq, d.time.cnt)] }] })).prpSeen n).rxDeliver n body
      else (d.bump R.ETH_PRP_CNT_NOTRACK_COUNT 1 n).rxDeliver n body

/-- ETH_FRAME_RECEIVED (R333, R336, R342). -/
def Dev.ethRx_ (n : Nat) (b : List Byte) (ok : Bool) (d : Dev) : Dev :=
  if !d.ethOn n || !d.flag R.ETH_STAT_LINK n then d
  else
    let lim := d.rf R.ETH_MTU_MTU n + (if d.prp n then 28 else 22)
    if !ok || decide (lim < b.length + 4) || decide (b.length < 14) then d.bump R.ETH_CNT_RXERR_COUNT 1 n
    else
      let d := (d.bump R.ETH_CNT_RXOK_COUNT 1 n).noteRx n (stampA (d.ethMode n) (4 * d.time.cnt - d.byteHalves n (b.length + 4)))
      if d.prp n then d.rxPrp n b else d.rxDeliver n b

def execEthFrameReceived (port : Nat) (bytes : List Byte) (ok : Bool) (s : State) : Res :=
  s.guarded (s.dev.ethOk port) (Dev.ethRx_ port bytes ok)

/-- PRP_SUPERVISION_DUE (R337). -/
def Dev.prpSup (p : Nat) (d : Dev) : Dev :=
  let e := 2 * p
  if !d.prp e then d
  else
    let q := (d.port e).supSeq
    let d := d.portUp e (fun s => { s with supSeq := (s.supSeq + 1) % 65536 })
    let f := ethFrame 0x01154E000100 (d.mac e) 0x88FB ([0x00, 0x01] ++ beBytes 2 q ++ [20, 6] ++ beBytes 6 (d.mac e))
    (d.ethPut e { queue := d.mgmtQ e, bytes := f }).ethPut (e + 1) { queue := d.mgmtQ (e + 1), bytes := f }

def execPrpSupervisionDue (pair : Nat) (s : State) : Res := s.guarded (decide (2 * pair + 1 < s.dev.nPorts)) (Dev.prpSup pair)

/-- PRP_PATH_TIMEOUT (R337): the partner has seen a frame within three intervals, this port has not. -/
def Dev.prpPath (n : Nat) (d : Dev) : Dev :=
  let o := if n % 2 = 0 then n + 1 else n - 1
  let f := if n % 2 = 0 then R.ETH_PRP_STAT_PATHA_LOST else R.ETH_PRP_STAT_PATHB_LOST
  let lim := 3000000000
  if d.prp n && decide ((d.port n).lastTracked + lim ≤ d.time.cnt) && decide (d.time.cnt < (d.port o).lastTracked + lim) &&
      !d.flag f (n / 2 * 2) then
    (d.wf f 1 (n / 2 * 2)).raise Ev.ETH_PATH_LOST n []
  else d

def execPrpPathTimeout (port : Nat) (s : State) : Res := s.guarded (s.dev.ethOk port) (Dev.prpPath port)

/-! ### PTP (R97, R102, R104, R343, R344) -/

def psDISABLED : Nat := 0
def psLISTENING : Nat := 1
def psMASTER : Nat := 2
def psSLAVE : Nat := 3
def psPASSIVE : Nat := 4

def Dev.ptpState (d : Dev) (n : Nat) : Nat := d.rf R.ETH_PTP_PORT_STATE n

/-- Send a PTP message on one port (R339, R343, R344); an event message is stamped as it leaves. -/
def Dev.ptpOut (n : Nat) (m : List Byte) (x : Option PtpTx) (d : Dev) : Dev :=
  d.ethPut n { queue := if ptpType m < 8 then d.ptpQ n else d.mgmtQ n, bytes := d.ptpFrame n m, ptp := x }

/-- The servo judges an offset from the master (R97) and steers view 1: by rate, with a free correction of the sign that reduces
the offset; in FREE it may set the view (R98), which is left open. -/
def Dev.ptpOffset (o : Int) (d : Dev) : Dev :=
  let inb := decide (o.natAbs < 1000 * 2 ^ 32)
  let out := decide (10000 * 2 ^ 32 < o.natAbs)
  let g := if inb then d.time.good1 + 1 else 0
  let b := if out then d.time.bad1 + 1 else 0
  let d : Dev := { d with time := { d.time with good1 := g, bad1 := b } }
  if d.rf R.TIME_VCTL_SRC 0 1 ≠ 1 then d
  else
    let r := d.fresh 1
    let d := r.2
    let d := if !inb && decide (d.vstate 1 = vsFREE) && decide (r.1 = 1) then
        d.setView 1 ((d.view 1 : Int) - o * 2 ^ 8).toNat
      else
        let r := d.fresh 32
        let c : Int := r.1 % (incBand + 1)
        r.2.setTgt 1 (clampI (2 ^ 41 - incBand) (2 ^ 41 + incBand) (2 ^ 41 - sgnI o * c)).toNat
    let d := if 16 ≤ g then (d.declareLock 1).followStep else d
    if 4 ≤ b then d.loseLock 1 else d

/-- A Sync's times are complete: the offset from the master (R343). -/
def Dev.ptpSync (n : Nat) (t1 t2 corr : Int) (d : Dev) : Dev :=
  let s := d.port n
  let d := d.setPort n { s with sync := some (t1 + corr, t2), pendSync := none }
  if d.ptpState n = psSLAVE then d.ptpOffset (t2 - t1 - corr - s.pathDelay) else d

/-- PTP_EVENT_RECEIVED (R102, R343, R344; not used while the service cores are down, R352): `t` the instant at
which the frame's start crossed the sampler, by the counter in 0.5 ns. -/
def Dev.ptpEvent (n : Nat) (m : List Byte) (t : Nat) (d : Dev) : Dev :=
  if !d.ethOn n || !d.flag R.ETH_PTP_PORT_EN n || decide (byteAt m 4 ≠ d.net.domain) then d
  else
    let d := (d.bump R.ETH_CNT_RXOK_COUNT 1 n).noteRx n (stampA (d.ethMode n) t)
    let rx := d.ptpRx n t
    let s := d.port n
    if !d.rst.coresUp then d
    else match ptpType m with
    | 0 =>
      if ptpTwoStep m then d.setPort n { s with pendSync := some (ptpSeq m, rx, ptpCorr m) }
      else d.ptpSync n (ptpTime m) rx (ptpCorr m)
    | 1 =>
      if d.ptpState n = psMASTER then
        d.ptpOut n (d.ptpMsg n 9 (ptpSeq m) (ptpCorr m / 65536 - subNs rx) 0 (tsBytes rx ++ slice m 20 10)) none
      else d
    | 2 =>
      let r := d.fresh 2
      let a := d.ptpMsg n 3 (ptpSeq m) (ptpCorr m / 65536) 0x7F (zeros 10 ++ slice m 20 10)
      r.2.ptpOut n a (some { msg := a, rx := rx, sub := r.1 })
    | 3 =>
      (match s.pdT1 with
      | some (q, t1) =>
        if q ≠ ptpSeq m then d
        else if ptpTwoStep m then d.setPort n { s with pdResp := some (ptpTime m, rx, ptpCorr m) }
        else d.setPort n { s with pdT1 := none, pathDelay := (rx - t1 - ptpCorr m) / 2 }
      | none => d)
    | _ => d

def execPtpEventReceived (port : Nat) (msg : List Byte) (t : Nat) (s : State) : Res :=
  s.guarded (s.dev.ethOk port) (Dev.ptpEvent port msg t)

/-- Rank of an Announce in the default BMCA: smaller is better; own rank with steps removed 0. -/
def annRank (m : List Byte) : Nat := be m 47 14 * 2 ^ 96 + be m 61 2 * 2 ^ 80 + be m 20 10
def Dev.ownRank (d : Dev) : Nat :=
  leNat (([BitVec.ofNat 8 d.net.prio1, BitVec.ofNat 8 (if d.net.gmCap then 248 else 255), 0xFE, 0xFF, 0xFF, BitVec.ofNat 8 d.net.prio2] ++
    (beBytes 3 (Config.macBase / 2 ^ 24) ++ [0xFF, 0xFE] ++ beBytes 3 (Config.macBase % 2 ^ 24))).reverse) * 2 ^ 96

/-- Give a PTP port its state; a change of SLAVE port raises PTP_PORT and restarts the lock count (R344). -/
def Dev.setPtp (n st : Nat) (d : Dev) : Dev :=
  let old := d.ptpState n
  let d := d.wf R.ETH_PTP_PORT_STATE st n
  if old ≠ st ∧ st = psSLAVE then
    ({ d with time := { d.time with good1 := 0, bad1 := 0 } }).raise Ev.PTP_PORT n []
  else d

/-- The default BMCA over the enabled ports (R343, R344): the port of the best Announce is SLAVE; a port that hears the same
grandmaster no better is PASSIVE, and of the two ports of a PRP pair toward one grandmaster the even one is SLAVE; without a better clock the device is master, or listens when it is slave-only. -/
def Dev.bmca (d : Dev) : Dev :=
  let ports := (List.range d.nPorts).filter (fun n => d.ethOn n && d.flag R.ETH_PTP_PORT_EN n)
  let best := ports.foldl (fun (a : Option (Nat × Nat)) n => match (d.port n).announce with
    | none => a
    | some m => match a with
      | some (_, r) => if annRank m < r then some (n, annRank m) else a
      | none => some (n, annRank m)) none
  match best with
  | some (b, r) =>
    if r < d.ownRank ∨ !d.net.gmCap then
      let gm := r / 2 ^ 96
      let even := b / 2 * 2
      let b := if d.prp b && ports.contains even && (match (d.port even).announce with
        | some m => decide (annRank m / 2 ^ 96 = gm) | none => false) then even else b
      ports.foldl (fun d n =>
        if n = b then d.setPtp n psSLAVE
        else match (d.port n).announce with
          | some m => if annRank m / 2 ^ 96 = gm then d.setPtp n psPASSIVE else d.setPtp n psMASTER
          | none => d.setPtp n (if d.net.gmCap then psMASTER else psLISTENING)) d
    else ports.foldl (fun d n => d.setPtp n psMASTER) d
  | none => ports.foldl (fun d n => d.setPtp n (if d.net.gmCap then psMASTER else psLISTENING)) d

/-- PTP_GENERAL_RECEIVED (R101, R343). -/
def Dev.ptpGeneral (n : Nat) (m : List Byte) (d : Dev) : Dev :=
  if !d.ethOn n || !d.flag R.ETH_PTP_PORT_EN n || decide (byteAt m 4 ≠ d.net.domain) then d
  else
    let half := 4 * d.time.cnt - d.byteHalves n ((d.ptpFrame n m).length + 4)
    let d := (d.bump R.ETH_CNT_RXOK_COUNT 1 n).noteRx n (stampA (d.ethMode n) half)
    let s := d.port n
    if !d.rst.coresUp then d
    else match ptpType m with
    | 8 =>
      (match s.pendSync with
      | some (q, t2, c) => if q = ptpSeq m then d.ptpSync n (ptpTime m) t2 (c + ptpCorr m) else d
      | none => d)
    | 9 =>
      (match s.dlyT3, s.sync with
      | some (q, t3), some (t1, t2) =>
        if q = ptpSeq m then
          d.setPort n { s with dlyT3 := none, pathDelay := ((t2 - t1) + (ptpTime m - ptpCorr m - t3)) / 2 }
        else d
      | _, _ => d)
    | 10 =>
      (match s.pdT1, s.pdResp with
      | some (q, t1), some (t2, t4, c) =>
        if q = ptpSeq m then
          d.setPort n { s with pdT1 := none, pdResp := none, pathDelay := ((t4 - t1) - (ptpTime m - t2) - c - ptpCorr m) / 2 }
        else d
      | _, _ => d)
    | 11 => (d.setPort n { s with announce := some m }).bmca
    | _ => d

def execPtpGeneralReceived (port : Nat) (msg : List Byte) (s : State) : Res :=
  s.guarded (s.dev.ethOk port) (Dev.ptpGeneral port msg)

/-- PTP_SEND_DUE (R104, R343): a port sends the message of type `kind` (0 Sync, 1 Delay_Req, 2 Pdelay_Req, 11 Announce); `t` the
part of the instant at which it will cross the sampler below a tick, in 0.5 ns. While the service cores are down the rim sends the first and the last of these (R352). -/
def Dev.ptpSend (n kind t : Nat) (d : Dev) : Dev :=
  if !d.ethOn n || !d.flag R.ETH_PTP_PORT_EN n then d
  else
    let s := d.port n
    let out (m : List Byte) (d : Dev) : Dev := d.ptpOut n m (some { msg := m, sub := t % 4 })
    let st := d.ptpState n
    if kind = 0 ∧ st = psMASTER then
      out (d.ptpMsg n 0 s.syncSeq 0 d.net.logSync (zeros 10)) (d.setPort n { s with syncSeq := (s.syncSeq + 1) % 65536 })
    else if kind = 11 ∧ st = psMASTER then
      let gm := beBytes 14 (d.ownRank / 2 ^ 96)
      (d.setPort n { s with annSeq := (s.annSeq + 1) % 65536 }).ptpOut n (d.ptpMsg n 11 s.annSeq 0 d.net.logAnn
        (zeros 10 ++ beBytes 2 d.net.utc ++ [0] ++ gm ++ [0, 0, 0xA0])) none
    else if !d.rst.coresUp then d
    else if kind = 1 ∧ st = psSLAVE ∧ !d.net.p2p then
      out (d.ptpMsg n 1 s.dlySeq 0 0x7F (zeros 10)) (d.setPort n { s with dlySeq := (s.dlySeq + 1) % 65536 })
    else if kind = 2 ∧ d.net.p2p then
      out (d.ptpMsg n 2 s.dlySeq 0 0x7F (zeros 20)) (d.setPort n { s with dlySeq := (s.dlySeq + 1) % 65536 })
    else d

def execPtpSendDue (port kind t : Nat) (s : State) : Res := s.guarded (s.dev.ethOk port) (Dev.ptpSend port kind t)

/-- PTP_SYNC_TIMEOUT (R97): no Sync for 3 s. -/
def execPtpSyncTimeout (s : State) : Res :=
  s.on (fun d => if d.rf R.TIME_VCTL_SRC 0 1 = 1 then
    ({ d with time := { d.time with good1 := 0, bad1 := 0 } } : Dev).loseLock 1 else d)

/-- PTP_ANNOUNCE_TIMEOUT (R344): the port's master is gone. -/
def Dev.annTimeout (n : Nat) (d : Dev) : Dev :=
  if d.ethOn n && d.flag R.ETH_PTP_PORT_EN n && d.rst.coresUp then (d.portUp n (fun s => { s with announce := none })).bmca else d

def execPtpAnnounceTimeout (port : Nat) (s : State) : Res := s.guarded (s.dev.ethOk port) (Dev.annTimeout port)

/-- Ports after NETCFG is applied (R349, R352): pairs with an address come up, PTP ports are enabled. -/
def Dev.netApply (d : Dev) : Dev :=
  (List.range d.nPorts).foldl (fun d n =>
    let hasAddr := (d.addr (n / 2)).isSome
    let ptp := d.net.ptpPorts.contains n
    let d := d.wb R.ETH_CTRL_EN hasAddr n
    (d.wb R.ETH_PTP_PORT_EN ptp n).wf R.ETH_PTP_PORT_STATE (if ptp then psLISTENING else psDISABLED) n) d

end Sys2Proof.Machine
end

