-- ==== Sys2Proof/Machine/Resume.lean ====
section
/-!
DEFINITION. Stopping the fabric, register resets by reach, mapping and restoring units, and what each kind does when it resumes
(R79, R89, R136, R162, R194, R220, R277, R453, R461, R462).
-/
namespace Sys2Proof.Machine

/-! ### Registers (R453) -/

/-- Registers return to their reset values: the bits of reach C, or all bits but those of reach P only. -/
def Dev.regsReset (core : Bool) (d : Dev) : Dev :=
  d.regs.foldl (fun d e => match regAt e.1 with
    | some (_, _, r) =>
      let mask := if core then r.reachC else 0xFFFFFFFF ^^^ r.keepS
      d.ww e.1 ((e.2 &&& (0xFFFFFFFF ^^^ mask)) ||| (r.rst &&& mask))
    | none => d) d

/-! ### Stopping (R89, R461 step 1) -/

/-- Every unit stops, its staging is discarded; no checkpoint in progress completes; items on chip and in the rings are discarded and counted. An
item in service is discarded too; R89 does not say whether it counts, and the model does not count it (log entry 112). Cadences issue no further
tokens until the resume; one that waits for its release goes on waiting (R113; log entry 95). The outputs hold what they have latched (R259). -/
def Dev.fabricStop (d : Dev) : Dev :=
  let stop (d : Dev) (u : Nat) : Dev :=
    let x := d.un u
    let y : UnitSt := { x with staged := [], regw := [], scan := none, item := none, work := x.base, done := false,
                               late := false, restoring := false, deferW := [], smp := [], smpWait := [] }
    let d := d.setUn u y
    if x.run = 2 then d else d.setRun u 0
  let d := (d.units.map Prod.fst).foldl stop d
  let lost := (d.disp.map (fun q => q.2.store.length + q.2.ring.length)).sum
  let d := d.bump R.DISP_LOST_COUNT lost
  let d : Dev := { d with outs := Tbl.mapVals (fun _ o => { o with wait := none }) d.outs,
                          ckpt := Tbl.mapVals (fun _ c => { c with pend := none, copied := false }) d.ckpt,
                          disp := Tbl.mapVals (fun _ q => { q with store := [], ring := [], serv := [] }) d.disp, owed := [], recipeLoad := [] }
  d.usedCads.foldl (fun d n =>
    (d.setCad n (fun c => { c with halt := true, run := false })).wf R.TIME_CADn_STAT_RUN 0 0 n) d

/-! ### Mapping and restoring (R79, R462 step 2) -/

/-- A logical tile on a BAD physical tile moves to the lowest-numbered spare of its cluster; without one the unit is FAULTED. -/
def Dev.remapBad (u : Nat) (d : Dev) : Dev :=
  (d.un u).tiles.foldl (fun d t =>
    let c := t.ptile / 512
    if !d.flag R.CLUS_TAGHI_BAD c (t.ptile % 512) then d
    else match d.spare c with
      | some j =>
        let n : TileMap := { t with ptile := 512 * c + j, again := false }
        let d := ((d.tagSpare t.ptile).tagMap u n).wf R.UNIT_STAT_REMAP 1 u
        d.unUp u (fun x => { x with tiles := x.tiles.map (fun y => if y.lidx = t.lidx then n else y) })
      | none => if (d.un u).run = 2 then d else (d.setRun u 2).raise Ev.TILE_HARD u []) d

/-- The content of a unit: tiles and typed state from the last complete checkpoint, or initial; all its tiles are verified (R76). The route values
that it has delivered since the load stay (R511). -/
def Dev.restoreUnit (u : Nat) (dm : Dev × List Host.Cell) : Dev × List Host.Cell :=
  let d := (dm.1.setRun u 0).remapBad u
  let r := (d.un u).tiles.foldl (fun dm t => Dev.tileWrite t.ptile (dm.1.restoreOf u t) false dm) (d, dm.2)
  let sem : UnitSem := match r.1.ckptOf u with | some c => Tbl.getD {} c.sems u | none => r.1.initSem u
  let sem := sem.keepCounts (r.1.un u).base
  let d := r.1.unUp u (fun x => { x with base := sem, work := sem, shown := sem.objs, staged := [], scan := none,
                                         item := none, done := false, late := false, skipped := true, restoring := false })
  ((d.decodeUnit u r.2).verified u, r.2)

/-- What a unit's kind does when it resumes (R162, R194, R220, R277). -/
def Dev.kindResume (plr : Bool) (u : Nat) (d : Dev) : Dev :=
  let x := d.un u
  let pms := d.rf R.TIME_CADn_CFG_MULT 0 x.cad / 100
  let g (s : UnitSem) : UnitSem := match x.kind with
    | 2 => { s with part := { s.part with resumedPend := decide ((d.partSt (d.partOf u)).st = 1),
                                          strict := true, left := (d.partCfg (d.partOf u)).strictScans } }
    | 3 => { s with axes := Tbl.mapVals (fun i a => 
        let c := nth {} (d.axesOf u) i
        axResume c ((Tbl.get? d.sigs c.sSpos).map (fun v => v.val)) a) s.axes }
    | 4 => { s with seqs := Tbl.mapVals (fun i a => seqResume (nth {} (d.seqsOf u) i) plr pms (if a.st = 1 then { a with st := 0 } else a)) s.seqs }
    | 5 => { s with engs := Tbl.mapVals (fun _ a => EngSt.resume a) s.engs }
    | _ => s
  d.unUp u (UnitSt.both g)

/-- Restored units resume; those left FAULTED do what their kind does then. -/
def Dev.resumed (plr : Bool) (us : List Nat) (d : Dev) : Dev :=
  let d := us.foldl (fun d u => d.kindResume plr u) d
  (us.filter (fun u => decide ((d.un u).run = 2))).foldl (fun d u => d.faulted u none) d

/-- Restore every unit of the Last: all are mapped first, so that what no unit owns is known (R79, R91). -/
def Dev.fabricRestore (plr : Bool) (dm : Dev × List Host.Cell) : Dev × List Host.Cell :=
  let us := dm.1.unitsWhere (fun x => decide (x.kind ≠ 0))
  let d := us.foldl (fun d u => (d.un u).tiles.foldl (fun d t => d.tagMap u t) d) dm.1
  let r := us.foldl (fun dm u => Dev.restoreUnit u dm) (d, dm.2)
  Dev.mirrorAll (Dev.resumed plr us r.1, r.2)

/-! ### Safe values of every output and port (R259, R306, R330, R352, R463) -/

/-- Every output of the Last takes its declared safe value at this tick. -/
def Dev.allSafe (d : Dev) : Dev :=
  let d := (d.wantSafe (fun _ => true)).safeNow (fun _ => true)
  let d := (List.range d.nChop).foldl (fun d c => if (d.chop c).used then d.chopSafe c else d) d
  d.usedCads.foldl (fun d n => (d.canSafe n).ethFill n 2) (d.holSafe none)

end Sys2Proof.Machine
end

