-- ==== Sys2Proof/Machine/Welt.lean ====
section
/-!
DEFINITION. The Welt link (R382, R383): frames, sequence numbers, acknowledgement and resending; what a device with a copying
partner sends (R389) and the tests of the roles (R393).
-/
namespace Sys2Proof.Machine

def Dev.dxUp (f : DupxSt → DupxSt) (d : Dev) : Dev := { d with dupx := f d.dupx }
def Dev.setDx (st : Nat) (d : Dev) : Dev := d.wf R.DUPX_STATE_STATE st
def Dev.weltUp (d : Dev) : Bool := d.hasWelt && d.flag R.DUPX_STATE_WELT_UP

/-- A device that follows a partner: what R394 and R397 call a standby, whatever its progress. -/
def Dev.dxStandby (d : Dev) : Bool := [dxSYNCING, dxSTANDBY, dxISOLATED, dxEXCHANGE, dxREADY].contains d.dx

/-! ### Frames (R383) -/

def wtTILE : Nat := 2
def wtCOMMIT : Nat := 3
def wtPORTIMG : Nat := 4
def wtFORCE : Nat := 5
def wtRECIPE : Nat := 6
def wtCTRL : Nat := 7
def wtACK : Nat := 8
def wtNAK : Nat := 9

/-- A frame on the link (R383): TYPE, FLAGS, LEN, SEQ and TAG, the payload, and CRC-32C over both. -/
def weltBytes (typ : Nat) (full : Bool) (seq tag : Nat) (pay : List Byte) : List Byte :=
  let b := [BitVec.ofNat 8 typ, BitVec.ofNat 8 (b2n full)] ++ leBytes 2 pay.length ++ leBytes 4 seq ++ leBytes 8 tag ++ pay
  b ++ leBytes 4 (crc32c b)

def WeltFrame.bytes (f : WeltFrame) : List Byte := weltBytes f.typ f.full f.seq f.tag f.payload

/-- The time that a frame of `n` payload bytes takes on the four lanes, in 0.5 ns: header, payload and CRC in 64b/66b blocks (R382, R383). -/
def weltHalves (n : Nat) : Nat := ceilDiv ((n + 27) / 8 * 128) 100

/-- A frame of `n` payload bytes has arrived with this tick: its first block came its length earlier (R101). -/
def Dev.weltIn (n : Nat) (d : Dev) : Dev := d.noteRx 0x200 (stampA 4 (4 * d.time.cnt - weltHalves n))

/-- A frame goes out as soon as the link has sent the one before (R101). -/
def Dev.weltOut (n : Nat) (d : Dev) : Dev :=
  let t := max (4 * d.time.cnt) d.dupx.txFree
  (d.noteTx 0x200 (stampA 4 t)).dxUp (fun x => { x with txFree := t + weltHalves n })

/-- Send a sequenced frame; the last 512 are kept. -/
def Dev.weltSend (typ : Nat) (full : Bool) (tag : Nat) (pay : List Byte) (d : Dev) : Dev :=
  if !d.weltUp then d
  else
    let f : WeltFrame := { typ := typ, full := full, seq := d.dupx.txSeq, tag := tag, payload := pay }
    let kept := d.dupx.kept ++ [f]
    ((d.weltOut pay.length).emit (.welt f f.bytes)).dxUp (fun x => { x with txSeq := (x.txSeq + 1) % 2 ^ 32, kept := kept.drop (kept.length - 512) })

/-- ACK and NAK name a sequence number in TAG and are not sequenced themselves (log entry 28). -/
def Dev.weltCtl (typ tag : Nat) (d : Dev) : Dev :=
  let f : WeltFrame := { typ := typ, full := false, seq := 0, tag := tag, payload := [] }
  if d.weltUp then (d.weltOut 0).emit (.welt f f.bytes) else d

/-- Receive a sequenced frame: out of order or damaged, NAK with the first missing SEQ; a repeated one is dropped. -/
def Dev.weltRx (f : WeltFrame) (ok : Bool) (typ : Nat) (g : Dev → Dev) (d : Dev) : Dev :=
  if !d.weltUp ∨ f.typ ≠ typ then d
  else
    let d := d.weltIn f.payload.length
    let off := (f.seq + 2 ^ 32 - d.dupx.rxSeq) % 2 ^ 32
    if !ok then d.weltCtl wtNAK d.dupx.rxSeq
    else if off = 0 then g (d.dxUp (fun x => { x with rxSeq := (x.rxSeq + 1) % 2 ^ 32 }))
    else if off < 2 ^ 31 then d.weltCtl wtNAK d.dupx.rxSeq
    else d

/-- A new link (log entry 28): sequence numbers start at zero. What the old one swallowed is gone: a COMMIT that was not acknowledged, whose cycle
stays incomplete, a t_h, and the port image of a cycle whose COMMIT never came (R390). -/
def Dev.weltNew (d : Dev) : Dev :=
  let lost := d.dupx.acks.map Prod.fst
  let d : Dev := { d with ckpt := lost.foldl (fun t n => Tbl.upd {} n (fun s => { s with pend := none, copied := false }) t) d.ckpt }
  d.dxUp (fun x => { x with txSeq := 0, rxSeq := 0, kept := [], acks := [], rxPort := [],
                            tH := if x.tHseq.isSome then none else x.tH, tHseq := none })

/-- WELT_LINK_CHANGE (R382): up when all four lanes are aligned. -/
def Dev.weltLink (lanes : Nat) (d : Dev) : Dev :=
  let was := d.weltUp
  let d := (d.wf R.DUPX_LINK_LANES lanes).wb R.DUPX_STATE_WELT_UP (decide (lanes = 15))
  if lanes = 15 ∧ !was then d.weltNew else d

def execWeltLinkChange (lanes : Nat) (s : State) : Res := s.guarded (decide (lanes < 16) && s.dev.hasWelt) (Dev.weltLink lanes)

/-- WELT_ACK_DUE (R383): acknowledge everything received in order so far. -/
def Dev.weltAckSend (d : Dev) : Dev := d.weltCtl wtACK ((d.dupx.rxSeq + 2 ^ 32 - 1) % 2 ^ 32)

def execWeltAckDue (s : State) : Res := s.on Dev.weltAckSend

/-- WELT_NAK (R383): resend from the missing frame. -/
def Dev.weltResend (f : WeltFrame) (ok : Bool) (d : Dev) : Dev :=
  let d := if d.weltUp then d.weltIn f.payload.length else d
  if !d.weltUp || !ok || decide (f.typ ≠ wtNAK) then d
  else
    let again := d.dupx.kept.filter (fun x => decide ((x.seq + 2 ^ 32 - f.tag % 2 ^ 32) % 2 ^ 32 < 2 ^ 31))
    (again.foldl (fun d x => (d.weltOut x.payload.length).emit (.welt x x.bytes)) d).bump R.DUPX_LINK_RESEND again.length

def execWeltNak (f : WeltFrame) (ok : Bool) (s : State) : Res := s.on (Dev.weltResend f ok)

/-! ### The copy (R35, R389) -/

/-- The partner takes a copy of every cycle; a cycle that a broken link does not carry is not complete (R389). A partner in EXCH_READY takes it once a handover is pending (R389, R399 step 3). -/
def Dev.copies (d : Dev) : Bool :=
  (d.dxRuns || !d.dupx.leaving.isEmpty) &&
    ([dxSTANDBY, dxSYNCING, dxEXCHANGE].contains d.dupx.peerState || (decide (d.dupx.peerState = dxREADY) && d.dupx.tH.isSome) ||
     !d.dupx.leaving.isEmpty)

/-- Signals that covered ports of a cadence send (R379). -/
def Dev.coveredSigs (d : Dev) (n : Nat) : List Nat :=
  (d.cfg.io.filter (fun e => decide (e.cad = some n))).foldl (fun a e => match e.body with
    | .ethTx _ _ _ _ dup _ fs => if dup then a ++ fs.map (·.sig) else a
    | .holField seg dir _ fs => if dir = 0 ∧ d.covered seg then a ++ fs.map (·.sig) else a
    | _ => a) []

/-- The port image of a cycle: values staged for covered outputs. -/
def Dev.portImage (d : Dev) (n : Nat) : List (Nat × Word) :=
  let cov := d.coveredSigs n
  ((d.cadUnits n).map (fun u => ((d.un u).staged.filter (fun s => cov.contains s.sig)).map (fun s => (s.sig, s.v.val)))).flatten

/-- Cut a list into pieces of at most n elements. -/
def chunks {α : Type} (n : Nat) : Nat → List α → List (List α)
  | 0, _ => []
  | k + 1, l => if l.isEmpty then [] else l.take n :: chunks n k (l.drop n)

/-- TAG of COMMIT and PORTIMG. -/
def cycTag (n k : Nat) : Nat := n + k % 2 ^ 56 * 256

/-- The frames of a cycle's copy: TILE, PORTIMG, COMMIT. -/
def Dev.copySend (n : Nat) (d : Dev) : Dev :=
  match (Tbl.getD {} d.ckpt n).pend with
  | none => d
  | some c =>
    if !d.copies then d
    else
      let d := c.tiles.foldl (fun d t => d.weltSend wtTILE false (t.1 / 32 + t.1 % 32 * 512) t.2) d
      let img := d.portImage n
      let d := (chunks 128 img.length img).foldl (fun d part =>
        d.weltSend wtPORTIMG false (cycTag n c.k) (part.map (fun p => leBytes 4 p.1 ++ wordBytes p.2)).flatten) d
      let seq := d.dupx.txSeq
      (d.weltSend wtCOMMIT false (cycTag n c.k) []).dxUp (fun x => { x with acks := Tbl.put n (seq, d.time.cnt) x.acks })

/-- CHECKPOINT_COPY_DONE (R35, R389): complete at once, or once the COMMIT is acknowledged. -/
def Dev.copyDone (n : Nat) (m : List Host.Cell) (d : Dev) : Dev :=
  if (Tbl.get? d.dupx.acks n).isSome then
    { d with ckpt := Tbl.upd {} n (fun s => { s with copied := s.pend.isSome }) d.ckpt }
  else d.ckptComplete n m

def execCheckpointCopyDone (n : Nat) (s : State) : Res :=
  s.guarded (decide (n < 8)) (Dev.copyDone n s.mem)

/-- A COMMIT is acknowledged, or its partner no longer takes copies: the local copy decides. -/
def Dev.ackCommit (m : List Host.Cell) (n : Nat) (d : Dev) : Dev :=
  let d := d.dxUp (fun x => { x with acks := Tbl.del n x.acks })
  if (Tbl.getD {} d.ckpt n).copied then d.ckptComplete n m else d

/-- WELT_ACK (R383, R389). -/
def Dev.weltAcked (f : WeltFrame) (ok : Bool) (m : List Host.Cell) (d : Dev) : Dev :=
  let d := if d.weltUp then d.weltIn f.payload.length else d
  if !d.weltUp || !ok || decide (f.typ ≠ wtACK) then d
  else
    let got (q : Nat) : Bool := decide ((f.tag + 2 ^ 32 - q) % 2 ^ 32 < 2 ^ 31)
    let d := (d.dupx.acks.filter (fun a => got a.2.1)).foldl (fun d a =>
      let t := min 0xFFFF ((d.time.cnt - a.2.2) / 5)
      let d := d.wf R.DUPX_COPY_LAST t
      let d := if d.rf R.DUPX_COPY_MAX < t then d.wf R.DUPX_COPY_MAX t else d
      d.ackCommit m a.1) d
    match d.dupx.tHseq with
    | some q => if got q then d.dxUp (fun x => { x with tHseq := none }) else d
    | none => d

def execWeltAck (f : WeltFrame) (ok : Bool) (s : State) : Res := s.on (Dev.weltAcked f ok s.mem)

/-- The partner takes no copies now: cycles copied locally are complete. -/
def Dev.copyAlone (m : List Host.Cell) (d : Dev) : Dev :=
  if d.copies then d else (d.dupx.acks.map Prod.fst).foldl (fun d n => d.ackCommit m n) d

/-! ### Claims (R381) -/

/-- Take a claim: the smallest above HCLAIM of the device's side. -/
def Dev.takeClaim (d : Dev) : Dev :=
  let h := d.rf R.DUPX_HCLAIM_HCLAIM
  let c := if (h + 1) % 2 = d.rf R.DUPX_CFG_SIDE then h + 1 else h + 2
  let d := (d.wf R.DUPX_CLAIM_CLAIM c).seeClaim c
  d.coveredSegs.foldl (fun d n => d.wf R.HOL_CLAIM_V c n) d

end Sys2Proof.Machine
end

