-- ==== Sys2Proof/Machine/Force.lean ====
section
/-!
DEFINITION. The force table and its register interface (R166 to R171), recipe images brought by Eyelet (R208), and both as they
are copied to a standby (R389).
-/
namespace Sys2Proof.Machine

/-! ### Entries -/

def Dev.sigRec (d : Dev) (id : Nat) : Option SigRec := d.cfg.sigs.find? (fun r => decide (r.id = id))

/-- `kind` of a table entry: TYPE + 4 · WCLASS. -/
def SigRec.fkind (r : SigRec) : Nat := r.typ + 4 * r.wclass

/-- Bytes of a FORCE frame (log entry 28). -/
def forceBytes (e : Option ForceEnt) : List Byte :=
  match e with
  | some x => [1] ++ leBytes 3 x.kind ++ leBytes 4 x.id ++ wordBytes x.val
  | none => zeros 12

/-- A change of the table is committed (R168); a copying partner is told (R389). -/
def Dev.forceCommit (idx : Nat) (e : Option ForceEnt) (d : Dev) : Dev :=
  let d := d.setForce (match e with | some x => Tbl.put idx x d.force | none => Tbl.del idx d.force)
  if d.copies then d.weltSend wtFORCE false idx (forceBytes e) else d

/-- A set or removal of an entry: at once, or when the owning segment of a logic object is idle (R168). -/
def Dev.forceOp (idx id : Nat) (e : Option ForceEnt) (d : Dev) : Dev :=
  match d.objOwner id with
  | some u => { d with forcePend := d.forcePend ++ [{ idx := idx, ent := e, unit := u }] }
  | none => d.forceCommit idx e

/-! ### The register interface (R171) -/

def Dev.frcSel (d : Dev) : Nat := d.rf R.SYS_FRC_SEL_ENTRY

/-- A write of `FRC_SEL` loads the prepared entry. -/
def Dev.frcLoad (w : Nat) (d : Dev) : Dev :=
  let d := d.wf R.SYS_FRC_SEL_ENTRY w
  match Tbl.get? d.force d.frcSel with
  | some e =>
    let d := (d.wf R.SYS_FRC_ID_SIGID e.id).wf R.SYS_FRC_ID_TYPE (e.kind % 4)
    (d.wf R.SYS_FRC_ID_WCLASS (e.kind / 4)).wf R.SYS_FRC_VAL_VAL e.val.toNat
  | none => (((d.wf R.SYS_FRC_ID_SIGID 0).wf R.SYS_FRC_ID_TYPE 0).wf R.SYS_FRC_ID_WCLASS 0).wf R.SYS_FRC_VAL_VAL 0

def execFrcSelWrite (w : Word) (s : State) : Res := s.on (Dev.frcLoad w.toNat)

/-- Why a set of the prepared entry is refused (R166): 1 unknown ID, 2 type or class, 4 not forceable, 5 forced by another entry;
0 when it is not. -/
def Dev.frcWhy (d : Dev) (idx id kind : Nat) : Nat :=
  match d.sigRec id with
  | none => 1
  | some r =>
    if r.fkind ≠ kind then 2
    else if r.noForce then 4
    else if d.force.any (fun e => decide (e.1 ≠ idx) && decide (e.2.id = id)) ||
        d.forcePend.any (fun p => decide (p.idx ≠ idx) && decide (p.ent.map (·.id) = some id)) then 5
    else 0

/-- SET (R166, R171, R393); the status an Eyelet writer reads. -/
def Dev.frcSet (d : Dev) : Dev × Nat :=
  let idx := d.frcSel
  let id := d.rf R.SYS_FRC_ID_SIGID
  let kind := d.rf R.SYS_FRC_ID_TYPE + 4 * d.rf R.SYS_FRC_ID_WCLASS
  let why := d.frcWhy idx id kind
  if d.dxStandby then ((d.wf R.SYS_FRC_CTL_REFUSED 1).wf R.SYS_FRC_CTL_WHY 0, eyREFUSED)
  else if why ≠ 0 then ((d.wf R.SYS_FRC_CTL_REFUSED 1).wf R.SYS_FRC_CTL_WHY why, eyREFUSED)
  else (d.forceOp idx id (some { kind := kind, id := id, val := BitVec.ofNat 32 (d.rf R.SYS_FRC_VAL_VAL) }), eyOK)

def execFrcSet (s : State) : Res := s.on (fun d => d.frcSet.1)

/-- REMOVE: the selected entry leaves the table. -/
def Dev.frcRemove (d : Dev) : Dev :=
  match Tbl.get? d.force d.frcSel with
  | some e => d.forceOp d.frcSel e.id none
  | none => d

def execFrcRemove (s : State) : Res := s.on Dev.frcRemove

/-- FORCE_COMMIT (R168): the oldest waiting operation whose owning segment is idle; the rim updates the segment's force mirror. -/
def Dev.forceApply (dm : Dev × List Host.Cell) : Dev × List Host.Cell :=
  let d := dm.1
  match d.forcePend.find? (fun p => decide ((d.un p.unit).run = 0)) with
  | some p => Dev.mirror p.unit (({ d with forcePend := d.forcePend.erase p } : Dev).forceCommit p.idx p.ent, dm.2)
  | none => dm

def execForceCommit (s : State) : Res := s.onMem (fun d m => Dev.forceApply (d, m))

/-! ### Another Last (R169) -/

/-- An entry fits the loaded Last. -/
def Dev.forceFits (d : Dev) (e : ForceEnt) : Bool :=
  match d.sigRec e.id with
  | some r => decide (r.fkind = e.kind)
  | none => false

/-- Entries whose signal the new Last does not declare alike are dropped; waiting sets are judged alike, waiting removals completed. `more`: the entries
are judged once more for the same exchange, and DROPPED counts on (R171). -/
def Dev.forceRefit (more : Bool) (d : Dev) : Dev :=
  let gone := d.forcePend.filter (fun p => p.ent.isNone)
  let d : Dev := { d with force := gone.foldl (fun f p => Tbl.del p.idx f) d.force, forceOld := none }
  let bad := d.force.filter (fun e => !d.forceFits e.2)
  let d := bad.foldl (fun d e => ({ d with force := Tbl.del e.1 d.force } : Dev).raise Ev.FORCE_DROPPED 0 (leBytes 4 e.2.id)) d
  let d := d.wf R.SYS_FRC_STAT_DROPPED ((if more then d.rf R.SYS_FRC_STAT_DROPPED else 0) + bad.length)
  let sets := d.forcePend.filter (fun p => p.ent.isSome)
  sets.foldl (fun d p => match p.ent with
    | some e => if d.forceFits e then d.forceOp p.idx e.id (some e) else d.raise Ev.FORCE_DROPPED 0 (leBytes 4 e.id)
    | none => d) { d with forcePend := [] }

/-- WELT_FORCE (R389): the standby's table follows the copy. -/
def Dev.weltForce (f : WeltFrame) (d : Dev) : Dev :=
  if !d.dxStandby || decide (1024 ≤ f.tag) then d
  else if byteAt f.payload 0 = 1 then
    let e : ForceEnt := { kind := le f.payload 1 3, id := le f.payload 4 4, val := BitVec.ofNat 32 (le f.payload 8 4) }
    d.setForce (Tbl.put f.tag e d.force)
  else d.setForce (Tbl.del f.tag d.force)

def execWeltForce (f : WeltFrame) (ok : Bool) (s : State) : Res := s.on (Dev.weltRx f ok wtFORCE (Dev.weltForce f))

/-! ### Recipes (R208) -/

/-- Change the state of a sequencer outside its evaluation. -/
def Dev.seqUp (u i : Nat) (f : SeqSt → SeqSt) (d : Dev) : Dev :=
  let g (m : UnitSem) : UnitSem := { m with seqs := Tbl.upd {} i f m.seqs }
  d.unUp u (UnitSt.both g)

/-- Type of a signal of the directory. -/
def Dev.sigTyp (d : Dev) (id : Nat) : Option Nat := (d.sigRec id).map (·.typ)

/-- RECIPE_LOAD (R208): taken while the sequencer is idle; else BUSY, as for a FAULTED unit's (R210). -/
def Dev.recipeTake (q : Req) (num : Nat) (img : List Byte) (d : Dev) : Dev :=
  match d.seqOf num with
  | none => d.answer q eyREFUSED []
  | some (u, i) =>
    if d.dxStandby || d.rst.lcPend then d.answer q eyREFUSED []
    else
      let st := (Tbl.getD {} (d.un u).base.seqs i).st
      if (d.un u).run ≠ 2 ∧ (st = 0 ∨ st = 6 ∨ st = 7) then
        let d : Dev := { d with recipeLoad := Tbl.put num (img, q.sess, q.seq) d.recipeLoad }
        (d.seqUp u i (fun s => { s with st := 1 })).taken q
      else ({ d with recipeRes := Tbl.put num sqBUSY d.recipeRes } : Dev).answer q eyOK (leBytes 1 sqBUSY)

def execRecipeLoad (q : Req) (num : Nat) (img : List Byte) (s : State) : Res :=
  s.eyeletImg q (0x230000 + num) pvOPERATE img (fun b s => s.on (Dev.recipeTake q num b))

/-- Put a checked image into a sequencer's area; the result of the check. -/
def Dev.recipePut (num u i : Nat) (b : List Byte) (d : Dev) : Dev × Nat :=
  let res := recipeCheck (nth {} (d.seqsOf u) i) d.sigTyp b
  let d : Dev := { d with recipeRes := Tbl.put num res d.recipeRes }
  if res = sqOK then
    ({ d with recipes := Tbl.put num b d.recipes, recipeParsed := Tbl.put num (parseRecipe b) d.recipeParsed }, res)
  else ({ d with recipes := Tbl.del num d.recipes, recipeParsed := Tbl.del num d.recipeParsed }, res)

/-- The RECIPE frames of an accepted image. -/
def Dev.recipeSend (full : Bool) (num : Nat) (b : List Byte) (d : Dev) : Dev :=
  let cs := chunks 1024 b.length b
  (cs.mapIdx (fun i c => (i, c))).foldl (fun d c => d.weltSend wtRECIPE full (num + c.1 * 1024 * 256) c.2) d

/-- RECIPE_LOAD_DONE: the check ends. -/
def Dev.recipeDone (u i : Nat) (d : Dev) : Dev :=
  let num := d.seqNo u i
  match Tbl.get? d.recipeLoad num with
  | none => d
  | some (b, sess, seq) =>
    let r := ({ d with recipeLoad := Tbl.del num d.recipeLoad } : Dev).recipePut num u i b
    let d := r.1.seqUp u i (fun s => { s with st := 0 })
    let d := if r.2 = sqOK && d.copies then d.recipeSend false num b else d
    d.respond sess seq eyOK (leBytes 1 r.2)

def execRecipeLoadDone (u i : Nat) (s : State) : Res := s.guarded (s.dev.reqOk u i 4) (Dev.recipeDone u i)

/-- WELT_RECIPE (R389): a piece of an image goes to its place; a whole image is read again. -/
def Dev.weltRecipe (f : WeltFrame) (d : Dev) : Dev :=
  let num := f.tag % 128
  let off := f.tag / 256
  if !d.dxStandby || decide (2 ^ 20 < off + f.payload.length) then d
  else
    let old := if off = 0 then [] else Tbl.getD [] d.recipes num
    let b := slice old 0 off ++ f.payload
    let d : Dev := { d with recipes := Tbl.put num b d.recipes }
    match d.seqOf num with
    | some (u, i) => if le b 8 4 = b.length then (d.recipePut num u i b).1 else d
    | none => d

def execWeltRecipe (f : WeltFrame) (ok : Bool) (s : State) : Res := s.on (Dev.weltRx f ok wtRECIPE (Dev.weltRecipe f))

end Sys2Proof.Machine
end

