-- ==== Sys2Proof/Machine/Duplex.lean ====
section
/-!
DEFINITION. The duplex pair (R378 to R403): heartbeats, roles, the applied copy, takeover, split brain, planned handover and
on-line exchange.
-/
namespace Sys2Proof.Machine

/-! ### Roles (R393) -/

/-- Enter PAIRING; covered segments only listen. -/
def Dev.pairing (d : Dev) : Dev :=
  let d := (((d.setDx dxPAIRING).wf R.DUPX_STAT_FENCED 0).wf R.DUPX_CLAIM_CLAIM 0).dxUp (fun x =>
    { x with since := d.time.cnt, peerState := 0, tH := none, tHseq := none, witness := none, exchLoaded := false, exch := false })
  d.coveredSegs.foldl (fun d n => (d.setHol n hsPASSIVE).wf R.HOL_STAT_FENCED 0 n) d

/-- A duplex Last has been loaded (R378, R393, R400); another Last leaves the block OFF. -/
def Dev.pairLoaded (boot : Bool) (d : Dev) : Dev :=
  if d.cfg.own.duplex && d.hasWelt then
    let o := d.cfg.own
    let d := ((d.wf R.DUPX_CTRL_EN 1).wf R.DUPX_CFG_MISS_N o.missN).wf R.DUPX_CFG_HO_LEAD o.hoLead
    let d := d.wf R.DUPX_CFG_PAIR_WAIT o.pairWait
    if d.dx = dxOFF then d.pairing.dxUp (fun x => { x with autoPend := boot && d.cfg.autostart })
    else if d.dx = dxEXCHANGE then d.dxUp (fun x => { x with exchLoaded := true })
    else d
  else ((d.wf R.DUPX_CTRL_EN 0).setDx dxOFF).wf R.DUPX_CLAIM_CLAIM 0

/-- Enter SOLO from PAIRING: a claim, the covered segments start, AUTOSTART applies (R298, R381, R393). -/
def Dev.enterSolo (d : Dev) : Dev :=
  let d := (d.setDx dxSOLO).takeClaim
  let d := d.coveredSegs.foldl (fun d n => if d.holState n = hsPASSIVE then d.holListen n else d) d
  let go := d.dupx.autoPend && decide (d.lastState = lsSTOPPED) && !d.rst.plrWait && !d.rst.lcPend
  let d := d.dxUp (fun x => { x with autoPend := false })
  if go then d.runLast else d

/-- Bytes 7:0 of the LAST_ID of the loaded Last. -/
def Dev.lastTag (d : Dev) : Nat := le d.cfg.id 0 8

/-- What `RST.PLR_STAT` reports of a resume record (R469). -/
def Dev.plrShow (st why : Nat) (d : Dev) : Dev := (d.wf R.RST_PLR_STAT_STATE st).wf R.RST_PLR_STAT_WHY why

/-- Enter SYNCING: received and applied copies start empty; a resume record is discarded (R467). -/
def Dev.enterSyncing (d : Dev) : Dev :=
  let d := if d.plr.valid then (d.plrShow 3 5).raise Ev.PLR_REFUSED 0 [] else d
  let d : Dev := { d with plr := { d.plr with valid := false }, rst := { d.rst with plrWait := false } }
  (d.setDx dxSYNCING).dxUp (fun x => { x with rxTiles := [], perCyc := [], rxPort := [], applied := [], appK := [], port := [],
                                              synced := [], fullEnd := false, autoPend := false })

/-! ### Takeover (R394) -/

/-- Cadences run again from the first boundary at or after a tick, without a step of view 0. -/
def Dev.runFrom (t : Nat) (d : Dev) : Dev :=
  let d := d.setLast lsRUNNING
  d.usedCads.foldl (fun d n =>
    let d := d.setCad n (fun c => { c with ref := some (t - 1), deferred := false, run := false, stopping := false, halt := false,
                                           firstLatch := false, img := true })
    (d.wf R.TIME_CADn_STAT_WAIT 0 0 n).wf R.TIME_CADn_STAT_RUN 0 0 n) d

/-- Segments of an exchanged Last scan first with SB 1, not SB 3 (R164, R400). -/
def Dev.exchParts (us : List Nat) (d : Dev) : Dev :=
  if !d.dupx.exch then d
  else
    let g (m : UnitSem) : UnitSem := { m with part := { m.part with firstPend := true, resumedPend := false } }
    (us.filter (fun u => decide ((d.un u).kind = 2))).foldl (fun d u => d.unUp u (UnitSt.both g)) d

/-- The exchange is over: every unit of the new Last runs. -/
def Dev.exchEnd (d : Dev) : Dev := d.dxUp (fun x => { x with exch := false })

/-- The port image of a cadence becomes visible (R394 step 3, R399 step 4). -/
def Dev.portShow (n : Nat) (d : Dev) : Dev :=
  d.dupx.port.foldl (fun d p => if p.1 = n then d.showSig p.2.1 { val := p.2.2, st := stOk } else d) d

/-- An exchanged Last takes over: the force table is judged once more, with what has come over Welt since (R169). -/
def Dev.exchForces (d : Dev) : Dev := (if d.dupx.exchLoaded then d.forceRefit true else d).forceNow

/-- A takeover begins: cause 1 DECLARED, 2 RELINQ, 3 ISOLATED, 4 COMMAND. -/
def Dev.takeover (cause : Nat) (dm : Dev × List Host.Cell) : Dev × List Host.Cell :=
  let d := dm.1
  let ns := d.viewNs 0
  let d := (d.takeClaim.w64 R.DUPX_TD_LO_NS R.DUPX_TD_HI_NS ns).wf R.DUPX_STATE_CAUSE cause
  let d := (d.bump R.DUPX_CNT_TAKEOVERS 1).raise Ev.DUPX_TAKEOVER 0 [BitVec.ofNat 8 cause]
  let d := (d.setDx dxTAKING).dxUp (fun x => { x with rxTiles := [], rxPort := [], tH := none, tHseq := none, witness := none,
                                                      peerState := 0, goAt := d.time.cnt + 5000, await := [] })
  let r := Dev.fabricRestore false (d.exchForces, dm.2)
  let d := ((r.1.exchParts (r.1.kindUnits 2)).exchEnd).runFrom (d.time.cnt + 5000)
  let d := d.usedCads.foldl (fun d n => (d.portShow n).holFill n) d
  (d.coveredSegs.foldl (fun d n => (d.segUp n (fun s => { s with next := 1 })).segHold n) d, r.2)

/-- A standby that cannot take over sees the active fail, and says so once until it hears a healthy partner again. -/
def Dev.noStandby (d : Dev) : Dev :=
  if [dxSYNCING, dxEXCHANGE, dxOUTDATED].contains d.dx && !d.dupx.lost then
    (d.raise Ev.DUPX_NO_STANDBY 0 []).dxUp (fun x => { x with lost := true })
  else d

/-- The active has failed: the standby takes over, or says that it cannot (R388, R394). -/
def Dev.activeFailed (cause : Nat) (dm : Dev × List Host.Cell) : Dev × List Host.Cell :=
  if [dxSTANDBY, dxREADY].contains dm.1.dx then Dev.takeover cause dm else (dm.1.noStandby, dm.2)

/-- R388 with R396: both paths missed without a witness, or one missed while the other says FAULT. -/
def Dev.dxJudge (dm : Dev × List Host.Cell) : Dev × List Host.Cell :=
  let d := dm.1
  let w := d.flag R.DUPX_STATE_MISS_W
  let h := d.flag R.DUPX_STATE_MISS_H
  if w && h then
    if (d.dx = dxSTANDBY ∨ d.dx = dxREADY) ∧ d.dupx.witness.isSome then
      let d := (d.setDx dxISOLATED).wf R.DUPX_STAT_SPLIT 1
      ((d.bump R.DUPX_CNT_VETOES 1).raise Ev.DUPX_SPLIT 0 [], dm.2)
    else if d.dx = dxACTIVE then (d.setDx dxSOLO, dm.2)
    else Dev.activeFailed 1 dm
  else if (w && d.dupx.faultH) || (h && d.dupx.faultW) then
    Dev.activeFailed 1 dm
  else (d.dxUp (fun x => { x with lost := false }), dm.2)

/-! ### Heartbeats (R384 to R388) -/

/-- Byte 0 of R385. -/
def Dev.hbRole (d : Dev) : Nat :=
  let role := if d.dxRuns then 1 else if d.dxStandby then 2 else if d.dx = dxFENCED then 3 else 0
  let fault := d.dxRuns && (d.rst.epi.isSome || d.rst.resume || d.rst.safe || d.units.any (fun e => decide (e.2.run = 2)))
  role + 4 * b2n fault + 8 * b2n d.dupx.relinq + 16 * d.rf R.DUPX_CFG_SIDE

/-- Bytes 0 to 11 of R385. -/
def Dev.hbHead (d : Dev) : List Byte :=
  [BitVec.ofNat 8 d.hbRole, BitVec.ofNat 8 d.dx, 0, 0] ++ leBytes 4 (d.rf R.DUPX_CLAIM_CLAIM) ++
    leBytes 4 (d.rf R.DUPX_HCLAIM_HCLAIM)

/-- WELT_HB_DUE: the rim runs and the link is up; an HB frame is not sequenced (R383 to R385). -/
def Dev.hbWeltSend (d : Dev) : Dev :=
  if d.weltUp && decide (3 ≤ d.rst.phase) then (d.weltOut 24).emit (.hbWelt (weltBytes 1 false 0 0 (d.hbHead ++ leBytes 8 d.lastTag ++ zeros 4))) else d

def execWeltHbDue (s : State) : Res := s.on Dev.hbWeltSend

/-- HB_PAIR_DUE: preamble, 6 data bytes and their CRC (R386). -/
def Dev.hbPairSend (d : Dev) : Dev :=
  if d.hasWelt && decide (3 ≤ d.rst.phase) then
    let b := [BitVec.ofNat 8 d.hbRole, 0] ++ leBytes 4 (d.rf R.DUPX_CLAIM_CLAIM)
    d.emit (.hbPair (0xA5 :: b ++ leBytes 4 (crc32c b)))
  else d

def execHbPairDue (s : State) : Res := s.on Dev.hbPairSend

/-- Missed heartbeats of a gap between two valid ones (log entry 29). -/
def missedIn (gap period : Nat) : Nat := (gap + period / 2) / period - 1

/-- The partner's state has become known: role changes that hang on it (R393), and a pending handover to a partner
that is neither STANDBY nor EXCH_READY is dropped (R399, log entry 78). `welt` is STATE and LASTID of a Welt heartbeat. -/
def Dev.dxHear (active : Bool) (welt : Option (Nat × Nat)) (d : Dev) : Dev :=
  match welt with
  | none => d
  | some (st, id) =>
    let d := d.dxUp (fun x =>
      { x with
        peerState := st, peerId := id,
        tH := if d.dxRuns && !([dxSTANDBY, dxREADY].contains st) then none else x.tH })
    if d.dx = dxPAIRING then
      if active then (if id = d.lastTag then d.enterSyncing else d.setDx dxOUTDATED)
      else if st = dxPAIRING ∧ d.rf R.DUPX_CFG_SIDE = 0 then d.enterSolo
      else d
    else if d.dx = dxSYNCING ∧ active ∧ id ≠ d.lastTag then d.setDx dxOUTDATED
    else if d.dx = dxSOLO ∧ st = dxSTANDBY then d.setDx dxACTIVE
    else if d.dx = dxACTIVE ∧ st ≠ dxSTANDBY then d.setDx dxSOLO
    else d

/-- A heartbeat whose CRC matches (R380, R387, R388, R397). -/
def Dev.heartbeat (pair : Bool) (role claim hclaim : Nat) (welt : Option (Nat × Nat)) (dm : Dev × List Host.Cell) :
    Dev × List Host.Cell :=
  let d := dm.1
  if bitAt role 4 = decide (d.rf R.DUPX_CFG_SIDE = 1) then
    ((d.wf R.DUPX_STAT_SIDECONF 1).raise Ev.DUPX_SIDE_CONFLICT 0 [], dm.2)
  else
    let now := d.time.cnt
    let gap := now - ((if pair then d.dupx.tvH else d.dupx.tvW).getD 0)
    let was := if pair then d.flag R.DUPX_STATE_MISS_H else d.flag R.DUPX_STATE_MISS_W
    let n := missedIn gap (if pair then 50000 else 10000) - (if was then d.rf R.DUPX_CFG_MISS_N else 0)
    let d := if pair then (d.bump R.DUPX_MISSCNT_HB n).wf R.DUPX_STATE_MISS_H 0
             else (d.bump R.DUPX_MISSCNT_WELT n).wf R.DUPX_STATE_MISS_W 0
    let d := d.dxUp (fun x => if pair then { x with tvH := some now, faultH := bitAt role 2, witness := none }
                              else { x with tvW := some now, faultW := bitAt role 2, witness := none })
    let d := ((d.wf R.DUPX_STATE_PEER role).wf R.DUPX_PEER_CLAIM_CLAIM claim).seeClaim (max claim hclaim)
    let d := if d.dxRuns && decide (d.rf R.DUPX_CLAIM_CLAIM < claim) then d.dxFence else d
    let d := if d.dx = dxISOLATED then d.setDx (if d.dupx.exch then dxREADY else dxSTANDBY) else d
    let d := (d.dxHear (decide (role % 4 = 1)) welt).copyAlone dm.2
    if bitAt role 3 then Dev.activeFailed 2 (d.dxUp (fun x => { x with tH := none }), dm.2)
    else Dev.dxJudge (d, dm.2)

/-- The pair machinery takes part: a duplex Last and the link (R403 EN), no reset of the rim. -/
def Dev.dxOn (d : Dev) : Bool := d.hasWelt && d.flag R.DUPX_CTRL_EN

def execWeltHb (bytes : List Byte) (ok : Bool) (s : State) : Res :=
  s.onMem (fun d m =>
    let d := if d.weltUp then d.weltIn 24 else d
    if ok && d.dxOn && d.weltUp then
      Dev.heartbeat false (byteAt bytes 0) (le bytes 4 4) (le bytes 8 4) (some (byteAt bytes 1, le bytes 12 8)) (d, m)
    else (d, m))

def execHbPairFrame (bytes : List Byte) (ok : Bool) (s : State) : Res :=
  s.onMem (fun d m => if ok && d.dxOn then Dev.heartbeat true (byteAt bytes 0) (le bytes 2 4) 0 none (d, m) else (d, m))

/-- HB_PATH_MISSED (R387): no valid heartbeat for MISS_N periods. -/
def Dev.pathMissed (pair : Bool) (dm : Dev × List Host.Cell) : Dev × List Host.Cell :=
  let d := dm.1
  let n := d.rf R.DUPX_CFG_MISS_N
  let due := decide ((if pair then d.dupx.tvH else d.dupx.tvW).getD 0 + n * (if pair then 50000 else 10000) ≤ d.time.cnt)
  let was := if pair then d.flag R.DUPX_STATE_MISS_H else d.flag R.DUPX_STATE_MISS_W
  if !d.dxOn || was || !due then dm
  else
    let d := if pair then (d.wf R.DUPX_STATE_MISS_H 1).bump R.DUPX_MISSCNT_HB n
             else (d.wf R.DUPX_STATE_MISS_W 1).bump R.DUPX_MISSCNT_WELT n
    let both := d.flag R.DUPX_STATE_MISS_W && d.flag R.DUPX_STATE_MISS_H
    let d := if both then d.dxUp (fun x => { x with peerState := 0, tH := none, tHseq := none }) else d
    Dev.dxJudge (d.copyAlone dm.2, dm.2)

def execHbPathMissed (pair : Bool) (s : State) : Res := s.onMem (fun d m => Dev.pathMissed pair (d, m))

/-- W of R396, in ticks: twice the longest basic cycle of the covered segments, 2.5 ms without one. -/
def Dev.dxW (d : Dev) : Nat :=
  if d.coveredSegs.isEmpty then 1250000 else d.coveredSegs.foldl (fun a n => max a (d.holPbc n)) 0

def execIsolatedExpiry (s : State) : Res :=
  s.onMem (fun d m =>
    match d.dupx.witness with
    | some t => if d.dx = dxISOLATED ∧ t + d.dxW ≤ d.time.cnt then Dev.takeover 3 (d, m) else (d, m)
    | none => (d, m))

/-- PAIR_WAIT_EXPIRY (R393). -/
def Dev.pairWaitEnd (d : Dev) : Dev :=
  let from_ := max d.dupx.since (max (d.dupx.tvW.getD 0) (d.dupx.tvH.getD 0))
  if d.dx = dxPAIRING ∧ from_ + d.rf R.DUPX_CFG_PAIR_WAIT * 50000000 ≤ d.time.cnt then d.enterSolo else d

def execPairWaitExpiry (s : State) : Res := s.on Dev.pairWaitEnd

/-! ### Claim beacons (R397, R398) -/

/-- The multicast address for claim beacons that the Last names (R51). -/
def Dev.beaconAddr (d : Dev) : Nat :=
  d.cfg.io.foldl (fun a e => match e.body with | .global _ _ _ _ _ _ b _ _ _ => b | _ => a) 0

/-- Ports with DUPLEX transmit frames. -/
def Dev.dupPorts (d : Dev) : List Nat :=
  (d.cfg.io.filterMap (fun e => match e.body with | .ethTx p _ _ _ dup _ _ => if dup then some p else none | _ => none)).eraseDups

/-- CLAIM_BEACON_DUE: one on each PRP pair that carries DUPLEX frames. -/
def Dev.beaconSend (d : Dev) : Dev :=
  if !d.dxRuns then d
  else ((d.dupPorts.map (fun p => p / 2 * 2)).eraseDups.filter d.prp).foldl (fun d p =>
    d.ethSend p (d.mgmtQ p) none (ethFrame d.beaconAddr (d.mac p) 0x88B5 d.hbHead)) d

def execClaimBeaconDue (s : State) : Res := s.on Dev.beaconSend

/-- CLAIM_BEACON_RECEIVED: bytes 0 to 11 of R385, with the start of the frame (tick, class A stamp). -/
def Dev.beaconTake (b : List Byte) (start : Nat) (d : Dev) : Dev :=
  let claim := le b 4 4
  if !d.dxOn || decide (bitAt (byteAt b 0) 4 = decide (d.rf R.DUPX_CFG_SIDE = 1)) then d
  else
    let d := (d.seeClaim (max claim (le b 8 4))).witnessAt claim start
    if d.dxRuns && decide (d.rf R.DUPX_CLAIM_CLAIM < claim) then d.dxFence else d

def execClaimBeaconReceived (bytes : List Byte) (start : Nat) (s : State) : Res := s.on (Dev.beaconTake bytes start)

/-! ### The received copy (R390 to R392) -/

/-- Frames of the copy are taken by a standby, and by a new active until its boundary B_n (R399). -/
def Dev.takesCopy (d : Dev) : Bool := d.dxStandby || !d.dupx.await.isEmpty

/-- WELT_TILE: a FULL tile does not replace one that a per-cycle frame has brought. -/
def Dev.weltTile (f : WeltFrame) (d : Dev) : Dev :=
  let key := 32 * (f.tag % 512) + f.tag / 512 % 32
  if !d.takesCopy || (f.full && d.dupx.perCyc.contains key) then d
  else d.dxUp (fun x => { x with rxTiles := Tbl.put key (slice f.payload 0 1024) x.rxTiles,
                                 perCyc := if f.full ∨ x.fullEnd then x.perCyc else (key :: x.perCyc).eraseDups })

def execWeltTile (f : WeltFrame) (ok : Bool) (s : State) : Res := s.on (Dev.weltRx f ok wtTILE (Dev.weltTile f))

/-- WELT_PORTIMG. -/
def Dev.weltPort (f : WeltFrame) (d : Dev) : Dev :=
  if !d.takesCopy then d
  else
    let es := (List.range (f.payload.length / 8)).map (fun i =>
      (f.tag % 8, le f.payload (8 * i) 4, (BitVec.ofNat 32 (le f.payload (8 * i + 4) 4) : Word)))
    d.dxUp (fun x => { x with rxPort := x.rxPort ++ es })

def execWeltPortimg (f : WeltFrame) (ok : Bool) (s : State) : Res := s.on (Dev.weltRx f ok wtPORTIMG (Dev.weltPort f))

/-- The Last whose cycles the active sends: the loaded one, or the old one once an exchange has loaded another. -/
def Dev.sentLast (d : Dev) : LastRec := if d.dupx.exchLoaded then d.dupOld.getD d.cfg else d.cfg

/-- The received tiles a COMMIT of a cadence covers: those of its units and of event-driven units. -/
def Dev.tilesOf (d : Dev) (n : Nat) : List (Nat × List Byte) :=
  let us := (d.sentLast.units.filter (fun r => r.event || decide (r.cad = n))).map (·.unit)
  d.dupx.rxTiles.filter (fun t => us.contains (t.1 / 32))

/-- Apply received tiles to tile memory and to the checkpoint a takeover resumes from (R390). -/
def Dev.applyTiles (n k : Nat) (ts : List (Nat × List Byte)) (dm : Dev × List Host.Cell) : Dev × List Host.Cell :=
  let r := ts.foldl (fun dm t =>
    match (dm.1.un (t.1 / 32)).tiles.find? (fun x => decide (x.lidx = t.1 % 32)) with
    | some x => Dev.tileWrite x.ptile t.2 false dm
    | none => dm) dm
  let us := (ts.map (fun t => t.1 / 32)).eraseDups
  us.foldl (fun dm u =>
    let x := dm.1.un u
    let sem := Config.decSem x.kind (dm.1.unitBytes dm.2 u)
    let d := dm.1.setUn u { x with base := sem, work := sem, shown := sem.objs }
    let key := if x.event then 8 else n
    let c : Ckpt := { k := k, tiles := ts.filter (fun t => decide (t.1 / 32 = u)), sems := [(u, sem)] }
    ({ d with ckpt := Tbl.upd {} key (fun s => { s with complete := some (Ckpt.merge s.complete c) }) d.ckpt }, dm.2)) r

/-! ### On-line exchange (R54, R164, R165, R400) -/

/-- The content of a unit of the old Last in the applied copy. -/
def Dev.oldSem (d : Dev) (u : Nat) : UnitSem :=
  let kind := ((d.sentLast.units.find? (fun r => decide (r.unit = u))).map (·.kind)).getD 0
  Config.decSem kind ((List.range 32).map (fun l => slice (Tbl.getD [] d.dupx.applied (32 * u + l)) 0 1024)).flatten

/-- An object carries its state record when both structures agree (R54). -/
def xmapSame (o c : LastRec) (x : XmapRec) : Bool :=
  match x.kind with
  | 1 =>
    let a := nth {} (Tbl.getD [] o.loops x.oldUnit) x.oldIdx
    let b := nth {} (Tbl.getD [] c.loops x.newUnit) x.newIdx
    decide (a.aws.length = b.aws.length) && decide (a.models.length = b.models.length) &&
      decide (a.taps.length = b.taps.length) && decide (a.sets = b.sets)
  | 3 =>
    let a := nth {} (Tbl.getD [] o.axes x.oldUnit) x.oldIdx
    let b := nth {} (Tbl.getD [] c.axes x.newUnit) x.newIdx
    decide (a.kind = b.kind) && decide (a.dest = b.dest)
  | 4 => true
  | 5 =>
    let a := nth {} (Tbl.getD [] o.engs x.oldUnit) x.oldIdx
    let b := nth {} (Tbl.getD [] c.engs x.newUnit) x.newIdx
    decide (a.sigs.length = b.sigs.length) && decide (a.meas.length = b.meas.length)
  | 6 =>
    let st (l : LastRec) (u : Nat) : List Nat := (l.tiles.filter (fun t => decide (t.unit = u) && decide (t.cls = 3))).map (·.lidx)
    decide ((Tbl.getD [] o.conds x.oldUnit).length = (Tbl.getD [] c.conds x.newUnit).length) && decide (st o x.oldUnit = st c x.newUnit)
  | _ => false

/-- Carry one mapped object into the content of its new unit; a COND unit's inputs by their place in the unit. -/
def xmapCarry (o c : LastRec) (x : XmapRec) (old new : UnitSem) : UnitSem :=
  match x.kind with
  | 1 => { new with loops := Tbl.put x.newIdx (Tbl.getD {} old.loops x.oldIdx) new.loops }
  | 3 => { new with axes := Tbl.put x.newIdx (Tbl.getD {} old.axes x.oldIdx) new.axes }
  | 4 => { new with seqs := Tbl.put x.newIdx (Tbl.getD {} old.seqs x.oldIdx) new.seqs }
  | 5 => { new with engs := Tbl.put x.newIdx (Tbl.getD {} old.engs x.oldIdx) new.engs }
  | 6 =>
    let outs := (Tbl.getD [] o.conds x.oldUnit).zip (Tbl.getD [] c.conds x.newUnit)
    { new with last := outs.foldl (fun (t : Tbl SigVal) p => match Tbl.get? old.last p.1.out with | some v => Tbl.put p.2.out v t | none => t) new.last }
  | _ => new

/-- The content of a unit of the new Last, with what it carries; counts of carried and initialised logic objects. T_prev is not carried (R155; log
entry 116). -/
def Dev.newSem (d : Dev) (u : Nat) : UnitSem × Nat × Nat :=
  let o := d.sentLast
  let s0 := d.initSem u
  if (d.un u).kind = 2 then
    let p := d.partOf u
    let oldP := (o.parts.find? (fun c => decide (c.part = p))).getD { part := p }
    let segs := o.units.filter (fun r => decide (r.kind = 2) && decide (nth 0 r.kdata 0 = p))
    let lead := ((segs.filter (fun r => !r.event) ++ segs).map (·.unit)).head?.getD 0
    let r := carryObjs oldP (d.partCfg p) u (fun v => (d.oldSem v).objs)
    let pt := (d.oldSem lead).part
    let part : PartSt := { st := pt.st, strict := true, left := (d.partCfg p).strictScans, scans := pt.scans }
    ({ s0 with objs := r.1, part := part }, r.2)
  else
    ((d.cfg.xmap.filter (fun x => decide (x.newUnit = u) && xmapSame o d.cfg x)).foldl (fun s x =>
      xmapCarry o d.cfg x (d.oldSem x.oldUnit) s) s0, 0, 0)

/-- Derive the new Last's state from the applied copy; then EXCH_READY. -/
def Dev.derive (k : Nat) (dm : Dev × List Host.Cell) : Dev × List Host.Cell :=
  let d := dm.1
  if !d.dupx.exchLoaded || decide (d.cfg.xmapOld ≠ d.sentLast.id) || decide (le d.cfg.xmapOld 0 8 ≠ d.dupx.peerId) then dm
  else
    let us := d.unitsWhere (fun x => decide (x.kind ≠ 0))
    let all := us.map (fun u => (u, d.newSem u))
    let parts := ((d.kindUnits 2).map d.partOf).eraseDups
    let r := all.foldl (fun dm a =>
      let u := a.1
      let sem := a.2.1
      let x := dm.1.un u
      let st := (x.tiles.filter (fun t => decide (t.cls = 3))).map (fun t => (t, slice (Config.encSem x.kind sem t.lidx) 0 1024))
      let dm := st.foldl (fun dm t => Dev.tileWrite t.1.ptile t.2 false dm) dm
      let d := dm.1.setUn u { x with base := sem, work := sem, shown := sem.objs }
      let c : Ckpt := { k := k, tiles := st.map (fun t => (32 * u + t.1.lidx, t.2)), sems := [(u, sem)] }
      let key := if x.event then 8 else x.cad
      ({ d with ckpt := Tbl.upd {} key (fun s => { s with complete := some (Ckpt.merge s.complete c) }) d.ckpt }, dm.2)) dm
    let d := parts.foldl (fun d p =>
      let mine := all.filter (fun a => (d.segs p).contains a.1)
      let d := d.wf R.UNIT_LG_CARRY_CARRIED ((mine.map (fun a => a.2.2.1)).sum) (d.lead p)
      d.wf R.UNIT_LG_CARRY_INIT ((mine.map (fun a => a.2.2.2)).sum) (d.lead p)) r.1
    let d := if d.dx = dxEXCHANGE then d.forceRefit true else d
    ((d.setDx dxREADY).dxUp (fun x => { x with exch := true }), r.2)

/-- WELT_COMMIT (R390, R392): the received tiles and port image of the cadence become the applied ones. -/
def Dev.weltCommit (f : WeltFrame) (dm : Dev × List Host.Cell) : Dev × List Host.Cell :=
  let d := dm.1
  let n := f.tag % 8
  let k := f.tag / 256
  if !d.takesCopy then dm
  else
    let ts := d.tilesOf n
    let img := d.dupx.rxPort.filter (fun p => decide (p.1 = n))
    let d := d.dxUp (fun x => { x with
      applied := ts.foldl (fun a t => Tbl.put t.1 t.2 a) x.applied, appK := Tbl.put n k x.appK,
      rxTiles := ts.foldl (fun a t => Tbl.del t.1 a) x.rxTiles,
      rxPort := x.rxPort.filter (fun p => decide (p.1 ≠ n)),
      port := x.port.filter (fun p => decide (p.1 ≠ n)) ++ img,
      synced := if x.fullEnd then (n :: x.synced).eraseDups else x.synced })
    let r := if d.dupx.exchLoaded then (d, dm.2) else Dev.applyTiles n k ts (d, dm.2)
    let d := r.1
    let r : Dev × List Host.Cell :=
      if d.dx = dxSYNCING && d.dupx.fullEnd && d.usedCads.all (fun c => d.dupx.synced.contains c) && d.locked 0 then
        (d.setDx dxSTANDBY, r.2)
      else r
    if r.1.dx = dxEXCHANGE ∨ r.1.dx = dxREADY then Dev.derive k r else r

def execWeltCommit (f : WeltFrame) (ok : Bool) (s : State) : Res :=
  s.onMem (fun d m =>
    let d' := Dev.weltRx f ok wtCOMMIT (fun d => d) d
    if ok && decide (d'.dupx.rxSeq ≠ d.dupx.rxSeq) then Dev.weltCommit f (d', m) else (d', m))

/-- FULL_COPY_END (R392): the active has sent every STATE and WRITABLE tile, the force table and every recipe area, marked FULL;
the syncing standby has received them. -/
def Dev.fullCopyEnd (m : List Host.Cell) (d : Dev) : Dev :=
  if d.dx = dxSYNCING then d.dxUp (fun x => { x with fullEnd := true, perCyc := [], synced := [] })
  else if d.dxRuns && decide (d.dupx.peerState = dxSYNCING) then
    let us := d.unitsWhere (fun x => decide (x.kind ≠ 0))
    let d := us.foldl (fun d u =>
      ((d.un u).tiles.filter (fun t => decide (1 < t.cls))).foldl (fun d t =>
        d.weltSend wtTILE true (u + t.lidx * 512) (memRead m (tileAddr t.ptile) 1024)) d) d
    let d := d.force.foldl (fun d e => d.weltSend wtFORCE true e.1 (forceBytes (some e.2))) d
    d.recipes.foldl (fun d e => d.recipeSend true e.1 e.2) d
  else d

def execFullCopyEnd (s : State) : Res := s.on (Dev.fullCopyEnd s.mem)

/-- R390: three consecutive cycles of a cadence stay unapplied; judged at its boundaries, a cycle's copy having until the next one
(log entry 100). -/
def Dev.copyLag (n : Nat) (d : Dev) : Dev :=
  match Tbl.get? d.dupx.appK n with
  | some k => if d.dx = dxSTANDBY ∧ d.cadIdx n % 2 ^ 56 = k + 5 then (d.wf R.DUPX_STAT_COPYLAG 1).raise Ev.DUPX_COPYLAG 0 [] else d
  | none => d

/-! ### Planned handover (R399, R402) -/

/-- The code of the CTRL frame that carries t_h (log entry 28). -/
def ctrlHANDOVER : Nat := 1

/-- HANDOVER: the active has chosen t_h; a partner in EXCH_READY leaves it in SOLO (log entry 30). -/
def Dev.handover_ (q : Req) (d : Dev) : Dev :=
  let ok := (decide (d.dx = dxACTIVE) && [dxSTANDBY, dxREADY].contains d.dupx.peerState) ||
    (decide (d.dx = dxSOLO) && decide (d.dupx.peerState = dxREADY))
  if !ok then d.answer q eyREFUSED []
  else
    let t := ceilDiv (d.viewNs 0 + d.rf R.DUPX_CFG_HO_LEAD * 1000000) 1000000 * 1000000
    let seq := d.dupx.txSeq
    let d := (d.weltSend wtCTRL false ctrlHANDOVER (leBytes 8 t)).dxUp (fun x => { x with tH := some t, tHseq := some seq })
    d.answer q eyOK []

def execDupHandover (q : Req) (s : State) : Res := s.eyelet q pvENGINEER (fun s => s.on (Dev.handover_ q))

/-- WELT_CTRL: the standby learns t_h. -/
def Dev.weltCtrlRx (f : WeltFrame) (d : Dev) : Dev :=
  if f.tag = ctrlHANDOVER ∧ [dxSTANDBY, dxREADY].contains d.dx then d.dxUp (fun x => { x with tH := some (le f.payload 0 8) }) else d

def execWeltCtrl (f : WeltFrame) (ok : Bool) (s : State) : Res := s.on (Dev.weltRx f ok wtCTRL (Dev.weltCtrlRx f))

/-- The old active at t_h: SYNCING, claim 0, items lost; its cadences end at their boundaries B_n. Force operations not committed before
t_h are refused (R402). -/
def Dev.handOff (d : Dev) : Dev :=
  let d : Dev := { (if d.forcePend.isEmpty then d else (d.wf R.SYS_FRC_CTL_REFUSED 1).wf R.SYS_FRC_CTL_WHY 0) with forcePend := [] }
  let d := (d.enterSyncing.wf R.DUPX_CLAIM_CLAIM 0).bump R.DUPX_CNT_HANDOVERS 1
  let d := d.coveredSegs.foldl (fun d n => (d.segUp n (fun s => { s with next := 2 })).wf R.HOL_CLAIM_V 0 n) d
  let d := d.bump R.DISP_LOST_COUNT ((d.disp.map (fun q => q.2.store.length + q.2.ring.length)).sum)
  let d : Dev := { d with disp := Tbl.mapVals (fun _ q => { q with store := [], ring := [], serv := [] }) d.disp }
  let cads := d.usedCads
  let d := d.stopLast.dxUp (fun x => { x with leaving := cads, tH := none })
  cads.foldl (fun d n => d.setCad n (fun c => { c with firstLatch := false })) d

/-- The new active at t_h: a claim, the Last runs from each B_n on. -/
def Dev.handOn (d : Dev) : Dev :=
  let now := d.time.cnt
  let d := (((d.setDx dxSOLO).takeClaim).bump R.DUPX_CNT_HANDOVERS 1).exchForces
  let d := (d.runFrom now).dxUp (fun x => { x with tH := none, await := d.usedCads, goAt := now })
  let d := d.usedCads.foldl (fun d n => (d.portShow n).holFill n) d
  d.coveredSegs.foldl (fun d n => (d.segUp n (fun s => { s with next := 1 })).segHold n) d

/-- HANDOVER_TIME (R399 step 1): without the acknowledgement of t_h the handover does not proceed. -/
def Dev.handoverTime (d : Dev) : Dev :=
  match d.dupx.tH with
  | none => d
  | some t =>
    if d.viewNs 0 < t then d
    else if d.dxRuns then
      (if d.dupx.tHseq.isSome then d.dxUp (fun x => { x with tH := none, tHseq := none }) else d.handOff)
    else if [dxSTANDBY, dxREADY].contains d.dx then d.handOn
    else d.dxUp (fun x => { x with tH := none })

def execHandoverTime (s : State) : Res := s.on Dev.handoverTime

/-- Boundary B_n of the new active (R399 steps 4 and 5): its units resume from the applied checkpoint and the port image of the old
active's last cycle is latched. -/
def Dev.bnOn (n : Nat) (dm : Dev × List Host.Cell) : Dev × List Host.Cell :=
  let d := dm.1
  if !d.dupx.await.contains n then dm
  else
    let gap := decide (Tbl.get? d.dupx.appK n ≠ some ((d.cadIdx n - 1) % 2 ^ 56))
    let d := if gap then d.wf R.DUPX_STAT_HOGAP 1 else d
    let us := d.cadUnits n ++ (if d.dupx.await.length = d.usedCads.length then d.evUnits else [])
    let r := us.foldl (fun dm u => Dev.restoreUnit u dm) (d, dm.2)
    let d := Dev.resumed false us r.1
    let d := ((d.exchParts us).portShow n).dxUp (fun x => { x with await := x.await.filter (· ≠ n) })
    (if d.dupx.await.isEmpty then d.exchEnd else d, r.2)

/-! ### The other subcommands (R401) -/

/-- A subcommand: refused in any other state. -/
def State.duplex (s : State) (q : Req) (sts : List Nat) (f : Dev → Dev) : Res :=
  s.eyelet q pvENGINEER (fun s => s.on (fun d => if d.hasWelt && sts.contains d.dx then (f d).answer q eyOK [] else d.answer q eyREFUSED []))

def execDupJoin (q : Req) (s : State) : Res := s.duplex q [dxFENCED, dxOUTDATED, dxDETACHED] Dev.pairing

def execDupTakeover (q : Req) (s : State) : Res :=
  s.eyelet q pvENGINEER (fun s => s.onMem (fun d m =>
    if d.hasWelt && [dxSTANDBY, dxREADY].contains d.dx then
      let r := Dev.takeover 4 (d, m)
      (r.1.answer q eyOK [], r.2)
    else (d.answer q eyREFUSED [], m)))

def execDupExchPrep (q : Req) (s : State) : Res :=
  s.duplex q [dxSYNCING, dxSTANDBY, dxOUTDATED] (fun d =>
    let d : Dev := { d with dupOld := d.last }
    (d.setDx dxEXCHANGE).dxUp (fun x => { x with exchLoaded := false, exch := false, tH := none }))

def execDupExchAbort (q : Req) (s : State) : Res :=
  s.duplex q [dxEXCHANGE, dxREADY] (fun d =>
    let d := d.dxUp (fun x => { x with exchLoaded := false, exch := false, tH := none })
    if d.lastTag = d.dupx.peerId then d.enterSyncing else d.setDx dxOUTDATED)

def execDupLeave (q : Req) (s : State) : Res :=
  s.duplex q [dxSYNCING, dxSTANDBY, dxREADY] (fun d => d.setDx dxDETACHED)

end Sys2Proof.Machine
end

