-- ==== Sys2Proof/Machine/IslandSet.lean ====
section
/-!
DEFINITION. The safety island's parameter set (R418 to R420): reading it out of its bytes and checking every field.
-/
namespace Sys2Proof.Machine

/-- A reference byte: 0xFF means none. -/
def refOf (x : Nat) : Option Nat := if x = 0xFF then none else some x

def psetIn (b : List Byte) (o : Nat) : SinRec :=
  { sin := byteAt b o, typ := byteAt b (o + 1), filt := byteAt b (o + 2), disc := byteAt b (o + 3), srcA := byteAt b (o + 4),
    srcB := byteAt b (o + 5), mutable_ := bitAt (byteAt b (o + 6)) 0 }

def psetOut (b : List Byte) (o : Nat) : SoutRec :=
  { sout := byteAt b o, use := byteAt b (o + 1), dark := bitAt (byteAt b (o + 2)) 0 }

def psetFunc (b : List Byte) (o : Nat) : FuncRec :=
  { kind := byteAt b o, stopCat := byteAt b (o + 1), reset := byteAt b (o + 2), resetIn := refOf (byteAt b (o + 3)),
    demand := (List.range 4).filterMap (fun i => refOf (byteAt b (o + 4 + i))), outMask := byteAt b (o + 8),
    lockOut := refOf (byteAt b (o + 9)), lockIn := refOf (byteAt b (o + 10)), modeIn := refOf (byteAt b (o + 11)),
    override := refOf (byteAt b (o + 12)), muteIn := refOf (byteAt b (o + 13)), tSS1 := le b (o + 0x0E) 2,
    lockDelay := le b (o + 0x10) 2, tPurge := le b (o + 0x12) 2, tRel := le b (o + 0x14) 2, muteMax := le b (o + 0x18) 4,
    mcodes := (List.range 4).map (fun i => byteAt b (o + 0x1C + i)) }

def psetNin (b : List Byte) : Nat := byteAt b 8
def psetNout (b : List Byte) : Nat := byteAt b 9
def psetNfunc (b : List Byte) : Nat := byteAt b 10
def psetLen (b : List Byte) : Nat := le b 6 2

/-- The parameter set its bytes hold. -/
def psetOf (b : List Byte) : Pset :=
  let oi := 32
  let oo := oi + 8 * psetNin b
  let of_ := oo + 8 * psetNout b
  { tTp := le b 0x0C 2, tTpp := le b 0x0E 2, check := le b 0x10 4, psetId := le b 0x14 8,
    ins := (List.range (psetNin b)).map (fun i => psetIn b (oi + 8 * i)),
    outs := (List.range (psetNout b)).map (fun i => psetOut b (oo + 8 * i)),
    funcs := (List.range (psetNfunc b)).map (fun i => psetFunc b (of_ + 32 * i)) }

/-- CHECK as both channels compute it: CRC-32 over LEN bytes with CHECK taken as zero. -/
def psetCheck (b : List Byte) : Nat := crc32ieee (slice b 0 0x10 ++ zeros 4 ++ slice b 0x14 (psetLen b - 0x14))

def Pset.input (p : Pset) (n : Nat) : Option SinRec := p.ins.find? (fun r => decide (r.sin = n))
def Pset.output (p : Pset) (n : Nat) : Option SoutRec := p.outs.find? (fun r => decide (r.sout = n))
def Pset.func (p : Pset) (f : Nat) : FuncRec := nth {} p.funcs f

/-- An input of two contacts. -/
def Pset.dual (p : Pset) (n : Nat) : Bool := match p.input n with | some r => r.typ = 1 || r.typ = 2 | none => false
def Pset.single (p : Pset) (n : Nat) : Bool := match p.input n with | some r => r.typ = 3 | none => false
def Pset.use (p : Pset) (n : Nat) : Nat := match p.output n with | some r => r.use | none => 0

/-- A number lies between two bounds. -/
def within (lo hi x : Nat) : Bool := decide (lo ≤ x) && decide (x ≤ hi)

/-- An input record (R408 to R411, R418). -/
def sinOk (p : Pset) (b : List Byte) (o : Nat) (r : SinRec) : Bool :=
  let dual := r.typ = 1 || r.typ = 2
  within 0 15 r.sin && within 0 3 r.typ && decide (byteAt b (o + 6) < 2) && decide (byteAt b (o + 7) = 0) &&
  (if r.typ = 0 then r.filt = 0 && r.disc = 0 && r.srcA = 0 && r.srcB = 0 && !r.mutable_ else within 1 20 r.filt) &&
  (if dual then within 1 100 r.disc else r.disc = 0) && within 0 2 r.srcA && within 0 2 r.srcB && (dual || r.srcB = 0) &&
  (r.typ ≠ 3 || !r.mutable_) &&
  ((r.srcA = 0 && r.srcB = 0) || decide (2 * p.tTp ≤ r.filt * 100))

/-- An output record. -/
def soutOk (b : List Byte) (o : Nat) (r : SoutRec) : Bool :=
  within 0 7 r.sout && within 0 2 r.use && decide (byteAt b (o + 2) < 2) && allZero b (o + 3) 5 && (r.use ≠ 0 || !r.dark)

/-- A function record (R413 to R418); fields that the kind does not use are none or zero. -/
def funcOk (p : Pset) (b : List Byte) (o : Nat) (r : FuncRec) : Bool :=
  let k := r.kind
  let guard := k = 2 || k = 3
  let opt (x : Option Nat) (f : Nat → Bool) : Bool := match x with | some n => f n | none => true
  let muted := r.muteIn.isSome
  within 0 5 k && within 0 1 r.stopCat && (r.stopCat = 0 || k = 1 || guard) &&
  within 0 2 r.reset && (r.reset ≠ 2 || guard) && (k ≠ 4 || r.reset = 0) && (k ≠ 0 || r.reset = 0) &&
  (if r.reset = 1 then (match r.resetIn with | some n => p.single n | none => false) else r.resetIn.isNone) &&
  (k ≠ 0 || (r.demand.isEmpty && r.outMask = 0)) && r.demand.all p.dual &&
  (k ≠ 4 || (decide (byteAt b (o + 4) ≠ 0xFF) && decide (r.demand.length = 1))) &&
  (List.range 8).all (fun n => !bitAt r.outMask n || p.use n = 1) &&
  (if k = 3 then (match r.lockOut with | some n => p.use n = 2 | none => false) && (match r.lockIn with | some n => p.dual n | none => false)
   else r.lockOut.isNone && r.lockIn.isNone) &&
  (k = 4 || (r.modeIn.isNone && r.override.isNone)) && opt r.modeIn p.dual &&
  decide (r.modeIn.isSome = r.override.isSome) &&
  opt r.override (fun f => decide (f < p.funcs.length) && ((p.func f).kind = 2 || (p.func f).kind = 3)) &&
  (guard || r.muteIn.isNone) && opt r.muteIn p.dual &&
  within 0 3000 r.tSS1 && (r.stopCat = 1 || r.tSS1 = 0) && within 0 600 r.lockDelay && (k = 3 || r.lockDelay = 0) &&
  within 0 600 r.tPurge && (k = 5 || r.tPurge = 0) && (if k = 4 then within 100 1000 r.tRel else r.tRel = 0) &&
  decide (le b (o + 0x16) 2 = 0) && (if muted then within 1 86400 r.muteMax else r.muteMax = 0) &&
  (muted || r.mcodes.all (· = 0))

/-- Contacts with one source on adjacent inputs: consecutive SIN numbers stand next to each other in the ball sequence (log entry 32). -/
def srcAdjacent (p : Pset) : Bool :=
  p.ins.any (fun x => p.ins.any (fun y => decide (x.sin + 1 = y.sin) &&
    ((x.srcA ≠ 0 && x.srcA = y.srcA) || (x.srcB ≠ 0 && x.srcB = y.srcB))))

/-- R420: no reason to refuse the set. -/
def psetOk (b : List Byte) : Bool :=
  let p := psetOf b
  let oo := 32 + 8 * psetNin b
  let of_ := oo + 8 * psetNout b
  decide (le b 0 4 = 0x53414650) && decide (le b 4 2 = 1) && decide (psetLen b = of_ + 32 * psetNfunc b) &&
  within 1 16 (psetNin b) && within 1 8 (psetNout b) && within 1 32 (psetNfunc b) && decide (byteAt b 0x0B = 0) &&
  within 10 100 p.tTp && within 5 100 p.tTpp && decide (p.check = psetCheck b) && allZero b 0x1C 4 &&
  (p.ins.mapIdx (fun i r => sinOk p b (32 + 8 * i) r)).all id && decide ((p.ins.map (·.sin)).eraseDups.length = p.ins.length) &&
  (p.outs.mapIdx (fun i r => soutOk b (oo + 8 * i) r)).all id && decide ((p.outs.map (·.sout)).eraseDups.length = p.outs.length) &&
  (p.funcs.mapIdx (fun i r => funcOk p b (of_ + 32 * i) r)).all id &&
  (List.range 16).all (fun n => decide ((p.funcs.filter (fun f => f.demand.contains n)).length ≤ 8)) &&
  decide ((p.funcs.filterMap (·.lockOut)).eraseDups.length = (p.funcs.filterMap (·.lockOut)).length) && !srcAdjacent p

end Sys2Proof.Machine
end

