-- ==== Sys2Proof/Machine/Island.lean ====
section
/-!
DEFINITION. The safety island (R404 to R429): inputs, outputs, functions, requests, the parameter set, faults and the mailbox. Both
channels do the same work and are one evaluation here; their disagreement is an island fault the environment brings (log entry 33).
-/
namespace Sys2Proof.Machine

def isOFF : Nat := 0
def isSTARTUP : Nat := 1
def isUNCONFIGURED : Nat := 2
def isUNCONFIRMED : Nat := 3
def isRUN : Nat := 4
def isLOCKOUT : Nat := 5

def fsIDLE : Nat := 0
def fsSTOPPING : Nat := 1
def fsDEMAND : Nat := 2
def fsFAULT : Nat := 3

/-- The set in force: the stored one; a store in progress does not touch it. -/
def IslandSt.pset (i : IslandSt) : Pset := match i.setA with | some b => psetOf b | none => {}

def IslandSt.inp (i : IslandSt) (n : Nat) : SinSt := Tbl.getD {} i.ins n
def IslandSt.out (i : IslandSt) (n : Nat) : SoutSt := Tbl.getD {} i.outs n
def IslandSt.fn (i : IslandSt) (f : Nat) : FuncSt := Tbl.getD {} i.funcs f
def IslandSt.setIn (n : Nat) (x : SinSt) (i : IslandSt) : IslandSt := { i with ins := Tbl.put n x i.ins }
def IslandSt.setOut (n : Nat) (x : SoutSt) (i : IslandSt) : IslandSt := { i with outs := Tbl.put n x i.outs }
def IslandSt.setFn (f : Nat) (x : FuncSt) (i : IslandSt) : IslandSt := { i with funcs := Tbl.put f x i.funcs }

/-- Milliseconds since the last reset of the island. -/
def IslandSt.ms (i : IslandSt) : Nat := i.samp / 4

/-- Queue an island event (R425, R427): function, input, output (0xFF none) and cause; the oldest is dropped from a full queue. -/
def IslandSt.event (code f n o cause : Nat) (i : IslandSt) : IslandSt :=
  let e : IslEv := { code := code, data := [BitVec.ofNat 8 f, BitVec.ofNat 8 n, BitVec.ofNat 8 o, BitVec.ofNat 8 cause], ms := i.ms }
  if i.evq.length < 256 then { i with evq := i.evq ++ [e] }
  else { i with evq := i.evq.drop 1 ++ [e], evLost := i.evLost + 1 }

/-! ### What inputs and functions say (R408 to R417) -/

/-- Contact levels are healthy: EQUIV both closed, ANTIV a closed and b open. -/
def healthyA (x : SinSt) : Bool := x.a
def healthyB (typ : Nat) (x : SinSt) : Bool := if typ = 2 then !x.b else x.b

def IslandSt.healthy (i : IslandSt) (n : Nat) : Bool :=
  match i.pset.input n with
  | some r => if r.typ = 0 then false else if r.typ = 3 then (i.inp n).a else healthyA (i.inp n) && healthyB r.typ (i.inp n)
  | none => false

/-- The outputs of a function. -/
def FuncRec.outs (r : FuncRec) : List Nat := (List.range 8).filter (bitAt r.outMask)

/-- The ENABLE function that overrides a function now: its mode input is healthy (R417). -/
def IslandSt.overrider (i : IslandSt) (f : Nat) : Option Nat :=
  (List.range i.pset.funcs.length).find? (fun e =>
    let r := i.pset.func e
    decide (r.kind = 4) && decide (r.override = some f) && (match r.modeIn with | some m => i.healthy m | none => false))

/-- The inputs that demand a function now: the enabling input while overridden, else its demand inputs without the muted ones, with
the lock input of a LOCKED guard. -/
def IslandSt.demandIns (i : IslandSt) (f : Nat) : List Nat :=
  let r := i.pset.func f
  match i.overrider f with
  | some e => (i.pset.func e).demand
  | none =>
    let own := r.demand.filter (fun n => !((i.fn f).muted && (match i.pset.input n with | some x => x.mutable_ | none => false)))
    own ++ (if r.kind = 3 ∧ !(i.fn f).unlocked then r.lockIn.toList else [])

/-- Demand inputs now in demand; an ENABLE that waits for release holds what hangs on it. -/
def IslandSt.demands (i : IslandSt) (f : Nat) : List Nat := (i.demandIns f).filter (fun n => !i.healthy n)

def IslandSt.waits (i : IslandSt) (f : Nat) : Bool :=
  match i.overrider f with
  | some e => (i.fn e).relWait
  | none => decide ((i.pset.func f).kind = 4) && (i.fn f).relWait

/-- Every input a function names. -/
def FuncRec.uses (r : FuncRec) : List Nat :=
  r.demand ++ r.lockIn.toList ++ r.modeIn.toList ++ r.muteIn.toList ++ r.resetIn.toList

/-- A latched input or output fault of a function. -/
def IslandSt.faulty (i : IslandSt) (f : Nat) : Bool :=
  let r := i.pset.func f
  r.uses.any (fun n => decide ((i.inp n).fault ≠ 0)) || (r.outs ++ r.lockOut.toList).any (fun o => (i.out o).fault)

/-- A reset's conditions (R414, R415): 0 met, else WHY. -/
def IslandSt.resetWhy (i : IslandSt) (f : Nat) : Nat :=
  let r := i.pset.func f
  if (i.fn f).st ≠ fsDEMAND ∧ (i.fn f).st ≠ fsFAULT then 4
  else if i.faulty f then 2
  else if !(i.demands f).isEmpty || i.waits f then 1
  else if r.kind = 3 && (i.overrider f).isNone && ((i.fn f).unlocked || (i.fn f).unlocking) then 4
  else if r.kind = 5 && !r.demand.all (fun n => decide (r.tPurge * 4000 ≤ (i.inp n).healthyFor)) then 3
  else 0

/-- Reset a function (R414). -/
def IslandSt.doReset (f : Nat) (i : IslandSt) : IslandSt :=
  (i.setFn f { i.fn f with st := fsIDLE, ss1 := 0, entry := [] }).event Ev.SAFE_RESET f 0xFF 0xFF 0

/-- An overridden function whose enabling switch is not held: its outputs are permitted only while it is (R417). -/
def IslandSt.notHeld (i : IslandSt) (f : Nat) : Bool := (i.overrider f).isSome && (!(i.demands f).isEmpty || i.waits f)

/-- A demand acts (R413): the stop of the function's category, at once where the enabling switch is what is missing; `cause` 1 input, 2 mode
change, 3 unlock. -/
def IslandSt.demand (f cause : Nat) (i : IslandSt) : IslandSt :=
  let r := i.pset.func f
  let x := i.fn f
  let n := ((i.demands f).head?).getD 0xFF
  if x.st = fsIDLE then
    let y : FuncSt := if r.stopCat = 1 ∧ r.tSS1 ≠ 0 ∧ !i.notHeld f then { x with st := fsSTOPPING, ss1 := 40 * r.tSS1, entry := i.demands f }
                      else { x with st := fsDEMAND }
    (i.setFn f y).event Ev.SAFE_DEMAND f n 0xFF cause
  else if x.st = fsSTOPPING then i.setFn f { x with st := fsDEMAND, ss1 := 0 }
  else i

/-- An input or output fault acts on the functions that use it; STOPPING ends at once. -/
def IslandSt.spread (i : IslandSt) : IslandSt :=
  (List.range i.pset.funcs.length).foldl (fun i f =>
    if i.faulty f ∧ (i.fn f).st ≠ fsFAULT ∧ (i.pset.func f).kind ≠ 0 then i.setFn f { i.fn f with st := fsFAULT, ss1 := 0 }
    else i) i

/-! ### Outputs (R412) -/

/-- A function permits its outputs. -/
def IslandSt.permits (i : IslandSt) (f : Nat) : Bool := decide ((i.fn f).st = fsIDLE) || decide ((i.fn f).st = fsSTOPPING)

/-- The command of an output: every mapped function permits it, or its lock is to be open; off outside RUN. -/
def IslandSt.wants (i : IslandSt) (r : SoutRec) : Bool :=
  let fs := (List.range i.pset.funcs.length).filter (fun f => decide ((i.pset.func f).kind ≠ 0))
  let mapped := fs.filter (fun f => bitAt (i.pset.func f).outMask r.sout)
  let lock := fs.filter (fun f => decide ((i.pset.func f).lockOut = some r.sout))
  decide (i.st = isRUN) && !(i.out r.sout).fault &&
    (if r.use = 1 then !mapped.isEmpty && mapped.all i.permits
     else if r.use = 2 then lock.any (fun f => (i.fn f).unlocked && !(i.fn f).lockReq) else false)

/-- Drive every output. -/
def IslandSt.drive (i : IslandSt) : IslandSt :=
  i.pset.outs.foldl (fun i r =>
    let x := i.out r.sout
    let w := i.wants r
    if w = x.on then i else i.setOut r.sout { x with on := w, since := 0 }) i

/-- The fault OUTPUT: both switches off, the functions to FAULT. -/
def IslandSt.outFault (n cause : Nat) (i : IslandSt) : IslandSt :=
  let x := i.out n
  if x.fault then i
  else (((i.setOut n { x with fault := true }).event Ev.SAFE_FAULT 0xFF 0xFF n cause).spread).drive

/-! ### Inputs (R409 to R411) -/

/-- One filter step: filtered level, run of differing samples. The level follows at the first sample that lies FILT after the first
differing one (R409, Example 17-1; log entry 109). -/
def filt (lvl raw : Bool) (run len : Nat) : Bool × Nat :=
  if lvl = raw then (lvl, 0) else if len ≤ run then (raw, 0) else (lvl, run + 1)

/-- Count on, if counting. -/
def tickOpt (o : Option Nat) : Option Nat := o.map (· + 1)

/-- One sample of an input. -/
def SinSt.sample (r : SinRec) (ra rb : Bool) (x : SinSt) : SinSt :=
  let len := 4 * r.filt
  let fa := filt x.a ra x.runA len
  let fb := filt x.b rb x.runB len
  let calm := if ra = x.a ∧ rb = x.b then x.calm + 1 else 0
  let moved := decide (fa.1 ≠ x.a) || decide (fb.1 ≠ x.b)
  let uns := if moved ∨ len ≤ calm then 0 else if x.unsettled = 0 ∧ ra = x.a ∧ rb = x.b then 0 else x.unsettled + 1
  let y : SinSt := { x with a := fa.1, runA := fa.2, b := fb.1, runB := fb.2, calm := calm, unsettled := uns }
  let ha := healthyA y
  let hb := if r.typ = 3 then ha else healthyB r.typ y
  let disc := if ha = hb then none else match x.disc with | some k => some (k + 1) | none => some 0
  let y : SinSt := { y with disc := disc, healthyFor := if ha && hb then x.healthyFor + 1 else 0 }
  if y.fault = 0 then y
  else if !ha && !hb then { y with bothOff := true, back := none }
  else if y.bothOff && ha && hb then
    (if (x.back.getD 0) ≤ 20 * r.disc then { y with fault := 0, bothOff := false, back := none }
     else { y with bothOff := false, back := none })
  else if y.bothOff then { y with back := some (match x.back with | some k => k + 1 | none => 0) }
  else y

/-- An input takes a fault (1 DISCREPANCY, 2 XSHORT). -/
def IslandSt.inFault (n k : Nat) (i : IslandSt) : IslandSt :=
  let x := i.inp n
  if x.fault ≠ 0 then i
  else (((i.setIn n { x with fault := k, bothOff := false, back := none }).event Ev.SAFE_FAULT 0xFF n 0xFF k).spread).drive

/-! ### Mutes (R416) -/

/-- A mute ends; the function acts on what is in demand. -/
def IslandSt.muteEnd (f cause : Nat) (spent : Bool) (i : IslandSt) : IslandSt :=
  let x := i.fn f
  if x.muted then
    let i := (i.setFn f { x with muted := false, muteSpent := x.muteSpent || spent }).event Ev.SAFE_MUTE_END f 0xFF 0xFF cause
    if (i.demands f).isEmpty then i else i.demand f 1
  else i

/-- The word of a source still is the function's MUTE request with a listed code (R416). -/
def IslandSt.muteHere (f w : Nat) (i : IslandSt) : Bool :=
  decide (bitsOf w 5 3 = 4) && decide (bitsOf w 0 5 = f) && decide (bitsOf w 8 8 ≠ 0) && (i.pset.func f).mcodes.contains (bitsOf w 8 8)

/-- A mute whose request the mailbox no longer shows ends (R416). -/
def IslandSt.muteWords (words : List Nat) (i : IslandSt) : IslandSt :=
  (List.range i.pset.funcs.length).foldl (fun i f =>
    let x := i.fn f
    if x.muteReq && !i.muteHere f (nth 0 words x.muteSrc) then (i.setFn f { x with muteReq := false }).muteEnd f 3 false |>.drive else i) i

/-- One sample of a function's mute. -/
def IslandSt.muteSample (f : Nat) (i : IslandSt) : IslandSt :=
  let r := i.pset.func f
  match r.muteIn with
  | none => i
  | some m =>
    let x := i.fn f
    let here := x.muteReq && decide (x.muteAge < 400)
    let x : FuncSt := { x with muteAge := x.muteAge + 1, muteGone := if here then 0 else x.muteGone + 1,
                               muteFor := if x.muted then x.muteFor + 1 else x.muteFor }
    let x : FuncSt := { x with muteSpent := x.muteSpent && decide (x.muteGone < 4000) }
    let i := i.setFn f x
    if x.muted then (if i.healthy m then i else i.muteEnd f 1 false)
    else if here && !x.muteSpent && i.healthy m then
      (i.setFn f { x with muted := true, muteFor := 0 }).event Ev.SAFE_MUTE_START f m 0xFF x.muteCode
    else i

/-! ### The sample (R409 to R417) -/

/-- One sample of a function. -/
def IslandSt.funcSample (f : Nat) (i : IslandSt) : IslandSt :=
  let r := i.pset.func f
  if r.kind = 0 then i
  else
    let i := i.muteSample f
    let x := i.fn f
    let both := r.demand.all (fun n => !(i.inp n).a && (if (i.pset.input n).map (·.typ) = some 2 then (i.inp n).b else !(i.inp n).b))
    let enab := r.demand.all (fun n => i.healthy n)
    let x : FuncSt := if r.kind = 4 then
        { x with relWait := x.relWait || (x.enPrev && !enab), enPrev := enab, relFor := if both then x.relFor + 1 else 0 } else x
    let off := (r.outs).all (fun o => !(i.out o).on && !(i.out o).rba && !(i.out o).rbb)
    let x : FuncSt := { x with offFor := if off then x.offFor + 1 else 0, ss1 := x.ss1 - 1 }
    let shut := x.lockReq && (match r.lockIn with | some n => i.healthy n | none => true)
    let i := if shut then (i.setFn f { x with unlocked := false, lockReq := false }).event Ev.SAFE_LOCK f 0xFF (r.lockOut.getD 0xFF) 0
             else i.setFn f x
    let mode := match r.modeIn with | some n => i.healthy n | none => false
    let i := if r.kind = 4 ∧ mode ≠ x.modePrev then
        let i := i.setFn f { i.fn f with modePrev := mode }
        (match r.override with | some g => i.demand g 2 | none => i)
      else i
    let st := (i.fn f).st
    let ds := i.demands f
    let i := if st = fsIDLE ∧ (!ds.isEmpty ∨ i.waits f) then i.demand f 1
             else if st = fsSTOPPING ∧ ds.any (fun n => !(i.fn f).entry.contains n) then i.demand f 1 else i
    if (r.reset = 2 ∨ r.kind = 4) ∧ i.resetWhy f = 0 then i.doReset f else i

/-- SAFE_INPUT_SAMPLE: contacts a and b of the sixteen inputs, read-backs of the sixteen switches. -/
def IslandSt.sampleAll (a b rba rbb : Nat) (i : IslandSt) : IslandSt :=
  let i := { i with samp := i.samp + 1 }
  if i.st < isUNCONFIGURED ∨ i.st = isLOCKOUT then i
  else
    let i := i.pset.ins.foldl (fun i r => i.setIn r.sin ((i.inp r.sin).sample r (bitAt a r.sin) (bitAt b r.sin))) i
    let i := i.pset.outs.foldl (fun i r =>
      let x := i.out r.sout
      let x : SoutSt := { x with rba := bitAt rba r.sout, rbb := bitAt rbb r.sout, since := x.since + 1 }
      let x : SoutSt := { x with fault := x.fault && (x.rba || x.rbb) }
      let i := i.setOut r.sout x
      if r.use ≠ 0 ∧ !x.on ∧ 8 ≤ x.since ∧ (x.rba ∨ x.rbb) then i.outFault r.sout 1 else i) i
    if i.st = isRUN then
      (((List.range i.pset.funcs.length).foldl (fun i f => i.funcSample f) i).spread).drive
    else i

/-! ### Commands of the island's time -/

def Dev.islUp (f : IslandSt → IslandSt) (d : Dev) : Dev := { d with isl := f d.isl }

/-- A safety command on an island that runs its functions. -/
def State.island (s : State) (ok : Bool) (f : IslandSt → IslandSt) : Res :=
  s.guarded ok (fun d => if d.isl.st = isRUN then d.islUp f else d)

/-- A fault of an input or of an output's read-back: in every state in which the island samples its contacts. -/
def State.islandIo (s : State) (ok : Bool) (f : IslandSt → IslandSt) : Res :=
  s.guarded ok (fun d => if isUNCONFIGURED ≤ d.isl.st ∧ d.isl.st ≠ isLOCKOUT then d.islUp f else d)

def execSafeInputSample (a b rba rbb : Nat) (s : State) : Res :=
  s.guarded (decide (a < 65536) && decide (b < 65536) && decide (rba < 256) && decide (rbb < 256))
    (fun d => d.islUp (IslandSt.sampleAll a b rba rbb))

/-- SAFE_DISCREPANCY_TIMEOUT (R410). -/
def IslandSt.discEnd (n : Nat) (i : IslandSt) : IslandSt :=
  match i.pset.input n with
  | some r =>
    let x := i.inp n
    if (r.typ = 1 ∨ r.typ = 2) ∧ (20 * r.disc ≤ x.disc.getD 0 ∧ x.disc.isSome ∨ 20 * r.disc < x.unsettled) then i.inFault n 1 else i
  | none => i

def execSafeDiscrepancyTimeout (n : Nat) (s : State) : Res := s.islandIo (decide (n < 16)) (IslandSt.discEnd n)

/-- SAFE_TEST_PULSE_SAMPLE (R411): a contact with a source reads high in the middle of its source's pulse. -/
def IslandSt.pulse (n : Nat) (b high : Bool) (i : IslandSt) : IslandSt :=
  match i.pset.input n with
  | some r => if high ∧ (if b then r.srcB else r.srcA) ≠ 0 then i.inFault n 2 else i
  | none => i

def execSafeTestPulseSample (n : Nat) (b high : Bool) (s : State) : Res := s.islandIo (decide (n < 16)) (IslandSt.pulse n b high)

/-- SAFE_READBACK_TIMEOUT (R412): 2 ms after a change of command. -/
def IslandSt.rbEnd (n : Nat) (i : IslandSt) : IslandSt :=
  let x := i.out n
  if i.pset.use n ≠ 0 ∧ 8 ≤ x.since ∧ (x.rba ≠ x.on ∨ x.rbb ≠ x.on) then i.outFault n 1 else i

def execSafeReadbackTimeout (n : Nat) (s : State) : Res := s.islandIo (decide (n < 8)) (IslandSt.rbEnd n)

/-- SAFE_DARK_PULSE (R412): `rb` the read-back of the pulsed switch. -/
def IslandSt.dark (n : Nat) (rb : Bool) (i : IslandSt) : IslandSt :=
  match i.pset.output n with
  | some r => if r.dark ∧ (i.out n).on ∧ rb then i.outFault n 2 else i
  | none => i

def execSafeDarkPulse (n : Nat) (_b rb : Bool) (s : State) : Res := s.island (decide (n < 8)) (IslandSt.dark n rb)

/-- SAFE_SS1_EXPIRY (R413). -/
def IslandSt.ss1End (f : Nat) (i : IslandSt) : IslandSt :=
  let x := i.fn f
  if x.st = fsSTOPPING ∧ x.ss1 = 0 then (i.setFn f { x with st := fsDEMAND }).drive else i

def execSafeSs1Expiry (f : Nat) (s : State) : Res := s.island (decide (f < 32)) (IslandSt.ss1End f)

/-- SAFE_LOCK_DELAY_EXPIRY (R415): the lock output turns on. -/
def IslandSt.lockEnd (f : Nat) (i : IslandSt) : IslandSt :=
  let r := i.pset.func f
  let x := i.fn f
  if x.unlocking ∧ 0 < x.offFor ∧ 400 * r.lockDelay ≤ x.offFor then
    ((i.setFn f { x with unlocking := false, unlocked := true }).event Ev.SAFE_LOCK f 0xFF (r.lockOut.getD 0xFF) 1).drive
  else i

def execSafeLockDelayExpiry (f : Nat) (s : State) : Res := s.island (decide (f < 32)) (IslandSt.lockEnd f)

/-- SAFE_MUTE_EXPIRY (R416): MUTE_MAX, or a request not refreshed for 100 ms. -/
def IslandSt.muteOut (f : Nat) (i : IslandSt) : IslandSt :=
  let x := i.fn f
  if x.muted ∧ 4000 * (i.pset.func f).muteMax ≤ x.muteFor then (i.muteEnd f 2 true).drive
  else if x.muted ∧ 400 ≤ x.muteAge then (i.muteEnd f 3 false).drive else i

def execSafeMuteExpiry (f : Nat) (s : State) : Res := s.island (decide (f < 32)) (IslandSt.muteOut f)

/-- SAFE_T_REL_EXPIRY (R417). -/
def IslandSt.relEnd (f : Nat) (i : IslandSt) : IslandSt :=
  let r := i.pset.func f
  let x := i.fn f
  if r.kind = 4 ∧ 4 * r.tRel ≤ x.relFor then i.setFn f { x with relWait := false } else i

def execSafeTRelExpiry (f : Nat) (s : State) : Res := s.island (decide (f < 32)) (IslandSt.relEnd f)

/-- SAFE_RESET_PRESS (R414): a SINGLE input is released after a press of `ms`. -/
def IslandSt.press (n ms : Nat) (i : IslandSt) : IslandSt :=
  if !i.pset.single n ∨ ms < 100 then i
  else if 3000 < ms then i.event Ev.SAFE_RESET_STUCK 0xFF n 0xFF 0
  else ((List.range i.pset.funcs.length).foldl (fun i f =>
    let r := i.pset.func f
    if r.reset = 1 ∧ r.resetIn = some n ∧ r.kind ≠ 0 ∧ ((i.fn f).st = fsDEMAND ∨ (i.fn f).st = fsFAULT) then
      (if i.resetWhy f = 0 then i.doReset f else i.event Ev.SAFE_RESET f n 0xFF (i.resetWhy f))
    else i) i).drive

def execSafeResetPress (n ms : Nat) (s : State) : Res := s.island (decide (n < 16)) (IslandSt.press n ms)

/-! ### Requests (R414 to R416, R423, R424) -/

/-- Judge a request taken over from a source: its result and reason are kept for `SAFE.REQ`. -/
def IslandSt.ackReq (src why : Nat) (i : IslandSt) : IslandSt :=
  let w := Tbl.getD 0 i.reqs src
  let i : IslandSt := { i with reqs := Tbl.del src i.reqs, acks := Tbl.put src (bitsOf w 16 8) i.acks }
  if src = 0 then { i with result := if why = 0 then 1 else 2, why := why } else i

/-- A request of a kind that a source's word holds: `f` answers WHY and the island after it. -/
def IslandSt.request (kind src : Nat) (f : Nat → Nat → IslandSt → Nat × IslandSt) (i : IslandSt) : IslandSt :=
  match Tbl.get? i.reqs src with
  | none => i
  | some w =>
    if bitsOf w 5 3 ≠ kind then i
    else
      let fn := bitsOf w 0 5
      if (i.pset.func fn).kind = 0 then i.ackReq src 4
      else
        let r := f fn (bitsOf w 8 8) i
        (r.2.ackReq src r.1).drive

def execSafeResetRequest (src : Nat) (s : State) : Res :=
  s.island (decide (src < 9)) (IslandSt.request 1 src (fun f _ i =>
    let why := if (i.pset.func f).reset ≠ 0 ∨ (i.pset.func f).kind = 4 then 6 else i.resetWhy f
    if why = 0 then (0, i.doReset f) else (why, i.event Ev.SAFE_RESET f 0xFF 0xFF why)))

def execSafeUnlock (src : Nat) (s : State) : Res :=
  s.island (decide (src < 9)) (IslandSt.request 2 src (fun f _ i =>
    let x := i.fn f
    if (i.pset.func f).kind ≠ 3 ∨ x.st ≠ fsIDLE ∨ x.unlocked ∨ x.unlocking then (4, i)
    else if (i.overrider f).isSome then
      (0, (i.setFn f { x with unlocked := true }).event Ev.SAFE_LOCK f 0xFF ((i.pset.func f).lockOut.getD 0xFF) 1)
    else
      let i := i.demand f 3
      (0, i.setFn f { i.fn f with unlocking := true, offFor := 0 })))

def execSafeLock (src : Nat) (s : State) : Res :=
  s.island (decide (src < 9)) (IslandSt.request 3 src (fun f _ i =>
    let x := i.fn f
    if (i.pset.func f).kind ≠ 3 ∨ !(x.unlocked ∨ x.unlocking) then (4, i)
    else (0, i.setFn f { x with unlocking := false, lockReq := x.unlocked })))

def execSafeMute (src : Nat) (s : State) : Res :=
  s.island (decide (src < 9)) (IslandSt.request 4 src (fun f code i =>
    let r := i.pset.func f
    if r.muteIn.isNone then (4, i)
    else if code = 0 ∨ !r.mcodes.contains code then (5, i)
    else (0, i.setFn f { i.fn f with muteReq := true, muteAge := 0, muteCode := code, muteSrc := src })))

/-! ### The mailbox (R423 to R425, R429) -/

/-- Take over the new requests: a word whose SEQ differs from the last one acknowledged for its source; two for one function, or
of no kind, are refused (R424). -/
def IslandSt.takeReqs (words : List Nat) (i : IslandSt) : IslandSt :=
  let new := ((words.mapIdx (fun s w => (s, w))).filter (fun e => decide (bitsOf e.2 16 8 ≠ Tbl.getD 0 i.acks e.1)))
  let r := new.foldl (fun (a : IslandSt × List Nat) e =>
    let f := bitsOf e.2 0 5
    let i : IslandSt := { a.1 with reqs := Tbl.put e.1 e.2 a.1.reqs }
    if bitsOf e.2 5 3 = 0 ∨ 4 < bitsOf e.2 5 3 then (i.ackReq e.1 4, a.2)
    else if a.2.contains f then (i.ackReq e.1 6, a.2)
    else if i.st ≠ isRUN then (i.ackReq e.1 4, f :: a.2)
    else (i, f :: a.2)) (i, [])
  r.1

/-- The picture of the island in the SAFE registers. -/
def Dev.islShow (d : Dev) : Dev :=
  let i := d.isl
  let p := i.pset
  let bits (l : List Nat) (f : Nat → Bool) : Nat := l.foldl (fun a n => a + b2n (f n) * 2 ^ n) 0
  let ins := p.ins.map (·.sin)
  let outs := p.outs.map (·.sout)
  let fs := (List.range p.funcs.length).filter (fun f => decide ((p.func f).kind ≠ 0))
  let d := ((d.wf R.SAFE_STATE_STATE i.st).wf R.SAFE_STATE_FAULT i.fault).wf R.SAFE_STATE_LASTFAULT i.lastFault
  let d := d.wb R.SAFE_STAT_CONFIRMED (i.setA.isSome && i.confirmed)
  let d := d.wf R.SAFE_CHECK_CHECK (match i.setA with | some b => psetCheck b | none => 0)
  let d := d.w64 R.SAFE_PSET_LO_ID R.SAFE_PSET_HI_ID p.psetId
  let d := (d.wf R.SAFE_SIN_HEALTHY (bits ins i.healthy)).wf R.SAFE_SIN_FAULT (bits ins (fun n => decide ((i.inp n).fault ≠ 0)))
  let d := (d.wf R.SAFE_SINRAW_A (bits ins (fun n => (i.inp n).a))).wf R.SAFE_SINRAW_B (bits ins (fun n => (i.inp n).b))
  let d := (d.wf R.SAFE_SOUT_ON (bits outs (fun n => (i.out n).on))).wf R.SAFE_SOUT_RBA (bits outs (fun n => (i.out n).rba))
  let d := (d.wf R.SAFE_SOUT_RBB (bits outs (fun n => (i.out n).rbb))).wf R.SAFE_SOUT_FAULT (bits outs (fun n => (i.out n).fault))
  let d := d.wf R.SAFE_FUNCSUM_IDLE (bits fs (fun f => decide (i.st = isRUN) && decide ((i.fn f).st = fsIDLE)))
  let d := ((d.wf R.SAFE_REQ_STAT_SEQ (Tbl.getD 0 i.acks 0)).wf R.SAFE_REQ_STAT_RESULT i.result).wf R.SAFE_REQ_STAT_WHY i.why
  (List.range 32).foldl (fun d f =>
    let x := i.fn f
    let k := (p.func f).kind
    let live := decide (k ≠ 0)
    let d := (d.wf R.SAFE_FUNCf_KIND k 0 f).wf R.SAFE_FUNCf_STATE (if live then x.st else 0) 0 f
    let d := (d.wb R.SAFE_FUNCf_UNLOCKED (live && x.unlocked) 0 f).wb R.SAFE_FUNCf_MUTED (live && x.muted) 0 f
    (d.wb R.SAFE_FUNCf_OVERRIDE (live && (i.overrider f).isSome) 0 f).wf R.SAFE_FUNCf_SS1_LEFT (if live then ceilDiv x.ss1 40 else 0) 0 f) d

/-- Island events go to the recorder with their milliseconds and the count dropped before the first (R425, R471). -/
def Dev.islEvents (d : Dev) : Dev :=
  let lost := d.isl.evLost
  let evs := d.isl.evq
  if evs.isEmpty then d
  else
    let d := d.islUp (fun i => { i with evq := [], evLost := 0 })
    let d := if lost = 0 then d else d.wf R.SAFE_STAT_EVLOST 1
    (evs.mapIdx (fun n e => (n, e))).foldl (fun d e =>
      d.raiseFrom true e.2.code 0 (leBytes 4 e.2.ms ++ leBytes 4 (if e.1 = 0 then lost else 0) ++ e.2.data)) d

/-- The rim can exchange the mailbox: it runs and no reset of the package is under way (R425). -/
def Dev.linkOk (d : Dev) : Bool := decide (3 ≤ d.rst.phase) && d.rst.epi.isNone

/-- SAFE_MAILBOX_EXCHANGE: requests over, picture back. -/
def Dev.mailbox (d : Dev) : Dev :=
  if !d.linkOk then d
  else
    let d := (d.wf R.SAFE_CTRL_EN 1).wf R.SAFE_STAT_LINK 1
    let words := d.rw (R.SAFE_REQ.addr 0 0 0) :: (List.range 8).map (fun n => d.rw (R.SAFE_LREQi.addr 0 n 0))
    let d := if isUNCONFIGURED ≤ d.isl.st then d.islUp (fun i => (i.muteWords words).takeReqs words) else d
    d.islShow.islEvents

def execSafeMailboxExchange (s : State) : Res := s.on Dev.mailbox

/-! ### The parameter set (R419 to R421) -/

def psNONE : Nat := 0
def psBUSY : Nat := 1
def psOK : Nat := 2
def psBADSET : Nat := 3
def psXCHECK : Nat := 4
def psREFUSED : Nat := 5

/-- STORE and CLEAR are accepted in UNCONFIGURED, UNCONFIRMED, or in RUN with every output off. -/
def IslandSt.accepts (i : IslandSt) : Bool :=
  i.storing.isNone && (decide (i.st = isUNCONFIGURED) || decide (i.st = isUNCONFIRMED) ||
    (decide (i.st = isRUN) && i.outs.all (fun o => !o.2.on)))

/-- The bytes of `SAFE.PBUF`. -/
def Dev.pbuf (d : Dev) : List Byte := ((List.range 1024).map (fun w => leBytes 4 (d.rw (R.SAFE_PBUF.addr 0 w 0)))).flatten

/-- STORE (R419): the set is taken from the buffer; without the link the island does not answer. -/
def Dev.psetStore (d : Dev) : Dev :=
  if !d.flag R.SAFE_STAT_LINK then d
  else if d.isl.accepts then (d.islUp (fun i => { i with storing := some d.pbuf })).wf R.SAFE_PCMD_PSTAT psBUSY
  else if d.isl.storing.isSome then d
  else d.wf R.SAFE_PCMD_PSTAT psREFUSED

def execSafeStore (s : State) : Res := s.on Dev.psetStore

/-- The island leaves RUN or a set changes: outputs off, inputs and functions start anew. -/
def IslandSt.fresh (st : Nat) (i : IslandSt) : IslandSt :=
  { i with st := st, ins := [], outs := [], funcs := [], reqs := [] }

/-- CLEAR (R419). -/
def Dev.psetClear (d : Dev) : Dev :=
  if !d.flag R.SAFE_STAT_LINK then d
  else if d.isl.accepts then
    (d.islUp (fun i => (({ i with setA := none, setB := none, confirmed := false }).fresh isUNCONFIGURED).event
      Ev.SAFE_STORE 0xFF 0xFF 0xFF 1)).wf R.SAFE_PCMD_PSTAT psOK
  else if d.isl.storing.isSome then d
  else d.wf R.SAFE_PCMD_PSTAT psREFUSED

def execSafeClear (s : State) : Res := s.on Dev.psetClear

/-- Channel B's copy: every bit inverted (R404). -/
def invert (b : List Byte) : List Byte := b.map (fun x => x ^^^ 0xFF)

/-- PSET_STORE_DONE (R419, R420): `agree` whether both channels computed the same CHECK. -/
def Dev.psetStored (agree : Bool) (d : Dev) : Dev :=
  match d.isl.storing with
  | none => d
  | some b =>
    let d := d.islUp (fun i => { i with storing := none })
    if !psetOk b then d.wf R.SAFE_PCMD_PSTAT psBADSET
    else if !agree then d.wf R.SAFE_PCMD_PSTAT psXCHECK
    else
      let x := b.take (psetLen b)
      (d.islUp (fun i => (({ i with setA := some x, setB := some (invert x), confirmed := false, mism := 0 }).fresh
        isUNCONFIRMED).event Ev.SAFE_STORE 0xFF 0xFF 0xFF 0)).wf R.SAFE_PCMD_PSTAT psOK

def execPsetStoreDone (agree : Bool) (s : State) : Res := s.on (Dev.psetStored agree)

/-- SAFE_CONFIRM (R421, R424). -/
def Dev.confirm (q : Req) (val : Word) (d : Dev) : Dev :=
  let i := d.isl
  match i.setA with
  | none => d.answer q eyREFUSED []
  | some b =>
    if i.st ≠ isUNCONFIRMED || i.storing.isSome || i.blockAt.isSome || !d.flag R.SAFE_STAT_LINK then d.answer q eyREFUSED []
    else if val.toNat = psetCheck b then
      (d.islUp (fun i => ({ i with st := isRUN, confirmed := true, mism := 0, funcs := [], reqs := [] }).event Ev.SAFE_CONFIRMED 0xFF 0xFF 0xFF 0)).answer
        q eyOK []
    else
      (d.islUp (fun i => ({ i with mism := i.mism + 1, blockAt := if i.mism = 2 then some i.ms else none }).event
        Ev.SAFE_CONFIRM_FAIL 0xFF 0xFF 0xFF 0)).answer q eyREFUSED []

def execSafeConfirm (q : Req) (val : Word) (s : State) : Res := s.eyelet q pvENGINEER (fun s => s.on (Dev.confirm q val))

/-- SAFE_CONFIRM_BLOCK_END (R421): 60 s have passed. -/
def IslandSt.blockEnd (i : IslandSt) : IslandSt :=
  match i.blockAt with
  | some t => if t + 60000 ≤ i.ms then { i with blockAt := none, mism := 0 } else i
  | none => i

def execSafeConfirmBlockEnd (s : State) : Res := s.on (fun d => d.islUp IslandSt.blockEnd)

/-! ### Reset, start-up, faults (R405 to R407, R426) -/

/-- LOCKOUT with a fault code: every switch off. -/
def IslandSt.lockout (code : Nat) (i : IslandSt) : IslandSt :=
  let i : IslandSt := { i with st := isLOCKOUT, fault := code, lastFault := code, storing := none }
  i.drive.event Ev.SAFE_LOCKOUT 0xFF 0xFF 0xFF code

/-- SFAULT_N is driven low in every state except RUN (R406). -/
def IslandSt.sfaultLow (i : IslandSt) : Bool := decide (i.st ≠ isRUN)

/-- SAFE_ISLAND_RESET: `on` asserts the reset, its release starts STARTUP. Only the stored sets, their confirmation and the last fault
survive. -/
def IslandSt.reset (on : Bool) (i : IslandSt) : IslandSt :=
  if on then { st := isOFF, lastFault := i.lastFault, setA := i.setA, setB := i.setB, confirmed := i.confirmed, supplyOk := i.supplyOk,
               srst := i.srst }
  else if i.st = isOFF ∧ i.supplyOk ∧ i.srst = false then { i with st := isSTARTUP } else i

def execSafeIslandReset (on : Bool) (s : State) : Res := s.on (fun d => d.islUp (fun i => ({ i with srst := on } : IslandSt).reset on))

/-- Both stored copies agree. -/
def IslandSt.nvmOk (i : IslandSt) : Bool := decide (i.setB = i.setA.map invert)

/-- SAFE_STARTUP_DONE: fault 0 when every self-test passed. -/
def IslandSt.started (fault : Nat) (i : IslandSt) : IslandSt :=
  if i.st ≠ isSTARTUP then i
  else if fault ≠ 0 then i.lockout fault
  else if !i.nvmOk then i.lockout 2
  else if i.setA.isNone then i.fresh isUNCONFIGURED
  else if i.confirmed then i.fresh isRUN
  else i.fresh isUNCONFIRMED

def execSafeStartupDone (fault : Nat) (s : State) : Res :=
  s.guarded (decide (fault ≤ 8)) (fun d => d.islUp (IslandSt.started fault))

/-- SAFE_ISLAND_FAULT (R426). -/
def execSafeIslandFault (code : Nat) (s : State) : Res :=
  s.guarded (decide (1 ≤ code) && decide (code ≤ 8)) (fun d =>
    if d.isl.st = isOFF ∨ d.isl.st = isLOCKOUT then d else d.islUp (IslandSt.lockout code))

/-- SAFE_PERIODIC_TEST (R426): `ok` the memory test of channel A; the copies are compared. -/
def IslandSt.periodic (ok : Bool) (i : IslandSt) : IslandSt :=
  if i.st < isUNCONFIGURED ∨ i.st = isLOCKOUT then i
  else if !ok then i.lockout 3
  else if !i.nvmOk then i.lockout 2 else i

def execSafePeriodicTest (ok : Bool) (s : State) : Res := s.on (fun d => d.islUp (IslandSt.periodic ok))

end Sys2Proof.Machine
end

