-- ==== Sys2Proof/Machine/Recorder.lean ====
section
/-!
DEFINITION. The event recorder (R470 to R477): records in MRAM, the queue, operating time, read-out and clearing.
-/
namespace Sys2Proof.Machine

/-- The address of a recorder slot (R473). -/
def slotAddr (i : Nat) : Nat := 0x200000000000 + 64 * i
def nSlots : Nat := 131072
def nPerm : Nat := 16384

/-- SOURCE of R471: block TYPE and instance. -/
def EvRec.source (e : EvRec) : Nat := e.code / 256 + e.inst * 65536

/-- A record without MARK and CRC. -/
def recordBody (e : EvRec) (supp : Nat) : List Byte :=
  let fl := b2n e.t1.isSome + 2 * b2n e.island + 4 * b2n (noLimit e.code)
  leBytes 5 e.opsec ++ [BitVec.ofNat 8 fl] ++ leBytes 2 e.code ++ leBytes 4 e.pcycle ++ leBytes 8 (e.t1.getD 0) ++
    leBytes 4 e.source ++ leBytes 2 supp ++ zeros 6 ++ slice e.data 0 32

/-- A record as it stands in MRAM, with MARK and CRC. -/
def recordBytes (e : EvRec) (supp : Nat) : List Byte :=
  let b := recordBody e supp
  putBytes 0x1C (leBytes 4 (crc32c b)) (putBytes 0x1A (leBytes 2 0xA55A) b)

/-- A slot holds a valid record (R474). -/
def recordOk (b : List Byte) : Bool :=
  decide (le b 0x1A 2 = 0xA55A) && decide (le b 0x1C 4 = crc32c (slice b 0 0x1A ++ zeros 6 ++ b.drop 0x20))

/-- Write one record: the permanent area first, then the circulating one (R473). -/
def Dev.writeRec (e : EvRec) (dm : Dev × List Host.Cell) : Dev × List Host.Cell :=
  let d := dm.1
  let supp := Tbl.getD 0 d.evt.supp e.code
  let i := if d.evt.pfill < nPerm then d.evt.pfill else d.evt.wptr
  let x : EvtSt := { d.evt with supp := Tbl.set 0 e.code 0 d.evt.supp, total := d.evt.total + 1 }
  let x : EvtSt := if x.pfill < nPerm then { x with pfill := x.pfill + 1 }
                   else { x with wptr := if x.wptr + 1 = nSlots then nPerm else x.wptr + 1 }
  ({ d with evt := x }, memPut (slotAddr i) (recordBytes e supp) dm.2)

/-- Which of two queued events is written first: by tick, then SOURCE, then CODE. -/
def evBefore (a b : EvRec) : Bool :=
  decide (a.tick < b.tick) || (decide (a.tick = b.tick) && (decide (a.source < b.source) ||
    (decide (a.source = b.source) && decide (a.code < b.code))))

def evFirst : List EvRec → Option EvRec
  | [] => none
  | x :: t => match evFirst t with
    | some y => if evBefore y x then some y else some x
    | none => some x

/-- An event made at this tick outside the queue. -/
def Dev.nowEv (d : Dev) (code : Nat) (data : List Byte) : EvRec :=
  { tick := d.time.cnt, code := code, inst := 0, opsec := d.evt.opsec, pcycle := d.evt.pcycle,
    t1 := if d.locked 1 then some (d.viewNs 1) else none, island := false, data := data }

/-- EVT_RECORD_WRITE (R474): after a loss REC_OVERFLOW comes first. -/
def Dev.recordWrite (dm : Dev × List Host.Cell) : Dev × List Host.Cell :=
  let d := dm.1
  if d.evt.clearing then dm
  else match evFirst d.evt.queue with
    | none => dm
    | some e =>
      if d.evt.lostNow ≠ 0 then
        Dev.writeRec (d.nowEv Ev.REC_OVERFLOW (leBytes 4 d.evt.lostNow)) ({ d with evt := { d.evt with lostNow := 0 } }, dm.2)
      else Dev.writeRec e ({ d with evt := { d.evt with queue := d.evt.queue.erase e } }, dm.2)

def execEvtRecordWrite (s : State) : Res := s.onMem (fun d m => Dev.recordWrite (d, m))

/-- OPSEC_TICK (R472, R475): a whole second with the rim PLL locked has passed; every bucket gains a token. -/
def Dev.opsecTick (d : Dev) : Dev :=
  if d.time.pll && decide (d.evt.opAt + 500000000 ≤ d.time.cnt) then
    { d with evt := { d.evt with opsec := (d.evt.opsec + 1) % 2 ^ 40, opAt := d.evt.opAt + 500000000,
                                 taken := (d.evt.taken.map (fun e => (e.1, e.2 - 1))).filter (fun e => decide (e.2 ≠ 0)) } }
  else d

def execOpsecTick (s : State) : Res := s.on Dev.opsecTick

/-- REC_READ (R476): slots in ascending index; one without a valid record reads as zeros. -/
def execRecRead (q : Req) (first count : Nat) (s : State) : Res :=
  s.eyelet q pvVIEW (fun s => s.on (fun d =>
    if count = 0 ∨ 16 < count ∨ nSlots ≤ first then d.answer q eyMALFORMED []
    else
      let one (i : Nat) : List Byte :=
        let b := memRead s.mem (slotAddr i) 64
        if recordOk b then b else zeros 64
      d.answer q eyOK (((List.range (min count (nSlots - first))).map (fun i => one (first + i))).flatten)))

/-- Start a clear (R477). -/
def Dev.clearStart (owe : Option (Nat × Nat)) (d : Dev) : Dev :=
  { d.wf R.EVT_STAT_CLEARING 1 with evt := { d.evt with clearing := true, clearOwe := owe } }

/-- REC_CLEAR (R477): answered when the clear has ended. -/
def execRecClear (q : Req) (s : State) : Res :=
  s.eyelet q pvOWNER (fun s => s.on (fun d =>
    if d.lc.state ≠ 2 then d.answer q eyREFUSED []
    else if d.evt.clearing then d.answer q eyBUSY []
    else (d.clearStart (some (q.sess, q.seq))).taken q))

/-- Clear every MARK, reset the pointers, write REC_CLEARED into slot 0 with the former total (R477). -/
def Dev.recErase (dm : Dev × List Host.Cell) : Dev × List Host.Cell :=
  let total := dm.1.evt.total
  let inMark (a : Nat) : Bool := decide (slotAddr 0 ≤ a) && decide (a < slotAddr nSlots) && (a % 64 = 0x1A || a % 64 = 0x1B)
  let m := dm.2.filter (fun c => !inMark c.1)
  let d : Dev := { dm.1 with evt := { dm.1.evt with pfill := 0, wptr := nPerm, total := 0 } }
  Dev.writeRec (d.nowEv Ev.REC_CLEARED (leBytes 8 total)) (d, m)

/-- REC_CLEAR_DONE. -/
def Dev.clearDone (dm : Dev × List Host.Cell) : Dev × List Host.Cell :=
  let d := dm.1
  if d.evt.clearing then
    let r := Dev.recErase (d.wf R.EVT_STAT_CLEARING 0, dm.2)
    let owe := r.1.evt.clearOwe
    (({ r.1 with evt := { r.1.evt with clearing := false, clearOwe := none } } : Dev).answerOwed owe eyOK [], r.2)
  else dm

def execRecClearDone (s : State) : Res := s.onMem (fun d m => Dev.clearDone (d, m))

end Sys2Proof.Machine
end

