-- ==== Sys2Proof/Machine/ResetCore.lean ====
section
/-!
DEFINITION. Asserting a reset source and the entry actions of each reach (R450 to R456, R461); the STATUS pins (R459).
-/
namespace Sys2Proof.Machine

def srPOR : Nat := 1
def srPIN : Nat := 2
def srPLR : Nat := 3
def srTHERM : Nat := 4
def srESC : Nat := 5
def srEYL_SYS : Nat := 6
def srLC : Nat := 7
def srDBG_SYS : Nat := 8
def srEYL_CORE : Nat := 9
def srSCWD : Nat := 10
def srDBG_CORE : Nat := 11

/-- The reach of a source: 1 CORE, 2 SYSTEM, 3 POWER-ON. -/
def reachOf (code : Nat) : Nat := if code = srPOR then 3 else if code ≤ srDBG_SYS then 2 else 1

/-- Results of a load (R65). -/
def ldOK : Nat := 0
def ldBAD_FORMAT : Nat := 1
def ldBAD_CRC : Nat := 2
def ldBAD_SIG : Nat := 3
def ldUNSIGNED : Nat := 4
def ldWRONG_PART : Nat := 5
def ldMISSING_RES : Nat := 6
def ldBAD_STRUCT : Nat := 7
def ldBAD_PROOF : Nat := 8
def ldCOPY_FAIL : Nat := 9
def ldBAD_REHEARSAL : Nat := 10
def ldABORTED : Nat := 11
def ldRUNNING : Nat := 12
def ldBUSY : Nat := 13

/-- The result of a load, verify or slot write, with the step at which it ended; a failed load is recorded (R62, R65). -/
def Dev.loadResult (res step : Nat) (isLoad : Bool) (d : Dev) : Dev :=
  let d := (d.wf R.SYS_LAST_STAT_RESULT res).wf R.SYS_LAST_STAT_STEP step
  if isLoad ∧ res ≠ ldOK then d.raise Ev.LAST_FAIL 0 [BitVec.ofNat 8 res, BitVec.ofNat 8 step] else d

/-- A reset strikes a slot write (R56): the slot stays WRITING; what its cells hold is open, so its bytes are free. -/
def Dev.slotCut (d : Dev) : Dev :=
  match d.slotWr with
  | none => d
  | some w =>
    let r := w.image.foldl (fun (a : Dev × List Byte) _ => let f := a.1.fresh 8; (f.2, BitVec.ofNat 8 f.1 :: a.2)) (d, [])
    { r.1 with slots := Tbl.put w.slot { st := 1, image := r.2 } r.1.slots, slotWr := none }

/-- A core reset strikes a load (R63): before the area exchange it is aborted, after it it starts again at step 9. -/
def Dev.loadCut (d : Dev) : Dev :=
  match d.load with
  | none => d
  | some l =>
    if l.step ≤ 8 then
      let d : Dev := { d with load := none }
      (d.setLast (if d.last.isSome then lsSTOPPED else lsEMPTY)).loadResult ldABORTED l.step true
    else { d with load := some { l with step := 9, owe := none, banks := [] } }

/-- Entry to a CORE episode (R461). -/
def Dev.coreEnter (d : Dev) : Dev :=
  let now := d.time.cnt
  let ran := d.running && !d.usedCads.isEmpty
  let d := (d.w64 R.RST_TR_LO_TICK R.RST_TR_HI_TICK now).bump R.RST_CNT_CORE 1
  let d := ((d.fabricStop.regsReset true).loadCut.slotCut).frzEnd true
  let d := (d.holHold).canHold
  let d := (d.wf R.SAFE_STAT_LINK 0).wf R.SAFE_CTRL_EN 0
  { d with sessions := [], hsig := [], units := Tbl.mapVals (fun _ x => { x with resumed := true }) d.units, rst := { d.rst with
      entries := (d.rst.entries ++ [now]).drop ((d.rst.entries.length + 1) - 8), resume := false, coresUp := false, dark := true,
      wasRun := ran, holdFrom := if ran && d.rst.holdFrom.isNone then some now else d.rst.holdFrom } }

/-- Entry to a SYSTEM or POWER-ON episode (R453): everything but what survives the reach is as at reset. -/
def Dev.sysEnter (por : Bool) (dm : Dev × List Host.Cell) : Dev × List Host.Cell :=
  let d : Dev := { dm.1.slotCut with frz := { dm.1.frz with queue := [] } }
  let d := d.frzEnd true
  let supply := d.rw (R.PWR_SUPPLY.addr 0 0 0)
  let n : Dev := { Dev.reset with
    variant := d.variant, stepping := d.stepping, strap := d.strap, regs := if por then [] else (d.regsReset false).regs,
    slots := d.slots, slotPref := d.slotPref, recipeStore := d.recipeStore, snaps := d.snaps,
    frz := { nextOrder := d.frz.nextOrder }, netcfg := d.netcfg, hclaimMram := d.hclaimMram, isl := d.isl, planHist := d.planHist,
    plr := d.plr, evt := { d.evt with queue := [], taken := [], clearing := false, clearOwe := none, lostNow := 0, opAt := 0 },
    lc := { d.lc with fwSlot := d.lc.fwNext }, sent := d.sent, free := d.free,
    rst := { trimFault := d.rst.trimFault && !por, epi := d.rst.epi, vinLow := d.rst.vinLow } }
  let n := ((n.ww (R.PWR_SUPPLY.addr 0 0 0) supply).wf R.DUPX_HCLAIM_HCLAIM d.hclaimMram).wf R.DUPX_CFG_SIDE d.strap
  (n.wb R.RST_STAT_VINLOW d.rst.vinLow, dm.2.filter (fun c => decide (0x200000000000 ≤ c.1)))

/-- Entry actions of a reach. -/
def Dev.enterReach (r : Nat) (dm : Dev × List Host.Cell) : Dev × List Host.Cell :=
  if r = 1 then (dm.1.coreEnter, dm.2) else Dev.sysEnter (decide (r = 3)) dm

/-- ESC (R456): this core entry lies within 10 s of the eighth before it. -/
def Dev.escalates (d : Dev) : Bool :=
  decide (8 ≤ d.rst.entries.length) && decide (d.time.cnt ≤ (nth 0 d.rst.entries (d.rst.entries.length - 8)) + 5000000000)

/-- Note a source in the running episode, or begin one (R454); a pulse lasts 10 µs (R450). -/
def Dev.noteSource (code : Nat) (level : Bool) (d : Dev) : Dev :=
  let pulse := if level then 0 else d.time.cnt + 5000
  let e : Episode := match d.rst.epi with
    | some e => { e with first := if e.fresh then min e.first code else e.first, mask := (e.mask ++ [code]).eraseDups, pulseEnd := max e.pulseEnd pulse,
                         now := if level then (e.now ++ [code]).eraseDups else e.now, reach := max e.reach (reachOf code) }
    | none => { first := code, reach := reachOf code, mask := [code], now := if level then [code] else [], pulseEnd := pulse, fresh := true }
  { d with rst := { d.rst with epi := some e } }

/-- The tick of the episode's first source is over. -/
def Dev.stale (d : Dev) : Dev := { d with rst := { d.rst with epi := d.rst.epi.map (fun e => { e with fresh := false }) } }

/-- Sources that waited for the end of the power-loss sequence enter the mask when POR cuts it short (R455). -/
def Dev.noteDeferred (d : Dev) : Dev :=
  (d.rst.deferred.foldl (fun d c => d.noteSource c ((decide (c = srPIN) || decide (c = srTHERM)) && !d.rst.deferOff.contains c)) d).stale

/-- A source is asserted (R450, R454 to R456, R458). Level sources stay asserted until released. During the power-loss sequence any other
source than POR waits. -/
def Dev.assertReset (code : Nat) (dm : Dev × List Host.Cell) : Dev × List Host.Cell :=
  let d := dm.1
  let level := decide (code = srPOR) || decide (code = srPIN) || decide (code = srTHERM)
  if d.rst.trimFault ∧ code ≠ srPOR then dm
  else if d.rst.loss.isSome ∧ code ≠ srPOR then
    ({ d with rst := { d.rst with deferred := (d.rst.deferred ++ [code]).eraseDups, deferOff := d.rst.deferOff.filter (· ≠ code) } }, dm.2)
  else
    let old := match d.rst.epi with | some e => e.reach | none => 0
    if reachOf code = 1 ∧ old = 0 ∧ d.escalates then
      let d := (d.noteSource srESC false).noteSource code false
      Dev.sysEnter false (d.bump R.RST_CNT_ESCALATIONS 1, dm.2)
    else
      let d := (if d.rst.deferred.isEmpty then d else d.noteDeferred).noteSource code level
      if old < reachOf code then Dev.enterReach (reachOf code) (d, dm.2) else (d, dm.2)

/-- A level source is released. One that waits for the end of the power-loss sequence still enters the mask then (R455). -/
def Dev.releaseReset (code : Nat) (d : Dev) : Dev :=
  { d with rst := { d.rst with epi := d.rst.epi.map (fun e => { e with now := e.now.filter (· ≠ code) }),
                               deferOff := if d.rst.deferred.contains code then (d.rst.deferOff ++ [code]).eraseDups else d.rst.deferOff } }

/-- STATUS2 to STATUS0 (R459). -/
def Dev.phasePins (d : Dev) : Nat :=
  if d.rst.loss.isSome then 7
  else if d.rst.phase < 3 ∨ d.rst.vinLow then 0
  else if d.rst.safe then 6
  else if d.rst.epi.isSome ∨ d.rst.resume then 5
  else if d.load.isSome ∨ d.rst.phase < 5 then 1
  else if d.lastState = lsEMPTY then 2
  else if d.running then 4
  else 3

/-- STATUS3 to STATUS0 (R459). -/
def Dev.statusPins (d : Dev) : Nat := d.phasePins + 8 * b2n d.rst.trimFault

end Sys2Proof.Machine
end

