-- ==== Sys2Proof/Machine/LifeCycle.lean ====
section
/-!
DEFINITION. The life cycle (R479 to R488): signed requests, transitions, erasure on return, and what each state opens.
-/
namespace Sys2Proof.Machine

def lcTEST : Nat := 0
def lcSHIPPED : Nat := 1
def lcOWNED : Nat := 2
def lcSEALED : Nat := 3
def lcRETURNED : Nat := 4
def lcSCRAPPED : Nat := 5

/-- The hash of a usable owner key slot (R482). -/
def LcSt.usable (l : LcSt) (n : Nat) : Option (List Byte) := if l.revoked.contains n then none else Tbl.get? l.keys n

/-- The debug extensions are open (R479). -/
def LcSt.debugOpen (l : LcSt) : Bool :=
  decide (l.state = lcTEST) || decide (l.state = lcRETURNED) || (decide (l.state = lcOWNED) && l.dev)

/-- An erasure has been started and not finished (R487). -/
def LcSt.erasing (l : LcSt) : Bool := l.eraseStart && !l.eraseDone

/-- SHA-384 over bytes 0x00 to 0xAB of a request (R485). -/
def LcMsg.hash (m : LcMsg) (sub : Nat) : List Byte :=
  Config.sha384 ([BitVec.ofNat 8 sub, BitVec.ofNat 8 m.keyIdx, 0, 0] ++ leBytes 8 m.nonce ++ slice m.uid 0 16 ++ slice m.arg 0 96 ++
    slice m.anchor 0 48)

/-- The owner signature, by a usable slot other than `except`. -/
def Dev.osigOk (d : Dev) (sub : Nat) (m : LcMsg) (except : Option Nat) : Bool :=
  match d.lc.usable m.keyIdx with
  | some h => decide (except ≠ some m.keyIdx) && Config.sigByKeyHash h (m.hash sub) m.osig
  | none => false

/-- The Tchilor token. -/
def tsigOk (sub : Nat) (m : LcMsg) : Bool := Config.sigByKeyHash Config.makerKeyHash (m.hash sub) m.tsig

/-- What a request must meet: the states it is accepted in, its signatures, its slots; 0 or WHY (R485, R488). -/
def Dev.lcWhy (d : Dev) (sub : Nat) (m : LcMsg) : Nat :=
  let st := d.lc.state
  let states : List Nat := match sub with
    | 1 => [lcSHIPPED] | 2 => [lcOWNED] | 3 => [lcSHIPPED, lcOWNED, lcSEALED] | 4 => [lcOWNED, lcSEALED, lcRETURNED]
    | 5 => [lcOWNED] | 6 => [lcOWNED] | 7 => [lcOWNED, lcSEALED] | 8 => [lcOWNED, lcSEALED] | _ => [lcTEST]
  let slot := byteAt m.arg 0
  let needO := match sub with
    | 2 => true | 3 => decide (st ≠ lcSHIPPED) | 4 => decide (st ≠ lcRETURNED) | 5 => true | 6 => true | 7 => true | 8 => true | _ => false
  let needT := match sub with | 3 => true | 4 => decide (st = lcRETURNED) | 9 => true | _ => false
  if d.rst.lcPend || d.lc.erasing then 8
  else if !states.contains st then 1
  else if m.nonce ≠ d.lc.nonce then 2
  else if leNat (slice m.uid 0 16) ≠ d.lc.uid then 3
  else if needO && !d.osigOk sub m (if sub = 8 then some slot else none) then 4
  else if needT && !tsigOk sub m then 5
  else if (sub = 7 ∧ 4 ≤ d.lc.keys.length) ∨ (sub = 8 ∧ 4 ≤ slot) then 6
  else if sub = 8 ∧ ((List.range 4).filter (fun n => decide (n ≠ slot) && (d.lc.usable n).isSome)).isEmpty then 7
  else 0

/-- The lowest unprogrammed slot. -/
def LcSt.freeSlot (l : LcSt) : Nat := ((List.range 4).find? (fun n => (Tbl.get? l.keys n).isNone)).getD 0

/-- The fuses and flash after an accepted request. -/
def LcSt.apply (l : LcSt) (sub : Nat) (m : LcMsg) : LcSt :=
  let h := Config.sha384 (slice m.arg 0 96)
  match sub with
  | 1 => { l with state := lcOWNED, keys := Tbl.put 0 h l.keys, anchor := slice m.anchor 0 48 }
  | 2 => { l with state := lcSEALED, dev := false }
  | 3 => { l with state := lcRETURNED, eraseStart := true }
  | 4 => { l with state := lcSCRAPPED }
  | 5 => { l with dev := true }
  | 6 => { l with dev := false }
  | 7 => { l with keys := Tbl.put l.freeSlot h l.keys }
  | 8 => { l with revoked := (l.revoked ++ [byteAt m.arg 0]).eraseDups }
  | _ => { l with state := lcSHIPPED }

/-- What an accepted transition does before the fuses are blown (R481). -/
def Dev.lcPrepare (d : Dev) : Dev :=
  let d := if d.running then d.stopLast else d
  let d := if d.dxRuns then d.dxUp (fun x => { x with relinq := true }) else d
  { d with plr := { d.plr with valid := false }, rst := { d.rst with lcPend := true, plrWait := false, plrRun := false } }

/-- An LC_REQUEST: judged, answered, carried out; the nonce is replaced either way (R484). -/
def Dev.lcRequest (q : Req) (sub : Nat) (m : LcMsg) (dm : Dev × List Host.Cell) : Dev × List Host.Cell :=
  let d := dm.1
  let why := d.lcWhy sub m
  let r := d.fresh 64
  let d : Dev := { r.2 with lc := { r.2.lc with nonce := r.1 } }
  if why ≠ 0 then (((d.wf R.SYS_LC_STAT_LASTREQ 2).wf R.SYS_LC_STAT_WHY why).answer q eyREFUSED [], dm.2)
  else
    let d := ((d.wf R.SYS_LC_STAT_LASTREQ 1).wf R.SYS_LC_STAT_WHY 0).answer q eyOK []
    let moves := decide (sub ≤ 4) || decide (sub = 9)
    let d := if moves then d.lcPrepare else d
    let d : Dev := { d with lc := d.lc.apply sub m, slots := if sub = 4 then [] else d.slots }
    if moves ∧ sub ≠ 3 then Dev.assertReset srLC (d, dm.2) else (d, dm.2)

/-- A life-cycle request of an Eyelet session. -/
def State.lifeCycle (s : State) (q : Req) (sub : Nat) (m : LcMsg) : Res :=
  s.eyelet q pvOWNER (fun s => s.onMem (fun d mm => Dev.lcRequest q sub m (d, mm)))

def execTakeOwnership (q : Req) (m : LcMsg) (s : State) : Res := s.lifeCycle q 1 m
def execLcSeal (q : Req) (m : LcMsg) (s : State) : Res := s.lifeCycle q 2 m
def execLcReturn (q : Req) (m : LcMsg) (s : State) : Res := s.lifeCycle q 3 m
def execLcScrap (q : Req) (m : LcMsg) (s : State) : Res := s.lifeCycle q 4 m
def execDevOn (q : Req) (m : LcMsg) (s : State) : Res := s.lifeCycle q 5 m
def execDevOff (q : Req) (m : LcMsg) (s : State) : Res := s.lifeCycle q 6 m
def execKeyAdd (q : Req) (m : LcMsg) (s : State) : Res := s.lifeCycle q 7 m
def execKeyRevoke (q : Req) (m : LcMsg) (s : State) : Res := s.lifeCycle q 8 m
def execLcShip (q : Req) (m : LcMsg) (s : State) : Res := s.lifeCycle q 9 m

/-- LC_ERASE_DONE (R487): steps 1 to 5 are done; ERASE_DONE is blown, and a transition under way asserts its reset. -/
def Dev.eraseEnd (dm : Dev × List Host.Cell) : Dev × List Host.Cell :=
  let d := dm.1
  if !d.lc.erasing then dm
  else
    let d : Dev := { d with
      lc := { d.lc with anchor := [], revoked := d.lc.keys.map Prod.fst, eraseDone := true },
      slots := [], recipeStore := [], snaps := [], frz := { nextOrder := d.frz.nextOrder }, netcfg := [], plr := {} }
    let r := Dev.recErase (d, dm.2)
    if r.1.rst.lcPend then Dev.assertReset srLC r else r

def execLcEraseDone (s : State) : Res := s.onMem (fun d m => Dev.eraseEnd (d, m))

end Sys2Proof.Machine
end

