-- ==== Sys2Proof/Machine/View.lean ====
section
/-!
DEFINITION. What a register word reads as (R2, R56, R65, R90, R91, R141, R170, R195, R221, R282, R354 to R359): words that show other
state are computed when they are read.
-/
namespace Sys2Proof.Machine

/-! ### Words that show other state -/

/-- A bit per listed number. -/
def maskOf (l : List Nat) : Nat := (List.range 32).foldl (fun a n => if l.contains n then a + 2 ^ n else a) 0

def word0 (n : Nat) : Nat := n % 2 ^ 32
def word1 (n : Nat) : Nat := n / 2 ^ 32 % 2 ^ 32

/-- A Last is loaded and mapped. -/
def Dev.loaded (d : Dev) : Bool := decide (d.lastState = lsSTOPPED) || decide (d.lastState = lsRUNNING)

/-- SYS (R2, R56, R65, R166, R171, R488). -/
def Dev.viewSys (d : Dev) (off st : Nat) : Nat :=
  if off = 0x10 then d.byVariant 0x2198441F 0x10CC221D 0x00882109
  else if off = 0x14 then d.byVariant 0x7680 0x7660 0x7640 + d.stepping % 256 * 2 ^ 16
  else if off = 0x44 then st / 2 * 2 + d.slotPref % 2
  else if off = 0x48 then st + (Tbl.getD {} d.slots 0).st + 4 * (Tbl.getD {} d.slots 1).st
  else if 0x50 ≤ off ∧ off < 0x60 then (if d.last.isSome then le d.cfg.id (off - 0x50) 4 else 0)
  else if off = 0x60 then st + d.lc.state + 8 * b2n d.lc.dev + 16 * b2n d.lc.erasing
  else if off = 0x64 then st + maskOf (d.lc.keys.map Prod.fst) + 16 * maskOf d.lc.revoked + d.lc.svnMin % 256 * 256
  else if off = 0x68 then word0 d.lc.nonce
  else if off = 0x6C then word1 d.lc.nonce
  else if 0x70 ≤ off ∧ off < 0x80 then d.lc.uid / 2 ^ (8 * (off - 0x70)) % 2 ^ 32
  else if off = 0x10C then
    st + 4 * b2n (Tbl.get? d.force d.frcSel).isSome + 8 * b2n (!d.forcePend.isEmpty)
  else if off = 0x110 then st + d.force.length
  else st

/-- TIME (R94, R111, R113). -/
def Dev.viewTime (d : Dev) (off st : Nat) : Nat :=
  if off = 0 ∨ off = 4 then st + b2n d.time.pll
  else if off = 0x10 then word0 d.time.cnt
  else if off = 0x14 then d.time.hi
  else if 0x100 ≤ off ∧ off < 0x300 then
    let w := Tbl.getD {} d.time.views ((off - 0x100) / 0x40)
    if off % 0x40 = 0x30 then word0 w.inc else if off % 0x40 = 0x34 then word1 w.inc else st
  else if 0x800 ≤ off then
    let t := Tbl.getD 0 d.time.cmp ((off - 0x800) / 0x20)
    if off % 0x20 = 4 then word0 t else if off % 0x20 = 8 then word1 t else st
  else st

/-- EVT (R472 to R478). -/
def Dev.viewEvt (d : Dev) (off st : Nat) : Nat :=
  if off = 4 then st + 4 * b2n (decide (nPerm ≤ d.evt.pfill))
  else if off = 0x10 then word0 d.evt.opsec
  else if off = 0x14 then word1 d.evt.opsec % 256
  else if off = 0x18 then word0 d.evt.pcycle
  else if off = 0x1C then d.evt.pfill
  else if off = 0x20 then d.evt.wptr
  else if off = 0x24 then word0 d.evt.total
  else if off = 0x28 then word1 d.evt.total
  else if off = 0x30 then d.evt.queue.length
  else st

/-- DISP (R92): occupancy, and the flow that FSEL selects. -/
def Dev.viewDisp (d : Dev) (off st : Nat) : Nat :=
  let die := off % 0x100 / 0x80
  let lv := off % 0x80 / 4
  let q (n : Nat) : DispSt := Tbl.getD {} d.disp n
  let f := d.rf R.DISP_FSEL_FLOW
  let fd := d.rf R.DISP_FSEL_DIE
  if off = 0 then b2n (d.loaded && d.cfg.flowSec)
  else if off = 4 then st + b2n (!(q 0).ring.isEmpty) + 2 * b2n (!(q 1).ring.isEmpty)
  else if 0x200 ≤ off ∧ off < 0x300 then ((q die).store.filter (fun x => decide (x.level = lv))).length
  else if 0x300 ≤ off ∧ off < 0x400 then ((q die).ring.filter (fun x => decide (x.level = lv))).length
  else if off = 0x604 then
    match d.flowOf fd f with
    | some r => r.level + 16 * b2n ((q fd).serv.contains f) +
        min 0xFFFFFF (((q fd).store ++ (q fd).ring).filter (fun x => decide (x.flow = f))).length * 256
    | none => 0
  else if off = 0x608 then
    match d.flowOf fd f with
    | some r => Tbl.getD 0 (q fd).late (4096 * fd + f) + r.cluster % 32 * 2 ^ 16
    | none => 0
  else st

/-- The loop windows of a LOOP unit (R133, R141). -/
def Dev.viewLoop (d : Dev) (u off st : Nat) : Nat :=
  let x := d.un u
  let l0 := Tbl.getD {} x.base.loops (d.rf R.UNIT_LP_SEL_LOOP u)
  let l : LoopSt := if x.run = 2 then { l0 with mode := 2, holdDev := true, hcause := 4 } else l0
  if off = 0x100 then
    (d.loopsOf u).length + d.kdata u 1 % 32 * 256 + (loopTiles (d.loopsOf u)).1 * 2 ^ 16
  else if off = 0x10C then loopStat l
  else if off = 0x110 then l.out.toNat
  else if off = 0x114 then l.pv.toNat
  else if off = 0x118 then l.err.toNat
  else if 0x120 ≤ off ∧ off < 0x130 then (nth {} l.models ((off - 0x120) / 4)).rf.toNat
  else if off = 0x130 then satAdd 0xFFFF l.switches 0 + satAdd 0xFF l.refused 0 * 2 ^ 16 + satAdd 0xFF l.holds 0 * 2 ^ 24
  else st

/-- The partition registers of a LOGIC unit (R170); those of the partition are valid in its lead segment. `LG_PART` names the segment itself and shows
in every segment: the model's choice, R170's words leave it open (log entry 117). -/
def Dev.viewLogic (d : Dev) (u off st : Nat) : Nat :=
  let p := d.partOf u
  let lead := decide (d.lead p = u)
  if off = 0x200 then p % 32 + d.kdata u 1 % 16 * 256 + b2n lead * 2 ^ 12 + d.kdata u 2 % 16 * 2 ^ 16
  else if !lead then 0
  else if off = 0x208 then partStat { d.partSt p with left := if (d.partSt p).strict then (d.partSt p).left else 0 }
  else if off = 0x20C then (d.partSt p).scans
  else st

/-- The axis windows of a PROFILE unit (R195). -/
def Dev.viewAxis (d : Dev) (u off st : Nat) : Nat :=
  let x := d.un u
  let i := d.rf R.UNIT_AX_SEL_AXIS u
  let a0 := Tbl.getD {} x.base.axes i
  let a : AxisSt := if x.run = 2 then { a0 with st := 6 } else a0
  if off = 0x300 then ((d.axesOf u).filter (fun c => decide (c.kind ≠ 0))).length + d.rankOf 3 u % 32 * 256
  else if off = 0x308 then axisStat (nth {} (d.axesOf u) i) a
  else if off = 0x310 then word0 (ofS 64 a.p)
  else if off = 0x314 then word1 (ofS 64 a.p)
  else if off = 0x318 then word0 (ofS 64 a.apos)
  else if off = 0x31C then word1 (ofS 64 a.apos)
  else if off = 0x320 then word0 (ofS 64 a.v)
  else if off = 0x324 then word1 (ofS 64 a.v)
  else if off = 0x328 then ofS 32 (clampI (-(2 ^ 31)) (2 ^ 31 - 1) (qFloor a.fe))
  else if off = 0x32C then satAdd 0xFFFF a.refused 0 + satAdd 0xFF a.faults 0 * 2 ^ 16
  else st

/-- The sequencer windows of a SEQ unit (R210, R221). -/
def Dev.viewSeq (d : Dev) (u off st : Nat) : Nat :=
  let x := d.un u
  let i := d.rf R.UNIT_SQ_SEL_SEQ u
  let s0 := Tbl.getD {} x.base.seqs i
  let s : SeqSt := if x.run = 2 then { s0 with st := 8 } else s0
  if off = 0x400 then (d.seqsOf u).length + d.rankOf 4 u % 32 * 256
  else if off = 0x408 then seqStat (d.seqLoaded u i) s
  else if off = 0x40C then s.cur % 2 ^ 11 + s.pend % 2 ^ 11 * 2 ^ 16
  else if off = 0x410 then word0 s.elapsed
  else if off = 0x414 then word0 s.ke
  else if off = 0x418 then satAdd 0xFFFF s.refused 0 + s.stepsTaken % 2 ^ 16 * 2 ^ 16
  else if off = 0x41C then Tbl.getD 0 d.recipeRes (d.seqNo u i)
  else st

/-- The engine windows of a TRIG unit (R282). -/
def Dev.viewEng (d : Dev) (u off st : Nat) : Nat :=
  let e := d.rf R.UNIT_TG_SEL_ENG u
  let s := Tbl.getD {} (d.un u).engShown e
  let r := d.engRim u e
  let full := match d.engCfg u e with | some c => (s.freeSlot c).isNone | none => false
  if off = 0x500 then (d.engsOf u).length + d.rankOf 5 u % 32 * 256
  else if off = 0x50C then
    s.st + r.d % 16 * 8 + s.slot % 16 * 2 ^ 7 + b2n full * 2 ^ 11 + b2n s.gapRec * 2 ^ 12 + b2n s.shortPre * 2 ^ 13 +
      b2n s.partialPre * 2 ^ 14 + s.lastCmd * 2 ^ 15 + s.why * 2 ^ 17 + s.mask % 128 * 2 ^ 20
  else if off = 0x510 then word0 s.kT
  else if off = 0x514 then word1 s.kT
  else if off = 0x518 then r.records % 2 ^ 16 + satAdd 0xFFFF r.dropped 0 * 2 ^ 16
  else st

/-- A unit's block: after a core reset fields of reach C read zero until the unit completes a cycle (R141, R170, R195, R221, R282). -/
def Dev.viewUnit (d : Dev) (u off st reachC : Nat) : Nat :=
  let x := d.un u
  if off = 0 then b2n (d.mapped && decide (x.kind ≠ 0))
  else if off = 0x10 then x.kind + 16 * b2n x.event + x.cad % 8 * 256 + x.order % 16 * 2 ^ 16
  else if off < 0x100 then st
  else
    let w := if off < 0x200 then d.viewLoop u off st else if off < 0x300 then d.viewLogic u off st
      else if off < 0x400 then d.viewAxis u off st else if off < 0x500 then d.viewSeq u off st else d.viewEng u off st
    if x.resumed then w &&& (0xFFFFFFFF ^^^ reachC) else w

/-! ### Reading a word -/

/-- The ID word of a block (R357). -/
def idWord (b : Blk) (k : Nat) : Nat := b.typ + k % 256 * 256 + 0x10000 + k / 256 * 2 ^ 24

/-- Words inside a present block to which R3 applies: chopper channels the variant lacks (R197), the words of a second die (R92). -/
def Dev.absentWord (d : Dev) (b : Blk) (off : Nat) : Bool :=
  match b with
  | .chop => decide (0x100 ≤ off) && decide (off < 0x500) && decide (d.nChop ≤ (off - 0x100) / 32)
  | .disp => decide (0x100 ≤ off) && decide (off < 0x500) && decide (d.nDies ≤ off % 0x100 / 0x80)
  | _ => false

/-- The register at a base offset of a present block: none where the variant or the unit's kind leaves the offset empty (R1, R364;
log entry 35). Measured line delays of a Holup segment are read-only (R311), and so is PRP_CFG of an odd port (R335). -/
def Dev.wordAt (d : Dev) (b : Blk) (k off : Nat) : Option RegDef :=
  if off = 0xC then some ⟨0xC, [], 0, 0, 0, [⟨0, 32, .ro⟩]⟩
  else
    let ok : Bool := match b with
      | .unit => decide (off < 0x100) || decide ((d.un k).kind = off / 0x100)
      | .aout => decide (off < 0x100) || decide ((off - 0x100) / 16 < d.nAout)
      | .pwr => decide (off < 0x100) || decide ((off - 0x100) / 16 < d.nRegions)
      | .marg => decide (off < 0x100) || (decide (off < 0x1000) && decide ((off - 0x100) / 32 < d.nRegions)) ||
          (decide (0x1000 ≤ off) && decide ((off - 0x1000) / 256 < d.nRegions))
      | _ => true
    let ro (r : RegDef) : RegDef :=
      if (b = .hol ∧ r.off = R.HOL_NODE_DLY.off ∧ d.flag R.HOL_CFG_DLYMODE k = false) ∨ (b = .eth ∧ r.off = R.ETH_PRP_CFG.off ∧ k % 2 = 1) then { r with flds := r.flds.map (fun f => { f with acc := .ro }) }
      else r
    if ok && !d.absentWord b off then (findReg b.regs off).map (fun p => ro p.1) else none

/-- The alias an offset belongs to (0 base, 1 SET, 2 CLR, 3 TGL) and the offset of the word it reaches (R358, R359). -/
def aliasOf (b : Blk) (off : Nat) : Nat × Nat :=
  if b = .can ∧ 0x4000 ≤ off ∧ off < 0x4800 then (0, off) else (off / 0x4000, off % 0x4000)

/-- The words of a port that State holds elsewhere: tracked sources and the counters of the egress side (R336, R341, R342). -/
def Dev.viewEth (d : Dev) (k off st : Nat) : Nat :=
  if off = R.ETH_PRP_STAT.off then setBits st 2 10 (if k % 2 = 0 then (d.prpSrcs k).length else 0)
  else if off = R.ETH_CNT_TXERR.off then (d.port k).txErr
  else if off = R.ETH_CNT_GATEHOLD.off then (d.port k).gateHold
  else if off = R.ETH_CNT_TXREPL.off then (d.port k).txRepl
  else st

/-- What the word at a base address of a present block reads as. -/
def Dev.peek (d : Dev) (a : Nat) : Nat :=
  match blkAt a with
  | none => 0
  | some (b, k) =>
    let off := a % 0x10000
    if off = 0xC then idWord b k
    else
      let st := d.rw a
      match b with
      | .sys => d.viewSys off st
      | .time => d.viewTime off st
      | .pwr => if off = 0 then b2n d.time.pll else st
      | .marg => if off = 0 then b2n d.rst.coresUp else st
      | .evt => d.viewEvt off st
      | .disp => d.viewDisp off st
      | .acq => if off = 0 then b2n (d.loaded && (!d.cfg.engs.isEmpty || d.cfg.sigs.any (·.history))) else st
      | .eth => d.viewEth k off st
      | .can => if off = 0x38 then tscOf d.time.cnt else st
      | .adc => if 0x100 ≤ off ∧ off < 0x300 ∧ off % 0x20 = 0 then setBits st 12 1 (b2n (d.pairOf k ((off - 0x100) / 0x20)).isSome) else st
      | .dio => if 0x800 ≤ off ∧ off < 0x818 then d.inWord ((off - 0x800) / 4)
          else if 0x820 ≤ off ∧ off < 0x838 then d.outWord ((off - 0x820) / 4) else st
      | .clus => if off = 0 then b2n (d.mapped && decide (nth 0 d.cfg.own.clClass k ≠ 0)) else st
      | .rgn => if off = 0 then b2n (d.mapped && d.cfg.units.any (fun u => decide (u.unit / 64 = k))) else st
      | .unit => (match findReg regsUNIT off with | some (r, _, _) => d.viewUnit k off st r.reachC | none => 0)
      | _ => st

/-- A read of one word: status, value, effect (R3, R94, R355, R364). Temperatures and monitors read what is measured (log entry 37). -/
def Dev.readReg (w : Writer) (a : Nat) (d : Dev) : Nat × Nat × Dev :=
  if a % 4 ≠ 0 then (eyBAD_ADDR, 0, d)
  else
    match blkAt a with
    | none => (eyBAD_ADDR, 0, d)
    | some (b, k) =>
      if d.present b ≤ k || d.absentWord b (aliasOf b (a % 0x10000)).2 then (eyABSENT, 0, d.absentAcc w a)
      else
        let o := (aliasOf b (a % 0x10000)).2
        match d.wordAt b k o with
        | none => (eyOK, 0, d)
        | some _ =>
          let base := b.base + k * 0x10000 + o
          let v := d.peek base
          if b = .time ∧ o = 0x10 then (eyOK, v, d.cntLoRead)
          else if b = .pwr ∧ o = 0x34 then
            let x := d.fresh 10
            if d.flag R.PWR_SUPPLY_VDDA_OK && d.flag R.RST_STAT_TRIM_VALID && decide (d.variant ≠ 2) then
              let y := x.2.fresh 10
              (eyOK, x.1 + y.1 * 2 ^ 16, y.2)
            else (eyOK, x.1, x.2)
          else if b = .marg ∧ 0x1000 ≤ o then
            let x := d.fresh 16
            let y := x.2.fresh 10
            (eyOK, x.1 + y.1 * 2 ^ 16, y.2)
          else (eyOK, v, d)

end Sys2Proof.Machine
end

