-- ==== Sys2Proof/Machine/Access.lean ====
section
/-!
DEFINITION. Writing a register word (R358 to R366, R510), the configuration checker (R367 to R371), and the commands that are register
writes with a row of their own.
-/
namespace Sys2Proof.Machine

/-! ### The word a write produces (R358) -/

/-- The bits a field takes from a write `x` through an alias; `seen` what the field reads as, `held` what the word stores. -/
def fieldNew (al : Nat) (acc : Access) (x seen held : Nat) : Nat :=
  match acc with
  | .rw | .rwl => if al = 0 then x else if al = 1 then seen ||| x else if al = 2 then seen - (seen &&& x) else seen ^^^ x
  | .rsv => if al = 0 then x else held
  | .w1c => if al ≤ 1 then held - (held &&& x) else held
  | .wo | .ro => held

/-- The word a write stores. -/
def RegDef.newWord (r : RegDef) (al v seen held : Nat) : Nat :=
  r.flds.foldl (fun w f => setBits w f.lo f.w (fieldNew al f.acc (bitsOf v f.lo f.w) (bitsOf seen f.lo f.w) (bitsOf held f.lo f.w))) held

/-- The write would change an RWL field (R361). -/
def RegDef.changesRwl (r : RegDef) (new seen : Nat) : Bool :=
  r.flds.any (fun f => decide (f.acc = .rwl) && decide (bitsOf new f.lo f.w ≠ bitsOf seen f.lo f.w))

/-- The WO bits a write gives: none through CLR and TGL. -/
def RegDef.acts (r : RegDef) (al v : Nat) : Nat :=
  if al ≤ 1 then r.flds.foldl (fun w f => if f.acc = .wo then setBits w f.lo f.w (bitsOf v f.lo f.w) else w) 0 else 0

def RegDef.hasRwl (r : RegDef) : Bool := r.flds.any (fun f => decide (f.acc = .rwl))

/-! ### The configuration checker (R367 to R371) -/

/-- The checker covers the word (R367). -/
def covers (b : Blk) (r : RegDef) : Bool :=
  match b with
  | .unit => decide (r.off = R.UNIT_CFG.off)
  | .clus => decide (r.off = R.CLUS_OWN.off)
  | .rgn => decide (r.off = R.RGN_CAD.off)
  | .time => decide (r.off = R.TIME_CADn_CFG.off) || decide (r.off = R.TIME_CADn_PHASE.off)
  | .disp => decide (r.off = R.DISP_LVL_CFG.off)
  | .hol => r.hasRwl && decide (r.off ≠ R.HOL_LDLY.off) && decide (r.off ≠ R.HOL_NODE_DLY.off)
  | _ => r.hasRwl

/-- Addresses and values of a block's covered words, ascending. -/
def Dev.coveredWords (d : Dev) (b : Blk) (k : Nat) : List (Nat × Nat) :=
  (List.range 4608).filterMap (fun i =>
    match d.wordAt b k (4 * i) with
    | some r => if covers b r then some (b.base + k * 0x10000 + 4 * i, d.peek (b.base + k * 0x10000 + 4 * i)) else none
    | none => none)

/-- Covered words of every present block, by block base (R367). -/
def Dev.coveredBlocks (d : Dev) : List (Nat × List (Nat × Nat)) :=
  (Blk.all.map (fun b => (List.range (d.present b)).map (fun k => (b.base + k * 0x10000, d.coveredWords b k)))).flatten.filter
    (fun e => !e.2.isEmpty)

/-- The CRC of covered words (R367). -/
def wordsCrc (ws : List (Nat × Nat)) : Nat := crc32c ((ws.map (fun e => leBytes 4 e.1 ++ leBytes 4 e.2)).flatten)

/-- Passes run (R368). -/
def Dev.cfgRuns (d : Dev) : Bool := d.flag R.CFGCHK_CTRL_EN && decide (d.lastState ≠ lsLOADING)

/-- A pass starts; a waiting COMMIT takes it (R369). -/
def Dev.cfgStart (d : Dev) : Dev := { d with cfgDirty := false, cfgCommit := if d.cfgCommit = 1 then 2 else d.cfgCommit }

/-- The first pass that starts from now on and ends clean becomes the reference (R369). -/
def Dev.cfgCommitReq (d : Dev) : Dev := { (d.wf R.CFGCHK_STAT_SUSP 1) with cfgCommit := 1 }

def Dev.cfgSuspendReq (d : Dev) : Dev := d.wf R.CFGCHK_STAT_SUSP 1

/-- A direct write of `REF` (R369). -/
def Dev.cfgRefWrite (v : Nat) (d : Dev) : Dev :=
  ((d.wf R.CFGCHK_REF_REF v).wf R.CFGCHK_STAT_REFVALID 1).wf R.CFGCHK_STAT_BLKVALID 0

/-- The reaction of `CFG.REACT` (R370); SAFE on a duplex active also gives RELINQ (R387). -/
def Dev.cfgReact (d : Dev) : Dev :=
  if !d.running then d
  else if d.rf R.CFGCHK_CFG_REACT = 1 then
    (d.kindUnits 2).foldl (fun d u =>
      if d.lead (d.partOf u) = u && decide ((d.partSt (d.partOf u)).st = 1) then (d.partCmd .core u 3).1 else d) d
  else if d.rf R.CFGCHK_CFG_REACT = 2 then
    let d := if d.dxRuns then d.dxUp (fun x => { x with relinq := true }) else d
    d.stopLast
  else d

/-- A compared pass differs from `REF` (R370). -/
def Dev.cfgMismatch (crc : Nat) (blks : Tbl Nat) (d : Dev) : Dev :=
  let d := (d.wf R.CFGCHK_STAT_MISMATCH 1).bump R.CFGCHK_MMCOUNT_COUNT 1
  let diff := if d.flag R.CFGCHK_STAT_BLKVALID
    then blks.find? (fun e => decide (Tbl.get? d.cfgBlk e.1 ≠ some e.2)) else none
  let d := match diff with
    | some e => (d.wf R.CFGCHK_WHERE_VALID 1).wf R.CFGCHK_WHERE_BASE (e.1 / 65536)
    | none => (d.wf R.CFGCHK_WHERE_VALID 0).wf R.CFGCHK_WHERE_BASE 0
  if d.cfgMism then d
  else
    let d := { d with cfgMism := true }
    (d.raise Ev.CFG_MISMATCH 0 (leBytes 4 crc ++ leBytes 4 (d.rf R.CFGCHK_REF_REF) ++ leBytes 4 (d.rw (R.CFGCHK_WHERE_VALID.addr 0 0 0)))).cfgReact

/-- A clean pass has ended (R368 to R370). -/
def Dev.cfgClean (d : Dev) : Dev :=
  let bs := d.coveredBlocks
  let crc := wordsCrc (bs.map Prod.snd).flatten
  let blks : Tbl Nat := bs.map (fun e => (e.1, wordsCrc e.2))
  let d := (d.wf R.CFGCHK_LAST_CRC crc).wf R.CFGCHK_STAT_DIRTY 0
  if d.cfgCommit = 2 then
    let d := (((d.wf R.CFGCHK_REF_REF crc).wf R.CFGCHK_STAT_REFVALID 1).wf R.CFGCHK_STAT_BLKVALID 1).wf R.CFGCHK_STAT_SUSP 0
    { d with cfgCommit := 0, cfgBlk := blks, cfgMism := false }
  else if d.flag R.CFGCHK_STAT_REFVALID && !d.flag R.CFGCHK_STAT_SUSP then
    if crc = d.rf R.CFGCHK_REF_REF then { d with cfgMism := false } else d.cfgMismatch crc blks
  else d

/-- CFGCHK_PASS_END (R368): the pass ends and the next one starts. `PASSES` counts it, clean or not. -/
def Dev.cfgPassEnd (d : Dev) : Dev :=
  if !d.cfgRuns then d
  else
    let d := d.wf R.CFGCHK_PASSES_COUNT ((d.rf R.CFGCHK_PASSES_COUNT + 1) % 2 ^ 32)
    (if d.cfgDirty then d.wf R.CFGCHK_STAT_DIRTY 1 else d.cfgClean).cfgStart

def execCfgchkPassEnd (s : State) : Res := s.on Dev.cfgPassEnd
def execCfgCommit (s : State) : Res := s.on Dev.cfgCommitReq
def execCfgSuspend (s : State) : Res := s.on Dev.cfgSuspendReq
def execCfgchkRefWrite (w : Word) (s : State) : Res := s.on (Dev.cfgRefWrite w.toNat)

/-! ### What a write of a block's word does -/

/-- An AdcMeas of free values: what a change of a setting finds the converter at (R224; log entry 2). -/
def Dev.freeMeas (d : Dev) : AdcMeas × Dev :=
  let a := d.fresh 34
  let b := a.2.fresh 1
  let c := b.2.fresh 34
  let e := c.2.fresh 1
  let f := e.2.fresh 12
  let g := f.2.fresh 20
  let h := g.2.fresh 48
  let i := h.2.fresh 48
  ({ q := toS 34 a.1, rho0 := h.1 % 2 ^ 24, rho1 := h.1 / 2 ^ 24, ovr := decide (b.1 = 1), chkQ := toS 34 c.1, chkRho0 := i.1 % 2 ^ 24,
     chkRho1 := i.1 / 2 ^ 24, chkOvr := decide (e.1 = 1), tj := toS 12 f.1, pa := g.1 }, i.2)

/-- REFUSED where a block's own rule refused the write, else OK (R374). -/
def stRefused (bad : Bool) : Nat := if bad then eyREFUSED else eyOK

/-- A write in progress: writer, address written, instance, offset and indices of the word, alias, value, word to store, WO bits
given. -/
structure RegWr where
  w : Writer
  a : Nat
  k : Nat
  off : Nat
  i : Nat
  al : Nat
  v : Nat
  new : Nat
  act : Nat

/-- SYS (R65, R166, R171). SET and REMOVE together are dropped with WIGN, and so is a write of a life-cycle word (R488). -/
def Dev.writeSys (x : RegWr) (d : Dev) : Dev × Nat :=
  if x.off = R.SYS_FRC_CTL.off then
    if x.act % 4 = 3 then (d.wign .sys 0 x.w x.a, eyIGNORED)
    else
      let d := d.ww x.off x.new
      if bitAt x.act 0 then d.frcSet else if bitAt x.act 1 then (d.frcRemove, eyOK) else (d, eyOK)
  else if 0x60 ≤ x.off ∧ x.off < 0x80 then (d.wign .sys 0 x.w x.a, eyIGNORED)
  else
    let d := d.ww x.off x.new
    if x.off = 0x44 then ({ d with slotPref := x.new % 2 }, eyOK)
    else if x.off = R.SYS_FRC_SEL.off then (d.frcLoad x.new, eyOK)
    else (d, eyOK)

/-- TIME (R97, R98, R100, R111). -/
def Dev.writeTime (r : RegDef) (x : RegWr) (d : Dev) : Dev × Nat :=
  let hi := BitVec.ofNat 32 x.new
  let no (p : Dev × Bool) : Dev × Nat := (p.1, stRefused p.2)
  if r.off = R.TIME_VCTL.off then
    let bad := d.ww (Blk.time.base + x.off) (setBits x.new 0 13 (d.rw (Blk.time.base + x.off)))
    no (bad.timeVctl x.i x.new)
  else if r.off = R.TIME_INC_HI.off then no ((d.ww (Blk.time.base + x.off) x.new).timeInc x.w x.i hi)
  else if r.off = R.TIME_SET_NS_HI.off then no (d.timeSet x.i hi)
  else if r.off = R.TIME_STEP_HI.off then no (d.timeStep x.i hi)
  else
    let d := d.ww (Blk.time.base + x.off) x.new
    if r.off = R.TIME_SNAP_CTL.off then (d.timeSnap (x.act % 256), eyOK)
    else if r.off = R.TIME_CMPi_HI.off then (d.cmpTarget x.i hi, eyOK)
    else if r.off = R.TIME_CMPi_CTL.off then (d.deferAgain, eyOK)
    else (d, eyOK)

/-- PWR (R430). -/
def Dev.writePwr (x : RegWr) (d : Dev) : Dev × Nat :=
  if x.off = R.PWR_BUDGET.off then let p := d.budgetWrite x.new; (p.1, stRefused p.2)
  else if x.off = R.PWR_ILIM.off then let p := d.ilimWrite x.new; (p.1, stRefused p.2)
  else (d.ww (Blk.pwr.base + x.off) x.new, eyOK)

/-- CFGCHK (R368 to R370): COMMIT beats SUSPEND; setting EN starts a pass. -/
def Dev.writeCfgchk (x : RegWr) (d : Dev) : Dev × Nat :=
  if x.off = R.CFGCHK_CFG.off ∧ x.new % 4 = 3 then (d.wign .cfgchk 0 x.w x.a, eyIGNORED)
  else if x.off = R.CFGCHK_REF.off then (d.cfgRefWrite x.new, eyOK)
  else
    let was := d.flag R.CFGCHK_CTRL_EN
    let d := d.ww (Blk.cfgchk.base + x.off) x.new
    if x.off = R.CFGCHK_CMD.off then
      (if bitAt x.act 0 then d.cfgCommitReq else if bitAt x.act 1 then d.cfgSuspendReq else d, eyOK)
    else if !was && d.flag R.CFGCHK_CTRL_EN then ({ d.cfgStart with cfgMism := false }, eyOK)
    else (d, eyOK)

/-- SAFE (R419): STORE is taken before CLEAR. -/
def Dev.writeSafe (x : RegWr) (d : Dev) : Dev × Nat :=
  let d := d.ww (Blk.safe.base + x.off) x.new
  if x.off = R.SAFE_PCMD.off then
    let d := if bitAt x.act 0 then d.psetStore else d
    (if bitAt x.act 1 then d.psetClear else d, eyOK)
  else (d, eyOK)

/-- ETHn (R333, R340): an MTU outside 1 500 to 9 000 is ignored (log entry 133). -/
def Dev.writeEth (base : Nat) (x : RegWr) (d : Dev) : Dev × Nat :=
  if x.off = R.ETH_MTU.off ∧ !inR 1500 (bitsOf x.new 0 14) 9000 then (d.wign .eth x.k x.w x.a, eyIGNORED)
  else
  let d := d.ww base x.new
  if x.off = R.ETH_GCL_CTL.off ∧ bitAt x.act 7 = true then
    if d.gateOk x.k (d.gateList x.k false) then (d.gclSwap x.k, eyOK) else (d.gclSwap x.k, eyREFUSED)
  else if x.off = R.ETH_GCL_CHG_HI.off then
    (d.portUp x.k (fun s => { s with chg := d.r64 R.ETH_GCL_CHG_LO_CHG R.ETH_GCL_CHG_HI_CHG x.k }), eyOK)
  else (d, eyOK)

/-- HOLn (R303, R309, R311). -/
def Dev.writeHol (base : Nat) (x : RegWr) (d : Dev) : Dev × Nat :=
  let was := d.flag R.HOL_CTRL_EN x.k
  let d := d.ww base x.new
  if x.off = 0 then
    (if !was && bitAt x.new 0 then d.holEnable x.k else if was && !bitAt x.new 0 then d.holDisable x.k else d, eyOK)
  else if x.off = R.HOL_CMD.off then
    let d := if bitAt x.act 0 then d.holRestart x.k else d
    let d := if bitAt x.act 1 then d.holRestore x.k else d
    (if bitAt x.act 2 then d.holClrcnt x.k else d, eyOK)
  else if x.off = R.HOL_ARBQ_CTL.off then
    let d := if bitAt x.act 0 then d.arbPop x.k else d
    (if bitAt x.act 1 then d.arbSend x.k else d, eyOK)
  else (d, eyOK)

/-- CANn (R319, R322, R331). Data of a pending EVENT buffer cannot be written. -/
def Dev.writeCan (r : RegDef) (base : Nat) (x : RegWr) (d : Dev) : Dev × Nat :=
  if r.off = R.CAN_TXB_DATA.off && d.flag R.CAN_TXB_CTL_PEND x.k x.i && decide (d.rf R.CAN_TXB_CTL_KIND x.k x.i = 2) then
    (d.wign .can x.k x.w x.a, eyIGNORED)
  else
    let was := d.flag R.CAN_CTRL_EN x.k
    let d := d.ww base x.new
    if x.off = 0 then
      (if !was && bitAt x.new 0 then d.canEnable x.k else if was && !bitAt x.new 0 then d.canDisable x.k else d, eyOK)
    else if x.off = R.CAN_CMD.off then
      let d := if bitAt x.act 0 then d.canRecover x.k else d
      (if bitAt x.act 1 then d.canClrcnt x.k else d, eyOK)
    else if x.off = R.CAN_TSCAP_CTL.off then (if bitAt x.act 0 then d.tscap x.k else d, eyOK)
    else if x.off = R.CAN_RXQ_CTL.off then
      let d := if bitAt x.act 0 then d.rxqPop x.k 0 else d
      (if bitAt x.act 1 then d.rxqPop x.k 1 else d, eyOK)
    else if r.off = R.CAN_TXB_CTL.off then
      let d := if bitAt x.act 1 then d.canReq x.k x.i else d
      (if bitAt x.act 2 then d.canCancel x.k x.i else d, eyOK)
    else (d, eyOK)

/-- An ADC bank (R226, R234 to R244). -/
def Dev.writeAdc (r : RegDef) (base : Nat) (x : RegWr) (d : Dev) : Dev × Nat :=
  if r.off = R.ADC_CHn_CTL.off ∨ r.off = R.ADC_CHn_WLEN.off then
    let m := d.freeMeas
    let p := m.2.adcChWrite x.k x.i (decide (r.off = R.ADC_CHn_WLEN.off)) x.new m.1
    (p.1, stRefused p.2)
  else
    let was := d.flag R.ADC_CTRL_EN x.k
    let d := d.ww base x.new
    if x.off = 0 then
      (if !was && bitAt x.new 0 then d.bankEnable x.k else if was && !bitAt x.new 0 then d.bankDisable x.k else d, eyOK)
    else if x.off = R.ADC_CAL_CMD.off then
      let d := if bitAt x.act 0 then d.bankcal x.k else d
      let d := if bitAt x.act 1 then d.roll x.k else d
      (if bitAt x.act 2 then d.stoproll x.k else d, eyOK)
    else (d, eyOK)

/-- DIO (R249, R250, R257): DIRM 3 and FE above 5 are refused. -/
def Dev.writeDio (r : RegDef) (base : Nat) (x : RegWr) (d : Dev) : Dev × Nat :=
  if r.off = R.DIO_OUTg.off then d.dioOutWrite x.i x.al x.v
  else if r.off = R.DIO_PINn_CFG.off ∧ (bitsOf x.new 0 2 = 3 ∨ 5 < bitsOf x.new 10 3) then (d, eyREFUSED)
  else if r.off = R.DIO_CNTn.off then (d.cntWrite x.i (BitVec.ofNat 32 x.new), eyOK)
  else if x.off = 0 then ((d.setEn .dio (bitAt x.new 0)).ww base x.new, eyOK)
  else (d.ww base x.new, eyOK)

/-- SYNC with SPREAD, or with a period that does not divide its cadence's (R256). -/
def Dev.pwmBad (d : Dev) (n cfg per : Nat) : Bool :=
  let f (g : F) : Nat := bitsOf cfg g.lo g.w
  let p := per % 2 ^ 24 * 10
  decide (f R.PWM_CHn_CFG_SYNC = 1) &&
    (decide (f R.PWM_CHn_CFG_SPREAD = 1) || decide (p = 0) ||
      decide ((d.rf R.TIME_CADn_CFG_MULT 0 (f R.PWM_CHn_CFG_CAD) * 10000) % max 1 p ≠ 0) || decide (32 ≤ n))

/-- PWM (R256, R257). -/
def Dev.writePwm (r : RegDef) (base : Nat) (x : RegWr) (d : Dev) : Dev × Nat :=
  let cfg := d.rw (R.PWM_CHn_CFG.addr 0 x.i 0)
  let per := d.rw (R.PWM_CHn_PER.addr 0 x.i 0)
  if r.off = R.PWM_CHn_SET.off then d.pwmSetWrite x.i (BitVec.ofNat 32 x.new)
  else if (r.off = R.PWM_CHn_CFG.off ∧ d.pwmBad x.i x.new per = true) ∨ (r.off = R.PWM_CHn_PER.off ∧ d.pwmBad x.i cfg x.new = true) then
    (d.wign .pwm 0 x.w x.a, eyIGNORED)
  else if x.off = 0 then ((d.setEn .pwm (bitAt x.new 0)).ww base x.new, eyOK)
  else (d.ww base x.new, eyOK)

/-- AOUT (R257, R512). -/
def Dev.writeAout (r : RegDef) (base : Nat) (x : RegWr) (d : Dev) : Dev × Nat :=
  if r.off = R.AOUT_CHn_SET.off then d.aoutSetWrite x.i (BitVec.ofNat 32 x.new)
  else if x.off = 0 then ((d.setEn .aout (bitAt x.new 0)).ww base x.new, eyOK)
  else (d.ww base x.new, eyOK)

/-- A unit's block (R90, R160, R282): a command of a unit of another kind never comes here, its word is empty. -/
def Dev.writeUnit (r : RegDef) (base : Nat) (x : RegWr) (m : List Host.Cell) (d : Dev) : Dev × Nat :=
  if r.off = R.UNIT_LG_CMD.off then (if x.al ≤ 1 then d.partCmd x.w x.k (x.act % 8) else (d, eyOK))
  else if r.off = R.UNIT_TG_CMD.off then
    if 1 < x.al then (d, eyOK)
    else
      let e := bitsOf x.act 8 2
      if d.engOk x.k e then
        let d := d.engCmd x.k e (x.act % 8) (bitsOf x.act 12 4) m
        (d, stRefused (decide ((d.engSt x.k e).lastCmd = 2)))
      else (d, eyREFUSED)
  else
    let d := d.ww base x.new
    (if r.off = R.UNIT_CTRL.off ∧ bitAt x.act 1 = true then d.clrstat x.k else d, eyOK)

/-- What an accepted write of a word does, and the status its Eyelet writer reads. -/
def Dev.writeWord (b : Blk) (r : RegDef) (x : RegWr) (m : List Host.Cell) (d : Dev) : Dev × Nat :=
  let base := b.base + x.k * 0x10000 + x.off
  match b with
  | .sys => d.writeSys x
  | .time => d.writeTime r x
  | .pwr => d.writePwr x
  | .marg => let d := d.ww base x.new; (if x.off = R.MARG_CMD.off ∧ bitAt x.act 0 = true then d.planAll else d, eyOK)
  | .cfgchk => d.writeCfgchk x
  | .safe => d.writeSafe x
  | .acq => let d := d.ww base x.new; (if x.off = R.ACQ_FRZ_CMD.off ∧ bitAt x.act 0 = true then d.freezeReq 0 else d, eyOK)
  | .eth => d.writeEth base x
  | .hol => d.writeHol base x
  | .can => d.writeCan r base x
  | .adc => d.writeAdc r base x
  | .aout => d.writeAout r base x
  | .dio => d.writeDio r base x
  | .chop => let d := d.ww base x.new; (if r.off = R.CHOP_CH_CUR.off then d.chopShow x.i else d, eyOK)
  | .pwm => d.writePwm r base x
  | .unit => d.writeUnit r base x m
  | .rst | .evt | .disp | .dupx | .clus | .rgn => (d.ww base x.new, eyOK)

/-! ### A register write (R355, R358 to R366, R510) -/

/-- Blocks in which units may be granted words (R365). -/
def grantable (b : Blk) : Bool := [Blk.adc, .aout, .dio, .chop, .pwm].contains b

/-- The Last grants the word at a base address to a unit (R365). -/
def Dev.granted (d : Dev) (u base : Nat) : Bool :=
  d.cfg.io.any (fun e => match e.body with | .grant v a => decide (v = u) && decide (a = base) | _ => false)

/-- The base address of the word that an address names, alias or not (R358). -/
def baseOf (a : Nat) : Nat := match blkAt a with | some (b, k) => b.base + k * 0x10000 + (aliasOf b (a % 0x10000)).2 | none => a

/-- A unit has written the word in this tick (R366). -/
def Dev.unitWrote (d : Dev) (base : Nat) : Bool := decide (d.unitWr.1 = d.time.cnt) && d.unitWr.2.contains base

/-- A unit's write of the word, staged in a cycle that it has completed, commits at a boundary that falls in this tick and is still to come:
it wins over an outside writer's (R27, R365). -/
def Dev.unitWrites (d : Dev) (base : Nat) : Bool :=
  d.units.any (fun e => !e.2.event && e.2.done && decide (d.rf R.TIME_CADn_CFG_MULT 0 e.2.cad ≠ 0) &&
    decide (d.cadReach e.2.cad ≠ (Tbl.getD {} d.time.cads e.2.cad).b) &&
    e.2.regw.any (fun p => decide (baseOf p.1 = base)))

/-- A write is noted for the tick: a unit's, and an outside writer's. -/
def Dev.noteWr (w : Writer) (base : Nat) (d : Dev) : Dev :=
  match w with
  | .unit _ => { d with unitWr := (d.time.cnt, (if d.unitWr.1 = d.time.cnt then d.unitWr.2 else []) ++ [base]) }
  | _ => { d with outWr := (d.time.cnt, (if d.outWr.1 = d.time.cnt then d.outWr.2 else []) ++ [base]) }

/-- An outside writer has written in this tick a word that a unit's staged writes name (R27). -/
def Dev.outWrote (d : Dev) (u : Nat) : Bool :=
  decide (d.outWr.1 = d.time.cnt) && (d.un u).regw.any (fun p => d.outWr.2.contains (baseOf p.1))

/-- The writer may write the word: a unit only where the word is granted to it. -/
def Dev.mayWrite (d : Dev) (w : Writer) (b : Blk) (base : Nat) : Bool :=
  match w with
  | .unit u => grantable b && d.granted u base
  | _ => true

/-- A write of one register word commits; the status its Eyelet writer reads (R374). -/
def Dev.writeReg (w : Writer) (a : Nat) (v : Word) (m : List Host.Cell) (d : Dev) : Dev × Nat :=
  if a % 4 ≠ 0 then (d, eyBAD_ADDR)
  else
    match blkAt a with
    | none => (d, eyBAD_ADDR)
    | some (b, k) =>
      if d.present b ≤ k || d.absentWord b (aliasOf b (a % 0x10000)).2 then (d.absentAcc w a, eyABSENT)
      else
        let p := aliasOf b (a % 0x10000)
        let base := b.base + k * 0x10000 + p.2
        match d.wordAt b k p.2 with
        | none => (d.wign b k w a, eyIGNORED)
        | some r =>
          if !d.mayWrite w b base then (d.wign b k w a, eyIGNORED)
          else if (match w with | .unit _ => false | _ => d.unitWrote base || d.unitWrites base) then (d, eyBUSY)
          else
            let seen := d.peek base
            let new := r.newWord p.1 v.toNat seen (d.rw base)
            if r.changesRwl new seen && bitAt (d.peek (b.base + k * 0x10000)) 0 then (d.wign b k w a, eyIGNORED)
            else
              let i := match r.at? p.2 with | some (i, _) => i | none => 0
              let x : RegWr := { w := w, a := a, k := k, off := p.2, i := i, al := p.1, v := v.toNat, new := new, act := r.acts p.1 v.toNat }
              let q := d.writeWord b r x m
              let e := q.1.noteWr w base
              (if covers b r && decide (q.2 = eyOK) then { e with cfgDirty := true } else e, q.2)

/-- Staged register writes of a unit commit (R365). -/
def Dev.commitRegw (u : Nat) (m : List Host.Cell) (d : Dev) : Dev :=
  let ws := (d.un u).regw
  ws.foldl (fun d p => (d.writeReg (.unit u) p.1 (BitVec.ofNat 32 p.2) m).1) (d.unUp u (fun x => { x with regw := [] }))

/-! ### The tile window (R78, R354) -/

/-- Tiles of the variant's tile window (R3, R354): 1024 bytes each. -/
def Dev.nTiles (d : Dev) : Nat := d.byVariant 16384 8192 8192

/-- A range of bytes lies in one memory window that the variant has. -/
def Dev.inTiles (d : Dev) (a n : Nat) : Bool := decide (0x10000000 ≤ a) && decide (a + n ≤ tileAddr d.nTiles)

/-- The unit and the map entry that hold a physical tile. -/
def Dev.tileOwner (d : Dev) (t : Nat) : Option (Nat × TileMap) :=
  d.units.findSome? (fun e => (e.2.tiles.find? (fun x => decide (x.ptile = t))).map (fun x => (e.1, x)))

/-- The part of a tile-window write that falls on one physical tile: held for its owner, or dropped (R78). The second component: units
that hold a part; the third: something was dropped. -/
def Dev.tilePut (w : Writer) (addr : Nat) (data : List Byte) (a : Dev × List Nat × Bool) (t : Nat) : Dev × List Nat × Bool :=
  let d := a.1
  let lo := max addr (tileAddr t)
  let hi := min (addr + data.length) (tileAddr (t + 1))
  let part := slice data (lo - addr) (hi - lo)
  match d.tileOwner t with
  | some (u, x) =>
    if x.cls = 2 then
      let ws := (List.range part.length).map (fun i => (1024 * x.lidx + (lo - tileAddr t) + i, nth 0 part i))
      (d.unUp u (fun y => { y with deferW := y.deferW ++ [(none, ws)] }), a.2.1 ++ [u], a.2.2)
    else (d.wign .unit u w lo, a.2.1, true)
  | none => (d.wignAny w lo, a.2.1, true)

/-- A service core's write of a word of the tile window (R78); one outside the window is a register write. -/
def Dev.coreWrite (a : Nat) (v : Word) (m : List Host.Cell) (d : Dev) : Dev :=
  if a % 4 = 0 ∧ d.inTiles a 4 then (Dev.tilePut .core a (leBytes 4 v.toNat) (d, [], false) ((a - 0x10000000) / 1024)).1
  else (d.writeReg .core a v m).1

/-- A write arrives: a unit's is staged while the unit works, and nothing where it does not; any other commits. -/
def Dev.regWrite (w : Writer) (a : Nat) (v : Word) (m : List Host.Cell) (d : Dev) : Dev :=
  match w with
  | .unit u =>
    if (d.un u).run = 1 && !(d.un u).done then d.unUp u (fun x => { x with regw := x.regw ++ [(a, v.toNat)] }) else d
  | .core => d.coreWrite a v m
  | .eyelet => (d.writeReg w a v m).1

def execRegisterWrite (wr : Writer) (addr : Nat) (w : Word) (s : State) : Res := s.on (Dev.regWrite wr addr w s.mem)

/-- DIO_OUT_WRITE (R257): a write of `DIO.OUTg` through an alias. -/
def execDioOutWrite (wr : Writer) (g al : Nat) (w : Word) (s : State) : Res :=
  s.guarded (decide (g < 6) && decide (al < 4)) (Dev.regWrite wr (0x610820 + 4 * g + 0x4000 * al) w s.mem)

/-- AOUT_SET_WRITE (R257). -/
def execAoutSetWrite (wr : Writer) (n : Nat) (w : Word) (s : State) : Res :=
  s.guarded (decide (n < 64)) (Dev.regWrite wr (0x600104 + 16 * n) w s.mem)

/-- PWM_SET_WRITE (R257). -/
def execPwmSetWrite (wr : Writer) (n : Nat) (w : Word) (s : State) : Res :=
  s.guarded (decide (n < 32)) (Dev.regWrite wr (0x630108 + 16 * n) w s.mem)

/-- SLOT_PREF_WRITE (R65). -/
def execSlotPrefWrite (w : Word) (s : State) : Res := s.on (Dev.regWrite .eyelet 0x44 w s.mem)


end Sys2Proof.Machine
end

