-- ==== Sys2Proof/Machine/Eyelet.lean ====
section
/-!
DEFINITION. Eyelet: sessions (R345), messages that are no request (R346, R373), register and memory access (R355, R375, R78), snapshots
(R281) and network settings (R349).
-/
namespace Sys2Proof.Machine

/-! ### Sessions -/

/-- The privilege a client's certificate gives in a life-cycle state (R479, R482): none where the client is refused. -/
def sessPriv (lc : Nat) (c : ClientCert) : Option Nat :=
  if !c.ok then none
  else if lc = lcTEST ∨ lc = lcRETURNED then (if c.anchor = 2 then some pvMAKER else none)
  else if lc = lcSHIPPED then some pvOWNER
  else if lc = lcOWNED ∨ lc = lcSEALED then (if c.anchor = 1 then some (min c.role pvOWNER) else none)
  else (if c.anchor = 2 then some pvVIEW else none)

/-- EYELET_HANDSHAKE: a session is opened under the lowest free number, or the client is refused: a ninth with the alert internal_error. -/
def Dev.handshake (c : ClientCert) (d : Dev) : Dev :=
  if !d.rst.coresUp then d
  else match (List.range 8).find? (fun i => (Tbl.get? d.sessions i).isNone), sessPriv d.lc.state c with
    | none, _ => d.udpOut c.port (some (d.mgmtQ c.port)) true c.ip d.net.eylPort c.udp Config.dtlsAlert
    | some i, some p =>
      { d with sessions := Tbl.put i { priv := p, last := d.time.cnt, port := c.port, ip := c.ip, udp := c.udp, peer := c.peer } d.sessions }
    | some _, none => d

def execEyeletHandshake (cert : ClientCert) (s : State) : Res := s.on (Dev.handshake cert)

/-- EYELET_IDLE_TIMEOUT: a session without a record for the idle time is closed. -/
def Dev.idleTimeout (sess : Nat) (d : Dev) : Dev :=
  match Tbl.get? d.sessions sess with
  | some x => if x.last + d.net.eylIdle * 500000000 ≤ d.time.cnt then { d with sessions := Tbl.del sess d.sessions } else d
  | none => d

def execEyeletIdleTimeout (sess : Nat) (s : State) : Res := s.guarded (decide (sess < 8)) (Dev.idleTimeout sess)

/-- EYELET_MALFORMED (R346): answered MALFORMED, no other effect. -/
def execEyeletMalformed (sess seq : Nat) (s : State) : Res :=
  s.on (fun d => if (Tbl.get? d.sessions sess).isSome then d.tell sess seq eyMALFORMED [] else d)

/-- UNKNOWN_OP (R373). -/
def execUnknownOp (q : Req) (op : Nat) (s : State) : Res :=
  if eyOps.contains op then .refused .badOperand
  else s.eyelet q pvVIEW (fun s => s.on (fun d => d.answer q eyUNKNOWN []))

/-! ### Registers (R375) -/

/-- Reads of consecutive words: the first status other than OK, the words, the effects. -/
def Dev.readWords (a : Nat) : Nat → Dev → Nat × List Byte × Dev
  | 0, d => (eyOK, [], d)
  | n + 1, d =>
    let r := d.readReg .eyelet a
    let t := Dev.readWords (a + 4) n r.2.2
    (if r.1 = eyOK then t.1 else r.1, leBytes 4 r.2.1 ++ t.2.1, t.2.2)

/-- REG_READ (R375): no data where an address is unassigned. -/
def execRegRead (q : Req) (addr count : Nat) (s : State) : Res :=
  s.eyelet q pvVIEW (fun s => s.on (fun d =>
    if count = 0 ∨ 256 < count then d.answer q eyMALFORMED []
    else
      let r := d.readWords addr count
      r.2.2.answer q r.1 (if r.1 = eyBAD_ADDR then [] else r.2.1)))

/-- Writes of consecutive words, up to the first not applied: its status, the words applied. -/
def Dev.writeWords (m : List Host.Cell) (a : Nat) : List Word → Nat → Dev → Nat × Nat × Dev
  | [], n, d => (eyOK, n, d)
  | w :: t, n, d =>
    let r := d.writeReg .eyelet a w m
    if r.2 = eyOK then Dev.writeWords m (a + 4) t (n + 1) r.1 else (r.2, n, r.1)

/-- REG_WRITE (R375). -/
def execRegWrite (q : Req) (addr : Nat) (ws : List Word) (s : State) : Res :=
  s.eyelet q pvENGINEER (fun s => s.on (fun d =>
    if ws.isEmpty ∨ 256 < ws.length then d.answer q eyMALFORMED []
    else
      let r := d.writeWords s.mem addr ws 0
      r.2.2.answer q r.1 (leBytes 2 r.2.1)))

/-! ### Memory (R78, R354, R373) -/

def Dev.readable (d : Dev) (a n : Nat) : Bool :=
  d.inTiles a n || (decide (0x100000000000 ≤ a) && decide (a + n ≤ d.dramEnd)) ||
    (decide (0x200000000000 ≤ a) && decide (a + n ≤ 0x200004000000))

/-- The DRAM address of bank group `g` (R25, R354). -/
def bankAt (g : Nat) : Nat := 0x100000000000 + g * 2 ^ 31

/-- The bank group that holds the checkpoint of a unit: one of its cluster's class (R25; log entry 97). -/
def Dev.ckptBank (d : Dev) (u : Nat) : Nat :=
  let own := d.cfg.own
  let gs := (List.range 32).filter (fun g => decide (nth 0 own.bgClass g = nth 0 own.clClass (u / 16)))
  nth 0 gs (Config.ckptGroup (u / 16) % max 1 gs.length)

/-- The address of a copy area in bank group `g`: two different eighths of it (R58; log entry 97). -/
def areaAt (g n : Nat) : Nat :=
  let a := Config.copyAreaAt 0 % 8
  bankAt g + (if n = 0 then a else (a + 1 + Config.copyAreaAt 1 % 7) % 8) * 2 ^ 28

/-- The address of the checkpoint of a tile (32·unit + logical tile) in bank group `g` (R25, R35; log entry 97). -/
def ckptTileAt (g t : Nat) : Nat := bankAt g + Config.ckptAt g % 128 * 2 ^ 24 + 1024 * (t % 16384)

/-- What stands in DRAM under the rim's own engines: the images in the two copy areas (R25, R58) and the tiles of complete checkpoints in bank
groups of their clusters' classes (R35), by first address. -/
def Dev.dramParts (d : Dev) : List (Nat × List Byte) :=
  d.areas.map (fun e => (areaAt e.2.1 e.1, e.2.2)) ++
  (d.ckpt.map (fun c => match c.2.complete with
    | some k => k.tiles.map (fun t => (ckptTileAt (d.ckptBank (t.1 / 32)) t.1, t.2))
    | none => [])).flatten

/-- A byte of memory as a reader finds it. -/
def Dev.seenByte (d : Dev) (m : List Host.Cell) (a : Nat) : Byte :=
  match d.dramParts.find? (fun p => decide (p.1 ≤ a) && decide (a < p.1 + p.2.length)) with
  | some p => nth 0 p.2 (a - p.1)
  | none => memGet m a

/-- MEM_READ (R373). -/
def execMemRead (q : Req) (addr len : Nat) (s : State) : Res :=
  s.eyelet q pvVIEW (fun s => s.on (fun d =>
    if len = 0 ∨ 1024 < len then d.answer q eyMALFORMED []
    else if d.readable addr len then d.answer q eyOK ((List.range len).map (fun i => d.seenByte s.mem (addr + i)))
    else d.answer q eyBAD_ADDR []))

/-- The request is answered when a unit's last held part is applied or dropped. -/
def Dev.tileOwe (q : Req) (u : Nat) (d : Dev) : Dev :=
  (d.taken q).unUp u (fun y =>
    { y with deferW := y.deferW.dropLast ++ (y.deferW.getLast?.map (fun e => (some (q.sess, q.seq), e.2))).toList })

/-- MEM_WRITE (R78, R373): the tile window only. -/
def Dev.memWrite (q : Req) (addr : Nat) (data : List Byte) (d : Dev) : Dev :=
  if data.isEmpty ∨ 1024 < data.length then d.answer q eyMALFORMED []
  else if !d.inTiles addr data.length then d.answer q eyBAD_ADDR []
  else
    let t0 := (addr - 0x10000000) / 1024
    let t1 := (addr + data.length - 1 - 0x10000000) / 1024
    let r := (List.range (t1 + 1 - t0)).foldl (fun a i => Dev.tilePut .eyelet addr data a (t0 + i)) (d, [], false)
    if r.2.2 then r.1.answer q eyIGNORED []
    else match r.2.1.getLast? with
      | some u => r.1.tileOwe q u
      | none => r.1

def execMemWrite (q : Req) (addr : Nat) (data : List Byte) (s : State) : Res :=
  s.eyelet q pvENGINEER (fun s => s.on (Dev.memWrite q addr data))

/-! ### Snapshots and network settings -/

/-- SNAP_LOCK (R281). -/
def execSnapLock (q : Req) (slot lock : Nat) (s : State) : Res :=
  s.eyelet q pvENGINEER (fun s => s.on (fun d =>
    if 63 < slot ∨ 1 < lock then d.answer q eyMALFORMED []
    else ({ d with snaps := Tbl.upd {} slot (fun x => { x with locked := decide (lock = 1) }) d.snaps } : Dev).answer q eyOK []))

/-- SNAP_CLEAR (R281): not while the slot is being written. -/
def execSnapClear (q : Req) (slot : Nat) (s : State) : Res :=
  s.eyelet q pvENGINEER (fun s => s.on (fun d =>
    if 63 < slot then d.answer q eyMALFORMED []
    else if d.frz.copy.map Prod.fst = some slot then d.answer q eyREFUSED []
    else ({ d with snaps := Tbl.del slot d.snaps } : Dev).answer q eyOK []))

/-- NETCFG_READ (R349). -/
def execNetcfgRead (q : Req) (s : State) : Res :=
  s.eyelet q pvVIEW (fun s => s.on (fun d => d.answer q eyOK d.netcfg))

/-- NETCFG_WRITE (R349): stored for the next system or power-on reset. -/
def execNetcfgWrite (q : Req) (data : List Byte) (s : State) : Res :=
  s.eyelet q pvOWNER (fun s => s.on (fun d => ({ d with netcfg := data } : Dev).answer q eyOK []))

end Sys2Proof.Machine
end

