-- ==== Sys2Proof/Machine/Control.lean ====
section
/-!
DEFINITION. The boundary of a cadence (R28 to R35, R80, R105 to R110), completions (R31, R67, R81) and the RUN and STOP commands (R377).
-/
namespace Sys2Proof.Machine

/-! ### Overruns (R34, R80, R163) -/

/-- End-of-life operation delay d(V), in 10 ps, by mV (R72). -/
def delayEol : Tbl Nat :=
  [(550, 340), (600, 255), (650, 200), (700, 162), (750, 135), (800, 116), (850, 102), (900, 92), (950, 84)]

/-- The slack of a unit stopped at a boundary (R80) after `ops` operations of the cycle. -/
def Dev.stopSlack (d : Dev) (u ops : Nat) : Int :=
  let p := (d.cfg.proof.units.find? (fun x => decide (x.unit = u))).getD { unit := u, cad := 0, n := 0, h := 0, x := 0, a := 0, vreq := 550 }
  let n := min ops p.n
  if ops = 0 then -(2 ^ 31)
  else -(max 1 (ceilDiv ((p.n - n) * Tbl.getD 340 delayEol p.vreq) 200) : Nat)

/-- A loop gets a pending HOLD of cause OVERRUN (R34, R133); it replaces one of another cause (log entry 114). -/
def Dev.holdLoops (u : Nat) (which : LoopCfg → Bool) (d : Dev) : Dev :=
  let cs := d.loopsOf u
  if cs.any which then
    let g (s : UnitSem) : UnitSem := { s with loops := Tbl.mapVals (fun i l => if which (nth {} cs i) then { l with pendHold := 1 } else l) s.loops }
    (d.unUp u (UnitSt.both g)).wf R.UNIT_STAT_HOLDM 1 u
  else d

/-- A loop reads a signal. -/
def LoopCfg.reads (c : LoopCfg) (sigs : List Nat) : Bool :=
  ([some c.pv, c.sp, c.ff, c.sch].filterMap id).any sigs.contains

/-- Third consecutive overrun (R34). -/
def Dev.thirdOverrun (u k : Nat) (d : Dev) : Dev :=
  match (d.un u).kind with
  | 1 => d.holdLoops u (fun _ => true)
  | 3 =>
    let d := (d.unUp u (fun x => { x with ovr3 := true })).wf R.UNIT_STAT_HOLDM 1 u
    d.raise Ev.AXIS_HELD u (leBytes 2 u ++ leBytes 8 k ++ [BitVec.ofNat 8 ((d.axesOf u).filter (fun c => decide (c.kind ≠ 0))).length])
  | 6 =>
    let sigs := d.unitSigs u
    ((d.cadUnits (d.un u).cad).filter (fun v => decide ((d.un v).kind = 1))).foldl (fun d v => d.holdLoops v (fun c => c.reads sigs)) d
  | _ => d

/-- The unit has not completed its cycle at boundary of cadence `n`: what it staged is gone; a unit that waits stops, one that
executes (the second component) goes on to the end of its sequence. `ops` are the operations that stopped units have executed in the cycle, by
unit. -/
def Dev.overrun (n : Nat) (ops : Tbl Nat) (d : Dev) (ue : Nat × Bool) : Dev :=
  let u := ue.1
  let exec := ue.2
  let x := d.un u
  let d := d.setUn u { x with staged := [], regw := [], scan := none, work := x.base, skipped := true, late := exec }
  let d := if exec then d else (d.slack u (d.stopSlack u (Tbl.getD 0 ops u))).setRun u 0
  let consec := min 3 (d.rf R.UNIT_OVR_CNT_CONSEC u + 1)
  let third := decide (consec = 3) && decide (d.rf R.UNIT_OVR_CNT_CONSEC u = 2)
  let d := ((d.wf R.UNIT_STAT_OVR 1 u).bump R.UNIT_OVR_CNT_TOTAL 1 u).wf R.UNIT_OVR_CNT_CONSEC consec u
  let d := (d.boostAsk (rgnOf u)).planTrigger (rgnOf u)
  let d := d.raise (if x.kind = 2 then Ev.LOGIC_OVERRUN else Ev.UNIT_OVERRUN) u (leBytes 2 u ++ leBytes 8 x.cycle)
  if x.kind = 2 then
    let p := d.partOf u
    let s := d.partSt p
    if s.st ≠ 1 then d else if s.strict then d.watchdog p u 1 (some n) else d.bump R.UNIT_LG_OVR_OVR 1 (d.lead p)
  else if third then d.thirdOverrun u x.cycle
  else d

/-- Units of a cadence that have not completed. -/
def Dev.overrunners (d : Dev) (n : Nat) : List Nat :=
  (d.cadUnits n).filter (fun u => decide ((d.un u).run = 1) && !(d.un u).done && !(d.un u).late)

/-! ### Step 1: latches (R28, R32, R110) -/

/-- What a completed unit staged becomes visible; its register writes commit. -/
def Dev.showUnit (m : List Host.Cell) (d : Dev) (u : Nat) : Dev :=
  let d := d.commitRegw u m
  let x := d.un u
  let d := x.staged.foldl (fun d s => (d.showSig s.sig s.v).stageOut u s.sig s.v.val) d
  d.unUp u (fun x => { x with staged := [], shown := x.base.objs })

/-- Signals of event-driven units that waited for the boundary of their output's cadence (R33). -/
def Dev.showWaiting (n : Nat) (d : Dev) : Dev :=
  let now := d.sigWait.filter (fun e => decide (d.outCad e.1 = some n))
  now.foldl (fun d e => d.showSig e.1 e.2) { d with sigWait := d.sigWait.filter (fun e => decide (d.outCad e.1 ≠ some n)) }

/-- The cadence at whose boundaries a signal of a unit is latched, by the Last's records, those of units left out among them: none within
for a signal that an event-driven unit shows at once, none without where no unit writes it. -/
def Dev.writerCad (d : Dev) (g : Nat) : Option (Option Nat) :=
  ((d.cfg.units ++ d.cfg.gone).find? (fun r => (d.cfg.writes r.kind r.unit).contains g)).map (fun r =>
    if !r.event then some r.cad
    else if r.kind = 2 then d.partCad (nth 0 r.kdata 0)
    else d.outCad g)

/-- Forces set or removed since act on the signals whose occasion a boundary of cadence `n` is, whether or not their writer has staged a value:
its latch for a written signal; a signal that nothing presents, an omitted unit's with no cadence of its own among them (R43), has its occasion
at any boundary (R167, R168). -/
def Dev.forceRefresh (n : Nat) (d : Dev) : Dev :=
  let ids := (d.forceTab.map (fun e => e.2.id) ++ d.forced.map Prod.fst).eraseDups
  let ins := (d.cfg.io.map (fun e => d.cfg.inSigs e.body)).flatten
  (ids.filter (fun g => match d.writerCad g with
    | some (some c) => decide (c = n)
    | some none => d.cfg.absent.contains g
    | none => !ins.contains g || d.cfg.absent.contains g)).foldl (fun d g => d.reForce g) d

/-- Event tasks of the partitions of a cadence show what their items left (R159). -/
def Dev.showTasks (n : Nat) (d : Dev) : Dev :=
  (d.evUnits.filter (fun u => decide ((d.un u).kind = 2) && decide (d.partCad (d.partOf u) = some n))).foldl (fun d u =>
    let x := d.un u
    let d := x.staged.foldl (fun d s => d.showSig s.sig s.v) d
    d.unUp u (fun x => { x with staged := [], shown := x.base.objs })) d

/-- The position, in steps, that an axis hands to its generator (R191): that of the setpoint, or of the one that a force gives, without what the
references have shifted the axis frame by (R188); on a modulo axis the value congruent to it that lies nearest the last one. -/
def Dev.stepPos (d : Dev) (c : AxisCfg) (a : AxisSt) (last : Int) : Int :=
  let l := (last + a.sOff) * qOne
  let x := match d.forceOf c.sSpos with
    | some w => extPos l w.toNat
    | none => if 0 < c.modulus then a.p + c.modulus * roundDiv (l - a.p) c.modulus.toNat else a.p
  qFloor x - a.sOff

/-- Step generators and choppers of a unit's axes latch their setpoints (R191, R192). -/
def Dev.latchAxes (d : Dev) (u : Nat) : Dev :=
  let x := d.un u
  let p := d.rf R.TIME_CADn_CFG_MULT 0 x.cad * 10000
  ((d.axesOf u).mapIdx (fun i c => (i, c))).foldl (fun d e =>
    let a := Tbl.getD {} x.base.axes e.1
    if e.2.dest = 2 then d.stepLatch e.2.destNo p (d.stepPos e.2 a (d.step e.2.destNo).target)
    else if e.2.dest = 3 then d.chopLatch e.2.destNo p (d.stepPos e.2 a (d.chop e.2.destNo).steps.target) (decide (a.st = 1)) a.enOut
    else d) d

/-- The latched signals of a unit that skipped the cycle repeat their values: HELD (R34, R71). -/
def Dev.holdSigs (d : Dev) (u : Nat) : Dev :=
  (d.unitSigs u).foldl (fun d s => match Tbl.get? d.sigs s with
    | some v => { d with sigs := Tbl.put s v.asHeld d.sigs }
    | none => d) d

/-- Overruns and the latches of one cadence. The second component collects the units that overran. -/
def Dev.boundaryLatch (m : List Host.Cell) (ops : Tbl Nat) (a : Dev × List Nat) (n : Nat) : Dev × List Nat :=
  let late := a.1.overrunners n
  let ran := (a.1.cad n).run
  let d := (late.map (fun u => (u, a.1.ready u))).foldl (Dev.overrun n ops) a.1
  let us := d.cadUnits n
  let d := (us.filter (fun u => (d.un u).done)).foldl (Dev.showUnit m) d
  let d := ((d.showTasks n).showWaiting n).forceRefresh n
  let d := (us.filter (fun u => decide ((d.un u).kind = 3) && (d.un u).done)).foldl Dev.latchAxes d
  let d := if ran then (us.filter (fun u => !(d.un u).done)).foldl Dev.holdSigs d else d
  let d := us.foldl (fun d u => d.unUp u (fun x => { x with done := false, skipped := x.skipped || (ran && !x.done) })) d
  (d, a.2 ++ late)

/-- The latches of a cadence take what waits for them; partitions that stop here stop; a stop of the Last goes its two steps
(R108, R160, R259). -/
def Dev.boundaryOutputs (d : Dev) (n : Nat) : Dev :=
  let c := d.cad n
  let parts := d.partsOf.filter (fun p => decide (d.partCad p = some n))
  if c.stopping && !c.firstLatch then
    let d := (d.safeNow (fun e => decide (e.cad = some n))).holSafe (some n)
    let d := (d.canSafe n).ethFill n 2
    let d := (d.setCad n (fun c => { c with stopping := false, run := false })).dxUp (fun x => { x with leaving := x.leaving.filter (· ≠ n) })
    (parts.filter (fun p => decide ((d.partSt p).st ≠ 0))).foldl (fun d p => d.partHalt p 0 (some n)) d
  else
    let d := (parts.filter (fun p => (d.partSt p).stopPend)).foldl (fun d p => d.partHalt p 0 (some n)) d
    let d := d.latchCad n
    if c.stopping then (parts.filter (fun p => decide ((d.partSt p).st ≠ 0))).foldl (fun d p => d.partHalt p 0 none) d
    else d

/-! ### Steps 4 to 6 (R110) -/

/-- Signal numbers under which units name sampled words of the rim: input groups, counters, the island's words (log entry 24). -/
def rimSig (i : Nat) : Nat := 0x100000 + i

/-- The supplies of every pin of an input group are good (R497). -/
def Dev.groupOk (d : Dev) (g : Nat) : Bool :=
  (List.range 8).all (fun b => decide (24 * b + 24 ≤ 32 * g) || decide (32 * g + 32 ≤ 24 * b) || bitAt (d.rf R.PWR_SUPPLY_VDDIO_OK) b)

/-- Digital inputs and the island's picture are sampled (R110 step 4, R252, R254, R424, R427). -/
def Dev.boundaryInputs (d : Dev) (n : Nat) : Dev :=
  let put (i v : Nat) (st : Byte) (d : Dev) : Dev := d.showSig (rimSig i) { val := BitVec.ofNat 32 v, st := st }
  let d := (List.range 6).foldl (fun d g => put g (d.inWord g) (mkStatus (d.groupOk g) 0 false false false false) d) d
  let d := (List.range 192).foldl (fun d p => put (0x100 + p) (d.rf R.DIO_CNTn_COUNT 0 p) stOk d) d
  let st := mkStatus (d.flag R.SAFE_STAT_LINK) 0 false false false false
  let d := put 0x200 (d.rf R.SAFE_SIN) st d
  let d := put 0x201 (d.rf R.SAFE_SOUT) st d
  let d := put 0x202 (d.rf R.SAFE_FUNCSUM) st d
  let d := (List.range 32).foldl (fun d f => put (0x203 + f) (d.rf R.SAFE_FUNCf 0 f) st d) d
  d.cfg.io.foldl (fun d e =>
    if e.cad ≠ some n then d
    else match e.body with
      | .dio p _ sig => if d.isOut p then d else d.showSig sig { val := BitVec.ofNat 32 (bitsOf (d.inWord (p / 32)) (p % 32) 1),
                                                                        st := mkStatus (d.groupOk (p / 32)) 0 false false false false }
      | .safeLreq w sig => d.wf R.SAFE_LREQi (d.sig sig).val.toNat 0 w
      | _ => d) d

/-- Receive buffers freeze (R110 step 5). -/
def Dev.boundaryFreeze (d : Dev) (n : Nat) : Dev := ((d.holFreeze n).canFreeze n).ethFreeze n

/-- Latched values enter the transmit buffers (R110 step 6): the Last has latched values of its own, or the port image of a takeover;
in a core reset the ports repeat them (R352). -/
def Dev.boundaryFill (d : Dev) (n : Nat) : Dev :=
  let c := d.cad n
  if c.run || c.img then
    let d := ((d.holFill n).canFill n).ethFill n 0
    let d := if c.img && !c.run then d.coveredSegs.foldl (fun d s => d.segHold s) d else d
    d.setCad n (fun c => { c with img := false, run := c.run && !c.stopping, firstLatch := false })
  else
    let d := d.setCad n (fun c => { c with firstLatch := false })
    if d.rst.safe || (decide (d.lastState = lsSTOPPED) && !c.stopping && d.rst.holdFrom.isNone) then d.ethFill n 2 else if d.rst.holdFrom.isSome then d.ethFill n 1 else d

/-! ### Step 7: tokens -/

/-- The cadence issues tokens at this boundary (R108). -/
def Dev.released (d : Dev) (n : Nat) : Bool :=
  let c := d.cad n
  d.running && !c.deferred && !c.halt && (match c.ref with | some r => decide (r < d.time.cnt) | none => false)

/-- Units of a cadence in the order of their ranks (R30). -/
def Dev.byRank (d : Dev) (n : Nat) : List Nat :=
  ((List.range 16).map (fun o => (d.cadUnits n).filter (fun u => decide ((d.un u).order = o)))).flatten

/-- A checkpoint that was not copied before the boundary is not complete (R35). -/
def Dev.ckptDrop (n : Nat) (d : Dev) : Dev :=
  { d with ckpt := (Tbl.upd {} n (fun s => if s.copied then s else { s with pend := none }) d.ckpt) }

/-- The cadence whose boundaries sample a history signal (R278): of the unit that writes it, or of its IOMAP entry; for any other the lowest-numbered
cadence in use (log entry 107). -/
def Dev.histCad (d : Dev) (sig : Nat) : Option Nat :=
  match d.cfg.units.find? (fun r => !r.event && (d.cfg.writes r.kind r.unit).contains sig) with
  | some r => some r.cad
  | none => match d.cfg.io.find? (fun e => e.body.sigs.contains sig && e.cad.isSome) with
    | some e => e.cad
    | none => d.usedCads.head?

/-- A cadence that issues tokens samples its history signals, as they are visible then (R278). -/
def Dev.histSample (d : Dev) (n : Nat) : Dev :=
  if !d.released n then d
  else
    let c := d.cad n
    (d.cfg.sigs.filter (fun s => s.history && decide (d.histCad s.id = some n))).foldl
      (fun d s => d.histTake s.id (d.cadNs n c.k) (d.rf R.TIME_CADn_CFG_MULT 0 n * 10000) (!c.run)) d

/-- Start tokens of a cadence; the first one sets it running. -/
def Dev.boundaryTokens (m : List Host.Cell) (late : List Nat) (d : Dev) (n : Nat) : Dev :=
  let d := d.assertSrc (1984 + n) []
  if !d.released n then d
  else
    let c := d.cad n
    let d := if c.run then d else ((d.setCad n (fun c => { c with run := true })).wf R.TIME_CADn_STAT_RUN 1 0 n).wf R.TIME_CADn_STAT_WAIT 0 0 n
    let d := d.setCad n (fun c => { c with res := c.res - 1 })
    (d.byRank n).foldl (fun d u =>
      if decide ((d.un u).run = 0) && !late.contains u && !(d.un u).restoring then d.token (d.cad n).k m u else d) d

/-- Every used cadence has latched outputs since the resume: it is complete (R462 step 5). -/
def Dev.resumeCheck (d : Dev) : Dev :=
  if d.rst.resume && d.running && d.usedCads.all (fun n => decide ((d.cad n).res = 0)) then
    { d with rst := { d.rst with resume := false, holdFrom := none } }
  else d

/-- The boundaries that fall now: used cadences of the mask whose cycle number has moved on (R106). -/
def Dev.due (d : Dev) (mask : Nat) : List Nat :=
  d.usedCads.filter (fun n => bitAt mask n && decide (d.rf R.TIME_CADn_CFG_MULT 0 n ≠ 0) && decide (d.cadReach n ≠ (d.cad n).b))

/-- CADENCE_BOUNDARY (R28, R107, R110): every action for all cadences of the tick, in ascending cadence number, before the next one.
-/
def Dev.boundary (mask : Nat) (env : BoundaryEnv) (dm : Dev × List Host.Cell) : Dev × List Host.Cell :=
  let dm := (dm.1.cmpReleases, dm.2)
  let ns := dm.1.due mask
  let reach (d : Dev) (n : Nat) : Dev :=
    (d.setCad n (fun c => { c with b := d.cadReach n, k := d.cadIdx n, ptick := c.tick, tick := d.time.cnt })).wf R.TIME_CADn_CYC_CYC
      (d.cadIdx n % 2 ^ 32) 0 n
  let d := ns.foldl reach dm.1
  let r := ns.foldl (fun dm n => Dev.bnOn n dm) (d, dm.2)
  let m := r.2
  let a := ns.foldl (Dev.boundaryLatch m env.ops) (r.1, [])
  let d := ns.foldl Dev.boundaryOutputs a.1
  let d := ns.foldl (fun d n => d.pwmSync n) d
  let d := ns.foldl (fun d n => d.cadWindows n) d
  let d := ns.foldl (fun d n => d.presentWords n) d
  let d := ns.foldl Dev.boundaryInputs d
  let d := ns.foldl Dev.boundaryFreeze d
  let d := ns.foldl Dev.boundaryFill d
  let d := ns.foldl (fun d n => d.ckptDrop n) d
  let d := ns.foldl Dev.histSample d
  let s := Dev.struck env.flips (d, m)
  let d := ns.foldl (Dev.boundaryTokens s.2 a.2) s.1
  (ns.foldl (fun d n => d.copyLag n) d.takeCheck.resumeCheck, s.2)

def execCadenceBoundary (mask : Nat) (env : BoundaryEnv) (s : State) : Res :=
  if mask < 256 then s.onMem (fun d m => Dev.boundary mask env (d, m)) else .refused .badOperand

/-! ### Completions -/

/-- UNIT_COMPLETION: when the copy of a cycle starts, the changed tiles go to the partner (R389). Bits that the environment upsets in tile memory before it
(`flips` of the command; log entry 11) are seen by the check of a shadow (R77). -/
def Dev.unitDone (u : Nat) (tiles : List (Nat × List Byte)) (dm : Dev × List Host.Cell) : Dev × List Host.Cell :=
  let x := dm.1.un u
  let n := x.cad
  let pend (d : Dev) : Option Nat := (Tbl.getD {} d.ckpt n).pend.map (·.k)
  let bad := if x.run = 1 && !x.event && !x.done && (x.late || (dm.1.ready u && !x.scanning)) then dm.1.shadowBad dm.2 u tiles else none
  let r := match bad with
    | some t => (dm.1.shadowFail u t, dm.2)
    | none => Dev.complete u tiles dm
  if pend r.1 ≠ pend dm.1 then (r.1.copySend n, r.2) else r

def execUnitCompletion (u : Nat) (tiles : List (Nat × List Byte)) (flips : List (Nat × Byte)) (s : State) : Res :=
  if u < s.dev.nUnits then s.onMem (fun d m => Dev.unitDone u tiles (Dev.struck flips (d, m))) else .refused .badOperand

/-- ITEM_COMPLETION: the item's register writes commit at this tick (R365). Eyelet's write of one of these words in the tick would have to be
answered BUSY (R27): after one the item completes at a later tick (log entry 60). -/
def Dev.itemDone (u : Nat) (tiles : List (Nat × List Byte)) (dm : Dev × List Host.Cell) : Dev × List Host.Cell :=
  if dm.1.outWrote u then dm else
  let r := Dev.itemComplete u tiles dm
  if (dm.1.un u).item.isSome && (r.1.un u).item.isNone then (r.1.commitRegw u r.2, r.2) else r

def execItemCompletion (u : Nat) (tiles : List (Nat × List Byte)) (flips : List (Nat × Byte)) (s : State) : Res :=
  if u < s.dev.nUnits then s.onMem (fun d m => Dev.itemDone u tiles (Dev.struck flips (d, m))) else .refused .badOperand

/-! ### RUN and STOP (R377, R393, R481) -/

/-- RUN: only in STOPPED, and for a duplex Last only in a role that runs. While a resume record waits the release waits for it, as AUTOSTART's
does (R467; log entry 41). -/
def execRun (q : Req) (s : State) : Res :=
  s.eyelet q pvOPERATE (fun s => s.on (fun d =>
    if d.lastState = lsSTOPPED ∧ d.mayRun = true ∧ d.rst.lcPend = false ∧ d.rst.resume = false then
      if d.rst.plrWait then ({ d with rst := { d.rst with plrRun := true } } : Dev).answer q eyOK []
      else ({ d.runLast with rst := { d.rst with safe := false, holdFrom := none } } : Dev).answer q eyOK []
    else d.answer q eyREFUSED []))

/-- STOP: only in RUNNING. -/
def execStop (q : Req) (s : State) : Res :=
  s.eyelet q pvOPERATE (fun s => s.on (fun d => if d.running then d.stopLast.answer q eyOK [] else d.answer q eyREFUSED []))

end Sys2Proof.Machine
end

