-- ==== Sys2Proof/Machine/LastStruct.lean ====
section
/-!
DEFINITION. Step 6 of a load (R59): the structure rules that the chapters lay on a Last; a Last that breaks one is BAD_STRUCT.
The tests read the image alone, so they are the same on every variant.
-/
namespace Sys2Proof.Machine

/-! ### Helpers -/

def noDup {α : Type} [DecidableEq α] (l : List α) : Bool := decide (l.eraseDups.length = l.length)

def rises : List Nat → Bool
  | a :: b :: r => decide (a < b) && rises (b :: r)
  | _ => true

/-- The named stretches of each of n records are zero. -/
def recsZero (b : List Byte) (off n len : Nat) (zs : List (Nat × Nat)) : Bool :=
  (List.range n).all (fun i => zs.all (fun z => allZero b (off + i * len + z.1) z.2))

/-! ### Resources (R41, R43) -/

def LastRec.lists (l : LastRec) (rtype n : Nat) : Bool :=
  l.res.any (fun r => decide (r.rtype = rtype) && decide (r.first ≤ n) && decide (n < r.first + r.count))

def LastRec.refOk (l : LastRec) (ref : Nat) : Bool := decide (ref = 0xFFFF) || decide (ref < l.res.length)

def LastRec.resOk (l : LastRec) (im : List Byte) : Bool :=
  let b := (secBytes im stRES).getD []
  decide (l.res.length ≤ 1024) &&
  (List.range l.res.length).all (fun i => decide (byteAt b (8 * i + 1) < 2) && allZero b (8 * i + 6) 2) &&
  l.res.all (fun r => inR 1 r.rtype 11 && decide (1 ≤ r.count))

/-! ### Units, clusters and tiles (R9, R14, R16, R30, R46, R47, R114, R172, R198, R263) -/

def LastRec.unitRec (l : LastRec) (u : Nat) : Option UnitRec := l.units.find? (fun x => decide (x.unit = u))

/-- A signal that descriptors may name: one of the SIGNAL section, or a word of the rim (R46; log entry 24). -/
def LastRec.hasSig (l : LastRec) (s : Nat) : Bool := decide (2 ^ 20 ≤ s) || l.sigs.any (fun r => decide (r.id = s))

/-- A unit kind may lie in a cluster of a class (R14). -/
def kindIn (cls kind : Nat) : Bool :=
  match cls with
  | 1 => kind = 1 || kind = 6
  | 2 => kind = 2 || kind = 6
  | 3 => kind = 3 || kind = 6
  | 4 => kind = 4
  | 5 => kind = 5 || kind = 6
  | 6 => kind = 6
  | _ => false

def UnitRec.kd (u : UnitRec) (i : Nat) : Nat := nth 0 u.kdata i

/-- Kind data in range, unused bytes zero (R46). -/
def UnitRec.kdataOk (u : UnitRec) : Bool :=
  let zeroFrom (n : Nat) : Bool := (u.kdata.drop n).all (· = 0)
  match u.kind with
  | 1 => inR 1 (u.kd 0) 64 && decide (u.kd 1 < 32) && zeroFrom 2
  | 2 => decide (u.kd 0 < 32) && decide (u.kd 2 ≤ 8) && decide (u.kd 3 < 2) && zeroFrom 4 && (decide (u.kd 2 ≠ 0) == u.event)
  | 3 => inR 1 (u.kd 0) 16 && zeroFrom 1
  | 4 => inR 1 (u.kd 0) 4 && zeroFrom 1
  | 5 => inR 1 (u.kd 0) 4 && zeroFrom 1
  | _ => zeroFrom 0

/-- Ranks by kind (R30); kinds that serve only a cadence (R172, R199, R264). -/
def UnitRec.rankOk (u : UnitRec) : Bool :=
  if u.event then (decide (u.kind = 1) || decide (u.kind = 2) || decide (u.kind = 6)) && decide (u.cad = 0)
  else match u.kind with
    | 6 => decide (u.order = 0)
    | 5 => decide (u.order = 15)
    | _ => inR 1 u.order 15

def LastRec.period (l : LastRec) (c : Nat) : Nat := (nth { mult := 0, phase := 0, waitLock := false, timeout := 0 } l.cads c).mult

def LastRec.unitOk (l : LastRec) (u : UnitRec) : Bool :=
  inR 1 u.kind 6 && decide (u.unit < 512) && l.refOk u.resref && l.lists 0x0B u.unit && u.kdataOk && u.rankOk &&
  kindIn (nth 0 l.own.clClass (u.unit / 16)) u.kind && (u.event || decide (l.period u.cad ≠ 0)) &&
  (decide (u.kind ≠ 4) || decide (l.period u.cad % 100 = 0)) &&
  (decide (u.kind ≠ 1) || u.event || decide (l.period u.cad ≠ 1) || decide (u.kd 0 ≤ 48))

/-- Units of a kind on a die. -/
def LastRec.onDie (l : LastRec) (kind die : Nat) : Nat :=
  (l.units.filter (fun u => decide (u.kind = kind) && decide (u.unit / 256 = die))).length

/-- Cadences served in a region (R16). -/
def LastRec.rgnCads (l : LastRec) (g : Nat) : List Nat :=
  ((l.units.filter (fun u => decide (u.unit / 64 = g) && !u.event)).map (·.cad)).eraseDups

def LastRec.unitsOk (l : LastRec) (im : List Byte) : Bool :=
  let b := (secBytes im stUNIT).getD []
  rises (l.units.map (·.unit)) && l.units.all l.unitOk && l.units.all (fun u => (l.reads u.kind u.unit ++ l.writes u.kind u.unit).all l.hasSig) && recsZero b 16 l.units.length 16 [(6, 2)] &&
  (List.range 2).all (fun g => decide (l.onDie 1 g ≤ 64) && decide (l.onDie 3 g ≤ 16) && decide (l.onDie 4 g ≤ 16) &&
    decide (l.onDie 5 g ≤ 16)) &&
  (List.range 8).all (fun g => decide ((l.rgnCads g).length ≤ 4))

/-- Tile layouts that a kind fixes (R174, R200, R264): the class of a logical tile, and from which tile on the rest is zero CONST. -/
def fixedCls (kind i : Nat) : Option Nat :=
  match kind with
  | 3 => some (if i < 5 then 1 else if i < 8 then 2 else if i < 11 then 3 else 1)
  | 4 => some (if i < 2 then 1 else if i < 23 then 2 else if i < 31 then 3 else 1)
  | 5 => some (if i < 2 then 1 else if i = 2 then 2 else if i < 7 then 3 else 1)
  | _ => none
def fixedRest (kind : Nat) : Nat := match kind with | 3 => 11 | 4 => 31 | 5 => 7 | _ => 32

/-- A tile record follows the layout of its unit's kind (R174, R200, R264); the zero tiles of a PROFILE or SEQ unit are never VERIFY_EACH. -/
def LastRec.tileLayoutOk (l : LastRec) (im : List Byte) (t : TileRec) : Bool :=
  match l.unitRec t.unit with
  | none => false
  | some u =>
    (match fixedCls u.kind t.lidx with | some c => decide (t.cls = c) | none => true) &&
    (decide (t.lidx < fixedRest u.kind) || ((!t.verify || decide (u.kind = 5)) &&
      (decide (t.img = 0xFFFF) || allZero im (tileImgOff im t.img) 1024)))

/-- The 32 tiles of each used unit, in its own cluster, at most 16 of them STATE (R10, R47, R77), laid out as its kind says. -/
def LastRec.tilesOk (l : LastRec) (im : List Byte) : Bool :=
  let b := (secBytes im stTILE).getD []
  let nimg := hdAux b
  (List.range l.tiles.length).all (fun i => decide (byteAt b (16 + 8 * i + 3) < 8)) &&
  l.tiles.all (fun t => (l.unitRec t.unit).isSome && decide (t.lidx < 32) && inR 1 t.cls 3 && decide (t.ptile < 512) &&
    (decide (t.img = 0xFFFF) || decide (t.img < nimg)) && l.tileLayoutOk im t) &&
  noDup (l.tiles.map (fun t => 32 * t.unit + t.lidx)) && noDup (l.tiles.map (fun t => 512 * (t.unit / 16) + t.ptile)) &&
  l.units.all (fun u =>
    let ts := l.tiles.filter (fun t => decide (t.unit = u.unit))
    decide (ts.length = 32) && decide ((ts.filter (fun t => decide (t.cls = 3))).length ≤ 16))

/-! ### Cadences and flows (R48, R49, R81 to R83, R105) -/

/-- Cadences. The spec gives PHASE of an unused one (MULT 0) no range: the model asks for zero (log entry 91). -/
def LastRec.cadsOk (l : LastRec) (im : List Byte) : Bool :=
  let b := (secBytes im stCAD).getD []
  l.cads.all (fun c => decide (c.mult ≤ 100000) && decide (c.phase < max 1 (c.mult * 1000)) && decide (c.timeout ≤ 600)) &&
  (List.range 8).all (fun i => decide (byteAt b (16 + 16 * i + 8) < 2)) && recsZero b 16 8 16 [(9, 1), (12, 4)] &&
  [0, 2, 3].contains (byteAt b 144) && decide (byteAt b 145 < 24) && decide (byteAt b 146 < 2) && allZero b 147 13

/-- An event source that some block asserts (R83). -/
def srcAssigned (n : Nat) : Bool :=
  inR 0 n 191 || inR 1792 n 1815 || inR 1824 n 1847 || inR 1856 n 1871 || inR 1920 n 1991

def LastRec.flowsOk (l : LastRec) (im : List Byte) : Bool :=
  let b := (secBytes im stFLOW).getD []
  let nf := l.flows.length
  let lv (i : Nat) : LevelRec := Tbl.getD { quota := 0, ringlog := 0, cls := 0, bank := 0 } l.levels i
  l.levels.all (fun e => decide (e.2.quota ≤ 8192) && (decide (e.2.ringlog = 0) || inR 10 e.2.ringlog 24) && decide (e.2.cls ≤ 6) &&
    (decide (e.2.ringlog = 0) || (decide (e.2.bank < 32) && decide (nth 0 l.own.bgClass e.2.bank = e.2.cls)))) &&
  (List.range 2).all (fun g => decide (((List.range 16).map (fun i => (lv (16 * g + i)).quota)).sum ≤ 8192)) &&
  (List.range 2).all (fun g => decide (((List.range 16).map (fun i =>
    if (lv (16 * g + i)).ringlog = 0 then 0 else 2 ^ (lv (16 * g + i)).ringlog)).sum ≤ 2 ^ 24)) &&
  recsZero b 16 l.levels.length 8 [(5, 3)] && recsZero b 272 nf 16 [(5, 3), (14, 2)] && recsZero b (272 + 16 * nf) l.binds.length 8 [(5, 3)] &&
  l.flows.all (fun f => decide (f.flow < 4096) && decide (f.die < 2) && decide (f.level < 16) && decide (f.cluster < 32) &&
    decide (f.cluster / 16 = f.die) && l.refOk f.resref && decide ((lv (16 * f.die + f.level)).cls = nth 0 l.own.clClass f.cluster)) &&
  noDup (l.flows.map (fun f => (f.die, f.flow))) &&
  l.binds.all (fun x => srcAssigned x.src && l.flows.any (fun f => decide (f.die = x.die) && decide (f.flow = x.flow)) &&
    decide ((l.binds.filter (fun y => decide (y.src = x.src))).length ≤ 4))

/-! ### Ownership (R24, R25, R50, R339, R433) -/

def LastRec.ownOk (l : LastRec) (im : List Byte) : Bool :=
  let b := ((secBytes im stOWN).getD []).drop 16
  let o := l.own
  decide (byteAt b 0 < 2) && decide (o.react ≤ 2) && decide (o.resv ≤ 10) && inR 10 o.boostMv 150 && inR 1 o.missN 15 &&
  inR 1 o.hoLead 1000 && inR 1 o.pairWait 600 && decide (o.svcGrp < 32) && decide (nth 0 o.bgClass o.svcGrp = 7) &&
  allZero b 0x0B 5 && allZero b 0x70 16 && allZero b 0xD4 12 &&
  o.clClass.all (fun c => decide (c ≤ 6)) && o.bgClass.all (fun c => decide (c ≤ 7)) && o.qclass.all (fun c => decide (c ≤ 7)) &&
  o.clClass.all (fun c => decide (c = 0) || o.bgClass.contains c) &&
  (List.range 32).all (fun n => decide (nth 0 o.bgClass n = 0) || l.lists 0x0A n) &&
  (List.range 8).all (fun n => decide (nth 0 o.mgmtq n < 8) && decide (nth 0 o.ptpq n < 8) && (!l.lists 0x06 (n / 2) ||
    (decide (nth 0 o.qclass (8 * n + nth 0 o.mgmtq n) = 7) && decide (nth 0 o.qclass (8 * n + nth 0 o.ptpq n) = 7)))) &&
  decide (o.floors.sum + o.pbaseDecl ≤ 95000) && decide (o.burst.length ≤ 64) && decide (o.frz.length ≤ 64) &&
  o.burst.all (fun e => decide (1 ≤ e.2)) && recsZero b 0xE0 o.burst.length 4 [(3, 1)] &&
  allZero b (0xE0 + 4 * o.burst.length + 2 * o.frz.length) (padTo8 (2 * o.frz.length) - 2 * o.frz.length)

/-! ### Mapping (R51, R226, R243, R256 to R258, R365) -/

/-- The resource that a mapping entry uses, if one is listed for its kind (R41, R43). -/
def IoBody.resource : IoBody → Option (Nat × Nat)
  | .ain n _ _ _ _ _ => some (3, n / 16)
  | .adcBank b _ _ _ => some (3, b)
  | .aout c _ _ => some (4, c)
  | .chopper c _ _ => some (5, c)
  | .ethTx p _ _ _ _ _ _ => some (6, p / 2)
  | .ethRx p _ _ _ _ _ _ _ _ _ => some (6, p / 2)
  | .holField s _ _ _ => some (7, s)
  | .canField c _ _ _ => some (8, c)
  | _ => none

/-- What an entry maps, by kind and number: no two entries map the same thing (R51). -/
def IoBody.maps : IoBody → Option (Nat × Nat)
  | .ain n _ _ _ _ _ => some (2, n)
  | .adcBank b _ _ _ => some (3, b)
  | .aout c _ _ => some (4, c)
  | .dio p _ _ => some (5, p)
  | .pwm c _ _ _ _ => some (6, c)
  | .stepgen g _ => some (7, g)
  | .chopper c _ _ => some (8, c)
  | .grant _ a => some (9, a)
  | .safeLreq w _ => some (14, w)
  | _ => none

/-- The bank is set to low power by its ADC_BANK entry. -/
def LastRec.lowPower (l : LastRec) (bank : Nat) : Bool :=
  l.io.any (fun e => match e.body with | .adcBank b c _ _ => decide (b = bank) && decide (R.ADC_BANK_CFG_LP.of c = 1) | _ => false)

/-- A channel's windows are within the limits of R226. -/
def LastRec.ainOk (l : LastRec) (n : Nat) (ctl wlen : Word) : Bool :=
  let lp := l.lowPower (n / 16)
  let w := wlen.toNat
  match R.ADC_CHn_CTL_MODE.of ctl with
  | 0 => inR (if lp then 4 else 1) (l.period (R.ADC_CHn_CTL_ALIGN.of ctl)) 10000
  | 2 => true
  | _ => inR (if lp then 1000 else 250) w 2500000

/-- The control words and window length of an analogue input. -/
def LastRec.ainWords (l : LastRec) (n : Nat) : Option (Word × Word) :=
  l.io.findSome? (fun e => match e.body with | .ain m c w _ _ _ => if m = n then some (c, w) else none | _ => none)

/-- Declared pairs agree in their settings, and a channel is in at most one (R243). -/
def LastRec.pairsOk (l : LastRec) (bank : Nat) (pairs : List Word) : Bool :=
  let on := pairs.filter (fun p => decide (R.ADC_PAIRp_EN.of p = 1))
  noDup ((on.map (fun p => [R.ADC_PAIRp_CHA.of p, R.ADC_PAIRp_CHB.of p])).flatten) &&
  on.all (fun p => match l.ainWords (16 * bank + R.ADC_PAIRp_CHA.of p), l.ainWords (16 * bank + R.ADC_PAIRp_CHB.of p) with
    | some a, some b => [R.ADC_CHn_CTL_RANGE, R.ADC_CHn_CTL_MODE, R.ADC_CHn_CTL_ALIGN, R.ADC_CHn_CTL_AVG, R.ADC_CHn_CTL_NMAINS].all
        (fun f => decide (f.of a.1 = f.of b.1)) && decide (a.2 = b.2)
    | _, _ => false)

/-- A grant names a base word that may be granted (R365). -/
def LastRec.grantOk (l : LastRec) (u a : Nat) : Bool :=
  (l.unitRec u).isSome && decide (a % 4 = 0) &&
  (match regAt a with
    | some (b, _, r) => grantable b && !r.hasRwl && !(decide (b = .adc) && decide (a % 0x10000 = R.ADC_CAL_CMD_BANKCAL.off)) &&
        decide (a % 0x10000 < 0x8000)
    | none => false) &&
  decide ((l.io.filter (fun e => match e.body with | .grant v _ => decide (v = u) | _ => false)).length ≤ 16)

/-- A physical output, which belongs to exactly one cadence (R33): an analogue output, a PWM channel, a pin of direction out. -/
def IoBody.physOut : IoBody → Bool
  | .aout _ _ _ => true
  | .pwm _ _ _ _ _ => true
  | .dio _ w _ => inR 1 (R.DIO_PINn_CFG_DIRM.of w) 2
  | _ => false

/-- OWNER is a writer class for what an entry puts out and INPUT for what it takes in (R51). An exclusive slot of a Holup or CAN schedule and an
egress queue belong to the class of what is sent there (R24). -/
def LastRec.ownerOk (l : LastRec) (e : IoEntry) : Bool :=
  match e.body with
  | .ethTx p q _ _ _ _ _ => ownerIn e.owner (nth 0 l.own.qclass (8 * p + q))
  | .holField s dr i _ => (match (Tbl.getD {} l.hol s : HolSched).descs[i]? with
    | some x => if l.holIn s dr then decide (e.owner = 0) else decide (e.owner ≠ 0) && (decide (x.kind = 2) || ownerIn e.owner x.cls)
    | none => false)
  | .canField c 0 b _ => e.owner ≠ 0 && (Tbl.getD [] l.can c).all (fun w => !w.excl || decide (w.buf ≠ some b) || ownerIn e.owner w.cls)
  | .ain _ _ _ _ _ _ => decide (e.owner = 0)
  | .ethRx _ _ _ _ _ _ _ _ _ _ => decide (e.owner = 0)
  | .aout _ _ _ => decide (e.owner ≠ 0)
  | .pwm _ _ _ _ _ => decide (e.owner ≠ 0)
  | .dio _ _ _ => decide (e.owner ≠ 0) == e.body.physOut
  | .canField _ _ _ _ => decide (e.owner = 0)
  | _ => true

def FieldEl.ok (f : FieldEl) : Bool := decide (f.fmt ≤ 3) && (if f.fmt = 3 then decide (f.width = 0) else [1, 2, 4].contains f.width)

def LastRec.ioBodyOk (l : LastRec) : IoBody → Bool
  | .global h _ dv nh _ _ _ _ pre post => inR 1 h 60000 && decide (dv < 64) && decide (nh ≤ 2) && inR 1 pre 3600 && inR 1 post 3600
  | .ain n c w _ _ _ => decide (n < 256) && l.ainOk n c w
  | .adcBank b _ _ ps => decide (b < 16) && l.pairsOk b ps
  | .aout c _ _ => decide (c < 64)
  | .dio p cfg _ => decide (p < 192) && decide (R.DIO_PINn_CFG_DIRM.of cfg < 3) && decide (R.DIO_PINn_CFG_FE.of cfg < 6) && decide (R.DIO_PINn_CFG_FM.of cfg < 10)
  | .pwm c cfg per _ _ => decide (c < 32) && inR 20 per.toNat 16777215 && decide (R.PWM_CHn_CFG_PIN.of cfg < 192) &&
      (decide (R.PWM_CHn_CFG_SYNC.of cfg = 0) || (decide (R.PWM_CHn_CFG_SPREAD.of cfg = 0) &&
        decide (l.period (R.PWM_CHn_CFG_CAD.of cfg) ≠ 0) && decide (l.period (R.PWM_CHn_CFG_CAD.of cfg) * 1000 % per.toNat = 0)))
  | .stepgen g cfg => decide (g < 32) && decide (R.DIO_SGn_CFG_STEP.of cfg < 192) && decide (R.DIO_SGn_CFG_DIR.of cfg < 192)
  | .chopper c _ _ => decide (c < 32)
  | .grant u a => l.grantOk u a
  | .ethTx p q _ _ _ _ fs => decide (p < 8) && decide (q < 8) && fs.all FieldEl.ok
  | .ethRx p _ _ _ _ _ _ _ _ fs => decide (p < 8) && fs.all FieldEl.ok
  | .holField s dr i fs => decide (s < 24) && decide (dr < 2) && decide (i < 512) && fs.all FieldEl.ok
  | .canField c dr b fs => decide (c < 12) && decide (dr < 2) && decide (b < 64) && fs.all FieldEl.ok
  | .safeLreq w s => decide (w < 8) && l.sigs.any (fun r => decide (r.id = s) && decide (r.typ = 2))
  | .armgrp g m lead ls => decide (g < 65535) && inR 2 m 32 && decide (ls.length ≤ m) && inR 1 lead 65535 &&
    decide ((ls.filter Prod.snd).length ≤ 1) && ls.all (fun x =>
    match (l.ranked 5)[x.1 / 4]? with
    | some u => (match l.unitRec u with | some r => decide (x.1 % 4 < r.kd 0) | none => false)
    | none => false)

def LastRec.ioOk (l : LastRec) (im : List Byte) : Bool :=
  let raw := ioEntries im
  decide (raw.length = l.io.length) && decide ((l.io.filter (fun e => decide (e.kind = 1))).length = 1) &&
  raw.all ioRawOk &&
  l.io.all (fun e => l.refOk e.resref && decide (e.owner ≤ 7) && l.ioBodyOk e.body && l.ownerOk e &&
    e.body.sigs.all l.hasSig && (!e.body.physOut || e.cad.isSome) &&
    (match e.body.resource with | some r => l.lists r.1 r.2 | none => true) &&
    (match e.cad with | some c => decide (l.period c ≠ 0) | none => true)) &&
  noDup (l.io.filterMap (fun e => e.body.maps)) &&
  (List.range 16).all (fun b => !l.io.any (fun e => match e.body with | .ain n _ _ _ _ _ => decide (n / 16 = b) | _ => false) ||
    l.io.any (fun e => match e.body with | .adcBank k _ _ _ => decide (k = b) | _ => false))

/-! ### Routes and signals (R30, R52, R68, R278) -/

def LastRec.routeOk (l : LastRec) (r : RouteRec) : Bool :=
  match l.unitRec r.src, l.unitRec r.dst with
  | some a, some b => !a.event && !b.event && decide (a.cad = b.cad) && decide (a.order < b.order) && decide (b.kind ≠ 5)
  | _, _ => false

def LastRec.sigsOk (l : LastRec) (im : List Byte) : Bool :=
  let b := (secBytes im stSIGNAL).getD []
  rises (l.sigs.map (·.id)) && recsZero b 16 l.sigs.length 16 [(7, 1)] &&
  (List.range l.sigs.length).all (fun i => decide (byteAt b (16 + 16 * i + 6) < 32)) &&
  l.sigs.all (fun s => decide (s.id < 2 ^ 20) && inR 1 s.typ 3 && decide (s.wclass ≤ 7) &&
    (decide (s.typ = 3) || (decide (s.engLo = 0) && decide (s.engHi = 0)))) &&
  decide ((l.sigs.filter (·.history)).length ≤ 16384) &&
  (List.range 8).all (fun r => decide ((l.sigs.filter (fun s => s.history && decide (s.ring = r))).length ≤ 2048))

/-! ### Loops (R114, R116, R117, R121, R138) -/

def risesS : List Word → Bool
  | a :: b :: r => decide (sW a < sW b) && risesS (b :: r)
  | _ => true

def LastRec.loopOk (l : LastRec) (u : Nat) (c : LoopCfg) : Bool :=
  decide (c.aws.length ≤ 8) && decide (c.models.length ≤ 4) && decide (c.taps.length ≤ 8) && inR 1 c.sets 8 &&
  c.aws.all (fun a => decide (a.1 < 3)) && decide (c.bumpSec ≤ c.aws.length) && decide (c.initMode < 4) && inR 1 c.invMax 255 &&
  inR 1 c.persist 255 && inR 1 c.supp 255 && decide (0 ≤ sW c.hyst) && decide (0 ≤ sW c.beta) && decide (sW c.beta < 2 ^ 28) &&
  (!c.sched || (decide (c.edges.length + 1 = c.sets) && risesS c.edges)) &&
  c.taps.all (fun t => decide (t.unit / 64 = u / 64) && decide (t.what < 3) &&
    (match l.unitRec t.unit with | some x => decide (x.kind = 1) && decide (t.loop < x.kd 0) | none => false))

/-- LOOP units. Where R117 keeps coefficients, models and requests in separate tiles it states no refusal: the model refuses by the
inequalities alone (log entry 92). -/
def LastRec.loopsOk (l : LastRec) : Bool :=
  (l.units.filter (fun u => decide (u.kind = 1))).all (fun u =>
    let cs := Tbl.getD [] l.loops u.unit
    decide (cs.length = u.kd 0) && cs.all (l.loopOk u.unit) && decide ((loopTiles cs).1 ≤ 16) && decide ((loopTiles cs).2 ≤ 32))

/-! ### Logic (R142 to R152) -/

/-- An object may be written by instructions of a segment (R144, R149, R150). -/
def PartCfg.writable (p : PartCfg) (u kind i : Nat) : Bool :=
  match findObj p kind i with | some o => decide (o.owner = u) && decide (o.mapTo ≠ 1) | none => false

def PartCfg.has (p : PartCfg) (kind i : Nat) : Bool := (findObj p kind i).isSome

/-- A bit operand in range (R149). -/
def PartCfg.bitOk (p : PartCfg) (area i : Nat) : Bool :=
  match area with
  | 0 => p.has 0 i
  | 1 => p.has 1 (i / 32)
  | 2 => p.has 2 i
  | 3 => p.has 3 i
  | 4 => (match findObj p 1 (i / 8) with | some o => decide (o.mapTo ≠ 0) | none => false)
  | 5 => decide (i < 6)
  | _ => false

/-- A word operand in range (R150). -/
def PartCfg.wordOk (p : PartCfg) (area i : Nat) : Bool :=
  match area with
  | 0 => p.has 1 i
  | 1 => true
  | 2 => p.has 2 i
  | 3 => p.has 2 i
  | 4 => p.has 3 i
  | 5 => p.has 3 i
  | 6 => decide (i < 8)
  | _ => false

/-- For an edge, a timer or counter number and a jump target the spec states no AREA: any is taken (log entry 88). One instruction word: listed, its operand in range, a write only where one is allowed (R148 to R152). `i` its index, `n` the
number of instructions. -/
def PartCfg.insnOk (p : PartCfg) (u n i : Nat) (w : Word) : Bool :=
  let op := bitsOf w.toNat 26 6
  let area := bitsOf w.toNat 23 3
  let x := bitsOf w.toNat 0 23
  if [0x00, 0x0D, 0x15, 0x3F].contains op then decide (area = 0) && decide (x = 0)
  else if inR 0x01 op 0x08 || inR 0x10 op 0x14 then p.bitOk area x
  else if inR 0x09 op 0x0C then (decide (area = 0) && p.writable u 0 x) || (decide (area = 1) && p.writable u 1 (x / 32))
  else if inR 0x18 op 0x19 then p.writable u 4 x
  else if inR 0x1A op 0x1C then p.writable u 2 x
  else if inR 0x1D op 0x20 then p.writable u 3 x
  else if op = 0x29 then
    (decide (area = 0) && p.writable u 1 x) || (decide (area = 3) && p.writable u 2 x) || (decide (area = 5) && p.writable u 3 x)
  else if op = 0x28 || inR 0x2A op 0x36 then p.wordOk area x
  else if inR 0x37 op 0x38 then decide (area = 1) && decide (x < 32)
  else if inR 0x3C op 0x3E then decide (i < x) && decide (x < n)
  else false

/-- The branch stack on every path (R152): `ds` the depths at which this instruction can be reached by falling through, `ts` the
targets of jumps before it, which leave an empty stack. -/
def stackOk (i : Nat) (ts ds : List Nat) : List Word → Bool
  | [] => ds.all (· = 0)
  | w :: ws =>
    let op := bitsOf w.toNat 26 6
    let ds := (if ts.contains i then 0 :: ds else ds).eraseDups
    if inR 0x10 op 0x14 then ds.all (fun x => decide (x < 16)) && stackOk (i + 1) ts (ds.map (· + 1)) ws
    else if op = 0x15 then ds.all (fun x => decide (0 < x)) && stackOk (i + 1) ts (ds.map (· - 1)) ws
    else if inR 0x3C op 0x3E then
      ds.all (· = 0) && stackOk (i + 1) (if ds.isEmpty then ts else bitsOf w.toNat 0 23 :: ts) (if op = 0x3C then [] else ds) ws
    else if op = 0x3F then ds.all (· = 0) && stackOk (i + 1) ts [] ws
    else stackOk (i + 1) ts ds ws

/-- Tiles of a segment (R145). -/
def PartCfg.segTiles (p : PartCfg) (u n : Nat) : Nat × Nat :=
  let own (k : Nat) : Nat := (p.objs.filter (fun o => decide (o.owner = u) && decide (o.kind = k))).length
  let nmap := (p.objs.filter (fun o => decide (o.owner = u) && decide (o.mapTo ≠ 0))).length
  let ts := ceilDiv (64 + ceilDiv (own 0) 8 + 4 * own 1 + 16 * own 2 + 16 * own 3 + ceilDiv (own 4) 8) 1024
  let dt := max 1 (ceilDiv (64 + 8 * nmap + ceilDiv (own 0) 8 + 4 * own 1 + 8 * own 2 + 8 * own 3) 1024)
  (ts, ceilDiv n 256 + dt + 1 + ts)
def PartCfg.segTilesOk (p : PartCfg) (u n : Nat) : Bool := decide ((p.segTiles u n).1 ≤ 16) && decide ((p.segTiles u n).2 ≤ 32)

/-- A segment's tiles in the TILE map: T_state STATE tiles, one WRITABLE one, the force mirror, the others CONST (R145). -/
def LastRec.segLayoutOk (l : LastRec) (p : PartCfg) (u n : Nat) : Bool :=
  let cnt (c : Nat) : Nat := (l.tiles.filter (fun t => decide (t.unit = u) && decide (t.cls = c))).length
  decide (cnt 3 = (p.segTiles u n).1) && decide (cnt 2 = 1)

def LastRec.partOk (l : LastRec) (p : PartCfg) : Bool :=
  let us := l.units.filter (fun u => decide (u.kind = 2) && decide (u.kd 0 = p.part))
  let cyc := us.filter (fun u => !u.event)
  let prog (u : Nat) : List Word := Tbl.getD [] p.progs u
  let cnt (k : Nat) : Nat := (p.objs.filter (fun o => decide (o.kind = k))).length
  decide (p.part < 32) && inR 1 us.length 16 && decide (((us.map (fun u => u.unit / 64)).eraseDups).length ≤ 1) &&
  decide (((cyc.map (·.cad)).eraseDups).length ≤ 1) && decide ((((us.filter (·.event)).map (fun u => u.kd 2)).eraseDups).length ≤ 8) &&
  p.progs.all (fun e => us.any (fun u => decide (u.unit = e.1))) && p.objs.all (fun o => us.any (fun u => decide (u.unit = o.owner))) &&
  noDup (p.objs.map (fun o => (o.kind, o.idx))) &&
  decide (((us.map (fun u => (prog u.unit).length)).sum) ≤ 65536) &&
  p.objs.all (fun o => match o.kind with
    | 0 => decide (o.idx < 16384) | 1 => decide (o.idx < 4096) | 2 => decide (o.idx < 256) | 3 => decide (o.idx < 256)
    | 4 => decide (o.idx < 256) | _ => false) &&
  decide (cnt 0 ≤ 16384) && decide (cnt 1 ≤ 4096) && decide (cnt 2 ≤ 256) && decide (cnt 3 ≤ 256) && decide (cnt 4 ≤ 256) &&
  us.all (fun u => decide ((prog u.unit).length ≤ 7424) && p.segTilesOk u.unit (prog u.unit).length &&
    l.segLayoutOk p u.unit (prog u.unit).length && ((prog u.unit).mapIdx (fun i w => p.insnOk u.unit (prog u.unit).length i w)).all (fun x => x) && stackOk 0 [] [0] (prog u.unit))

def LastRec.partsOk (l : LastRec) : Bool :=
  noDup (l.parts.map (·.part)) && l.parts.all l.partOk &&
  l.units.all (fun u => decide (u.kind ≠ 2) || l.parts.any (fun p => decide (p.part = u.kd 0)))

/-! ### Motion, recipes, acquisition (R172, R198, R204 to R207, R263, R266) -/

def LastRec.axesOk (l : LastRec) : Bool :=
  let all := ((l.units.filter (fun u => decide (u.kind = 3))).map (fun u => Tbl.getD [] l.axes u.unit)).flatten
  noDup ((all.filter (fun c => decide (c.kind ≠ 0) && decide (1 < c.dest))).map (fun c => (c.dest, c.destNo))) &&
  (l.units.filter (fun u => decide (u.kind = 3))).all (fun u =>
    let cs := Tbl.getD [] l.axes u.unit
    decide (cs.length = u.kd 0) && cs.all (fun c => decide (c.kind ≤ 2) && decide (c.dest ≤ 3) &&
      (decide (c.dest < 2) || decide (c.destNo < 32)) && (decide (c.dest ≠ 3) || l.lists 5 c.destNo) && inR 1 c.eng 65535))

/-- The sequencer of a device number in the Last. -/
def LastRec.seqCfg (l : LastRec) (n : Nat) : Option SeqCfg :=
  match (l.units.filter (fun u => decide (u.kind = 4)))[n / 4]? with
  | some u => (Tbl.getD [] l.seqs u.unit)[n % 4]?
  | none => none

def LastRec.seqsOk (l : LastRec) : Bool :=
  (l.units.filter (fun u => decide (u.kind = 4))).all (fun u =>
    let cs := Tbl.getD [] l.seqs u.unit
    decide (cs.length = u.kd 0) && cs.all (fun c => decide (c.chans.length ≤ 64) && noDup (c.chans.map (·.1)) &&
      c.chans.all (fun x => decide (x.1 < 64) && decide (sW x.2.2.1 ≤ sW x.2.2.2.1) &&
        l.sigs.any (fun r => decide (r.id = x.2.1) && decide (r.typ = 3) && decide (r.wclass = 4))))) &&
  l.recipes.all (fun e => match l.seqCfg e.1 with
    | some c => decide (recipeCheck c (fun s => (l.sigs.find? (fun x => decide (x.id = s))).map (·.typ)) e.2 = sqOK)
    | none => false)

/-- An engine's area lies in DRAM bank groups of class ACQUIRE (R24, R264). -/
def LastRec.inAcquire (l : LastRec) (base len : Nat) : Bool :=
  decide (0x100000000000 ≤ base) && (List.range 32).all (fun n =>
    let lo := 0x100000000000 + n * 2 ^ 31
    decide (base + len ≤ lo) || decide (lo + 2 ^ 31 ≤ base) || decide (nth 0 l.own.bgClass n = 5)) &&
  decide (base + len ≤ 0x100000000000 + 32 * 2 ^ 31)

def LastRec.engsOk (l : LastRec) : Bool :=
  (l.units.filter (fun u => decide (u.kind = 5))).all (fun u =>
    let cs := Tbl.getD [] l.engs u.unit
    decide (cs.length = u.kd 0) && (List.range cs.length).all (fun e =>
      let c := nth {} cs e
      let q := l.engReq u.unit e
      let rb := max 1 (rowsPerBlock c.sigs.length)
      inR 1 c.sigs.length 64 && decide (c.meas.length ≤ 16) && c.meas.all (fun m => c.sigs.contains m.1) && decide (q.1.length ≤ 4) &&
      decide (c.dMin ≤ 8) &&
      l.inAcquire c.base c.area && inR 1 c.nrec 16 && inR (2 ^ 20) c.area (2 ^ 32) && decide (c.area % (4096 * c.nrec) = 0) && inR 1 q.2.2 (2 ^ 32 - 1) &&
      decide (ceilDiv q.2.1 rb + ceilDiv q.2.2 rb + 2 ≤ c.blocks)))

/-! ### Holup and CAN matrices (R292, R295, R315, R326) -/

/-- Intervals in order of their starts lie at least g apart, the last one at least g before the end. -/
def insSpan (x : Int × Int) : List (Int × Int) → List (Int × Int)
  | [] => [x]
  | y :: r => if x.1 ≤ y.1 then x :: y :: r else y :: insSpan x r

def spansOk (g fin : Int) : List (Int × Int) → Bool
  | [] => true
  | [x] => decide (x.2 + g ≤ fin)
  | x :: y :: r => decide (x.2 + g ≤ y.1) && spansOk g fin (y :: r)

/-- Line occupation of a descriptor placed at an offset, in 10 ns (R286, R292, R295). -/
def LastRec.holSpan (l : LastRec) (n : Nat) (x : HolDesc) (off : Nat) : Int × Int :=
  let cg : Int := if l.regF R.HOL_CFG_RATE n = 0 then 8 else 32
  let o : Int := off
  match x.kind with
  | 2 => (o, o + x.len)
  | 3 => (o - 7 * cg, o + (13 + x.len) * cg + l.regF R.HOL_TIMING_TTA n + 2 * l.regF R.HOL_TIMING_DMAX n + (14 + x.ilen) * cg)
  | _ => (o - 7 * cg, o + (14 + x.len) * cg)

/-- Channel and offset of a descriptor under the schedules degraded for A and B; none: dropped (R303). -/
def HolDesc.placed (x : HolDesc) (degA degB : Bool) : Option (Nat × Nat) :=
  if (if x.ch = 0 then degA else degB) then (if x.crit then some (x.chD, x.offsetD) else none) else some (x.ch, x.offset)

/-- The occupations of a channel in a basic cycle, under the schedules degraded for A and B. -/
def LastRec.holSpans (l : LastRec) (n c ch : Nat) (degA degB : Bool) (descs : List HolDesc) : List (Int × Int) :=
  let cg : Int := if l.regF R.HOL_CFG_RATE n = 0 then 8 else 32
  ((-7 * cg, 30 * cg) :: descs.filterMap (fun x =>
    if c % 2 ^ x.rep = x.base then
      match x.placed degA degB with
      | some (k, o) => if k = ch then some (l.holSpan n x o) else none
      | none => none
    else none)).foldl (fun a x => insSpan x a) []

def LastRec.holOk (l : LastRec) : Bool :=
  l.hol.all (fun e =>
    let n := e.1
    let nbc := l.regF R.HOL_CFG_NBC n + 1
    let cg : Int := if l.regF R.HOL_CFG_RATE n = 0 then 8 else 32
    let g : Int := l.regF R.HOL_TIMING_GUARD n
    let pbc : Int := l.regF R.HOL_CYC_M n * 1000
    let fast := decide (l.regF R.HOL_CFG_RATE n = 0)
    let poll := decide (l.regF R.HOL_CFG_MODE n ≠ 0)
    decide (n < 24) && l.lists 7 n && decide (e.2.descs.length ≤ 512) &&
    inR 2 (l.regF R.HOL_CYC_M n) 10000 && decide ((l.regF R.HOL_PHASE_PHASE n : Int) < pbc) &&
    inR (if fast then 20 else 80) (l.regF R.HOL_TIMING_GUARD n) (if fast then 1000 else 4000) &&
    inR (if fast then 40 else 160) (l.regF R.HOL_TIMING_TTA n) (if fast then 1000 else 4000) &&
    inR 1 (l.regF R.HOL_CFG_ABS_N n) 15 && inR 1 (l.regF R.HOL_CFG_CHF_N n) 15 &&
    e.2.descs.all (fun x => decide (nbc % 2 ^ x.rep = 0) && decide (x.base < 2 ^ x.rep) &&
      (if poll then decide (x.kind = 2 ∨ x.kind = 3) else decide (x.kind ≤ 2)) && decide (x.node < 32) && decide (x.ch < 2) && decide (x.chD < 2) &&
      (decide (x.kind = 2) || decide (x.len ≤ 254)) && decide (x.ilen ≤ 254) && decide (x.ageMax ≤ 15) &&
      decide (x.cls ≤ 7) && decide (l.period x.cad ≠ 0 ∨ x.kind = 2)) &&
    (List.range nbc).all (fun c => (List.range 2).all (fun ch =>
      [(false, false), (true, false), (false, true)].all (fun dg =>
        -- the Sync frame is the exclusive slot of index 0
        let here (w : Bool) : Nat := (e.2.descs.filter (fun x => decide (c % 2 ^ x.rep = x.base) && decide ((x.placed dg.1 dg.2).map Prod.fst = some ch) &&
          (decide (x.kind = 2) == w))).length
        decide (here false < 64) && decide (here true ≤ 8) && spansOk g (pbc - 7 * cg) (l.holSpans n c ch dg.1 dg.2 e.2.descs)))))

/-- Bit timing of a controller within R315. -/
def LastRec.canBitsOk (l : LastRec) (n : Nat) : Bool :=
  let f (x : F) : Nat := l.regF x n
  let nt := (f R.CAN_NBT_BRP + 1) * (3 + f R.CAN_NBT_TSEG1 + f R.CAN_NBT_TSEG2)
  let dt := (f R.CAN_DBT_DBRP + 1) * (3 + f R.CAN_DBT_DTSEG1 + f R.CAN_DBT_DTSEG2)
  inR 1 (f R.CAN_NBT_TSEG1) 255 && decide (f R.CAN_NBT_SJW ≤ min (f R.CAN_NBT_TSEG1) (f R.CAN_NBT_TSEG2)) && decide (80 ≤ nt) &&
  (decide (f R.CAN_CFG_FDEN = 0) || (decide (f R.CAN_DBT_DSJW ≤ min (f R.CAN_DBT_DTSEG1) (f R.CAN_DBT_DTSEG2)) && decide (10 ≤ dt)))

/-- Worst-case duration of a classic frame of k data bytes, in 10^-1 ns (R326). -/
def LastRec.canClassic (l : LastRec) (n : Nat) (ide : Bool) (k : Nat) : Nat :=
  (if ide then 67 + 8 * k + (53 + 8 * k) / 4 else 47 + 8 * k + (33 + 8 * k) / 4) *
    ((l.regF R.CAN_NBT_BRP n + 1) * (3 + l.regF R.CAN_NBT_TSEG1 n + l.regF R.CAN_NBT_TSEG2 n)) * 125

/-- Worst-case duration of an FD frame of k data bytes, in 10^-1 ns (R326). -/
def LastRec.canFd (l : LastRec) (n : Nat) (ide brs : Bool) (k : Nat) : Nat :=
  let x := Config.canFdBits k ide brs
  x.1 * ((l.regF R.CAN_NBT_BRP n + 1) * (3 + l.regF R.CAN_NBT_TSEG1 n + l.regF R.CAN_NBT_TSEG2 n)) * 125 +
    x.2 * ((l.regF R.CAN_DBT_DBRP n + 1) * (3 + l.regF R.CAN_DBT_DTSEG1 n + l.regF R.CAN_DBT_DTSEG2 n)) * 125

/-- Worst-case duration of a transmit buffer's frame (R326). -/
def LastRec.canBuf (l : LastRec) (n b : Nat) : Nat :=
  let dlc := l.regF R.CAN_TXB_DLC_DLC n b
  let ide := bitAt (l.regF R.CAN_TXB_ID_ID n b) 29
  if bitAt dlc 4 && decide (l.regF R.CAN_CFG_FDEN n = 1) then l.canFd n ide (bitAt dlc 5) (dlcLen true (dlc % 16))
  else l.canClassic n ide (dlcLen false (dlc % 16))

/-- Worst-case duration of the frame that window i of the matrix carries, in 10^-1 ns (R326): the reference in window 0; the transmit buffer's; for
an expected ID the longest frame it can be, whose FD form the descriptor does not give (log entry 126); in an arbitrating window that names neither, the
longest frame of the used buffers bound to no exclusive window. -/
def LastRec.canFrame (l : LastRec) (n : Nat) (ws : List CanWin) (i : Nat) (w : CanWin) : Nat :=
  if i = 0 then l.canClassic n false 8
  else match w.buf, w.id with
    | some b, _ => l.canBuf n b
    | none, some x =>
      let fd := Config.canExpect x.1 x.2
      max (l.canClassic n x.2 8) (if l.regF R.CAN_CFG_FDEN n = 1 then l.canFd n x.2 fd.2 (min 64 fd.1) else 0)
    | none, none =>
      let bound := ws.filterMap (fun y => if y.excl then y.buf else none)
      (List.range 64).foldl (fun m b => if l.regF R.CAN_TXB_CTL_KIND n b ≠ 0 ∧ !bound.contains b then max m (l.canBuf n b) else m) 0

def LastRec.canOk (l : LastRec) : Bool :=
  l.can.all (fun e =>
    let n := e.1
    let tt := decide (l.regF R.CAN_CFG_ROLE n ≠ 0)
    let nbc := l.regF R.CAN_TT_CYC_NBC n + 1
    let pbc := l.regF R.CAN_TT_CYC_M n * 100
    let g := l.regF R.CAN_TT_TIMING_GUARD n
    let bit := (l.regF R.CAN_NBT_BRP n + 1) * (3 + l.regF R.CAN_NBT_TSEG1 n + l.regF R.CAN_NBT_TSEG2 n) * 125
    decide (n < 12) && l.lists 8 n && l.canBitsOk n && decide (e.2.length ≤ 512) &&
    (!tt || (inR 10 (l.regF R.CAN_TT_CYC_M n) 10000 && decide (l.regF R.CAN_TT_TIMING_REFID n % 8 = 0) &&
      e.2.head?.all (fun w => decide (w.offset = 0)) &&
      (e.2.mapIdx (fun i w => (i, w))).all (fun (i, w) =>
        let f := l.canFrame n e.2 i w
        decide (w.rep ≤ 6) && decide (w.base < 2 ^ w.rep) && decide (nbc % 2 ^ w.rep = 0) &&
        (if w.excl then decide (f + 3 * bit + g * 1000 ≤ w.len * 1000) else decide (f ≤ w.len * 1000))) &&
      (List.range nbc).all (fun c =>
        let ws := e.2.filter (fun w => decide (c % 2 ^ w.rep = w.base))
        decide (ws.length ≤ 32) &&
        (let sp := (ws.map (fun w => ((w.offset : Int), (w.offset + w.len : Int)))).foldl (fun a x => insSpan x a) []
         spansOk 0 ((pbc : Int) - g) sp)))))

/-- The words that HOLSCH and CANSCH set lie in Holup and CAN blocks. -/
def LastRec.regsOk (l : LastRec) : Bool :=
  l.regs.all (fun e => match regAt e.1 with | some (b, _, _) => decide (b = .hol) || decide (b = .can) | none => false)

/-! ### Proof and exchange sections as records (R53, R54) -/

def LastRec.recordsOk (l : LastRec) (im : List Byte) : Bool :=
  let b := (secBytes im stPROOF).getD []
  let n := hdCount b
  inR 100 l.proof.reh 1000 && allZero b 18 6 && recsZero b 24 8 48 [(2, 6), (40, 8)] && recsZero b 408 n 24 [(3, 1), (15, 1), (18, 6)] &&
  recsZero b (408 + 24 * n) (hdAux b) 24 [(5, 3), (19, 5)] && l.proof.units.all (fun u => decide (u.a ≤ 1)) &&
  l.proof.handlers.all (fun u => decide (u.a ≤ 1)) &&
  recsZero ((secBytes im stXMAP).getD []) 32 l.xmap.length 8 [(1, 1)] &&
  l.xmap.all (fun x => [1, 3, 4, 5, 6].contains x.kind && decide (x.oldUnit < 512) &&
    (match l.unitRec x.newUnit with
      | some u => decide (u.kind = x.kind) && (if x.kind = 6 then decide (x.oldIdx = 0) else decide (x.newIdx < u.kd 0))
      | none => false))

/-- REC_LEN, AUX where none is named, and the zero bytes of each section header (R46 to R54). -/
def headersOk (im : List Byte) : Bool :=
  [(stUNIT, 16, false), (stTILE, 8, true), (stCAD, 16, false), (stFLOW, 0, true), (stOWN, 0, false), (stIOMAP, 0, false), (stSIGNAL, 16, false),
    (stPROOF, 0, true), (stXMAP, 8, false)].all (fun x => match secBytes im x.1 with
    | some b => decide (hdRecLen b = x.2.1) && (x.2.2 || decide (hdAux b = 0)) && allZero b 8 8
    | none => true) &&
  [stROUTE, stHOLSCH, stCANSCH, stPROG, stMOTION, stRECIPE].all (fun t => match secBytes im t with
    | some b => allZero b 8 8 && Config.secFields t b
    | none => true) &&
  decide (hdCount ((secBytes im stCAD).getD []) = 9) && decide (hdCount ((secBytes im stOWN).getD []) = 1)

/-- Gate lists are for ports of the family and sound (R340). -/
def LastRec.gatesOk (l : LastRec) : Bool := l.gates.all (fun e => decide (e.1 < 8) && e.2.sound)

/-- Step 6 (R59). -/
def LastRec.structOk (l : LastRec) (im : List Byte) : Bool :=
  headersOk im && l.resOk im && l.unitsOk im && l.tilesOk im && l.cadsOk im && l.flowsOk im && l.ownOk im && l.ioOk im &&
  l.routes.all l.routeOk && l.sigsOk im && l.loopsOk && l.partsOk && l.axesOk && l.seqsOk && l.engsOk && l.holOk && l.canOk && l.regsOk &&
  l.recordsOk im && l.gatesOk

end Sys2Proof.Machine
end

