-- ==== Sys2Proof/Machine/LastCheck.lean ====
section
/-!
DEFINITION. Steps 1 to 7 of a load (R59): format, CRC, signature, part, resources, structure, proof; what an absent OPTIONAL
resource leaves out (R43).
-/
namespace Sys2Proof.Machine

/-! ### Step 1: format (R37 to R41, R46) -/

def insSec (e : SecEnt) : List SecEnt → List SecEnt
  | [] => [e]
  | x :: r => if e.off ≤ x.off then e :: x :: r else x :: insSec e r

/-- Sections in ascending order do not overlap, and the bytes between them are zero (R38). -/
def gapsOk (im : List Byte) (fin : Nat) : Nat → List SecEnt → Bool
  | pos, [] => decide (pos ≤ fin) && allZero im pos (fin - pos)
  | pos, e :: r => decide (pos ≤ e.off) && decide (e.off + e.len ≤ fin) && allZero im pos (e.off - pos) && gapsOk im fin (e.off + e.len) r

def headerOk (im : List Byte) : Bool :=
  let n := im.length
  decide (n % 64 = 0) && decide (n ≤ 2 ^ 28) && decide (320 ≤ n) && decide (le im 0 4 = 0x4C415354) && decide (le im 4 2 = 1) &&
  decide (le im 6 2 = 0x40) && decide (le im 8 4 = n) && decide (byteAt im 0x0C < 8) && decide (byteAt im 0x0E < 2) &&
  decide (byteAt im 0x0F = 0) && decide (8 ≤ secCount im) && decide (secCount im ≤ 64) && allZero im 0x30 16

/-- Types listed, mandatory ones once, others at most once (R39). -/
def typesOk (ts : List Nat) : Bool :=
  let listed := ts.filter (fun t => decide (t < 0x8000))
  listed.all (fun t => inR 1 t 16) && noDup listed && [1, 2, 4, 5, 7, 8, 14, 15].all (fun t => listed.contains t)

def tableOk (im : List Byte) : Bool :=
  let t := secTable im
  typesOk (t.map (·.typ)) && t.all (fun e => decide (e.sflags = 0) && decide (e.off % 64 = 0)) &&
  gapsOk im (im.length - 256) (0x40 + 16 * t.length) (t.foldr insSec [])

def trailerOk (im : List Byte) : Bool :=
  let t := trailer im
  if isSigned im then decide (byteAt t 4 < 4) && allZero t 5 11 && allZero t 0xD0 48
  else decide (le t 0 4 = 0) && decide (byteAt t 4 = 0xFF) && allZero t 5 251

/-- The LENGTH that header and records give (R46 to R54). Two points that the spec leaves open: the padding of FRZ to a multiple of 8 bytes is
counted on that table alone (log entry 81), and an annotation section shorter than the 16 bytes of a section header is malformed (log
entry 82). -/
def secLenOk (typ : Nat) (b : List Byte) : Bool :=
  let n := b.length
  let c := hdCount b
  let a := hdAux b
  if typ = stRES then decide (n % 8 = 0)
  else if n < 16 then false
  else match typ with
    | 2 => decide (n = 16 + 16 * c)
    | 4 => decide (n = if a = 0 then 16 + 8 * c else (16 + 8 * c + 63) / 64 * 64 + 1024 * a)
    | 5 => decide (n = 16 + 16 * c)
    | 6 => decide (n = 16 + 256 + 16 * c + 8 * a)
    | 7 => decide (n = 16 + 0xE0 + 4 * le b 0xE0 2 + padTo8 (2 * le b 0xE2 2))
    | 8 => (match ioSplit c (b.drop 16) with
        | some es => es.all (fun e => decide (e.length = ioLen (byteAt e 0) (e.drop 8)))
        | none => false)
    | 14 => decide (n = 16 + 16 * c)
    | 15 => decide (n = 408 + 24 * c + 24 * a)
    | 16 => decide (n = 32 + 8 * c)
    | t => decide (0x8000 ≤ t) || decide (n = Config.secLen t b)

def formatOk (im : List Byte) : Bool :=
  headerOk im && tableOk im && trailerOk im && (secTable im).all (fun e => secLenOk e.typ (slice im e.off e.len))

/-! ### Steps 2 to 4 (R37, R38, R40, R60) -/

def imageCrc (im : List Byte) : Nat := crc32c (im.take 0x2C ++ zeros 4 ++ (im.take (im.length - 256)).drop 0x30)

def crcOk (im : List Byte) : Bool :=
  decide (imageCrc im = le im 0x2C 4) && (secTable im).all (fun e => decide (crc32c (slice im e.off e.len) = e.crc))

/-- The signature verifies under a key of this hash (R40). -/
def signedBy (hash : List Byte) (im : List Byte) : Bool :=
  let t := trailer im
  let pub := slice t 0x10 96
  decide (Config.sha384 pub = hash) && Config.ecdsaP384 pub (Config.sha384 (im.take (im.length - 256))) (slice t 0x70 96)

/-- Authentic (R40, R482): the key slot is usable; in TEST the maker test key stands in for it. -/
def LcSt.authentic (l : LcSt) (im : List Byte) : Bool :=
  let k := byteAt (trailer im) 4
  if l.state = lcTEST then decide (k = 0) && signedBy Config.makerTestKeyHash im
  else match l.usable k with | some h => signedBy h im | none => false

/-- Step 3: 0, or the result it fails with (R60). -/
def LcSt.signResult (l : LcSt) (im : List Byte) : Nat :=
  let auth := if l.authentic im then ldOK else ldBAD_SIG
  match l.state with
  | 0 => if isSigned im then auth else ldOK
  | 1 => ldOK
  | 2 => if isSigned im then auth else if l.dev then ldOK else ldUNSIGNED
  | 3 => if isSigned im then auth else ldUNSIGNED
  | 4 => if isSigned im then ldBAD_SIG else ldOK
  | _ => ldBAD_SIG

def Dev.partOk (d : Dev) (im : List Byte) : Bool := bitAt (byteAt im 0x0C) d.variant && decide (byteAt im 0x0D ≤ d.stepping)

/-! ### Step 5: resources (R41 to R43) -/

/-- Instances 0 to n − 1 of a resource type are present. -/
def Dev.resCount (d : Dev) (rtype : Nat) : Nat :=
  match rtype with
  | 1 => d.byVariant 1 0 0
  | 2 => d.byVariant 1 1 0
  | 3 => d.nBanks
  | 4 => d.nAout
  | 5 => d.nChop
  | 6 => d.nPorts / 2
  | 7 => d.nHol
  | 8 => d.nCan
  | 9 => b2n d.hasWelt
  | 10 => d.byVariant 32 16 8
  | 11 => d.nUnits
  | _ => 65536 * 2

def Dev.resPresent (d : Dev) (r : ResRec) : Bool := decide (r.first + r.count ≤ d.resCount r.rtype)

/-- The first required entry that is not present: its type and lowest missing instance. -/
def Dev.missing (d : Dev) (l : LastRec) : Option (Nat × Nat) :=
  (l.res.find? (fun r => !r.opt && !d.resPresent r)).map (fun r => (r.rtype, max r.first (d.resCount r.rtype)))

/-- A reference names an OPTIONAL entry that is not present: what carries it is left out. -/
def Dev.omits (d : Dev) (l : LastRec) (ref : Nat) : Bool :=
  match l.res[ref]? with | some r => r.opt && !d.resPresent r | none => false

/-- The Last without what its absent OPTIONAL resources leave out (R43), with what that makes ABSENT: signals, converter inputs, units.
Schedules are left out by the references of their own entries, and by number where the variant has no such segment or controller. The
loops and axes of an omitted unit stay in the record, as the names of the signals that others would read from it. -/
def Dev.reduce (d : Dev) (l : LastRec) : LastRec :=
  let out (r : Nat) : Bool := d.omits l r
  let gone := l.units.filter (fun u => out u.resref)
  let goneU (u : Nat) : Bool := gone.any (fun x => decide (x.unit = u))
  let flows := l.flows.filter (fun f => !out f.resref && decide (f.die < d.nDies))
  let holOut (n : Nat) : Bool := decide (d.nHol ≤ n) || l.holRef.any (fun e => decide (e.1 = n) && out e.2)
  let canOut (n : Nat) : Bool := decide (d.nCan ≤ n) || l.canRef.any (fun e => decide (e.1 = n) && out e.2)
  let ioOut (e : IoEntry) : Bool := out e.resref || (match e.body with
    | .holField n _ _ _ => holOut n
    | .canField n _ _ _ => canOut n
    | _ => false)
  { l with
    units := l.units.filter (fun u => !out u.resref), tiles := l.tiles.filter (fun t => !goneU t.unit), flows := flows,
    binds := l.binds.filter (fun b => flows.any (fun f => decide (f.die = b.die) && decide (f.flow = b.flow))),
    io := l.io.filter (fun e => !ioOut e), routes := l.routes.filter (fun r => !goneU r.src && !goneU r.dst),
    hol := l.hol.filter (fun e => !holOut e.1), can := l.can.filter (fun e => !canOut e.1),
    regs := l.regs.filter (fun e => match blkAt e.1 with
      | some (.hol, n) => !holOut n
      | some (.can, n) => !canOut n
      | _ => true),
    seqs := l.seqs.filter (fun e => !goneU e.1), engs := l.engs.filter (fun e => !goneU e.1), conds := l.conds.filter (fun e => !goneU e.1),
    own := { l.own with duplex := l.own.duplex && d.hasWelt },
    gone := gone,
    absent := (gone.map (fun u => l.writes u.kind u.unit)).flatten ++ ((l.io.filter ioOut).map (fun e => l.inSigs e.body)).flatten,
    absAins := (l.io.filter ioOut).filterMap (fun e => match e.body with | .ain n _ _ _ _ _ => some n | _ => none) }

/-! ### Step 7: proof (R45) -/

/-- The largest sum of a weight over the chains of routes that end at a unit; ranks rise along a chain, so 16 steps reach every one. -/
def chainMax (rs : List RouteRec) (f : RouteRec → Nat) : Nat → Nat → Nat
  | 0, _ => 0
  | n + 1, u => (rs.filter (fun r => decide (r.dst = u))).foldl (fun a r => max a (f r + chainMax rs f n r.src)) 0

/-- Some unit on a chain that ends at this unit, itself among them, has a property. -/
def chainAny (rs : List RouteRec) (p : Nat → Bool) : Nat → Nat → Bool
  | 0, u => p u
  | n + 1, u => p u || (rs.filter (fun r => decide (r.dst = u))).any (fun r => chainAny rs p n r.src)

/-- The unit reads a converter input that IOMAP maps. -/
def LastRec.readsAin (l : LastRec) (u : Nat) : Bool :=
  let ains := l.io.filterMap (fun e => match e.body with | .ain n _ _ _ _ s => some (n, s) | _ => none)
  (l.reads (((l.unitRec u).map (·.kind)).getD 0) u).any (fun s => ains.any (fun a => decide (a.2 = s))) ||
  (Tbl.getD [] l.conds u).any (fun c => c.sample && ains.any (fun a => decide (a.1 = c.src)))

def LastRec.proofUnitOk (l : LastRec) (p : ProofUnit) : Bool :=
  match l.unitRec p.unit with
  | none => false
  | some u => !u.event && decide (p.cad = u.cad) && decide (p.vreq ≤ 950) &&
      decide (chainMax l.routes (·.hops) 16 p.unit ≤ p.h) && decide (chainMax l.routes (·.crossings) 16 p.unit ≤ p.x) &&
      (decide (p.a = 1) || !chainAny l.routes l.readsAin 16 p.unit)

/-- A handler record names an event-driven unit and a flow that its cluster serves. -/
def LastRec.handlerOk (l : LastRec) (h : ProofHandler) : Bool :=
  match l.unitRec h.unit with
  | none => false
  | some u => u.event && l.flows.any (fun f => decide (f.flow = h.flow) && decide (f.die = h.die) && decide (f.cluster = u.unit / 16)) &&
      (decide (h.a = 1) || !l.readsAin h.unit)

def LastRec.proofOk (l : LastRec) : Bool :=
  l.proof.regions.all (fun r => decide (r.1 ≤ 950)) && l.proof.units.all l.proofUnitOk && l.proof.handlers.all l.handlerOk &&
  noDup (l.proof.units.map (·.unit)) && noDup (l.proof.handlers.map (fun h => (h.unit, h.flow, h.die))) &&
  l.units.all (fun u => u.event || l.proof.units.any (fun p => decide (p.unit = u.unit))) &&
  l.units.all (fun u => !u.event || (Tbl.getD [] l.handlers u.unit).all (fun f => l.proof.handlers.any (fun h =>
    decide (h.unit = u.unit) && decide (h.flow = f) && decide (h.die = u.unit / 256))))

/-! ### Steps 1 to 7 -/

/-- The variant's numbers of logic partitions: 32 on the FK7680, 16 on the others (R1, R142); counted over what is kept. -/
def Dev.partsFit (d : Dev) (l : LastRec) : Bool :=
  (d.reduce l).units.all (fun u => decide (u.kind ≠ 2) || decide (u.kd 0 < d.byVariant 32 16 16))

/-- The gate list of an enabled port has an opening for a frame of MTU + 26 bytes, check sequence included, of its management queue and of its PTP
queue (R339). -/
def Dev.portsFit (d : Dev) (l : LastRec) : Bool :=
  l.gates.all (fun e => !d.ethOn e.1 || [nth 0 l.own.mgmtq e.1, nth 0 l.own.ptpq e.1].all (fun q =>
    fitsOpen (d.wireTime e.1 (d.rf R.ETH_MTU_MTU e.1 + 22)) (gateMax q e.2.ents)))

/-- Result and step at which steps 1 to 7 end, with what SYS.MISSING reports. -/
def Dev.lastCheck (im : List Byte) (d : Dev) : Nat × Nat × Option (Nat × Nat) :=
  if !formatOk im then (ldBAD_FORMAT, 1, none)
  else if !crcOk im then (ldBAD_CRC, 2, none)
  else if d.lc.signResult im ≠ ldOK then (d.lc.signResult im, 3, none)
  else if !d.partOk im then (ldWRONG_PART, 4, none)
  else
    let l := parseLast im
    match d.missing l with
    | some m => (ldMISSING_RES, 5, some m)
    | none => if !(l.structOk im && d.partsFit l && d.portsFit l) then (ldBAD_STRUCT, 6, none) else if !l.proofOk then (ldBAD_PROOF, 7, none) else (ldOK, 7, none)

/-- Steps 1 to 3 alone, as a slot write checks its read-back (R56). -/
def Dev.slotCheck (im : List Byte) (d : Dev) : Nat × Nat :=
  if !formatOk im then (ldBAD_FORMAT, 1)
  else if !crcOk im then (ldBAD_CRC, 2)
  else (d.lc.signResult im, 3)

end Sys2Proof.Machine
end

