-- ==== Sys2Proof/Machine/LastMap.lean ====
section
/-!
DEFINITION. Step 9 of a load (R59): units, tiles, cadences, flows, ownership, mapping and schedules written; and what EMPTY leaves
(R62).
-/
namespace Sys2Proof.Machine

/-! ### Writing configuration (R362) -/

/-- The bits of a register that a load may write. -/
def RegDef.loadMask (r : RegDef) : Nat :=
  r.flds.foldl (fun m f => if f.acc = .rw ∨ f.acc = .rwl then m ||| ((2 ^ f.w - 1) * 2 ^ f.lo) else m) 0

/-- The load writes a configuration word: its RW and RWL fields. Measured line delays of a Holup segment are no configuration (R311). -/
def Dev.loadWord (a v : Nat) (d : Dev) : Dev :=
  match regAt a with
  | some (b, k, r) => if b = .hol ∧ r.off = R.HOL_NODE_DLY.off ∧ d.flag R.HOL_CFG_DLYMODE k = false then d else d.ww a (d.rw a - (d.rw a &&& r.loadMask) + (v &&& r.loadMask))
  | none => d

/-- Configuration words of the blocks that the load owns return to their reset values: what no entry maps is not configured (R51). -/
def Dev.unconfigure (d : Dev) : Dev :=
  d.regs.foldl (fun d e => match regAt e.1 with
    | some (b, _, r) =>
      if [Blk.adc, .aout, .dio, .pwm, .chop, .hol, .can].contains b ∧ (r.hasRwl ∨ (b = .adc ∧ r.off = R.ADC_CHn_CTL.off)) then
        d.loadWord e.1 r.rst
      else d
    | none => d) d

/-- Every tag says spare; BAD marks stay (R79, R91). -/
def Dev.clearTags (d : Dev) : Dev :=
  { d with regs := d.regs.filterMap (fun e =>
      match blkAt e.1 with
      | some (.clus, _) =>
        if e.1 % 0x10000 < 0x1000 then some e
        else if e.1 % 8 = 4 ∧ bitAt e.2 19 then some (e.1, 2 ^ 19)
        else none
      | _ => some e) }

/-- Disable the blocks that the load configures (R244, R311, R331, R512). -/
def Dev.blocksOff (d : Dev) : Dev :=
  let d := (List.range d.nBanks).foldl (fun d k => if d.flag R.ADC_CTRL_EN k then (d.bankDisable k).wf R.ADC_CTRL_EN 0 k else d) d
  let d := (List.range d.nHol).foldl (fun d n => if d.flag R.HOL_CTRL_EN n then d.holDisable n else d) d
  let d := (List.range d.nCan).foldl (fun d n => if d.flag R.CAN_CTRL_EN n then d.canDisable n else d) d
  (((d.setEn .aout false).setEn .dio false).setEn .pwm false).wf R.CHOP_CTRL_EN 0

/-! ### Units and tiles (R9, R12, R15, R18, R47, R91) -/

/-- The map of a unit's logical tiles. -/
def LastRec.tileMap (l : LastRec) (u : Nat) : List TileMap :=
  (l.tiles.filter (fun t => decide (t.unit = u))).map (fun t =>
    { lidx := t.lidx, cls := t.cls, verify := t.verify, ptile := 512 * (u / 16) + t.ptile,
      img := if t.img = 0xFFFF then l.image.length else tileImgOff l.image t.img })

/-- The unit slot becomes a unit, its tiles are tagged. -/
def Dev.mapUnit (l : LastRec) (d : Dev) (u : UnitRec) : Dev :=
  let ts := l.tileMap u.unit
  let x : UnitSt := { kind := u.kind, event := u.event, cad := u.cad, order := u.order, tiles := ts }
  ts.foldl (fun d t => d.tagMap u.unit t) (d.setUn u.unit x)

/-- A mapped unit's tiles take their contents and its state starts anew (R136, R161, R194, R220, R277). -/
def Dev.fillUnit (u : Nat) (dm : Dev × List Host.Cell) : Dev × List Host.Cell :=
  let r := (dm.1.un u).tiles.foldl (fun dm t => Dev.tileWrite t.ptile (dm.1.tileImage t) false dm) dm
  let d := r.1.decodeUnit u r.2
  let sem := d.initSem u
  ((d.unUp u (fun x => { x with base := sem, work := sem, shown := sem.objs })).verified u, r.2)

/-- Every cluster has spares for the logical tiles that lie on BAD tiles (R79). -/
def Dev.sparesOk (d : Dev) : Bool :=
  (List.range 32).all (fun c =>
    let idx := List.range 512
    let bad := (d.units.map (fun e => (e.2.tiles.filter (fun t => decide (t.ptile / 512 = c) && d.flag R.CLUS_TAGHI_BAD c (t.ptile % 512))).length)).sum
    bad = 0 || decide (bad ≤ (idx.filter (fun i => decide (d.rf R.CLUS_TAGHI_CLASS c i = 0) && !d.flag R.CLUS_TAGHI_BAD c i)).length))

/-- Cluster ownership and region cadences with their guards (R15, R17, R18). A region of event-driven units only has a guard that no
section gives: a free value within its bounds. -/
def Dev.showStructure (l : LastRec) (d : Dev) : Dev :=
  let d := (List.range 32).foldl (fun d c =>
    let used := (l.units.filter (fun u => decide (u.unit / 16 = c))).foldl (fun a u => a + 2 ^ (u.unit % 16)) 0
    (d.wf R.CLUS_OWN_CLASS (nth 0 l.own.clClass c) c).wf R.CLUS_OWN_USED used c) d
  (List.range 8).foldl (fun d g =>
    let cs := l.rgnCads g
    let mask := cs.foldl (fun a n => a + 2 ^ n) 0
    let d := (d.wf R.RGN_CAD_CADMASK mask g).setRgn g {}
    match cs with
    | c :: r => d.wf R.RGN_CAD_GUARD (r.foldl (fun a n => min a (l.period n)) (l.period c) * 120) g
    | [] =>
      if l.units.any (fun u => decide (u.unit / 64 = g)) then
        let r := d.fresh 24
        r.2.wf R.RGN_CAD_GUARD (1000 + r.1 % 11999001) g
      else d.wf R.RGN_CAD_GUARD 0 g) d

/-! ### Cadences, flows, ownership (R48 to R50, R97, R105) -/

def Dev.mapCads (l : LastRec) (d : Dev) : Dev :=
  let d := (List.range 8).foldl (fun d n =>
    let c := nth { mult := 0, phase := 0, waitLock := false, timeout := 0 } l.cads n
    let d := ((d.wf R.TIME_CADn_CFG_MULT c.mult 0 n).wb R.TIME_CADn_CFG_WAITLOCK c.waitLock 0 n).wf R.TIME_CADn_PHASE_PHASE c.phase 0 n
    let d := (d.wf R.TIME_CADn_STAT_RUN 0 0 n).wf R.TIME_CADn_STAT_WAIT 0 0 n
    let d := if c.mult = 0 then d.wf R.TIME_CADn_CYC_CYC 0 0 n else d
    d.setCad n (fun _ => { used := decide (c.mult ≠ 0), b := d.cadReach n, k := d.cadIdx n })) d
  let b := l.vsrc
  let d := (d.timeVctl 0 (bitsOf b 0 8 + bitsOf b 8 8 * 256)).1
  (d.timeVctl 1 (bitsOf b 16 8 + d.rf R.TIME_VCTL_SEG 0 1 * 256)).1

def Dev.mapFlows (l : LastRec) (d : Dev) : Dev :=
  let d : Dev := { d with disp := [] }
  (List.range 32).foldl (fun d i =>
    let v : LevelRec := Tbl.getD { quota := 0, ringlog := 0, cls := 0, bank := 0 } l.levels i
    ((d.wf R.DISP_LVL_CFG_QUOTA v.quota 0 (i / 16) (i % 16)).wf R.DISP_LVL_CFG_RINGLOG v.ringlog 0 (i / 16) (i % 16)).wf
      R.DISP_LVL_CFG_CLASS v.cls 0 (i / 16) (i % 16)) d

def Dev.mapOwn (l : LastRec) (d : Dev) : Dev :=
  let o := l.own
  (((d.wf R.PWR_CFG_RESV o.resv).wf R.MARG_CFG_BOOST_MV o.boostMv).wf R.MARG_CFG_HZN_WARN o.hznWarn).wf R.CFGCHK_CFG_REACT o.react

/-! ### Mapping (R51) -/

/-- The configuration words of an entry. -/
def Dev.mapIo (d : Dev) (e : IoEntry) : Dev :=
  match e.body with
  | .global h mx dv _ _ _ _ _ _ _ => ((d.wf R.RST_HOLD_HOLD_MAX h).wf R.RST_HOLD_MAXAGE mx).wf R.ACQ_DEVIDX_IDX dv
  | .ain n c w _ _ _ =>
    (d.loadWord (R.ADC_CHn_WLEN.addr (n / 16) (n % 16) 0) w.toNat).loadWord (R.ADC_CHn_CTL.addr (n / 16) (n % 16) 0) c.toNat
  | .adcBank b c k ps =>
    let d := (d.loadWord (R.ADC_BANK_CFG.addr b 0 0) c.toNat).loadWord (R.ADC_CHK_CFG.addr b 0 0) k.toNat
    (List.range 8).foldl (fun d i => d.loadWord (R.ADC_PAIRp.addr b i 0) (nth 0 ps i).toNat) d
  | .aout c w _ => d.loadWord (R.AOUT_CHn_CFG.addr 0 c 0) w.toNat
  | .dio p w _ => d.loadWord (R.DIO_PINn_CFG.addr 0 p 0) w.toNat
  | .pwm c w p _ _ => (d.loadWord (R.PWM_CHn_PER.addr 0 c 0) p.toNat).loadWord (R.PWM_CHn_CFG.addr 0 c 0) w.toNat
  | .stepgen g w => d.loadWord (R.DIO_SGn_CFG.addr 0 g 0) w.toNat
  | .chopper c w cur =>
    ((d.loadWord (R.CHOP_CH_CFG.addr 0 c 0) w.toNat).loadWord (R.CHOP_CH_CUR.addr 0 c 0) cur.toNat).setChop c { used := true }
  | _ => d

/-- Banks with a mapped channel. -/
def LastRec.banks (l : LastRec) : List Nat :=
  (List.range 16).filter (fun b => l.io.any (fun e => match e.body with | .ain n _ _ _ _ _ => decide (n / 16 = b) | _ => false))

/-- Enable the blocks again: banks with a mapped channel, outputs, segments and controllers of the schedules. -/
def Dev.blocksOn (l : LastRec) (d : Dev) : Dev :=
  let d := l.banks.foldl (fun d b => (d.wf R.ADC_CTRL_EN 1 b).bankEnable b) d
  let d := (d.setEn .dio true).setEn .pwm true
  let d := Dev.when_ (decide (d.nAout ≠ 0)) (fun d => (d.setEn .aout true).wf R.CHOP_CTRL_EN 1) d
  let d := (l.hol.map Prod.fst).foldl (fun d n => d.holEnable n) d
  (l.can.map Prod.fst).foldl (fun d n => d.canEnable n) d

def Dev.mapBlocks (l : LastRec) (d : Dev) : Dev :=
  let d := d.unconfigure
  let d : Dev := { d.chopsDark with steps := [], chops := [],
                                    outs := Tbl.mapVals (fun _ o => { o with wait := none, toSafe := false, old := true }) d.outs }
  let d := (List.range 32).foldl (fun d g => d.wf R.DIO_SGn_STAT_BACKLOG 0 0 g) d
  let d := l.io.foldl Dev.mapIo d
  let d := l.regs.foldl (fun d e => match blkAt e.1 with
    | some (.hol, n) => if n < d.nHol then d.loadWord e.1 e.2 else d
    | some (.can, n) => if n < d.nCan then d.loadWord e.1 e.2 else d
    | _ => d) d
  d.blocksOn l

/-- The receive and transmit buffers of the ports start empty. -/
def Dev.portsFresh (d : Dev) : Dev :=
  let d := (List.range d.nPorts).foldl (fun d n => d.portUp n (fun x => { x with fills := [] })) d
  { d with ethRx := [] }

/-! ### Step 9 and EMPTY -/

/-- Recipes preloaded into sequencers (R208); any other recipe goes with the Last it was loaded under. -/
def Dev.mapRecipes (l : LastRec) (d : Dev) : Dev :=
  l.recipes.foldl (fun d e => match d.seqOf e.1 with
    | some (u, i) => (d.recipePut e.1 u i e.2).1
    | none => d) { d with recipes := [], recipeParsed := [] }

/-- What belonged to the Last before. -/
def Dev.forget (d : Dev) : Dev :=
  { d with units := [], ckpt := [], sigs := [], forced := [], sigWait := [], eng := [], rings := [], hsig := [], owed := [], recipeLoad := [], srcHits := [], dseqs := [],
           unitWr := (0, []) }

/-- Fabric rails off (R62, R461). -/
def Dev.railsOff (d : Dev) : Dev :=
  (List.range 8).foldl (fun d g => ((d.wf R.RGN_RAIL_MV 0 g).wf R.RGN_RAIL_PLAN_MV 0 g).setRgn g {}) d

/-- Step generators show whether an axis of a unit of the Last has them (R196). -/
def Dev.showGens (d : Dev) : Dev :=
  let gs := (((d.cfg.axes.filter (fun e => d.cfg.units.any (fun r => decide (r.unit = e.1)))).map Prod.snd).flatten.filter (fun c => decide (c.kind ≠ 0) && decide (c.dest = 2))).map (·.destNo)
  (List.range 32).foldl (fun d g => d.wb R.DIO_SGn_STAT_ACTIVE (gs.contains g) 0 g) d

/-- Step 9 over the reduced Last; the second component says whether a cluster lacked a spare (R79). -/
def Dev.mapLast (l : LastRec) (dm : Dev × List Host.Cell) : (Dev × List Host.Cell) × Bool :=
  let d := dm.1.railsOff.forget.blocksOff.clearTags
  let d : Dev := { d with last := some l, rst := { d.rst with dark := false } }
  let d := l.units.foldl (Dev.mapUnit l) d
  if !d.sparesOk then ((d, dm.2), false)
  else
    let d := (((d.mapCads l).mapFlows l).mapOwn l).showStructure l
    let d := d.mapBlocks l
    let d := d.portsFresh
    let d := l.absent.foldl (fun d s => d.showSig s absentSig) d
    let us := l.units.map (·.unit)
    let d := us.foldl (fun d u => d.remapBad u) d
    let d := l.gates.foldl (fun d e => d.gateLoad e) d
    let r := us.foldl (fun dm u => Dev.fillUnit u dm) (d, dm.2)
    ((r.1.showGens.mapRecipes l, r.2), true)

/-- EMPTY after a load that failed at steps 8 to 11 (R62): rails off, outputs in their power-on state, ports but for Eyelet and PTP
inactive, no Last, no source of one (that SRC reads 0 here is the model's choice, log entry 87). -/
def Dev.emptied (d : Dev) : Dev :=
  let d := d.railsOff.forget.blocksOff.clearTags.outsPowerOn
  let d := (d.unconfigure).portsFresh
  let d := (List.range d.nPorts).foldl (fun d n => d.wf R.ETH_GCL_CTL_EN 0 n) d
  let d := (List.range 8).foldl (fun d n =>
    let d := ((d.wf R.TIME_CADn_CFG_MULT 0 0 n).wf R.TIME_CADn_CFG_WAITLOCK 0 0 n).wf R.TIME_CADn_PHASE_PHASE 0 0 n
    let d := ((d.wf R.TIME_CADn_CYC_CYC 0 0 n).wf R.TIME_CADn_STAT_RUN 0 0 n).wf R.TIME_CADn_STAT_WAIT 0 0 n
    d.setCad n (fun _ => {})) d
  let d : Dev := { d with last := none, streamed := none, disp := [], recipes := [], recipeParsed := [] }
  let d := (((d.showStructure {}).showGens).pairLoaded false).wf R.SYS_LAST_STAT_SRC 0
  { d.setLast lsEMPTY with rst := { d.rst with safe := false, plrWait := false, plrRun := false } }

end Sys2Proof.Machine
end

