-- ==== Sys2Proof/Machine/Loads.lean ====
section
/-!
DEFINITION. The loads of a Last (R55 to R65): from a stream, from a slot, at boot; slots, firmware images (R486).
-/
namespace Sys2Proof.Machine

/-! ### Results (R61, R62, R65, R376) -/

/-- What `SYS.MISSING` reports. -/
def Dev.missShow (m : Option (Nat × Nat)) (d : Dev) : Dev :=
  match m with
  | some (t, i) => (d.wf R.SYS_MISSING_RTYPE t).wf R.SYS_MISSING_INDEX i
  | none => (d.wf R.SYS_MISSING_RTYPE 0).wf R.SYS_MISSING_INDEX 0

/-- RESULT and STEP as a response's payload. -/
def Dev.loadBytes (d : Dev) : List Byte :=
  [BitVec.ofNat 8 (d.rf R.SYS_LAST_STAT_RESULT), BitVec.ofNat 8 (d.rf R.SYS_LAST_STAT_STEP)]

/-- The response to the request that began a load, verify or slot write. -/
def Dev.loadAnswer (owe : Option (Nat × Nat)) (d : Dev) : Dev := d.answerOwed owe eyOK d.loadBytes

/-- Image operations of the part stores: LAST_STREAM, LAST_VERIFY, SLOT_WRITE of either slot. -/
def imgOps : List Nat := [0x10, 0x12, 0x130000, 0x130001]

/-- Another image transfer, load or slot write is in progress (R61). -/
def Dev.imgBusy (q : Req) (op : Nat) (d : Dev) : Bool :=
  d.load.isSome || d.slotWr.isSome || d.sessions.any (fun x => x.2.parts.any (fun p => imgOps.contains p.1 && !(decide (x.1 = q.sess) && decide (p.1 = op))))

/-- The answer BUSY leaves RESULT as it is; its step byte is a free one of R65's (log entry 38). -/
def Dev.busyAnswer (q : Req) (d : Dev) : Dev :=
  let r := d.fresh 4
  r.2.answer q eyOK [BitVec.ofNat 8 ldBUSY, BitVec.ofNat 8 (r.1 % 13)]

/-- An image command, unless another one is in progress. -/
def State.imageCmd (s : State) (q : Req) (op priv : Nat) (img : List Byte) (f : List Byte → State → Res) : Res :=
  s.eyelet q priv (fun s => if s.dev.imgBusy q op then s.on (Dev.busyAnswer q) else s.eyeletImg q op priv img f)

/-! ### Failure and boot (R62, R64) -/

/-- A slot's state. -/
def Dev.setSlot (i st : Nat) (d : Dev) : Dev :=
  { d with slots := Tbl.put i { (Tbl.getD {} d.slots i : SlotSt) with st := st } d.slots }

/-- The checks of a load; step 8 begins when they pass, and the image goes to the incoming area (R58, R59 steps 1 to 7; log entry 97). The second component says whether it began. That a load which ends
with RUNNING raises no LAST_FAIL is the model's choice (log entry 86). -/
def Dev.loadBegin (src : Nat) (boot second : Bool) (owe : Option (Nat × Nat)) (im : List Byte) (d : Dev) : Dev × Bool :=
  let c := d.lastCheck im
  let d := d.missShow c.2.2
  if c.1 ≠ ldOK then ((d.loadResult c.1 c.2.1 true).loadAnswer owe, false)
  else if !(decide (d.lastState = lsEMPTY) || decide (d.lastState = lsSTOPPED)) then ((d.loadResult ldRUNNING 7 false).loadAnswer owe, false)
  else
    ({ d.setLast lsLOADING with
       areas := Tbl.put (1 - d.area) ((parseLast im).own.svcGrp, im) d.areas
       load := some { src := src, last := parseLast im, step := 8, boot := boot, owe := owe, second := second } }, true)

/-- Boot of a slot: a load that fails at steps 1 to 3 leaves it BAD (R64). -/
def Dev.bootSlot (slot : Nat) (second : Bool) (d : Dev) : Dev × Bool :=
  let x : SlotSt := Tbl.getD {} d.slots slot
  if x.st ≠ 2 then (d, false)
  else
    let r := d.loadBegin (slot + 1) true second none x.image
    if !r.2 && decide (r.1.rf R.SYS_LAST_STAT_STEP ≤ 3) then (r.1.setSlot slot 3, false) else r

/-- The boot of R64. -/
def Dev.boot (d : Dev) : Dev :=
  let r := d.bootSlot (d.slotPref % 2) false
  if r.2 then r.1 else (r.1.bootSlot (1 - d.slotPref % 2) true).1

/-- A load fails at steps 8 to 11: EMPTY; a boot goes on with the other slot. -/
def Dev.loadFail (res step : Nat) (d : Dev) : Dev :=
  match d.load with
  | none => d
  | some l =>
    let d : Dev := { d.emptied with load := none }
    let d := (d.loadResult res step true).loadAnswer l.owe
    if l.boot && !l.second then (d.bootSlot (2 - l.src) true).1 else d

/-! ### Steps 9 to 12 -/

/-- Step 11 begins: rails at V_eol (R445). -/
def Dev.rehearse (d : Dev) : Dev :=
  let d : Dev := { d with load := d.load.map (fun l => { l with step := 11, banks := [] }) }
  d.rgnsUsed.foldl (fun d g => d.wf R.RGN_RAIL_MV (d.eolV g) g) d

/-- Steps 9 and 10: the reduced Last is mapped; every bank with a mapped channel calibrates (R59, R79, R237). -/
def Dev.loadMap (dm : Dev × List Host.Cell) : Dev × List Host.Cell :=
  match dm.1.load with
  | none => dm
  | some l =>
    let red := dm.1.reduce l.last
    let r := Dev.mapLast red dm
    if !r.2 then (r.1.1.loadFail ldCOPY_FAIL 9, r.1.2)
    else
      let banks := red.banks
      let d : Dev := banks.foldl (fun d b => d.bankcal b) { r.1.1 with load := some { l with step := 10, banks := banks } }
      (if banks.isEmpty then d.rehearse else d, r.1.2)

/-- A release at the end of a boot load: it waits for a resume record (R467) or for a pair's role (R393). -/
def Dev.bootRelease (boot : Bool) (d : Dev) : Dev :=
  if !boot || d.rst.lcPend then d
  else if d.plr.valid then { d with rst := { d.rst with plrWait := true, plrAt := d.time.cnt, plrRun := d.cfg.autostart } }
  else if d.cfg.autostart ∧ d.dx = dxOFF then d.runLast
  else d

/-- Step 12: STOPPED; forces refitted, the configuration committed, the pair informed, AUTOSTART (R59, R169, R369, R393, R475). -/
def Dev.loadFinish (d : Dev) : Dev :=
  match d.load with
  | none => d
  | some l =>
    let d : Dev := { d.setLast lsSTOPPED with
      load := none, streamed := if l.src = 3 then some l.last.image else none, evt := { d.evt with taken := [] },
      rst := { d.rst with safe := false, holdFrom := none, resume := false } }
    let d := d.loadResult ldOK 12 true
    let d := (d.forceRefit false).forceNow
    let d := d.cfgCommitReq
    let d := if d.cfgRuns then d.cfgStart else d
    let d := d.pairLoaded l.boot
    (d.bootRelease l.boot).loadAnswer l.owe

/-! ### The commands -/

/-- LAST_STREAM (R57). -/
def execLastStream (q : Req) (img : List Byte) (s : State) : Res :=
  s.imageCmd q 0x10 pvENGINEER img (fun im s => s.on (fun d =>
    if d.rst.lcPend || d.lc.erasing then d.answer q eyREFUSED []
    else (d.taken q).loadBegin 3 false false (some (q.sess, q.seq)) im |>.1))

/-- LAST_LOAD (R59, R61). -/
def execLastLoad (q : Req) (slot : Nat) (s : State) : Res :=
  s.imageCmd { q with more := false } 0 pvENGINEER [] (fun _ s => s.on (fun d =>
    if 2 ≤ slot then d.answer q eyMALFORMED []
    else if d.rst.lcPend || d.lc.erasing then d.answer q eyREFUSED []
    else (d.taken q).loadBegin (slot + 1) false false (some (q.sess, q.seq)) (Tbl.getD {} d.slots slot : SlotSt).image |>.1))

/-- LAST_VERIFY (R61): steps 1 to 7, nothing else changes. -/
def execLastVerify (q : Req) (img : List Byte) (s : State) : Res :=
  s.imageCmd q 0x12 pvVIEW img (fun im s => s.on (fun d =>
    let c := d.lastCheck im
    let d := (d.missShow c.2.2).loadResult c.1 c.2.1 false
    d.answer q eyOK d.loadBytes))

/-- A slot write begins (R56): the descriptor is set to WRITING and the image is written; the request is answered when the write ends. One to
the slot of the running Last is refused with RUNNING; its step is a free one of R65's (log entry 38). -/
def Dev.slotPut (q : Req) (slot : Nat) (im : List Byte) (d : Dev) : Dev :=
  if d.running && decide (d.rf R.SYS_LAST_STAT_SRC = slot + 1) then
    let f := d.fresh 4
    let d := f.2.loadResult ldRUNNING (1 + f.1 % 12) false
    d.answer q eyOK d.loadBytes
  else
    { d.taken q with slots := Tbl.put slot { st := 1, image := im } d.slots,
                     slotWr := some { slot := slot, image := im, owe := (q.sess, q.seq) } }

/-- A slot write ends (R56): what was read back (`im`) is checked, and the descriptor set to VALID or BAD. -/
def Dev.slotDone (w : SlotWr) (im : List Byte) (d : Dev) : Dev :=
  let c := d.slotCheck im
  let d : Dev := { d with slots := Tbl.put w.slot { st := if c.1 = ldOK then 2 else 3, image := im } d.slots, slotWr := none }
  (d.loadResult c.1 c.2 false).loadAnswer (some w.owe)

/-- A slot write goes on while no command waits: at which tick it ends and whether flash has spoiled a byte of the image is free (log entry
56). -/
def Dev.slotRun (d : Dev) : Dev :=
  match d.slotWr with
  | none => d
  | some w =>
    let e := d.fresh 1
    if e.1 = 0 then e.2
    else
      let p := e.2.fresh 28
      let x := p.2.fresh 8
      x.2.slotDone w (w.image.mapIdx (fun i b => if i = p.1 then b ^^^ BitVec.ofNat 8 x.1 else b))

/-- What passes with a tick of the rim clock while no command waits. -/
def Dev.idle (d : Dev) : Dev := d.tick.slotRun

/-- SLOT_WRITE (R56). -/
def execSlotWrite (q : Req) (slot : Nat) (img : List Byte) (s : State) : Res :=
  if 2 ≤ slot then s.eyelet q pvOWNER (fun s => s.on (fun d => d.answer q eyMALFORMED []))
  else s.imageCmd q (0x130000 + slot) pvOWNER img (fun im s => s.on (Dev.slotPut q slot im))

/-- SLOT_COMMIT (R57): the slot not in use is the one that is not preferred (DESIGN CHOICE, log entry 39). -/
def execSlotCommit (q : Req) (s : State) : Res :=
  s.imageCmd { q with more := false } 0 pvOWNER [] (fun _ s => s.on (fun d =>
    match d.streamed with
    | some im => d.slotPut q (1 - d.slotPref % 2) im
    | none => d.answer q eyREFUSED []))

/-- BOOT_LOAD (R64): DRAM is trained. -/
def execBootLoad (s : State) : Res :=
  s.on (fun d =>
    if d.rst.phase = 4 ∧ d.rst.epi = none ∧ d.lc.erasing = false then
      let d : Dev := { d with rst := { d.rst with phase := 5 } }
      if d.lastState = lsEMPTY then d.boot else d
    else d)

/-- LOAD_COPY_DONE (R58, R59 step 8): read back and exchanged, or failed. -/
def execLoadCopyDone (ok : Bool) (s : State) : Res :=
  s.onMem (fun d m => match d.load with
    | some l =>
      if l.step ≠ 8 ∨ d.rst.epi.isSome then (d, m)
      else if !ok then (d.loadFail ldCOPY_FAIL 8, m)
      else Dev.loadMap (({ d with load := some { l with step := 9 }, area := 1 - d.area } : Dev).wf R.SYS_LAST_STAT_SRC l.src, m)
    | none => (d, m))

/-- A bank's calibration ends; the load that waits for the last one goes on to step 11 (R59 step 10, R237). -/
def Dev.bankcalEnd (bank : Nat) (ms : List CalMeas) (d : Dev) : Dev :=
  let d := d.bankcalDone bank ms
  match d.load with
  | some l =>
    if l.step = 10 ∧ l.banks.contains bank = true then
      let rest := l.banks.filter (· ≠ bank)
      let d : Dev := { d with load := some { l with banks := rest } }
      if rest.isEmpty then d.rehearse else d
    else d
  | none => d

def execBankcalDone (bank : Nat) (ms : List CalMeas) (s : State) : Res :=
  s.guarded (decide (bank < s.dev.nBanks)) (Dev.bankcalEnd bank ms)

/-- LOAD_REHEARSAL_END (R445): an overrun at 0.95 V fails the load; else first plans of every used region and step 12. -/
def execLoadRehearsalEnd (tooLate : Bool) (ps : List PlanMeas) (s : State) : Res :=
  s.on (fun d => match d.load with
    | some l =>
      if l.step ≠ 11 ∨ d.rst.epi.isSome then d
      else if tooLate then d.loadFail ldBAD_REHEARSAL 11
      else if d.rgnsUsed.all (fun g => ps.any (fun p => decide (p.rgn = g))) then
        ((ps.filter (fun p => d.rgnsUsed.contains p.rgn)).foldl (fun d p => d.planApply p) d).loadFinish
      else d
    | none => d)

/-! ### Firmware (R486) -/

/-- What a firmware image is judged: 0 OK, 1 BAD_FORMAT, 2 BAD_CRC, 3 BAD_SIG, 4 ROLLBACK. -/
def Dev.fwCheck (im : List Byte) (d : Dev) : Nat :=
  if !Config.fwForm im then 1
  else if !Config.fwCrc im then 2
  else if !(isSigned im && decide (byteAt (trailer im) 4 = 0xFE) && signedBy Config.firmwareKeyHash im) then 3
  else if Config.fwSvn im < d.lc.svnMin then 4
  else 0

/-- FW_LOAD (R486): an accepted image goes into the firmware slot that is not running and boots next. -/
def execFwLoad (q : Req) (img : List Byte) (s : State) : Res :=
  s.eyeletImg q 0x15 pvOWNER img (fun im s => s.on (fun d =>
    let r := d.fwCheck im
    let other := 1 - d.lc.fwSlot % 2
    let d : Dev := if r = 0 then { d with lc := { d.lc with fwImages := Tbl.put other im d.lc.fwImages, fwNext := other } } else d
    d.answer q eyOK [BitVec.ofNat 8 r]))

end Sys2Proof.Machine
end

