-- ==== Sys2Proof/Machine/Reset.lean ====
section
/-!
DEFINITION. Reset sources, the exit of an episode, start-up, resume, HOLD_MAX, power loss and its record, supplies (R377, R450 to R469,
R497).
-/
namespace Sys2Proof.Machine

/-! ### Sources (R450, R451) -/

/-- A level source is asserted or released. -/
def State.level (s : State) (code : Nat) (on : Bool) : Res :=
  s.onMem (fun d m => if on then Dev.assertReset code (d, m) else (d.releaseReset code, m))

def execRstPor (on : Bool) (s : State) : Res := s.level srPOR on
def execRstPin (on : Bool) (s : State) : Res := s.level srPIN on
def execRstTherm (on : Bool) (s : State) : Res := s.level srTHERM on

def execRstScwd (s : State) : Res := s.onMem (fun d m => Dev.assertReset srSCWD (d, m))

/-- The debug port acts only in the states that open it (R450, R479). -/
def execRstDbgSys (s : State) : Res := s.onMem (fun d m => if d.lc.debugOpen then Dev.assertReset srDBG_SYS (d, m) else (d, m))
def execRstDbgCore (s : State) : Res := s.onMem (fun d m => if d.lc.debugOpen then Dev.assertReset srDBG_CORE (d, m) else (d, m))

/-- Eyelet RESET (R377): the response goes first. -/
def execReset (q : Req) (reach : Nat) (s : State) : Res :=
  s.eyelet q pvENGINEER (fun s => s.onMem (fun d m =>
    if 2 ≤ reach then (d.answer q eyMALFORMED [], m)
    else Dev.assertReset (if reach = 0 then srEYL_CORE else srEYL_SYS) (d.answer q eyOK [], m)))

/-! ### The exit of an episode (R454, R457, R462) -/

/-- The CAUSE word of an episode. -/
def Episode.cause (e : Episode) : Nat := e.first + 16 * e.reach + 65536 * maskOf e.mask

/-- Rails return at their plans after a core reset (R446, R462 step 1). -/
def Dev.railsBack (d : Dev) : Dev :=
  d.rgnsUsed.foldl (fun d g => (d.wf R.RGN_RAIL_MV (d.planV g) g).wf R.RGN_RAIL_PLAN_MV (d.rf R.MARG_RGN_PLAN_PLAN_MV 0 g) g) d

/-- A pulse is still asserted. In a SYSTEM or POWER-ON episode the counter does not run, and the pulse's end is the environment's to keep (log
entry 41). -/
def Dev.pulsing (d : Dev) (e : Episode) : Bool := decide (e.reach = 1) && decide (d.time.cnt < e.pulseEnd)

/-- Every source is released: CAUSE, a RESET event, a new nonce; then the start-up or the resume. -/
def Dev.exit (d : Dev) : Dev :=
  match d.rst.epi with
  | none => d
  | some e =>
    if !e.now.isEmpty || d.pulsing e || d.rst.loss.isSome || (decide (e.reach ≠ 1) && d.rst.vinLow) || d.rst.trimFault then d
    else
      let d := d.ww (R.RST_CAUSE.addr 0 0 0) e.cause
      let r := d.fresh 64
      let d : Dev := { r.2 with
        lc := { r.2.lc with nonce := r.1 }, evt := { r.2.evt with pcycle := r.2.evt.pcycle + b2n (decide (e.reach = 3)), stopped := false } }
      let d := d.raise Ev.RESET 0 (leBytes 4 e.cause)
      if e.reach = 1 then
        let d := if d.last.isSome then d.railsBack else d
        { d with rst := { d.rst with epi := none, resume := d.last.isSome || d.load.isSome, exitTick := d.time.cnt } }
      else ({ d with rst := { d.rst with epi := none, phase := 1, entries := [] } } : Dev).plrShow (b2n d.plr.valid) 0

def execResetEpisodeExit (s : State) : Res := s.on Dev.exit

/-- TRIM_LOAD_END (R457, R458). -/
def Dev.trimEnd (ok : Bool) (d : Dev) : Dev :=
  if d.rst.phase ≠ 1 ∨ d.rst.epi.isSome then d
  else if ok then
    { ((d.wf R.RST_STAT_TRIM_VALID 1).wf R.RST_TRIM_FAILS 0) with rst := { d.rst with phase := 2 } }
  else
    let n := d.rf R.RST_TRIM_FAILS + 1
    let d := d.wf R.RST_TRIM_FAILS (min n 3)
    if 3 ≤ n then { d with rst := { d.rst with trimFault := true, phase := 0 } } else d

def execTrimLoadEnd (ok : Bool) (s : State) : Res := s.on (Dev.trimEnd ok)

/-- RIM_PLL_LOCK (R460 step 3): the counter starts from zero, the rim is up. -/
def Dev.pllUp (d : Dev) : Dev :=
  if d.rst.phase = 2 ∧ d.rst.epi = none ∧ d.time.pll = false then
    ({ d with time := { d.time with pll := true, cnt := 0 }, rst := { d.rst with phase := 3 } } : Dev).wf R.PWR_CTRL_EN 1
  else d

def execRimPllLock (s : State) : Res := s.on Dev.pllUp

/-- SERVICE_CORES_UP (R446, R460 step 4, R486): the firmware slot that passes its check runs; with none the device stays in phase RESET. Rolling passes
resume with their next channel (R244). -/
def Dev.coresRise (okA okB : Bool) (d : Dev) : Dev :=
  if d.rst.phase < 3 ∨ d.rst.epi.isSome ∨ d.rst.coresUp ∨ d.rst.loss.isSome then d
  else
    let ok (n : Nat) : Bool := if n = 0 then okA else okB
    let cur := d.lc.fwSlot % 2
    if !ok cur && !ok (1 - cur) then (if d.rst.phase = 3 then { d with rst := { d.rst with phase := 2 } } else d)
    else
      let slot := if ok cur then cur else 1 - cur
      let img := Tbl.getD [] d.lc.fwImages slot
      let svn := if (d.lc.state = lcOWNED ∨ d.lc.state = lcSEALED) ∧ img ≠ [] then max d.lc.svnMin (Config.fwSvn img) else d.lc.svnMin
      let first := decide (d.rst.phase = 3)
      let d : Dev := { d with
        lc := { d.lc with fwSlot := slot, svnMin := svn }, netApplied := if first then d.netcfg else d.netApplied,
        rst := { d.rst with coresUp := true, phase := max d.rst.phase 4 } }
      let d := (if first then d.netApply else d).plansAgain
      (List.range d.nBanks).foldl (fun d k => if (d.bank k).pass.isSome && (d.bank k).roll.isNone then d.passNext k else d) d

def execServiceCoresUp (okA okB : Bool) (s : State) : Res := s.on (Dev.coresRise okA okB)

/-! ### Resume (R462, R463) -/

/-- RESUME_READY: units mapped, restored and verified; cadences of a RUNNING Last that had been released go on from their next boundary. -/
def Dev.resumeReady (dm : Dev × List Host.Cell) : Dev × List Host.Cell :=
  let d := dm.1
  if !d.rst.resume || d.rst.epi.isSome || !d.rst.dark then dm
  else
    let now := d.time.cnt
    let d := d.wf R.RST_RESUME_US ((now - d.rst.exitTick) / 500 % 2 ^ 32)
    if d.load.any (fun l => decide (l.step = 9)) then
      Dev.loadMap ({ d with rst := { d.rst with resume := false } }, dm.2)
    else
      let r := Dev.fabricRestore false (d, dm.2)
      let d : Dev := { r.1 with rst := { r.1.rst with dark := false } }
      let go := d.rst.wasRun && d.running
      let back (c : CadSt) : CadSt := { c with halt := false, run := false, ref := c.ref.map (fun r => if go then now - 1 else r),
                                               res := if go && c.ref.isSome && !c.deferred then 2 else c.res }
      let d := d.usedCads.foldl (fun d n => d.setCad n back) d
      (if go then d else { d with rst := { d.rst with resume := false } }, r.2)

def execResumeReady (s : State) : Res := s.onMem (fun d m => Dev.resumeReady (d, m))

/-- HOLD_MAX_EXPIRY: the window is over before the resume is complete. -/
def Dev.holdEnd (d : Dev) : Dev :=
  match d.rst.holdFrom with
  | none => d
  | some t =>
    if d.time.cnt < t + d.rf R.RST_HOLD_HOLD_MAX * 500000 ∨ d.rst.safe ∨ !d.running then d
    else
      let done := !d.rst.dark
      let d := d.allSafe.setLast lsSTOPPED
      let d := d.usedCads.foldl (fun d n =>
        ((d.setCad n (fun c => { c with ref := none, deferred := false, run := false, res := 0 })).wf R.TIME_CADn_STAT_RUN 0 0 n).wf
          R.TIME_CADn_STAT_WAIT 0 0 n) d
      let d : Dev := { d with rst := { d.rst with safe := true, resume := d.rst.resume && !done } }
      (d.wf R.RST_STAT_HOLDEXP 1).raise Ev.HOLD_EXPIRED 0 []

def execHoldMaxExpiry (s : State) : Res := s.on Dev.holdEnd

/-! ### Power loss (R464 to R466) -/

/-- The power-loss sequence has its steps 3 to 5: not in a SYSTEM or POWER-ON episode, before step 12 of a boot, or after an accepted
life-cycle transition; a record that waits to be applied stays. -/
def Dev.lossWrites (d : Dev) : Bool :=
  (match d.rst.epi with | some e => decide (e.reach = 1) | none => true) && decide (d.rst.phase = 5) &&
    (match d.load with | some l => !l.boot | none => true) && !d.rst.lcPend && !d.rst.plrWait

/-- POWER_LOSS_DETECT: steps 1 to 3 of R465. -/
def Dev.powerLoss (d : Dev) : Dev :=
  if d.rst.vinLow then d
  else
    let w := d.lossWrites
    let d : Dev := (d.wf R.RST_STAT_VINLOW 1).wf R.PWR_SUPPLY_VIN_OK 0
    let d : Dev := { d with rst := { d.rst with vinLow := true } }
    if d.rst.phase < 3 ∨ d.rst.loss.isSome then d
    else
      let d := if d.dxRuns then d.dxUp (fun x => { x with relinq := true }) else d
      let d := d.raise Ev.PWR_LOSS 0 []
      let d := (d.fabricStop.holHold).canHold
      let d := (List.range 8).foldl (fun d g => d.wf R.RGN_RAIL_MV 0 g) d
      let d := if w then ({ d with plr := { d.plr with valid := false } } : Dev).plrShow 0 0 else d
      { d with sessions := [], rst := { d.rst with
          loss := some d.time.cnt, lossRec := w && d.last.isSome, lossNs := if d.locked 0 then d.viewNs 0 else 0, coresUp := false } }

def execPowerLossDetect (s : State) : Res := s.on Dev.powerLoss

/-- The resume record of the present state (R466). -/
def Dev.plrMake (d : Dev) : PlrRec :=
  let ck := d.ckpt.filterMap (fun e => e.2.complete.map (fun c => (e.1, c)))
  { valid := true, crcOk := true, id := d.cfg.id, ns := d.rst.lossNs,
    cyc := (List.range 8).map (fun n => if (d.cad n).used then (match Tbl.get? ck n with | some c => c.k | none => 0) else 0),
    force := d.force, ckpts := ck }

/-- PLR_COPY_DONE: steps 5 and 6 of R465; sources that waited take effect with PLR, in the order in which they were asserted. -/
def Dev.plrCopied (dm : Dev × List Host.Cell) : Dev × List Host.Cell :=
  let d := dm.1
  if d.rst.loss.isNone then dm
  else
    let d : Dev := if d.rst.lossRec then ({ d with plr := d.plrMake } : Dev).plrShow 1 0 else d
    let later := d.rst.deferred
    let gone := d.rst.deferOff
    let d : Dev := { d with evt := { d.evt with stopped := true }, rst := { d.rst with loss := none, lossRec := false, deferred := [], deferOff := [] } }
    let r := (later ++ [srPLR]).foldl (fun dm c =>
      let r := Dev.assertReset c dm
      (r.1.stale, r.2)) (d, dm.2)
    (gone.foldl (fun d c => d.releaseReset c) r.1, r.2)

def execPlrCopyDone (s : State) : Res := s.onMem (fun d m => Dev.plrCopied (d, m))

/-- VIN_RECOVERY. -/
def execVinRecovery (s : State) : Res :=
  s.on (fun d => { ((d.wf R.RST_STAT_VINLOW 0).wf R.PWR_SUPPLY_VIN_OK 1) with rst := { d.rst with vinLow := false } })

/-! ### Applying the record (R467, R468) -/

/-- A record waits and this device's role lets it be judged: a pair keeps it while PAIRING. -/
def Dev.plrDue (d : Dev) : Bool :=
  d.rst.plrWait && decide (d.lastState = lsSTOPPED) && d.mayRun && d.rst.epi.isNone && !d.rst.resume

/-- The record is used up; the release that waited for it follows. -/
def Dev.plrDone (st why : Nat) (d : Dev) : Dev :=
  let d := (d.plrShow st why).raise (if st = 2 then Ev.PLR_APPLIED else Ev.PLR_REFUSED) 0 []
  let run := d.rst.plrRun
  let d : Dev := { d with plr := { d.plr with valid := false }, rst := { d.rst with plrWait := false, plrRun := false } }
  if run then d.runLast else d

/-- Why the record is refused; 0 for none. Without LOCK only what does not depend on it counts. -/
def Dev.plrWhy (d : Dev) : Nat :=
  let r := d.plr
  let age := d.rf R.RST_HOLD_MAXAGE
  if !r.crcOk then 1
  else if r.id ≠ d.cfg.id then 2
  else if r.ns = 0 then 4
  else if !d.locked 0 then 0
  else if d.viewNs 0 < r.ns then 6
  else if age ≠ 0 ∧ age * 60000000000 < d.viewNs 0 - r.ns then 3
  else 0

/-- Recipe areas from the flash store; a sequencer without an image there has none (R468). -/
def Dev.recipesBack (d : Dev) : Dev :=
  let ns := d.recipes.map Prod.fst ++ d.recipeStore.map Prod.fst
  ns.eraseDups.foldl (fun d n => match Tbl.get? d.recipeStore n, d.seqOf n with
    | some b, some (u, i) => (d.recipePut n u i b).1
    | _, _ => { d with recipes := Tbl.del n d.recipes, recipeParsed := Tbl.del n d.recipeParsed }) d

/-- The record is applied before any cadence is released. -/
def Dev.plrApplyTo (dm : Dev × List Host.Cell) : Dev × List Host.Cell :=
  let d := dm.1
  let d : Dev := { d with
    force := d.plr.force, forceOld := none, ckpt := Tbl.mapVals (fun _ c => ({ complete := some c } : CkptSt)) d.plr.ckpts }
  let d := d.recipesBack
  let r := Dev.fabricRestore true (d, dm.2)
  (r.1.forceNow.plrDone 2 0, r.2)

def execPlrApply (s : State) : Res :=
  s.onMem (fun d m =>
    if !d.plrDue then (d, m)
    else if d.plrWhy ≠ 0 then (d.plrDone 3 d.plrWhy, m)
    else if d.locked 0 then Dev.plrApplyTo (d, m)
    else (d, m))

/-- How long a record waits for LOCK, in ticks: the largest timeout of the CAD section, 60 s without one. -/
def Dev.plrWaitTicks (d : Dev) : Nat :=
  let t := d.cfg.cads.foldl (fun a c => max a c.timeout) 0
  (if t = 0 then 60 else t) * 500000000

/-- PLR_WAIT_TIMEOUT: no LOCK within the wait. -/
def Dev.plrLate (d : Dev) : Dev :=
  if d.plrDue && !d.locked 0 && decide (d.rst.plrAt + d.plrWaitTicks ≤ d.time.cnt) then d.plrDone 3 4 else d

def execPlrWaitTimeout (s : State) : Res := s.on Dev.plrLate

/-! ### Supplies (R493, R497, R509) -/

/-- VDDA (0), VSAFE (1) or a VDDIO bank (2 and up) goes good or not. -/
def Dev.supply (which : Nat) (good : Bool) (d : Dev) : Dev :=
  if which = 0 then
    let d := (d.wb R.PWR_SUPPLY_VDDA_OK good).aoutVdda good
    let d := (List.range d.nChop).foldl (fun d c => if (d.chop c).used then d.chopShow c else d) d
    if good then (List.range d.nBanks).foldl (fun d b => if d.flag R.ADC_CTRL_EN b then d.bankEnable b else d) d else d
  else if which = 1 then
    let d := d.wb R.PWR_SUPPLY_VSAFE_OK good
    d.islUp (fun i => ({ i with supplyOk := good } : IslandSt).reset (!good))
  else d.wf R.PWR_SUPPLY_VDDIO_OK (setBits (d.rf R.PWR_SUPPLY_VDDIO_OK) (which - 2) 1 (b2n good))

def execSupplyChange (which : Nat) (good : Bool) (s : State) : Res :=
  s.guarded (decide (which < 10) && (decide (which ≠ 0) || decide (s.dev.variant ≠ 2))) (Dev.supply which good)

end Sys2Proof.Machine
end

