-- ==== Sys2Proof/Machine/Dispatch.lean ====
section
/-! DEFINITION. The dispatcher: one arm per command, each a direct call of that command's meaning. -/
namespace Sys2Proof.Machine

def exec (i : Instr) (s : State) : Host.Outcome State Fault Refusal :=
  match i with
  | .cadenceBoundary mask env => Sys2Proof.Machine.execCadenceBoundary mask env s
  | .samplePresent bank ch => Sys2Proof.Machine.execSamplePresent bank ch s
  | .unitCompletion u tiles flips => Sys2Proof.Machine.execUnitCompletion u tiles flips s
  | .checkpointCopyDone n => Sys2Proof.Machine.execCheckpointCopyDone n s
  | .tileRestoreDone u flips => Sys2Proof.Machine.execTileRestoreDone u flips s
  | .tileWriteApply u => Sys2Proof.Machine.execTileWriteApply u s
  | .dispatchAccept die flow prod orig payload => Sys2Proof.Machine.execDispatchAccept die flow prod orig payload s
  | .dispatchHandover u => Sys2Proof.Machine.execDispatchHandover u s
  | .spillReturn die level => Sys2Proof.Machine.execSpillReturn die level s
  | .itemCompletion u tiles flips => Sys2Proof.Machine.execItemCompletion u tiles flips s
  | .cmpFire j => Sys2Proof.Machine.execCmpFire j s
  | .waitLockTimeout n => Sys2Proof.Machine.execWaitLockTimeout n s
  | .timeCntLoRead => Sys2Proof.Machine.execTimeCntLoRead s
  | .timeSnap mask => Sys2Proof.Machine.execTimeSnap mask s
  | .timeSetWrite v hi => Sys2Proof.Machine.execTimeSetWrite v hi s
  | .timeStepWrite v hi => Sys2Proof.Machine.execTimeStepWrite v hi s
  | .timeIncWrite v hi => Sys2Proof.Machine.execTimeIncWrite v hi s
  | .timeVctlWrite v w => Sys2Proof.Machine.execTimeVctlWrite v w s
  | .timeCmpTargetWrite j hi => Sys2Proof.Machine.execTimeCmpTargetWrite j hi s
  | .refclkLoss => Sys2Proof.Machine.execRefclkLoss s
  | .lastStream q img => Sys2Proof.Machine.execLastStream q img s
  | .lastLoad q slot => Sys2Proof.Machine.execLastLoad q slot s
  | .lastVerify q img => Sys2Proof.Machine.execLastVerify q img s
  | .slotWrite q slot img => Sys2Proof.Machine.execSlotWrite q slot img s
  | .slotCommit q => Sys2Proof.Machine.execSlotCommit q s
  | .slotPrefWrite w => Sys2Proof.Machine.execSlotPrefWrite w s
  | .bootLoad => Sys2Proof.Machine.execBootLoad s
  | .loadRehearsalEnd tooLate ps => Sys2Proof.Machine.execLoadRehearsalEnd tooLate ps s
  | .fwLoad q img => Sys2Proof.Machine.execFwLoad q img s
  | .run q => Sys2Proof.Machine.execRun q s
  | .stop q => Sys2Proof.Machine.execStop q s
  | .reset q reach => Sys2Proof.Machine.execReset q reach s
  | .regRead q addr count => Sys2Proof.Machine.execRegRead q addr count s
  | .regWrite q addr ws => Sys2Proof.Machine.execRegWrite q addr ws s
  | .memRead q addr len => Sys2Proof.Machine.execMemRead q addr len s
  | .memWrite q addr data => Sys2Proof.Machine.execMemWrite q addr data s
  | .recipeLoad q num img => Sys2Proof.Machine.execRecipeLoad q num img s
  | .recRead q first count => Sys2Proof.Machine.execRecRead q first count s
  | .recClear q => Sys2Proof.Machine.execRecClear q s
  | .recClearDone => Sys2Proof.Machine.execRecClearDone s
  | .snapLock q slot lock => Sys2Proof.Machine.execSnapLock q slot lock s
  | .snapClear q slot => Sys2Proof.Machine.execSnapClear q slot s
  | .netcfgRead q => Sys2Proof.Machine.execNetcfgRead q s
  | .netcfgWrite q data => Sys2Proof.Machine.execNetcfgWrite q data s
  | .eyeletHandshake cert => Sys2Proof.Machine.execEyeletHandshake cert s
  | .eyeletIdleTimeout sess => Sys2Proof.Machine.execEyeletIdleTimeout sess s
  | .registerWrite wr addr w => Sys2Proof.Machine.execRegisterWrite wr addr w s
  | .unitClrstat u => Sys2Proof.Machine.execUnitClrstat u s
  | .cfgchkPassEnd => Sys2Proof.Machine.execCfgchkPassEnd s
  | .cfgCommit => Sys2Proof.Machine.execCfgCommit s
  | .cfgSuspend => Sys2Proof.Machine.execCfgSuspend s
  | .cfgchkRefWrite w => Sys2Proof.Machine.execCfgchkRefWrite w s
  | .loopMode u l sig => Sys2Proof.Machine.execLoopMode u l sig s
  | .loopEdit u l sig => Sys2Proof.Machine.execLoopEdit u l sig s
  | .loopSet u l sig => Sys2Proof.Machine.execLoopSet u l sig s
  | .startCold u => Sys2Proof.Machine.execStartCold u s
  | .startWarm u => Sys2Proof.Machine.execStartWarm u s
  | .logicStop u => Sys2Proof.Machine.execLogicStop u s
  | .testOn u => Sys2Proof.Machine.execTestOn u s
  | .testOff u => Sys2Proof.Machine.execTestOff u s
  | .lgNop u => Sys2Proof.Machine.execLgNop u s
  | .lgLd u area j => Sys2Proof.Machine.execLgLd u area j s
  | .lgLdn u area j => Sys2Proof.Machine.execLgLdn u area j s
  | .lgAnd u area j => Sys2Proof.Machine.execLgAnd u area j s
  | .lgAndn u area j => Sys2Proof.Machine.execLgAndn u area j s
  | .lgOr u area j => Sys2Proof.Machine.execLgOr u area j s
  | .lgOrn u area j => Sys2Proof.Machine.execLgOrn u area j s
  | .lgXor u area j => Sys2Proof.Machine.execLgXor u area j s
  | .lgXorn u area j => Sys2Proof.Machine.execLgXorn u area j s
  | .lgSt u area j => Sys2Proof.Machine.execLgSt u area j s
  | .lgStn u area j => Sys2Proof.Machine.execLgStn u area j s
  | .lgS u area j => Sys2Proof.Machine.execLgS u area j s
  | .lgR u area j => Sys2Proof.Machine.execLgR u area j s
  | .lgNot u => Sys2Proof.Machine.execLgNot u s
  | .lgAndPush u area j => Sys2Proof.Machine.execLgAndPush u area j s
  | .lgAndnPush u area j => Sys2Proof.Machine.execLgAndnPush u area j s
  | .lgOrPush u area j => Sys2Proof.Machine.execLgOrPush u area j s
  | .lgOrnPush u area j => Sys2Proof.Machine.execLgOrnPush u area j s
  | .lgXorPush u area j => Sys2Proof.Machine.execLgXorPush u area j s
  | .lgPop u => Sys2Proof.Machine.execLgPop u s
  | .lgRTrig u n => Sys2Proof.Machine.execLgRTrig u n s
  | .lgFTrig u n => Sys2Proof.Machine.execLgFTrig u n s
  | .lgTon u n => Sys2Proof.Machine.execLgTon u n s
  | .lgTof u n => Sys2Proof.Machine.execLgTof u n s
  | .lgTp u n => Sys2Proof.Machine.execLgTp u n s
  | .lgCtu u n => Sys2Proof.Machine.execLgCtu u n s
  | .lgCtd u n => Sys2Proof.Machine.execLgCtd u n s
  | .lgResc u n => Sys2Proof.Machine.execLgResc u n s
  | .lgLdc u n => Sys2Proof.Machine.execLgLdc u n s
  | .lgLdw u area j => Sys2Proof.Machine.execLgLdw u area j s
  | .lgStw u area j => Sys2Proof.Machine.execLgStw u area j s
  | .lgAdd u area j => Sys2Proof.Machine.execLgAdd u area j s
  | .lgSub u area j => Sys2Proof.Machine.execLgSub u area j s
  | .lgMul u area j => Sys2Proof.Machine.execLgMul u area j s
  | .lgDiv u area j => Sys2Proof.Machine.execLgDiv u area j s
  | .lgWand u area j => Sys2Proof.Machine.execLgWand u area j s
  | .lgWor u area j => Sys2Proof.Machine.execLgWor u area j s
  | .lgWxor u area j => Sys2Proof.Machine.execLgWxor u area j s
  | .lgGt u area j => Sys2Proof.Machine.execLgGt u area j s
  | .lgGe u area j => Sys2Proof.Machine.execLgGe u area j s
  | .lgEq u area j => Sys2Proof.Machine.execLgEq u area j s
  | .lgNe u area j => Sys2Proof.Machine.execLgNe u area j s
  | .lgLe u area j => Sys2Proof.Machine.execLgLe u area j s
  | .lgLt u area j => Sys2Proof.Machine.execLgLt u area j s
  | .lgShl u n => Sys2Proof.Machine.execLgShl u n s
  | .lgShr u n => Sys2Proof.Machine.execLgShr u n s
  | .lgJmp u d => Sys2Proof.Machine.execLgJmp u d s
  | .lgJmpc u d => Sys2Proof.Machine.execLgJmpc u d s
  | .lgJmpcn u d => Sys2Proof.Machine.execLgJmpcn u d s
  | .lgEnd u => Sys2Proof.Machine.execLgEnd u s
  | .frcSelWrite w => Sys2Proof.Machine.execFrcSelWrite w s
  | .frcSet => Sys2Proof.Machine.execFrcSet s
  | .frcRemove => Sys2Proof.Machine.execFrcRemove s
  | .forceCommit => Sys2Proof.Machine.execForceCommit s
  | .axEnable u a sig => Sys2Proof.Machine.execAxEnable u a sig s
  | .axDisable u a sig => Sys2Proof.Machine.execAxDisable u a sig s
  | .axMoveAbs u a sig => Sys2Proof.Machine.execAxMoveAbs u a sig s
  | .axMoveRel u a sig => Sys2Proof.Machine.execAxMoveRel u a sig s
  | .axVelocity u a sig => Sys2Proof.Machine.execAxVelocity u a sig s
  | .axStop u a sig => Sys2Proof.Machine.execAxStop u a sig s
  | .axGearIn u a sig => Sys2Proof.Machine.execAxGearIn u a sig s
  | .axGearOut u a sig => Sys2Proof.Machine.execAxGearOut u a sig s
  | .axOffset u a sig => Sys2Proof.Machine.execAxOffset u a sig s
  | .axHome u a sig => Sys2Proof.Machine.execAxHome u a sig s
  | .axSetPos u a sig => Sys2Proof.Machine.execAxSetPos u a sig s
  | .axResetFault u a sig => Sys2Proof.Machine.execAxResetFault u a sig s
  | .axVmSpeed u a sig => Sys2Proof.Machine.execAxVmSpeed u a sig s
  | .chopTrip ch ph first => Sys2Proof.Machine.execChopTrip ch ph first s
  | .chopMaxOn ch ph => Sys2Proof.Machine.execChopMaxOn ch ph s
  | .chopOffEnd ch ph => Sys2Proof.Machine.execChopOffEnd ch ph s
  | .sqStart u n sig => Sys2Proof.Machine.execSqStart u n sig s
  | .sqHold u n sig => Sys2Proof.Machine.execSqHold u n sig s
  | .sqResume u n sig => Sys2Proof.Machine.execSqResume u n sig s
  | .sqAbort u n sig => Sys2Proof.Machine.execSqAbort u n sig s
  | .sqReset u n sig => Sys2Proof.Machine.execSqReset u n sig s
  | .stepFetchDone u n => Sys2Proof.Machine.execStepFetchDone u n s
  | .recipeStoreWrite num => Sys2Proof.Machine.execRecipeStoreWrite num s
  | .adcWindowClose bank ch m => Sys2Proof.Machine.execAdcWindowClose bank ch m s
  | .mainsEdge => Sys2Proof.Machine.execMainsEdge s
  | .mainsTimeout => Sys2Proof.Machine.execMainsTimeout s
  | .adcChWrite bank ch wlen w m => Sys2Proof.Machine.execAdcChWrite bank ch wlen w m s
  | .bankcal bank => Sys2Proof.Machine.execBankcal bank s
  | .roll bank => Sys2Proof.Machine.execRoll bank s
  | .stoproll bank => Sys2Proof.Machine.execStoproll bank s
  | .bankcalDone bank ms => Sys2Proof.Machine.execBankcalDone bank ms s
  | .rollCalDone bank ms => Sys2Proof.Machine.execRollCalDone bank ms s
  | .autocalPeriod bank => Sys2Proof.Machine.execAutocalPeriod bank s
  | .checkVisitTimeout bank => Sys2Proof.Machine.execCheckVisitTimeout bank s
  | .dioFilteredTransition pin => Sys2Proof.Machine.execDioFilteredTransition pin s
  | .dioRejectedPulse pin => Sys2Proof.Machine.execDioRejectedPulse pin s
  | .dioCntWrite pin w => Sys2Proof.Machine.execDioCntWrite pin w s
  | .dioOutWrite wr g al w => Sys2Proof.Machine.execDioOutWrite wr g al w s
  | .aoutSetWrite wr n w => Sys2Proof.Machine.execAoutSetWrite wr n w s
  | .pwmSetWrite wr n w => Sys2Proof.Machine.execPwmSetWrite wr n w s
  | .aoutCheck n ovld opn => Sys2Proof.Machine.execAoutCheck n ovld opn s
  | .pwmCarrierStart n => Sys2Proof.Machine.execPwmCarrierStart n s
  | .engArm u e => Sys2Proof.Machine.execEngArm u e s
  | .engDisarm u e => Sys2Proof.Machine.execEngDisarm u e s
  | .engForce u e => Sys2Proof.Machine.execEngForce u e s
  | .engRelease u e slot => Sys2Proof.Machine.execEngRelease u e slot s
  | .groupArm m => Sys2Proof.Machine.execGroupArm m s
  | .groupFire m => Sys2Proof.Machine.execGroupFire m s
  | .groupDisarm m => Sys2Proof.Machine.execGroupDisarm m s
  | .acqBlockWritten u e => Sys2Proof.Machine.execAcqBlockWritten u e s
  | .historySliceWrite ring es => Sys2Proof.Machine.execHistorySliceWrite ring es s
  | .historyStreamSend block n => Sys2Proof.Machine.execHistoryStreamSend block n s
  | .freeze cause => Sys2Proof.Machine.execFreeze cause s
  | .freezeCopyEnd => Sys2Proof.Machine.execFreezeCopyEnd s
  | .holBasicCycleStart seg => Sys2Proof.Machine.execHolBasicCycleStart seg s
  | .holSlotStart seg j => Sys2Proof.Machine.execHolSlotStart seg j s
  | .holSlotWindowClose seg j => Sys2Proof.Machine.execHolSlotWindowClose seg j s
  | .holArbContend seg ch => Sys2Proof.Machine.execHolArbContend seg ch s
  | .holPollReplyDue seg => Sys2Proof.Machine.execHolPollReplyDue seg s
  | .holDelayMeasure seg => Sys2Proof.Machine.execHolDelayMeasure seg s
  | .holSync seg f arr t => Sys2Proof.Machine.execHolSync seg f arr t s
  | .holCstart seg f arr t => Sys2Proof.Machine.execHolCstart seg f arr t s
  | .holOut seg f arr t => Sys2Proof.Machine.execHolOut seg f arr t s
  | .holIn seg f arr t => Sys2Proof.Machine.execHolIn seg f arr t s
  | .holPoll seg f arr t => Sys2Proof.Machine.execHolPoll seg f arr t s
  | .holNull seg f arr t => Sys2Proof.Machine.execHolNull seg f arr t s
  | .holArb seg f arr t => Sys2Proof.Machine.execHolArb seg f arr t s
  | .holDlyReq seg f arr t => Sys2Proof.Machine.execHolDlyReq seg f arr t s
  | .holDlyRsp seg f arr t => Sys2Proof.Machine.execHolDlyRsp seg f arr t s
  | .holDlySet seg f arr t => Sys2Proof.Machine.execHolDlySet seg f arr t s
  | .holListenTimeout seg => Sys2Proof.Machine.execHolListenTimeout seg s
  | .holColdstartEnd seg => Sys2Proof.Machine.execHolColdstartEnd seg s
  | .holBackoffEnd seg => Sys2Proof.Machine.execHolBackoffEnd seg s
  | .holSyncTimeout seg => Sys2Proof.Machine.execHolSyncTimeout seg s
  | .holRestart seg => Sys2Proof.Machine.execHolRestart seg s
  | .holRestore seg => Sys2Proof.Machine.execHolRestore seg s
  | .holClrcnt seg => Sys2Proof.Machine.execHolClrcnt seg s
  | .arbqPop seg => Sys2Proof.Machine.execArbqPop seg s
  | .arbqSend seg => Sys2Proof.Machine.execArbqSend seg s
  | .canFrameReceived c f sof => Sys2Proof.Machine.execCanFrameReceived c f sof s
  | .canReferenceReceived c f sof => Sys2Proof.Machine.execCanReferenceReceived c f sof s
  | .canReferenceDue c => Sys2Proof.Machine.execCanReferenceDue c s
  | .canBackupDue c => Sys2Proof.Machine.execCanBackupDue c s
  | .canReferenceTimeout c => Sys2Proof.Machine.execCanReferenceTimeout c s
  | .canWindowStart c j => Sys2Proof.Machine.execCanWindowStart c j s
  | .canTxmiss c => Sys2Proof.Machine.execCanTxmiss c s
  | .canTxStart c => Sys2Proof.Machine.execCanTxStart c s
  | .canArbitrationLost c => Sys2Proof.Machine.execCanArbitrationLost c s
  | .canTxComplete c => Sys2Proof.Machine.execCanTxComplete c s
  | .canError c e => Sys2Proof.Machine.execCanError c e s
  | .canBusoffRecovery c => Sys2Proof.Machine.execCanBusoffRecovery c s
  | .canReq c b => Sys2Proof.Machine.execCanReq c b s
  | .canCancel c b => Sys2Proof.Machine.execCanCancel c b s
  | .rxqPop c qn => Sys2Proof.Machine.execRxqPop c qn s
  | .canRecover c => Sys2Proof.Machine.execCanRecover c s
  | .canClrcnt c => Sys2Proof.Machine.execCanClrcnt c s
  | .tscap c => Sys2Proof.Machine.execTscap c s
  | .ethLinkChange port up => Sys2Proof.Machine.execEthLinkChange port up s
  | .ethFrameReceived port bytes ok => Sys2Proof.Machine.execEthFrameReceived port bytes ok s
  | .ethFrameSent port => Sys2Proof.Machine.execEthFrameSent port s
  | .ethGateChange port => Sys2Proof.Machine.execEthGateChange port s
  | .ethSwap port => Sys2Proof.Machine.execEthSwap port s
  | .prpSupervisionDue pair => Sys2Proof.Machine.execPrpSupervisionDue pair s
  | .prpPathTimeout port => Sys2Proof.Machine.execPrpPathTimeout port s
  | .ptpEventReceived port msg t => Sys2Proof.Machine.execPtpEventReceived port msg t s
  | .ptpGeneralReceived port msg => Sys2Proof.Machine.execPtpGeneralReceived port msg s
  | .ptpSendDue port kind t => Sys2Proof.Machine.execPtpSendDue port kind t s
  | .ptpSyncTimeout => Sys2Proof.Machine.execPtpSyncTimeout s
  | .ptpAnnounceTimeout port => Sys2Proof.Machine.execPtpAnnounceTimeout port s
  | .claimBeaconDue => Sys2Proof.Machine.execClaimBeaconDue s
  | .claimBeaconReceived bytes start => Sys2Proof.Machine.execClaimBeaconReceived bytes start s
  | .weltHbDue => Sys2Proof.Machine.execWeltHbDue s
  | .hbPairDue => Sys2Proof.Machine.execHbPairDue s
  | .weltHb bytes ok => Sys2Proof.Machine.execWeltHb bytes ok s
  | .hbPairFrame bytes ok => Sys2Proof.Machine.execHbPairFrame bytes ok s
  | .hbPathMissed pair => Sys2Proof.Machine.execHbPathMissed pair s
  | .isolatedExpiry => Sys2Proof.Machine.execIsolatedExpiry s
  | .pairWaitExpiry => Sys2Proof.Machine.execPairWaitExpiry s
  | .weltLinkChange lanes => Sys2Proof.Machine.execWeltLinkChange lanes s
  | .weltAckDue => Sys2Proof.Machine.execWeltAckDue s
  | .weltTile f ok => Sys2Proof.Machine.execWeltTile f ok s
  | .weltPortimg f ok => Sys2Proof.Machine.execWeltPortimg f ok s
  | .weltCommit f ok => Sys2Proof.Machine.execWeltCommit f ok s
  | .weltForce f ok => Sys2Proof.Machine.execWeltForce f ok s
  | .weltRecipe f ok => Sys2Proof.Machine.execWeltRecipe f ok s
  | .weltCtrl f ok => Sys2Proof.Machine.execWeltCtrl f ok s
  | .weltAck f ok => Sys2Proof.Machine.execWeltAck f ok s
  | .weltNak f ok => Sys2Proof.Machine.execWeltNak f ok s
  | .fullCopyEnd => Sys2Proof.Machine.execFullCopyEnd s
  | .handoverTime => Sys2Proof.Machine.execHandoverTime s
  | .dupJoin q => Sys2Proof.Machine.execDupJoin q s
  | .dupHandover q => Sys2Proof.Machine.execDupHandover q s
  | .dupTakeover q => Sys2Proof.Machine.execDupTakeover q s
  | .dupExchPrep q => Sys2Proof.Machine.execDupExchPrep q s
  | .dupExchAbort q => Sys2Proof.Machine.execDupExchAbort q s
  | .dupLeave q => Sys2Proof.Machine.execDupLeave q s
  | .safeStartupDone fault => Sys2Proof.Machine.execSafeStartupDone fault s
  | .safeIslandReset on => Sys2Proof.Machine.execSafeIslandReset on s
  | .safeInputSample a b rba rbb => Sys2Proof.Machine.execSafeInputSample a b rba rbb s
  | .safeDiscrepancyTimeout n => Sys2Proof.Machine.execSafeDiscrepancyTimeout n s
  | .safeTestPulseSample n b high => Sys2Proof.Machine.execSafeTestPulseSample n b high s
  | .safeReadbackTimeout n => Sys2Proof.Machine.execSafeReadbackTimeout n s
  | .safeDarkPulse n b rb => Sys2Proof.Machine.execSafeDarkPulse n b rb s
  | .safeSs1Expiry f => Sys2Proof.Machine.execSafeSs1Expiry f s
  | .safeLockDelayExpiry f => Sys2Proof.Machine.execSafeLockDelayExpiry f s
  | .safeMuteExpiry f => Sys2Proof.Machine.execSafeMuteExpiry f s
  | .safeTRelExpiry f => Sys2Proof.Machine.execSafeTRelExpiry f s
  | .safeResetPress n ms => Sys2Proof.Machine.execSafeResetPress n ms s
  | .safeMailboxExchange => Sys2Proof.Machine.execSafeMailboxExchange s
  | .safeResetRequest src => Sys2Proof.Machine.execSafeResetRequest src s
  | .safeUnlock src => Sys2Proof.Machine.execSafeUnlock src s
  | .safeLock src => Sys2Proof.Machine.execSafeLock src s
  | .safeMute src => Sys2Proof.Machine.execSafeMute src s
  | .safeStore => Sys2Proof.Machine.execSafeStore s
  | .safeClear => Sys2Proof.Machine.execSafeClear s
  | .safeConfirm q val => Sys2Proof.Machine.execSafeConfirm q val s
  | .safeConfirmBlockEnd => Sys2Proof.Machine.execSafeConfirmBlockEnd s
  | .safeIslandFault code => Sys2Proof.Machine.execSafeIslandFault code s
  | .safePeriodicTest ok => Sys2Proof.Machine.execSafePeriodicTest ok s
  | .pwrEpoch m => Sys2Proof.Machine.execPwrEpoch m s
  | .ilimExceeded => Sys2Proof.Machine.execIlimExceeded s
  | .boostDecision g cost => Sys2Proof.Machine.execBoostDecision g cost s
  | .pwrRailChange g => Sys2Proof.Machine.execPwrRailChange g s
  | .pwrBudgetWrite w => Sys2Proof.Machine.execPwrBudgetWrite w s
  | .pwrIlimWrite w => Sys2Proof.Machine.execPwrIlimWrite w s
  | .marginPlan => Sys2Proof.Machine.execMarginPlan s
  | .marginPlanTimer g => Sys2Proof.Machine.execMarginPlanTimer g s
  | .marginPlanComplete m => Sys2Proof.Machine.execMarginPlanComplete m s
  | .supplyChange which good => Sys2Proof.Machine.execSupplyChange which good s
  | .rstPor on => Sys2Proof.Machine.execRstPor on s
  | .rstPin on => Sys2Proof.Machine.execRstPin on s
  | .rstTherm on => Sys2Proof.Machine.execRstTherm on s
  | .rstScwd => Sys2Proof.Machine.execRstScwd s
  | .rstDbgSys => Sys2Proof.Machine.execRstDbgSys s
  | .rstDbgCore => Sys2Proof.Machine.execRstDbgCore s
  | .resetEpisodeExit => Sys2Proof.Machine.execResetEpisodeExit s
  | .trimLoadEnd ok => Sys2Proof.Machine.execTrimLoadEnd ok s
  | .rimPllLock => Sys2Proof.Machine.execRimPllLock s
  | .serviceCoresUp okA okB => Sys2Proof.Machine.execServiceCoresUp okA okB s
  | .resumeReady => Sys2Proof.Machine.execResumeReady s
  | .holdMaxExpiry => Sys2Proof.Machine.execHoldMaxExpiry s
  | .powerLossDetect => Sys2Proof.Machine.execPowerLossDetect s
  | .plrCopyDone => Sys2Proof.Machine.execPlrCopyDone s
  | .plrApply => Sys2Proof.Machine.execPlrApply s
  | .plrWaitTimeout => Sys2Proof.Machine.execPlrWaitTimeout s
  | .evtRecordWrite => Sys2Proof.Machine.execEvtRecordWrite s
  | .opsecTick => Sys2Proof.Machine.execOpsecTick s
  | .takeOwnership q m => Sys2Proof.Machine.execTakeOwnership q m s
  | .lcSeal q m => Sys2Proof.Machine.execLcSeal q m s
  | .lcReturn q m => Sys2Proof.Machine.execLcReturn q m s
  | .lcScrap q m => Sys2Proof.Machine.execLcScrap q m s
  | .devOn q m => Sys2Proof.Machine.execDevOn q m s
  | .devOff q m => Sys2Proof.Machine.execDevOff q m s
  | .keyAdd q m => Sys2Proof.Machine.execKeyAdd q m s
  | .keyRevoke q m => Sys2Proof.Machine.execKeyRevoke q m s
  | .lcShip q m => Sys2Proof.Machine.execLcShip q m s
  | .holFrameDiscarded seg arr => Sys2Proof.Machine.execHolFrameDiscarded seg arr s
  | .eyeletMalformed sess seq => Sys2Proof.Machine.execEyeletMalformed sess seq s
  | .unknownOp q op => Sys2Proof.Machine.execUnknownOp q op s
  | .psetStoreDone agree => Sys2Proof.Machine.execPsetStoreDone agree s
  | .vinRecovery => Sys2Proof.Machine.execVinRecovery s
  | .refclkReturn => Sys2Proof.Machine.execRefclkReturn s
  | .follow1Lock => Sys2Proof.Machine.execFollow1Lock s
  | .viewSlewDone v => Sys2Proof.Machine.execViewSlewDone v s
  | .regionTjDrift g tj => Sys2Proof.Machine.execRegionTjDrift g tj s
  | .dioRawEdge pin => Sys2Proof.Machine.execDioRawEdge pin s
  | .stepPulse g => Sys2Proof.Machine.execStepPulse g s
  | .microstepAdvance ch => Sys2Proof.Machine.execMicrostepAdvance ch s
  | .loadCopyDone ok => Sys2Proof.Machine.execLoadCopyDone ok s
  | .recipeLoadDone u n => Sys2Proof.Machine.execRecipeLoadDone u n s
  | .lcEraseDone => Sys2Proof.Machine.execLcEraseDone s
  | .ethModuleChange port present fault id => Sys2Proof.Machine.execEthModuleChange port present fault id s

end Sys2Proof.Machine
end

