-- ==== Sys2Proof/WellFormed.lean ====
section
/-!
DEFINITION. Well-formed commands: the instances and field values that a command of a variant can name (R1, R3). A command that is not
well formed names nothing, so no environment brings it; its meaning refuses it.
-/
namespace Sys2Proof

open Sys2Proof.Machine

/-! ### What the variants contain (R1): FK7680 = 0, FK7660 = 1, FK7640 = 2 -/

def pick (a b c v : Nat) : Nat := if v = 0 then a else if v = 1 then b else c

def units (v : Nat) : Nat := pick 512 256 256 v
def rgns (v : Nat) : Nat := pick 8 4 4 v
def dies (v : Nat) : Nat := pick 2 1 1 v
def ports (v : Nat) : Nat := pick 8 4 4 v
def hols (v : Nat) : Nat := pick 24 12 8 v
def cans (v : Nat) : Nat := pick 12 6 4 v
def banks (v : Nat) : Nat := pick 16 8 0 v
def aouts (v : Nat) : Nat := pick 64 32 0 v
def chops (v : Nat) : Nat := pick 32 16 0 v

/-- A command's operands name something on a variant. -/
def Instr.wf (v : Nat) : Instr → Bool
  | .cadenceBoundary mask _ => decide (mask < 256)
  | .samplePresent bank ch => decide (bank < banks v) && decide (ch < 16)
  | .unitCompletion u _ _ => decide (u < units v)
  | .checkpointCopyDone n => decide (n < 8)
  | .tileRestoreDone u _ => decide (u < units v)
  | .tileWriteApply u => decide (u < units v)
  | .dispatchAccept die flow prod orig _ => decide (die < dies v) && decide (flow < 4096) && decide (prod < 3) && decide (orig < 2048)
  | .dispatchHandover u => decide (u < units v)
  | .spillReturn die level => decide (die < dies v) && decide (level < 16)
  | .itemCompletion u _ _ => decide (u < units v)
  | .cmpFire i => decide (i < 64)
  | .waitLockTimeout n => decide (n < 8)
  | .timeSnap mask => decide (mask < 256)
  | .timeSetWrite k _ => decide (k < 8)
  | .timeStepWrite k _ => decide (k < 8)
  | .timeIncWrite k _ => decide (k.2 < 8) && (match k.1 with | .unit _ => false | _ => true)
  | .timeVctlWrite k _ => decide (k < 8)
  | .timeCmpTargetWrite i _ => decide (i < 64)
  | .eyeletIdleTimeout sess => decide (sess < 8)
  | .unitClrstat u => decide (u < units v)
  | .loopMode u l _ => decide (u < units v) && decide (l < 64)
  | .loopEdit u l _ => decide (u < units v) && decide (l < 64)
  | .loopSet u l _ => decide (u < units v) && decide (l < 64)
  | .startCold u => decide (u < units v)
  | .startWarm u => decide (u < units v)
  | .logicStop u => decide (u < units v)
  | .testOn u => decide (u < units v)
  | .testOff u => decide (u < units v)
  | .lgNop u => decide (u < units v)
  | .lgLd u _ _ => decide (u < units v)
  | .lgLdn u _ _ => decide (u < units v)
  | .lgAnd u _ _ => decide (u < units v)
  | .lgAndn u _ _ => decide (u < units v)
  | .lgOr u _ _ => decide (u < units v)
  | .lgOrn u _ _ => decide (u < units v)
  | .lgXor u _ _ => decide (u < units v)
  | .lgXorn u _ _ => decide (u < units v)
  | .lgSt u _ _ => decide (u < units v)
  | .lgStn u _ _ => decide (u < units v)
  | .lgS u _ _ => decide (u < units v)
  | .lgR u _ _ => decide (u < units v)
  | .lgNot u => decide (u < units v)
  | .lgAndPush u _ _ => decide (u < units v)
  | .lgAndnPush u _ _ => decide (u < units v)
  | .lgOrPush u _ _ => decide (u < units v)
  | .lgOrnPush u _ _ => decide (u < units v)
  | .lgXorPush u _ _ => decide (u < units v)
  | .lgPop u => decide (u < units v)
  | .lgRTrig u _ => decide (u < units v)
  | .lgFTrig u _ => decide (u < units v)
  | .lgTon u _ => decide (u < units v)
  | .lgTof u _ => decide (u < units v)
  | .lgTp u _ => decide (u < units v)
  | .lgCtu u _ => decide (u < units v)
  | .lgCtd u _ => decide (u < units v)
  | .lgResc u _ => decide (u < units v)
  | .lgLdc u _ => decide (u < units v)
  | .lgLdw u _ _ => decide (u < units v)
  | .lgStw u _ _ => decide (u < units v)
  | .lgAdd u _ _ => decide (u < units v)
  | .lgSub u _ _ => decide (u < units v)
  | .lgMul u _ _ => decide (u < units v)
  | .lgDiv u _ _ => decide (u < units v)
  | .lgWand u _ _ => decide (u < units v)
  | .lgWor u _ _ => decide (u < units v)
  | .lgWxor u _ _ => decide (u < units v)
  | .lgGt u _ _ => decide (u < units v)
  | .lgGe u _ _ => decide (u < units v)
  | .lgEq u _ _ => decide (u < units v)
  | .lgNe u _ _ => decide (u < units v)
  | .lgLe u _ _ => decide (u < units v)
  | .lgLt u _ _ => decide (u < units v)
  | .lgShl u _ => decide (u < units v)
  | .lgShr u _ => decide (u < units v)
  | .lgJmp u _ => decide (u < units v)
  | .lgJmpc u _ => decide (u < units v)
  | .lgJmpcn u _ => decide (u < units v)
  | .lgEnd u => decide (u < units v)
  | .axEnable u a _ => decide (u < units v) && decide (a < 16)
  | .axDisable u a _ => decide (u < units v) && decide (a < 16)
  | .axMoveAbs u a _ => decide (u < units v) && decide (a < 16)
  | .axMoveRel u a _ => decide (u < units v) && decide (a < 16)
  | .axVelocity u a _ => decide (u < units v) && decide (a < 16)
  | .axStop u a _ => decide (u < units v) && decide (a < 16)
  | .axGearIn u a _ => decide (u < units v) && decide (a < 16)
  | .axGearOut u a _ => decide (u < units v) && decide (a < 16)
  | .axOffset u a _ => decide (u < units v) && decide (a < 16)
  | .axHome u a _ => decide (u < units v) && decide (a < 16)
  | .axSetPos u a _ => decide (u < units v) && decide (a < 16)
  | .axResetFault u a _ => decide (u < units v) && decide (a < 16)
  | .axVmSpeed u a _ => decide (u < units v) && decide (a < 16)
  | .chopTrip ch _ _ => decide (ch < chops v)
  | .chopMaxOn ch _ => decide (ch < chops v)
  | .chopOffEnd ch _ => decide (ch < chops v)
  | .sqStart u n _ => decide (u < units v) && decide (n < 4)
  | .sqHold u n _ => decide (u < units v) && decide (n < 4)
  | .sqResume u n _ => decide (u < units v) && decide (n < 4)
  | .sqAbort u n _ => decide (u < units v) && decide (n < 4)
  | .sqReset u n _ => decide (u < units v) && decide (n < 4)
  | .stepFetchDone u n => decide (u < units v) && decide (n.seq < 4)
  | .recipeStoreWrite num => decide (num < 128)
  | .adcWindowClose bank ch _ => decide (bank < banks v) && decide (ch < 16)
  | .adcChWrite bank ch _ _ _ => decide (bank < banks v) && decide (ch < 16)
  | .bankcal bank => decide (bank < banks v)
  | .roll bank => decide (bank < banks v)
  | .stoproll bank => decide (bank < banks v)
  | .bankcalDone bank _ => decide (bank < banks v)
  | .rollCalDone bank _ => decide (bank < banks v)
  | .autocalPeriod bank => decide (bank < banks v)
  | .checkVisitTimeout bank => decide (bank < banks v)
  | .dioFilteredTransition pin => decide (pin < 192)
  | .dioRejectedPulse pin => decide (pin < 192)
  | .dioCntWrite pin _ => decide (pin < 192)
  | .dioOutWrite _ g al _ => decide (g < 6) && decide (al < 4)
  | .aoutSetWrite _ n _ => decide (n < 64)
  | .pwmSetWrite _ n _ => decide (n < 32)
  | .aoutCheck n _ _ => decide (n < aouts v)
  | .pwmCarrierStart n => decide (n < 32)
  | .engArm u e => decide (u < units v) && decide (e < 4)
  | .engDisarm u e => decide (u < units v) && decide (e < 4)
  | .engForce u e => decide (u < units v) && decide (e < 4)
  | .engRelease u e slot => decide (u < units v) && decide (e < 4) && decide (slot < 16)
  | .acqBlockWritten u e => decide (u < units v) && decide (e < 4)
  | .historySliceWrite ring _ => decide (ring < 8)
  | .historyStreamSend block n => decide (n < if block then 128 else 8)
  | .holBasicCycleStart seg => decide (seg < hols v)
  | .holSlotStart seg _ => decide (seg < hols v)
  | .holSlotWindowClose seg _ => decide (seg < hols v)
  | .holArbContend seg ch => decide (seg < hols v) && decide (ch < 2)
  | .holPollReplyDue seg => decide (seg < hols v)
  | .holDelayMeasure seg => decide (seg < hols v)
  | .holSync seg _ arr _ => decide (seg < hols v) && decide (arr < 2)
  | .holCstart seg _ arr _ => decide (seg < hols v) && decide (arr < 2)
  | .holOut seg _ arr _ => decide (seg < hols v) && decide (arr < 2)
  | .holIn seg _ arr _ => decide (seg < hols v) && decide (arr < 2)
  | .holPoll seg _ arr _ => decide (seg < hols v) && decide (arr < 2)
  | .holNull seg _ arr _ => decide (seg < hols v) && decide (arr < 2)
  | .holArb seg _ arr _ => decide (seg < hols v) && decide (arr < 2)
  | .holDlyReq seg _ arr _ => decide (seg < hols v) && decide (arr < 2)
  | .holDlyRsp seg _ arr _ => decide (seg < hols v) && decide (arr < 2)
  | .holDlySet seg _ arr _ => decide (seg < hols v) && decide (arr < 2)
  | .holListenTimeout seg => decide (seg < hols v)
  | .holColdstartEnd seg => decide (seg < hols v)
  | .holBackoffEnd seg => decide (seg < hols v)
  | .holSyncTimeout seg => decide (seg < hols v)
  | .holRestart seg => decide (seg < hols v)
  | .holRestore seg => decide (seg < hols v)
  | .holClrcnt seg => decide (seg < hols v)
  | .arbqPop seg => decide (seg < hols v)
  | .arbqSend seg => decide (seg < hols v)
  | .canFrameReceived c f _ => decide (c < cans v) && f.ok
  | .canReferenceReceived c f _ => decide (c < cans v) && f.ok
  | .canReferenceDue c => decide (c < cans v)
  | .canBackupDue c => decide (c < cans v)
  | .canReferenceTimeout c => decide (c < cans v)
  | .canWindowStart c _ => decide (c < cans v)
  | .canTxmiss c => decide (c < cans v)
  | .canTxStart c => decide (c < cans v)
  | .canArbitrationLost c => decide (c < cans v)
  | .canTxComplete c => decide (c < cans v)
  | .canError c e => decide (c < cans v) && decide (e.lec < 7)
  | .canBusoffRecovery c => decide (c < cans v)
  | .canReq c b => decide (c < cans v) && decide (b < 64)
  | .canCancel c b => decide (c < cans v) && decide (b < 64)
  | .rxqPop c qn => decide (c < cans v) && decide (qn < 2)
  | .canRecover c => decide (c < cans v)
  | .canClrcnt c => decide (c < cans v)
  | .tscap c => decide (c < cans v)
  | .ethLinkChange port _ => decide (port < ports v)
  | .ethFrameReceived port _ _ => decide (port < ports v)
  | .ethFrameSent port => decide (port < ports v)
  | .ethGateChange port => decide (port < ports v)
  | .ethSwap port => decide (port < ports v)
  | .prpSupervisionDue pair => decide (2 * pair + 1 < ports v)
  | .prpPathTimeout port => decide (port < ports v)
  | .ptpEventReceived port _ _ => decide (port < ports v)
  | .ptpGeneralReceived port _ => decide (port < ports v)
  | .ptpSendDue port _ _ => decide (port < ports v)
  | .ptpAnnounceTimeout port => decide (port < ports v)
  | .weltLinkChange lanes => decide (lanes < 16) && decide (v < 2)
  | .safeStartupDone fault => decide (fault ≤ 8)
  | .safeInputSample a b rba rbb => decide (a < 65536) && decide (b < 65536) && decide (rba < 256) && decide (rbb < 256)
  | .safeDiscrepancyTimeout n => decide (n < 16)
  | .safeTestPulseSample n _ _ => decide (n < 16)
  | .safeReadbackTimeout n => decide (n < 8)
  | .safeDarkPulse n _ _ => decide (n < 8)
  | .safeSs1Expiry f => decide (f < 32)
  | .safeLockDelayExpiry f => decide (f < 32)
  | .safeMuteExpiry f => decide (f < 32)
  | .safeTRelExpiry f => decide (f < 32)
  | .safeResetPress n _ => decide (n < 16)
  | .safeResetRequest src => decide (src < 9)
  | .safeUnlock src => decide (src < 9)
  | .safeLock src => decide (src < 9)
  | .safeMute src => decide (src < 9)
  | .safeIslandFault code => decide (1 ≤ code) && decide (code ≤ 8)
  | .boostDecision g _ => decide (g < rgns v)
  | .pwrRailChange g => decide (g < rgns v)
  | .marginPlanTimer g => decide (g < rgns v)
  | .marginPlanComplete m => decide (m.rgn < rgns v)
  | .supplyChange which _ => decide (which < 10) && (decide (which ≠ 0) || decide (v < 2))
  | .holFrameDiscarded seg _ => decide (seg < hols v)
  | .unknownOp _ op => !eyOps.contains op
  | .viewSlewDone k => decide (k < 2)
  | .regionTjDrift g _ => decide (g < rgns v)
  | .dioRawEdge pin => decide (pin < 192)
  | .stepPulse g => decide (g < 32)
  | .microstepAdvance ch => decide (ch < chops v)
  | .recipeLoadDone u n => decide (u < units v) && decide (n < 4)
  | .ethModuleChange port _ _ _ => decide (port < ports v)
  | .timeCntLoRead | .refclkLoss | .lastStream .. | .lastLoad .. | .lastVerify .. | .slotWrite .. | .slotCommit ..
  | .slotPrefWrite .. | .bootLoad | .loadRehearsalEnd .. | .fwLoad .. | .run .. | .stop .. | .reset .. | .regRead ..
  | .regWrite .. | .memRead .. | .memWrite .. | .recipeLoad .. | .recRead .. | .recClear .. | .recClearDone | .snapLock ..
  | .snapClear .. | .netcfgRead .. | .netcfgWrite .. | .eyeletHandshake .. | .registerWrite .. | .cfgchkPassEnd | .cfgCommit
  | .cfgSuspend | .cfgchkRefWrite .. | .frcSelWrite .. | .frcSet | .frcRemove | .forceCommit | .mainsEdge | .mainsTimeout
  | .groupArm .. | .groupFire .. | .groupDisarm .. | .freeze .. | .freezeCopyEnd | .ptpSyncTimeout | .claimBeaconDue
  | .claimBeaconReceived .. | .weltHbDue | .hbPairDue | .weltHb .. | .hbPairFrame .. | .hbPathMissed .. | .isolatedExpiry
  | .pairWaitExpiry | .weltAckDue | .weltTile .. | .weltPortimg .. | .weltCommit .. | .weltForce .. | .weltRecipe ..
  | .weltCtrl .. | .weltAck .. | .weltNak .. | .fullCopyEnd | .handoverTime | .dupJoin .. | .dupHandover .. | .dupTakeover ..
  | .dupExchPrep .. | .dupExchAbort .. | .dupLeave .. | .safeIslandReset .. | .safeMailboxExchange | .safeStore | .safeClear
  | .safeConfirm .. | .safeConfirmBlockEnd | .safePeriodicTest .. | .pwrEpoch .. | .ilimExceeded | .pwrBudgetWrite ..
  | .pwrIlimWrite .. | .marginPlan | .rstPor .. | .rstPin .. | .rstTherm .. | .rstScwd | .rstDbgSys | .rstDbgCore
  | .resetEpisodeExit | .trimLoadEnd .. | .rimPllLock | .serviceCoresUp .. | .resumeReady | .holdMaxExpiry | .powerLossDetect
  | .plrCopyDone | .plrApply | .plrWaitTimeout | .evtRecordWrite | .opsecTick | .takeOwnership .. | .lcSeal .. | .lcReturn ..
  | .lcScrap .. | .devOn .. | .devOff .. | .keyAdd .. | .keyRevoke .. | .lcShip .. | .eyeletMalformed .. | .psetStoreDone ..
  | .vinRecovery | .refclkReturn | .follow1Lock | .loadCopyDone .. | .lcEraseDone => true

end Sys2Proof
end

