-- ==== Sys2Proof/Safety.lean ====
section
/-!
DEFINITION. What counts as a safe run: states whose memory is canonical and whose waiting commands are well formed for the variant, and
steps that neither fault nor refuse; and what it means that a command completes with an effect.
-/
namespace Sys2Proof.Machine

/-- The step goes on: no fault, no refusal. -/
def Res.goesOn (r : Res) : Bool := match r with | .next _ => true | _ => false

/-- Memory is in its canonical form. -/
def State.memOk (s : State) : Bool := Memory.wf s.mem

/-- Every waiting command is well formed for this variant. -/
def State.queueOk (s : State) : Bool := s.pending.all (fun c => c.wf s.dev.variant)

/-- `k` steps from a state all go on. -/
def safeFor : Nat → State → Bool
  | 0, _ => true
  | k + 1, s => match step s with | .next t => safeFor k t | _ => false

/-- The command completes and touches the device alone: memory and the queue stay. What the device then is. -/
def Does (c : Instr) (s : State) (P : Dev → Prop) : Prop := ∃ d, exec c s = .next { s with dev := d } ∧ P d

/-- The command completes and the queue stays. What the device and memory then are. -/
def DoesMem (c : Instr) (s : State) (P : Dev → List Host.Cell → Prop) : Prop :=
  ∃ d m, exec c s = .next { s with dev := d, mem := m } ∧ P d m

/-- An event of this code and instance was raised on the way from one device to another: the recorder is as the raising left it. -/
def Raises (code inst : Nat) (d d' : Dev) : Prop := ∃ (x : Dev) (data : List Byte), x.evt = d.evt ∧ d'.evt = (x.raise code inst data).evt

/-- The Eyelet session exists and its envelope lets the request run: SEQ not answered before, not stale, not in progress, privilege high
enough (R347, R373). -/
def Admitted (s : State) (q : Req) (priv : Nat) : Prop := s.dev.envelope q priv = .go

/-- The request has its answer: it is the last one that its session keeps (R347). -/
def Answered (q : Req) (status : Nat) (payload : List Byte) (d : Dev) : Prop :=
  ∃ x, Tbl.get? d.sessions q.sess = some x ∧ x.kept.getLast? = some { seq := q.seq, status := status, payload := payload }

/-- No unit writes the word in this tick, so that a write from outside is not BUSY (R366). -/
def Dev.wordFree (d : Dev) (base : Nat) : Prop := d.unitWrote base = false ∧ d.unitWrites base = false

/-- A logic instruction of a segment whose scan `sc` is open completes: the scan goes on at `pc` and ends only behind the last instruction or
by END; the rest of the device stays but for the unit's own scan and objects and its SAT flag. What the scan and the objects then are. -/
def Scans (c : Instr) (s : State) (u : Nat) (sc : ScanSt) (pc : Nat) (P : ScanSt → LogicObjs → Prop) : Prop :=
  Does c s (fun d =>
    { d with units := s.dev.units, regs := s.dev.regs } = s.dev ∧ (∀ v, v ≠ u → d.un v = s.dev.un v) ∧
    (∀ a, a ≠ R.UNIT_STAT_SAT.addr u 0 0 → d.rw a = s.dev.rw a) ∧
    ∃ x, (d.un u).scan = some x ∧ x.pc = pc ∧ { x with cr := sc.cr, acc := sc.acc, stack := sc.stack, arith := sc.arith, pc := sc.pc,
                                                       ended := sc.ended } = sc ∧
      (d.un u) = { s.dev.un u with scan := some x, work := { (s.dev.un u).work with objs := (d.un u).work.objs } } ∧
      P x (d.un u).work.objs)

/-! ### Classes of commands -/

/-- The Eyelet request that a command is, with the privilege that its operation demands (R373). -/
def reqOf : Instr → Option (Req × Nat)
  | .lastStream q _ => some (q, pvENGINEER)
  | .lastLoad q _ => some (q, pvENGINEER)
  | .lastVerify q _ => some (q, pvVIEW)
  | .slotWrite q _ _ => some (q, pvOWNER)
  | .slotCommit q => some (q, pvOWNER)
  | .fwLoad q _ => some (q, pvOWNER)
  | .run q => some (q, pvOPERATE)
  | .stop q => some (q, pvOPERATE)
  | .reset q _ => some (q, pvENGINEER)
  | .regRead q _ _ => some (q, pvVIEW)
  | .regWrite q _ _ => some (q, pvENGINEER)
  | .memRead q _ _ => some (q, pvVIEW)
  | .memWrite q _ _ => some (q, pvENGINEER)
  | .recipeLoad q _ _ => some (q, pvOPERATE)
  | .recRead q _ _ => some (q, pvVIEW)
  | .recClear q => some (q, pvOWNER)
  | .snapLock q _ _ => some (q, pvENGINEER)
  | .snapClear q _ => some (q, pvENGINEER)
  | .netcfgRead q => some (q, pvVIEW)
  | .netcfgWrite q _ => some (q, pvOWNER)
  | .dupJoin q => some (q, pvENGINEER)
  | .dupHandover q => some (q, pvENGINEER)
  | .dupTakeover q => some (q, pvENGINEER)
  | .dupExchPrep q => some (q, pvENGINEER)
  | .dupExchAbort q => some (q, pvENGINEER)
  | .dupLeave q => some (q, pvENGINEER)
  | .safeConfirm q _ => some (q, pvENGINEER)
  | .takeOwnership q _ => some (q, pvOWNER)
  | .lcSeal q _ => some (q, pvOWNER)
  | .lcReturn q _ => some (q, pvOWNER)
  | .lcScrap q _ => some (q, pvOWNER)
  | .devOn q _ => some (q, pvOWNER)
  | .devOff q _ => some (q, pvOWNER)
  | .keyAdd q _ => some (q, pvOWNER)
  | .keyRevoke q _ => some (q, pvOWNER)
  | .lcShip q _ => some (q, pvOWNER)
  | _ => none

/-- The commands that may change memory: they write tiles, records of the event recorder, or reset. -/
def storesMem : Instr → Bool
  | .cadenceBoundary .. | .unitCompletion .. | .itemCompletion .. | .stepFetchDone .. | .forceCommit .. | .tileRestoreDone .. | .tileWriteApply .. | .loadCopyDone ..
  | .acqBlockWritten .. | .hbPathMissed .. | .isolatedExpiry | .hbPairFrame .. | .weltHb .. | .weltCommit .. | .dupTakeover ..
  | .evtRecordWrite | .recClearDone | .lcEraseDone | .reset .. | .rstPor .. | .rstPin .. | .rstTherm .. | .rstScwd | .rstDbgSys
  | .rstDbgCore | .resumeReady | .plrCopyDone | .plrApply | .takeOwnership .. | .lcSeal .. | .lcReturn .. | .lcScrap .. | .devOn ..
  | .devOff .. | .keyAdd .. | .keyRevoke .. | .lcShip .. => true
  | _ => false

/-- The jumps of the logic instructions. -/
def isJump : Instr → Bool
  | .lgJmp .. | .lgJmpc .. | .lgJmpcn .. => true
  | _ => false

/-- The logic instructions whose operand a loaded program may not hold: everything but NOP, NOT and END. -/
def hasLogicOperand : Instr → Bool
  | .lgLd .. | .lgLdn .. | .lgAnd .. | .lgAndn .. | .lgOr .. | .lgOrn .. | .lgXor .. | .lgXorn .. | .lgSt .. | .lgStn .. | .lgS ..
  | .lgR .. | .lgAndPush .. | .lgAndnPush .. | .lgOrPush .. | .lgOrnPush .. | .lgXorPush .. | .lgPop .. | .lgRTrig .. | .lgFTrig ..
  | .lgTon .. | .lgTof .. | .lgTp .. | .lgCtu .. | .lgCtd .. | .lgResc .. | .lgLdc .. | .lgLdw .. | .lgStw .. | .lgAdd .. | .lgSub ..
  | .lgMul .. | .lgDiv .. | .lgWand .. | .lgWor .. | .lgWxor .. | .lgGt .. | .lgGe .. | .lgEq .. | .lgNe .. | .lgLe .. | .lgLt ..
  | .lgShl .. | .lgShr .. | .lgJmp .. | .lgJmpc .. | .lgJmpcn .. => true
  | _ => false

end Sys2Proof.Machine
end

