-- ==== Sys2Proof/Certificates/Slice0/Obligations.lean ====
section
/-!
DEFINITION. The statements about the model. `Does` says that a command completes and leaves memory and the queue alone; `DoesMem` that it
completes and leaves the queue alone; a record equation such as "d with regs as before = the device before" says what else stays.
-/
open Sys2Proof Sys2Proof.Machine

/-! ### The queue, the step, the idle tick -/

/-- Step takes the command at the front of the queue and runs it over the queue's rest. -/
def Obligations.StepRunsFrontCommand : Prop :=
  ∀ (c : Instr) (rest : List Instr) (s : State), step { s with pending := c :: rest } = exec c { s with pending := rest }

/-- On an empty queue a step is one rim tick (the model's choice, log entry 1): memory and queue stay, and with the rim PLL locked the
counter advances by exactly 1 (R93). -/
def Obligations.IdleStepIsOneTick : Prop :=
  ∀ s : State, s.pending = [] → ∃ d, step s = .next { s with dev := d } ∧
    d.time.cnt = s.dev.time.cnt + (if s.dev.time.pll then 1 else 0) ∧ d.time.pll = s.dev.time.pll

/-- No command touches the queue: whatever runs, the commands that wait keep waiting in their order. -/
def Obligations.CommandsKeepTheQueue : Prop :=
  ∀ (c : Instr) (s t : State), exec c s = .next t → t.pending = s.pending

/-- Reset leaves memory canonical and empty, the queue empty, the counter at zero before the PLL locks (R93), both privileged views FREE and
unlocked at 2.0 ns a tick (R96), no Last (EMPTY), no session, no fault flag of the rim. -/
def Obligations.ResetState : Prop :=
  Memory.wf State.reset.mem = true ∧ State.reset.pending = [] ∧ State.reset.dev.time.cnt = 0 ∧ State.reset.dev.time.pll = false ∧
  (∀ v, v < 8 → State.reset.dev.view v = 0 ∧ (State.reset.dev.vw v).inc = 2 ^ 41 ∧ State.reset.dev.vstate v = vsFREE ∧
    State.reset.dev.locked v = false) ∧
  State.reset.dev.lastState = lsEMPTY ∧ State.reset.dev.sessions = [] ∧ State.reset.dev.rf R.TIME_STAT_REFLOSS = 0 ∧
  State.reset.dev.rf R.RST_CAUSE_FIRST = 1 ∧ State.reset.dev.rf R.RST_CAUSE_REACH = 3 ∧ State.reset.dev.rf R.RST_CAUSE_MASK = 2

/-- The canonical form of memory is kept by every step. -/
def Obligations.StepKeepsMemoryCanonical : Prop :=
  ∀ s t : State, Memory.wf s.mem = true → step s = .next t → Memory.wf t.mem = true

/-! ### Time (R93 to R113) -/

/-- R94: a read of CNT_LO captures the upper word of the same count, a read of CNT_HI returns what was captured and captures nothing. R100: a snapshot captures
the counter and the selected views at one tick. Nothing else changes. -/
def Obligations.TimeCaptures : Prop :=
  ∀ s : State,
    Does .timeCntLoRead s (fun d => d.time.hi = s.dev.time.cnt / 2 ^ 32 % 2 ^ 32 ∧
      { d with time := { d.time with hi := s.dev.time.hi } } = s.dev) ∧
    (∀ q, Admitted s q pvVIEW →
      Does (.regRead q 0x20010 1) s (fun d => Answered q eyOK (leBytes 4 (s.dev.time.cnt % 2 ^ 32)) d ∧ d.time.hi = s.dev.time.cnt / 2 ^ 32 % 2 ^ 32) ∧
      Does (.regRead q 0x20014 1) s (fun d => Answered q eyOK (leBytes 4 s.dev.time.hi) d ∧ { d with sessions := s.dev.sessions, sent := s.dev.sent, eth := s.dev.eth } = s.dev)) ∧
    ∀ mask, mask < 256 → Does (.timeSnap mask) s (fun d =>
      { d with regs := s.dev.regs } = s.dev ∧
      d.rf R.TIME_SNAP_CNT_LO_CNT = s.dev.time.cnt % 2 ^ 32 ∧ d.rf R.TIME_SNAP_CNT_HI_CNT = s.dev.time.cnt / 2 ^ 32 % 2 ^ 32 ∧
      d.rf R.TIME_SNAP_CTL_DONE = 1 ∧
      ∀ v, v < 8 →
        (bitAt mask v = true → d.rf R.TIME_SNAP_FRAC_V 0 v = s.dev.viewFrac v % 2 ^ 32 ∧ d.rf R.TIME_SNAP_NS_LO_V 0 v = s.dev.viewNs v % 2 ^ 32 ∧
          d.rf R.TIME_SNAP_NS_HI_V 0 v = s.dev.viewNs v / 2 ^ 32 % 2 ^ 32) ∧
        (bitAt mask v = false → d.rf R.TIME_SNAP_FRAC_V 0 v = s.dev.rf R.TIME_SNAP_FRAC_V 0 v ∧
          d.rf R.TIME_SNAP_NS_LO_V 0 v = s.dev.rf R.TIME_SNAP_NS_LO_V 0 v ∧ d.rf R.TIME_SNAP_NS_HI_V 0 v = s.dev.rf R.TIME_SNAP_NS_HI_V 0 v))

/-- R98: an absolute set, a step and an increment that the rules accept commit the held words with the upper word written: the view's new
value; the step allowance of an ARMED view is used (SPENT), and every accepted step raises TIME_STEP; the increment target, at once the
active increment on views 2 to 7. On views 0 and 1 the target lies within the band, and Eyelet alone needs a FREE source. The rest of the view's
time keeping stays. -/
def Obligations.TimeWritesCommit : Prop :=
  ∀ (s : State) (v : Nat) (hi : Word), v < 8 →
    ((v = 0 → s.dev.running = false) → (v < 2 → s.dev.vstate v = vsFREE) →
      Does (.timeSetWrite v hi) s (fun d =>
        d.view v = ((s.dev.rf R.TIME_SET_NS_LO_V 0 v + hi.toNat * 2 ^ 32) * 2 ^ 40 + s.dev.rf R.TIME_SET_FRAC_V 0 v * 2 ^ 8) % 2 ^ 104 ∧
        (d.vw v).inc = (s.dev.vw v).inc ∧ (∀ w, w ≠ v → d.vw w = s.dev.vw w) ∧ d.vstate v = s.dev.vstate v ∧
        { d with regs := s.dev.regs, time := s.dev.time } = s.dev)) ∧
    ((v = 0 → s.dev.running = false) → (v < 2 → s.dev.vstate v ≠ vsSPENT) →
      Does (.timeStepWrite v hi) s (fun d =>
        (d.view v : Int) = ((s.dev.view v : Int) + toS 64 (s.dev.rf R.TIME_STEP_LO_V 0 v + hi.toNat * 2 ^ 32) * 2 ^ 40) % 2 ^ 104 ∧
        (v < 2 → d.vstate v = if s.dev.vstate v = vsARMED then vsSPENT else s.dev.vstate v) ∧
        (d.vw v).inc = (s.dev.vw v).inc ∧ (∀ w, w ≠ v → d.vw w = s.dev.vw w) ∧ Raises Ev.TIME_STEP 0 s.dev d)) ∧
    (∀ wr, wr = .eyelet ∨ wr = .core →
      (v < 2 → incOk (s.dev.rf R.TIME_INC_LO_FRAC 0 v + bitsOf hi.toNat 0 16 * 2 ^ 32) = true ∧ (wr = .eyelet → s.dev.rf R.TIME_VCTL_SRC 0 v = 0)) →
      Does (.timeIncWrite (wr, v) hi) s (fun d =>
        let t := s.dev.rf R.TIME_INC_LO_FRAC 0 v + bitsOf hi.toNat 0 16 * 2 ^ 32
        (d.vw v).tgt = t ∧ (d.vw v).inc = (if v < 2 then (s.dev.vw v).inc else t) ∧ (∀ w, w ≠ v → d.vw w = s.dev.vw w) ∧
        d.rf R.TIME_VSTAT_SLEW 0 v = b2n (decide ((d.vw v).inc ≠ t)) ∧ { d with regs := s.dev.regs, time := s.dev.time } = s.dev))

/-- R98: a refused set, step or increment changes no view, no state and no target; it sets REFUSED, records in WHY the lowest reason that
applies and raises TIME_REFUSED. -/
def Obligations.TimeRefusalsChangeNothing : Prop :=
  ∀ (s : State) (v : Nat) (hi : Word) (why : Nat), v < 8 →
    let refused (c : Instr) : Prop := Does c s (fun d =>
      d.rf R.TIME_VSTAT_REFUSED 0 v = 1 ∧ d.rf R.TIME_VSTAT_WHY 0 v = why ∧ d.vstate v = s.dev.vstate v ∧
      (∀ w, d.view w = s.dev.view w ∧ (d.vw w).inc = (s.dev.vw w).inc ∧ (d.vw w).tgt = (s.dev.vw w).tgt) ∧
      Raises Ev.TIME_REFUSED 0 s.dev d)
    ((v = 0 ∧ s.dev.running = true ∧ why = 1) ∨ (¬ (v = 0 ∧ s.dev.running = true) ∧ v < 2 ∧ s.dev.vstate v ≠ vsFREE ∧ why = 2) →
      refused (.timeSetWrite v hi)) ∧
    ((v = 0 ∧ s.dev.running = true ∧ why = 1) ∨ (¬ (v = 0 ∧ s.dev.running = true) ∧ v < 2 ∧ s.dev.vstate v = vsSPENT ∧ why = 2) →
      refused (.timeStepWrite v hi)) ∧
    (∀ wr, wr = .eyelet ∨ wr = .core →
      let ok := incOk (s.dev.rf R.TIME_INC_LO_FRAC 0 v + bitsOf hi.toNat 0 16 * 2 ^ 32)
      (v < 2 ∧ ok = false ∧ why = 3) ∨ (v < 2 ∧ ok = true ∧ wr = .eyelet ∧ s.dev.rf R.TIME_VCTL_SRC 0 v ≠ 0 ∧ why = 4) →
        refused (.timeIncWrite (wr, v) hi))

/-- R97: a write of VCTL takes SEG; on views 0 and 1 a listed SRC, an unlisted one keeps the field; views 2 to 7 have no SRC. A write that changes
nothing else leaves the view as it was; one that changes SRC or SEG ends LOCK and makes the active increment the target, and the view's value, state
and increment stay, except that view 0 which begins to follow a locked view 1 while it may still be stepped is stepped to it (R99). R111: a
comparator's target commits with its upper word. R113: loss and return of the reference. R98: a slew ends within the last microsecond's step.

R111, R112: an armed comparator whose view has reached its target fires, whatever its action and its bindings: FIRED counts up (saturating); a one-shot clears
ARM and keeps its target, a periodic one stays armed and moves its target by whole periods, of which those beyond the first count in MISSED. ADC_START
opens a window of every idle TRIGGERED channel of its bank, CAD_RELEASE releases the cadences of its mask and no other, TRIG_FIRE presents the
target to its engine. A comparator that is not armed, whose target lies ahead, or before which one of a lower number is due does nothing.

R108: the WAIT_LOCK timeout of a waiting cadence, once its milliseconds are over and not before, releases it in free run with the present tick as its
reference and raises TIME_NOLOCK. R99: view 0 following a locked view 1 to within 1 µs declares LOCK, a FREE view becomes ARMED, and cadences that
wait for LOCK take this tick as their reference. -/
def Obligations.TimeControlAndTimers : Prop :=
  (∀ (s : State) (v : Nat) (w : Word),
    let src := bitsOf w.toNat 0 2
    let seg := bitsOf w.toNat 8 5
    let listed : Prop := if v = 0 then src ≠ 1 else src < 2
    let steps : Prop := v = 0 ∧ src = 2 ∧ s.dev.locked 1 = true ∧ s.dev.running = false ∧ s.dev.vstate 0 ≠ vsSPENT
    (2 ≤ v → v < 8 → Does (.timeVctlWrite v w) s (fun d => d.rf R.TIME_VCTL_SEG 0 v = seg ∧ d.rf R.TIME_VCTL_SRC 0 v = s.dev.rf R.TIME_VCTL_SRC 0 v ∧
      (∀ a, a ≠ R.TIME_VCTL.addr 0 v 0 → d.rw a = s.dev.rw a) ∧ { d with regs := s.dev.regs } = s.dev)) ∧
    (v < 2 → Does (.timeVctlWrite v w) s (fun d =>
      let changed : Prop := d.rf R.TIME_VCTL_SRC 0 v ≠ s.dev.rf R.TIME_VCTL_SRC 0 v ∨ seg ≠ s.dev.rf R.TIME_VCTL_SEG 0 v
      (listed → d.rf R.TIME_VCTL_SRC 0 v = src) ∧ (¬ listed → d.rf R.TIME_VCTL_SRC 0 v = s.dev.rf R.TIME_VCTL_SRC 0 v) ∧
      d.rf R.TIME_VCTL_SEG 0 v = seg ∧ (∀ x, (d.vw x).inc = (s.dev.vw x).inc) ∧ (∀ x, x ≠ v → d.view x = s.dev.view x ∧ d.vstate x = s.dev.vstate x) ∧
      (¬ changed → d.time = s.dev.time ∧ d.evt = s.dev.evt ∧ d.vstate v = s.dev.vstate v ∧ d.rf R.TIME_VSTAT_LOCK 0 v = s.dev.rf R.TIME_VSTAT_LOCK 0 v) ∧
      (changed → (d.vw v).tgt = (s.dev.vw v).inc) ∧
      (changed → ¬ steps → d.rf R.TIME_VSTAT_LOCK 0 v = 0 ∧ d.view v = s.dev.view v ∧ d.vstate v = s.dev.vstate v) ∧
      (changed → steps → d.rf R.TIME_VSTAT_LOCK 0 0 = 1 ∧ d.view 0 = s.dev.view 1 % 2 ^ 104 ∧
        d.vstate 0 = (if s.dev.vstate 0 = vsFREE then vsARMED else vsSPENT))))) ∧
  (∀ (s : State) (hi : Word) (i v : Nat),
    (i < 64 → Does (.timeCmpTargetWrite i hi) s (fun d =>
      Tbl.getD 0 d.time.cmp i = s.dev.rf R.TIME_CMPi_LO_T 0 i + hi.toNat * 2 ^ 32 ∧
      (∀ j, j ≠ i → Tbl.getD 0 d.time.cmp j = Tbl.getD 0 s.dev.time.cmp j) ∧ d.rf R.TIME_CMPi_CTL_ARM 0 i = s.dev.rf R.TIME_CMPi_CTL_ARM 0 i ∧
      d.rf R.TIME_CMPi_HI_T 0 i = hi.toNat)) ∧
    Does .refclkLoss s (fun d => d.time.refOk = false ∧ d.rf R.TIME_STAT_REFLOSS = 1 ∧
      { d with regs := s.dev.regs, time := { d.time with refOk := s.dev.time.refOk } } = s.dev) ∧
    Does .refclkReturn s (fun d => d.time.refOk = true ∧ { d with time := { d.time with refOk := s.dev.time.refOk } } = s.dev) ∧
    (v < 2 → s.dev.steady v = false → (s.dev.vw v).inc ≠ (s.dev.vw v).tgt →
      (((s.dev.vw v).tgt : Int) - (s.dev.vw v).inc).natAbs ≤ s.dev.slewLeft v → Does (.viewSlewDone v) s (fun d =>
      (d.vw v).inc = (s.dev.vw v).tgt ∧ (d.vw v).tgt = (s.dev.vw v).tgt ∧ d.view v = s.dev.view v % 2 ^ 104 ∧ d.rf R.TIME_VSTAT_SLEW 0 v = 0 ∧
      (∀ w, w ≠ v → d.vw w = s.dev.vw w))) ∧
    s.dev.slewLeft v ≤ 16384 ∧
    (v < 2 → s.dev.steady v = true ∨ (s.dev.vw v).inc = (s.dev.vw v).tgt ∨ s.dev.slewLeft v < (((s.dev.vw v).tgt : Int) - (s.dev.vw v).inc).natAbs →
      Does (.viewSlewDone v) s (fun d => d = s.dev))) ∧
  (∀ (s : State) (i : Nat), i < 64 →
    let now := s.dev.viewNs (s.dev.rf R.TIME_CMPi_CTL_VIEW 0 i)
    let t := Tbl.getD 0 s.dev.time.cmp i
    let per := s.dev.rf R.TIME_CMPi_PER_PER 0 i
    let act := s.dev.rf R.TIME_CMPi_CTL_ACTION 0 i
    let tg := s.dev.rf R.TIME_CMPi_CTL_TARGET 0 i
    (s.dev.flag R.TIME_CMPi_CTL_ARM 0 i = true → t ≤ now → (∀ j, j < i → s.dev.cmpDue j = false) → Does (.cmpFire i) s (fun d =>
      d.rf R.TIME_CMPi_STAT_FIRED 0 i = satAdd 0xFFFF (s.dev.rf R.TIME_CMPi_STAT_FIRED 0 i) 1 ∧ d.time.cnt = s.dev.time.cnt ∧
      (∀ v, d.vw v = s.dev.vw v) ∧ (∀ j, j ≠ i → Tbl.getD 0 d.time.cmp j = Tbl.getD 0 s.dev.time.cmp j) ∧
      (per = 0 → d.rf R.TIME_CMPi_CTL_ARM 0 i = 0 ∧ Tbl.getD 0 d.time.cmp i = t ∧
        d.rf R.TIME_CMPi_STAT_MISSED 0 i = s.dev.rf R.TIME_CMPi_STAT_MISSED 0 i) ∧
      (per ≠ 0 → d.rf R.TIME_CMPi_CTL_ARM 0 i = 1 ∧
        d.rf R.TIME_CMPi_STAT_MISSED 0 i = satAdd 0xFFFF (s.dev.rf R.TIME_CMPi_STAT_MISSED 0 i) ((now - t) / per) ∧
        (now + per < 2 ^ 64 → now < Tbl.getD 0 d.time.cmp i ∧ Tbl.getD 0 d.time.cmp i ≤ now + per ∧ (Tbl.getD 0 d.time.cmp i - t) % per = 0)) ∧
      (act = 1 → tg < s.dev.nBanks → ∀ n ∈ s.dev.chsOn tg, s.dev.rf R.ADC_CHn_CTL_MODE tg n = 3 → (s.dev.adcCh tg n).opened = none →
        (d.adcCh tg n).opened = some s.dev.time.cnt) ∧
      (∀ n, n < 8 → (s.dev.cad n).used = true →
        (d.cad n).deferred = ((s.dev.cad n).deferred && !(decide (act = 2) && bitAt tg n)) ∧ (d.cad n).ref = (s.dev.cad n).ref) ∧
      (∀ u e, act = 3 → s.dev.engOf tg = some (u, e) → (s.dev.time.cnt, t) ∈ (Tbl.getD {} (d.un u).base.engs e).timeReqs))) ∧
    (s.dev.flag R.TIME_CMPi_CTL_ARM 0 i = false ∨ now < t ∨ (∃ j, j < i ∧ s.dev.cmpDue j = true) → Does (.cmpFire i) s (fun d => d = s.dev))) ∧
  (∀ (s : State) (n : Nat),
    let lim := (nth { mult := 0, phase := 0, waitLock := false, timeout := 0 } s.dev.cfg.cads n).timeout
    let expired : Prop := s.dev.running = true ∧ (s.dev.cad n).used = true ∧ (s.dev.cad n).ref = none ∧ lim ≠ 0 ∧
      (s.dev.cad n).since + lim * 500000000 ≤ s.dev.time.cnt
    let near : Prop := s.dev.rf R.TIME_VCTL_SRC 0 0 = 2 ∧ s.dev.locked 1 = true ∧ s.dev.locked 0 = false ∧
      ((s.dev.view 0 : Int) - s.dev.view 1).natAbs < 1000 * 2 ^ 40
    (n < 8 → expired → Does (.waitLockTimeout n) s (fun d => d.cad n = { s.dev.cad n with ref := some s.dev.time.cnt } ∧
      d.rf R.TIME_CADn_STAT_NOLOCK 0 n = 1 ∧ d.rf R.TIME_CADn_STAT_WAIT 0 n = b2n (s.dev.cad n).deferred ∧
      (∀ k, k ≠ n → d.cad k = s.dev.cad k) ∧ Raises Ev.TIME_NOLOCK 0 s.dev d)) ∧
    (n < 8 → ¬ expired → Does (.waitLockTimeout n) s (fun d => d = s.dev)) ∧
    (near → Does .follow1Lock s (fun d => d.rf R.TIME_VSTAT_LOCK 0 0 = 1 ∧
      d.vstate 0 = (if s.dev.vstate 0 = vsFREE then vsARMED else s.dev.vstate 0) ∧ d.view 0 = s.dev.view 0 ∧ Raises Ev.TIME_LOCK 0 s.dev d ∧
      (∀ k, k < 8 → s.dev.running = true → (s.dev.cad k).used = true → (s.dev.cad k).ref = none → (d.cad k).ref = some s.dev.time.cnt))) ∧
    (¬ near → Does .follow1Lock s (fun d => d = s.dev)))

/-! ### Boundaries, units, tiles (R28 to R35, R66 to R81, R105 to R110) -/

/-- R105, R106, R109: at a boundary tick the cycle number of every cadence whose boundary falls becomes the one that view 0 gives, that of
every other cadence stays, and no boundary moves a view or the counter. Tile memory changes by bit upsets only: a boundary itself stores
nothing. (Stated where no exchange hands units over at this tick and no unit has staged register writes, whose effects R365 gives.) -/
def Obligations.BoundaryCountsCycles : Prop :=
  ∀ (s : State) (mask : Nat) (env : BoundaryEnv), mask < 256 → s.dev.dupx.await = [] → (∀ u, (s.dev.un u).regw = []) →
    DoesMem (.cadenceBoundary mask env) s (fun d m =>
      (∀ n, (d.cad n).k = if n ∈ s.dev.due mask then s.dev.cadIdx n else (s.dev.cad n).k) ∧
      (∀ v, d.vw v = s.dev.vw v) ∧ d.time.cnt = s.dev.time.cnt ∧
      ∀ a, (∀ f ∈ env.flips, f.1 ≠ a) → memGet m a = memGet s.mem a)

/-- R31, R67, R77, R80: a cadence unit that executes, waits for nothing and has no scan to end, whose shadowed tiles pass their check, commits its
cycle: it is idle, its cycle is done, what it worked on is its committed content, its run of consecutive overruns is over, and SLACK_LAST shows the
ticks that were left to the next boundary. A unit that runs on past its boundary commits nothing: content stays as it was, memory too but for the bits
that the environment upsets and what units then read of them (`d0`), and its negative slack is recorded. Where the tag of a tile that the unit wrote does not agree with its content, the cycle
is not executed: nothing is committed, TILE_ERR is set, and at a first failure the unit's tile begins its restore. -/
def Obligations.CompletionCommits : Prop :=
  ∀ (s : State) (u : Nat) (tiles : List (Nat × List Byte)) (flips : List (Nat × Byte)), u < s.dev.nUnits → (s.dev.un u).run = 1 → (s.dev.un u).event = false →
    (s.dev.un u).done = false →
    let slack : Int := s.dev.tickOf (s.dev.cadNs (s.dev.un u).cad ((s.dev.un u).cycle + 1)) - s.dev.time.cnt
    let d0 := (Dev.struck flips (s.dev, s.mem)).1
    let m0 := s.dev.strike flips s.mem
    let ends : Prop := (s.dev.un u).late = false ∧ d0.ready u = true ∧ (s.dev.un u).scanning = false
    (ends → d0.shadowBad m0 u tiles = none →
      DoesMem (.unitCompletion u tiles flips) s (fun d _ => (d.un u).run = 0 ∧ (d.un u).done = true ∧ (d.un u).base = (d.un u).work ∧
        d.rf R.UNIT_OVR_CNT_CONSEC u = 0 ∧ d.rf R.UNIT_SLACK_LAST_SLACK u = ofS 32 (clampI (-(2 ^ 31)) (2 ^ 31 - 1) slack))) ∧
    ((s.dev.un u).late = true → d0.shadowBad m0 u tiles = none →
      DoesMem (.unitCompletion u tiles flips) s (fun d m => m = m0 ∧ (d.un u).run = 0 ∧ (d.un u).base = (d0.un u).base ∧
        (d.un u).work = (d0.un u).base ∧ (d.un u).late = false ∧ (d.un u).done = false ∧
        d.rf R.UNIT_SLACK_LAST_SLACK u = ofS 32 (clampI (-(2 ^ 31)) (2 ^ 31 - 1) slack) ∧ ∀ v, v ≠ u → d.un v = d0.un v)) ∧
    (flips = [] → d0 = s.dev) ∧
    (∀ t, ends ∨ (s.dev.un u).late = true → d0.shadowBad m0 u tiles = some t → t.again = false →
      DoesMem (.unitCompletion u tiles flips) s (fun d m => m = m0 ∧ (d.un u).run = 3 ∧ (d.un u).restoring = true ∧
        (d.un u).base = (d0.un u).base ∧ (d.un u).work = (d0.un u).base ∧ (d.un u).done = false ∧ d.rf R.UNIT_STAT_TILE_ERR u = 1 ∧
        (∀ v, v ≠ u → d.un v = d0.un v)))

/-- R35, R78, R79, R90: a checkpoint whose copy ends is complete with the cycle that was copied (at once where no acknowledgement is awaited); a
restore ends with the unit idle and its content one and the same for base and work; a held tile-window write of an idle unit leaves the list of
held writes and stores only into the unit's WRITABLE tiles; CLRSTAT resets SLACK_MIN and the overrun total and nothing else. -/
def Obligations.TilesAndCheckpoints : Prop :=
  ∀ (s : State) (n u : Nat) (flips : List (Nat × Byte)),
    (∀ c, n < 8 → (Tbl.getD {} s.dev.ckpt n).pend = some c → Tbl.get? s.dev.dupx.acks n = none →
      Does (.checkpointCopyDone n) s (fun d => (Tbl.getD {} d.ckpt n).pend = none ∧
        (Tbl.getD {} d.ckpt n).complete.map Ckpt.k = some c.k ∧ d.units = s.dev.units)) ∧
    (u < s.dev.nUnits → (s.dev.un u).restoring = true →
      DoesMem (.tileRestoreDone u flips) s (fun d _ => (d.un u).restoring = false ∧ (d.un u).run = 0 ∧ d.rf R.UNIT_STAT_RUN u = 0 ∧
        (d.un u).base = (d.un u).work ∧ ∀ v, v ≠ u → (d.un v).run = (s.dev.un v).run ∧ (flips = [] → d.un v = s.dev.un v))) ∧
    (∀ e rest, u < s.dev.nUnits → (s.dev.un u).deferW = e :: rest → (s.dev.un u).run = 0 →
      DoesMem (.tileWriteApply u) s (fun d m => (d.un u).deferW = rest ∧ (∀ v, v ≠ u → d.un v = s.dev.un v) ∧
        ∀ a, (∀ t ∈ (s.dev.un u).tiles, t.cls = 2 → a < tileAddr t.ptile ∨ tileAddr t.ptile + 1024 ≤ a) → memGet m a = memGet s.mem a)) ∧
    (u < s.dev.present .unit → Does (.unitClrstat u) s (fun d => d.rf R.UNIT_SLACK_MIN_SLACK u = 0x7FFFFFFF ∧ d.rf R.UNIT_OVR_CNT_TOTAL u = 0 ∧
      { d with regs := s.dev.regs } = s.dev))

/-! ### The dispatcher (R82 to R89) -/

/-- R84, R87: an item accepted into a flow goes on chip while its level is below quota and its flow has nothing in the ring; else to the tail of
the ring while that has room; else it is refused, LVL_DROP counts and DROP is set. Its STAMP is the present count. Nothing that stood there
moves.

R85 to R87, R434: an idle event-driven unit that is the first of its cluster with a choice takes it: it is busy with that item, the flow is in
service, the item has left the store; an item that stayed with its unit after a failed shadow check is taken again from there. Items that spilled come back in acceptance order within the quota, none is lost and none is added. An
item's completion frees its flow and leaves its unit idle with its content committed. R89: while the fabric is down nothing is accepted. -/
def Obligations.Dispatcher : Prop :=
  (∀ (s : State) (die flow prod orig : Nat) (payload : List Byte) (f : FlowRec) (l : LevelRec),
    die < s.dev.nDies → flow < 4096 → prod < 3 → orig < 2048 → s.dev.flowOf die flow = some f → s.dev.levelOf die f.level = some l →
    die < 2 → f.level < 16 → s.dev.rst.dark = false → s.dev.rst.epi = none →
    let q : DispSt := Tbl.getD {} s.dev.disp die
    let it : Item := { stamp := s.dev.time.cnt, flow := flow, level := f.level, origin := orig + 2048 * prod,
                       payload := (payload ++ zeros 20).take 20 }
    let room : Prop := (q.store.filter (fun x => x.level = f.level)).length < l.quota ∧
      ∀ x ∈ q.ring, ¬ (x.level = f.level ∧ x.flow = flow)
    let ring : Prop := l.ringlog ≠ 0 ∧ (q.ring.filter (fun x => x.level = f.level)).length < 2 ^ l.ringlog
    (room → Does (.dispatchAccept die flow prod orig payload) s (fun d =>
      Tbl.getD {} d.disp die = { q with store := q.store ++ [it] } ∧ { d with disp := s.dev.disp } = s.dev)) ∧
    (¬ room → ring → Does (.dispatchAccept die flow prod orig payload) s (fun d =>
      Tbl.getD {} d.disp die = { q with ring := q.ring ++ [it] } ∧ { d with disp := s.dev.disp } = s.dev)) ∧
    (¬ room → ¬ ring → Does (.dispatchAccept die flow prod orig payload) s (fun d =>
      d.disp = s.dev.disp ∧ d.rf R.DISP_STAT_DROP = 1 ∧ Raises Ev.DISP_DROP 0 s.dev d ∧
      d.rf R.DISP_LVL_DROP_COUNT 0 die f.level = satAdd (2 ^ R.DISP_LVL_DROP_COUNT.w - 1) (s.dev.rf R.DISP_LVL_DROP_COUNT 0 die f.level) 1))) ∧
  (∀ (s : State) (die flow prod orig : Nat) (payload : List Byte), die < s.dev.nDies → flow < 4096 → prod < 3 → orig < 2048 →
    s.dev.rst.dark = true ∨ s.dev.rst.epi ≠ none → Does (.dispatchAccept die flow prod orig payload) s (fun d => d = s.dev)) ∧
  (∀ (s : State) (u die level : Nat) (tiles : List (Nat × List Byte)) (flips : List (Nat × Byte)) (it : Item),
    (u < s.dev.nUnits → s.dev.choice u = some it → s.dev.idleEv u = true →
      (∀ v, v ∈ s.dev.evUnits → v / 16 = u / 16 → v < u → s.dev.idleEv v = true → s.dev.choice v = none) →
      s.dev.envFull (rgnOf u) = false → s.dev.failing s.mem u = none →
      Does (.dispatchHandover u) s (fun d => (d.un u).run = 1 ∧ (d.un u).item = some it ∧
        ((s.dev.un u).item = none → (Tbl.getD {} d.disp (dieOf u)).serv = (Tbl.getD {} s.dev.disp (dieOf u)).serv ++ [it.flow] ∧
          (Tbl.getD {} d.disp (dieOf u)).store = (Tbl.getD {} s.dev.disp (dieOf u)).store.erase it) ∧
        ((s.dev.un u).item = some it → Tbl.getD {} d.disp (dieOf u) = Tbl.getD {} s.dev.disp (dieOf u)))) ∧
    (∀ l, die < s.dev.nDies → level < 16 → s.dev.levelOf die level = some l →
      Does (.spillReturn die level) s (fun d =>
        let mine (x : List Item) : List Item := x.filter (fun i => decide (i.level = level))
        let q : DispSt := Tbl.getD {} s.dev.disp die
        let q' : DispSt := Tbl.getD {} d.disp die
        mine q'.store ++ mine q'.ring = mine q.store ++ mine q.ring ∧
        ((mine q.store).length ≤ l.quota → (mine q'.store).length ≤ l.quota) ∧
        (q'.ring.filter (fun i => decide (i.level ≠ level)) = q.ring.filter (fun i => decide (i.level ≠ level))) ∧
        { d with disp := s.dev.disp } = s.dev)) ∧
    (u < s.dev.nUnits → (s.dev.un u).item = some it → (s.dev.un u).run = 1 → (s.dev.un u).scanning = false → (s.dev.un u).regw = [] →
      (s.dev.un u).smpWait = [] → s.dev.shadowBad (s.dev.strike flips s.mem) u tiles = none →
      DoesMem (.itemCompletion u tiles flips) s (fun d _ => (d.un u).run = 0 ∧ (d.un u).item = none ∧ (d.un u).base = (d.un u).work ∧
        (Tbl.getD {} d.disp (dieOf u)).serv = (Tbl.getD {} s.dev.disp (dieOf u)).serv.filter (· ≠ it.flow))))

/-! ### Loads, slots, boot, firmware (R55 to R65, R445, R486) -/

/-- R346: the parts of an image command. A part with MORE is acknowledged with CONTINUE and kept behind the parts before it; nothing else
happens: no other part of the device changes beside that session and what was sent.

R57, R59, R61, R62: the final part of a streamed image, or a slot's image, runs steps 1 to 7. Where they pass and the Last is EMPTY or
STOPPED, the copy begins: STATE LOADING, a load of that image at step 8 which owes the response. Where a check fails, the load ends there with
its RESULT and STEP, the loaded Last and its state as before; the response carries both; where they pass and a Last runs or loads, it ends so with
RUNNING at step 7. While another image transfer, load or slot write is in progress each of these requests is answered BUSY and changes nothing. -/
def Obligations.LoadsBegin : Prop :=
  (∀ (s : State) (q : Req) (img : List Byte) (n : Nat), q.more = true →
    let cont (c : Instr) (op : Nat) : Prop := Does c s (fun d =>
      Answered q eyCONTINUE [] d ∧ d.parts q.sess op = s.dev.parts q.sess op ++ img ∧
      { d with sessions := s.dev.sessions, sent := s.dev.sent, eth := s.dev.eth } = s.dev)
    (Admitted s q pvENGINEER → s.dev.imgBusy q 0x10 = false → cont (.lastStream q img) 0x10) ∧
    (Admitted s q pvVIEW → s.dev.imgBusy q 0x12 = false → cont (.lastVerify q img) 0x12) ∧
    (n < 2 → Admitted s q pvOWNER → s.dev.imgBusy q (0x130000 + n) = false → cont (.slotWrite q n img) (0x130000 + n)) ∧
    (Admitted s q pvOWNER → cont (.fwLoad q img) 0x15) ∧
    (Admitted s q pvOPERATE → cont (.recipeLoad q n img) (0x230000 + n))) ∧
  (∀ (s : State) (q : Req) (img : List Byte) (slot : Nat), Admitted s q pvENGINEER → q.more = false → s.dev.rst.lcPend = false → s.dev.lc.erasing = false →
    let begins (c : Instr) (d0 : Dev) (src : Nat) (im : List Byte) : Prop :=
      ((d0.lastCheck im).1 = ldOK → (s.dev.lastState = lsEMPTY ∨ s.dev.lastState = lsSTOPPED) → Does c s (fun d =>
        d.lastState = lsLOADING ∧ (∃ x, d.load = some x ∧ x.src = src ∧ x.step = 8 ∧ x.boot = false ∧ x.last = parseLast im ∧
          x.owe = some (q.sess, q.seq)) ∧ d.last = s.dev.last ∧ d.units = s.dev.units)) ∧
      ((d0.lastCheck im).1 = ldOK → s.dev.lastState ≠ lsEMPTY → s.dev.lastState ≠ lsSTOPPED → Does c s (fun d =>
        d.lastState = s.dev.lastState ∧ d.load = s.dev.load ∧ d.last = s.dev.last ∧ d.units = s.dev.units ∧
        Answered q eyOK [BitVec.ofNat 8 ldRUNNING, 7] d)) ∧
      ((d0.lastCheck im).1 ≠ ldOK → Does c s (fun d =>
        d.lastState = s.dev.lastState ∧ d.load = s.dev.load ∧ d.last = s.dev.last ∧ d.units = s.dev.units ∧
        d.rf R.SYS_LAST_STAT_RESULT = (d0.lastCheck im).1 ∧ d.rf R.SYS_LAST_STAT_STEP = (d0.lastCheck im).2.1 ∧
        Answered q eyOK [BitVec.ofNat 8 (d0.lastCheck im).1, BitVec.ofNat 8 (d0.lastCheck im).2.1] d))
    (s.dev.imgBusy q 0x10 = false →
      begins (.lastStream q img) ((s.dev.setParts q.sess 0x10 []).taken q) 3 (s.dev.parts q.sess 0x10 ++ img)) ∧
    (slot < 2 → s.dev.imgBusy { q with more := false } 0 = false →
      begins (.lastLoad q slot) ((s.dev.setParts q.sess 0 []).taken q) (slot + 1) (Tbl.getD {} s.dev.slots slot : SlotSt).image)) ∧
  (∀ (s : State) (q : Req) (img : List Byte) (n : Nat),
    let busy (c : Instr) (q0 : Req) (op priv : Nat) : Prop := Admitted s q priv → s.dev.imgBusy q0 op = true → Does c s (fun d =>
      (∃ b, Answered q eyOK [BitVec.ofNat 8 ldBUSY, b] d) ∧ { d with sessions := s.dev.sessions, sent := s.dev.sent, eth := s.dev.eth, free := s.dev.free } = s.dev)
    busy (.lastStream q img) q 0x10 pvENGINEER ∧ busy (.lastVerify q img) q 0x12 pvVIEW ∧
    (n < 2 → busy (.slotWrite q n img) q (0x130000 + n) pvOWNER ∧ busy (.lastLoad q n) { q with more := false } 0 pvENGINEER) ∧
    busy (.slotCommit q) { q with more := false } 0 pvOWNER)

/-- R56, R57, R61: a verify runs steps 1 to 7 and reports; the Last, its state, the load and the slots stay. A slot write sets the descriptor to
WRITING and goes on while the request waits; SLOT_COMMIT does so with the streamed image into the slot not in use (the model's reading, log entry
39). A write to the slot of the running Last is refused with RUNNING and changes no slot. When the write ends, at a tick that the spec leaves open (log
entry 56), what was read back is judged by steps 1 to 3: the slot is VALID or BAD, and the request has its answer. -/
def Obligations.SlotsAndVerify : Prop :=
  (∀ (s : State) (q : Req) (img : List Byte) (slot : Nat), q.more = false →
    let runs (n : Nat) : Prop := s.dev.running = true ∧ s.dev.rf R.SYS_LAST_STAT_SRC = n + 1
    let put (c : Instr) (n : Nat) (im : List Byte) : Prop :=
      (¬ runs n → Does c s (fun d => d.slots = Tbl.put n { st := 1, image := im } s.dev.slots ∧
        d.slotWr = some { slot := n, image := im, owe := (q.sess, q.seq) } ∧ (∃ y, Tbl.get? d.sessions q.sess = some y ∧ q.seq ∈ y.inProg) ∧
        { d with slots := s.dev.slots, slotWr := s.dev.slotWr, sessions := s.dev.sessions } = s.dev)) ∧
      (runs n → Does c s (fun d => d.slots = s.dev.slots ∧ d.slotWr = s.dev.slotWr ∧ d.rf R.SYS_LAST_STAT_RESULT = ldRUNNING ∧
        ∃ b, Answered q eyOK [BitVec.ofNat 8 ldRUNNING, b] d))
    (Admitted s q pvVIEW → s.dev.imgBusy q 0x12 = false → Does (.lastVerify q img) s (fun d =>
      let r := (s.dev.setParts q.sess 0x12 []).lastCheck (s.dev.parts q.sess 0x12 ++ img)
      d.rf R.SYS_LAST_STAT_RESULT = r.1 ∧ d.rf R.SYS_LAST_STAT_STEP = r.2.1 ∧ Answered q eyOK [BitVec.ofNat 8 r.1, BitVec.ofNat 8 r.2.1] d ∧
      d.lastState = s.dev.lastState ∧ { d with regs := s.dev.regs, sessions := s.dev.sessions, sent := s.dev.sent, eth := s.dev.eth } = s.dev)) ∧
    (slot < 2 → Admitted s q pvOWNER → s.dev.imgBusy q (0x130000 + slot) = false →
      put (.slotWrite q slot img) slot (s.dev.parts q.sess (0x130000 + slot) ++ img)) ∧
    (∀ im, Admitted s q pvOWNER → s.dev.imgBusy { q with more := false } 0 = false → s.dev.streamed = some im →
      put (.slotCommit q) (1 - s.dev.slotPref % 2) im)) ∧
  (∀ (s : State) (w : SlotWr), s.pending = [] → s.dev.slotWr = some w → ∃ d, step s = .next { s with dev := d } ∧
    (d.slotWr = some w ∧ d.slots = s.dev.slots ∧ d.sessions = s.dev.sessions ∨
     d.slotWr = none ∧ ∃ im, im.length = w.image.length ∧
       d.slots = Tbl.put w.slot { st := if (s.dev.slotCheck im).1 = ldOK then 2 else 3, image := im } s.dev.slots ∧
       ((Tbl.get? s.dev.sessions w.owe.1).isSome = true → ∃ x b c, Tbl.get? d.sessions w.owe.1 = some x ∧
         x.kept.getLast? = some { seq := w.owe.2, status := eyOK, payload := [b, c] })))

/-- R64, R65: a write of SLOT_PREF is taken; with DRAM trained the boot begins once: phase 5, and with the preferred slot VALID and its image
passing steps 1 to 7 its load is under way at step 8.

R58, R59, R62, R445: a copy that reads back wrong and a rehearsal that overruns end the load in EMPTY with COPY_FAIL at step 8 or
BAD_REHEARSAL at step 11, a good copy is mapped and goes on to step 10 or 11 (or ends in EMPTY with COPY_FAIL at step 9 where a cluster lacks
a spare), and a clean rehearsal with a plan for every used region ends the load with OK at step 12.

R486: a firmware image is judged when its final part arrives; one that passes goes into the firmware slot that is not running and is the one
that the next boot takes, one that fails changes no slot. The response carries the verdict. -/
def Obligations.LoadsEnd : Prop :=
  (∀ (s : State) (w : Word),
    (s.dev.wordFree 0x44 → Does (.slotPrefWrite w) s (fun d => d.slotPref = w.toNat % 2 ∧ d.slots = s.dev.slots ∧ d.last = s.dev.last)) ∧
    (s.dev.rst.phase = 4 → s.dev.rst.epi = none → s.dev.lc.erasing = false → s.dev.lastState = lsEMPTY →
      Does .bootLoad s (fun d => d.rst.phase = 5 ∧
        ((Tbl.getD {} s.dev.slots (s.dev.slotPref % 2) : SlotSt).st = 2 →
          ({ s.dev with rst := { s.dev.rst with phase := 5 } }.lastCheck (Tbl.getD {} s.dev.slots (s.dev.slotPref % 2) : SlotSt).image).1 = ldOK →
          d.lastState = lsLOADING ∧ d.load.map LoadSt.step = some 8 ∧ d.load.map LoadSt.boot = some true ∧
          d.load.map LoadSt.src = some (s.dev.slotPref % 2 + 1))))) ∧
  (∀ (s : State) (x : LoadSt) (ps : List PlanMeas), s.dev.load = some x → x.boot = false → s.dev.rst.epi = none →
    let failed (d : Dev) (res step : Nat) : Prop :=
      d.load = none ∧ d.last = none ∧ d.lastState = lsEMPTY ∧ d.rf R.SYS_LAST_STAT_RESULT = res ∧ d.rf R.SYS_LAST_STAT_STEP = step
    (x.step = 8 → DoesMem (.loadCopyDone false) s (fun d m => m = s.mem ∧ failed d ldCOPY_FAIL 8) ∧
      DoesMem (.loadCopyDone true) s (fun d _ => failed d ldCOPY_FAIL 9 ∨ d.load.map LoadSt.step = some 10 ∨ d.load.map LoadSt.step = some 11)) ∧
    (x.step = 11 → Does (.loadRehearsalEnd true ps) s (fun d => failed d ldBAD_REHEARSAL 11)) ∧
    (x.step = 11 → (∀ g ∈ s.dev.rgnsUsed, ∃ p ∈ ps, p.rgn = g) →
      Does (.loadRehearsalEnd false ps) s (fun d => d.load = none ∧ d.rf R.SYS_LAST_STAT_RESULT = ldOK ∧ d.rf R.SYS_LAST_STAT_STEP = 12))) ∧
  (∀ (s : State) (q : Req) (img : List Byte), Admitted s q pvOWNER → q.more = false →
    let im := s.dev.parts q.sess 0x15 ++ img
    let r := (s.dev.setParts q.sess 0x15 []).fwCheck im
    Does (.fwLoad q img) s (fun d => Answered q eyOK [BitVec.ofNat 8 r] d ∧
      (r = 0 → d.lc = { s.dev.lc with fwImages := Tbl.put (1 - s.dev.lc.fwSlot % 2) im s.dev.lc.fwImages, fwNext := 1 - s.dev.lc.fwSlot % 2 }) ∧
      (r ≠ 0 → d.lc = s.dev.lc) ∧ { d with lc := s.dev.lc, sessions := s.dev.sessions, sent := s.dev.sent, eth := s.dev.eth } = s.dev))

/-! ### Every command: memory, refusals, the Eyelet envelope, events -/

/-- A command outside the list of those that write tiles, records or resets leaves every byte of memory as it was. The recorder writes only
the 64 bytes of the slot it fills. -/
def Obligations.MemoryFrame : Prop :=
  (∀ (c : Instr) (s t : State), storesMem c = false → exec c s = .next t → t.mem = s.mem) ∧
  ∀ (s t : State) (a : Nat), exec .evtRecordWrite s = .next t →
    let i := if s.dev.evt.pfill < nPerm then s.dev.evt.pfill else s.dev.evt.wptr
    a < slotAddr i ∨ slotAddr i + 64 ≤ a → memGet t.mem a = memGet s.mem a

/-- A well-formed command is never refused and never faults, logic instructions apart: those are refused only on an operand that no loaded
program holds, and only a jump past its program faults (R151, R152). -/
def Obligations.WellFormedCommandsRun : Prop :=
  (∀ (c : Instr) (s : State), c.wf s.dev.variant = true → hasLogicOperand c = false → ∃ t, exec c s = .next t) ∧
  (∀ (c : Instr) (s : State) (f : Fault), exec c s = .fault f → isJump c = true ∧ f = .pastProgram) ∧
  ∀ (c : Instr) (s : State) (r : Refusal), exec c s = .refused r → r = .badOperand

/-- R347, R373: what the envelope of a request decides before its operation runs, for every request alike. Without an open session nothing
happens; a request whose answer is kept is answered again with it and has no second effect; one older than every answer kept is answered STALE;
one already in progress does nothing more; and one of a session without the privilege is answered DENIED and has no effect. -/
def Obligations.RequestsAreGated : Prop :=
  ∀ (c : Instr) (s : State) (q : Req) (priv : Nat), reqOf c = some (q, priv) →
    let told (d e : Dev) : Prop := { d with sessions := s.dev.sessions, eth := s.dev.eth } = e
    (s.dev.envelope q priv = .dead ∨ s.dev.envelope q priv = .busy → exec c s = .next s) ∧
    (∀ r, s.dev.envelope q priv = .again r →
      Does c s (fun d => told d { s.dev with sent := s.dev.sent ++ [.eyelet q.sess r.seq r.status r.payload] } ∧ r.seq = q.seq)) ∧
    (s.dev.envelope q priv = .stale →
      Does c s (fun d => told d { s.dev with sent := s.dev.sent ++ [.eyelet q.sess q.seq eySTALE []] })) ∧
    (∀ x, Tbl.get? s.dev.sessions q.sess = some x → x.kept.find? (fun r => decide (r.seq = q.seq)) = none → x.kept.length < 64 →
      x.inProg.contains q.seq = false → x.priv < priv →
      Does c s (fun d => Answered q eyDENIED [] d ∧ { d with sessions := s.dev.sessions, sent := s.dev.sent, eth := s.dev.eth } = s.dev))

/-- R474, R475: an event raised while the recorder accepts events becomes the newest entry of the queue, with the tick, the operating time, the
power cycle and, while view 1 is LOCKED, its time; a full queue loses it, and LOST and QOVF show that; an event whose code has no token left is
only counted for its next record. (The event's code requests no freeze here.) -/
def Obligations.EventsAreQueued : Prop :=
  ∀ (d : Dev) (code inst : Nat) (data : List Byte), d.cfg.own.frz.contains code = false → d.evt.stopped = false →
    let pass := noLimit code = true ∨ Tbl.getD 0 d.evt.taken code < d.burstOf code
    (pass → d.evt.queue.length < 256 →
      (d.raise code inst data).evt.queue = d.evt.queue ++
        [⟨d.time.cnt, code, inst, d.evt.opsec, d.evt.pcycle, if d.locked 1 = true then some (d.viewNs 1) else none, false, data⟩] ∧
      (d.raise code inst data).regs = d.regs) ∧
    (pass → 256 ≤ d.evt.queue.length →
      (d.raise code inst data).evt.queue = d.evt.queue ∧ (d.raise code inst data).evt.lostNow = d.evt.lostNow + 1 ∧
      (d.raise code inst data).rf R.EVT_STAT_QOVF = 1) ∧
    (¬ pass → (d.raise code inst data).evt.queue = d.evt.queue ∧
      Tbl.getD 0 (d.raise code inst data).evt.supp code = satAdd 0xFFFF (Tbl.getD 0 d.evt.supp code) 1) ∧
    { d.raise code inst data with evt := d.evt, regs := d.regs } = d

/-- R472 to R477: a record is written from the queue's first event (by tick, SOURCE, CODE) into the next slot, permanent area first, with a MARK
and a CRC that make it valid, and TOTAL counts it; nothing is written while a clear is in progress. A whole second of the counter, and no less, counts
OPSEC while the rim PLL runs. The end of a clear leaves one record, REC_CLEARED, in slot 0. -/
def Obligations.RecorderWrites : Prop :=
  ∀ s : State,
    (∀ e, evFirst s.dev.evt.queue = some e → s.dev.evt.clearing = false → s.dev.evt.lostNow = 0 → s.dev.evt.pfill < nPerm →
      DoesMem .evtRecordWrite s (fun d m =>
        memRead m (slotAddr s.dev.evt.pfill) 64 = recordBytes e (Tbl.getD 0 s.dev.evt.supp e.code) ∧
        d.evt.pfill = s.dev.evt.pfill + 1 ∧ d.evt.total = s.dev.evt.total + 1 ∧ d.evt.wptr = s.dev.evt.wptr ∧
        d.evt.queue = s.dev.evt.queue.erase e ∧ { d with evt := s.dev.evt } = s.dev)) ∧
    (s.dev.evt.clearing = true → DoesMem .evtRecordWrite s (fun d m => d = s.dev ∧ m = s.mem)) ∧
    (s.dev.time.pll = true → s.dev.evt.opAt + 500000000 ≤ s.dev.time.cnt → Does .opsecTick s (fun d =>
      d.evt.opsec = (s.dev.evt.opsec + 1) % 2 ^ 40 ∧ d.evt.opAt = s.dev.evt.opAt + 500000000 ∧ d.evt.queue = s.dev.evt.queue ∧
      { d with evt := s.dev.evt } = s.dev)) ∧
    (s.dev.time.pll = false ∨ s.dev.time.cnt < s.dev.evt.opAt + 500000000 → Does .opsecTick s (fun d => d = s.dev)) ∧
    (s.dev.evt.clearing = true → DoesMem .recClearDone s (fun d m =>
      d.evt.clearing = false ∧ d.evt.pfill = 1 ∧ d.evt.total = 1 ∧ d.evt.wptr = nPerm ∧ d.rf R.EVT_STAT_CLEARING = 0 ∧
      le (memRead m (slotAddr 0) 64) 6 2 = Ev.REC_CLEARED ∧
      ∀ i, 0 < i → i < nSlots → recordOk (memRead m (slotAddr i) 64) = false))

/-! ### Eyelet: sessions, reads and writes, RUN, STOP, RESET, recipes, snapshots, the recorder, settings (R345 to R349, R373 to R377) -/

/-- R108, R377: RUN in STOPPED releases the Last: STATE RUNNING, every used cadence has the present tick as its reference, or none where it waits
for the LOCK of view 0. STOP in RUNNING: STATE STOPPED, no used cadence has a reference, and each takes its last latch first. Either is answered
OK, and outside those states, or where the device's role, a resume or a life-cycle transition forbids the release, RUN is answered REFUSED with the Last as
it was. While a resume record waits, RUN is answered OK and the release waits for the record (the model's reading, log entry 41). -/
def Obligations.RunAndStop : Prop :=
  ∀ (s : State) (q : Req), Admitted s q pvOPERATE →
    let may : Prop := s.dev.lastState = lsSTOPPED ∧ s.dev.mayRun = true ∧ s.dev.rst.lcPend = false ∧ s.dev.rst.resume = false
    (may → s.dev.rst.plrWait = false →
      Does (.run q) s (fun d => d.lastState = lsRUNNING ∧ Answered q eyOK [] d ∧ d.rst.safe = false ∧ d.time.views = s.dev.time.views ∧
        ∀ n, n < 8 → (s.dev.cad n).used = true →
          (d.cad n).ref = if s.dev.flag R.TIME_CADn_CFG_WAITLOCK 0 n = true ∧ s.dev.locked 0 = false then none else some s.dev.time.cnt)) ∧
    (s.dev.lastState = lsRUNNING → Does (.stop q) s (fun d => d.lastState = lsSTOPPED ∧ Answered q eyOK [] d ∧
      ∀ n, n < 8 → (s.dev.cad n).used = true → (d.cad n).ref = none ∧ (d.cad n).stopping = true ∧ d.rf R.TIME_CADn_STAT_RUN 0 n = 0)) ∧
    (may → s.dev.rst.plrWait = true → Does (.run q) s (fun d => d.rst.plrRun = true ∧ Answered q eyOK [] d ∧
      { d with rst := s.dev.rst, sessions := s.dev.sessions, sent := s.dev.sent, eth := s.dev.eth } = s.dev)) ∧
    (¬ may → Does (.run q) s (fun d => Answered q eyREFUSED [] d ∧
      { d with sessions := s.dev.sessions, sent := s.dev.sent, eth := s.dev.eth } = s.dev)) ∧
    (s.dev.lastState ≠ lsRUNNING → Does (.stop q) s (fun d => Answered q eyREFUSED [] d ∧
      { d with sessions := s.dev.sessions, sent := s.dev.sent, eth := s.dev.eth } = s.dev))

/-- R377, R450, R454: a RESET request of reach CORE or SYSTEM asserts its source after the answer was sent. With no episode running and none
escalating, an episode of that source and reach begins, with a pulse of 10 µs; a core episode leaves memory as it was and ends every session. A system
episode leaves what MRAM and flash hold, except that a slot write under way leaves its slot WRITING. -/
def Obligations.ResetRequests : Prop :=
  ∀ (s : State) (q : Req), Admitted s q pvENGINEER → s.dev.rst.epi = none → s.dev.rst.loss = none → s.dev.rst.trimFault = false →
    s.dev.rst.deferred = [] →
    (s.dev.escalates = false → DoesMem (.reset q 0) s (fun d m => m = s.mem ∧ d.sessions = [] ∧
      d.rst.epi = some { first := srEYL_CORE, reach := 1, mask := [srEYL_CORE], now := [], pulseEnd := s.dev.time.cnt + 5000, fresh := true } ∧ d.rst.coresUp = false ∧
      d.time.cnt = s.dev.time.cnt ∧ (∀ v, d.view v = s.dev.view v))) ∧
    DoesMem (.reset q 1) s (fun d m => d.sessions = [] ∧ d.last = none ∧ d.time = {} ∧ d.units = [] ∧
      d.rst.epi = some { first := srEYL_SYS, reach := 2, mask := [srEYL_SYS], now := [], pulseEnd := s.dev.time.cnt + 5000, fresh := true } ∧
      (s.dev.slotWr = none → d.slots = s.dev.slots) ∧ (∀ w, s.dev.slotWr = some w → (Tbl.getD {} d.slots w.slot : SlotSt).st = 1) ∧ d.isl = s.dev.isl ∧
      (s.dev.frz.copy = none → d.snaps = s.dev.snaps) ∧
      (∀ a, 0x200000000000 ≤ a → memGet m a = memGet s.mem a) ∧ (∀ a, a < 0x200000000000 → memGet m a = memInit))

/-- R375, R374: REG_READ reads its 1 to 256 words in ascending order, each in its own access and after the effects of those before it; the response carries the
words, or, with an address that is no word of any block, none, and the first status other than OK. REG_WRITE writes its 1 to 256 words likewise and stops at the
first that is not applied; the response carries that word's status, or OK, and the number of words applied. A count outside 1 to 256 is MALFORMED.

One word: a read of a word of a present block answers OK with its value, of an empty offset OK with zeros, of an absent block ABSENT with zeros and ABSENT_ACC, elsewhere
BAD_ADDR; but for the measured words and CNT_LO it leaves the device as it was. A write elsewhere is BAD_ADDR, to an absent block ABSENT, to an empty offset or to
a locked RWL field IGNORED, to a word that a unit writes in this tick BUSY, each with 0 words applied; to the period of a comparator, at any of its four
addresses, OK with 1, and the word holds what R358 gives. -/
def Obligations.RegisterRequests : Prop :=
  (∀ (s : State) (q : Req) (a n : Nat) (ws : List Word),
    (Admitted s q pvVIEW → 1 ≤ n → n ≤ 256 → Does (.regRead q a n) s (fun d => ∃ (ds : Nat → Dev) (st : Nat), ds 0 = s.dev ∧
      let r (i : Nat) : Nat × Nat × Dev := (ds i).readReg .eyelet (a + 4 * i)
      (∀ i, i < n → ds (i + 1) = (r i).2.2) ∧
      ((∀ i, i < n → (r i).1 = eyOK) ∧ st = eyOK ∨ ∃ i, i < n ∧ (∀ j, j < i → (r j).1 = eyOK) ∧ (r i).1 = st ∧ st ≠ eyOK) ∧
      d = (ds n).answer q st (if st = eyBAD_ADDR then [] else ((List.range n).map (fun i => leBytes 4 (r i).2.1)).flatten))) ∧
    (Admitted s q pvENGINEER → 1 ≤ ws.length → ws.length ≤ 256 → Does (.regWrite q a ws) s (fun d => ∃ (ds : Nat → Dev) (st k : Nat), ds 0 = s.dev ∧
      k ≤ ws.length ∧
      let x (i : Nat) : Dev × Nat := (ds i).writeReg .eyelet (a + 4 * i) (nth 0 ws i) s.mem
      (∀ i, i < k → (x i).2 = eyOK ∧ ds (i + 1) = (x i).1) ∧
      (k = ws.length ∧ st = eyOK ∧ d = (ds k).answer q eyOK (leBytes 2 k) ∨
       k < ws.length ∧ st ≠ eyOK ∧ (x k).2 = st ∧ d = (x k).1.answer q st (leBytes 2 k)))) ∧
    (Admitted s q pvVIEW → n = 0 ∨ 256 < n → Does (.regRead q a n) s (fun d => Answered q eyMALFORMED [] d ∧
      { d with sessions := s.dev.sessions, sent := s.dev.sent, eth := s.dev.eth } = s.dev)) ∧
    (Admitted s q pvENGINEER → ws = [] ∨ 256 < ws.length → Does (.regWrite q a ws) s (fun d => Answered q eyMALFORMED [] d ∧
      { d with sessions := s.dev.sessions, sent := s.dev.sent, eth := s.dev.eth } = s.dev))) ∧
  (∀ (s : State) (q : Req) (a : Nat) (w : Word),
    let same (d : Dev) : Prop := { d with sessions := s.dev.sessions, sent := s.dev.sent, eth := s.dev.eth } = s.dev
    let reads (P : Dev → Prop) : Prop := Admitted s q pvVIEW → Does (.regRead q a 1) s P
    let writes (P : Dev → Prop) : Prop := Admitted s q pvENGINEER → Does (.regWrite q a [w]) s P
    (a % 4 ≠ 0 ∨ blkAt a = none → reads (fun d => Answered q eyBAD_ADDR [] d ∧ same d) ∧ writes (fun d => Answered q eyBAD_ADDR [0, 0] d ∧ same d)) ∧
    ∀ b k, a % 4 = 0 → blkAt a = some (b, k) →
      let o := (aliasOf b (a % 0x10000)).2
      let al := (aliasOf b (a % 0x10000)).1
      let base := b.base + k * 0x10000 + o
      let absent : Prop := s.dev.present b ≤ k ∨ s.dev.absentWord b o = true
      let measured : Prop := (b = .pwr ∧ o = 0x34) ∨ (b = .marg ∧ 0x1000 ≤ o)
      (absent → reads (fun d => Answered q eyABSENT [0, 0, 0, 0] d ∧ d.rf R.SYS_STAT_ABSENT_ACC = 1) ∧
        writes (fun d => Answered q eyABSENT [0, 0] d ∧ d.rf R.SYS_STAT_ABSENT_ACC = 1 ∧ d.units = s.dev.units)) ∧
      (¬ absent → s.dev.wordAt b k o = none → reads (fun d => Answered q eyOK [0, 0, 0, 0] d ∧ same d) ∧
        writes (fun d => Answered q eyIGNORED [0, 0] d ∧ d.rf R.SYS_STAT_WIGN_ANY = 1 ∧ d.units = s.dev.units)) ∧
      (∀ r, ¬ absent → s.dev.wordAt b k o = some r →
        (¬ measured → reads (fun d => Answered q eyOK (leBytes 4 (s.dev.peek base)) d ∧ (¬ (b = .time ∧ o = 0x10) → same d))) ∧
        (measured → reads (fun d => ∃ v, Answered q eyOK (leBytes 4 v) d ∧ d.regs = s.dev.regs ∧ d.units = s.dev.units)) ∧
        (¬ s.dev.wordFree base → writes (fun d => Answered q eyBUSY [0, 0] d ∧ same d)) ∧
        (s.dev.wordFree base → r.changesRwl (r.newWord al w.toNat (s.dev.peek base) (s.dev.rw base)) (s.dev.peek base) = true →
          bitAt (s.dev.peek (b.base + k * 0x10000)) 0 = true →
          writes (fun d => Answered q eyIGNORED [0, 0] d ∧ d.rf R.SYS_STAT_WIGN_ANY = 1 ∧ d.units = s.dev.units))) ∧
      (∀ i, i < 64 → base = 0x2080C + 0x20 * i → s.dev.wordFree base → writes (fun d => Answered q eyOK [1, 0] d ∧
        let old := BitVec.ofNat 32 (s.dev.rf R.TIME_CMPi_PER_PER 0 i)
        BitVec.ofNat 32 (d.rf R.TIME_CMPi_PER_PER 0 i) = (if al = 0 then w else if al = 1 then old ||| w else if al = 2 then old &&& ~~~w else old ^^^ w) ∧
        (∀ c, c ≠ base → d.rw c = s.dev.rw c) ∧
        { d with regs := s.dev.regs, outWr := s.dev.outWr, sessions := s.dev.sessions, sent := s.dev.sent, eth := s.dev.eth } = s.dev)))

/-- R78, R373: MEM_READ of 1 to 1024 bytes inside one memory window answers with what those bytes hold; where neither the copy of the Last nor a checkpoint lies among
them, that is memory's content. MEM_WRITE to one tile that a unit holds as WRITABLE is held for that unit until it is idle and is not answered yet: no byte of
memory changes now; a write outside the tile window is answered BAD_ADDR. -/
def Obligations.MemoryRequests : Prop :=
  ∀ (s : State) (q : Req) (a : Nat) (bs : List Byte),
    (Admitted s q pvVIEW → ∀ n, 0 < n → n ≤ 1024 →
      Does (.memRead q a n) s (fun d => { d with sessions := s.dev.sessions, sent := s.dev.sent, eth := s.dev.eth } = s.dev ∧
        (s.dev.readable a n = true → Answered q eyOK ((List.range n).map (fun i => s.dev.seenByte s.mem (a + i))) d) ∧
        (s.dev.readable a n = true → (∀ p ∈ s.dev.dramParts, a + n ≤ p.1 ∨ p.1 + p.2.length ≤ a) → Answered q eyOK (memRead s.mem a n) d) ∧
        (s.dev.readable a n = false → Answered q eyBAD_ADDR [] d))) ∧
    (Admitted s q pvENGINEER → bs ≠ [] → bs.length ≤ 1024 →
      (s.dev.inTiles a bs.length = false → Does (.memWrite q a bs) s (fun d => Answered q eyBAD_ADDR [] d ∧
        { d with sessions := s.dev.sessions, sent := s.dev.sent, eth := s.dev.eth } = s.dev)) ∧
      ∀ t u x, s.dev.inTiles a bs.length = true → tileAddr t ≤ a → a + bs.length ≤ tileAddr (t + 1) → s.dev.tileOwner t = some (u, x) → x.cls = 2 →
        Does (.memWrite q a bs) s (fun d =>
          (d.un u).deferW = (s.dev.un u).deferW ++
            [(some (q.sess, q.seq), (List.range bs.length).map (fun i => (1024 * x.lidx + (a - tileAddr t) + i, nth 0 bs i)))] ∧
          (∀ w, w ≠ u → d.un w = s.dev.un w) ∧ { d with units := s.dev.units, sessions := s.dev.sessions } = s.dev ∧
          ∃ y, Tbl.get? d.sessions q.sess = some y ∧ q.seq ∈ y.inProg))

/-- R208, R210: the final part of a recipe image is taken by an idle sequencer of that number, which waits for the check, and its answer with it;
by one that runs, and by any of a FAULTED unit, it is answered OK with BUSY and changes no sequencer. The check's end stores an accepted recipe with result OK, drops the old one
otherwise, frees the sequencer and answers. -/
def Obligations.RecipeLoads : Prop :=
  ∀ (s : State) (q : Req) (num u i : Nat) (img : List Byte), s.dev.seqOf num = some (u, i) →
    (Admitted s q pvOPERATE → q.more = false → s.dev.dxStandby = false → s.dev.rst.lcPend = false →
      let st := (Tbl.getD {} (s.dev.un u).base.seqs i).st
      let idle := (s.dev.un u).run ≠ 2 ∧ (st = 0 ∨ st = 6 ∨ st = 7)
      (idle → Does (.recipeLoad q num img) s (fun d =>
        Tbl.get? d.recipeLoad num = some (s.dev.parts q.sess (0x230000 + num) ++ img, q.sess, q.seq) ∧
        (Tbl.getD {} (d.un u).base.seqs i).st = 1 ∧ d.recipes = s.dev.recipes ∧ (∀ w, w ≠ u → d.un w = s.dev.un w))) ∧
      (¬ idle → Does (.recipeLoad q num img) s (fun d => Answered q eyOK [BitVec.ofNat 8 sqBUSY] d ∧
        Tbl.get? d.recipeRes num = some sqBUSY ∧ d.units = s.dev.units ∧ d.recipes = s.dev.recipes))) ∧
    (∀ b sess seq, u < s.dev.nUnits → i < 4 → s.dev.seqNo u i = num → Tbl.get? s.dev.recipeLoad num = some (b, sess, seq) → s.dev.copies = false →
      Does (.recipeLoadDone u i) s (fun d =>
        let res := recipeCheck (nth {} (s.dev.seqsOf u) i) s.dev.sigTyp b
        Tbl.get? d.recipeRes num = some res ∧ (Tbl.getD {} (d.un u).base.seqs i).st = 0 ∧ Tbl.get? d.recipeLoad num = none ∧
        Tbl.get? d.recipes num = (if res = sqOK then some b else none)))

/-- R281, R349, R476, R477: SNAP_LOCK sets or clears a slot's lock, SNAP_CLEAR empties a slot that is not being written; NETCFG_READ answers with
the stored settings, NETCFG_WRITE stores new ones for the next reset; REC_READ answers with 64 bytes a slot, zeros where none holds a valid record;
REC_CLEAR starts a clear in state OWNED, which answers at its end. -/
def Obligations.StoredData : Prop :=
  ∀ (s : State) (q : Req) (n : Nat) (bs : List Byte),
    (Admitted s q pvENGINEER → n < 64 →
      (∀ l, l < 2 → Does (.snapLock q n l) s (fun d => (Tbl.getD {} d.snaps n).locked = decide (l = 1) ∧ Answered q eyOK [] d ∧
        (∀ k, k ≠ n → Tbl.get? d.snaps k = Tbl.get? s.dev.snaps k) ∧
        { d with snaps := s.dev.snaps, sessions := s.dev.sessions, sent := s.dev.sent, eth := s.dev.eth } = s.dev)) ∧
      (s.dev.frz.copy.map Prod.fst ≠ some n → Does (.snapClear q n) s (fun d => Tbl.get? d.snaps n = none ∧ Answered q eyOK [] d ∧
        (∀ k, k ≠ n → Tbl.get? d.snaps k = Tbl.get? s.dev.snaps k) ∧
        { d with snaps := s.dev.snaps, sessions := s.dev.sessions, sent := s.dev.sent, eth := s.dev.eth } = s.dev))) ∧
    (Admitted s q pvVIEW → Does (.netcfgRead q) s (fun d => Answered q eyOK s.dev.netcfg d ∧
      { d with sessions := s.dev.sessions, sent := s.dev.sent, eth := s.dev.eth } = s.dev)) ∧
    (Admitted s q pvOWNER → Does (.netcfgWrite q bs) s (fun d => d.netcfg = bs ∧ d.netApplied = s.dev.netApplied ∧ Answered q eyOK [] d ∧
      { d with netcfg := s.dev.netcfg, sessions := s.dev.sessions, sent := s.dev.sent, eth := s.dev.eth } = s.dev)) ∧
    (Admitted s q pvVIEW → n < nSlots → ∀ c, 1 ≤ c → c ≤ 16 → Does (.recRead q n c) s (fun d =>
      let slot (i : Nat) : List Byte := memRead s.mem (slotAddr i) 64
      { d with sessions := s.dev.sessions, sent := s.dev.sent, eth := s.dev.eth } = s.dev ∧
      Answered q eyOK (((List.range (min c (nSlots - n))).map (fun i =>
        if recordOk (slot (n + i)) = true then slot (n + i) else List.replicate 64 0)).flatten) d)) ∧
    (Admitted s q pvOWNER → s.dev.lc.state = 2 → s.dev.evt.clearing = false → Does (.recClear q) s (fun d =>
      d.evt.clearing = true ∧ d.evt.clearOwe = some (q.sess, q.seq) ∧ d.rf R.EVT_STAT_CLEARING = 1 ∧ d.sent = s.dev.sent ∧
      d.evt.queue = s.dev.evt.queue))

/-- R345, R346, R373, R480: a client whose certificate is good in the life-cycle state opens a session under the lowest free number of eight, with
the privilege of its role; a ninth opens none (a frame with an alert may leave); a session without a record for the idle time is closed; a malformed message and an unlisted operation are answered
MALFORMED and UNKNOWN_OP and change nothing else. -/
def Obligations.Sessions : Prop :=
  ∀ (s : State) (n : Nat),
    (∀ cert p, s.dev.rst.coresUp = true → sessPriv s.dev.lc.state cert = some p → n < 8 → Tbl.get? s.dev.sessions n = none →
      (∀ k, k < n → Tbl.get? s.dev.sessions k ≠ none) →
      Does (.eyeletHandshake cert) s (fun d =>
        Tbl.get? d.sessions n = some { priv := p, last := s.dev.time.cnt, port := cert.port, ip := cert.ip, udp := cert.udp, peer := cert.peer } ∧
        (∀ k, k ≠ n → Tbl.get? d.sessions k = Tbl.get? s.dev.sessions k) ∧ { d with sessions := s.dev.sessions } = s.dev)) ∧
    (∀ cert, (∀ k, k < 8 → Tbl.get? s.dev.sessions k ≠ none) →
      Does (.eyeletHandshake cert) s (fun d => { d with eth := s.dev.eth } = s.dev)) ∧
    (∀ x, n < 8 → Tbl.get? s.dev.sessions n = some x → x.last + s.dev.net.eylIdle * 500000000 ≤ s.dev.time.cnt →
      Does (.eyeletIdleTimeout n) s (fun d => Tbl.get? d.sessions n = none ∧
        (∀ k, k ≠ n → Tbl.get? d.sessions k = Tbl.get? s.dev.sessions k) ∧ { d with sessions := s.dev.sessions } = s.dev)) ∧
    (∀ seq x, Tbl.get? s.dev.sessions n = some x →
      Does (.eyeletMalformed n seq) s (fun d =>
        { d with sessions := s.dev.sessions, eth := s.dev.eth } = { s.dev with sent := s.dev.sent ++ [.eyelet n seq eyMALFORMED []] })) ∧
    (∀ q op, eyOps.contains op = false → Admitted s q pvVIEW → Does (.unknownOp q op) s (fun d => Answered q eyUNKNOWN [] d ∧
      { d with sessions := s.dev.sessions, sent := s.dev.sent, eth := s.dev.eth } = s.dev))

/-- R481, R484, R485, R488: a life-cycle request meeting every condition is answered OK, LASTREQ is ACCEPTED, and its change of fuses and flash is
made; one that fails a condition is answered REFUSED with WHY and changes none of them. Either way the nonce is replaced by a fresh value. DEV_ON,
DEV_OFF, KEY_ADD, KEY_REVOKE only change the fuses; RETURN starts the erasure, the others assert the LC reset.

R487: the end of the erasure revokes every programmed key slot, clears the anchor, the slots, the recipes, the snapshots and the settings,
leaves one record in the recorder, and marks the erasure done. -/
def Obligations.LifeCycleRequests : Prop :=
  (∀ (s : State) (q : Req) (m : LcMsg) (sub : Nat) (c : Instr), Admitted s q pvOWNER →
    [(1, Instr.takeOwnership q m), (2, .lcSeal q m), (3, .lcReturn q m), (4, .lcScrap q m), (5, .devOn q m), (6, .devOff q m),
      (7, .keyAdd q m), (8, .keyRevoke q m), (9, .lcShip q m)].contains (sub, c) = true →
    let nonce := Config.freeNat s.dev.free % 2 ^ 64
    (∀ why, s.dev.lcWhy sub m = why → why ≠ 0 → DoesMem c s (fun d mem => mem = s.mem ∧ Answered q eyREFUSED [] d ∧
      d.rf R.SYS_LC_STAT_LASTREQ = 2 ∧ d.rf R.SYS_LC_STAT_WHY = why ∧ d.lc = { s.dev.lc with nonce := nonce } ∧ d.units = s.dev.units)) ∧
    (s.dev.lcWhy sub m = 0 → sub = 3 ∨ (5 ≤ sub ∧ sub ≤ 8) → DoesMem c s (fun d mem => mem = s.mem ∧ Answered q eyOK [] d ∧
      d.rf R.SYS_LC_STAT_LASTREQ = 1 ∧ d.lc = ({ s.dev.lc with nonce := nonce } : LcSt).apply sub m ∧ d.rst.lcPend = (s.dev.rst.lcPend || decide (sub = 3)))) ∧
    (s.dev.lcWhy sub m = 0 → sub ≤ 4 ∧ sub ≠ 3 ∨ sub = 9 → s.dev.rst.epi = none → s.dev.rst.loss = none → s.dev.rst.trimFault = false →
      s.dev.rst.deferred = [] → DoesMem c s (fun d _ =>
        { d.lc with fwSlot := s.dev.lc.fwSlot } = ({ s.dev.lc with nonce := nonce } : LcSt).apply sub m ∧
        d.rst.epi = some { first := srLC, reach := 2, mask := [srLC], now := [], pulseEnd := s.dev.time.cnt + 5000, fresh := true } ∧ d.plr.valid = false ∧
        (sub = 4 → s.dev.slotWr = none → d.slots = []) ∧ (sub ≠ 4 → s.dev.slotWr = none → d.slots = s.dev.slots)))) ∧
  (∀ s : State, s.dev.lc.erasing = true → s.dev.rst.lcPend = false → DoesMem .lcEraseDone s (fun d m =>
    d.lc.eraseDone = true ∧ d.lc.anchor = [] ∧ d.lc.revoked = s.dev.lc.keys.map Prod.fst ∧ d.lc.keys = s.dev.lc.keys ∧
    d.lc.state = s.dev.lc.state ∧ d.slots = [] ∧ d.recipeStore = [] ∧ d.snaps = [] ∧ d.netcfg = [] ∧ d.plr = {} ∧ d.evt.total = 1 ∧
    (∀ n, d.lc.usable n = none) ∧ ∀ a, a < 0x200000000000 → memGet m a = memGet s.mem a))

/-! ### Register writes, the configuration checker, forces, partitions (R160 to R171, R358 to R371, R510) -/

/-- R3, R355, R361, R364, R365, R510: a write to no word of any block changes nothing; one to an absent block sets ABSENT_ACC and records
its address; one to an empty offset of a present block, or one that would change an RWL field of an enabled block, is dropped with WIGN and
WIGN_ANY; a unit's write is staged while the unit works and nothing otherwise; a service core's write of a word of the tile window is held for the unit
that owns the tile as WRITABLE, and dropped with WIGN_ANY elsewhere (R78). A command that is a register write acts so too on an instance that the variant lacks.

R7, R358: what a write leaves in an RW word through its four addresses (base, SET, CLR, TGL), here the period of a comparator, and in a W1C
flag, here REFLOSS: a 1 clears it at the base and SET addresses, and through CLR and TGL nothing happens. Nothing else of the device changes. -/
def Obligations.RegisterWrites : Prop :=
  (∀ (s : State) (wr : Writer) (a u : Nat) (w : Word),
    (a % 4 = 0 → s.dev.inTiles a 4 = true →
      let t := (a - 0x10000000) / 1024
      (∀ v x, s.dev.tileOwner t = some (v, x) → x.cls = 2 → Does (.registerWrite .core a w) s (fun d =>
        (d.un v).deferW = (s.dev.un v).deferW ++ [(none, (List.range 4).map (fun i => (1024 * x.lidx + (a - tileAddr t) + i, nth 0 (leBytes 4 w.toNat) i)))] ∧
        (∀ y, y ≠ v → d.un y = s.dev.un y) ∧ { d with units := s.dev.units } = s.dev)) ∧
      ((∀ v x, s.dev.tileOwner t = some (v, x) → x.cls ≠ 2) → Does (.registerWrite .core a w) s (fun d =>
        d.rf R.SYS_STAT_WIGN_ANY = 1 ∧ d.units = s.dev.units ∧ Raises Ev.REG_WIGN 0 s.dev d))) ∧
    (wr = .eyelet ∨ wr = .core ∧ ¬ (a % 4 = 0 ∧ s.dev.inTiles a 4 = true) →
      (a % 4 ≠ 0 ∨ blkAt a = none → Does (.registerWrite wr a w) s (fun d => d = s.dev)) ∧
      (∀ b k, a % 4 = 0 → blkAt a = some (b, k) → s.dev.present b ≤ k ∨ s.dev.absentWord b (aliasOf b (a % 0x10000)).2 = true →
        (s.dev.flag R.SYS_STAT_ABSENT_ACC = false →
          Does (.registerWrite wr a w) s (fun d => d.rf R.SYS_STAT_ABSENT_ACC = 1 ∧ d.rf R.SYS_ABSENT_ADDR_ADDR = a % 2 ^ 32 ∧
            d.units = s.dev.units ∧ Raises Ev.REG_ABSENT 0 s.dev d)) ∧
        (s.dev.flag R.SYS_STAT_ABSENT_ACC = true → Does (.registerWrite wr a w) s (fun d => d = s.dev))) ∧
      (∀ b k, a % 4 = 0 → blkAt a = some (b, k) → k < s.dev.present b → s.dev.absentWord b (aliasOf b (a % 0x10000)).2 = false →
        let al := (aliasOf b (a % 0x10000)).1
        let base := b.base + k * 0x10000 + (aliasOf b (a % 0x10000)).2
        s.dev.wordAt b k (aliasOf b (a % 0x10000)).2 = none ∨
          (s.dev.wordFree base ∧ bitAt (s.dev.peek (b.base + k * 0x10000)) 0 = true ∧
            ∃ r, s.dev.wordAt b k (aliasOf b (a % 0x10000)).2 = some r ∧
              r.changesRwl (r.newWord al w.toNat (s.dev.peek base) (s.dev.rw base)) (s.dev.peek base) = true) →
        Does (.registerWrite wr a w) s (fun d => d.rf R.SYS_STAT_WIGN_ANY = 1 ∧ d.units = s.dev.units ∧ d.time = s.dev.time ∧
          (base ≠ 0x4 → base ≠ 0x1C → base ≠ b.base + k * 0x10000 + 4 → (base / 0x10000 ≠ 0xA ∧ base / 0x10000 ≠ 6) → d.rw base = s.dev.rw base) ∧
          Raises Ev.REG_WIGN 0 s.dev d))) ∧
    ((s.dev.un u).run = 1 → (s.dev.un u).done = false → Does (.registerWrite (.unit u) a w) s (fun d =>
      (d.un u).regw = (s.dev.un u).regw ++ [(a, w.toNat)] ∧ (∀ v, v ≠ u → d.un v = s.dev.un v) ∧ { d with units := s.dev.units } = s.dev)) ∧
    ((s.dev.un u).run ≠ 1 ∨ (s.dev.un u).done = true → Does (.registerWrite (.unit u) a w) s (fun d => d = s.dev))) ∧
  (∀ (s : State) (c : Instr) (b : Blk) (k : Nat), s.dev.present b ≤ k → k < b.count →
    (c, b) ∈ [(.bankcal k, .adc), (.roll k, .adc), (.stoproll k, .adc), (.holRestart k, .hol), (.holRestore k, .hol), (.holClrcnt k, .hol),
      (.arbqPop k, .hol), (.arbqSend k, .hol), (.canRecover k, .can), (.canClrcnt k, .can), (.tscap k, .can), (.ethSwap k, .eth), (.unitClrstat k, .unit),
      (.startCold k, .unit), (.startWarm k, .unit), (.logicStop k, .unit), (.testOn k, .unit), (.testOff k, .unit)] →
    Does c s (fun d => d.rf R.SYS_STAT_ABSENT_ACC = 1 ∧ { d with regs := s.dev.regs, evt := s.dev.evt, frz := s.dev.frz, snaps := s.dev.snaps } = s.dev)) ∧
  (∀ (s : State) (i al : Nat) (w : Word), al < 4 →
    (i < 64 → s.dev.wordFree (0x2080C + 0x20 * i) → Does (.registerWrite .core (0x2080C + 0x20 * i + 0x4000 * al) w) s (fun d =>
      let old := BitVec.ofNat 32 (s.dev.rf R.TIME_CMPi_PER_PER 0 i)
      BitVec.ofNat 32 (d.rf R.TIME_CMPi_PER_PER 0 i) = (if al = 0 then w else if al = 1 then old ||| w else if al = 2 then old &&& ~~~w else old ^^^ w) ∧
      (∀ a, a ≠ 0x2080C + 0x20 * i → d.rw a = s.dev.rw a) ∧ { d with regs := s.dev.regs, outWr := s.dev.outWr } = s.dev)) ∧
    (s.dev.wordFree 0x20004 → Does (.registerWrite .core (0x20004 + 0x4000 * al) w) s (fun d =>
      d.rf R.TIME_STAT_REFLOSS = (if al < 2 ∧ w.getLsbD 1 = true then 0 else s.dev.rf R.TIME_STAT_REFLOSS) ∧
      (∀ a, a ≠ 0x20004 → d.rw a = s.dev.rw a) ∧ { d with regs := s.dev.regs, outWr := s.dev.outWr } = s.dev)))

/-- R368 to R370: COMMIT and SUSPEND suspend the comparison, COMMIT until the first clean pass that starts afterwards has given the reference; a
direct write of REF is the reference. A pass that ends while the checker runs counts; a DIRTY one is not compared; a clean one is the reference a
COMMIT waits for, or is compared with it and shows a mismatch. While the checker does not run no pass ends. -/
def Obligations.ConfigurationChecker : Prop :=
  ∀ (s : State) (w : Word),
    Does .cfgCommit s (fun d => d.rf R.CFGCHK_STAT_SUSP = 1 ∧ d.cfgCommit = 1 ∧ { d with regs := s.dev.regs, cfgCommit := s.dev.cfgCommit } = s.dev) ∧
    Does .cfgSuspend s (fun d => d.rf R.CFGCHK_STAT_SUSP = 1 ∧ { d with regs := s.dev.regs } = s.dev) ∧
    Does (.cfgchkRefWrite w) s (fun d => d.rf R.CFGCHK_REF_REF = w.toNat ∧ d.rf R.CFGCHK_STAT_REFVALID = 1 ∧ d.rf R.CFGCHK_STAT_BLKVALID = 0 ∧
      { d with regs := s.dev.regs } = s.dev) ∧
    (s.dev.cfgRuns = false → Does .cfgchkPassEnd s (fun d => d = s.dev)) ∧
    (s.dev.cfgRuns = true → Does .cfgchkPassEnd s (fun d =>
      d.rf R.CFGCHK_PASSES_COUNT = (s.dev.rf R.CFGCHK_PASSES_COUNT + 1) % 2 ^ 32 ∧ d.cfgDirty = false ∧
      (s.dev.cfgDirty = true → d.rf R.CFGCHK_STAT_DIRTY = 1 ∧ d.rf R.CFGCHK_REF_REF = s.dev.rf R.CFGCHK_REF_REF ∧
        d.rf R.CFGCHK_STAT_MISMATCH = s.dev.rf R.CFGCHK_STAT_MISMATCH) ∧
      (s.dev.cfgDirty = false → s.dev.cfgCommit = 2 → d.rf R.CFGCHK_REF_REF = d.rf R.CFGCHK_LAST_CRC ∧ d.rf R.CFGCHK_STAT_REFVALID = 1 ∧
        d.rf R.CFGCHK_STAT_BLKVALID = 1 ∧ d.rf R.CFGCHK_STAT_SUSP = 0 ∧ d.cfgCommit = 0) ∧
      (s.dev.cfgDirty = false → s.dev.cfgCommit ≠ 2 → s.dev.flag R.CFGCHK_STAT_REFVALID = true → s.dev.flag R.CFGCHK_STAT_SUSP = false →
        d.rf R.CFGCHK_LAST_CRC ≠ s.dev.rf R.CFGCHK_REF_REF →
        d.rf R.CFGCHK_STAT_MISMATCH = 1 ∧ d.rf R.CFGCHK_MMCOUNT_COUNT = satAdd 0xFFFFFFFF (s.dev.rf R.CFGCHK_MMCOUNT_COUNT) 1 ∧ d.cfgMism = true)))

/-- R166, R168, R171, R393: a write of FRC_SEL shows the selected entry (zeros where there is none). SET of a prepared entry that the rules allow puts it
into the table at once, or holds it until the segment that owns the object is idle; a refused one, and any on a standby, sets REFUSED with WHY and changes no entry;
REMOVE takes the entry out likewise. FORCE_COMMIT carries out the oldest held operation whose segment is idle, and writes no memory but that segment's force
mirror, its first WRITABLE tile. (No partner copies here.) -/
def Obligations.Forces : Prop :=
  ∀ (s : State) (w : Word), s.dev.copies = false →
    let idx := s.dev.frcSel
    let id := s.dev.rf R.SYS_FRC_ID_SIGID
    let kind := s.dev.rf R.SYS_FRC_ID_TYPE + 4 * s.dev.rf R.SYS_FRC_ID_WCLASS
    let ent : ForceEnt := { kind := kind, id := id, val := BitVec.ofNat 32 (s.dev.rf R.SYS_FRC_VAL_VAL) }
    Does (.frcSelWrite w) s (fun d => d.frcSel = bitsOf w.toNat 0 10 ∧ { d with regs := s.dev.regs } = s.dev ∧
      (∀ e, Tbl.get? s.dev.force d.frcSel = some e → d.rf R.SYS_FRC_VAL_VAL = e.val.toNat ∧ d.rf R.SYS_FRC_ID_TYPE = e.kind % 4) ∧
      (Tbl.get? s.dev.force d.frcSel = none → d.rf R.SYS_FRC_VAL_VAL = 0 ∧ d.rf R.SYS_FRC_ID_SIGID = 0)) ∧
    (s.dev.dxStandby = false → s.dev.frcWhy idx id kind = 0 → Does .frcSet s (fun d =>
      (s.dev.objOwner id = none → d.force = Tbl.put idx ent s.dev.force ∧ { d with force := s.dev.force, forceOld := s.dev.forceOld } = s.dev) ∧
      (∀ u, s.dev.objOwner id = some u → d.forcePend = s.dev.forcePend ++ [{ idx := idx, ent := some ent, unit := u }] ∧
        { d with forcePend := s.dev.forcePend } = s.dev))) ∧
    (s.dev.dxStandby = false → s.dev.frcWhy idx id kind ≠ 0 → Does .frcSet s (fun d => d.rf R.SYS_FRC_CTL_REFUSED = 1 ∧
      d.rf R.SYS_FRC_CTL_WHY = s.dev.frcWhy idx id kind ∧ { d with regs := s.dev.regs } = s.dev)) ∧
    (s.dev.dxStandby = true → Does .frcSet s (fun d => d.rf R.SYS_FRC_CTL_REFUSED = 1 ∧ { d with regs := s.dev.regs } = s.dev)) ∧
    (∀ e, Tbl.get? s.dev.force idx = some e → Does .frcRemove s (fun d =>
      (s.dev.objOwner e.id = none → Tbl.get? d.force idx = none ∧ (∀ k, k ≠ idx → Tbl.get? d.force k = Tbl.get? s.dev.force k)) ∧
      (∀ u, s.dev.objOwner e.id = some u → d.forcePend = s.dev.forcePend ++ [{ idx := idx, ent := none, unit := u }] ∧ d.force = s.dev.force))) ∧
    (∀ a p b, s.dev.forcePend = a ++ p :: b → (∀ x ∈ a, (s.dev.un x.unit).run ≠ 0) → (s.dev.un p.unit).run = 0 →
      DoesMem .forceCommit s (fun d m => d.forcePend = a ++ b ∧
        Tbl.get? d.force p.idx = p.ent ∧ (∀ k, k ≠ p.idx → Tbl.get? d.force k = Tbl.get? s.dev.force k) ∧
        { d with force := s.dev.force, forceOld := s.dev.forceOld, forcePend := s.dev.forcePend, regs := s.dev.regs } = s.dev ∧
        (∀ t, (s.dev.un p.unit).tiles.find? (fun t => decide (t.cls = 2)) = some t →
          ∀ x, x < tileAddr t.ptile ∨ tileAddr t.ptile + 1024 ≤ x → memGet m x = memGet s.mem x) ∧
        ((s.dev.un p.unit).tiles.find? (fun t => decide (t.cls = 2)) = none → m = s.mem))) ∧
    ((∀ x ∈ s.dev.forcePend, (s.dev.un x.unit).run ≠ 0) → DoesMem .forceCommit s (fun d m => d = s.dev ∧ m = s.mem))

/-- R160 to R162, R170: the commands of a partition, given to its lead segment. START_COLD and START_WARM of a partition that does not run, while
the Last runs, start it: RUN, STRICT, the scan count at zero, its segments' objects at their initial values or, warm, at what they retain. STOP ends
it, at once where it has no cyclic task; TEST_ON holds STRICT, TEST_OFF ends that. A command not allowed is only noted as refused; one to a unit
that leads no partition is dropped with WIGN. -/
def Obligations.PartitionCommands : Prop :=
  (∀ (s : State) (u : Nat) (c : Instr), c = .startCold u ∨ c = .startWarm u ∨ c = .logicStop u ∨ c = .testOn u ∨ c = .testOff u → u < s.dev.nUnits →
    (s.dev.un u).kind ≠ 2 ∨ s.dev.lead (s.dev.partOf u) ≠ u → Does c s (fun d => d.rf R.SYS_STAT_WIGN_ANY = 1 ∧ d.units = s.dev.units ∧
      Raises Ev.REG_WIGN 0 s.dev d)) ∧
  ∀ (s : State) (u : Nat), u < s.dev.nUnits → (s.dev.un u).kind = 2 → s.dev.lead (s.dev.partOf u) = u →
    let p := s.dev.partOf u
    let started (warm : Bool) (c : Instr) : Prop := Does c s (fun d =>
      (d.partSt p).st = 1 ∧ (d.partSt p).strict = true ∧ (d.partSt p).scans = 0 ∧ (d.partSt p).left = (s.dev.partCfg p).strictScans ∧
      (d.partSt p).lastCmd = 1 ∧ { d with units := s.dev.units } = s.dev ∧ (∀ v, v ∉ s.dev.segs p → v ≠ u → d.un v = s.dev.un v) ∧
      (∀ v ∈ s.dev.segs p, (d.un v).base.objs = startObjs (s.dev.partCfg p) v warm (s.dev.un v).base.objs ∧
        (d.un v).base.part.firstPend = true))
    let refused (c : Instr) : Prop := Does c s (fun d => (d.partSt p).lastCmd = 2 ∧ (d.partSt p).st = (s.dev.partSt p).st ∧
      (∀ v, v ≠ u → d.un v = s.dev.un v) ∧ { d with units := s.dev.units } = s.dev)
    ((s.dev.partSt p).st ≠ 1 → s.dev.running = true → started false (.startCold u) ∧ started true (.startWarm u)) ∧
    ((s.dev.partSt p).st = 1 ∨ s.dev.running = false → refused (.startCold u) ∧ refused (.startWarm u)) ∧
    ((s.dev.partSt p).st = 1 → Does (.logicStop u) s (fun d => (d.partSt p).lastCmd = 1 ∧
      (if s.dev.partCad p = none then (d.partSt p).st = 0 else (d.partSt p).st = 1 ∧ (d.partSt p).stopPend = true))) ∧
    ((s.dev.partSt p).st = 1 → Does (.testOn u) s (fun d => (d.partSt p).strict = true ∧ (d.partSt p).test = true ∧ (d.partSt p).lastCmd = 1 ∧
      (∀ v, v ≠ u → d.un v = s.dev.un v))) ∧
    ((s.dev.partSt p).st = 1 → (s.dev.partSt p).test = true → Does (.testOff u) s (fun d => (d.partSt p).strict = true ∧
      (d.partSt p).test = false ∧ (d.partSt p).left = (s.dev.partCfg p).strictScans ∧ (d.partSt p).lastCmd = 1 ∧ (∀ v, v ≠ u → d.un v = s.dev.un v))) ∧
    ((s.dev.partSt p).st ≠ 1 → refused (.logicStop u) ∧ refused (.testOn u) ∧ refused (.testOff u))

/-! ### Logic instructions (R147 to R158) -/

/-- R147, R148, R151: the program's word where the scan stands is the instruction, by OP, AREA and INDEX. LD to XORN take the bit operand x into CR, as it is or inverted, or combine it with CR; ACC, the stack and every object stay. The operand
is the segment's own stored bit where it is one, or SB 0, which is always 1.

R151: ST and STN write CR or its complement, S and R write 1 or 0 when CR is 1 and nothing when it is 0, into a bit variable or into one bit of a
word variable that the segment owns. Every other object, CR, ACC and the stack stay. -/
def Obligations.LogicBits : Prop :=
  (∀ (s : State) (u area i : Nat) (sc : ScanSt), s.dev.scanGoes u = some sc → bitOperandOk area i = true →
    let x := rdBit (s.dev.logicEnv u) (s.dev.logicRun u sc) area i
    let reads (op : Nat) (c : Instr) (cr : Bool) : Prop := s.dev.wordIs u sc.pc op (some area) i = true → Scans c s u sc (sc.pc + 1) (fun y o =>
      y.cr = cr ∧ y.acc = sc.acc ∧ y.stack = sc.stack ∧ y.arith = sc.arith ∧ o = (s.dev.un u).work.objs)
    reads 0x01 (.lgLd u area i) x ∧ reads 0x02 (.lgLdn u area i) (!x) ∧ reads 0x03 (.lgAnd u area i) (sc.cr && x) ∧ reads 0x04 (.lgAndn u area i) (sc.cr && !x) ∧
    reads 0x05 (.lgOr u area i) (sc.cr || x) ∧ reads 0x06 (.lgOrn u area i) (sc.cr || !x) ∧ reads 0x07 (.lgXor u area i) (sc.cr != x) ∧
    reads 0x08 (.lgXorn u area i) (sc.cr == x) ∧
    (area = 5 → i = 0 → x = true) ∧
    (∀ o, area = 0 → findObj (s.dev.partCfg (s.dev.partOf u)) 0 i = some o → o.owner = u → o.mapTo ≠ 1 → o.dirSig = none →
      x = Tbl.getD false (s.dev.un u).work.objs.bits i)) ∧
  (∀ (s : State) (u area i : Nat) (sc : ScanSt), s.dev.scanGoes u = some sc → bitWritable (s.dev.logicEnv u) area i = true →
    let old := (s.dev.un u).work.objs
    let writes (op : Nat) (c : Instr) (v : Option Bool) : Prop := s.dev.wordIs u sc.pc op (some area) i = true → Scans c s u sc (sc.pc + 1) (fun y o =>
      y.cr = sc.cr ∧ y.acc = sc.acc ∧ y.stack = sc.stack ∧ o.timers = old.timers ∧ o.ctrs = old.ctrs ∧ o.edges = old.edges ∧
      (v = none → o = old) ∧
      (∀ b, v = some b → area = 0 → o.words = old.words ∧ Tbl.getD false o.bits i = b ∧
        ∀ j, j ≠ i → Tbl.getD false o.bits j = Tbl.getD false old.bits j) ∧
      (∀ b, v = some b → area = 1 → o.bits = old.bits ∧ (∀ j, j ≠ i / 32 → Tbl.getD 0 o.words j = Tbl.getD 0 old.words j) ∧
        ∀ k, k < 32 → (Tbl.getD 0 o.words (i / 32)).getLsbD k = if k = i % 32 then b else (Tbl.getD 0 old.words (i / 32)).getLsbD k))
    writes 0x09 (.lgSt u area i) (some sc.cr) ∧ writes 0x0A (.lgStn u area i) (some (!sc.cr)) ∧
    writes 0x0B (.lgS u area i) (if sc.cr = true then some true else none) ∧ writes 0x0C (.lgR u area i) (if sc.cr = true then some false else none) ∧
    area < 2)

/-- R147, R148, R151: the program's word where the scan stands is the instruction. The pushes put (CR, operator) on the stack and load x; the closing bracket pops (c, op) and gives c op CR. NOT inverts CR, NOP does nothing,
END ends the scan. No object changes.

R151, R152: a jump whose target lies ahead of it in the segment's program continues there, JMPC only with CR 1 and JMPCN only with CR 0, else at the next
instruction, and changes no register of the scan and no object. A target that a loaded program cannot hold ends in the fault pastProgram. Where no scan is open, or what the segment reads is not
there yet, an instruction changes nothing. -/
def Obligations.LogicStackAndJumps : Prop :=
  (∀ (s : State) (u area i : Nat) (sc : ScanSt), s.dev.scanGoes u = some sc →
    let x := rdBit (s.dev.logicEnv u) (s.dev.logicRun u sc) area i
    let none_ (op : Nat) : Prop := s.dev.wordIs u sc.pc op (some 0) 0 = true
    let pushes (op : Nat) (c : Instr) (b : PushOp) : Prop := s.dev.wordIs u sc.pc op (some area) i = true → Scans c s u sc (sc.pc + 1) (fun y o =>
      y.cr = x ∧ y.acc = sc.acc ∧ y.stack = (sc.cr, b) :: sc.stack ∧ o = (s.dev.un u).work.objs)
    let runs (op : Nat) (c : Instr) (cr : Bool) (stack : List (Bool × PushOp)) : Prop := none_ op → Scans c s u sc (sc.pc + 1) (fun y o =>
      y.cr = cr ∧ y.acc = sc.acc ∧ y.stack = stack ∧ o = (s.dev.un u).work.objs)
    let apply (op : PushOp) (c : Bool) : Bool := match op with
      | .and => c && sc.cr | .andn => c && !sc.cr | .or => c || sc.cr | .orn => c || !sc.cr | .xor => c != sc.cr
    (bitOperandOk area i = true → sc.stack.length < 16 →
      pushes 0x10 (.lgAndPush u area i) .and ∧ pushes 0x11 (.lgAndnPush u area i) .andn ∧ pushes 0x12 (.lgOrPush u area i) .or ∧
      pushes 0x13 (.lgOrnPush u area i) .orn ∧ pushes 0x14 (.lgXorPush u area i) .xor) ∧
    (∀ c op rest, sc.stack = (c, op) :: rest → runs 0x15 (.lgPop u) (apply op c) rest) ∧
    runs 0x0D (.lgNot u) (!sc.cr) sc.stack ∧ runs 0x00 (.lgNop u) sc.cr sc.stack ∧
    (none_ 0x3F → Scans (.lgEnd u) s u sc (sc.pc + 1) (fun y o => y.ended = true ∧ y.cr = sc.cr ∧ y.acc = sc.acc ∧ o = (s.dev.un u).work.objs))) ∧
  (∀ (s : State) (u t : Nat) (sc : ScanSt), s.dev.scanGoes u = some sc →
    let ahead := sc.pc < t ∧ t < (s.dev.progOf u).length
    let at_ (op : Nat) : Prop := s.dev.wordIs u sc.pc op none t = true
    let jumps (op : Nat) (c : Instr) (taken : Bool) : Prop := at_ op → Scans c s u sc (if taken = true then t else sc.pc + 1) (fun y o =>
      y.cr = sc.cr ∧ y.acc = sc.acc ∧ y.stack = sc.stack ∧ y.ended = (sc.ended || (!taken && decide ((s.dev.progOf u).length ≤ sc.pc + 1))) ∧
      o = (s.dev.un u).work.objs)
    (ahead → jumps 0x3C (.lgJmp u t) true ∧ jumps 0x3D (.lgJmpc u t) sc.cr ∧ jumps 0x3E (.lgJmpcn u t) (!sc.cr)) ∧
    (¬ ahead → (at_ 0x3C → exec (.lgJmp u t) s = .fault .pastProgram) ∧ (at_ 0x3D → exec (.lgJmpc u t) s = .fault .pastProgram) ∧
      (at_ 0x3E → exec (.lgJmpcn u t) s = .fault .pastProgram))) ∧
  (∀ (s : State) (u t : Nat), s.dev.scanGoes u = none →
    exec (.lgNop u) s = .next s ∧ exec (.lgEnd u) s = .next s ∧ exec (.lgNot u) s = .next s ∧ exec (.lgPop u) s = .next s ∧
    exec (.lgJmp u t) s = .next s ∧ exec (.lgJmpc u t) s = .next s ∧ exec (.lgJmpcn u t) s = .next s)

/-- R156 to R158: TON, TOF and TP with IN = CR, R_TRIG and F_TRIG, CTU, CTD, RESC and LDC on an object that the segment owns: what the object then holds
and what CR becomes, in every case of the rules' tables. A force on the object's BOOL signal takes Q's place in CR (and m's in an edge detector) and leaves what is
stored as it would be (R167; log entry 99). Every other object, ACC and the stack stay. -/
def Obligations.LogicObjectInstructions : Prop :=
  ∀ (s : State) (u n : Nat) (sc : ScanSt) (o : ObjCfg), s.dev.scanGoes u = some sc → n < 256 →
    let old := (s.dev.un u).work.objs
    let owns (k : Nat) : Prop := findObj (s.dev.partCfg (s.dev.partOf u)) k n = some o ∧ o.owner = u ∧ o.mapTo ≠ 1
    let frc (k : Nat) (q : Bool) : Bool := match objForce (s.dev.logicEnv u) k n with
      | some (ty, w) => if ty = 1 then decide (w ≠ 0) else q
      | none => q
    let runs (op : Nat) (c : Instr) (P : Bool → LogicObjs → Prop) : Prop := s.dev.wordIs u sc.pc op none n = true → Scans c s u sc (sc.pc + 1) (fun y x =>
      y.acc = sc.acc ∧ y.stack = sc.stack ∧ x.bits = old.bits ∧ x.words = old.words ∧ P y.cr x)
    let t := Tbl.getD o.timer old.timers n
    let timer (op : Nat) (c : Instr) (P : Bool → TimerSt → Prop) : Prop := runs op c (fun cr x => x.ctrs = old.ctrs ∧ x.edges = old.edges ∧
      (∀ j z, j ≠ n → Tbl.getD z x.timers j = Tbl.getD z old.timers j) ∧
      P (Tbl.getD {} x.timers n).q (Tbl.getD {} x.timers n) ∧ (Tbl.getD {} x.timers n).inLast = sc.cr ∧ (Tbl.getD {} x.timers n).pt = t.pt ∧
      cr = frc 2 (Tbl.getD {} x.timers n).q)
    let c := Tbl.getD o.ctr old.ctrs n
    let ctr (op : Nat) (k : Instr) (P : Bool → CtrSt → Prop) : Prop := runs op k (fun cr x => x.timers = old.timers ∧ x.edges = old.edges ∧
      (∀ j z, j ≠ n → Tbl.getD z x.ctrs j = Tbl.getD z old.ctrs j) ∧ P cr (Tbl.getD o.ctr x.ctrs n) ∧ (Tbl.getD o.ctr x.ctrs n).pv = c.pv)
    let e := Tbl.getD {} old.edges n
    let m := match objForce (s.dev.logicEnv u) 4 n with | some f => decide (f.2 ≠ 0) | none => if e.primed = true then e.m else sc.cr
    let edge (op : Nat) (k : Instr) (cr' : Bool) : Prop := runs op k (fun cr x => x.timers = old.timers ∧ x.ctrs = old.ctrs ∧ cr = cr' ∧
      Tbl.getD {} x.edges n = { m := sc.cr, primed := true } ∧ ∀ j z, j ≠ n → Tbl.getD z x.edges j = Tbl.getD z old.edges j)
    let rise : Prop := sc.cr = true ∧ c.primed = true ∧ c.mem = false
    (owns 2 →
      timer 0x1A (.lgTon u n) (fun cr y =>
        (sc.cr = false → y.et = 0 ∧ y.running = false ∧ cr = false) ∧
        (sc.cr = true → t.inLast = false → y.et = 0 ∧ y.running = true ∧ cr = decide (t.pt = 0)) ∧
        (sc.cr = true → t.inLast = true → y.et = t.et ∧ y.running = t.running ∧ cr = decide (t.pt ≤ t.et))) ∧
      timer 0x1B (.lgTof u n) (fun cr y =>
        (sc.cr = true → y.et = 0 ∧ y.running = false ∧ cr = true) ∧
        (sc.cr = false → t.inLast = true → y.et = 0 ∧ y.running = true ∧ cr = decide (0 < t.pt)) ∧
        (sc.cr = false → t.inLast = false → y.et = t.et ∧ y.running = t.running ∧ cr = (t.running && decide (t.et < t.pt)))) ∧
      timer 0x1C (.lgTp u n) (fun cr y =>
        (sc.cr = true → t.inLast = false → t.running = false → y.et = 0 ∧ y.running = true ∧ cr = decide (0 < t.pt)) ∧
        (t.running = true → t.et < t.pt → y.et = t.et ∧ y.running = true ∧ cr = true) ∧
        (t.running = true → t.pt ≤ t.et → cr = false ∧ (sc.cr = true → y.et = t.pt ∧ y.running = true) ∧
          (sc.cr = false → y.running = false)) ∧
        (t.running = false → sc.cr = false ∨ t.inLast = true → y.et = t.et ∧ y.running = false ∧ cr = false))) ∧
    (owns 4 → edge 0x18 (.lgRTrig u n) (sc.cr && !m) ∧ edge 0x19 (.lgFTrig u n) (!sc.cr && m)) ∧
    (owns 3 →
      ctr 0x1D (.lgCtu u n) (fun cr y => y.primed = true ∧ y.mem = sc.cr ∧ cr = frc 3 (decide (sW c.pv ≤ sW y.cv)) ∧ (¬ rise → y.cv = c.cv) ∧
        (rise → sW y.cv = min (sW c.cv + 1) (2 ^ 31 - 1))) ∧
      ctr 0x1E (.lgCtd u n) (fun cr y => y.primed = true ∧ y.mem = sc.cr ∧ cr = frc 3 (decide (sW y.cv ≤ 0)) ∧ (¬ rise → y.cv = c.cv) ∧
        (rise → sW y.cv = max (sW c.cv - 1) (-2 ^ 31))) ∧
      ctr 0x1F (.lgResc u n) (fun cr y => cr = sc.cr ∧ y = if sc.cr = true then { c with cv := 0 } else c) ∧
      ctr 0x20 (.lgLdc u n) (fun cr y => cr = sc.cr ∧ y = if sc.cr = true then { c with cv := c.pv } else c))

/-- R150, R151, R153: LDW takes the word operand w into ACC and STW stores ACC; ADD, SUB and MUL give the exact result held within −2^31 to 2^31 − 1, DIV the
quotient truncated toward zero with its stated results for a zero divisor, and only a saturation or a zero divisor sets ARITH and the unit's SAT; the bitwise
operations and the shifts change ACC alone; the comparisons change CR alone, signed. -/
def Obligations.LogicWords : Prop :=
  ∀ (s : State) (u area i : Nat) (sc : ScanSt), s.dev.scanGoes u = some sc →
    let w := rdWord (s.dev.logicEnv u) (s.dev.logicRun u sc) area i
    let a := sW sc.acc
    let old := (s.dev.un u).work.objs
    let sat (n : Int) : Int := max (-2 ^ 31) (min (2 ^ 31 - 1) n)
    let at_ (op area i : Nat) : Prop := s.dev.wordIs u sc.pc op (some area) i = true
    let arith (op : Nat) (c : Instr) (r : Int) (ov : Bool) : Prop := at_ op area i →
      Scans c s u sc (sc.pc + 1) (fun y o => sW y.acc = r ∧ y.arith = (sc.arith || ov) ∧ y.cr = sc.cr ∧ y.stack = sc.stack ∧ o = old) ∧
      Does c s (fun d => d.rf R.UNIT_STAT_SAT u = if ov = true then 1 else s.dev.rf R.UNIT_STAT_SAT u)
    let acc (op ar : Nat) (c : Instr) (v : Word) : Prop := at_ op ar i → Scans c s u sc (sc.pc + 1) (fun y o =>
      y.acc = v ∧ y.cr = sc.cr ∧ y.stack = sc.stack ∧ y.arith = sc.arith ∧ o = old)
    let cmp (op : Nat) (c : Instr) (b : Bool) : Prop := at_ op area i → Scans c s u sc (sc.pc + 1) (fun y o =>
      y.cr = b ∧ y.acc = sc.acc ∧ y.stack = sc.stack ∧ y.arith = sc.arith ∧ o = old)
    (wordOperandOk area i = true →
      arith 0x2A (.lgAdd u area i) (sat (a + sW w)) (decide (sat (a + sW w) ≠ a + sW w)) ∧
      arith 0x2B (.lgSub u area i) (sat (a - sW w)) (decide (sat (a - sW w) ≠ a - sW w)) ∧
      arith 0x2C (.lgMul u area i) (sat (a * sW w)) (decide (sat (a * sW w) ≠ a * sW w)) ∧
      arith 0x2D (.lgDiv u area i) (if sW w = 0 then (if 0 < a then 2 ^ 31 - 1 else if a < 0 then -2 ^ 31 else 0) else sat (Int.tdiv a (sW w)))
        (decide (sW w = 0 ∨ a = -2 ^ 31 ∧ sW w = -1)) ∧
      acc 0x28 area (.lgLdw u area i) w ∧ acc 0x2E area (.lgWand u area i) (sc.acc &&& w) ∧ acc 0x2F area (.lgWor u area i) (sc.acc ||| w) ∧ acc 0x30 area (.lgWxor u area i) (sc.acc ^^^ w) ∧
      cmp 0x31 (.lgGt u area i) (decide (sW w < a)) ∧ cmp 0x32 (.lgGe u area i) (decide (sW w ≤ a)) ∧ cmp 0x33 (.lgEq u area i) (decide (sc.acc = w)) ∧
      cmp 0x34 (.lgNe u area i) (decide (sc.acc ≠ w)) ∧ cmp 0x35 (.lgLe u area i) (decide (a ≤ sW w)) ∧ cmp 0x36 (.lgLt u area i) (decide (a < sW w))) ∧
    (wordWritable (s.dev.logicEnv u) area i = true → at_ 0x29 area i → Scans (.lgStw u area i) s u sc (sc.pc + 1) (fun y o =>
      y.cr = sc.cr ∧ y.acc = sc.acc ∧ o.bits = old.bits ∧ o.edges = old.edges ∧
      (area = 0 → Tbl.getD 0 o.words i = sc.acc ∧ o.timers = old.timers ∧ o.ctrs = old.ctrs ∧ ∀ j, j ≠ i → Tbl.getD 0 o.words j = Tbl.getD 0 old.words j) ∧
      (area = 3 → (Tbl.getD {} o.timers i).pt = sc.acc.toNat ∧ o.words = old.words ∧ o.ctrs = old.ctrs) ∧
      (area = 5 → (Tbl.getD {} o.ctrs i).pv = sc.acc ∧ o.words = old.words ∧ o.timers = old.timers))) ∧
    (i < 32 → acc 0x37 1 (.lgShl u i) (sc.acc <<< i) ∧ acc 0x38 1 (.lgShr u i) (sc.acc.sshiftRight i)) ∧
    (area = 1 → i < 2 ^ 22 → w = BitVec.ofNat 32 i) ∧ (area = 1 → 2 ^ 22 ≤ i → i < 2 ^ 23 → sW w = (i : Int) - 2 ^ 23)

/-! ### Requests to loops, axes and sequencers (R131 to R133, R177 to R189, R209 to R219) -/

/-- R131 to R133: a new request word of a loop, judged in its cycle. In a cycle without a device HOLD, and allowed by the rules, it is accepted: EDIT, SET and
MODE are taken, its SEQ is acknowledged, LASTREQ is 1; otherwise it is refused and acknowledged. A new MODE_SIG request is taken first, and the request word of
that cycle is then refused. In a cycle with a device HOLD the loop is held and a new request is refused and acknowledged. A request that is not new changes
nothing. LOOP_MODE, LOOP_EDIT and LOOP_SET are the fields of one request word. Leaving a device HOLD of cause INPUT needs valid inputs in every mode: the
model's choice (log entry 103). -/
def Obligations.LoopRequests : Prop :=
  ∀ (s : State) (u l : Nat) (sig : Bool) (k : Instr), k = .loopMode u l sig ∨ k = .loopEdit u l sig ∨ k = .loopSet u l sig → u < s.dev.nUnits → l < 64 →
    s.dev.inCycle u 1 l (s.dev.loopsOf u).length = true →
    let c := nth {} (s.dev.loopsOf u) l
    let e := s.dev.loopEnv s.mem u l c
    let x := Tbl.getD {} (s.dev.un u).work.loops l
    let hold := if e.ovr3 = true then 1 else x.pendHold
    let newSig : Prop := ∃ g, c.modeSig = some g ∧ (e.sig g).valid = true ∧ bitsOf (e.sig g).val.toNat 8 8 ≠ x.ackS
    let source (v : Word) : Prop := (sig = false ∧ v = e.req ∧ x.sigTaken = false ∧ ¬ newSig) ∨
      (sig = true ∧ ∃ g, c.modeSig = some g ∧ (e.sig g).valid = true ∧ v = (e.sig g).val)
    let ack (y : LoopSt) : Nat := if sig = true then y.ackS else y.ackW
    let does (P : LoopSt → Prop) : Prop := Does k s (fun d => (∀ v, v ≠ u → d.un v = s.dev.un v) ∧
      (∀ j, j ≠ l → Tbl.getD {} (d.un u).work.loops j = Tbl.getD {} (s.dev.un u).work.loops j) ∧ (d.un u).base = (s.dev.un u).base ∧
      (hold = 0 → { d with units := s.dev.units } = s.dev) ∧ P (Tbl.getD {} (d.un u).work.loops l))
    (∀ v, source v → let w := v.toNat
      let valid : Prop := bitsOf w 0 2 = 3 ∨ x.holdDev = true ∧ x.hcause = 2 → loopValid c e = true
      (hold = 0 →
        (x.heldNow = false → bitsOf w 8 8 ≠ ack x → (bitAt w 2 = true → bitsOf w 0 2 ≠ 3) → valid →
          (c.sched = false → bitsOf w 4 3 ≠ x.set → x.mode ≠ 3 ∧ bitsOf w 4 3 < c.sets) →
          does (fun y => y.mode = bitsOf w 0 2 ∧ y.edit = bitAt w 2 ∧ (c.sched = false → y.set = bitsOf w 4 3) ∧ (c.sched = true → y.set = x.set) ∧
            ack y = bitsOf w 8 8 ∧ y.lastReq = 1 ∧ y.reqSrc = b2n sig ∧ y.holdDev = false ∧ y.refused = x.refused)) ∧
        (bitsOf w 8 8 ≠ ack x → (bitAt w 2 = true ∧ bitsOf w 0 2 = 3) ∨ ¬ valid ∨
            (c.sched = false ∧ bitsOf w 4 3 ≠ x.set ∧ (x.mode = 3 ∨ c.sets ≤ bitsOf w 4 3)) ∨ x.heldNow = true →
          does (fun y => y.mode = x.mode ∧ y.edit = x.edit ∧ y.set = x.set ∧ y.holdDev = x.holdDev ∧ ack y = bitsOf w 8 8 ∧ y.lastReq = 2 ∧
            y.refused = satAdd 0xFF x.refused 1)) ∧
        (bitsOf w 8 8 = ack x → does (fun y => y = x))) ∧
      (hold ≠ 0 → does (fun y => y.mode = 2 ∧ y.holdDev = true ∧ y.hcause = hold ∧ y.pendHold = 0 ∧ y.holds = satAdd 0xFF x.holds 1 ∧
        (bitsOf w 8 8 ≠ ack x → ack y = bitsOf w 8 8 ∧ y.lastReq = 2 ∧ y.refused = satAdd 0xFF x.refused 1)))) ∧
    (sig = false → newSig → bitsOf e.req.toNat 8 8 ≠ x.ackW → does (fun y => y.ackW = bitsOf e.req.toNat 8 8 ∧ y.lastReq = 2 ∧ y.reqSrc = 0))

/-- R177 to R189, R195: a new command word of an axis, judged in its cycle after the faults, which the cycle judges once. In the states, with the parameters and within the
limits that the rules demand each of the 13 commands is accepted and has its result; otherwise, and in a cycle that a fault or a hold has taken, the command is
refused with the reason and the axis moves on as it was. Either way its SEQ is acknowledged, and nothing but that axis changes. A tile command of a cycle with a
new CMD_SIG command is refused with reason SOURCE. An axis that a drive fault or a short has put in FAULT has its chopper off (`axisCut`). -/
def Obligations.AxisCommands : Prop :=
  ∀ (s : State) (u a : Nat) (sig : Bool), u < s.dev.nUnits → a < 16 → s.dev.inCycle u 3 a (s.dev.axesOf u).length = true → (nth {} (s.dev.axesOf u) a).kind ≠ 0 →
    let c := nth {} (s.dev.axesOf u) a
    let x0 := Tbl.getD {} (s.dev.un u).work.axes a
    let e := s.dev.axisEnv s.mem u a c x0
    let x := axFaults c e x0
    let ack (y : AxisSt) : Nat := if sig = true then y.ackS else y.ackW
    let newSig : Prop := ∃ g, c.cmdSig = some g ∧ (e.sig g).valid = true ∧ bitsOf (e.sig g).val.toNat 8 8 ≠ x.ackS
    let source (v : Word) : Prop := (sig = false ∧ v = e.cmdW ∧ x.sigTaken = false ∧ ¬ newSig) ∨
      (sig = true ∧ ∃ g, c.cmdSig = some g ∧ (e.sig g).valid = true ∧ v = (e.sig g).val)
    let does (k : Instr) (P : AxisSt → Prop) : Prop := Does k s (fun d => (∀ v, v ≠ u → d.un v = s.dev.un v) ∧
      (∀ j, j ≠ a → Tbl.getD {} (d.un u).work.axes j = Tbl.getD {} (s.dev.un u).work.axes j) ∧ (d.un u).base = (s.dev.un u).base ∧
      (c.dest ≠ 3 ∨ (Tbl.getD {} (d.un u).work.axes a).st ≠ 7 → { d with units := s.dev.units } = s.dev) ∧
      P (Tbl.getD {} (d.un u).work.axes a))
    (∀ w, source w → bitsOf w.toNat 8 8 ≠ ack x →
      let r := if sig = true then parSig c e w else parTile c e w
      let judged (y : AxisSt) : Prop := ack y = bitsOf w.toNat 8 8 ∧ y.reqSrc = b2n sig
      let takes (code : Nat) (k : Instr) (ok : Prop) (P : AxisSt → Prop) : Prop := bitsOf w.toNat 0 4 = code →
        (x.heldNow = false → ok → does k (fun y => judged y ∧ y.lastReq = 1 ∧ y.why = 0 ∧ y.refused = x.refused ∧ P y)) ∧
        (¬ ok ∨ x.heldNow = true → does k (fun y => judged y ∧ y.lastReq = 2 ∧ y.why ≠ 0 ∧ y.refused = satAdd 0xFFFF x.refused 1 ∧ y.st = x.st ∧
          y.p = x.p ∧ y.v = x.v ∧ y.plan = x.plan ∧ y.vt = x.vt ∧ y.gear = x.gear ∧ y.homed = x.homed))
      let pos := 0 < r.v ∧ 0 < r.a ∧ 0 < r.j
      let move (t : Int) : Prop := x.st = 1 ∧ c.kind = 1 ∧ pos ∧ (c.slimLo ≠ c.slimHi → x.homed = true ∧ c.slimLo ≤ t ∧ t ≤ c.slimHi)
      let ratio := nth (0, 0) c.ratios (r.arg % 4)
      takes 1 (.axEnable u a sig) (x.st = 0) (fun y => y.st = 1 ∧ y.enOut = true ∧ y.v = 0 ∧ y.p = x.p) ∧
      takes 2 (.axDisable u a sig) (x.st = 1 ∨ x.st = 6 ∨ x.st = 7) (fun y => y.st = 0 ∧ y.enOut = false ∧ y.v = 0 ∧ y.p = x.p) ∧
      takes 3 (.axMoveAbs u a sig) (move r.p0) (fun y => y.st = 2 ∧ y.p = x.p ∧ y.plan.map MovePlan.k0 = some e.k ∧
        y.plan.map MovePlan.target = some (x.p + modDiff c x.p r.p0)) ∧
      takes 4 (.axMoveRel u a sig) (move (x.p + r.p0)) (fun y => y.st = 2 ∧ y.p = x.p ∧ y.plan.map MovePlan.k0 = some e.k ∧
        y.plan.map MovePlan.target = some (x.p + r.p0)) ∧
      takes 5 (.axVelocity u a sig) (c.kind = 1 ∧ (x.st = 1 ∨ x.st = 2 ∧ x.vt.isSome = true) ∧ pos)
        (fun y => y.st = 2 ∧ y.plan = none ∧ y.vt = some (r.p1, r.a, r.j) ∧ y.p = x.p ∧ y.v = x.v) ∧
      takes 6 (.axStop u a sig) ((x.st = 2 ∨ x.st = 3 ∨ x.st = 4 ∨ x.st = 5 ∨ x.st = 6) ∧ pos)
        (fun y => (x.st ≠ 6 → y.st = 5 ∧ y.plan = none ∧ y.gear = none ∧ y.vt = some (0, r.a, r.j) ∧ y.stopFault = if x.st = 5 then x.stopFault else 0) ∧
          (x.st = 6 → y.st = 1 ∧ y.v = 0) ∧
          (∀ m, x.st = 2 → x.plan = some m → y.p = pMod c.modulus (planNow m e.k).p ∧ y.v = (planNow m e.k).v ∧ y.a = (planNow m e.k).a) ∧
          (x.st = 3 ∨ x.st = 4 ∨ x.st = 5 ∨ x.plan = none → y.p = x.p ∧ (x.st ≠ 6 → y.v = x.v))) ∧
      takes 7 (.axGearIn u a sig) ((x.st = 1 ∨ x.st = 3 ∧ bitAt r.arg 3 = true) ∧ ratio.2 ≠ 0 ∧ (bitAt r.arg 3 = false → masterDelta e x.mSeen = 0))
        (fun y => y.st = 3 ∧ y.ratioSet = r.arg % 4 ∧ y.gear.map GearSt.num = some ratio.1 ∧ y.gear.map GearSt.den = some ratio.2) ∧
      takes 8 (.axGearOut u a sig) (x.st = 3 ∧ pos) (fun y => y.st = 5 ∧ y.gear = none ∧ y.vt = some (0, r.a, r.j) ∧ y.p = x.p ∧
        y.v = (x.gear.map GearSt.q).getD 0) ∧
      takes 9 (.axOffset u a sig) (x.st = 3 ∧ x.offset = none ∧ 0 < orDef r.a c.aDef ∧ 0 < orDef r.j c.jDef ∧ 0 < c.vAdj)
        (fun y => y.st = 3 ∧ y.offset.map MovePlan.target = some r.p0 ∧ y.gear = x.gear) ∧
      takes 10 (.axHome u a sig) (x.st = 1 ∧ c.kind = 1 ∧ pos) (fun y => (c.homing ≠ 0 → y.st = 4 ∧ y.homed = false ∧ y.homStart = x.p ∧ y.p = x.p) ∧
        (c.homing = 0 → y.homed = true ∧ y.p = pMod c.modulus c.homePos ∧ y.posref = true)) ∧
      takes 11 (.axSetPos u a sig) (x.st = 0 ∨ x.st = 1) (fun y => y.st = x.st ∧ y.p = pMod c.modulus r.p0 ∧ y.homed = true ∧ y.posref = true) ∧
      takes 12 (.axResetFault u a sig) ((x.st = 6 ∨ x.st = 7) ∧ axPersists c e x = false) (fun y => y.st = 1 ∧ y.v = 0 ∧ y.enOut = true ∧ y.resetOk = true) ∧
      takes 13 (.axVmSpeed u a sig) (c.kind = 2 ∧ x.st ≠ 6 ∧ x.st ≠ 7 ∧ x.ramp = none ∧ e.k < r.kEff ∧ pos)
        (fun y => y.ramp.map VirtRamp.kEff = some r.kEff ∧ y.ramp.map VirtRamp.vt = some r.p1 ∧ y.p = x.p)) ∧
    (sig = false → newSig → x.heldNow = false → bitsOf e.cmdW.toNat 8 8 ≠ x.ackW → ∀ k, (k, bitsOf e.cmdW.toNat 0 4) ∈
        [(Instr.axEnable u a sig, 1), (.axDisable u a sig, 2), (.axMoveAbs u a sig, 3), (.axMoveRel u a sig, 4), (.axVelocity u a sig, 5), (.axStop u a sig, 6),
         (.axGearIn u a sig, 7), (.axGearOut u a sig, 8), (.axOffset u a sig, 9), (.axHome u a sig, 10), (.axSetPos u a sig, 11), (.axResetFault u a sig, 12),
         (.axVmSpeed u a sig, 13)] →
      does k (fun y => y.ackW = bitsOf e.cmdW.toNat 8 8 ∧ y.lastReq = 2 ∧ y.why = whySOURCE ∧ y.reqSrc = 0))

/-- R209, R211, R215, R217, R218, R219, R468: a new command word of a sequencer, judged in its cycle after a failed fetch has aborted its recipe. START enters
START_STEP in this cycle, or waits for its cycle in START; HOLD keeps the elapsed cycles, RESUME goes on from them, or from an operator step to the step that
waits; ABORT of a waiting start returns to IDLE, any other goes to the abort step's handler, or ends ABORTED where there is none or the handler runs already;
RESET returns to IDLE. Out of its states a command is refused, and so is a tile command in a cycle with a new CMD_SIG command. The end of a fetch of an idle unit
leaves the current step, the abort step and every successor in the five slots; a record that cannot be read is noted for the next evaluation. An accepted
image goes to the flash store. -/
def Obligations.SequencerCommands : Prop :=
  ∀ (s : State) (u i : Nat) (sig : Bool), u < s.dev.nUnits → i < 4 →
    let e := s.dev.seqEnv s.mem u i
    let x0 := Tbl.getD {} (s.dev.un u).work.seqs i
    let c := nth {} (s.dev.seqsOf u) i
    let x := (sqFaults i c e x0).st
    let ack (y : SeqSt) : Nat := if sig = true then y.ackS else y.ackW
    let newSig : Prop := ∃ g, c.cmdSig = some g ∧ (e.sig g).valid = true ∧ bitsOf (e.sig g).val.toNat 8 8 ≠ x.ackS
    let source (v : Word) : Prop := (sig = false ∧ v = e.cmdW ∧ x.sigTaken = false ∧ ¬ newSig) ∨
      (sig = true ∧ ∃ g, c.cmdSig = some g ∧ (e.sig g).valid = true ∧ v = (e.sig g).val)
    let first := if sig = true then 0 else e.startStep
    let at_ := if sig = true then 0 else e.kStart
    let does (k : Instr) (P : SeqSt → Prop) : Prop := Does k s (fun d => (∀ v, v ≠ u → d.un v = s.dev.un v) ∧
      (∀ j, j ≠ i → Tbl.getD {} (d.un u).work.seqs j = Tbl.getD {} (s.dev.un u).work.seqs j) ∧ (d.un u).base = (s.dev.un u).base ∧
      P (Tbl.getD {} (d.un u).work.seqs i))
    let takes (w code : Nat) (k : Instr) (ok : Prop) (P : SeqSt → Prop) : Prop := bitsOf w 0 4 = code →
      (ok → does k (fun y => ack y = bitsOf w 8 8 ∧ y.lastReq = 1 ∧ y.reqSrc = b2n sig ∧ y.refused = x.refused ∧ P y)) ∧
      (¬ ok → does k (fun y => ack y = bitsOf w 8 8 ∧ y.lastReq = 2 ∧ y.reqSrc = b2n sig ∧ y.why ≠ 0 ∧ y.refused = satAdd 0xFFFF x.refused 1 ∧
        y.st = x.st ∧ y.cur = x.cur ∧ y.ramps = x.ramps))
    let abort := e.recipe.bind Recipe.abortStep
    (s.dev.inCycle u 4 i (s.dev.seqsOf u).length = true →
      (∀ v, source v → bitsOf v.toNat 8 8 ≠ ack x → let w := v.toNat
        takes w 1 (.sqStart u i sig) ((x.st = 0 ∨ x.st = 6 ∨ x.st = 7) ∧ s.dev.seqLoaded u i = true ∧
            (∃ q, e.recipe = some q ∧ first < q.steps.length) ∧ (at_ = 0 ∨ e.k < at_) ∧ e.shed = false)
          (fun y => (at_ = 0 → y.st = 3 ∧ y.cur = first ∧ y.ke = e.k) ∧ (at_ ≠ 0 → y.st = 2 ∧ y.kStart = at_ ∧ y.startStep = first) ∧
            some first ∈ y.slots ∧ y.fetchPend = true ∧ y.handler = false) ∧
        takes w 2 (.sqHold u i sig) (x.st = 3) (fun y => y.st = 4 ∧ y.hkind = 1 ∧ y.ih = e.k - x.ke ∧ y.cur = x.cur ∧ y.ramps = x.ramps) ∧
        takes w 3 (.sqResume u i sig) (x.st = 4) (fun y =>
          (x.hkind ≠ 2 → y.st = (if x.handler = true then 5 else 3) ∧ y.hkind = 0 ∧ y.ke = e.k - x.ih ∧ y.cur = x.cur ∧ y.ramps = x.ramps) ∧
          (x.hkind = 2 → some x.pend ∈ x.slots → (stepOf e.recipe x.pend).isSome = true → y.cur = x.pend ∧ y.ke = e.k ∧ y.hkind = 0) ∧
          (x.hkind = 2 → some x.pend ∉ x.slots → y.cur = x.cur ∧ y.flate = true ∧ y.wait.map PendStep.target = some x.pend)) ∧
        takes w 4 (.sqAbort u i sig) (x.st = 2 ∨ x.st = 3 ∨ x.st = 4 ∨ x.st = 5) (fun y => (x.st = 2 → y.st = 0 ∧ y.fetchPend = false) ∧
          (x.st ≠ 2 → abort = none ∨ x.handler = true → y.st = 7 ∧ y.cause = 1 ∧ y.cur = 0x7FF) ∧
          (∀ b, x.st ≠ 2 → abort = some b → x.handler = false → (stepOf e.recipe b).isSome = true → y.st = 5 ∧ y.cause = 1 ∧ y.handler = true ∧ y.cur = b)) ∧
        takes w 5 (.sqReset u i sig) (x.st = 6 ∨ x.st = 7) (fun y => y.st = 0)) ∧
      (sig = false → newSig → bitsOf e.cmdW.toNat 8 8 ≠ x.ackW → ∀ k, (k, bitsOf e.cmdW.toNat 0 4) ∈
          [(Instr.sqStart u i sig, 1), (.sqHold u i sig, 2), (.sqResume u i sig, 3), (.sqAbort u i sig, 4), (.sqReset u i sig, 5)] →
        does k (fun y => y.ackW = bitsOf e.cmdW.toNat 8 8 ∧ y.lastReq = 2 ∧ y.why = sqWhySOURCE ∧ y.reqSrc = 0))) ∧
    (∀ (n : FetchEnd) q, n.seq = i → (s.dev.un u).run = 0 → (Tbl.getD {} (s.dev.un u).base.seqs i).fetchPend = true →
      Tbl.get? s.dev.recipeParsed (s.dev.seqNo u i) = some q →
      let b := Tbl.getD {} (s.dev.un u).base.seqs i
      DoesMem (.stepFetchDone u n) s (fun d m => let y := Tbl.getD {} (d.un u).base.seqs i
        y.fetchPend = false ∧ y.fetchBad = n.bad ∧ y.cur = b.cur ∧ y.st = b.st ∧ y.ramps = b.ramps ∧
        (∀ j, j ≠ i → Tbl.getD {} (d.un u).base.seqs j = Tbl.getD {} (s.dev.un u).base.seqs j) ∧
        (∀ v, v ≠ u → d.un v = s.dev.un v) ∧ { d with units := s.dev.units, regs := s.dev.regs } = s.dev ∧
        (n.bad = true → y.slots = b.slots ∧ m = s.mem ∧ d.regs = s.dev.regs) ∧
        (n.bad = false → b.slots.length = 5 → ∀ p, q.steps[b.cur]? = some p → (successors q.steps.length b.cur p).length ≤ 3 →
          (some b.cur ∈ b.slots → some b.cur ∈ y.slots) ∧ (∀ ab, q.abortStep = some ab → some ab ∈ b.slots → some ab ∈ y.slots) ∧
          ∀ z ∈ successors q.steps.length b.cur p, some z ∈ y.slots) ∧
        (∀ a, (∀ t ∈ (s.dev.un u).tiles, 3 + 5 * i ≤ t.lidx → t.lidx ≤ 7 + 5 * i → a < tileAddr t.ptile ∨ tileAddr t.ptile + 1024 ≤ a) →
          memGet m a = memGet s.mem a))) ∧
    (∀ n b, n < 128 → Tbl.get? s.dev.recipes n = some b → Does (.recipeStoreWrite n) s (fun d => Tbl.get? d.recipeStore n = some b ∧
      (∀ k, k ≠ n → Tbl.get? d.recipeStore k = Tbl.get? s.dev.recipeStore k) ∧ { d with recipeStore := s.dev.recipeStore } = s.dev))

/-! ### Converters (R222 to R246) -/

/-- R223, R224, R226, R230, R233, R236, R229: the environment's measurement of the oldest closed window, where no average of several windows, no stand-in and no
pair take part, is delivered as LAST: the calibrated result of (Q and the residues) x 128 / n_ticks, with VALID exactly when no settling window is left and the
end of the invalidity is known; the word waits for the rim. A FREE window whose WLEN x 40 ns are over closes, the next one follows it back to back, WCNT counts
and the settling count goes down; before that no window closes and nothing happens. The word's arrival puts LAST and its side word into the rim input register,
and into every unit that waits for it, with NEW when the window closed since the unit's last boundary.

R228: a MAINS edge after a period from 15.0 to 22.5 ms that differs from the one before by less than 1 % locks, PERIOD shows it in every bank, and the MAINS
channels start their windows at the edge of the lock; an edge outside the range, or none within 25 ms, ends the lock with MLOST and MAINS_LOST. The residues are
rounded as log entry 83 says. -/
def Obligations.ConverterWindows : Prop :=
  (∀ (s : State) (k n : Nat) (m : AdcMeas), k < s.dev.nBanks → n < 16 → s.dev.chOn k n = true →
    let c := s.dev.adcCh k n
    let others (d : Dev) : Prop := (∀ j, j ≠ k → d.bank j = s.dev.bank j) ∧ ∀ j, j ≠ 16 * k + n → Tbl.get? d.rimIn j = Tbl.get? s.dev.rimIn j
    let len := s.dev.rf R.ADC_CHn_WLEN_WLEN k n * 20
    (∀ w rest, c.shut = w :: rest → w.n = 1 → w.conv = n → w.measured = true → s.dev.pairOf k n = none →
      let valid := decide (w.settle = 0) && !w.endless
      (valid = true → w.skip = false) → Does (.adcWindowClose k n m) s (fun d => others d ∧
        toS 24 (bitsOf (d.rf R.ADC_CHn_LAST_WORD k n) 8 24) =
          s.dev.calibrated k n w.range (adcRaw m.q m.rho0 m.rho1 (s.dev.modTicks k) (w.t1 - w.t0)) ∧
        bitAt (d.rf R.ADC_CHn_LAST_WORD k n) 7 = valid ∧ d.rf R.ADC_CHn_STAT_VALID k n = b2n valid ∧
        bitAt (d.rf R.ADC_CHn_LAST_WORD k n) 6 = m.ovr ∧ (m.ovr = true → d.rf R.ADC_CHn_STAT_OVR k n = 1 ∧ d.rf R.ADC_STAT_OVR k = 1) ∧
        d.rf R.ADC_CHn_STAT_SETTLE k n = min (if w.endless = true then 15 else w.settle) 15 ∧
        (d.adcCh k n).shut = rest ∧ (d.adcCh k n).waits = true ∧ (d.adcCh k n).shutAt = w.t1 ∧ (d.adcCh k n).side = w.range + w.cnt % 2 ^ 24 * 256)) ∧
    (∀ t0, c.shut = [] → s.dev.rf R.ADC_CHn_CTL_MODE k n = 1 → c.opened = some t0 →
      (t0 + len ≤ s.dev.time.cnt → (s.dev.bank k).roll = none → (s.dev.bank k).pass = none → s.dev.pairOf k n = none → c.pend = false →
        Does (.adcWindowClose k n m) s (fun d => others d ∧ (d.adcCh k n).opened = some (t0 + len) ∧ (d.adcCh k n).settle = c.settle - 1 ∧
          d.rf R.ADC_CHn_WCNT_COUNT k n = (s.dev.rf R.ADC_CHn_WCNT_COUNT k n + 1) % 2 ^ 32 ∧ (d.adcCh k n).shut = [] ∧
          (d.adcCh k n).waits = true ∧ (d.adcCh k n).shutAt = t0 + len)) ∧
      (s.dev.time.cnt < t0 + len → Does (.adcWindowClose k n m) s (fun d => d = s.dev))) ∧
    (c.waits = true → Does (.samplePresent k n) s (fun d => others d ∧
      Tbl.get? d.rimIn (16 * k + n) = some (s.dev.rf R.ADC_CHn_LAST k n, c.side) ∧ (d.adcCh k n).waits = false ∧
      ∀ u, (16 * k + n ∉ (s.dev.un u).smpWait → d.un u = s.dev.un u) ∧
        (16 * k + n ∈ (s.dev.un u).smpWait → (d.un u).smpWait = (s.dev.un u).smpWait.filter (· ≠ 16 * k + n) ∧
          Tbl.get? (d.un u).smp (16 * k + n) = some (s.dev.rf R.ADC_CHn_LAST k n,
            setBits c.side 2 1 (b2n (decide (s.dev.newSince (s.dev.un u) < c.shutAt)))))))) ∧
  (∀ (s : State) (e p q k : Nat), k < s.dev.nBanks → s.dev.mains.edge = some e → s.dev.time.cnt = e + p →
    (7500000 ≤ p → p ≤ 11250000 → s.dev.mains.prev = some q → 100 * ((p : Int) - q).natAbs < q → Does .mainsEdge s (fun d =>
      d.mains = { edge := some s.dev.time.cnt, prev := some p, period := p, lock := true } ∧ d.rf R.ADC_MAINS_MLOCK k = 1 ∧
      d.rf R.ADC_MAINS_PERIOD k = p ∧
      (∀ n, n < 16 → s.dev.rf R.ADC_CHn_CTL_MODE k n ≠ 2 → d.adcCh k n = s.dev.adcCh k n) ∧
      (∀ n, n < 16 → s.dev.mains.lock = false → s.dev.chOn k n = true → s.dev.rf R.ADC_CHn_CTL_MODE k n = 2 →
        (d.adcCh k n).opened = some s.dev.time.cnt ∧ (d.adcCh k n).edges = 0))) ∧
    (p < 7500000 ∨ 11250000 < p → s.dev.mains.lock = true → Does .mainsEdge s (fun d => d.mains.lock = false ∧ d.mains.edge = some s.dev.time.cnt ∧
      d.mains.prev = none ∧ d.rf R.ADC_MAINS_MLOCK k = 0 ∧ d.rf R.ADC_MAINS_MLOST k = 1 ∧ Raises Ev.MAINS_LOST 0 s.dev d)) ∧
    (12500000 ≤ p → s.dev.mains.lock = true → Does .mainsTimeout s (fun d => d.mains.lock = false ∧ d.mains.edge = none ∧ d.rf R.ADC_MAINS_MLOCK k = 0 ∧
      d.rf R.ADC_MAINS_MLOST k = 1 ∧ Raises Ev.MAINS_LOST 0 s.dev d)))

/-- R226, R234: a write of CHn_CTL or CHn_WLEN that breaks a limit is refused as a whole: REFUSED, and no setting changes. One that enables a channel of no pair
starts its windows with two invalid ones and WCNT at zero; one that disables it leaves a zero sample word and no word in the rim. -/
def Obligations.ConverterSettings : Prop :=
  ∀ (s : State) (k n : Nat) (w : Word) (m : AdcMeas), k < s.dev.nBanks → n < 16 →
    let setting (wlen : Bool) : Prop := Does (.adcChWrite k n wlen w m) s (fun d => d.rf R.ADC_CHn_STAT_REFUSED k n = 1 ∧
      d.rw (R.ADC_CHn_CTL.addr k n 0) = s.dev.rw (R.ADC_CHn_CTL.addr k n 0) ∧ d.rw (R.ADC_CHn_WLEN.addr k n 0) = s.dev.rw (R.ADC_CHn_WLEN.addr k n 0) ∧
      { d with regs := s.dev.regs } = s.dev)
    (s.dev.ctlOk k n w.toNat = false → setting false) ∧
    (s.dev.wlenOk k (w.toNat % 2 ^ 22) = false → setting true) ∧
    (s.dev.ctlOk k n w.toNat = true → s.dev.pairOf k n = none → s.dev.rf R.ADC_CHn_CTL_EN k n = 0 → bitAt w.toNat 0 = true →
      Does (.adcChWrite k n false w m) s (fun d => d.rf R.ADC_CHn_CTL_EN k n = 1 ∧ d.rf R.ADC_CHn_CTL_RANGE k n = bitsOf w.toNat 1 2 ∧
        d.rf R.ADC_CHn_CTL_MODE k n = bitsOf w.toNat 3 2 ∧ d.rf R.ADC_CHn_CTL_AVG k n = bitsOf w.toNat 8 2 ∧ d.rf R.ADC_CHn_WCNT_COUNT k n = 0 ∧
        (d.adcCh k n).settle = 2 ∧ (d.adcCh k n).wins = [] ∧ (d.adcCh k n).shut = [] ∧ (d.adcCh k n).range = bitsOf w.toNat 1 2 ∧
        (d.adcCh k n).opened = (if bitsOf w.toNat 3 2 = 1 then some s.dev.time.cnt else
          if bitsOf w.toNat 3 2 = 2 ∧ s.dev.mains.lock = false then some s.dev.time.cnt else none) ∧ (∀ j, j ≠ k → d.bank j = s.dev.bank j))) ∧
    (s.dev.pairOf k n = none → s.dev.rf R.ADC_CHn_CTL_EN k n = 1 → bitAt w.toNat 0 = false → Does (.adcChWrite k n false w m) s (fun d =>
      d.rf R.ADC_CHn_CTL_EN k n = 0 ∧ d.rf R.ADC_CHn_LAST_WORD k n = 0 ∧ Tbl.get? d.rimIn (16 * k + n) = none ∧ (d.adcCh k n).wins = [] ∧
      (d.adcCh k n).opened = none ∧ (d.adcCh k n).waits = false)) ∧
    (s.dev.wlenOk k (w.toNat % 2 ^ 22) = true → s.dev.pairOf k n = none → s.dev.chOn k n = false → Does (.adcChWrite k n true w m) s (fun d =>
      d.rf R.ADC_CHn_WLEN_WLEN k n = w.toNat % 2 ^ 22 ∧ d.rw (R.ADC_CHn_CTL.addr k n 0) = s.dev.rw (R.ADC_CHn_CTL.addr k n 0)))

/-- R236 to R238, R240 to R244: BANKCAL takes an enabled bank out of service until it is done, its end sets factors and records of every measured range within the
limits and restarts the enabled channels; ROLL and the calibration period start a pass over them, STOPROLL ends it after the present channel; the 40 ms of a roll
end its calibration; a visit that has seen no window for 1 s is abandoned and comes again. -/
def Obligations.ConverterCalibration : Prop :=
  ∀ (s : State) (k : Nat) (c : CalMeas), k < s.dev.nBanks →
    let b := s.dev.bank k
    let starts (i : Instr) : Prop := Does i s (fun d => (d.bank k).pass.isSome = true ∧ d.rf R.ADC_CAL_STAT_STATE k = 2 ∧ (d.bank k).visit = none ∧
      (∀ j, j ≠ k → d.bank j = s.dev.bank j) ∧ (∀ n, (d.adcCh k n) = s.dev.adcCh k n))
    let span := c.r - c.z
    let g := roundDiv (6710886 * 256 * 2 ^ 22) span.toNat
    let good : Prop := 0 < span ∧ c.z.natAbs ≤ 2 ^ 19 * 256 ∧ 95 * 2 ^ 22 ≤ g * 100 ∧ g * 100 ≤ 105 * 2 ^ 22
    (s.dev.flag R.ADC_CTRL_EN k = true →
      (b.cal = false → Does (.bankcal k) s (fun d => (d.bank k).cal = true ∧ (d.bank k).pass = none ∧ (d.bank k).roll = none ∧ (d.bank k).visit = none ∧
        d.rf R.ADC_CAL_STAT_STATE k = 1 ∧ (∀ j, j ≠ k → d.bank j = s.dev.bank j))) ∧
      (b.cal = true → Does (.bankcal k) s (fun d => d.rf R.ADC_CAL_STAT_BUSY k = 1 ∧ { d with regs := s.dev.regs } = s.dev)) ∧
      (b.cal = false → b.pass = none → s.dev.chsOn k ≠ [] → starts (.roll k) ∧ (s.dev.rst.coresUp = true → 2 ≤ s.dev.rf R.ADC_BANK_CFG_AUTOCAL k → b.passEnd + s.dev.rf R.ADC_BANK_CFG_CAL_PERIOD k * 1800000000000 ≤ s.dev.time.cnt → starts (.autocalPeriod k)))) ∧
    (s.dev.flag R.ADC_CTRL_EN k = false → Does (.bankcal k) s (fun d => d = s.dev) ∧ Does (.roll k) s (fun d => d = s.dev)) ∧
    Does (.stoproll k) s (fun d => (d.bank k).pass = b.pass.map (fun _ => []) ∧ (d.bank k).roll = b.roll ∧ { d with adc := s.dev.adc } = s.dev) ∧
    (b.cal = true → c.ch ≤ 16 → c.range < 4 → c.ch = 16 ∨ s.dev.chOn k c.ch = true → Does (.bankcalDone k [c]) s (fun d =>
      (d.bank k).cal = false ∧ d.rf R.ADC_CAL_STAT_STATE k = 0 ∧ (∀ n ∈ s.dev.chsOn k, (d.adcCh k n).settle = 2 ∧ (d.adcCh k n).wins = []) ∧
      (good → d.rf R.ADC_CAL_REC_VALID k c.ch c.range = 1 ∧ d.rf R.ADC_CAL_GAIN_G k c.ch c.range = ofS 24 g ∧
        d.rf R.ADC_CAL_OFF_OFF k c.ch c.range = ofS 24 (roundDiv c.z 256) ∧ d.rf R.ADC_CAL_REC_FAIL k c.ch c.range = 0) ∧
      (¬ good → d.rf R.ADC_CAL_REC_FAIL k c.ch c.range = 1 ∧
        d.rf R.ADC_CAL_REC_VALID k c.ch c.range = s.dev.rf R.ADC_CAL_REC_VALID k c.ch c.range ∧ Raises Ev.ADC_CALFAIL k s.dev d))) ∧
    (∀ l r, b.pass = some l → b.chkFirst = false → b.roll = some r → r.phase = 2 → r.abandoned = false → r.calEnded = false → c.ch = r.ch → c.range = (s.dev.adcCh k r.ch).range →
      Does (.rollCalDone k [c]) s (fun d => (d.bank k).roll = some { r with calEnded := true } ∧ (d.bank k).pass = some l ∧
        (∀ j, j ≠ k → d.bank j = s.dev.bank j))) ∧
    (∀ v, b.visit = some v →
      (s.dev.time.cnt < v.seen + 500000000 → Does (.checkVisitTimeout k) s (fun d => d = s.dev)) ∧
      (v.seen + 500000000 ≤ s.dev.time.cnt → Does (.checkVisitTimeout k) s (fun d =>
        (∀ x, (d.bank k).visit = some x → x.settle = 2 ∧ x.left = s.dev.rf R.ADC_CHK_CFG_CHKWIN k ∧ x.sum = 0 ∧ x.bad = false ∧
          x.start = s.dev.time.cnt ∧ x.seen = s.dev.time.cnt) ∧
        ((d.bank k).visit = none → v.ch ∈ (d.bank k).again) ∧ (∀ j, j ≠ k → d.bank j = s.dev.bank j))))

/-! ### Outputs, digital pins, step generators and choppers (R191 to R193, R247 to R258) -/

/-- R257: a write of a group of pins is judged as one word: one that would change the latch of a program-owned pin is rejected with REJ and applies
no bit; any other gives every SERVICE-owned pin it names the written level, which waits for the boundary (R259: while the Last is STOPPED an output that holds its
safe value keeps it). A write of an analogue or PWM setting is
rejected with REJ for a program-owned channel, and waits for the boundary for a SERVICE-owned one. R248: a voltage range in current limit sets OVLD,
a current range out of compliance OPEN, each entry raises AOUT_FAULT, and the code stays. R256: a carrier start takes the high
time of the value latched before its tick. -/
def Obligations.OutputCommands : Prop :=
  ∀ (s : State) (wr : Writer) (g al i n : Nat) (w : Word) (ovld opn : Bool), wr = .eyelet ∨ wr = .core → g < 6 → al < 4 → i < 32 →
    let new (i : Nat) : Bool :=
      if al = 0 then bitAt w.toNat i
      else if bitAt w.toNat i then decide (al = 1) || (decide (al = 3) && !s.dev.pinLatch (32 * g + i)) else s.dev.pinLatch (32 * g + i)
    let key (pwm : Bool) : Nat := if pwm then 8192 + n else 4096 + n
    let set (pwm : Bool) : Instr := if pwm then .pwmSetWrite wr n w else .aoutSetWrite wr n w
    let ok (pwm : Bool) : Prop := if pwm then n < 32 ∧ s.dev.wordFree (0x630108 + 16 * n)
      else n < s.dev.nAout ∧ s.dev.wordFree (0x600104 + 16 * n)
    let isO := ovld && decide (s.dev.inForce R.AOUT_CHn_CFG_RANGE n ≠ 3)
    let isP := opn && decide (s.dev.inForce R.AOUT_CHn_CFG_RANGE n = 3)
    let held (k : Nat) : Bool := (s.dev.outSt k).toSafe && decide (s.dev.lastState = lsSTOPPED)
    let o := s.dev.outSt (8192 + n)
    let now := o.ltick.any (fun l => decide (s.dev.time.cnt - 1 < l))
    let shows := if now then o.wasShows else o.shows
    let per := s.dev.inForce R.PWM_CHn_PER_PER n
    let hi := roundDiv (max 0 (sW (if now then o.was else o.val)) * per) (2 ^ 31)
    (s.dev.wordFree (0x610820 + 4 * g) →
      ((∃ j, j < 32 ∧ s.dev.progOwned (32 * g + j) = true ∧ new j ≠ s.dev.pinLatch (32 * g + j)) → Does (.dioOutWrite wr g al w) s (fun d =>
        d.rf R.DIO_STAT_REJ = 1 ∧ (∀ a, a ≠ R.DIO_STAT_REJ.addr 0 0 0 → d.rw a = s.dev.rw a) ∧ { d with regs := s.dev.regs, outWr := s.dev.outWr } = s.dev)) ∧
      ((∀ j, j < 32 → s.dev.progOwned (32 * g + j) = true → new j = s.dev.pinLatch (32 * g + j)) → Does (.dioOutWrite wr g al w) s (fun d =>
        { d with outs := s.dev.outs, outWr := s.dev.outWr, cfgDirty := s.dev.cfgDirty } = s.dev ∧ (∀ k, (∀ j, j < 32 → k ≠ 32 * g + j) → d.outSt k = s.dev.outSt k) ∧
        d.outSt (32 * g + i) = (if s.dev.svcOwned (32 * g + i) && (decide (al = 0) || bitAt w.toNat i) then
          { s.dev.outSt (32 * g + i) with wait := some (BitVec.ofNat 32 (b2n (new i))), toSafe := held (32 * g + i) } else s.dev.outSt (32 * g + i))))) ∧
    (∀ pwm, ok pwm →
      (s.dev.progOwned (key pwm) = true → Does (set pwm) s (fun d => d.rf (if pwm then R.PWM_STAT_REJ else R.AOUT_STAT_REJ) = 1 ∧
        d.outs = s.dev.outs ∧ { d with regs := s.dev.regs, outWr := s.dev.outWr } = s.dev)) ∧
      (s.dev.svcOwned (key pwm) = true → Does (set pwm) s (fun d =>
        d.outSt (key pwm) = { s.dev.outSt (key pwm) with wait := some w, toSafe := held (key pwm) } ∧ (∀ k, k ≠ key pwm → d.outSt k = s.dev.outSt k) ∧
        (if pwm then d.rf R.PWM_CHn_SET_SET 0 n else d.rf R.AOUT_CHn_SET_SET 0 n) = w.toNat ∧
        { d with outs := s.dev.outs, regs := s.dev.regs, outWr := s.dev.outWr, cfgDirty := s.dev.cfgDirty } = s.dev))) ∧
    (n < s.dev.nAout → Does (.aoutCheck n ovld opn) s (fun d =>
      d.outSt (4096 + n) = { s.dev.outSt (4096 + n) with ovld := isO, opn := isP } ∧ (∀ k, k ≠ 4096 + n → d.outSt k = s.dev.outSt k) ∧
      d.rf R.AOUT_CHn_STAT_OVLD 0 n = (if isO then 1 else s.dev.rf R.AOUT_CHn_STAT_OVLD 0 n) ∧
      d.rf R.AOUT_CHn_STAT_OPEN 0 n = (if isP then 1 else s.dev.rf R.AOUT_CHn_STAT_OPEN 0 n) ∧
      d.rf R.AOUT_CHn_CODE_CODE 0 n = s.dev.rf R.AOUT_CHn_CODE_CODE 0 n ∧
      (if (isO = true ∧ (s.dev.outSt (4096 + n)).ovld = false) ∨ (isP = true ∧ (s.dev.outSt (4096 + n)).opn = false)
        then Raises Ev.AOUT_FAULT 0 s.dev d else d.evt = s.dev.evt))) ∧
    (n < 32 → s.dev.inForce R.PWM_CHn_CFG_EN n = 1 →
      Does (.pwmCarrierStart n) s (fun d => { d with regs := s.dev.regs, carriers := s.dev.carriers } = s.dev ∧
        Tbl.get? d.carriers n = some s.dev.time.cnt ∧ (∀ k, k ≠ n → Tbl.get? d.carriers k = Tbl.get? s.dev.carriers k) ∧
        (∀ a, a ≠ R.PWM_CHn_STAT_H.addr 0 n 0 → d.rw a = s.dev.rw a) ∧
        (shows = 1 → d.rf R.PWM_CHn_STAT_H 0 n = (if hi < 2 then 0 else if per < hi + 2 then per else hi.toNat)) ∧
        (shows = 0 ∨ shows = 2 ∧ s.dev.inForce R.PWM_CHn_CFG_SAFELOW n = 1 → d.rf R.PWM_CHn_STAT_H 0 n = 0))) ∧
    (n < 32 → s.dev.inForce R.PWM_CHn_CFG_EN n ≠ 1 → Does (.pwmCarrierStart n) s (fun d => d = s.dev))

/-- R250 to R253: the first raw edge starts a run and keeps its time; the run that has lasted the filter's time changes the filtered level, counts as CNT selects, restarts the
count of rejected pulses and, at an assertion of an armed pin with EVT, asserts the pin's event source with the time of the run's first tick, the count,
the level and CHATTER; a run that ends before is a rejected pulse, and the pulse that reaches CHAT_LIM sets the pin's bit and raises DIO_CHATTER; a
write sets the count, and an edge that was counted in its tick counts after it. R249: an output pin's raw level is one that its pad may carry (`rawMay`). -/
def Obligations.DigitalInputs : Prop :=
  ∀ (s : State) (n t ns fr : Nat) (w : Word) (b : BindRec), n < 192 →
    let p := s.dev.pin n
    let cnt := s.dev.inForce R.DIO_PINn_CFG_CNT n
    let lim := s.dev.inForce R.DIO_PINn_CFG_CHAT_LIM n
    let evt := s.dev.inForce R.DIO_PINn_CFG_EVT n
    let lvl := !p.lvl
    let asserted := lvl == decide (s.dev.inForce R.DIO_PINn_CFG_POL n = 0)
    let counts := if (asserted = true ∧ (cnt = 1 ∨ cnt = 3)) ∨ (asserted = false ∧ (cnt = 2 ∨ cnt = 3)) then 1 else 0
    let others (d : Dev) : Prop := ∀ j, j ≠ n → d.pin j = s.dev.pin j
    (s.dev.rawMay n lvl = false → Does (.dioRawEdge n) s (fun d => d = s.dev)) ∧
    (p.run = none → s.dev.rawMay n lvl = true → Does (.dioRawEdge n) s (fun d => d.pin n = { p with run := some (s.dev.time.cnt, s.dev.viewNs 0, s.dev.viewFrac 0) } ∧ others d ∧
      { d with pins := s.dev.pins } = s.dev)) ∧
    (p.run = some (t, ns, fr) → t + s.dev.filterTicks n ≤ s.dev.time.cnt →
      Does (.dioFilteredTransition n) s (fun d => others d ∧
        d.pin n = { lvl := lvl, te := some (ns, fr), run := none, rej := 0, armed := !asserted, edge := if counts = 1 then some s.dev.time.cnt else p.edge } ∧
        d.rf R.DIO_CNTn_COUNT 0 n = (s.dev.rf R.DIO_CNTn_COUNT 0 n + counts) % 2 ^ 32 ∧
        (asserted = false ∨ p.armed = false ∨ evt ≠ 1 → { d with pins := s.dev.pins, regs := s.dev.regs } = s.dev) ∧
        (asserted = true → p.armed = true → evt = 1 → s.dev.cfg.binds.filter (fun b => b.src = n) = [b] →
          d.disp = (s.dev.acceptItem b.die b.flow n (leBytes 8 ns ++
            leBytes 4 ((s.dev.rf R.DIO_CNTn_COUNT 0 n + counts) % 2 ^ 32) ++ [BitVec.ofNat 8 (b2n lvl),
            BitVec.ofNat 8 (b2n (bitAt (s.dev.rf R.DIO_CHATg_CHAT 0 (n / 32)) (n % 32)))] ++ zeros 6)).disp))) ∧
    (p.run = some (t, ns, fr) → s.dev.time.cnt < t + s.dev.filterTicks n → s.dev.rawMay n p.lvl = true →
      (lim = 0 ∨ p.rej + 1 < lim → Does (.dioRejectedPulse n) s (fun d => others d ∧ d.pin n = { p with run := none, rej := min 255 (p.rej + 1) } ∧
        { d with pins := s.dev.pins } = s.dev)) ∧
      (lim ≠ 0 → lim ≤ p.rej + 1 → Does (.dioRejectedPulse n) s (fun d => others d ∧ d.pin n = { p with run := none, rej := 0 } ∧
        bitAt (d.rf R.DIO_CHATg_CHAT 0 (n / 32)) (n % 32) = true ∧
        (∀ j, j < 32 → j ≠ n % 32 → bitAt (d.rf R.DIO_CHATg_CHAT 0 (n / 32)) j = bitAt (s.dev.rf R.DIO_CHATg_CHAT 0 (n / 32)) j) ∧
        Raises Ev.DIO_CHATTER 0 s.dev d))) ∧
    Does (.dioCntWrite n w) s (fun d => d.rf R.DIO_CNTn_COUNT 0 n = (w.toNat + if p.edge = some s.dev.time.cnt then 1 else 0) % 2 ^ 32 ∧ { d with regs := s.dev.regs } = s.dev ∧
      ∀ a, a ≠ R.DIO_CNTn_COUNT.addr 0 n 0 → d.rw a = s.dev.rw a)

/-- R191 to R193: a step pulse moves the position by one step in the generator's direction; a microstep moves the index by 256/2^MRES around 1024 and the
codes follow the sine and cosine of it; a trip ends the on time, the eighth one in a row at the first sample sets SHORT and turns the phase off; 50 µs
without a trip end the on time, the sixteenth in a row at a code of 16 or more sets OPEN; the end of the off time starts the next cycle. -/
def Obligations.StepsAndChoppers : Prop :=
  ∀ (s : State) (g c : Nat) (ph first : Bool),
    let x := s.dev.step g
    let y := s.dev.chop c
    let p := y.phase ph
    let idx := s.dev.rf R.CHOP_CH_STAT_IDX 0 c
    let inc := 256 / 2 ^ s.dev.rf R.CHOP_CH_CFG_MRES 0 c
    let idx' := (if y.steps.down then idx + 1024 - inc else idx + inc) % 1024
    let run := s.dev.rf R.CHOP_CH_CUR_RUN 0 c
    let code := if ph then s.dev.rf R.CHOP_CH_STAT_DAC_B 0 c else s.dev.rf R.CHOP_CH_STAT_DAC_A 0 c
    let others (d : Dev) : Prop := ∀ j, j ≠ c → d.chop j = s.dev.chop j
    let rest (d : Dev) : Prop := { d with chops := s.dev.chops, regs := s.dev.regs } = s.dev
    let full := if 16 ≤ code then min 255 (p.full + 1) else 0
    (g < 32 → 0 < x.left → Does (.stepPulse g) s (fun d => d.step g = { x with left := x.left - 1 } ∧ (∀ j, j ≠ g → d.step j = s.dev.step j) ∧
      d.rf R.DIO_SGn_POS_STEPS 0 g = (s.dev.rf R.DIO_SGn_POS_STEPS 0 g + (if x.down then 2 ^ 32 - 1 else 1)) % 2 ^ 32 ∧
      { d with steps := s.dev.steps, regs := s.dev.regs } = s.dev)) ∧
    (c < s.dev.nChop →
      (0 < y.steps.left → y.used = true → y.on = true → y.safeV = false → Does (.microstepAdvance c) s (fun d => others d ∧ rest d ∧
        d.rf R.CHOP_CH_STAT_IDX 0 c = idx' ∧ (d.chop c).steps = { y.steps with left := y.steps.left - 1 } ∧
        (y.mix = 0 → d.rf R.CHOP_CH_STAT_DAC_A 0 c = (2 * run * absSin idx' + 2 ^ 60) / 2 ^ 61 % 256 ∧
          d.rf R.CHOP_CH_STAT_DAC_B 0 c = (2 * run * absSin (idx' + 256) + 2 ^ 60) / 2 ^ 61 % 256))) ∧
      (p.st = 1 →
        (first = true → 7 ≤ p.quick → Does (.chopTrip c ph first) s (fun d => others d ∧ rest d ∧
          ((d.chop c).phase ph).st = 0 ∧ ((d.chop c).phase ph).cut = true ∧
          d.rf (if ph then R.CHOP_CH_STAT_SHORT_B else R.CHOP_CH_STAT_SHORT_A) 0 c = 1)) ∧
        (first = false ∨ p.quick < 7 → Does (.chopTrip c ph first) s (fun d => others d ∧ { d with chops := s.dev.chops } = s.dev ∧
          d.chop c = y.withPhase ph { p with st := 2, full := 0, quick := if first then p.quick + 1 else 0 })) ∧
        Does (.chopMaxOn c ph) s (fun d => others d ∧ rest d ∧ d.chop c = y.withPhase ph { p with st := 2, full := full, quick := 0 } ∧
          d.rf (if ph then R.CHOP_CH_STAT_OPEN_B else R.CHOP_CH_STAT_OPEN_A) 0 c =
            (if 16 ≤ full then 1 else s.dev.rf (if ph then R.CHOP_CH_STAT_OPEN_B else R.CHOP_CH_STAT_OPEN_A) 0 c))) ∧
      (p.st = 2 → Does (.chopOffEnd c ph) s (fun d => others d ∧ d.chop c = y.withPhase ph { p with st := 1 } ∧
        { d with chops := s.dev.chops } = s.dev)))

/-! ### Acquisition and history (R263 to R283, R350, R351) -/

/-- R267, R268, R273 to R275: ARM of an idle engine outside any group starts its capture in a free slot, or the stream of a CONT engine, with conditions and
counts read from the request tile and started anew, from the next token on; it is refused with NOSLOT, STATE or GROUP; DISARM frees the slot and stops; FORCE
requests a trigger of an armed engine; RELEASE frees the slot it names in any state. ARM to the master of a group sends ARM for cycle k + ARM_LEAD. A member
whose cadence fits waits for the arm cycle, or for the next token where that has passed, one whose cadence differs goes to IDLE with ACQ_GRP_MISMATCH; a FIRE
reaches an armed member, or a triggered one that it precedes, and of two the earlier one counts, in one cycle that of the lower sender; a DISARM stops members. -/
def Obligations.EngineCommands : Prop :=
  ∀ (s : State) (u e sl : Nat) (c : EngCfg) (m : GroupMsg), s.dev.engOk u e = true → s.dev.engCfg u e = some c →
    let x := s.dev.engSt u e
    let q := s.dev.engConds s.mem u e
    let grp := s.dev.grpOf u e
    let now := (s.dev.un u).cycle
    let room : Prop := c.cont = true ∨ x.freeSlot c ≠ none
    let others (d : Dev) : Prop := ∀ v f, (v, f) ≠ (u, e) → d.engSt v f = s.dev.engSt v f
    let rest (d : Dev) : Prop := { d with units := s.dev.units, eng := s.dev.eng } = s.dev
    let started (d : Dev) (st slot : Nat) : Prop := let y := d.engSt u e
      others d ∧ rest d ∧ y.st = st ∧ y.slot = slot ∧ y.used = x.used ++ [slot] ∧ y.conds = q.1 ∧ y.pre = q.2.1 ∧ y.post = q.2.2 ∧
      y.lows = [false, false, false, false] ∧ y.captured = 0 ∧ y.mask = x.mask ∧ y.startK = now + 1 ∧ y.past = [] ∧ y.timeReqs = x.timeReqs ∧ y.lastCmd = 1 ∧ y.why = 0 ∧
      (d.engRim u e).cur = none ∧ (d.engRim u e).wpos = 0 ∧ (d.engRim u e).queue = (s.dev.engRim u e).queue
    let refused (i : Instr) (why : Nat) : Prop := Does i s (fun d => others d ∧ rest d ∧ d.engSt u e = { x with lastCmd := 2, why := why })
    let member := (u, e) ∈ s.dev.members m.gid
    let mine := m.devidx = s.dev.rf R.ACQ_DEVIDX_IDX ∧ m.eng = s.dev.engNo u e
    let lower : Bool := decide (m.devidx < s.dev.rf R.ACQ_DEVIDX_IDX) || (decide (m.devidx = s.dev.rf R.ACQ_DEVIDX_IDX) && decide (m.eng < s.dev.engNo u e))
    let earlier := x.st = 1 ∨ (x.st = 2 ∧ (m.k < x.kT ∨ (m.k = x.kT ∧ lower = true)))
    let fire := some (m.k, m.ns, m.frac, lower)
    (grp = none →
      (x.st = 0 → c.cont = false → x.freeSlot c = some sl → Does (.engArm u e) s (fun d => started d 1 sl)) ∧
      (x.st = 0 → c.cont = true → Does (.engArm u e) s (fun d => started d 4 0)) ∧
      (x.st = 1 ∨ x.st = 2 ∨ x.st = 4 → Does (.engDisarm u e) s (fun d => others d ∧ rest d ∧
        d.engSt u e = { x with st := 0, used := x.used.filter (· ≠ x.slot), lastCmd := 1, why := 0 })) ∧
      (x.st = 0 ∨ x.st = 3 → x.armPend = none → refused (.engDisarm u e) 1)) ∧
    ((∀ g, grp = some g → g.master = true) → (x.st ≠ 0 → refused (.engArm u e) 1) ∧ (x.st = 0 → ¬ room → refused (.engArm u e) 3)) ∧
    (∀ g, grp = some g →
      (g.master = false → refused (.engArm u e) 2 ∧ refused (.engDisarm u e) 2) ∧
      (g.master = true → g.gid = m.gid →
        let sends (d : Dev) (kind : Nat) : Prop :=
          d.sent = s.dev.sent ++ [.group kind m.gid (s.dev.rf R.ACQ_DEVIDX_IDX) (s.dev.engNo u e) (now + g.lead) 0 0 q.2.2 0]
        (x.st = 0 → room → Does (.engArm u e) s (fun d => sends d 0)) ∧
        (x.st = 1 → Does (.engDisarm u e) s (fun d => sends d 2 ∧ (member → (d.engSt u e).st = 0))))) ∧
    (x.st = 1 → Does (.engForce u e) s (fun d => others d ∧ rest d ∧ d.engSt u e = { x with forceReq := true, lastCmd := 1, why := 0 })) ∧
    (x.st ≠ 1 → refused (.engForce u e) 1) ∧
    (sl < 16 →
      (x.st = 3 → sl = x.slot → Does (.engRelease u e sl) s (fun d => others d ∧ rest d ∧
        d.engSt u e = { x with st := 0, used := x.used.filter (· ≠ sl), lastCmd := 1, why := 0 })) ∧
      (x.st ≠ 3 ∨ sl ≠ x.slot → Does (.engRelease u e sl) s (fun d => others d ∧ rest d ∧
        d.engSt u e = { x with used := x.used.filter (· ≠ sl), lastCmd := 1, why := 0 }))) ∧
    (member → s.dev.unitCad u = (m.period, m.phase) → x.st = 0 → Does (.groupArm m) s (fun d =>
      d.engSt u e = { x with armPend := some (if m.k < now then now + 1 else m.k), conds := q.1, pre := q.2.1, post := m.post } ∧ d.eng = s.dev.eng)) ∧
    (s.dev.members m.gid = [(u, e)] → s.dev.unitCad u ≠ (m.period, m.phase) → Does (.groupArm m) s (fun d => others d ∧
      d.engSt u e = { x with st := 0, armPend := none, used := if x.st = 1 ∨ x.st = 2 ∨ x.st = 4 then x.used.filter (· ≠ x.slot) else x.used } ∧ Raises Ev.ACQ_GRP_MISMATCH 0 s.dev d)) ∧
    (member → ¬ mine → earlier → Does (.groupFire m) s (fun d => rest d ∧
      (x.grpReq = none ∨ (∃ k0 z, x.grpReq = some (k0, z) ∧ (m.k < k0 ∨ m.k = k0 ∧ lower = true)) → d.engSt u e = { x with grpReq := fire }) ∧
      (∀ k0 z, x.grpReq = some (k0, z) → k0 < m.k ∨ k0 = m.k ∧ lower = false → d.engSt u e = x) ∧
      ∀ v f, (v, f) ∉ s.dev.members m.gid → d.engSt v f = s.dev.engSt v f)) ∧
    (member → mine ∨ ¬ earlier → Does (.groupFire m) s (fun d => rest d ∧ d.engSt u e = x)) ∧
    (member → x.st = 1 ∨ x.st = 2 ∨ x.st = 4 → Does (.groupDisarm m) s (fun d => rest d ∧
      d.engSt u e = { x with st := 0, armPend := none, used := x.used.filter (· ≠ x.slot) } ∧
      ∀ v f, (v, f) ∉ s.dev.members m.gid → d.engSt v f = s.dev.engSt v f))

/-- R265, R266, R278 to R281, R351: the oldest queued block goes to its place in the engine's area, with its header, and to no other byte; the next slice of
a ring is the summaries of its signals once each is complete, or NODATA when the interval has passed while the fabric did not run, no other slice is written, and
the ring keeps its length; the stream sends the next slice in order, or
the datagram of a gap; a freeze takes the oldest unlocked slot, adds its cause to a copy in progress whose span it falls in, waits, or is refused; the end of a
copy, not before the last slice of its span, starts the next one that waits, or refuses those that find no slot. -/
def Obligations.RecordsAndHistory : Prop :=
  ∀ (s : State) (u e n i cause : Nat) (c : EngCfg) (b : BlockRec) (t : List BlockRec) (es : List HistEntry) (x : SliceRec),
    let at_ := c.base + b.slot * (c.area / max 1 c.nrec) + 4096 * (1 + b.pos)
    let rg := s.dev.ring n
    let len := s.dev.ringLen n
    let sigs := (s.dev.ringSigs n).length
    let ms := s.dev.sliceNext n
    let found := (s.dev.ringSigs n).map (fun g => (Tbl.get? s.dev.hsig g.id).bind (fun h => (h.out.find? (fun z => decide (z.1 = ms))).map Prod.snd))
    let mf := s.dev.viewNs 0 / 1000000
    let sp := s.dev.frzSpan
    let sliced (entries : List HistEntry) (fl : Nat) : Prop := Does (.historySliceWrite n ms) s (fun d =>
      let kept := (rg.slices ++ ([⟨ms, fl, entries⟩] : List SliceRec)).drop (rg.slices.length + 1 - len)
      (d.ring n).slices = kept ∧ (∀ j, j ≠ n → d.ring j = s.dev.ring j) ∧ d.units = s.dev.units ∧
      (∀ y l, kept = y :: l → rg.slices ≠ [] → rg.skipped = none → rg.sendFrom < y.ms →
        (d.ring n).sendFrom = y.ms ∧ (d.ring n).skipped = some rg.sendFrom ∧ d.rf R.ACQ_STAT_HISTGAP = 1))
    let copying (d : Dev) (i mf : Nat) : Prop := d.frz.copy = some (i, mf) ∧ d.rf R.ACQ_FRZ_STAT_BUSY = 1 ∧ d.rf R.ACQ_FRZ_STAT_SLOT = i ∧
      d.frz.nextOrder = s.dev.frz.nextOrder + 1
    (s.dev.engOk u e = true → s.dev.engCfg u e = some c → (s.dev.engRim u e).queue = b :: t → b.rows.length * rowSize c.sigs.length ≤ 4032 →
      (∀ r, r ∈ b.rows → r.vals.length = c.sigs.length ∧ r.sts.length = c.sigs.length) → DoesMem (.acqBlockWritten u e) s (fun d m =>
      (d.engRim u e).queue = t ∧ { d with eng := s.dev.eng } = s.dev ∧ (∀ j, j ≠ 4 * u + e → Tbl.get? d.eng j = Tbl.get? s.dev.eng j) ∧
      memRead m at_ 36 = leBytes 4 0x41424C4B ++ [BitVec.ofNat 8 (s.dev.engNo u e), BitVec.ofNat 8 b.d] ++ leBytes 2 b.rows.length ++ leBytes 4 b.seq ++
        leBytes 4 b.flags ++ leBytes 8 b.k0 ++ leBytes 8 b.kEnd ++ leBytes 4 b.lost ∧
      (∀ a, a < at_ ∨ at_ + 4096 ≤ a → memGet m a = memGet s.mem a))) ∧
    (n < 8 →
      (0 < len → found = es.map some → sliced es 0) ∧
      (0 < len → none ∈ found → s.dev.histDark = true → ms + 1 ≤ mf → sliced (List.replicate sigs ⟨0, 0, 0, 0, 0⟩) 1) ∧
      (∀ m', m' ≠ ms → Does (.historySliceWrite n m') s (fun d => d = s.dev)) ∧
      (rg.skipped = none → rg.slices.find? (fun y => rg.sendFrom ≤ y.ms) = some x → Does (.historyStreamSend false n) s (fun d =>
        d.ring n = { rg with sendFrom := x.ms + 1 } ∧ (∀ j, j ≠ n → d.ring j = s.dev.ring j) ∧ d.units = s.dev.units ∧
        (s.dev.nHist = 1 → (x.bytes n).length ≤ max 64 ((s.dev.rf R.ETH_MTU_MTU 0 - 60) / 64 * 64) → ∃ bs, d.sent = s.dev.sent ++ [.history 0 bs] ∧
          bs.take 20 = leBytes 4 0x4853544D ++ [1, 1, BitVec.ofNat 8 (s.dev.rf R.ACQ_DEVIDX_IDX), BitVec.ofNat 8 n] ++
            leBytes 4 (Tbl.getD 0 s.dev.dseqs (256 + n)) ++ leBytes 8 x.ms ∧ bs.drop 32 = x.bytes n))) ∧
      (∀ m0, rg.skipped = some m0 → Does (.historyStreamSend false n) s (fun d => d.ring n = { rg with skipped := none } ∧
        (∀ j, j ≠ n → d.ring j = s.dev.ring j) ∧ (s.dev.nHist = 1 → ∃ bs, d.sent = s.dev.sent ++ [.history 0 bs] ∧ bs.length = 32 ∧
          (bs.drop 5).take 1 = [3] ∧ (bs.drop 12).take 8 = leBytes 8 m0)))) ∧
    (∀ b t, n < 128 → s.dev.engOf n = some (u, e) → (s.dev.engRim u e).stream = b :: t → Does (.historyStreamSend true n) s (fun d =>
      (d.engRim u e).stream = t ∧ (d.engRim u e).queue = (s.dev.engRim u e).queue ∧ d.units = s.dev.units ∧ d.rings = s.dev.rings)) ∧
    (s.dev.frz.copy = none →
      (s.dev.frzSlot = some i → Does (.freeze cause) s (fun d => copying d i mf ∧ d.units = s.dev.units ∧ ∃ y, Tbl.get? d.snaps i = some y ∧
        y.mf = mf ∧ y.causes = [cause] ∧ y.valid = true ∧ y.slices = s.dev.frzSlices (mf - sp.1) (mf + sp.2) ∧ ∀ j, j ≠ i → Tbl.get? d.snaps j = Tbl.get? s.dev.snaps j)) ∧
      (s.dev.frzSlot = none → Does (.freeze cause) s (fun d => d.rf R.ACQ_FRZ_STAT_FULL = 1 ∧ { d with regs := s.dev.regs } = s.dev))) ∧
    (∀ m0, s.dev.frz.copy = some (i, m0) →
      (m0 - sp.1 ≤ mf → mf ≤ m0 + sp.2 → Does (.freeze cause) s (fun d => { d with snaps := s.dev.snaps } = s.dev ∧
        Tbl.get? d.snaps i = some (let y := Tbl.getD {} s.dev.snaps i; { y with causes := y.causes ++ [cause] }))) ∧
      (mf < m0 - sp.1 ∨ m0 + sp.2 < mf → s.dev.frz.queue.length < 4 → Does (.freeze cause) s (fun d =>
        d.frz = { s.dev.frz with queue := s.dev.frz.queue ++ [(cause, mf)] } ∧ d.snaps = s.dev.snaps)) ∧
      (mf < m0 - sp.1 ∨ m0 + sp.2 < mf → 4 ≤ s.dev.frz.queue.length → Does (.freeze cause) s (fun d => { d with regs := s.dev.regs } = s.dev ∧
        d.rf R.ACQ_FRZ_STAT_REFUSED = min (2 ^ R.ACQ_FRZ_STAT_REFUSED.w - 1) (s.dev.rf R.ACQ_FRZ_STAT_REFUSED + 1))) ∧
      (s.dev.frzWhole = false → Does .freezeCopyEnd s (fun d => d = s.dev)) ∧
      (s.dev.frzWhole = true → s.dev.frz.queue = [] → Does .freezeCopyEnd s (fun d => d.frz.copy = none ∧ d.rf R.ACQ_FRZ_STAT_BUSY = 0 ∧ d.units = s.dev.units)) ∧
      (∀ w j q, s.dev.frzWhole = true → s.dev.frz.queue = (w, n) :: q → s.dev.frzSlot = some j → Does .freezeCopyEnd s (fun d => copying d j n ∧ d.frz.queue = q ∧
        d.units = s.dev.units)) ∧
      (s.dev.frzWhole = true → s.dev.frz.queue ≠ [] → s.dev.frzSlot = none → Does .freezeCopyEnd s (fun d => d.frz.copy = none ∧ d.frz.queue = [] ∧
        d.rf R.ACQ_FRZ_STAT_FULL = 1)))

/-! ### Holup segments (R284 to R312) -/

/-- R286, R291, R294 to R296, R298, R299, R301 to R304, R306, R309 to R312: what a segment sends and when, each frame with its line: SYNC, with the instant at which its start
leaves the port, at each basic-cycle start of a master and CSTART of a coldstarting node, the latest fill, safe data or NULL in a slot (a slave its data as of the last SYNC), POLL, a
delay request or the ARB frame of lowest priority value in an arbitrating window once its wait has passed, the answers it owes while it is not silenced; a window
that closes without the expected frame counts toward the node's absence; the state changes of its time-outs, when their time has passed, and of its commands. -/
def Obligations.HolupSending : Prop :=
  ∀ (s : State) (n i ch c o node : Nat) (y : HolDesc) (b : List Byte), n < s.dev.nHol →
    let x := s.dev.seg n
    let st := s.dev.holState n
    let own := s.dev.holNode n
    let pbc := s.dev.holPbc n
    let t0 := s.dev.holStart n (s.dev.viewNs 0)
    let bc := s.dev.holIdx n t0
    let deg := s.dev.rf R.HOL_STAT_DEG_A n + 2 * s.dev.rf R.HOL_STAT_DEG_B n
    let tx : Nat := (s.dev.stampB 0 (4 * s.dev.time.cnt) + toS 32 (s.dev.rf R.HOL_EGR_LAT_EGR_LAT n) * 65536).toNat
    let sync : List Byte := leBytes 8 (tx / 2 ^ 32) ++ leBytes 4 (tx % 2 ^ 32) ++ [BitVec.ofNat 8 bc, BitVec.ofNat 8 (deg + 4 * x.nextDeg +
      16 * b2n (s.dev.segFlags n).1 + 32 * b2n (s.dev.segFlags n).2)] ++ leBytes 2 (s.dev.holSch n).sched
    let fr (typ ch slot : Nat) (fl : Bool × Bool) (pay : List Byte) : Emit :=
      let f : HolFrame := { typ := typ, hold := fl.1, safe := fl.2, src := own, ch := ch, slot := slot, claim := s.dev.claimField n, payload := pay }
      .hol n f f.line
    let no := (false, false)
    let fl := (x.holdC.contains y.cad, x.safeC.contains y.cad)
    let again := y.repeatF = true ∨ fl.1 = true
    let sends (d : Dev) (l : List Emit) : Prop := d.sent = s.dev.sent ++ l
    let chans := [0, 1].filter (fun c => s.dev.chEn n c)
    let others (d : Dev) : Prop := (∀ j, j ≠ n → d.seg j = s.dev.seg j ∧ d.holState j = s.dev.holState j) ∧ d.units = s.dev.units
    let now := s.dev.holNow n
    let slot := s.dev.slotNo n i
    let out := s.dev.outBuf n i
    let safe := s.dev.fillFields (s.dev.holFields n (s.dev.txDir n) i) true (zeros (s.dev.txLen n y))
    let miss := Tbl.getD 0 x.absN y.node + 1
    let goes (i : Instr) (st' : Nat) : Prop := Does i s (fun d => d.holState n = st' ∧ others d)
    let same (i : Instr) : Prop := Does i s (fun d => d = s.dev)
    let nulltx (d : Dev) : Prop := d.hol = s.dev.hol ∧ d.rf R.HOL_CNT_NULLTX_COUNT n = min (2 ^ 32 - 1) (s.dev.rf R.HOL_CNT_NULLTX_COUNT n + 1)
    let live := s.dev.holSlave n = true ∧ (x.sub = hsSYNCING ∨ x.sub = hsRUN)
    (2 ≤ s.dev.rf R.HOL_CYC_M n → x.next = 0 →
      (s.dev.holMaster n = true → bc ≠ 0 ∨ x.annDeg = deg → Does (.holBasicCycleStart n) s (fun d => others d ∧ d.rf R.HOL_STATE_BC n = bc ∧ d.holState n = st ∧
        sends d (chans.map (fun c => fr 1 c 0 no sync)) ∧ d.seg n = { x with gotSlots := [], polled := none, lastB := t0, annDeg := x.nextDeg })) ∧
      (s.dev.holMaster n = true → bc = 0 → Does (.holBasicCycleStart n) s (fun d => others d ∧ d.rf R.HOL_STAT_DEG_A n = b2n (bitAt x.annDeg 0) ∧
        d.rf R.HOL_STAT_DEG_B n = b2n (bitAt x.annDeg 1) ∧ d.holState n = st ∧
        (x.annDeg ≠ deg → Raises (if x.annDeg = 0 then Ev.HOL_RESTORED else Ev.HOL_DEGRADED) n s.dev d))) ∧
      (st = hsCOLDSTART → s.dev.holRole n ≠ 0 → 0 < x.csLeft → Does (.holBasicCycleStart n) s (fun d => others d ∧ (d.seg n).csLeft = x.csLeft - 1 ∧
        (d.seg n).lastB = t0 ∧ sends d (chans.map (fun c => fr 7 c 0 no sync))))) ∧
    (now.find? (fun e => decide (e.1 = i)) = some (i, y, c, o) →
      (s.dev.holMaster n = true → y.kind = 0 → fl.2 = false →
        (out.fresh = true → Does (.holSlotStart n i) s (fun d => others d ∧ d.outBuf n i = { out with fresh := false } ∧ sends d [fr 2 c slot fl out.fill] ∧
          { d with hol := s.dev.hol, sent := s.dev.sent, stamps := s.dev.stamps, lineRel := s.dev.lineRel } = s.dev)) ∧
        (out.fresh = false → out.filled = true → again → Does (.holSlotStart n i) s (fun d => others d ∧ sends d [fr 2 c slot fl out.fill])) ∧
        (out.fresh = false → out.filled = false ∨ ¬ again → Does (.holSlotStart n i) s (fun d => others d ∧ sends d [fr 5 c slot no []] ∧ nulltx d))) ∧
      (s.dev.holMaster n = true → y.kind = 0 → fl.2 = true → Does (.holSlotStart n i) s (fun d => others d ∧ d.hol = s.dev.hol ∧ sends d [fr 2 c slot fl safe])) ∧
      (s.dev.holSlave n = true → x.sub = hsRUN → y.kind = 1 → y.node = own → fl.2 = false →
        (∀ p new, out.atSync = some (p, new) → new = true ∨ again → Does (.holSlotStart n i) s (fun d => others d ∧
          d.outBuf n i = { out with atSync := some (p, false) } ∧ sends d [fr 3 c slot fl p])) ∧
        ((∀ p, out.atSync ≠ some (p, true)) → out.atSync = none ∨ ¬ again → Does (.holSlotStart n i) s (fun d => others d ∧ sends d [fr 5 c slot no []] ∧ nulltx d))) ∧
      (s.dev.holMaster n = true → y.kind = 3 → fl.2 = false → out.fresh = true ∨ out.filled = true → Does (.holSlotStart n i) s (fun d => others d ∧
        sends d [fr 4 c y.node fl out.fill] ∧ (d.seg n).polled.map Prod.fst = some i ∧ (d.outBuf n i).fresh = false)) ∧
      (s.dev.holMaster n = true → y.kind = 1 → y.node < 32 → x.gotSlots.contains i = false → Does (.holSlotWindowClose n i) s (fun d => others d ∧
        d.rf R.HOL_CNT_MISSED_COUNT n = min (2 ^ 32 - 1) (s.dev.rf R.HOL_CNT_MISSED_COUNT n + 1) ∧ Tbl.getD 0 (d.seg n).absN y.node = miss ∧
        (bitAt (d.rf R.HOL_ABSENT_V n) y.node = (bitAt (s.dev.rf R.HOL_ABSENT_V n) y.node || decide (s.dev.rf R.HOL_CFG_ABS_N n ≤ miss))) ∧
        (s.dev.rf R.HOL_CFG_ABS_N n ≤ miss → bitAt (s.dev.rf R.HOL_ABSENT_V n) y.node = false → bitAt (d.rf R.HOL_PRESENT_V n) y.node = false))) ∧
      (s.dev.holMaster n = true → y.kind = 1 → x.gotSlots.contains i = true → Does (.holSlotWindowClose n i) s (fun d => others d ∧
        (d.seg n).absN = x.absN ∧ d.rf R.HOL_CNT_MISSED_COUNT n = s.dev.rf R.HOL_CNT_MISSED_COUNT n ∧ d.rf R.HOL_ABSENT_V n = s.dev.rf R.HOL_ABSENT_V n))) ∧
    (ch < 2 → s.dev.chEn n ch = true → s.dev.holMaster n = true →
      (x.dly = none → x.dlyPend = some node →
        (s.dev.arbMay n ch 0 0 = true → Does (.holArbContend n ch) s (fun d => others d ∧ sends d [fr 8 ch node no []] ∧
          d.seg n = { x with dlyPend := none, dly := some (node, s.dev.sendStamp n 8, s.dev.viewNs 0) })) ∧
        (s.dev.arbMay n ch 0 0 = false → same (.holArbContend n ch))) ∧
      (∀ op cl, x.dly = some (node, o, c) → s.dev.arbWindow n ch = some (op, cl) → c < op → Does (.holArbContend n ch) s (fun d => others d ∧
        Tbl.getD 0 (d.seg n).absN node = Tbl.getD 0 x.absN node + 1 ∧ (s.dev.arbMay n ch 0 0 = true → (d.seg n).dly.map Prod.fst = some node))) ∧
      (x.dly = none → x.dlyPend = none → b ∈ x.txq → byteAt b 8 % 2 = ch →
        (∀ z, z ∈ x.txq → byteAt z 8 % 2 = ch → z = b ∨ byteAt b 15 % 8 < byteAt z 15 % 8) →
        let pay := slice b 20 (min 254 (byteAt b 14))
        (s.dev.arbMay n ch (byteAt b 15 % 8) pay.length = true → Does (.holArbContend n ch) s (fun d => others d ∧ sends d [fr 6 ch (byteAt b 15 % 8) no pay] ∧
          d.seg n = { x with txq := x.txq.erase b } ∧ d.rf R.HOL_ARBQ_STAT_TXN n = (x.txq.length - 1) % 32)) ∧
        (s.dev.arbMay n ch (byteAt b 15 % 8) pay.length = false → same (.holArbContend n ch)))) ∧
    (live → x.owed = some (0, i, ch) → (s.dev.holSch n).descs[i]? = some y → fl.2 = false →
      (∀ p new, out.atSync = some (p, new) → new = true ∨ again → Does (.holPollReplyDue n) s (fun d => others d ∧ (d.seg n).owed = none ∧
        sends d [fr 3 ch slot fl p])) ∧
      (out.atSync = none → Does (.holPollReplyDue n) s (fun d => others d ∧ (d.seg n).owed = none ∧ sends d [fr 5 ch slot no []]))) ∧
    (live → x.owed = some (1, ch, o) → Does (.holPollReplyDue n) s (fun d => others d ∧ (d.seg n).owed = none ∧
      sends d [fr 9 ch 0 no (leBytes 4 ((s.dev.sendStamp n 9 - o) * 2 ^ 17) ++ zeros 4)])) ∧
    (x.sub = hsSILENT → Does (.holPollReplyDue n) s (fun d => others d ∧ d.seg n = { x with owed := none } ∧ d.sent = s.dev.sent)) ∧
    (s.dev.holMaster n = true → s.dev.flag R.HOL_CFG_DLYMODE n = false → x.dlyPend = none → x.dly = none → ∀ t, x.dlyNew = node :: t →
      Does (.holDelayMeasure n) s (fun d => others d ∧ d.seg n = { x with dlyPend := some node, dlyNew := t } ∧ { d with hol := s.dev.hol } = s.dev)) ∧
    (st = hsLISTEN → s.dev.holRole n ≠ 0 →
      (s.dev.segWaited n (2 * s.dev.holNbc n * pbc) = true → goes (.holListenTimeout n) (if s.dev.holRole n = 2 then hsCOLDSTART else hsRUN)) ∧
      (s.dev.segWaited n (2 * s.dev.holNbc n * pbc) = false → same (.holListenTimeout n))) ∧
    (st = hsCOLDSTART → x.csLeft = 0 → x.lastB + pbc ≤ s.dev.viewNs 0 → goes (.holColdstartEnd n) hsRUN ∧ Does (.holColdstartEnd n) s (fun d => Raises Ev.HOL_COLDSTART n s.dev d)) ∧
    (st = hsBACKOFF →
      (s.dev.segWaited n ((own + 1) * pbc) = true → goes (.holBackoffEnd n) hsCOLDSTART ∧ Does (.holBackoffEnd n) s (fun d => d.seg n = { x with csLeft := 3 })) ∧
      (s.dev.segWaited n ((own + 1) * pbc) = false → same (.holBackoffEnd n))) ∧
    (s.dev.holSlave n = true → ¬ (s.dev.holRole n = 0 ∧ st = hsLISTEN) →
      (s.dev.segWaited n (3 * pbc) = false → same (.holSyncTimeout n)) ∧
      (s.dev.segWaited n (3 * pbc) = true → goes (.holSyncTimeout n) (if s.dev.holRole n ≠ 0 ∨ x.sub = hsRUN then hsLISTEN else st) ∧ Does (.holSyncTimeout n) s (fun d =>
        (s.dev.holRole n ≠ 0 ∨ x.sub = hsRUN → (d.seg n).sub = hsLISTEN ∧ d.rf R.HOL_STAT_SYNCED n = 0) ∧
        (s.dev.rf R.TIME_VCTL_SRC 0 0 = 3 → s.dev.rf R.TIME_VCTL_SEG 0 0 = n → d.locked 0 = false) ∧
        ∀ z t f, Tbl.get? x.ins i = some z → z.frozen = some (t, f) → ∃ z', Tbl.get? (d.seg n).ins i = some z' ∧ z'.frozen = some (t, { f with safe := true })))) ∧
    (st = hsYIELD → goes (.holRestart n) hsLISTEN) ∧
    (s.dev.holMaster n = true → Does (.holRestore n) s (fun d => others d ∧ d.seg n = { x with nextDeg := 0, chfA := 0, chfB := 0 } ∧
      d.rf R.HOL_STAT_CHF_A n = 0 ∧ d.rf R.HOL_STAT_CHF_B n = 0 ∧ d.rf R.HOL_STAT_DEG_A n = s.dev.rf R.HOL_STAT_DEG_A n)) ∧
    Does (.holClrcnt n) s (fun d => { d with regs := s.dev.regs } = s.dev ∧ d.holState n = st ∧ ∀ f, f ∈ [R.HOL_CNT_EARLY_COUNT, R.HOL_CNT_LATE_COUNT,
      R.HOL_CNT_CRC_COUNT, R.HOL_CNT_NULLTX_COUNT, R.HOL_CNT_FENCE_COUNT, R.HOL_CNT_COLL_COUNT, R.HOL_CNT_SILENCED_COUNT, R.HOL_CNT_MISSED_COUNT] → d.rf f n = 0) ∧
    Does (.arbqPop n) s (fun d => others d ∧ d.seg n = { x with rxq := x.rxq.drop 1 } ∧ d.rf R.HOL_ARBQ_STAT_RXN n = (x.rxq.length - 1) % 64 ∧
      ∀ w, w < 72 → d.rf R.HOL_ARBQ_HEAD_WORD n w = le ((x.rxq.drop 1).headD []) (4 * w) 4) ∧
    (x.txq.length < 16 → Does (.arbqSend n) s (fun d => others d ∧ d.rf R.HOL_ARBQ_STAT_TXN n = x.txq.length + 1 ∧
      d.seg n = { x with txq := x.txq ++ [((List.range 72).map (fun w => leBytes 4 (s.dev.rf R.HOL_ARBQ_TX_WORD n w))).flatten] })) ∧
    (16 ≤ x.txq.length → Does (.arbqSend n) s (fun d => d.rf R.HOL_STAT_TXFULL n = 1 ∧ { d with regs := s.dev.regs } = s.dev))

/-- R289, R293, R295 to R297, R299 to R302, R305, R307, R308, R310, R312, on a segment whose lines carry something: what a received frame does: discarded where it does not fit (a
collision during the three CSTART frames), ignored where its claim is too low, marking a conflict at a master in RUN whose claim is no lower,
fencing a master where it is higher than its own; a valid SYNC gives the offset, the basic cycle and the slave's state, steers view 0 and is the instant at which a slave applies and samples
its data; an OUT, IN or POLL frame completes its buffer; a NULL frame counts as heard; an ARB frame is queued; the delay exchange stores its result. -/
def Obligations.HolupReceiving : Prop :=
  ∀ (s : State) (n arr t i t1 node ns : Nat) (f : HolFrame) (y : HolDesc), n < s.dev.nHol → arr < 2 → s.dev.holCarrier n = true →
    let x := s.dev.seg n
    let st := s.dev.holState n
    let hc := s.dev.rf R.HOL_HCLAIM_V n
    let cl := s.dev.rf R.HOL_CLAIM_V n
    let stamp := s.dev.stampOf n t
    let fits (typ : Nat) : Prop := s.dev.holTakes n f arr typ = true
    let sized (typ : Nat) : Prop := (typ = 1 ∨ typ = 7 → f.payload.length = 16) ∧ (typ = 8 → f.payload = []) ∧ (typ = 10 → f.payload.length = 4) ∧
      (typ = 4 → ∀ z, z ∈ (s.dev.holSch n).descs → z.kind = 3 → z.node = f.slot → z.len = f.payload.length)
    let rx : List (Nat × Instr) := [(1, .holSync n f arr t), (2, .holOut n f arr t), (3, .holIn n f arr t), (4, .holPoll n f arr t), (5, .holNull n f arr t),
      (6, .holArb n f arr t), (7, .holCstart n f arr t), (8, .holDlyReq n f arr t), (9, .holDlyRsp n f arr t), (10, .holDlySet n f arr t)]
    let others (d : Dev) : Prop := (∀ j, j ≠ n → d.seg j = s.dev.seg j ∧ d.holState j = s.dev.holState j) ∧ d.units = s.dev.units
    let plus (g : F) (d : Dev) : Prop := d.rf g n = min (2 ^ 32 - 1) (s.dev.rf g n + 1)
    let quiet (d : Dev) : Prop := { d with regs := s.dev.regs, stamps := s.dev.stamps, lineRel := s.dev.lineRel } = s.dev
    let trying := st = hsCOLDSTART ∧ x.csLeft < 3
    let discarded (i : Instr) : Prop := Does i s (fun d => others d ∧ plus R.HOL_CNT_CRC_COUNT d ∧ (¬ trying → quiet d ∧ d.holState n = st) ∧
      (trying → d.holState n = hsBACKOFF ∧ plus R.HOL_CNT_COLL_COUNT d ∧ d.seg n = { x with since := s.dev.time.cnt }))
    let slave := s.dev.holRole n = 0 ∧ st ≠ hsOFF
    let filled (d : Dev) : Prop := ∃ b, Tbl.get? (d.seg n).ins i = some b ∧ (slave → b.recv = some (stamp, f)) ∧ (¬ slave → b.latest = some (stamp, f) ∧ b.newer = true) ∧
      (d.seg n).gotSlots = x.gotSlots ++ [i] ∧ ∀ j, j ≠ i → Tbl.get? (d.seg n).ins j = Tbl.get? x.ins j
    let master := s.dev.holMaster n = true ∧ s.dev.covered n = false
    let lands (kinds : List Nat) : Prop := (s.dev.holWindow n arr t kinds).1 = some (i, y) ∧ f.slot = s.dev.slotNo n i ∧ x.gotSlots.contains i = false ∧
      (y.kind = 0 → x.master = none ∨ x.master = some f.src) ∧ (y.kind ≠ 0 → f.src = y.node)
    let lat : Int := toS 32 (s.dev.rf R.HOL_ING_LAT_ING_LAT n) + toS 32 (s.dev.rf R.HOL_ASYM_ASYM n) + (s.dev.rf R.HOL_LDLY_DELAY n : Nat)
    let o : Int := s.dev.stampB 0 t - lat * 65536 - (le f.payload 0 8 * 2 ^ 32 + le f.payload 8 4 : Nat)
    let o16 := roundDiv o 65536
    let inb : Prop := 4 * o.natAbs ≤ s.dev.rf R.HOL_TIMING_GUARD n * (10 * 2 ^ 32)
    let steers := s.dev.rf R.TIME_VCTL_SRC 0 0 = 3 ∧ s.dev.rf R.TIME_VCTL_SEG 0 0 = n
    let before := s.dev.holOccurs n ((byteAt f.payload 12 + s.dev.holNbc n - 1) % s.dev.holNbc n) y = true
    let held (p : Nat × HolFrame) : Nat × HolFrame := (p.1, { p.2 with hold := true })
    let synced (P : Dev → Prop) : Prop := Does (.holSync n f arr t) s (fun d => others d ∧ d.rf R.HOL_HCLAIM_V n = f.claim ∧
      d.rf R.HOL_STATE_BC n = byteAt f.payload 12 % 64 ∧ (-(2 ^ 31) ≤ o16 → o16 < 2 ^ 31 → d.rf R.HOL_OFFSET_V n = ofS 32 o16) ∧
      (d.seg n).master = some f.src ∧ (d.seg n).since = s.dev.time.cnt ∧ P d)
    let enters (st' : Nat) (d : Dev) : Prop := d.holState n = st' ∧ (d.seg n).sub = st' ∧ d.rf R.HOL_STAT_SYNCED n = b2n (decide (st' = hsRUN)) ∧
      d.rf R.HOL_STAT_SILENT n = b2n (decide (st' = hsSILENT))
    (st ≠ hsOFF → s.dev.chEn n arr = true → discarded (.holFrameDiscarded n arr) ∧
      ∀ e, e ∈ rx → s.dev.holTakes n f arr e.1 = false → discarded e.2) ∧
    (st ≠ hsOFF → s.dev.chEn n arr = true → ∀ e, e ∈ rx → fits e.1 → e.1 ≠ 4 → ¬ sized e.1 → discarded e.2) ∧
    (f.claim < hc → f.claim < 2 ^ 32 → s.dev.holMaster n = false → s.dev.covered n = false → ∀ e, e ∈ rx → e.1 = 1 ∨ e.1 = 2 ∨ e.1 = 4 ∨ e.1 = 7 →
      fits e.1 → sized e.1 → Does e.2 s (fun d => quiet d ∧ d.rf R.HOL_HCLAIM_V n = hc ∧ d.holState n = st ∧ plus R.HOL_CNT_FENCE_COUNT d)) ∧
    (master → f.claim ≤ cl → ∀ e, e ∈ rx → e.1 ∈ [1, 2, 4, 7, 8, 10] → fits e.1 → sized e.1 → Does e.2 s (fun d => others d ∧ d.holState n = hsRUN ∧
      d.rf R.HOL_STAT_CONFLICT n = 1 ∧ (x.conflictAt = none → Raises Ev.HOL_MASTER_CONFLICT n s.dev d ∧ (d.seg n).conflictAt = some s.dev.time.cnt) ∧
      (∀ t0, x.conflictAt = some t0 → s.dev.time.cnt < t0 + 500000000 → d.evt = s.dev.evt ∧ (d.seg n).conflictAt = x.conflictAt))) ∧
    (master → hc ≤ f.claim → cl < f.claim → f.claim < 2 ^ 32 → ∀ e, e ∈ rx → e.1 = 1 ∨ (e.1 = 2 ∧ lands [0] ∧ y.kind = 0 ∧ f.payload.length = y.len) ∨ e.1 = 4 ∨ e.1 = 7 →
      fits e.1 → sized e.1 → Does e.2 s (fun d => others d ∧ d.holState n = hsFENCED ∧ d.rf R.HOL_STAT_FENCED n = 1 ∧ d.rf R.HOL_HCLAIM_V n = f.claim ∧
        Raises Ev.HOL_FENCED n s.dev d)) ∧
    (master → cl < f.claim → f.claim < 2 ^ 32 → fits 3 → (s.dev.holPoll n = false ∧ lands [1] ∧ y.kind = 1 ∧ f.payload.length = y.len) ∨ (s.dev.holPoll n = true ∧ x.polled = none) →
      Does (.holIn n f arr t) s (fun d => others d ∧ d.holState n = hsFENCED ∧ Raises Ev.HOL_FENCED n s.dev d)) ∧
    (s.dev.holRole n = 1 → st = hsLISTEN → hc ≤ f.claim → f.claim ≤ cl → f.payload.length = 16 → fits 7 → Does (.holCstart n f arr t) s (fun d => others d ∧
      (if s.dev.holPoll n then d.holState n = hsYIELD ∧ d.rf R.HOL_STAT_CONFLICT n = 1 ∧ Raises Ev.HOL_MASTER_CONFLICT n s.dev d
       else d.holState n = hsFOLLOW ∧ (d.seg n).sub = hsLISTEN ∧ (d.seg n).since = s.dev.time.cnt))) ∧
    (slave → hc ≤ f.claim → f.claim < 2 ^ 32 → f.payload.length = 16 → (s.dev.holSch n).sched = 0 ∨ (s.dev.holSch n).sched = le f.payload 14 2 → fits 1 →
      (¬ steers → x.sub = hsLISTEN → synced (fun d => enters hsSYNCING d ∧ d.time = s.dev.time)) ∧
      (¬ steers → x.sub = hsSYNCING → inb → 1 ≤ x.inb → x.ldlyKnown = true → synced (enters hsRUN)) ∧
      (¬ steers → x.sub = hsRUN → ¬ inb → synced (fun d => enters hsSILENT d ∧ plus R.HOL_CNT_SILENCED_COUNT d ∧ Raises Ev.HOL_SILENT n s.dev d)) ∧
      (¬ steers → x.sub = hsSILENT → inb → 1 ≤ x.inb → synced (enters hsRUN)) ∧
      (steers → ¬ inb → s.dev.running = false → s.dev.vstate 0 = 0 →
        synced (fun d => d.view 0 = ((s.dev.view 0 : Int) - o * 2 ^ 8).toNat % 2 ^ 104 ∧ (x.sub ≠ hsRUN → Raises Ev.TIME_STEP 0 s.dev d))) ∧
      (steers → inb → 1 ≤ x.inb → synced (fun d => d.locked 0 = true)) ∧
      ((s.dev.holSch n).descs[i]? = some y → synced (fun d =>
        (y.kind = 1 → y.node = s.dev.holNode n → (s.dev.outBuf n i).fresh = true →
          d.outBuf n i = { s.dev.outBuf n i with fresh := false, atSync := some ((s.dev.outBuf n i).fill, true) }) ∧
        ∀ b, y.kind = 0 → before → Tbl.get? x.ins i = some b → Tbl.get? (d.seg n).ins i = some (match b.recv with
          | some r => { b with latest := some r, newer := true, recv := none }
          | none => { b with latest := b.latest.map held, frozen := b.frozen.map held })))) ∧
    (slave → hc ≤ f.claim → f.claim < 2 ^ 32 → fits 2 → lands [0] → y.kind = 0 → f.payload.length = y.len →
      Does (.holOut n f arr t) s (fun d => others d ∧ filled d ∧ d.rf R.HOL_HCLAIM_V n = f.claim)) ∧
    (st ≠ hsOFF → s.dev.chEn n arr = true → s.dev.holMaster n = false → hc ≤ f.claim → fits 2 → (s.dev.holWindow n arr t [0]).1 = some (i, y) →
      f.payload.length ≠ y.len ∨ (y.kind = 0 ∧ ∃ m, x.master = some m ∧ f.src ≠ m) ∨ f.slot ≠ s.dev.slotNo n i → discarded (.holOut n f arr t)) ∧
    (master → f.claim ≤ cl → s.dev.holPoll n = false → y.kind = 1 → f.src < 32 →
      (fits 3 → lands [1] → f.payload.length = y.len → Does (.holIn n f arr t) s (fun d => others d ∧ filled d ∧ bitAt (d.rf R.HOL_PRESENT_V n) f.src = true ∧
        bitAt (d.rf R.HOL_ABSENT_V n) f.src = false ∧ (bitAt (s.dev.rf R.HOL_ABSENT_V n) f.src = true → Raises Ev.HOL_NODE_BACK n s.dev d))) ∧
      (fits 5 → lands [0, 1] → f.payload = [] → Does (.holNull n f arr t) s (fun d => others d ∧ (d.seg n).ins = x.ins ∧ (d.seg n).gotSlots = x.gotSlots ++ [i] ∧
        bitAt (d.rf R.HOL_PRESENT_V n) f.src = true ∧ Tbl.getD 0 (d.seg n).absN f.src = 0))) ∧
    (master → f.claim ≤ cl → s.dev.holPoll n = false → y.kind = 0 → fits 5 → lands [0, 1] → f.payload = [] → Does (.holNull n f arr t) s (fun d => others d ∧
      (d.seg n).gotSlots = x.gotSlots ++ [i] ∧ d.rf R.HOL_STAT_CONFLICT n = 1)) ∧
    (slave → hc ≤ f.claim → fits 4 → s.dev.holPoll n = true → f.slot = s.dev.holNode n → x.sub = hsSYNCING ∨ x.sub = hsRUN →
      (s.dev.holNow n).find? (fun e => decide (e.2.1.kind = 3) && decide (e.2.1.node = f.slot) && decide (e.2.2.1 = arr) && !x.gotSlots.contains e.1) =
        some (i, y, arr, node) → f.payload.length = y.len → Does (.holPoll n f arr t) s (fun d => others d ∧ filled d ∧ (d.seg n).owed = some (0, i, arr))) ∧
    (2 ≤ f.payload.length → fits 6 → s.dev.holRole n = 0 ∨ f.claim ≤ cl → byteAt f.payload 0 = s.dev.holNode n ∨ byteAt f.payload 0 = 0x3F →
      (x.rxq.length < 32 → Does (.holArb n f arr t) s (fun d => d.units = s.dev.units ∧ d.rf R.HOL_ARBQ_STAT_RXN n = x.rxq.length + 1 ∧ (d.seg n).rxq = x.rxq ++
        [slice (leBytes 8 stamp ++ [BitVec.ofNat 8 f.ch, 0, 0, 0] ++ f.header ++ f.payload) 0 288])) ∧
      (32 ≤ x.rxq.length → Does (.holArb n f arr t) s (fun d => others d ∧ d.rf R.HOL_STAT_RXOVF n = 1 ∧ (d.seg n).rxq = x.rxq))) ∧
    (slave → f.slot = s.dev.holNode n →
      (f.payload = [] → fits 8 → x.sub = hsSYNCING ∨ x.sub = hsRUN → Does (.holDlyReq n f arr t) s (fun d => others d ∧
        { d with hol := s.dev.hol, stamps := s.dev.stamps, lineRel := s.dev.lineRel } = s.dev ∧ d.seg n = { x with owed := some (1, arr, stamp) })) ∧
      (f.payload.length = 4 → fits 10 → s.dev.flag R.HOL_CFG_DLYMODE n = false → Does (.holDlySet n f arr t) s (fun d => others d ∧
        d.rf R.HOL_LDLY_DELAY n = le f.payload 0 4 ∧ d.seg n = { x with ldlyKnown := true }))) ∧
    (master → f.claim ≤ cl → x.dly = some (node, t1, ns) → f.src = node → node < 32 → f.payload.length = 8 → fits 9 →
      let dn := ((((stamp : Int) - t1) * 2 ^ 17 - (le f.payload 0 4 : Nat)) / 2).toNat
      Does (.holDlyRsp n f arr t) s (fun d => others d ∧ d.rf R.HOL_NODE_DLY_DELAY n node = dn % 2 ^ 32 ∧ (d.seg n).dly = none ∧
        ∃ g, d.sent = s.dev.sent ++ [.hol n g g.line] ∧ g.typ = 10 ∧ g.slot = node ∧ g.ch = arr ∧ g.payload = leBytes 4 dn))

/-! ### CAN controllers (R313 to R331) -/

/-- R316 to R331: a received frame goes where the first matching filter says, or where NOMATCH says, and a full queue loses one; in time-triggered mode a frame of
an exclusive window outside it is discarded and counted by its nearest window; references set the mark and the state; windows, starts with the fill that the window or the start found, ends, errors
(the counters' steps are ISO 11898-1's, log entry 129) and time-outs of transmission; bus-off
and its end; REQ, CANCEL, POP, RECOVER, CLRCNT and TSCAP. Among the buffers that may start the lowest arbitration value starts, then the lowest number. -/
def Obligations.CanCommands : Prop :=
  ∀ (s : State) (c i b q sof m t fill : Nat) (f : CanFrame) (w : CanWin) (e : CanErr) (excl : Bool), c < s.dev.nCan → b < 64 →
    let k := s.dev.can_ c
    let others (d : Dev) : Prop := (∀ j, j ≠ c → d.can_ j = s.dev.can_ j) ∧ d.units = s.dev.units ∧ d.hol = s.dev.hol
    let live := s.dev.canOn c = true ∧ s.dev.busOff c = false
    let hears := live ∧ s.dev.canCarrier = true
    let role := s.dev.canRole c
    let tt := s.dev.ttState c
    let entry (flt : Nat) : List Byte := leBytes 4 (sof / 50 % 2 ^ 32) ++ leBytes 4 f.idWord ++ [BitVec.ofNat 8 f.dlcByte, BitVec.ofNat 8 flt,
      BitVec.ofNat 8 f.data.length, 0] ++ slice f.data 0 64 ++ zeros 4
    let queue (d : Dev) : List (List Byte) := if q = 0 then (d.can_ c).q0 else (d.can_ c).q1
    let held := queue s.dev
    let plus (g : F) (d : Dev) : Prop := d.rf g c = min (2 ^ 32 - 1) (s.dev.rf g c + 1)
    let find := (List.range 128).find? (s.dev.fltMatch c f)
    let act := s.dev.rf R.CAN_FLT_ID_ACTION c i
    let buf := s.dev.rf R.CAN_FLT_CFG_BUF c i
    let mark := s.dev.stampNs sof
    let off : Int := (mark : Int) - (m + s.dev.canPbc c : Nat)
    let pend (d : Dev) (b : Nat) : Bool := d.flag R.CAN_TXB_CTL_PEND c b
    let x := s.dev.txbSt c b
    let starts (b : Nat) (f : CanFrame) (fill : Nat) (excl : Bool) : Prop := Does (.canTxStart c) s (fun d => others d ∧ (d.can_ c).cur = some (b, f, s.dev.time.cnt, excl) ∧
      (b < 64 → (d.txbSt c b).sent = fill))
    let passes := role = 0 ∨ k.mark = none ∨ (∀ z, z ∈ s.dev.canWins c → z.expects f = false) ∨ ∃ m' z, k.mark = some m' ∧ z ∈ s.dev.canNow c ∧ z.2.expects f = true ∧
      2 * ((mark : Int) - (m' + z.2.offset * 100 : Nat)).natAbs ≤ s.dev.canG c
    let waits := pend s.dev b = true ∨ k.wait.map Prod.fst = some b ∨ ∃ g, (b, g) ∈ s.dev.offers c
    let dTec := if e.tx = false then 0 else (if (e.lec = 3 ∧ s.dev.rf R.CAN_ERR_FCS c = 1 ∧ e.dom = false) ∨ (e.lec = 1 ∧ e.stuffArb = true) then 0 else 8) + 8 * e.extra
    let dRec := if e.tx = true then 0 else 1 + (if e.dom then 8 else 0) + 8 * e.extra
    let idle := live ∧ s.dev.flag R.CAN_CFG_MON c = false ∧ s.dev.flag R.CAN_CFG_RESTR c = false ∧ k.cur = none
    (hears → f.ok = true → (f.fdf = false ∨ s.dev.flag R.CAN_CFG_FDEN c = true) → passes →
      (find = some i → act ≠ 3 → q = act - 1 → held.length < 64 → Does (.canFrameReceived c f sof) s (fun d => others d ∧ queue d = held ++ [entry i] ∧
        d.rf R.CAN_RXQ_STAT_HELD c q = held.length + 1)) ∧
      (find = some i → act ≠ 3 → q = act - 1 → 64 ≤ held.length → Does (.canFrameReceived c f sof) s (fun d => others d ∧
        queue d = (if s.dev.flag (if q = 0 then R.CAN_CFG_OVWR0 else R.CAN_CFG_OVWR1) c then held.drop 1 ++ [entry i] else held) ∧
        d.rf (if q = 0 then R.CAN_STAT_RXOVF0 else R.CAN_STAT_RXOVF1) c = 1 ∧ plus (if q = 0 then R.CAN_CNT_LOST0_COUNT else R.CAN_CNT_LOST1_COUNT) d)) ∧
      (find = some i → act = 3 → s.dev.rf R.CAN_RXB_CTL_CAD c buf = 0 → Does (.canFrameReceived c f sof) s (fun d => others d ∧
        d.rf R.CAN_RXB_CTL_ND c buf = 1 ∧ (s.dev.rf R.CAN_RXB_CTL_ND c buf = 1 → d.rf R.CAN_RXB_CTL_OVW c buf = 1) ∧
        d.rf R.CAN_RXB_STAMP_STAMP c buf = sof / 50 % 2 ^ 32 ∧ d.rf R.CAN_RXB_ID_ID c buf = f.idWord % 2 ^ 32 ∧
        ∀ w, w < 16 → d.rf R.CAN_RXB_DATA_DATA c buf w = le (slice f.data 0 64) (4 * w) 4)) ∧
      (find = some i → act = 3 → s.dev.rf R.CAN_RXB_CTL_CAD c buf ≠ 0 → Does (.canFrameReceived c f sof) s (fun d => others d ∧
        ∃ y, Tbl.get? (d.can_ c).rxb buf = some y ∧ y.latest = some (entry i) ∧ y.newer = true)) ∧
      (find = none → s.dev.rf R.CAN_CFG_NOMATCH c = 0 → Does (.canFrameReceived c f sof) s (fun d => others d ∧ plus R.CAN_CNT_RXREJ_COUNT d ∧
        (d.can_ c).q0 = k.q0 ∧ (d.can_ c).q1 = k.q1))) ∧
    (hears → f.ok = true → (f.fdf = false ∨ s.dev.flag R.CAN_CFG_FDEN c = true) → ¬ passes → k.mark = some m →
      Does (.canFrameReceived c f sof) s (fun d => others d ∧
        plus (if ∃ z, s.dev.nearWin c m f mark = some z ∧ z < 0 then R.CAN_CNT_EARLY_COUNT else R.CAN_CNT_LATE_COUNT) d ∧ (d.can_ c).q0 = k.q0 ∧
        (d.can_ c).q1 = k.q1 ∧ (d.can_ c).rxb = k.rxb)) ∧
    (hears → f.ok = true → role ≠ 0 → s.dev.isRef c f = true → Does (.canReferenceReceived c f sof) s (fun d => others d ∧
      (d.can_ c).mark = some mark ∧ (d.can_ c).win = none ∧ (d.can_ c).refPend = false ∧ d.rf R.CAN_TT_STATE_BC c = byteAt f.data 0 ∧ d.rf R.CAN_TT_STATE_MPRIO c = f.id / 2 ^ 18 % 8 ∧
      (role = 2 → d.ttState c = ttBACKUP) ∧ (role = 1 → k.mark = none → tt = ttLISTEN → d.ttState c = ttRUN) ∧
      (role = 1 → k.mark = some m → d.rf R.CAN_TT_OFFSET_OFFSET c = ofS 32 off ∧
        ((s.dev.canG c : Int) < 4 * off.natAbs → d.ttState c = ttSILENT) ∧
        ((4 * off.natAbs : Int) ≤ s.dev.canG c → tt = ttSILENT → 1 ≤ k.good → d.ttState c = ttRUN ∧ d.rf R.CAN_STAT_SILENT c = 0)))) ∧
    (s.dev.canOn c = true → role = 2 →
      (tt = ttMASTER → s.dev.newStart c = true → Does (.canReferenceDue c) s (fun d => others d ∧ d.can_ c = { k with refPend := true } ∧ d.regs = s.dev.regs)) ∧
      (tt = ttBACKUP ∨ tt = ttLISTEN → s.dev.backupTime c = true → Does (.canBackupDue c) s (fun d => others d ∧ d.can_ c = { k with refPend := true } ∧ d.regs = s.dev.regs))) ∧
    (s.dev.canOn c = true → role = 1 → k.mark = some m → m + s.dev.canPbc c + s.dev.canG c / 2 ≤ s.dev.viewNs 0 → Does (.canReferenceTimeout c) s (fun d => others d ∧
      d.can_ c = { k with mark := none, win := none, wait := none, good := 0 } ∧ d.ttState c = (if tt = ttSILENT then ttSILENT else ttLISTEN))) ∧
    (s.dev.canOn c = true → s.dev.ttSends c = true → (s.dev.canNow c).find? (fun y => decide (y.1 = i)) = some (i, w) → i ∉ k.opened → k.mark = some m →
      m + w.offset * 100 ≤ s.dev.viewNs 0 → Does (.canWindowStart c i) s (fun d =>
      others d ∧ d.regs = s.dev.regs ∧ (d.can_ c).win = some i ∧ (d.can_ c).opened = k.opened ++ [i] ∧ (d.can_ c).wait = (w.buf.bind (fun b => if w.excl && s.dev.txReady c b then some (b, s.dev.txFrame c b, (s.dev.txbSt c b).fills) else none)))) ∧
    (i ∈ k.opened → Does (.canWindowStart c i) s (fun d => d = s.dev)) ∧
    (k.wait.isSome = true → k.win = some i → (s.dev.canWins c)[i]? = some w → k.mark = some m →
      (m + w.offset * 100 + s.dev.canG c / 2 < s.dev.viewNs 0 →
        Does (.canTxmiss c) s (fun d => others d ∧ d.can_ c = { k with wait := none } ∧ plus R.CAN_CNT_TXMISS_COUNT d)) ∧
      (s.dev.viewNs 0 ≤ m + w.offset * 100 + s.dev.canG c / 2 → Does (.canTxmiss c) s (fun d => d = s.dev))) ∧
    (idle →
      (k.refPend = true → starts 64 (s.dev.refFrame c) 0 false) ∧
      (k.refPend = false → k.wait = some (b, f, fill) → s.dev.sofLate c = false → starts b f fill true) ∧
      (k.refPend = false → k.wait = none → role = 0 → pend s.dev b = true → ∃ y, y < 64 ∧ pend s.dev y = true ∧ starts y (s.dev.txFrame c y) (s.dev.txbSt c y).fills false ∧
        ∀ z, z < 64 → pend s.dev z = true → (s.dev.txFrame c y).arb < (s.dev.txFrame c z).arb ∨
          ((s.dev.txFrame c y).arb = (s.dev.txFrame c z).arb ∧ y ≤ z)) ∧
      (k.refPend = false → k.wait = none → s.dev.offers c ≠ [] → ∃ y, y ∈ s.dev.offers c ∧ starts y.1 y.2 (s.dev.txbSt c y.1).fills false ∧
        ∀ z, z ∈ s.dev.offers c → y.2.arb < z.2.arb ∨ (y.2.arb = z.2.arb ∧ y.1 ≤ z.1))) ∧
    (k.cur = some (b, f, t, excl) →
      Does (.canArbitrationLost c) s (fun d => others d ∧ (d.can_ c).cur = none ∧ pend d b = (pend s.dev b && !x.cancelHeld && !excl) ∧
        (x.cancelHeld = true → d.rf R.CAN_TXB_CTL_CANCELLED c b = 1) ∧ (x.cancelHeld = false → excl = false → (d.txbSt c b).sent = x.fills - 1)) ∧
      (s.dev.canCarrier = true → Does (.canTxComplete c) s (fun d => others d ∧ (d.can_ c).cur = none ∧ (d.can_ c).ack = 0 ∧ (d.can_ c).tec = k.tec - 1 ∧ d.sent = s.dev.sent ++ [.can c f] ∧
        d.rf R.CAN_TXB_CTL_TXOK c b = 1 ∧ (x.cancelHeld = true → d.rf R.CAN_TXB_CTL_CANCEL_LATE c b = 1) ∧ d.rf R.CAN_STAT_LONE c = 0 ∧
        pend d b = (x.fresh && decide (role = 0))))) ∧
    (k.cur = some (64, f, t, excl) →
      Does (.canArbitrationLost c) s (fun d => others d ∧ d.can_ c = { k with cur := none } ∧ d.regs = s.dev.regs) ∧
      (s.dev.canCarrier = true → Does (.canTxComplete c) s (fun d => others d ∧ (d.can_ c).mark = some (s.dev.stampNs t) ∧ (d.can_ c).refPend = false ∧ d.ttState c = ttMASTER ∧
        d.rf R.CAN_TT_STATE_BC c = byteAt f.data 0 % 64 ∧ d.rf R.CAN_TT_STATE_MPRIO c = s.dev.rf R.CAN_TT_TIMING_PRIO c ∧ d.sent = s.dev.sent ++ [.can c f]))) ∧
    (live → e.lec < 7 →
      (e.pex = true → s.dev.flag R.CAN_CFG_PXHD c = false → Does (.canError c e) s (fun d => d.rf R.CAN_STAT_PEX c = 1 ∧ { d with regs := s.dev.regs } = s.dev)) ∧
      (e.pex = false ∨ s.dev.flag R.CAN_CFG_PXHD c = true → Does (.canError c e) s (fun d => others d ∧ d.rf R.CAN_ERR_LEC c = (if e.pex then 2 else e.lec) ∧
        (d.can_ c).tec = k.tec + dTec ∧ (d.can_ c).rxerr = k.rxerr + dRec ∧ d.rf R.CAN_ERR_TEC c = min 255 (k.tec + dTec) ∧ (e.tx = true → (d.can_ c).cur = none) ∧
        d.rf R.CAN_ERR_FCS c = (if 256 ≤ k.tec + dTec then 2 else if 128 ≤ k.tec + dTec ∨ 128 ≤ k.rxerr + dRec then 1 else 0) ∧
        (e.tx = true → e.lec = 3 → (d.can_ c).ack = k.ack + 1 ∧ (k.ack = 15 → d.rf R.CAN_STAT_LONE c = 1))))) ∧
    (s.dev.busOff c = true →
      (k.recov = true → Does (.canBusoffRecovery c) s (fun d => others d ∧ d.rf R.CAN_ERR_FCS c = 0 ∧ d.rf R.CAN_ERR_TEC c = 0 ∧
        d.can_ c = { k with tec := 0, rxerr := 0, recov := false } ∧ Raises Ev.CAN_ACTIVE c s.dev d)) ∧
      Does (.canRecover c) s (fun d => others d ∧ d.can_ c = { k with recov := true } ∧ d.regs = s.dev.regs)) ∧
    (s.dev.rf R.CAN_TXB_CTL_KIND c b = 2 → Does (.canReq c b) s (fun d => others d ∧ pend d b = true ∧ d.txbSt c b = { x with cancelHeld := false })) ∧
    (k.cur.map Prod.fst = some b → Does (.canCancel c b) s (fun d => others d ∧ d.regs = s.dev.regs ∧ d.txbSt c b = { x with cancelHeld := true })) ∧
    (k.cur.map Prod.fst ≠ some b →
      (waits → Does (.canCancel c b) s (fun d => others d ∧ pend d b = false ∧ d.rf R.CAN_TXB_CTL_CANCELLED c b = 1 ∧ (d.can_ c).wait.map Prod.fst ≠ some b ∧
        (d.txbSt c b).fresh = false)) ∧
      (¬ waits → Does (.canCancel c b) s (fun d => d = s.dev))) ∧
    (q < 2 → Does (.rxqPop c q) s (fun d => others d ∧ queue d = held.drop 1 ∧ d.rf R.CAN_RXQ_STAT_HELD c q = (held.length - 1) % 128 ∧
      ∀ w, w < 20 → d.rf R.CAN_RXQ_HEAD_WORD c q w = le ((held.drop 1).headD []) (4 * w) 4)) ∧
    Does (.canClrcnt c) s (fun d => { d with regs := s.dev.regs } = s.dev ∧ ∀ g, g ∈ [R.CAN_CNT_EARLY_COUNT, R.CAN_CNT_LATE_COUNT, R.CAN_CNT_RXREJ_COUNT,
      R.CAN_CNT_TXMISS_COUNT, R.CAN_CNT_LOST0_COUNT, R.CAN_CNT_LOST1_COUNT] → d.rf g c = 0) ∧
    Does (.tscap c) s (fun d => { d with regs := s.dev.regs } = s.dev ∧ d.rf R.CAN_TSCAP_CNT_V c = s.dev.time.cnt / 50 % 2 ^ 32 ∧
      d.rf R.CAN_TSCAP_NS_LO_V c + 2 ^ 32 * d.rf R.CAN_TSCAP_NS_HI_V c = s.dev.viewNs 1 ∧ d.rf R.CAN_TSCAP_FRAC_V c = s.dev.viewFrac 1 ∧
      d.rf R.CAN_TSCAP_CTL_DONE c = 1)

/-! ### Plant network and PTP (R332 to R344) -/

/-- R332 to R342: the link's changes, what a received frame does (errors and over-long frames counted, duplicates of a PRP pair discarded, a frame of the wrong LAN and one of an
untracked source counted, cyclic buffers
filled, PAUSE), the end of a frame, the gate list's swap at a cycle start, the frame that starts (highest open queue, first in order, only if its gate stays open), is held, or is longer than every opening,
supervision frames, a lost path, a changed module. -/
def Obligations.NetworkPorts : Prop :=
  ∀ (s : State) (n i am q : Nat) (b pay : List Byte) (y : EthTx) (e : IoEntry) (z : PrpSrc) (ip : Bool) (mac vlan et addr port : Nat) (fs : List FieldEl) (ok up fault : Bool),
    n < s.dev.nPorts →
    let x := s.dev.port n
    let ev := n / 2 * 2
    let others (d : Dev) : Prop := d.units = s.dev.units ∧ d.can = s.dev.can ∧ ∀ j, j ≠ n → j ≠ ev → j ≠ ev + 1 → d.port j = s.dev.port j
    let plus (g : F) (d : Dev) : Prop := d.rf g n = min (2 ^ 32 - 1) (s.dev.rf g n + 1)
    let more (k : Nat) : Nat := min (2 ^ 32 - 1) (k + 1)
    let on := s.dev.ethOn n = true ∧ s.dev.flag R.ETH_STAT_LINK n = true
    let good := ok = true ∧ b.length + 4 ≤ s.dev.rf R.ETH_MTU_MTU n + (if s.dev.prp n then 28 else 22) ∧ 14 ≤ b.length
    let l := b.length
    let start := (s.dev.viewNs 0 - s.dev.rf R.ETH_GCL_PHASE_PHASE n * 10) / max 1 (s.dev.rf R.ETH_GCL_CYC_CYC n * 10) * max 1 (s.dev.rf R.ETH_GCL_CYC_CYC n * 10) +
      s.dev.rf R.ETH_GCL_PHASE_PHASE n * 10
    let w := s.dev.wireTime n y.bytes.length
    let ready := on ∧ x.sending = none ∧ x.swapAt = none ∧ s.dev.flag R.ETH_CFG_PAUSE n = false
    let half := 4 * s.dev.time.cnt - s.dev.byteHalves n (y.bytes.length + 4)
    let leaves : List Byte := match y.ptp with | none => y.bytes | some p => s.dev.ptpFrame n (p.stamped (s.dev.ptpTx n (half + p.sub)))
    let live := (z.seqs.filter (fun p => decide (s.dev.time.cnt < p.2 + 200000000))).take 128
    let trailed := s.dev.prp n = true ∧ etOf b ≠ 0x88FB ∧ be b (l - 2) 2 = 0x88FB
    let lanOk := be b (l - 4) 2 / 4096 = 0xA + n % 2
    let both := n = ev ∧ live.contains (be b (l - 6) 2, s.dev.time.cnt) = true
    let lost := if n % 2 = 0 then R.ETH_PRP_STAT_PATHA_LOST else R.ETH_PRP_STAT_PATHB_LOST
    let other := if n % 2 = 0 then n + 1 else n - 1
    (s.dev.flag R.ETH_STAT_LINK n ≠ up → Does (.ethLinkChange n up) s (fun d => others d ∧ d.rf R.ETH_STAT_LINK n = b2n up ∧ d.rf R.ETH_STAT_LINKCHG n = 1 ∧
      Raises Ev.ETH_LINK n s.dev d ∧ (up = false → (d.port n).queues = x.queues ∧ (d.port n).sending = none ∧ (x.sending.isSome = true → (d.port n).txErr = more x.txErr)))) ∧
    (on →
      (¬ good → Does (.ethFrameReceived n b ok) s (fun d => plus R.ETH_CNT_RXERR_COUNT d ∧ { d with regs := s.dev.regs } = s.dev)) ∧
      (good → s.dev.prp n = false → etOf b ≠ 0x8808 → s.dev.cfg.io[i]? = some e → e.body = .ethRx n am false ip mac vlan et addr port fs →
        rxMatch b ip mac vlan et addr port = some pay → Does (.ethFrameReceived n b ok) s (fun d => others d ∧ plus R.ETH_CNT_RXOK_COUNT d ∧
          (s.dev.rxBuf i).frozen = (d.rxBuf i).frozen ∧ (d.rxBuf i).latest = some (stampA (s.dev.ethMode n) (4 * s.dev.time.cnt - s.dev.byteHalves n (l + 4)), pay) ∧ (d.rxBuf i).newer = true)) ∧
      (good → s.dev.prp n = false → etOf b = 0x8808 → s.dev.flag R.ETH_CFG_PAUSE n = true → be (payOf b) 0 2 = 1 → Does (.ethFrameReceived n b ok) s (fun d =>
        others d ∧ (d.port n).queues = x.queues ∧ s.dev.time.cnt ≤ (d.port n).pauseUntil ∧ d.ethRx = s.dev.ethRx)) ∧
      (good → trailed → ¬ lanOk → Does (.ethFrameReceived n b ok) s (fun d => others d ∧ plus R.ETH_PRP_CNT_WRONGLAN_COUNT d)) ∧
      (good → trailed → lanOk → (∀ y, y ∈ (s.dev.port ev).srcs → y.mac ≠ be b 6 6) →
        ((s.dev.prpSrcs n).length < 512 → Does (.ethFrameReceived n b ok) s (fun d => others d ∧
          (d.port ev).srcs = s.dev.prpSrcs n ++ [{ mac := be b 6 6, seqs := [(be b (l - 6) 2, s.dev.time.cnt)] }])) ∧
        (512 ≤ (s.dev.prpSrcs n).length → Does (.ethFrameReceived n b ok) s (fun d => others d ∧ plus R.ETH_PRP_CNT_NOTRACK_COUNT d))) ∧
      (good → trailed → lanOk → (s.dev.port ev).srcs.find? (fun x => decide (x.mac = be b 6 6)) = some z →
        live.any (fun p => decide (p.1 = be b (l - 6) 2)) = true → Does (.ethFrameReceived n b ok) s (fun d => others d ∧ d.ethRx = s.dev.ethRx ∧
          (¬ both → plus R.ETH_PRP_CNT_DUP_COUNT d) ∧ (both → d.rf R.ETH_PRP_CNT_DUP_COUNT (n + 1) =
            min (2 ^ 32 - 1) (s.dev.rf R.ETH_PRP_CNT_DUP_COUNT (n + 1) + 1)) ∧ d.rf lost ev = 0))) ∧
    (x.sending = some y → Does (.ethFrameSent n) s (fun d => others d ∧ d.sent = s.dev.sent ++ [.eth n y.queue leaves] ∧ plus R.ETH_CNT_TXOK_COUNT d ∧
      (Tbl.getD (0, 0) d.stamps n).2 = stampA (s.dev.ethMode n) half)) ∧
    (s.dev.gateOk n (s.dev.gateList n false) = true → Does (.ethSwap n) s (fun d => d.rf R.ETH_GCL_CTL_PENDING n = 1 ∧ others d ∧
      d.port n = { x with swapAt := some x.chg })) ∧
    (s.dev.gateOk n (s.dev.gateList n false) = false → Does (.ethSwap n) s (fun d => d.rf R.ETH_GCL_CTL_REFUSED n = 1 ∧ { d with regs := s.dev.regs } = s.dev)) ∧
    (x.swapAt = some q → s.dev.viewNs 0 < start + 3 → q ≤ start → Does (.ethGateChange n) s (fun d => others d ∧ d.gateList n true = s.dev.gateList n false ∧
      (d.port n).swapAt = none ∧ d.rf R.ETH_GCL_CTL_PENDING n = 0 ∧ (d.port n).operCyc = s.dev.rf R.ETH_GCL_CYC_CYC n ∧
      (d.port n).operPhase = s.dev.rf R.ETH_GCL_PHASE_PHASE n)) ∧
    (ready → y.queue < 8 →
      (s.dev.flag R.ETH_GCL_CTL_EN n = false → x.queues.find? (fun z => decide (z.queue = y.queue)) = some y → (∀ z, z ∈ x.queues → z.queue ≤ y.queue) →
        Does (.ethGateChange n) s (fun d => others d ∧ d.port n = { x with queues := x.queues.erase y, sending := some y } ∧ d.regs = s.dev.regs)) ∧
      (s.dev.gateOpen n y.queue = none → x.queues = [y] → Does (.ethGateChange n) s (fun d => others d ∧ (d.port n).queues = [] ∧ (d.port n).sending = some y)) ∧
      (∀ t, s.dev.gateOpen n y.queue = some t → x.queues = [y] → fitsOpen w (gateMax y.queue (s.dev.gateList n true)) = true →
        (w ≤ t * 10 → Does (.ethGateChange n) s (fun d => others d ∧ (d.port n).queues = [] ∧ (d.port n).sending = some y)) ∧
        (t * 10 < w → 0 < t → y.held = false → Does (.ethGateChange n) s (fun d => others d ∧ (d.port n).gateHold = more x.gateHold ∧ (d.port n).sending = none ∧
          (d.port n).queues = [{ y with held := true }]))) ∧
      (s.dev.flag R.ETH_GCL_CTL_EN n = true → x.queues = [y] → fitsOpen w (gateMax y.queue (s.dev.gateList n true)) = false →
        Does (.ethGateChange n) s (fun d => others d ∧ (d.port n).queues = [] ∧ (d.port n).sending = none ∧ (d.port n).txErr = more x.txErr))) ∧
    (n % 2 = 0 → s.dev.prp n = true → s.dev.ethOn n = true → s.dev.ethOn (n + 1) = true → s.dev.flag R.ETH_STAT_LINK n = false →
      s.dev.flag R.ETH_STAT_LINK (n + 1) = false → s.dev.flag R.ETH_GCL_CTL_EN n = false → s.dev.flag R.ETH_GCL_CTL_EN (n + 1) = false → Does (.prpSupervisionDue (n / 2)) s (fun d => others d ∧ ∃ f, etOf f = 0x88FB ∧
        (d.port n).queues = x.queues ++ [{ queue := s.dev.mgmtQ n, bytes := f }] ∧ (d.port n).supSeq = (x.supSeq + 1) % 65536 ∧
        (d.port (n + 1)).queues = (s.dev.port (n + 1)).queues ++ [{ queue := s.dev.mgmtQ (n + 1), bytes := f }])) ∧
    (s.dev.prp n = true → x.lastTracked + 3000000000 ≤ s.dev.time.cnt → s.dev.time.cnt < (s.dev.port other).lastTracked + 3000000000 → s.dev.flag lost ev = false →
      Does (.prpPathTimeout n) s (fun d => d.rf lost ev = 1 ∧ d.eth = s.dev.eth ∧ Raises Ev.ETH_PATH_LOST n s.dev d)) ∧
    Does (.ethModuleChange n up fault b) s (fun d => others d ∧ d.rf R.ETH_STAT_MODABS n = b2n (!up) ∧ d.rf R.ETH_STAT_TXFAULT n = b2n fault ∧
      d.port n = { x with moduleId := if up then b else [] })

/-- R97, R102, R104, R343, R344: a Sync on the SLAVE port gives the offset from the master, which declares or ends the lock of view 1 and never steps it within bounds;
Follow_Up completes a two-step Sync; Delay_Resp and Pdelay_Resp give the path delay; a master answers Delay_Req; Announce and its time-out settle the port's state; the
messages a port sends by its state, an event message stamped as it leaves; no Sync for 3 s ends the lock. The servo's correction by rate is free (log entry 2); the messages' layout is IEEE 1588's (PRESUMED,
log entry 19). -/
def Obligations.PtpMessages : Prop :=
  ∀ (s : State) (n t : Nat) (m : List Byte) (t1 t2 t3 c : Int) (y : EthTx) (p : PtpTx), n < s.dev.nPorts → s.dev.ethOn n = true → s.dev.flag R.ETH_PTP_PORT_EN n = true →
    let x := s.dev.port n
    let up := s.dev.rst.coresUp = true
    let mine := byteAt m 4 = s.dev.net.domain ∧ up
    let typ := ptpType m
    let st := s.dev.ptpState n
    let rx : Int := s.dev.stampB 1 t - (toS 32 (s.dev.rf R.ETH_ING_LAT_ING_LAT n) + toS 32 (s.dev.rf R.ETH_ASYM_ASYM n)) * 65536
    let tx : Int := s.dev.stampB 1 (4 * s.dev.time.cnt - s.dev.byteHalves n (y.bytes.length + 4) + p.sub) + toS 32 (s.dev.rf R.ETH_EGR_LAT_EGR_LAT n) * 65536
    let o := rx - ptpTime m - ptpCorr m - x.pathDelay
    let src := s.dev.rf R.TIME_VCTL_SRC 0 1
    let rest (d : Dev) : Prop := d.units = s.dev.units ∧ ∀ j, j ≠ n → d.port j = s.dev.port j ∨ d.ptpState j ≠ s.dev.ptpState j
    let sync (P : Dev → Prop) : Prop := Does (.ptpEventReceived n m t) s (fun d => d.units = s.dev.units ∧
      (d.port n).sync = some (ptpTime m + ptpCorr m, rx) ∧ (d.port n).pendSync = none ∧ P d)
    let queued (typ seq : Nat) (d : Dev) : Prop := ∃ y, (d.port n).queues = x.queues ++ [y] ∧ y.queue = (if typ < 8 then s.dev.ptpQ n else s.dev.mgmtQ n) ∧
      etOf y.bytes = 0x88F7 ∧ ptpType (payOf y.bytes) = typ ∧ ptpSeq (payOf y.bytes) = seq % 65536
    let busy := x.sending.isSome = true ∧ s.dev.net.l2 = true ∧ s.dev.flag R.ETH_GCL_CTL_EN n = false
    let only := (List.range s.dev.nPorts).filter (fun n => s.dev.ethOn n && s.dev.flag R.ETH_PTP_PORT_EN n) = [n]
    let alone := if s.dev.net.gmCap then psMASTER else psLISTENING
    (mine → typ = 0 → ptpTwoStep m = false →
      (st ≠ psSLAVE → sync (fun d => d.time = s.dev.time)) ∧
      (st = psSLAVE → src ≠ 1 → sync (fun d => d.time = { s.dev.time with
        good1 := if o.natAbs < 1000 * 2 ^ 32 then s.dev.time.good1 + 1 else 0, bad1 := if 10000 * 2 ^ 32 < o.natAbs then s.dev.time.bad1 + 1 else 0 })) ∧
      (st = psSLAVE → src = 1 → o.natAbs < 1000 * 2 ^ 32 → 15 ≤ s.dev.time.good1 → sync (fun d => d.locked 1 = true ∧
        (d.vw 1).base = (s.dev.vw 1).base ∧ (d.vw 1).inc = (s.dev.vw 1).inc)) ∧
      (st = psSLAVE → src = 1 → 10000 * 2 ^ 32 < o.natAbs → 3 ≤ s.dev.time.bad1 → sync (fun d => d.locked 1 = false))) ∧
    (mine → typ = 0 → ptpTwoStep m = true → Does (.ptpEventReceived n m t) s (fun d => d.port n = { x with pendSync := some (ptpSeq m, rx, ptpCorr m) } ∧
      d.time = s.dev.time ∧ rest d)) ∧
    (mine → typ = 1 → st = psMASTER → busy → Does (.ptpEventReceived n m t) s (fun d => queued 9 (ptpSeq m) d ∧ rest d)) ∧
    (mine → typ = 2 → busy → Does (.ptpEventReceived n m t) s (fun d => queued 3 (ptpSeq m) d ∧ rest d)) ∧
    (mine → typ = 3 → ptpTwoStep m = false → x.pdT1 = some (ptpSeq m, t1) → Does (.ptpEventReceived n m t) s (fun d => rest d ∧
      d.port n = { x with pdT1 := none, pathDelay := (rx - t1 - ptpCorr m) / 2 })) ∧
    (mine → typ = 8 → x.pendSync = some (ptpSeq m, t2, c) → Does (.ptpGeneralReceived n m) s (fun d => d.units = s.dev.units ∧
      (d.port n).sync = some (ptpTime m + (c + ptpCorr m), t2) ∧ (d.port n).pendSync = none ∧ (st ≠ psSLAVE → d.time = s.dev.time))) ∧
    (mine → typ = 9 → x.dlyT3 = some (ptpSeq m, t3) → x.sync = some (t1, t2) → Does (.ptpGeneralReceived n m) s (fun d => rest d ∧
      d.port n = { x with dlyT3 := none, pathDelay := ((t2 - t1) + (ptpTime m - ptpCorr m - t3)) / 2 })) ∧
    (mine → typ = 11 → only → Does (.ptpGeneralReceived n m) s (fun d => d.units = s.dev.units ∧ (d.port n).announce = some m ∧
      d.ptpState n = (if annRank m < s.dev.ownRank ∨ s.dev.net.gmCap = false then psSLAVE else psMASTER) ∧
      (st ≠ psSLAVE → annRank m < s.dev.ownRank → Raises Ev.PTP_PORT n s.dev d ∧ d.time.good1 = 0))) ∧
    (up → only → Does (.ptpAnnounceTimeout n) s (fun d => d.units = s.dev.units ∧ (d.port n).announce = none ∧ d.ptpState n = alone)) ∧
    (busy →
      (st = psMASTER → Does (.ptpSendDue n 0 t) s (fun d => rest d ∧ queued 0 x.syncSeq d ∧ (d.port n).syncSeq = (x.syncSeq + 1) % 65536) ∧
        Does (.ptpSendDue n 11 t) s (fun d => rest d ∧ queued 11 x.annSeq d ∧ (d.port n).annSeq = (x.annSeq + 1) % 65536)) ∧
      (up → st = psSLAVE → s.dev.net.p2p = false → Does (.ptpSendDue n 1 t) s (fun d => rest d ∧ queued 1 x.dlySeq d ∧ (d.port n).dlySeq = (x.dlySeq + 1) % 65536)) ∧
      (up → s.dev.net.p2p = true → Does (.ptpSendDue n 2 t) s (fun d => rest d ∧ queued 2 x.dlySeq d ∧ (d.port n).dlySeq = (x.dlySeq + 1) % 65536))) ∧
    (x.sending = some y → y.ptp = some p → Does (.ethFrameSent n) s (fun d => rest d ∧ (ptpType p.msg = 1 → (d.port n).dlyT3 = some (ptpSeq p.msg, tx)) ∧
      (ptpType p.msg = 2 → (d.port n).pdT1 = some (ptpSeq p.msg, tx)) ∧ ∃ q, d.sent = s.dev.sent ++ [.eth n q (s.dev.ptpFrame n (p.stamped tx))])) ∧
    (src = 1 → Does .ptpSyncTimeout s (fun d => d.locked 1 = false ∧ d.time.good1 = 0 ∧ d.units = s.dev.units ∧ d.eth = s.dev.eth))

/-! ### The duplex pair (R378 to R402) -/

/-- R380, R381, R384 to R388, R393, R394, R396 to R399, R401: heartbeats and beacons go out as long as the rim runs; a valid heartbeat ends the miss of its path and
shows the partner's claim, one that carries the own side is a conflict, RELINQ hands over at once, a higher claim fences; a missed path is counted and, when both are
missed, the standby takes over unless a witness exists; the subcommands change the role in the states that accept them and are refused in every other; at t_h the
roles change. Heartbeats missed in a gap and a handover to EXCH_READY are readings of the model (log entries 29, 30). -/
def Obligations.DuplexRoles : Prop :=
  ∀ (s : State) (q : Req) (b : List Byte) (t p start : Nat) (pair : Bool),
    let dx := s.dev.dx
    let h := s.dev.rf R.DUPX_HCLAIM_HCLAIM
    let side := s.dev.rf R.DUPX_CFG_SIDE
    let now := s.dev.time.cnt
    let claims (d : Dev) : Prop := h < d.rf R.DUPX_CLAIM_CLAIM ∧ d.rf R.DUPX_CLAIM_CLAIM % 2 = side ∧
      ∀ n, n ∈ s.dev.coveredSegs → d.rf R.HOL_CLAIM_V n = d.rf R.DUPX_CLAIM_CLAIM
    let took (cause : Nat) (i : Instr) : Prop := DoesMem i s (fun d _ => d.dx = dxTAKING ∧ d.rf R.DUPX_STATE_CAUSE = cause ∧ claims d ∧
      d.rf R.DUPX_CNT_TAKEOVERS = min 255 (s.dev.rf R.DUPX_CNT_TAKEOVERS + 1) ∧ d.lastState = lsRUNNING ∧ (∀ v, d.view v = s.dev.view v))
    let head : List Byte := [BitVec.ofNat 8 s.dev.hbRole, BitVec.ofNat 8 dx, 0, 0] ++ leBytes 4 (s.dev.rf R.DUPX_CLAIM_CLAIM) ++ leBytes 4 h
    let hb : Instr := if pair then .hbPairFrame b true else .weltHb b true
    let cl := if pair then le b 2 4 else le b 4 4
    let hc := max cl (if pair then 0 else le b 8 4)
    let missF := if pair then R.DUPX_STATE_MISS_H else R.DUPX_STATE_MISS_W
    let otherF := if pair then R.DUPX_STATE_MISS_W else R.DUPX_STATE_MISS_H
    let cntF := if pair then R.DUPX_MISSCNT_HB else R.DUPX_MISSCNT_WELT
    let heard := s.dev.dxOn = true ∧ (pair = false → s.dev.weltUp = true) ∧ dx ≠ dxPAIRING
    let partner := bitAt (byteAt b 0) 4 ≠ decide (side = 1)
    let mine := s.dev.rf R.DUPX_CLAIM_CLAIM
    let small := max h hc + 2 < 2 ^ 32
    let calm := bitAt (byteAt b 0) 3 = false ∧ s.dev.flag otherF = false
    let n := s.dev.rf R.DUPX_CFG_MISS_N
    let due := s.dev.dxOn = true ∧ s.dev.flag missF = false ∧
      (if pair then s.dev.dupx.tvH else s.dev.dupx.tvW).getD 0 + n * (if pair then 50000 else 10000) ≤ now
    let both := due ∧ s.dev.flag otherF = true
    let subs : List (Instr × List Nat) := [(.dupJoin q, [dxFENCED, dxOUTDATED, dxDETACHED]),
      (.dupTakeover q, [dxSTANDBY, dxREADY]), (.dupExchPrep q, [dxSYNCING, dxSTANDBY, dxOUTDATED]), (.dupExchAbort q, [dxEXCHANGE, dxREADY]),
      (.dupLeave q, [dxSYNCING, dxSTANDBY, dxREADY])]
    let goes (i : Instr) (st : Nat) : Prop := Does i s (fun d => d.dx = st ∧ Answered q eyOK [] d)
    let refused (i : Instr) : Prop := Does i s (fun d => Answered q eyREFUSED [] d ∧ { d with sessions := s.dev.sessions, sent := s.dev.sent, eth := s.dev.eth } = s.dev)
    let waited := max s.dev.dupx.since (max (s.dev.dupx.tvW.getD 0) (s.dev.dupx.tvH.getD 0)) + s.dev.rf R.DUPX_CFG_PAIR_WAIT * 50000000
    let hands := (dx = dxACTIVE ∧ (s.dev.dupx.peerState = dxSTANDBY ∨ s.dev.dupx.peerState = dxREADY)) ∨ (dx = dxSOLO ∧ s.dev.dupx.peerState = dxREADY)
    (3 ≤ s.dev.rst.phase →
      (s.dev.weltUp = true → Does .weltHbDue s (fun d => { d with stamps := s.dev.stamps, dupx := s.dev.dupx } =
        { s.dev with sent := s.dev.sent ++ [.hbWelt (weltBytes 1 false 0 0 (head ++ leBytes 8 s.dev.lastTag ++ zeros 4))] } ∧ { d.dupx with txFree := s.dev.dupx.txFree } = s.dev.dupx ∧
        (Tbl.getD (0, 0) d.stamps 0x200).2 = stampA 4 (max (4 * now) s.dev.dupx.txFree))) ∧
      (s.dev.hasWelt = true → Does .hbPairDue s (fun d => ∃ x, d = { s.dev with sent := s.dev.sent ++ [.hbPair x] } ∧ x.length = 11 ∧ byteAt x 0 = 0xA5 ∧
        byteAt x 1 = s.dev.hbRole % 256 ∧ byteAt x 2 = 0 ∧ le x 3 4 = mine ∧ slice x 7 4 = leBytes 4 (crc32c (slice x 1 6))))) ∧
    (s.dev.weltUp = false ∨ s.dev.rst.phase < 3 → Does .weltHbDue s (fun d => d = s.dev)) ∧
    (s.dev.hasWelt = false ∨ s.dev.rst.phase < 3 → Does .hbPairDue s (fun d => d = s.dev)) ∧
    (s.dev.dxRuns = false → Does .claimBeaconDue s (fun d => d = s.dev)) ∧
    (s.dev.dxRuns = true → (s.dev.dupPorts.map (fun p => p / 2 * 2)).eraseDups.filter s.dev.prp = [p] → s.dev.ethOn p = true → s.dev.ethOn (p + 1) = true →
      s.dev.flag R.ETH_GCL_CTL_EN p = false → s.dev.flag R.ETH_GCL_CTL_EN (p + 1) = false →
      (s.dev.port p).sending.isSome = true → (s.dev.port (p + 1)).sending.isSome = true → Does .claimBeaconDue s (fun d => ∃ x y,
        d = { s.dev with eth := d.eth } ∧ (d.port p).queues = (s.dev.port p).queues ++ [x] ∧ (d.port (p + 1)).queues = (s.dev.port (p + 1)).queues ++ [y] ∧
        etOf x.bytes = 0x88B5 ∧ slice x.bytes 14 12 = head ∧ slice y.bytes 14 12 = head)) ∧
    (s.dev.dxOn = true → partner → Does (.claimBeaconReceived b start) s (fun d => d.rf R.DUPX_HCLAIM_HCLAIM = max h (max (le b 4 4) (le b 8 4)) ∧
      (dx = dxSTANDBY → le b 4 4 = s.dev.rf R.DUPX_PEER_CLAIM_CLAIM → s.dev.tW + 1000 ≤ start → d.dupx.witness = some start) ∧
      (s.dev.dxRuns = true → mine < le b 4 4 → d.dx = dxFENCED ∧ d.rf R.DUPX_CLAIM_CLAIM = 0 ∧ ∀ n, n ∈ s.dev.coveredSegs → d.holState n = hsFENCED))) ∧
    (s.dev.dxOn = false ∨ bitAt (byteAt b 0) 4 = decide (side = 1) → Does (.claimBeaconReceived b start) s (fun d => d = s.dev)) ∧
    (heard → bitAt (byteAt b 0) 4 = decide (side = 1) → Does hb s (fun d => d.rf R.DUPX_STAT_SIDECONF = 1 ∧ Raises Ev.DUPX_SIDE_CONFLICT 0 s.dev d ∧
      d.dupx = s.dev.dupx ∧ d.dx = dx ∧ d.rf R.DUPX_HCLAIM_HCLAIM = h)) ∧
    (heard → partner → calm → Does hb s (fun d => (if pair then d.dupx.tvH else d.dupx.tvW) = some now ∧ d.flag missF = false ∧
      d.rf R.DUPX_PEER_CLAIM_CLAIM = cl ∧ d.rf R.DUPX_HCLAIM_HCLAIM = max h hc ∧ d.rf R.DUPX_STATE_PEER = byteAt b 0 % 16 ∧
      (s.dev.dxRuns = true → mine < cl → d.dx = dxFENCED ∧ d.rf R.DUPX_STAT_FENCED = 1 ∧ d.rf R.DUPX_CLAIM_CLAIM = 0 ∧
        d.rf R.DUPX_CNT_FENCES = min 255 (s.dev.rf R.DUPX_CNT_FENCES + 1) ∧ ∀ n, n ∈ s.dev.coveredSegs → d.holState n = hsFENCED) ∧
      (cl ≤ mine → pair = false → dx = dxSOLO → byteAt b 1 = dxSTANDBY → d.dx = dxACTIVE) ∧
      (cl ≤ mine → pair = false → dx = dxACTIVE → byteAt b 1 ≠ dxSTANDBY → d.dx = dxSOLO) ∧ (dx = dxISOLATED → d.dx = (if s.dev.dupx.exch then dxREADY else dxSTANDBY)))) ∧
    (heard → partner → small → bitAt (byteAt b 0) 3 = true → dx = dxSTANDBY → took 2 hb) ∧
    (¬ due → Does (.hbPathMissed pair) s (fun d => d = s.dev)) ∧
    (due → s.dev.flag otherF = false → s.dev.dupx.faultW = false → s.dev.dupx.faultH = false → Does (.hbPathMissed pair) s (fun d => d.flag missF = true ∧
      d.rf cntF = min (2 ^ 16 - 1) (s.dev.rf cntF + n) ∧ d.dx = dx ∧ d.dupx.tvW = s.dev.dupx.tvW ∧ d.dupx.tvH = s.dev.dupx.tvH)) ∧
    (both → dx = dxACTIVE → Does (.hbPathMissed pair) s (fun d => d.dx = dxSOLO ∧ d.rf R.DUPX_CLAIM_CLAIM = mine)) ∧
    (both → dx = dxSTANDBY → s.dev.dupx.witness = none → h + 2 < 2 ^ 32 → took 1 (.hbPathMissed pair)) ∧
    (both → dx = dxSTANDBY → s.dev.dupx.witness = some t → Does (.hbPathMissed pair) s (fun d => d.dx = dxISOLATED ∧ d.rf R.DUPX_STAT_SPLIT = 1 ∧
      d.rf R.DUPX_CNT_VETOES = min 255 (s.dev.rf R.DUPX_CNT_VETOES + 1) ∧ d.rf R.DUPX_CLAIM_CLAIM = mine)) ∧
    (dx = dxISOLATED → s.dev.dupx.witness = some t → h + 2 < 2 ^ 32 → t + s.dev.dxW ≤ now → took 3 .isolatedExpiry) ∧
    (dx ≠ dxISOLATED ∨ s.dev.dupx.witness = none ∨ (s.dev.dupx.witness = some t ∧ now < t + s.dev.dxW) →
      DoesMem .isolatedExpiry s (fun d m => d = s.dev ∧ m = s.mem)) ∧
    (dx = dxPAIRING → h + 2 < 2 ^ 32 → waited ≤ now → Does .pairWaitExpiry s (fun d => d.dx = dxSOLO ∧ claims d)) ∧
    (dx ≠ dxPAIRING ∨ now < waited → Does .pairWaitExpiry s (fun d => d = s.dev)) ∧
    (Admitted s q pvENGINEER → s.dev.hasWelt = true →
      (∀ e, e ∈ subs → e.2.contains dx = false → refused e.1) ∧ (¬ hands → refused (.dupHandover q)) ∧
      (dx = dxFENCED ∨ dx = dxOUTDATED ∨ dx = dxDETACHED → goes (.dupJoin q) dxPAIRING) ∧
      (hands → Does (.dupHandover q) s (fun d => Answered q eyOK [] d ∧ ∃ k, d.dupx.tH = some (k * 1000000) ∧
        s.dev.viewNs 0 + s.dev.rf R.DUPX_CFG_HO_LEAD * 1000000 ≤ k * 1000000 ∧ k * 1000000 < s.dev.viewNs 0 + (s.dev.rf R.DUPX_CFG_HO_LEAD + 1) * 1000000 ∧
        d.dupx.tHseq = some s.dev.dupx.txSeq ∧ d.dx = dx ∧ (s.dev.weltUp = true →
          ∃ l, Emit.welt { typ := 7, full := false, seq := s.dev.dupx.txSeq, tag := 1, payload := leBytes 8 (k * 1000000) } l ∈ d.sent))) ∧
      (dx = dxSTANDBY ∨ dx = dxREADY → h + 2 < 2 ^ 32 → took 4 (.dupTakeover q) ∧ DoesMem (.dupTakeover q) s (fun d _ => Answered q eyOK [] d)) ∧
      (dx = dxSYNCING ∨ dx = dxSTANDBY ∨ dx = dxOUTDATED → goes (.dupExchPrep q) dxEXCHANGE) ∧
      (dx = dxEXCHANGE ∨ dx = dxREADY → goes (.dupExchAbort q) (if s.dev.lastTag = s.dev.dupx.peerId then dxSYNCING else dxOUTDATED)) ∧
      (dx = dxSYNCING ∨ dx = dxSTANDBY ∨ dx = dxREADY → goes (.dupLeave q) dxDETACHED)) ∧
    (s.dev.dupx.tH = none ∨ (s.dev.dupx.tH = some t ∧ s.dev.viewNs 0 < t) → Does .handoverTime s (fun d => d = s.dev)) ∧
    (s.dev.dupx.tH = some t → t ≤ s.dev.viewNs 0 →
      (s.dev.dxRuns = false → dx ≠ dxSTANDBY → dx ≠ dxREADY → Does .handoverTime s (fun d => d = { s.dev with dupx := { s.dev.dupx with tH := none } })) ∧
      (s.dev.dxRuns = true → s.dev.dupx.tHseq.isSome = true → Does .handoverTime s (fun d =>
        d = { s.dev with dupx := { s.dev.dupx with tH := none, tHseq := none } })) ∧
      (s.dev.dxRuns = true → s.dev.dupx.tHseq = none → Does .handoverTime s (fun d => d.dx = dxSYNCING ∧ d.rf R.DUPX_CLAIM_CLAIM = 0 ∧ d.dupx.tH = none ∧
        d.rf R.DUPX_CNT_HANDOVERS = min 255 (s.dev.rf R.DUPX_CNT_HANDOVERS + 1) ∧ d.lastState = lsSTOPPED)) ∧
      (dx = dxSTANDBY ∨ dx = dxREADY → h + 2 < 2 ^ 32 → Does .handoverTime s (fun d => d.dx = dxSOLO ∧ claims d ∧ d.lastState = lsRUNNING ∧ d.dupx.tH = none ∧
        d.rf R.DUPX_CNT_HANDOVERS = min 255 (s.dev.rf R.DUPX_CNT_HANDOVERS + 1) ∧ d.dupx.await = s.dev.usedCads)))

/-- R101, R382, R383, R389, R390, R392: every frame is stamped at its first block, one that goes out when the link has sent the one before; the link is up with all four lanes; a damaged frame or one out of order brings a NAK with the first missing SEQ and nothing else, a
repeated one nothing at all, and one in order its content: tiles and port images are gathered and applied by their COMMIT, force entries, recipe images and t_h are
taken; an ACK completes checkpoints and names the copy time, a NAK has the frames from the missing one on sent again. The codes of CTRL and the bytes of FORCE
frames are the model's (log entry 28). -/
def Obligations.WeltLink : Prop :=
  ∀ (s : State) (f : WeltFrame) (lanes n t0 sq u i key : Nat) (b : List Byte) (x : TileMap) (ok : Bool),
    let st := s.dev.dupx
    let rxNote := Tbl.upd (0, 0) 0x200 (fun x => (stampA 4 (4 * s.dev.time.cnt - weltHalves f.payload.length), x.2)) s.dev.stamps
    let out := max (4 * s.dev.time.cnt) st.txFree
    let txNote (l : Tbl (Nat × Nat)) := Tbl.upd (0, 0) 0x200 (fun x => (x.1, stampA 4 out)) l
    let busy : DupxSt := { st with txFree := out + weltHalves 0 }
    let emit (g : WeltFrame) : Emit := .welt g (weltBytes g.typ g.full g.seq g.tag g.payload)
    let nak (d : Dev) : Prop := d = { s.dev with stamps := txNote rxNote, dupx := busy, sent := s.dev.sent ++ [emit { typ := 9, full := false, seq := 0, tag := st.rxSeq, payload := [] }] }
    let off := (f.seq + 2 ^ 32 - st.rxSeq) % 2 ^ 32
    let rx (ok : Bool) : List (Nat × Instr) := [(2, .weltTile f ok), (3, .weltCommit f ok), (4, .weltPortimg f ok), (5, .weltForce f ok), (6, .weltRecipe f ok),
      (7, .weltCtrl f ok)]
    let next (d : Dev) : Prop := d.dupx.rxSeq = (st.rxSeq + 1) % 2 ^ 32
    let again := st.kept.filter (fun x => decide ((x.seq + 2 ^ 32 - f.tag % 2 ^ 32) % 2 ^ 32 < 2 ^ 31))
    let got (v : Nat) : Bool := decide ((f.tag + 2 ^ 32 - v) % 2 ^ 32 < 2 ^ 31)
    (s.dev.hasWelt = true → lanes < 16 → Does (.weltLinkChange lanes) s (fun d => d.rf R.DUPX_LINK_LANES = lanes ∧ d.rf R.DUPX_STATE_WELT_UP = b2n (decide (lanes = 15)) ∧
      { d with regs := s.dev.regs, dupx := st, ckpt := s.dev.ckpt } = s.dev ∧
      (lanes ≠ 15 ∨ s.dev.weltUp = true → d.dupx = st ∧ d.ckpt = s.dev.ckpt) ∧
      (lanes = 15 → s.dev.weltUp = false → (st.acks = [] → d.ckpt = s.dev.ckpt) ∧
        d.dupx = { st with txSeq := 0, rxSeq := 0, kept := [], acks := [], rxPort := [], tH := if st.tHseq.isSome then none else st.tH, tHseq := none }))) ∧
    (s.dev.weltUp = true →
      Does .weltAckDue s (fun d => d = { s.dev with stamps := txNote s.dev.stamps, dupx := busy, sent := s.dev.sent ++ [emit { typ := 8, full := false, seq := 0, tag := (st.rxSeq + 2 ^ 32 - 1) % 2 ^ 32, payload := [] }] }) ∧
      (∀ e, e ∈ rx ok → f.typ = e.1 → ok = false ∨ (off ≠ 0 ∧ off < 2 ^ 31) → Does e.2 s nak) ∧
      (∀ e, e ∈ rx true → f.typ = e.1 → 2 ^ 31 ≤ off → Does e.2 s (fun d => d = { s.dev with stamps := rxNote })) ∧
      (off = 0 → st.rxSeq < 2 ^ 32 →
        (f.typ = 2 → s.dev.takesCopy = true → let k := 32 * (f.tag % 512) + f.tag / 512 % 32
          (f.full && st.perCyc.contains k) = false → Does (.weltTile f true) s (fun d => next d ∧ { d with dupx := st } = { s.dev with stamps := rxNote } ∧
            Tbl.get? d.dupx.rxTiles k = some (slice f.payload 0 1024) ∧ d.dupx.applied = st.applied)) ∧
        (f.typ = 4 → s.dev.takesCopy = true → Does (.weltPortimg f true) s (fun d => { d with dupx := st } = { s.dev with stamps := rxNote } ∧
          d.dupx = { st with rxSeq := (st.rxSeq + 1) % 2 ^ 32, rxPort := st.rxPort ++ (List.range (f.payload.length / 8)).map (fun i =>
            (f.tag % 8, le f.payload (8 * i) 4, (BitVec.ofNat 32 (le f.payload (8 * i + 4) 4) : Word))) })) ∧
        (f.typ = 3 → s.dev.takesCopy = true → st.exchLoaded = false → st.rxSeq + 1 < 2 ^ 32 → s.dev.dx = dxSTANDBY ∨ s.dev.dx = dxSYNCING →
          DoesMem (.weltCommit f true) s (fun d m => next d ∧ Tbl.get? d.dupx.appK (f.tag % 8) = some (f.tag / 256) ∧
            (∀ p, p ∈ st.rxPort → p.1 = f.tag % 8 → p ∈ d.dupx.port) ∧ (∀ p, p ∈ d.dupx.rxPort → p.1 ≠ f.tag % 8) ∧
            (s.dev.tilesOf (f.tag % 8) = [(key, b)] → b.length = 1024 → (s.dev.un (key / 32)).tiles.find? (fun x => decide (x.lidx = key % 32)) = some x →
              memRead m (tileAddr x.ptile) 1024 = b ∧ Tbl.get? d.dupx.rxTiles key = none) ∧
            (s.dev.dx = dxSYNCING → st.fullEnd = true → (∀ c, c ∈ s.dev.usedCads → c = f.tag % 8 ∨ c ∈ st.synced) → s.dev.locked 0 = true → d.dx = dxSTANDBY))) ∧
        (f.typ = 5 → s.dev.dxStandby = true → f.tag < 1024 → Does (.weltForce f true) s (fun d => next d ∧ { d with dupx := st, force := s.dev.force } = { s.dev with stamps := rxNote, forceOld := d.forceOld } ∧
          Tbl.get? d.force f.tag = (if byteAt f.payload 0 = 1 then some { kind := le f.payload 1 3, id := le f.payload 4 4, val := BitVec.ofNat 32 (le f.payload 8 4) } else none) ∧
          ∀ k, k ≠ f.tag → Tbl.get? d.force k = Tbl.get? s.dev.force k)) ∧
        (f.typ = 6 → s.dev.dxStandby = true → f.tag / 256 = 0 → f.payload.length ≤ 1024 →
          (s.dev.seqOf (f.tag % 128) = none ∨ le f.payload 8 4 ≠ f.payload.length → Does (.weltRecipe f true) s (fun d => next d ∧
            Tbl.get? d.recipes (f.tag % 128) = some f.payload)) ∧
          (s.dev.seqOf (f.tag % 128) = some (u, i) → le f.payload 8 4 = f.payload.length → recipeCheck (nth {} (s.dev.seqsOf u) i) s.dev.sigTyp f.payload = sqOK →
            Does (.weltRecipe f true) s (fun d => next d ∧ Tbl.get? d.recipeParsed (f.tag % 128) = some (parseRecipe f.payload)))) ∧
        (f.typ = 7 → f.tag = 1 → s.dev.dx = dxSTANDBY ∨ s.dev.dx = dxREADY → Does (.weltCtrl f true) s (fun d =>
          d = { s.dev with stamps := rxNote, dupx := { st with rxSeq := (st.rxSeq + 1) % 2 ^ 32, tH := some (le f.payload 0 8) } }))) ∧
      (f.typ = 9 → Does (.weltNak f true) s (fun d => d.sent = s.dev.sent ++ again.map emit ∧ { d with sent := s.dev.sent, regs := s.dev.regs, stamps := s.dev.stamps, dupx := st } = s.dev ∧
        { d.dupx with txFree := st.txFree } = st ∧ (again ≠ [] → out < d.dupx.txFree) ∧ (Tbl.getD (0, 0) d.stamps 0x200).1 = (Tbl.getD (0, 0) rxNote 0x200).1 ∧
        d.rf R.DUPX_LINK_RESEND = min (2 ^ 16 - 1) (s.dev.rf R.DUPX_LINK_RESEND + again.length))) ∧
      (f.typ = 8 → st.acks = [(n, sq, t0)] → got sq = true → Does (.weltAck f true) s (fun d => d.dupx.acks = [] ∧
        d.rf R.DUPX_COPY_LAST = min 0xFFFF ((s.dev.time.cnt - t0) / 5) ∧ ((Tbl.getD {} s.dev.ckpt n).copied = true → n < 8 → (Tbl.getD {} d.ckpt n).pend = none))) ∧
      (f.typ = 8 → st.acks = [] → st.tHseq = some sq → got sq = true → Does (.weltAck f true) s (fun d => d = { s.dev with stamps := rxNote, dupx := { st with tHseq := none } })) ∧
      (s.dev.dxRuns = true → st.peerState = dxSYNCING → Does .fullCopyEnd s (fun d => ∀ v, v < s.dev.nUnits → (s.dev.un v).kind ≠ 0 → ∀ y, y ∈ (s.dev.un v).tiles → 1 < y.cls →
        ∃ g, emit g ∈ d.sent ∧ g.typ = 2 ∧ g.full = true ∧ g.tag = v + y.lidx * 512 ∧ g.payload = memRead s.mem (tileAddr y.ptile) 1024))) ∧
    (s.dev.dx = dxSYNCING → Does .fullCopyEnd s (fun d => d = { s.dev with dupx := { st with fullEnd := true, perCyc := [], synced := [] } }))

/-! ### The safety island (R404 to R429) -/

/-- R407, R409 to R417, R426: start-up and reset of the island; a sample filters every contact, acts on demands and leaves every output on exactly if all functions
mapped to it permit it; input, output and island faults; the times of stops, locks, mutes and releases; a manual reset by an input. Nothing of it touches the rest of
the device. Both channels are one evaluation in the model (log entry 33). -/
def Obligations.IslandFunctions : Prop :=
  ∀ (s : State) (a b rba rbb n f fault ms code : Nat) (r : SinRec) (o : SoutRec) (cb : Bool),
    let i := s.dev.isl
    let p := i.pset
    let run := i.st = isRUN
    let samples := isUNCONFIGURED ≤ i.st ∧ i.st ≠ isLOCKOUT
    let c := p.func f
    let x := i.fn f
    let only (P : IslandSt → Prop) (k : Instr) : Prop := Does k s (fun d => { d with isl := i } = s.dev ∧ P d.isl)
    let off (j : IslandSt) : Prop := ∀ r, r ∈ p.outs → (j.out r.sout).on = false
    let locked (k : Nat) (j : IslandSt) : Prop := j.st = isLOCKOUT ∧ j.fault = k ∧ j.lastFault = k ∧ off j
    let kept (j : IslandSt) : Prop := j.setA = i.setA ∧ j.setB = i.setB ∧ j.confirmed = i.confirmed
    let sampled := a < 65536 ∧ b < 65536 ∧ rba < 256 ∧ rbb < 256
    let len := 4 * r.filt
    let user (g : Nat) : Prop := g < p.funcs.length ∧ (p.func g).kind ≠ 0
    let takes (k : Nat) (j : IslandSt) : Prop := (j.inp n).fault = k ∧ ∀ g, user g → (p.func g).uses.contains n = true → (j.fn g).st = fsFAULT
    let outBad (j : IslandSt) : Prop := (j.out n).fault = true ∧ (j.out n).on = false ∧
      ∀ g, user g → ((p.func g).outs ++ (p.func g).lockOut.toList).contains n = true → (j.fn g).st = fsFAULT
    (i.st = isSTARTUP →
      (1 ≤ fault → fault ≤ 8 → only (fun j => locked fault j ∧ kept j) (.safeStartupDone fault)) ∧
      (i.nvmOk = false → only (fun j => locked 2 j ∧ kept j) (.safeStartupDone 0)) ∧
      (i.nvmOk = true → only (fun j => j.st = (if i.setA = none then isUNCONFIGURED else if i.confirmed then isRUN else isUNCONFIRMED) ∧ kept j ∧
        ∀ g, (j.fn g).st = fsDEMAND) (.safeStartupDone 0))) ∧
    only (fun j => j.st = isOFF ∧ kept j ∧ j.lastFault = i.lastFault ∧ j.reqs = [] ∧ ∀ g, (j.out g).on = false) (.safeIslandReset true) ∧
    (i.st = isOFF → i.supplyOk = true → only (fun j => j.st = isSTARTUP ∧ kept j) (.safeIslandReset false)) ∧
    (1 ≤ code → code ≤ 8 → i.st ≠ isOFF → i.st ≠ isLOCKOUT → only (fun j => locked code j ∧ kept j) (.safeIslandFault code)) ∧
    (isUNCONFIGURED ≤ i.st → i.st ≠ isLOCKOUT → only (fun j => locked 3 j ∧ kept j) (.safePeriodicTest false) ∧
      only (fun j => if i.nvmOk then j = i else locked 2 j) (.safePeriodicTest true)) ∧
    (run → sampled →
      only (fun j => j.samp = i.samp + 1 ∧ j.st = isRUN ∧ kept j ∧
        ((p.outs.map (·.sout)).Nodup → ∀ o, o ∈ p.outs → (j.out o.sout).on = j.wants o) ∧
        ((p.ins.map (·.sin)).Nodup → r ∈ p.ins →
          (j.inp r.sin).a = (if bitAt a r.sin ≠ (i.inp r.sin).a ∧ len ≤ (i.inp r.sin).runA then bitAt a r.sin else (i.inp r.sin).a) ∧
          (j.inp r.sin).b = (if bitAt b r.sin ≠ (i.inp r.sin).b ∧ len ≤ (i.inp r.sin).runB then bitAt b r.sin else (i.inp r.sin).b)) ∧
        (f < p.funcs.length → c.kind = 4 → (j.fn f).enPrev = c.demand.all j.healthy ∧ (j.fn f).relWait = (x.relWait || (x.enPrev && !c.demand.all j.healthy))) ∧
        (f < p.funcs.length → c.kind = 1 → c.muteIn = none → x.muted = false → x.st = fsIDLE → c.reset ≠ 2 → (∀ g, (p.func g).override ≠ some f) →
          (∃ n, n ∈ c.demand ∧ j.healthy n = false) → (j.fn f).st ≠ fsIDLE ∧ ((j.fn f).st = fsSTOPPING → c.stopCat = 1))) (.safeInputSample a b rba rbb)) ∧
    (samples → n < 16 → (i.inp n).fault = 0 →
      (p.input n = some r → r.typ = 1 ∨ r.typ = 2 →
        (20 * r.disc ≤ (i.inp n).disc.getD 0 ∧ (i.inp n).disc.isSome = true ∨ 20 * r.disc < (i.inp n).unsettled → only (takes 1) (.safeDiscrepancyTimeout n)) ∧
        ((if cb then r.srcB else r.srcA) ≠ 0 → only (takes 2) (.safeTestPulseSample n cb true))) ∧
      only (fun j => j = i) (.safeTestPulseSample n cb false)) ∧
    (samples → n < 8 → (i.out n).fault = false → p.use n ≠ 0 → 8 ≤ (i.out n).since → (i.out n).rba ≠ (i.out n).on ∨ (i.out n).rbb ≠ (i.out n).on →
      only outBad (.safeReadbackTimeout n)) ∧
    (run → n < 8 → (i.out n).fault = false →
      (p.output n = some o → o.dark = true → (i.out n).on = true → only outBad (.safeDarkPulse n cb true)) ∧ only (fun j => j = i) (.safeDarkPulse n cb false)) ∧
    (run → f < 32 →
      (x.st = fsSTOPPING → x.ss1 = 0 → only (fun j => (j.fn f) = { x with st := fsDEMAND } ∧ ∀ g, g ≠ f → j.fn g = i.fn g) (.safeSs1Expiry f)) ∧
      (x.st = fsSTOPPING → x.ss1 ≠ 0 → only (fun j => j = i) (.safeSs1Expiry f)) ∧
      (x.unlocking = true → 0 < x.offFor → 400 * c.lockDelay ≤ x.offFor → only (fun j => (j.fn f) = { x with unlocking := false, unlocked := true } ∧
        ∀ g, g ≠ f → j.fn g = i.fn g) (.safeLockDelayExpiry f)) ∧
      (x.muted = true → 4000 * c.muteMax ≤ x.muteFor → only (fun j => (j.fn f).muted = false ∧ (j.fn f).muteSpent = true) (.safeMuteExpiry f)) ∧
      (x.muted = true → x.muteFor < 4000 * c.muteMax → 400 ≤ x.muteAge → only (fun j => (j.fn f).muted = false ∧ (j.fn f).muteSpent = x.muteSpent) (.safeMuteExpiry f)) ∧
      (c.kind = 4 → 4 * c.tRel ≤ x.relFor → only (fun j => j.fn f = { x with relWait := false } ∧ ∀ g, g ≠ f → j.fn g = i.fn g) (.safeTRelExpiry f))) ∧
    (¬ run → n < 8 → f < 32 → ∀ k, k ∈ [Instr.safeDarkPulse n cb cb, .safeSs1Expiry f, .safeLockDelayExpiry f, .safeMuteExpiry f, .safeTRelExpiry f, .safeResetPress n ms] →
      only (fun j => j = i) k) ∧
    (run → n < 16 → p.single n = true →
      (100 ≤ ms → ms ≤ 3000 → f < p.funcs.length → c.reset = 1 → c.resetIn = some n → c.kind ≠ 0 → i.resetWhy f = 0 →
        only (fun j => (j.fn f).st = fsIDLE) (.safeResetPress n ms)) ∧
      (ms < 100 → only (fun j => j = i) (.safeResetPress n ms)) ∧
      (3000 < ms → only (fun j => j.funcs = i.funcs ∧ j.outs = i.outs) (.safeResetPress n ms)))

/-- R414 to R416, R419 to R421, R423 to R425, R429: requests of the mailbox are judged, acknowledged with their SEQ and leave their source; the exchange ends the mutes
that are no longer asked for and brings the island's picture; a set is stored only where it is accepted, passes its check in both channels and is confirmed by its CHECK value, three mismatches in a row block
confirmation for 60 s. -/
def Obligations.IslandRequests : Prop :=
  ∀ (s : State) (q : Req) (src w f t : Nat) (b : List Byte) (val : Word) (agree : Bool), src < 9 →
    let i := s.dev.isl
    let p := i.pset
    let c := p.func f
    let x := i.fn f
    let only (P : IslandSt → Prop) (k : Instr) : Prop := Does k s (fun d => { d with isl := i } = s.dev ∧ P d.isl)
    let asked (kind : Nat) : Prop := i.st = isRUN ∧ Tbl.get? i.reqs src = some w ∧ bitsOf w 5 3 = kind ∧ bitsOf w 0 5 = f ∧ c.kind ≠ 0
    let done (why : Nat) (j : IslandSt) : Prop := Tbl.get? j.reqs src = none ∧ Tbl.get? j.acks src = some (bitsOf w 16 8) ∧
      (src = 0 → j.result = (if why = 0 then 1 else 2) ∧ j.why = why)
    let same (j : IslandSt) : Prop := j.funcs = i.funcs
    let words := s.dev.rw (R.SAFE_REQ.addr 0 0 0) :: (List.range 8).map (fun n => s.dev.rw (R.SAFE_LREQi.addr 0 n 0))
    let link := s.dev.flag R.SAFE_STAT_LINK = true
    let pstat (k : Instr) (n : Nat) (P : IslandSt → Prop) : Prop := Does k s (fun d => { d with isl := i, regs := s.dev.regs } = s.dev ∧ d.rf R.SAFE_PCMD_PSTAT = n ∧ P d.isl)
    (asked 1 → c.reset = 0 → c.kind ≠ 4 →
      (i.resetWhy f = 0 → only (fun j => done 0 j ∧ (j.fn f).st = fsIDLE) (.safeResetRequest src)) ∧
      (i.resetWhy f ≠ 0 → only (fun j => done (i.resetWhy f) j ∧ same j) (.safeResetRequest src))) ∧
    (asked 1 → c.reset ≠ 0 ∨ c.kind = 4 → only (fun j => done 6 j ∧ same j) (.safeResetRequest src)) ∧
    (asked 2 → c.kind = 3 → x.st = fsIDLE → x.unlocked = false → x.unlocking = false →
      (i.overrider f = none → only (fun j => done 0 j ∧ (j.fn f).unlocking = true ∧ (j.fn f).offFor = 0 ∧
        (j.fn f).st = (if c.stopCat = 1 ∧ c.tSS1 ≠ 0 then fsSTOPPING else fsDEMAND)) (.safeUnlock src)) ∧
      ((i.overrider f).isSome = true → only (fun j => done 0 j ∧ (j.fn f).unlocked = true ∧ (j.fn f).st = fsIDLE) (.safeUnlock src))) ∧
    (asked 2 → c.kind = 3 → x.st ≠ fsIDLE → only (fun j => done 4 j ∧ same j) (.safeUnlock src)) ∧
    (asked 3 → c.kind = 3 → x.unlocked = true ∨ x.unlocking = true → only (fun j => done 0 j ∧ j.fn f = { x with unlocking := false, lockReq := x.unlocked }) (.safeLock src)) ∧
    (asked 4 → c.muteIn.isSome = true → bitsOf w 8 8 ≠ 0 → c.mcodes.contains (bitsOf w 8 8) = true → only (fun j => done 0 j ∧
      j.fn f = { x with muteReq := true, muteAge := 0, muteCode := bitsOf w 8 8, muteSrc := src }) (.safeMute src)) ∧
    (asked 4 → c.muteIn.isSome = true → bitsOf w 8 8 = 0 ∨ c.mcodes.contains (bitsOf w 8 8) = false → only (fun j => done 5 j ∧ same j) (.safeMute src)) ∧
    (s.dev.linkOk = true → isUNCONFIGURED ≤ i.st → f < p.funcs.length → x.muteReq = true → i.muteHere f (nth 0 words x.muteSrc) = false →
      Does .safeMailboxExchange s (fun d => (d.isl.fn f).muteReq = false ∧ (d.isl.fn f).muted = false)) ∧
    (s.dev.linkOk = true → (∀ g, (i.fn g).muteReq = true → i.muteHere g (nth 0 words (i.fn g).muteSrc) = true) →
      Does .safeMailboxExchange s (fun d => d.units = s.dev.units ∧ d.isl.st = i.st ∧ d.isl.funcs = i.funcs ∧ d.isl.outs = i.outs ∧ d.isl.ins = i.ins ∧ d.isl.evq = [] ∧ d.rf R.SAFE_STAT_LINK = 1 ∧ d.rf R.SAFE_STATE_STATE = i.st % 2 ^ R.SAFE_STATE_STATE.w ∧
      d.flag R.SAFE_STAT_CONFIRMED = (i.setA.isSome && i.confirmed) ∧ (i.evLost = 0 → ∀ e, i.evq = [e] → ∃ y : Dev, y.evt = s.dev.evt ∧
        d.evt = (y.raiseFrom true e.code 0 (leBytes 4 e.ms ++ leBytes 4 0 ++ e.data)).evt))) ∧
    (s.dev.linkOk = false → Does .safeMailboxExchange s (fun d => d = s.dev)) ∧
    (link → i.accepts = true → pstat .safeStore psBUSY (fun j => j = { i with storing := some s.dev.pbuf }) ∧
      pstat .safeClear psOK (fun j => j.st = isUNCONFIGURED ∧ j.setA = none ∧ j.setB = none ∧ j.confirmed = false ∧ j.outs = [])) ∧
    (link → i.accepts = false → i.storing = none → pstat .safeStore psREFUSED (fun j => j = i) ∧ pstat .safeClear psREFUSED (fun j => j = i)) ∧
    (i.storing = some b →
      (psetOk b = false → pstat (.psetStoreDone agree) psBADSET (fun j => j = { i with storing := none })) ∧
      (psetOk b = true → agree = false → pstat (.psetStoreDone agree) psXCHECK (fun j => j = { i with storing := none })) ∧
      (psetOk b = true → agree = true → pstat (.psetStoreDone agree) psOK (fun j => j.st = isUNCONFIRMED ∧ j.setA = some (b.take (psetLen b)) ∧
        j.setB = some (invert (b.take (psetLen b))) ∧ j.confirmed = false ∧ j.storing = none ∧ j.outs = []))) ∧
    (Admitted s q pvENGINEER → i.setA = some b → i.st = isUNCONFIRMED → i.storing = none → i.blockAt = none → link →
      (val.toNat = psetCheck b → Does (.safeConfirm q val) s (fun d => Answered q eyOK [] d ∧ d.isl.st = isRUN ∧ d.isl.confirmed = true ∧ d.isl.mism = 0 ∧
        (∀ g, (d.isl.fn g).st = fsDEMAND) ∧ { d with isl := i, sessions := s.dev.sessions, sent := s.dev.sent, eth := s.dev.eth } = s.dev)) ∧
      (val.toNat ≠ psetCheck b → Does (.safeConfirm q val) s (fun d => Answered q eyREFUSED [] d ∧ d.isl.st = isUNCONFIRMED ∧ d.isl.mism = i.mism + 1 ∧
        d.isl.blockAt = (if i.mism = 2 then some i.ms else none) ∧ d.isl.confirmed = i.confirmed))) ∧
    (Admitted s q pvENGINEER → i.setA = none ∨ i.st ≠ isUNCONFIRMED ∨ i.blockAt.isSome = true → Does (.safeConfirm q val) s (fun d => Answered q eyREFUSED [] d ∧
      d.isl = i)) ∧
    (i.blockAt = some t → only (fun j => if t + 60000 ≤ i.ms then j = { i with blockAt := none, mism := 0 } else j = i) .safeConfirmBlockEnd)

/-! ### Power and margins (R430 to R447) -/

/-- R430 to R438, R440 to R443, R446: each epoch measures once, clears the regions' counts, grants a lone region its need as far as the power available reaches and
raises the shed level while a region is CAPPED; an exceeded limit sheds to level 4; budget and limit writes are taken in range and refused otherwise; of the boosts
asked for in a tick the first in order is funded or refused, never that of a CONTROL region; rails move in order to what waits for them, a CAPPED one no further than
its grant reaches; plan triggers start or keep a plan, the timer no sooner than 24 h after the last one, and its completion, once its window is over, writes V_plan, or
0.95 V without one, ends the boost and keeps the plan's inputs. -/
def Obligations.PowerAndMargins : Prop :=
  ∀ (s : State) (m : EpochMeas) (pm : PlanMeas) (g cost tj mv mv2 : Nat) (w : Word), g < s.dev.nRegions →
    let r := s.dev.rgn g
    let others (d : Dev) : Prop := d.units = s.dev.units ∧ d.time = s.dev.time ∧ d.disp = s.dev.disp
    let budget := s.dev.rf R.PWR_BUDGET_PKG_BUDGET
    let base := ((m.base :: s.dev.pwr.hist).take 4).foldl max 0
    let a := min budget (m.vin * s.dev.rf R.PWR_ILIM_ILIM / 100) - base - budget * s.dev.rf R.PWR_CFG_RESV / 100
    let need := needOf (nth (0, 0) m.rgns g).1 (nth (0, 0) m.rgns g).2 (s.dev.vTgt g)
    let v := bitsOf w.toNat 0 17
    let l := bitsOf w.toNat 0 10
    let control := s.dev.rgnClass g = 1
    let spare := s.dev.rf R.PWR_SPARE_MW
    let boosted (d : Dev) : Prop := (d.rgn g).boost = min (r.boost + s.dev.rf R.MARG_CFG_BOOST_MV) (950 - s.dev.planV g) ∧ (d.rgn g).wants = false ∧
      d.flag R.PWR_RGN_STAT_BOOST 0 g = true ∧ (d.rgn g).railWait = some (min 950 (s.dev.planV g + (d.rgn g).boost))
    let denied (d : Dev) : Prop := d.rf R.PWR_STAT_BOOSTDENY = 1 ∧ Raises Ev.PWR_BOOST_DENIED 0 s.dev d ∧ d.rgn g = { r with wants := false } ∧
      d.rf R.PWR_SPARE_MW = spare
    let plans (k : Nat) (d : Dev) : Prop := (d.rgn k).planning = true ∧ (d.rgn k).planAt = s.dev.time.cnt ∧ bitAt (d.rf R.MARG_STAT_PLANNING) k = true
    let triggered (P : Nat → Dev → Prop) (k : Nat) (d : Dev) : Prop := (s.dev.rst.coresUp = true → P k d) ∧
      (s.dev.rst.coresUp = false → d.rgn k = { s.dev.rgn k with trig := true })
    let far := 40 < (toS 10 tj - toS 10 (s.dev.rf R.MARG_RGN_TJ_PLAN 0 g)).natAbs
    let now := s.dev.rf R.RGN_RAIL_MV g
    let us := s.dev.planUnits pm
    let goal := match pm.grid us with | some i => 550 + 5 * i | none => 950
    let c := s.dev.boostCost g cost
    let asked := r.wants = true ∧ s.dev.boostFirst g = some g
    let first := (s.dev.rgnOrder s.dev.epoch).find? (fun h => (s.dev.railNext h).isSome)
    (s.dev.flag R.PWR_CTRL_EN = true → s.dev.pwr.epochAt ≠ some s.dev.epoch → Does (.pwrEpoch m) s (fun d => others d ∧ d.pwr.epochAt = some s.dev.epoch ∧ d.rf R.PWR_PIN_MW = m.pin % 2 ^ 32 ∧ d.rf R.PWR_IIN_MA = m.iin % 2 ^ 32 ∧
      d.rf R.PWR_PBASE_MW = base % 2 ^ 32 ∧ (d.rgn g).ops = 0 ∧ (d.rgn g).held = r.held ∧ d.rf R.PWR_RGN_OPS_OPS 0 g = min r.ops (2 ^ 32 - 1) ∧
      d.flag R.PWR_RGN_STAT_ENVHOLD 0 g = false ∧
      ((∀ h, s.dev.rgnUsed h = decide (h = g)) → (∀ i, nth 0 s.dev.cfg.own.floors i = 0) → r.cut = 0 → d.rf R.PWR_RGN_GRANT_MW 0 g = min need a ∧ d.rf R.PWR_SPARE_MW = a - need ∧
        d.flag R.PWR_RGN_STAT_CAPPED 0 g = decide (a < need)) ∧
      (∀ k, k ∈ s.dev.rgnsUsed → d.flag R.PWR_RGN_STAT_CAPPED 0 k = true → d.rf R.PWR_STAT_SHED = min 4 (s.dev.rf R.PWR_STAT_SHED + 1) ∧ d.pwr.quiet = 0))) ∧
    (s.dev.flag R.PWR_CTRL_EN = false ∨ s.dev.pwr.epochAt = some s.dev.epoch → Does (.pwrEpoch m) s (fun d => d = s.dev)) ∧
    Does .ilimExceeded s (fun d => others d ∧ d.rf R.PWR_STAT_ILIM = 1 ∧ d.rf R.PWR_STAT_SHED = 4 ∧ d.pwr = { s.dev.pwr with ilimFor := 0 }) ∧
    (30000 ≤ v → v ≤ 95000 → s.dev.capNeed ≤ s.dev.capOf v (s.dev.rf R.PWR_ILIM_ILIM) → Does (.pwrBudgetWrite w) s (fun d =>
      { d with regs := s.dev.regs } = s.dev ∧ d.rf R.PWR_BUDGET_PKG_BUDGET = v ∧ d.rf R.PWR_STAT_REFUSED = s.dev.rf R.PWR_STAT_REFUSED)) ∧
    (v < 30000 ∨ 95000 < v ∨ s.dev.capOf v (s.dev.rf R.PWR_ILIM_ILIM) < s.dev.capNeed → Does (.pwrBudgetWrite w) s (fun d =>
      { d with regs := s.dev.regs } = s.dev ∧ d.rf R.PWR_BUDGET_PKG_BUDGET = budget ∧ d.rf R.PWR_STAT_REFUSED = 1)) ∧
    (100 ≤ l → l ≤ 850 → s.dev.capNeed ≤ s.dev.capOf budget l → Does (.pwrIlimWrite w) s (fun d => { d with regs := s.dev.regs } = s.dev ∧ d.rf R.PWR_ILIM_ILIM = l)) ∧
    (l < 100 ∨ 850 < l ∨ s.dev.capOf budget l < s.dev.capNeed → Does (.pwrIlimWrite w) s (fun d => { d with regs := s.dev.regs } = s.dev ∧
      d.rf R.PWR_ILIM_ILIM = s.dev.rf R.PWR_ILIM_ILIM ∧ d.rf R.PWR_STAT_REFUSED = 1)) ∧
    (¬ asked → Does (.boostDecision g cost) s (fun d => d = s.dev)) ∧
    (asked → control → Does (.boostDecision g cost) s (fun d => others d ∧ boosted d)) ∧
    (asked → ¬ control → 100 ≤ s.dev.pwr.ilimFor → c ≤ spare → Does (.boostDecision g cost) s (fun d => others d ∧ boosted d ∧
      d.rf R.PWR_SPARE_MW = spare - c ∧ d.pwr.reserve = s.dev.pwr.reserve)) ∧
    (asked → ¬ control → s.dev.pwr.ilimFor < 100 → Does (.boostDecision g cost) s (fun d => others d ∧ denied d)) ∧
    (asked → ¬ control → 100 ≤ s.dev.pwr.ilimFor → s.dev.rgnsUsed = [g] → spare + s.dev.pwr.reserve < c → Does (.boostDecision g cost) s (fun d =>
      others d ∧ denied d)) ∧
    (r.railWait = some mv → s.dev.railNext g = some mv2 → first = some g → Does (.pwrRailChange g) s (fun d => { d with regs := s.dev.regs, pwr := s.dev.pwr } = s.dev ∧
      d.rf R.RGN_RAIL_MV g = mv2 ∧ d.rgn g = { r with railWait := (if mv2 < railMv mv then some mv else none), planAt := (if r.planning = true ∧ mv2 ≠ now then s.dev.time.cnt else r.planAt) })) ∧
    (s.dev.railNext g = none ∨ first ≠ some g → Does (.pwrRailChange g) s (fun d => d = s.dev)) ∧
    (r.railWait = some mv → mv ≤ 950 → s.dev.flag R.PWR_RGN_STAT_CAPPED 0 g = false → s.dev.railNext g = some (railMv mv)) ∧
    (r.railWait = some mv → s.dev.railNext g = some mv2 → now < mv → 550 ≤ mv2 ∧ mv2 ≤ 950 ∧ mv2 ≤ max now (s.dev.capV g)) ∧
    Does .marginPlan s (fun d => { d with regs := s.dev.regs, pwr := s.dev.pwr } = s.dev ∧ ∀ k, k ∈ s.dev.rgnsUsed → triggered plans k d) ∧
    (s.dev.rgnUsed g = false ∨ s.dev.time.cnt < r.lastPlan + 43200000000000 → Does (.marginPlanTimer g) s (fun d => d = s.dev)) ∧
    (s.dev.rgnUsed g = true → r.lastPlan + 43200000000000 ≤ s.dev.time.cnt → Does (.marginPlanTimer g) s (fun d => { d with regs := s.dev.regs, pwr := s.dev.pwr } = s.dev ∧ triggered plans g d)) ∧
    Does (.regionTjDrift g tj) s (fun d => { d with regs := s.dev.regs, pwr := s.dev.pwr } = s.dev ∧ d.rf R.MARG_RGN_TJ_NOW 0 g = tj % 1024 ∧
      (s.dev.rgnUsed g = true → far → triggered plans g d) ∧ (¬ far → d.pwr = s.dev.pwr)) ∧
    (pm.rgn = g → r.planning = true → r.planAt + s.dev.planWindow g ≤ s.dev.time.cnt → Does (.marginPlanComplete pm) s (fun d => others d ∧ d.rf R.MARG_RGN_PLAN_PLAN_MV 0 g = goal ∧ d.rf R.RGN_RAIL_PLAN_MV g = goal ∧
      d.flag R.MARG_RGN_PLAN_EXHAUSTED 0 g = (pm.grid us).isNone ∧ (pm.grid us = none → d.rf R.MARG_RGN_PLAN_HORIZON 0 g = 0) ∧ (d.rgn g).lastPlan = s.dev.time.cnt ∧
      (r.wants = false → (d.rgn g).planning = false ∧ bitAt (d.rf R.MARG_STAT_PLANNING) g = false) ∧ (r.wants = true → s.dev.rst.coresUp = true → plans g d) ∧
      (d.rgn g).boost = 0 ∧ d.flag R.PWR_RGN_STAT_BOOST 0 g = false ∧
      toS 10 (d.rf R.MARG_RGN_TJ_PLAN 0 g) = toS 10 (ofS 10 pm.tj) ∧ d.planHist.getLast? = some pm ∧
      (d.planHist.filter (fun p => decide (p.rgn = g))).length ≤ max 256 (s.dev.planHist.filter (fun p => decide (p.rgn = g))).length ∧ (d.planHist.filter (fun p => decide (p.rgn ≠ g)) = s.dev.planHist.filter (fun p => decide (p.rgn ≠ g))) ∧
      d.rf R.RGN_RAIL_MV g = now ∧ (now < goal → (d.rgn g).railWait = some goal) ∧ (goal < now → (d.rgn g).descend = true))) ∧
    (pm.rgn = g → r.planning = false ∨ s.dev.time.cnt < r.planAt + s.dev.planWindow g → Does (.marginPlanComplete pm) s (fun d => d = s.dev))

/-! ### Resets, resume, power loss and supplies (R450 to R469) -/

/-- R450, R453 to R458, R465: a source begins an episode of its reach; level sources hold it until they are released; what a system or power-on episode clears and
what survives it, the safety island among it; escalation; sources that come while an episode runs, during the power-loss sequence or in trim fault; the debug port
only where it is open; the exit writes CAUSE and leads to the start-up or the resume. -/
def Obligations.ResetEpisodes : Prop :=
  ∀ (s : State) (e : Episode) (code : Nat) (ok : Bool),
    let r := s.dev.rst
    let level (c : Nat) (on : Bool) : Instr := if c = srPOR then .rstPor on else if c = srPIN then .rstPin on else .rstTherm on
    let isLevel := code = srPOR ∨ code = srPIN ∨ code = srTHERM
    let quiet := r.epi = none ∧ r.loss = none ∧ r.deferred = [] ∧ r.trimFault = false
    let pulse := s.dev.time.cnt + 5000
    let wiped (d : Dev) (m : List Host.Cell) : Prop := d.sessions = [] ∧ d.last = none ∧ d.units = [] ∧ d.time = {} ∧ d.force = [] ∧ d.isl = s.dev.isl ∧
      (s.dev.slotWr = none → d.slots = s.dev.slots) ∧ (s.dev.frz.copy = none → d.snaps = s.dev.snaps) ∧
      (∀ j c, s.dev.frz.copy = some (j, c) → d.snaps = Tbl.upd {} j (fun x => { x with trunc := true }) s.dev.snaps) ∧ d.plr = s.dev.plr ∧ d.planHist = s.dev.planHist ∧ d.rst.entries = [] ∧
      (∀ a, 0x200000000000 ≤ a → memGet m a = memGet s.mem a) ∧ (∀ a, a < 0x200000000000 → memGet m a = memInit)
    let core (i : Instr) (c : Nat) : Prop := s.dev.escalates = false → DoesMem i s (fun d m => m = s.mem ∧ d.sessions = [] ∧ d.isl = s.dev.isl ∧
      d.rst.epi = some { first := c, reach := 1, mask := [c], now := [], pulseEnd := pulse, fresh := true } ∧ d.rst.coresUp = false ∧ d.last = s.dev.last ∧ d.force = s.dev.force ∧
      d.time.cnt = s.dev.time.cnt ∧ (∀ v, d.view v = s.dev.view v) ∧ d.rst.entries = (r.entries ++ [s.dev.time.cnt]).drop (r.entries.length + 1 - 8))
    let joins (i : Instr) (c : Nat) : Prop := r.epi = some e → e.fresh = false → e.reach = 2 → r.loss = none → r.deferred = [] → r.trimFault = false → DoesMem i s (fun d m =>
      m = s.mem ∧ d = { s.dev with rst := { r with epi := some { e with mask := (e.mask ++ [c]).eraseDups, pulseEnd := max e.pulseEnd pulse } } })
    let same (i : Instr) : Prop := DoesMem i s (fun d m => d = s.dev ∧ m = s.mem)
    (isLevel → quiet → DoesMem (level code true) s (fun d m => wiped d m ∧
      d.rst.epi = some { first := code, reach := (if code = srPOR then 3 else 2), mask := [code], now := [code], fresh := true })) ∧
    (isLevel → r.epi = some e → DoesMem (level code false) s (fun d m => m = s.mem ∧
      d = { s.dev with rst := { r with epi := some { e with now := e.now.filter (· ≠ code) }, deferOff := if r.deferred.contains code then (r.deferOff ++ [code]).eraseDups else r.deferOff } })) ∧
    (quiet → core .rstScwd srSCWD ∧ (s.dev.lc.debugOpen = true → core .rstDbgCore srDBG_CORE) ∧
      (s.dev.lc.debugOpen = true → DoesMem .rstDbgSys s (fun d m => wiped d m ∧ d.rst.epi = some { first := srDBG_SYS, reach := 2, mask := [srDBG_SYS], now := [], pulseEnd := pulse, fresh := true })) ∧
      (s.dev.escalates = true → DoesMem .rstScwd s (fun d m => wiped d m ∧
        d.rf R.RST_CNT_ESCALATIONS = min 255 (s.dev.rf R.RST_CNT_ESCALATIONS + 1) ∧ d.rst.epi = some { first := srESC, reach := 2, mask := [srESC, srSCWD], now := [], pulseEnd := pulse, fresh := true }))) ∧
    (r.entries.length = 8 → (s.dev.escalates = true ↔ s.dev.time.cnt ≤ nth 0 r.entries 0 + 5000000000)) ∧ (r.entries.length < 8 → s.dev.escalates = false) ∧
    (s.dev.lc.debugOpen = false → same .rstDbgSys ∧ same .rstDbgCore) ∧
    joins .rstScwd srSCWD ∧ (s.dev.lc.debugOpen = true → joins .rstDbgCore srDBG_CORE ∧ joins .rstDbgSys srDBG_SYS) ∧
    (r.trimFault = true → same (.rstPin true) ∧ same (.rstTherm true) ∧ same .rstScwd ∧ same .rstDbgSys ∧ same .rstDbgCore) ∧
    (r.trimFault = false → r.loss.isSome = true → DoesMem .rstScwd s (fun d m => m = s.mem ∧ d = { s.dev with rst := { r with deferred := (r.deferred ++ [srSCWD]).eraseDups, deferOff := r.deferOff.filter (· ≠ srSCWD) } })) ∧
    (r.epi = some e → e.now = [] → r.loss = none → r.trimFault = false → (e.reach = 1 ∧ e.pulseEnd ≤ s.dev.time.cnt) ∨ (e.reach ≠ 1 ∧ r.vinLow = false) → Does .resetEpisodeExit s (fun d =>
      d.rw (R.RST_CAUSE.addr 0 0 0) = e.first + 16 * e.reach + 65536 * maskOf e.mask ∧ d.rst.epi = none ∧ d.evt.stopped = false ∧
      (∃ y : Dev, y.evt = { s.dev.evt with pcycle := s.dev.evt.pcycle + b2n (decide (e.reach = 3)), stopped := false } ∧
        d.evt = (y.raise Ev.RESET 0 (leBytes 4 (e.first + 16 * e.reach + 65536 * maskOf e.mask))).evt) ∧
      (e.reach = 1 → d.rst.resume = (s.dev.last.isSome || s.dev.load.isSome) ∧ d.rst.phase = r.phase ∧ d.rst.exitTick = s.dev.time.cnt) ∧
      (e.reach ≠ 1 → d.rst.phase = 1 ∧ d.rst.entries = []))) ∧
    (r.epi = some e → e.now ≠ [] ∨ r.loss.isSome = true ∨ r.trimFault = true ∨ (e.reach = 1 ∧ s.dev.time.cnt < e.pulseEnd) ∨ (e.reach ≠ 1 ∧ r.vinLow = true) → Does .resetEpisodeExit s (fun d => d = s.dev)) ∧
    (r.epi = none → Does .resetEpisodeExit s (fun d => d = s.dev)) ∧
    (r.phase = 1 → r.epi = none →
      Does (.trimLoadEnd true) s (fun d => d.rf R.RST_STAT_TRIM_VALID = 1 ∧ d.rf R.RST_TRIM_FAILS = 0 ∧ d.rst = { r with phase := 2 } ∧
        { d with regs := s.dev.regs, rst := r } = s.dev) ∧
      Does (.trimLoadEnd false) s (fun d => d.rf R.RST_TRIM_FAILS = min 3 (s.dev.rf R.RST_TRIM_FAILS + 1) ∧ { d with regs := s.dev.regs, rst := r } = s.dev ∧
        d.rst = (if 3 ≤ s.dev.rf R.RST_TRIM_FAILS + 1 then { r with trimFault := true, phase := 0 } else r))) ∧
    (r.phase = 2 → r.epi = none → s.dev.time.pll = false → Does .rimPllLock s (fun d => d.time = { s.dev.time with pll := true, cnt := 0 } ∧ d.rst = { r with phase := 3 } ∧
      d.rf R.PWR_CTRL_EN = 1 ∧ { d with regs := s.dev.regs, rst := r, time := s.dev.time } = s.dev)) ∧
    (3 ≤ r.phase → r.epi = none → r.coresUp = false → r.loss = none → let cur := s.dev.lc.fwSlot % 2
      Does (.serviceCoresUp (cur = 0 || ok) (cur = 1 || ok)) s (fun d => d.lc.fwSlot = cur ∧ d.rst = { r with coresUp := true, phase := max r.phase 4 }) ∧
      Does (.serviceCoresUp (cur = 1) (cur = 0)) s (fun d => d.lc.fwSlot = 1 - cur ∧ d.rst = { r with coresUp := true, phase := max r.phase 4 }) ∧
      Does (.serviceCoresUp false false) s (fun d => d.rst = { r with phase := if r.phase = 3 then 2 else r.phase } ∧ { d with rst := r } = s.dev))

/-- R459, R462 to R469, R497: the resume restores the units and takes the cadences up again; the end of HOLD_MAX makes outputs safe and stops the Last; a power loss stops
the fabric, closes the sessions and turns the rails off, writes its record where one is due and ends in a system episode; a record is applied once or refused with its
reason, never kept, and one that has waited too long for LOCK is refused; supplies report whether they are good. -/
def Obligations.ResumeAndPowerLoss : Prop :=
  ∀ (s : State) (t which : Nat) (good : Bool),
    let r := s.dev.rst
    let now := s.dev.time.cnt
    let due := s.dev.plrDue = true ∧ r.plrRun = false
    let refused (why : Nat) (d : Dev) : Prop := d.plr = { s.dev.plr with valid := false } ∧ d.rst = { r with plrWait := false } ∧ d.rf R.RST_PLR_STAT_STATE = 3 ∧
      d.rf R.RST_PLR_STAT_WHY = why ∧ Raises Ev.PLR_REFUSED 0 s.dev d ∧ d.lastState = s.dev.lastState ∧ d.force = s.dev.force ∧ d.units = s.dev.units
    (r.resume = true → r.epi = none → r.dark = true → s.dev.load = none → DoesMem .resumeReady s (fun d _ =>
      d.rf R.RST_RESUME_US = (now - r.exitTick) / 500 % 2 ^ 32 ∧ (∀ v, d.view v = s.dev.view v) ∧ d.lastState = s.dev.lastState ∧ d.rst.dark = false ∧
      (∀ n, n < 8 → (s.dev.cad n).used = true → (d.cad n).halt = false ∧ (d.cad n).run = false ∧
        (d.cad n).ref = (s.dev.cad n).ref.map (fun x => if r.wasRun = true ∧ s.dev.running = true then now - 1 else x)) ∧
      (r.wasRun = true → s.dev.running = true → d.rst.resume = true) ∧ (r.wasRun = false ∨ s.dev.running = false → d.rst.resume = false))) ∧
    (r.resume = false ∨ r.epi.isSome = true ∨ r.dark = false → DoesMem .resumeReady s (fun d m => d = s.dev ∧ m = s.mem)) ∧
    (r.holdFrom = some t → t + s.dev.rf R.RST_HOLD_HOLD_MAX * 500000 ≤ now → r.safe = false → s.dev.running = true → Does .holdMaxExpiry s (fun d =>
      d.lastState = lsSTOPPED ∧ d.rst.safe = true ∧ d.rf R.RST_STAT_HOLDEXP = 1 ∧ d.rst.holdFrom = r.holdFrom ∧
      (∀ n, n < 8 → (s.dev.cad n).used = true → (d.cad n).ref = none ∧ d.rf R.TIME_CADn_STAT_RUN 0 n = 0 ∧ d.rf R.TIME_CADn_STAT_WAIT 0 n = 0))) ∧
    (r.holdFrom = none ∨ (r.holdFrom = some t ∧ now < t + s.dev.rf R.RST_HOLD_HOLD_MAX * 500000) ∨ r.safe = true ∨ s.dev.running = false →
      Does .holdMaxExpiry s (fun d => d = s.dev)) ∧
    (r.vinLow = false → 3 ≤ r.phase → r.loss = none → Does .powerLossDetect s (fun d => d.rf R.RST_STAT_VINLOW = 1 ∧ d.sessions = [] ∧ d.rst.loss = some now ∧
      d.rst.coresUp = false ∧ d.rst.vinLow = true ∧ d.rst.lossRec = (s.dev.lossWrites && s.dev.last.isSome) ∧ d.rst.lossNs = (if s.dev.locked 0 then s.dev.viewNs 0 else 0) ∧
      (∀ g, g < 8 → d.rf R.RGN_RAIL_MV g = 0) ∧ (∀ n, n < 8 → (s.dev.cad n).used = true → (d.cad n).halt = true ∧ (d.cad n).run = false ∧ d.rf R.TIME_CADn_STAT_RUN 0 n = 0) ∧
      d.plr = (if s.dev.lossWrites then { s.dev.plr with valid := false } else s.dev.plr) ∧ (s.dev.dxRuns = true → d.dupx.relinq = true))) ∧
    (r.vinLow = true → Does .powerLossDetect s (fun d => d = s.dev)) ∧ (r.loss = none → DoesMem .plrCopyDone s (fun d m => d = s.dev ∧ m = s.mem)) ∧
    (r.loss = some t → r.epi = none → r.trimFault = false → DoesMem .plrCopyDone s (fun d _ => d.evt.stopped = true ∧ d.last = none ∧ d.rst.loss = none ∧
      (r.deferred = [] → d.rst.epi = some { first := srPLR, reach := 2, mask := [srPLR], now := [], pulseEnd := now + 5000, fresh := false }) ∧
      d.plr = (if r.lossRec then s.dev.plrMake else s.dev.plr))) ∧
    (r.lossRec = true → s.dev.plrMake.valid = true ∧ s.dev.plrMake.id = s.dev.cfg.id ∧ s.dev.plrMake.force = s.dev.force ∧ s.dev.plrMake.ns = r.lossNs) ∧
    (due →
      (s.dev.plrWhy ≠ 0 → Does .plrApply s (refused s.dev.plrWhy)) ∧
      (s.dev.plrWhy = 0 → s.dev.locked 0 = true → DoesMem .plrApply s (fun d _ => d.force = s.dev.plr.force ∧ d.plr.valid = false ∧ d.rst = { r with plrWait := false } ∧
        d.rf R.RST_PLR_STAT_STATE = 2 ∧ d.rf R.RST_PLR_STAT_WHY = 0)) ∧
      (s.dev.plrWhy = 0 → s.dev.locked 0 = false → Does .plrApply s (fun d => d = s.dev)) ∧
      (s.dev.locked 0 = false → r.plrAt + s.dev.plrWaitTicks ≤ now → Does .plrWaitTimeout s (refused 4)) ∧
      (s.dev.locked 0 = true ∨ now < r.plrAt + s.dev.plrWaitTicks → Does .plrWaitTimeout s (fun d => d = s.dev))) ∧
    (s.dev.plrDue = false → Does .plrApply s (fun d => d = s.dev) ∧ Does .plrWaitTimeout s (fun d => d = s.dev)) ∧
    (s.dev.plr.crcOk = false → s.dev.plrWhy = 1) ∧ (s.dev.plr.crcOk = true → s.dev.plr.id ≠ s.dev.cfg.id → s.dev.plrWhy = 2) ∧
    Does .vinRecovery s (fun d => d.rf R.RST_STAT_VINLOW = 0 ∧ d.rf R.PWR_SUPPLY_VIN_OK = 1 ∧ d.rst = { r with vinLow := false } ∧
      { d with regs := s.dev.regs, rst := r } = s.dev) ∧
    (s.dev.variant ≠ 2 → Does (.supplyChange 0 good) s (fun d => d.flag R.PWR_SUPPLY_VDDA_OK = good ∧ d.isl = s.dev.isl)) ∧
    Does (.supplyChange 1 good) s (fun d => d.flag R.PWR_SUPPLY_VSAFE_OK = good ∧ { d with regs := s.dev.regs, isl := s.dev.isl } = s.dev ∧ d.isl.supplyOk = good ∧
      (good = false → d.isl.st = isOFF ∧ d.isl.setA = s.dev.isl.setA ∧ d.isl.confirmed = s.dev.isl.confirmed ∧ ∀ o, (d.isl.out o).on = false)) ∧
    (2 ≤ which → which < 10 → Does (.supplyChange which good) s (fun d => bitAt (d.rf R.PWR_SUPPLY_VDDIO_OK) (which - 2) = good ∧ { d with regs := s.dev.regs } = s.dev))
end

