-- ==== Sys2Proof/Laws/Bits.lean ====
section
/-!
SUPPORT. Byte strings: the fold behind a CRC, and bytes in little-endian order read back.
-/
namespace Sys2Proof.Machine

/-- It is the fold. -/
theorem foldBytes_eq (f : Nat → Byte → Nat) (bs : List Byte) (c : Nat) : foldBytes f bs c = bs.foldl f c := by
  induction bs generalizing c with
  | nil => rfl
  | cons b bs ih =>
    simp only [foldBytes, List.foldl_cons]
    cases f c b with
    | zero => exact ih 0
    | succ n => exact ih (n + 1)

/-- The fold over a longer string goes on from the one over its beginning. -/
theorem foldBytes_append (f : Nat → Byte → Nat) (as bs : List Byte) (c : Nat) :
    foldBytes f (as ++ bs) c = foldBytes f bs (foldBytes f as c) := by
  simp [foldBytes_eq]

/-- n bytes of a number read back as the number modulo 2^(8n). -/
theorem leNat_leBytes (n x : Nat) : leNat (leBytes n x) = x % 2 ^ (8 * n) := by
  induction n generalizing x with
  | zero => simp [leBytes, leNat, Nat.mod_one]
  | succ n ih =>
    rw [leBytes, leNat, ih, BitVec.toNat_ofNat, show 8 * (n + 1) = 8 + 8 * n by ring, pow_add, Nat.mod_mul]
    norm_num

end Sys2Proof.Machine
end

