-- ==== Sys2Proof/Laws/Tbl.lean ====
section
/-!
SUPPORT. Tables: a read after a write at the same key, at another key, and the canonical form that every write keeps.
-/
namespace Sys2Proof.Machine

variable {α : Type}

@[simp] theorem Tbl.getD_nil (d : α) (k : Nat) : Tbl.getD d [] k = d := rfl

@[simp] theorem Tbl.get?_nil (k : Nat) : Tbl.get? ([] : Tbl α) k = none := rfl

@[simp] theorem Tbl.getD_put_self (d v : α) (k : Nat) (t : Tbl α) : Tbl.getD d (Tbl.put k v t) k = v := by
  induction t with
  | nil => simp [Tbl.put, Tbl.getD]
  | cons e t ih =>
    obtain ⟨k', v'⟩ := e
    simp only [Tbl.put]
    split
    · simp [Tbl.getD]
    · split
      · simp [Tbl.getD]
      · simp [Tbl.getD, *]

theorem Tbl.getD_put_ne (d v : α) {k j : Nat} (t : Tbl α) (h : j ≠ k) : Tbl.getD d (Tbl.put k v t) j = Tbl.getD d t j := by
  induction t with
  | nil => simp [Tbl.put, Tbl.getD, Ne.symm h]
  | cons e t ih =>
    obtain ⟨k', v'⟩ := e
    simp only [Tbl.put]
    split
    · subst_vars; simp [Tbl.getD, Ne.symm h]
    · split
      · simp [Tbl.getD, Ne.symm h]
      · simp [Tbl.getD, ih]

@[simp] theorem Tbl.get?_put_self (v : α) (k : Nat) (t : Tbl α) : Tbl.get? (Tbl.put k v t) k = some v := by
  induction t with
  | nil => simp [Tbl.put, Tbl.get?]
  | cons e t ih =>
    obtain ⟨k', v'⟩ := e
    simp only [Tbl.put]
    split
    · simp [Tbl.get?]
    · split
      · simp [Tbl.get?]
      · simp [Tbl.get?, *]

theorem Tbl.get?_put_ne (v : α) {k j : Nat} (t : Tbl α) (h : j ≠ k) : Tbl.get? (Tbl.put k v t) j = Tbl.get? t j := by
  induction t with
  | nil => simp [Tbl.put, Tbl.get?, Ne.symm h]
  | cons e t ih =>
    obtain ⟨k', v'⟩ := e
    simp only [Tbl.put]
    split
    · subst_vars; simp [Tbl.get?, Ne.symm h]
    · split
      · simp [Tbl.get?, Ne.symm h]
      · simp [Tbl.get?, ih]

@[simp] theorem Tbl.get?_del_self (k : Nat) (t : Tbl α) : Tbl.get? (Tbl.del k t) k = none := by
  induction t with
  | nil => rfl
  | cons e t ih =>
    obtain ⟨k', v'⟩ := e
    by_cases h : k' = k <;> simp_all [Tbl.del, Tbl.get?]

@[simp] theorem Tbl.getD_del_self (d : α) (k : Nat) (t : Tbl α) : Tbl.getD d (Tbl.del k t) k = d := by
  induction t with
  | nil => rfl
  | cons e t ih =>
    obtain ⟨k', v'⟩ := e
    by_cases h : k' = k <;> simp_all [Tbl.del, Tbl.getD]

theorem Tbl.getD_del_ne (d : α) {k j : Nat} (t : Tbl α) (h : j ≠ k) : Tbl.getD d (Tbl.del k t) j = Tbl.getD d t j := by
  induction t with
  | nil => rfl
  | cons e t ih =>
    obtain ⟨k', v'⟩ := e
    by_cases h' : k' = k
    · subst h'; simp_all [Tbl.del, Tbl.getD, Ne.symm h]
    · simp_all [Tbl.del, Tbl.getD]

@[simp] theorem Tbl.getD_set_self [DecidableEq α] (d v : α) (k : Nat) (t : Tbl α) : Tbl.getD d (Tbl.set d k v t) k = v := by
  unfold Tbl.set
  split
  · simp [*]
  · simp

theorem Tbl.getD_set_ne [DecidableEq α] (d d' v : α) {k j : Nat} (t : Tbl α) (h : j ≠ k) :
    Tbl.getD d (Tbl.set d' k v t) j = Tbl.getD d t j := by
  unfold Tbl.set
  split
  · exact Tbl.getD_del_ne d t h
  · exact Tbl.getD_put_ne d v t h

@[simp] theorem Tbl.getD_upd_self (d : α) (f : α → α) (k : Nat) (t : Tbl α) :
    Tbl.getD d (Tbl.upd d k f t) k = f (Tbl.getD d t k) := by simp [Tbl.upd]

theorem Tbl.getD_upd_ne (d : α) (f : α → α) {k j : Nat} (t : Tbl α) (h : j ≠ k) :
    Tbl.getD d (Tbl.upd d k f t) j = Tbl.getD d t j := by simp [Tbl.upd, Tbl.getD_put_ne _ _ _ h]

/-- A lower bound of the keys may be lowered. -/
theorem Tbl.risesFrom_weaken {b c : Nat} (t : Tbl α) (h : b ≤ c) (hr : Tbl.risesFrom (some c) t = true) :
    Tbl.risesFrom (some b) t = true := by
  cases t with
  | nil => rfl
  | cons e t => obtain ⟨k, v⟩ := e; simp_all [Tbl.risesFrom]; omega

theorem Tbl.risesFrom_put {k b : Nat} (v : α) (t : Tbl α) (hb : b < k) (hr : Tbl.risesFrom (some b) t = true) :
    Tbl.risesFrom (some b) (Tbl.put k v t) = true := by
  induction t generalizing b with
  | nil => simp [Tbl.put, Tbl.risesFrom, hb]
  | cons e t ih =>
    obtain ⟨k', v'⟩ := e
    simp only [Tbl.risesFrom, Bool.and_eq_true, decide_eq_true_eq] at hr
    simp only [Tbl.put]
    split
    · subst_vars; simp [Tbl.risesFrom, hr.1, hr.2]
    · split
      · simp [Tbl.risesFrom, hr.2, *]
      · simp only [Tbl.risesFrom, hr.1, decide_true, Bool.true_and]
        exact ih (by omega) hr.2

theorem Tbl.risesFrom_del {k b : Nat} (t : Tbl α) (hr : Tbl.risesFrom (some b) t = true) :
    Tbl.risesFrom (some b) (Tbl.del k t) = true := by
  induction t generalizing b with
  | nil => rfl
  | cons e t ih =>
    obtain ⟨k', v'⟩ := e
    simp only [Tbl.risesFrom, Bool.and_eq_true, decide_eq_true_eq] at hr
    by_cases h : k' = k
    · simp only [Tbl.del, h, ne_eq, not_true_eq_false, decide_false, Bool.false_eq_true, not_false_eq_true, List.filter_cons_of_neg]
      exact ih (Tbl.risesFrom_weaken t (by omega) hr.2)
    · simp only [Tbl.del, ne_eq, h, not_false_eq_true, decide_true, List.filter_cons_of_pos]
      simp only [Tbl.risesFrom, hr.1, decide_true, Bool.true_and]
      exact ih hr.2

theorem Tbl.sorted_tail {e : Nat × α} {t : Tbl α} (h : Tbl.sorted (e :: t) = true) : Tbl.risesFrom (some e.1) t = true := h

theorem Tbl.sorted_of_rises {b : Nat} (t : Tbl α) (h : Tbl.risesFrom (some b) t = true) : Tbl.sorted t = true := by
  cases t with
  | nil => rfl
  | cons e t => obtain ⟨k, v⟩ := e; simp_all [Tbl.sorted, Tbl.risesFrom]

theorem Tbl.sorted_put (k : Nat) (v : α) (t : Tbl α) (h : Tbl.sorted t = true) : Tbl.sorted (Tbl.put k v t) = true := by
  cases t with
  | nil => rfl
  | cons e t =>
    obtain ⟨k', v'⟩ := e
    have h' := Tbl.sorted_tail h
    simp only [Tbl.put]
    split
    · subst_vars; exact h'
    · split
      · simp only [Tbl.sorted, Tbl.risesFrom, Bool.and_eq_true, decide_eq_true_eq]; exact ⟨by omega, h'⟩
      · exact Tbl.risesFrom_put v t (by omega) h'

theorem Tbl.sorted_del (k : Nat) (t : Tbl α) (h : Tbl.sorted t = true) : Tbl.sorted (Tbl.del k t) = true := by
  cases t with
  | nil => rfl
  | cons e t =>
    obtain ⟨k', v'⟩ := e
    have h' := Tbl.sorted_tail h
    by_cases hk : k' = k
    · simp only [Tbl.del, hk, ne_eq, not_true_eq_false, decide_false, Bool.false_eq_true, not_false_eq_true, List.filter_cons_of_neg]
      exact Tbl.sorted_of_rises (b := k') _ (Tbl.risesFrom_del t h')
    · simp only [Tbl.del, ne_eq, hk, not_false_eq_true, decide_true, List.filter_cons_of_pos]
      exact Tbl.risesFrom_del t h'

theorem Tbl.mem_put {k : Nat} {v : α} {e : Nat × α} (t : Tbl α) (h : e ∈ Tbl.put k v t) : e = (k, v) ∨ e ∈ t := by
  induction t with
  | nil => simpa [Tbl.put] using h
  | cons x t ih =>
    obtain ⟨k', v'⟩ := x
    simp only [Tbl.put] at h
    split at h
    · rcases List.mem_cons.1 h with h | h
      · exact .inl h
      · exact .inr (List.mem_cons_of_mem _ h)
    · split at h
      · exact List.mem_cons.1 h
      · rcases List.mem_cons.1 h with h | h
        · exact .inr (by simp [h])
        · rcases ih h with h | h
          · exact .inl h
          · exact .inr (List.mem_cons_of_mem _ h)

/-- Every write in canonical form keeps the canonical form. -/
theorem Tbl.canon_set [DecidableEq α] (d : Nat → α) (k : Nat) (v : α) (t : Tbl α) (h : Tbl.canon d t = true) :
    Tbl.canon d (Tbl.set (d k) k v t) = true := by
  simp only [Tbl.canon, Bool.and_eq_true, List.all_eq_true, decide_eq_true_eq] at h ⊢
  unfold Tbl.set
  split
  · refine ⟨Tbl.sorted_del k t h.1, fun e he => h.2 e ?_⟩
    exact (List.mem_filter.1 he).1
  · refine ⟨Tbl.sorted_put k v t h.1, fun e he => ?_⟩
    rcases Tbl.mem_put t he with rfl | he
    · assumption
    · exact h.2 e he

end Sys2Proof.Machine
end

