-- ==== Sys2Proof/Laws/Regs.lean ====
section
/-!
SUPPORT. Register words and fields: a read after a write of the same word, of another word, of another field.
-/
namespace Sys2Proof.Machine

theorem bitsOf_lt (x lo w : Nat) : bitsOf x lo w < 2 ^ w := Nat.mod_lt _ (Nat.two_pow_pos w)

theorem bitsOf_mul_le (x lo w : Nat) : bitsOf x lo w * 2 ^ lo ≤ x := by
  unfold bitsOf
  rw [Nat.shiftRight_eq_div_pow]
  calc x / 2 ^ lo % 2 ^ w * 2 ^ lo ≤ x / 2 ^ lo * 2 ^ lo := Nat.mul_le_mul_right _ (Nat.mod_le _ _)
    _ ≤ x := Nat.div_mul_le_self _ _

/-- A number taken apart around a field. -/
theorem eq_parts (x lo w : Nat) : x = x % 2 ^ lo + 2 ^ lo * (bitsOf x lo w + 2 ^ w * (x / 2 ^ (lo + w))) := by
  unfold bitsOf
  rw [Nat.shiftRight_eq_div_pow, pow_add, ← Nat.div_div_eq_div_mul, Nat.mod_add_div, Nat.mod_add_div]

theorem setBits_eq (x lo w v : Nat) : setBits x lo w v = x % 2 ^ lo + 2 ^ lo * (v % 2 ^ w + 2 ^ w * (x / 2 ^ (lo + w))) := by
  have h := eq_parts x lo w
  have hle := bitsOf_mul_le x lo w
  unfold setBits
  generalize hb : bitsOf x lo w = b at *
  generalize x / 2 ^ (lo + w) = y at *
  generalize x % 2 ^ lo = z at *
  have e1 : 2 ^ lo * (b + 2 ^ w * y) = b * 2 ^ lo + 2 ^ lo * (2 ^ w * y) := by ring
  have e2 : 2 ^ lo * (v % 2 ^ w + 2 ^ w * y) = v % 2 ^ w * 2 ^ lo + 2 ^ lo * (2 ^ w * y) := by ring
  omega

@[simp] theorem bitsOf_setBits_self (x lo w v : Nat) : bitsOf (setBits x lo w v) lo w = v % 2 ^ w := by
  rw [setBits_eq]
  unfold bitsOf
  rw [Nat.shiftRight_eq_div_pow, Nat.add_mul_div_left _ _ (Nat.two_pow_pos lo), Nat.div_eq_of_lt (Nat.mod_lt _ (Nat.two_pow_pos lo)),
    Nat.zero_add, Nat.add_mul_mod_self_left, Nat.mod_mod]

theorem bitsOf_testBit (x lo w i : Nat) : (bitsOf x lo w).testBit i = (decide (i < w) && x.testBit (lo + i)) := by
  unfold bitsOf
  rw [Nat.testBit_mod_two_pow, Nat.testBit_shiftRight]

theorem setBits_testBit (x lo w v i : Nat) :
    (setBits x lo w v).testBit i = if i < lo then x.testBit i else if i < lo + w then v.testBit (i - lo) else x.testBit i := by
  rw [setBits_eq, Nat.add_comm (x % 2 ^ lo), Nat.testBit_two_pow_mul_add _ (Nat.mod_lt _ (Nat.two_pow_pos lo))]
  split
  · rw [Nat.testBit_mod_two_pow]; simp_all
  · rw [Nat.add_comm (v % 2 ^ w), Nat.testBit_two_pow_mul_add _ (Nat.mod_lt _ (Nat.two_pow_pos w))]
    by_cases h : i < lo + w
    · rw [if_pos (by omega), if_pos h, Nat.testBit_mod_two_pow]
      simp; omega
    · rw [if_neg (by omega), if_neg h, Nat.testBit_div_two_pow]
      congr 1; omega

/-- A field that does not overlap the one written stays. -/
theorem bitsOf_setBits_ne (x lo w v lo' w' : Nat) (h : lo' + w' ≤ lo ∨ lo + w ≤ lo') :
    bitsOf (setBits x lo w v) lo' w' = bitsOf x lo' w' := by
  apply Nat.eq_of_testBit_eq
  intro i
  rw [bitsOf_testBit, bitsOf_testBit, setBits_testBit]
  by_cases hi : i < w'
  · simp only [hi, decide_true, Bool.true_and]
    rcases h with h | h
    · rw [if_pos (by omega)]
    · rw [if_neg (by omega), if_neg (by omega)]
  · simp [hi]

@[simp] theorem Dev.rw_ww_self (a v : Nat) (d : Dev) : (d.ww a v).rw a = v := by simp [Dev.rw, Dev.ww]

theorem Dev.rw_ww_ne {a b : Nat} (v : Nat) (d : Dev) (h : b ≠ a) : (d.ww a v).rw b = d.rw b := by
  simp [Dev.rw, Dev.ww, Tbl.getD_set_ne _ _ _ _ h]

theorem Dev.rw_regs {d d' : Dev} (h : d.regs = d'.regs) (a : Nat) : d.rw a = d'.rw a := by simp [Dev.rw, h]

theorem Dev.rf_regs {d d' : Dev} (h : d.regs = d'.regs) (f : F) (k i j : Nat) : d.rf f k i j = d'.rf f k i j := by
  simp [Dev.rf, Dev.rw, h]

@[simp] theorem Dev.rf_wf_self (f : F) (v : Nat) (d : Dev) (k i j : Nat) : (d.wf f v k i j).rf f k i j = v % 2 ^ f.w := by
  simp [Dev.rf, Dev.wf]

/-- A field of another word stays. -/
theorem Dev.rf_wf_word {f g : F} (v : Nat) (d : Dev) {k i j k' i' j' : Nat} (h : g.addr k' i' j' ≠ f.addr k i j) :
    (d.wf f v k i j).rf g k' i' j' = d.rf g k' i' j' := by
  simp [Dev.rf, Dev.wf, Dev.rw_ww_ne _ _ h]

/-- A field of the same word beside the one written stays. -/
theorem Dev.rf_wf_beside {f g : F} (v : Nat) (d : Dev) {k i j k' i' j' : Nat} (h : g.addr k' i' j' = f.addr k i j)
    (h' : g.lo + g.w ≤ f.lo ∨ f.lo + f.w ≤ g.lo) : (d.wf f v k i j).rf g k' i' j' = d.rf g k' i' j' := by
  simp [Dev.rf, Dev.wf, h, bitsOf_setBits_ne _ _ _ _ _ _ h']

theorem Dev.rw_wf_ne {f : F} (v : Nat) (d : Dev) {k i j a : Nat} (h : a ≠ f.addr k i j) : (d.wf f v k i j).rw a = d.rw a :=
  Dev.rw_ww_ne _ _ h

end Sys2Proof.Machine
end

