-- ==== Sys2Proof/Laws/State.lean ====
section
/-!
SUPPORT. The small lemmas of the state: what each update leaves, field by field.
-/
namespace Sys2Proof.Machine

/-! ### Outcomes -/

@[simp] theorem State.on_eq (s : State) (f : Dev → Dev) : s.on f = .next { s with dev := f s.dev } := rfl

@[simp] theorem State.guarded_true (s : State) (f : Dev → Dev) : s.guarded true f = .next { s with dev := f s.dev } := rfl

@[simp] theorem State.guarded_false (s : State) (f : Dev → Dev) : s.guarded false f = .refused .badOperand := rfl

@[simp] theorem State.onMem_eq (s : State) (f : Dev → List Host.Cell → Dev × List Host.Cell) :
    s.onMem f = .next { s with dev := (f s.dev s.mem).1, mem := (f s.dev s.mem).2 } := rfl

@[simp] theorem Dev.when_true (f : Dev → Dev) (d : Dev) : Dev.when_ true f d = f d := rfl

@[simp] theorem Dev.when_false (f : Dev → Dev) (d : Dev) : Dev.when_ false f d = d := rfl

/-! ### A register word written -/

@[simp] theorem Dev.ww_variant (a v : Nat) (d : Dev) : (d.ww a v).variant = d.variant := rfl
@[simp] theorem Dev.ww_stepping (a v : Nat) (d : Dev) : (d.ww a v).stepping = d.stepping := rfl
@[simp] theorem Dev.ww_strap (a v : Nat) (d : Dev) : (d.ww a v).strap = d.strap := rfl
@[simp] theorem Dev.ww_time (a v : Nat) (d : Dev) : (d.ww a v).time = d.time := rfl
@[simp] theorem Dev.ww_units (a v : Nat) (d : Dev) : (d.ww a v).units = d.units := rfl
@[simp] theorem Dev.ww_ckpt (a v : Nat) (d : Dev) : (d.ww a v).ckpt = d.ckpt := rfl
@[simp] theorem Dev.ww_sigs (a v : Nat) (d : Dev) : (d.ww a v).sigs = d.sigs := rfl
@[simp] theorem Dev.ww_forced (a v : Nat) (d : Dev) : (d.ww a v).forced = d.forced := rfl
@[simp] theorem Dev.ww_sigWait (a v : Nat) (d : Dev) : (d.ww a v).sigWait = d.sigWait := rfl
@[simp] theorem Dev.ww_rimIn (a v : Nat) (d : Dev) : (d.ww a v).rimIn = d.rimIn := rfl
@[simp] theorem Dev.ww_disp (a v : Nat) (d : Dev) : (d.ww a v).disp = d.disp := rfl
@[simp] theorem Dev.ww_last (a v : Nat) (d : Dev) : (d.ww a v).last = d.last := rfl
@[simp] theorem Dev.ww_area (a v : Nat) (d : Dev) : (d.ww a v).area = d.area := rfl
@[simp] theorem Dev.ww_areas (a v : Nat) (d : Dev) : (d.ww a v).areas = d.areas := rfl
@[simp] theorem Dev.ww_load (a v : Nat) (d : Dev) : (d.ww a v).load = d.load := rfl
@[simp] theorem Dev.ww_slots (a v : Nat) (d : Dev) : (d.ww a v).slots = d.slots := rfl
@[simp] theorem Dev.ww_slotPref (a v : Nat) (d : Dev) : (d.ww a v).slotPref = d.slotPref := rfl
@[simp] theorem Dev.ww_slotWr (a v : Nat) (d : Dev) : (d.ww a v).slotWr = d.slotWr := rfl
@[simp] theorem Dev.ww_streamed (a v : Nat) (d : Dev) : (d.ww a v).streamed = d.streamed := rfl
@[simp] theorem Dev.ww_force (a v : Nat) (d : Dev) : (d.ww a v).force = d.force := rfl
@[simp] theorem Dev.ww_forceOld (a v : Nat) (d : Dev) : (d.ww a v).forceOld = d.forceOld := rfl
@[simp] theorem Dev.ww_forcePend (a v : Nat) (d : Dev) : (d.ww a v).forcePend = d.forcePend := rfl
@[simp] theorem Dev.ww_recipes (a v : Nat) (d : Dev) : (d.ww a v).recipes = d.recipes := rfl
@[simp] theorem Dev.ww_recipeParsed (a v : Nat) (d : Dev) : (d.ww a v).recipeParsed = d.recipeParsed := rfl
@[simp] theorem Dev.ww_recipeLoad (a v : Nat) (d : Dev) : (d.ww a v).recipeLoad = d.recipeLoad := rfl
@[simp] theorem Dev.ww_recipeRes (a v : Nat) (d : Dev) : (d.ww a v).recipeRes = d.recipeRes := rfl
@[simp] theorem Dev.ww_recipeStore (a v : Nat) (d : Dev) : (d.ww a v).recipeStore = d.recipeStore := rfl
@[simp] theorem Dev.ww_adc (a v : Nat) (d : Dev) : (d.ww a v).adc = d.adc := rfl
@[simp] theorem Dev.ww_mains (a v : Nat) (d : Dev) : (d.ww a v).mains = d.mains := rfl
@[simp] theorem Dev.ww_outs (a v : Nat) (d : Dev) : (d.ww a v).outs = d.outs := rfl
@[simp] theorem Dev.ww_pins (a v : Nat) (d : Dev) : (d.ww a v).pins = d.pins := rfl
@[simp] theorem Dev.ww_ioHeld (a v : Nat) (d : Dev) : (d.ww a v).ioHeld = d.ioHeld := rfl
@[simp] theorem Dev.ww_carriers (a v : Nat) (d : Dev) : (d.ww a v).carriers = d.carriers := rfl
@[simp] theorem Dev.ww_steps (a v : Nat) (d : Dev) : (d.ww a v).steps = d.steps := rfl
@[simp] theorem Dev.ww_chops (a v : Nat) (d : Dev) : (d.ww a v).chops = d.chops := rfl
@[simp] theorem Dev.ww_eng (a v : Nat) (d : Dev) : (d.ww a v).eng = d.eng := rfl
@[simp] theorem Dev.ww_rings (a v : Nat) (d : Dev) : (d.ww a v).rings = d.rings := rfl
@[simp] theorem Dev.ww_hsig (a v : Nat) (d : Dev) : (d.ww a v).hsig = d.hsig := rfl
@[simp] theorem Dev.ww_dseqs (a v : Nat) (d : Dev) : (d.ww a v).dseqs = d.dseqs := rfl
@[simp] theorem Dev.ww_snaps (a v : Nat) (d : Dev) : (d.ww a v).snaps = d.snaps := rfl
@[simp] theorem Dev.ww_frz (a v : Nat) (d : Dev) : (d.ww a v).frz = d.frz := rfl
@[simp] theorem Dev.ww_stamps (a v : Nat) (d : Dev) : (d.ww a v).stamps = d.stamps := rfl
@[simp] theorem Dev.ww_hol (a v : Nat) (d : Dev) : (d.ww a v).hol = d.hol := rfl
@[simp] theorem Dev.ww_lineRel (a v : Nat) (d : Dev) : (d.ww a v).lineRel = d.lineRel := rfl
@[simp] theorem Dev.ww_can (a v : Nat) (d : Dev) : (d.ww a v).can = d.can := rfl
@[simp] theorem Dev.ww_eth (a v : Nat) (d : Dev) : (d.ww a v).eth = d.eth := rfl
@[simp] theorem Dev.ww_ethRx (a v : Nat) (d : Dev) : (d.ww a v).ethRx = d.ethRx := rfl
@[simp] theorem Dev.ww_netcfg (a v : Nat) (d : Dev) : (d.ww a v).netcfg = d.netcfg := rfl
@[simp] theorem Dev.ww_netApplied (a v : Nat) (d : Dev) : (d.ww a v).netApplied = d.netApplied := rfl
@[simp] theorem Dev.ww_sessions (a v : Nat) (d : Dev) : (d.ww a v).sessions = d.sessions := rfl
@[simp] theorem Dev.ww_owed (a v : Nat) (d : Dev) : (d.ww a v).owed = d.owed := rfl
@[simp] theorem Dev.ww_dupx (a v : Nat) (d : Dev) : (d.ww a v).dupx = d.dupx := rfl
@[simp] theorem Dev.ww_dupOld (a v : Nat) (d : Dev) : (d.ww a v).dupOld = d.dupOld := rfl
@[simp] theorem Dev.ww_hclaimMram (a v : Nat) (d : Dev) : (d.ww a v).hclaimMram = d.hclaimMram := rfl
@[simp] theorem Dev.ww_isl (a v : Nat) (d : Dev) : (d.ww a v).isl = d.isl := rfl
@[simp] theorem Dev.ww_pwr (a v : Nat) (d : Dev) : (d.ww a v).pwr = d.pwr := rfl
@[simp] theorem Dev.ww_planHist (a v : Nat) (d : Dev) : (d.ww a v).planHist = d.planHist := rfl
@[simp] theorem Dev.ww_rst (a v : Nat) (d : Dev) : (d.ww a v).rst = d.rst := rfl
@[simp] theorem Dev.ww_plr (a v : Nat) (d : Dev) : (d.ww a v).plr = d.plr := rfl
@[simp] theorem Dev.ww_evt (a v : Nat) (d : Dev) : (d.ww a v).evt = d.evt := rfl
@[simp] theorem Dev.ww_lc (a v : Nat) (d : Dev) : (d.ww a v).lc = d.lc := rfl
@[simp] theorem Dev.ww_srcHits (a v : Nat) (d : Dev) : (d.ww a v).srcHits = d.srcHits := rfl
@[simp] theorem Dev.ww_unitWr (a v : Nat) (d : Dev) : (d.ww a v).unitWr = d.unitWr := rfl
@[simp] theorem Dev.ww_outWr (a v : Nat) (d : Dev) : (d.ww a v).outWr = d.outWr := rfl
@[simp] theorem Dev.ww_cfgDirty (a v : Nat) (d : Dev) : (d.ww a v).cfgDirty = d.cfgDirty := rfl
@[simp] theorem Dev.ww_cfgCommit (a v : Nat) (d : Dev) : (d.ww a v).cfgCommit = d.cfgCommit := rfl
@[simp] theorem Dev.ww_cfgBlk (a v : Nat) (d : Dev) : (d.ww a v).cfgBlk = d.cfgBlk := rfl
@[simp] theorem Dev.ww_cfgMism (a v : Nat) (d : Dev) : (d.ww a v).cfgMism = d.cfgMism := rfl
@[simp] theorem Dev.ww_sent (a v : Nat) (d : Dev) : (d.ww a v).sent = d.sent := rfl
@[simp] theorem Dev.ww_free (a v : Nat) (d : Dev) : (d.ww a v).free = d.free := rfl

/-! ### A field written -/

@[simp] theorem Dev.wf_variant (g : F) (v : Nat) (d : Dev) (k i j : Nat) : (d.wf g v k i j).variant = d.variant := rfl
@[simp] theorem Dev.wf_stepping (g : F) (v : Nat) (d : Dev) (k i j : Nat) : (d.wf g v k i j).stepping = d.stepping := rfl
@[simp] theorem Dev.wf_strap (g : F) (v : Nat) (d : Dev) (k i j : Nat) : (d.wf g v k i j).strap = d.strap := rfl
@[simp] theorem Dev.wf_time (g : F) (v : Nat) (d : Dev) (k i j : Nat) : (d.wf g v k i j).time = d.time := rfl
@[simp] theorem Dev.wf_units (g : F) (v : Nat) (d : Dev) (k i j : Nat) : (d.wf g v k i j).units = d.units := rfl
@[simp] theorem Dev.wf_ckpt (g : F) (v : Nat) (d : Dev) (k i j : Nat) : (d.wf g v k i j).ckpt = d.ckpt := rfl
@[simp] theorem Dev.wf_sigs (g : F) (v : Nat) (d : Dev) (k i j : Nat) : (d.wf g v k i j).sigs = d.sigs := rfl
@[simp] theorem Dev.wf_forced (g : F) (v : Nat) (d : Dev) (k i j : Nat) : (d.wf g v k i j).forced = d.forced := rfl
@[simp] theorem Dev.wf_sigWait (g : F) (v : Nat) (d : Dev) (k i j : Nat) : (d.wf g v k i j).sigWait = d.sigWait := rfl
@[simp] theorem Dev.wf_rimIn (g : F) (v : Nat) (d : Dev) (k i j : Nat) : (d.wf g v k i j).rimIn = d.rimIn := rfl
@[simp] theorem Dev.wf_disp (g : F) (v : Nat) (d : Dev) (k i j : Nat) : (d.wf g v k i j).disp = d.disp := rfl
@[simp] theorem Dev.wf_last (g : F) (v : Nat) (d : Dev) (k i j : Nat) : (d.wf g v k i j).last = d.last := rfl
@[simp] theorem Dev.wf_area (g : F) (v : Nat) (d : Dev) (k i j : Nat) : (d.wf g v k i j).area = d.area := rfl
@[simp] theorem Dev.wf_areas (g : F) (v : Nat) (d : Dev) (k i j : Nat) : (d.wf g v k i j).areas = d.areas := rfl
@[simp] theorem Dev.wf_load (g : F) (v : Nat) (d : Dev) (k i j : Nat) : (d.wf g v k i j).load = d.load := rfl
@[simp] theorem Dev.wf_slots (g : F) (v : Nat) (d : Dev) (k i j : Nat) : (d.wf g v k i j).slots = d.slots := rfl
@[simp] theorem Dev.wf_slotPref (g : F) (v : Nat) (d : Dev) (k i j : Nat) : (d.wf g v k i j).slotPref = d.slotPref := rfl
@[simp] theorem Dev.wf_slotWr (g : F) (v : Nat) (d : Dev) (k i j : Nat) : (d.wf g v k i j).slotWr = d.slotWr := rfl
@[simp] theorem Dev.wf_streamed (g : F) (v : Nat) (d : Dev) (k i j : Nat) : (d.wf g v k i j).streamed = d.streamed := rfl
@[simp] theorem Dev.wf_force (g : F) (v : Nat) (d : Dev) (k i j : Nat) : (d.wf g v k i j).force = d.force := rfl
@[simp] theorem Dev.wf_forceOld (g : F) (v : Nat) (d : Dev) (k i j : Nat) : (d.wf g v k i j).forceOld = d.forceOld := rfl
@[simp] theorem Dev.wf_forcePend (g : F) (v : Nat) (d : Dev) (k i j : Nat) : (d.wf g v k i j).forcePend = d.forcePend := rfl
@[simp] theorem Dev.wf_recipes (g : F) (v : Nat) (d : Dev) (k i j : Nat) : (d.wf g v k i j).recipes = d.recipes := rfl
@[simp] theorem Dev.wf_recipeParsed (g : F) (v : Nat) (d : Dev) (k i j : Nat) : (d.wf g v k i j).recipeParsed = d.recipeParsed := rfl
@[simp] theorem Dev.wf_recipeLoad (g : F) (v : Nat) (d : Dev) (k i j : Nat) : (d.wf g v k i j).recipeLoad = d.recipeLoad := rfl
@[simp] theorem Dev.wf_recipeRes (g : F) (v : Nat) (d : Dev) (k i j : Nat) : (d.wf g v k i j).recipeRes = d.recipeRes := rfl
@[simp] theorem Dev.wf_recipeStore (g : F) (v : Nat) (d : Dev) (k i j : Nat) : (d.wf g v k i j).recipeStore = d.recipeStore := rfl
@[simp] theorem Dev.wf_adc (g : F) (v : Nat) (d : Dev) (k i j : Nat) : (d.wf g v k i j).adc = d.adc := rfl
@[simp] theorem Dev.wf_mains (g : F) (v : Nat) (d : Dev) (k i j : Nat) : (d.wf g v k i j).mains = d.mains := rfl
@[simp] theorem Dev.wf_outs (g : F) (v : Nat) (d : Dev) (k i j : Nat) : (d.wf g v k i j).outs = d.outs := rfl
@[simp] theorem Dev.wf_pins (g : F) (v : Nat) (d : Dev) (k i j : Nat) : (d.wf g v k i j).pins = d.pins := rfl
@[simp] theorem Dev.wf_ioHeld (g : F) (v : Nat) (d : Dev) (k i j : Nat) : (d.wf g v k i j).ioHeld = d.ioHeld := rfl
@[simp] theorem Dev.wf_carriers (g : F) (v : Nat) (d : Dev) (k i j : Nat) : (d.wf g v k i j).carriers = d.carriers := rfl
@[simp] theorem Dev.wf_steps (g : F) (v : Nat) (d : Dev) (k i j : Nat) : (d.wf g v k i j).steps = d.steps := rfl
@[simp] theorem Dev.wf_chops (g : F) (v : Nat) (d : Dev) (k i j : Nat) : (d.wf g v k i j).chops = d.chops := rfl
@[simp] theorem Dev.wf_eng (g : F) (v : Nat) (d : Dev) (k i j : Nat) : (d.wf g v k i j).eng = d.eng := rfl
@[simp] theorem Dev.wf_rings (g : F) (v : Nat) (d : Dev) (k i j : Nat) : (d.wf g v k i j).rings = d.rings := rfl
@[simp] theorem Dev.wf_hsig (g : F) (v : Nat) (d : Dev) (k i j : Nat) : (d.wf g v k i j).hsig = d.hsig := rfl
@[simp] theorem Dev.wf_dseqs (g : F) (v : Nat) (d : Dev) (k i j : Nat) : (d.wf g v k i j).dseqs = d.dseqs := rfl
@[simp] theorem Dev.wf_snaps (g : F) (v : Nat) (d : Dev) (k i j : Nat) : (d.wf g v k i j).snaps = d.snaps := rfl
@[simp] theorem Dev.wf_frz (g : F) (v : Nat) (d : Dev) (k i j : Nat) : (d.wf g v k i j).frz = d.frz := rfl
@[simp] theorem Dev.wf_stamps (g : F) (v : Nat) (d : Dev) (k i j : Nat) : (d.wf g v k i j).stamps = d.stamps := rfl
@[simp] theorem Dev.wf_hol (g : F) (v : Nat) (d : Dev) (k i j : Nat) : (d.wf g v k i j).hol = d.hol := rfl
@[simp] theorem Dev.wf_lineRel (g : F) (v : Nat) (d : Dev) (k i j : Nat) : (d.wf g v k i j).lineRel = d.lineRel := rfl
@[simp] theorem Dev.wf_can (g : F) (v : Nat) (d : Dev) (k i j : Nat) : (d.wf g v k i j).can = d.can := rfl
@[simp] theorem Dev.wf_eth (g : F) (v : Nat) (d : Dev) (k i j : Nat) : (d.wf g v k i j).eth = d.eth := rfl
@[simp] theorem Dev.wf_ethRx (g : F) (v : Nat) (d : Dev) (k i j : Nat) : (d.wf g v k i j).ethRx = d.ethRx := rfl
@[simp] theorem Dev.wf_netcfg (g : F) (v : Nat) (d : Dev) (k i j : Nat) : (d.wf g v k i j).netcfg = d.netcfg := rfl
@[simp] theorem Dev.wf_netApplied (g : F) (v : Nat) (d : Dev) (k i j : Nat) : (d.wf g v k i j).netApplied = d.netApplied := rfl
@[simp] theorem Dev.wf_sessions (g : F) (v : Nat) (d : Dev) (k i j : Nat) : (d.wf g v k i j).sessions = d.sessions := rfl
@[simp] theorem Dev.wf_owed (g : F) (v : Nat) (d : Dev) (k i j : Nat) : (d.wf g v k i j).owed = d.owed := rfl
@[simp] theorem Dev.wf_dupx (g : F) (v : Nat) (d : Dev) (k i j : Nat) : (d.wf g v k i j).dupx = d.dupx := rfl
@[simp] theorem Dev.wf_dupOld (g : F) (v : Nat) (d : Dev) (k i j : Nat) : (d.wf g v k i j).dupOld = d.dupOld := rfl
@[simp] theorem Dev.wf_hclaimMram (g : F) (v : Nat) (d : Dev) (k i j : Nat) : (d.wf g v k i j).hclaimMram = d.hclaimMram := rfl
@[simp] theorem Dev.wf_isl (g : F) (v : Nat) (d : Dev) (k i j : Nat) : (d.wf g v k i j).isl = d.isl := rfl
@[simp] theorem Dev.wf_pwr (g : F) (v : Nat) (d : Dev) (k i j : Nat) : (d.wf g v k i j).pwr = d.pwr := rfl
@[simp] theorem Dev.wf_planHist (g : F) (v : Nat) (d : Dev) (k i j : Nat) : (d.wf g v k i j).planHist = d.planHist := rfl
@[simp] theorem Dev.wf_rst (g : F) (v : Nat) (d : Dev) (k i j : Nat) : (d.wf g v k i j).rst = d.rst := rfl
@[simp] theorem Dev.wf_plr (g : F) (v : Nat) (d : Dev) (k i j : Nat) : (d.wf g v k i j).plr = d.plr := rfl
@[simp] theorem Dev.wf_evt (g : F) (v : Nat) (d : Dev) (k i j : Nat) : (d.wf g v k i j).evt = d.evt := rfl
@[simp] theorem Dev.wf_lc (g : F) (v : Nat) (d : Dev) (k i j : Nat) : (d.wf g v k i j).lc = d.lc := rfl
@[simp] theorem Dev.wf_srcHits (g : F) (v : Nat) (d : Dev) (k i j : Nat) : (d.wf g v k i j).srcHits = d.srcHits := rfl
@[simp] theorem Dev.wf_unitWr (g : F) (v : Nat) (d : Dev) (k i j : Nat) : (d.wf g v k i j).unitWr = d.unitWr := rfl
@[simp] theorem Dev.wf_outWr (g : F) (v : Nat) (d : Dev) (k i j : Nat) : (d.wf g v k i j).outWr = d.outWr := rfl
@[simp] theorem Dev.wf_cfgDirty (g : F) (v : Nat) (d : Dev) (k i j : Nat) : (d.wf g v k i j).cfgDirty = d.cfgDirty := rfl
@[simp] theorem Dev.wf_cfgCommit (g : F) (v : Nat) (d : Dev) (k i j : Nat) : (d.wf g v k i j).cfgCommit = d.cfgCommit := rfl
@[simp] theorem Dev.wf_cfgBlk (g : F) (v : Nat) (d : Dev) (k i j : Nat) : (d.wf g v k i j).cfgBlk = d.cfgBlk := rfl
@[simp] theorem Dev.wf_cfgMism (g : F) (v : Nat) (d : Dev) (k i j : Nat) : (d.wf g v k i j).cfgMism = d.cfgMism := rfl
@[simp] theorem Dev.wf_sent (g : F) (v : Nat) (d : Dev) (k i j : Nat) : (d.wf g v k i j).sent = d.sent := rfl
@[simp] theorem Dev.wf_free (g : F) (v : Nat) (d : Dev) (k i j : Nat) : (d.wf g v k i j).free = d.free := rfl

@[simp] theorem Dev.wb_eq (g : F) (b : Bool) (d : Dev) (k i j : Nat) : d.wb g b k i j = d.wf g (b2n b) k i j := rfl

theorem Dev.bump_eq (g : F) (n : Nat) (d : Dev) (k i j : Nat) :
    d.bump g n k i j = d.wf g (satAdd (2 ^ g.w - 1) (d.rf g k i j) n) k i j := rfl

theorem Dev.count_eq (g : F) (n : Nat) (d : Dev) (k i j : Nat) : d.count g n k i j = d.wf g (d.rf g k i j + n) k i j := rfl

/-! ### A field counted up -/

@[simp] theorem Dev.bump_variant (g : F) (n : Nat) (d : Dev) (k i j : Nat) : (d.bump g n k i j).variant = d.variant := rfl
@[simp] theorem Dev.bump_stepping (g : F) (n : Nat) (d : Dev) (k i j : Nat) : (d.bump g n k i j).stepping = d.stepping := rfl
@[simp] theorem Dev.bump_strap (g : F) (n : Nat) (d : Dev) (k i j : Nat) : (d.bump g n k i j).strap = d.strap := rfl
@[simp] theorem Dev.bump_time (g : F) (n : Nat) (d : Dev) (k i j : Nat) : (d.bump g n k i j).time = d.time := rfl
@[simp] theorem Dev.bump_units (g : F) (n : Nat) (d : Dev) (k i j : Nat) : (d.bump g n k i j).units = d.units := rfl
@[simp] theorem Dev.bump_ckpt (g : F) (n : Nat) (d : Dev) (k i j : Nat) : (d.bump g n k i j).ckpt = d.ckpt := rfl
@[simp] theorem Dev.bump_sigs (g : F) (n : Nat) (d : Dev) (k i j : Nat) : (d.bump g n k i j).sigs = d.sigs := rfl
@[simp] theorem Dev.bump_forced (g : F) (n : Nat) (d : Dev) (k i j : Nat) : (d.bump g n k i j).forced = d.forced := rfl
@[simp] theorem Dev.bump_sigWait (g : F) (n : Nat) (d : Dev) (k i j : Nat) : (d.bump g n k i j).sigWait = d.sigWait := rfl
@[simp] theorem Dev.bump_rimIn (g : F) (n : Nat) (d : Dev) (k i j : Nat) : (d.bump g n k i j).rimIn = d.rimIn := rfl
@[simp] theorem Dev.bump_disp (g : F) (n : Nat) (d : Dev) (k i j : Nat) : (d.bump g n k i j).disp = d.disp := rfl
@[simp] theorem Dev.bump_last (g : F) (n : Nat) (d : Dev) (k i j : Nat) : (d.bump g n k i j).last = d.last := rfl
@[simp] theorem Dev.bump_area (g : F) (n : Nat) (d : Dev) (k i j : Nat) : (d.bump g n k i j).area = d.area := rfl
@[simp] theorem Dev.bump_areas (g : F) (n : Nat) (d : Dev) (k i j : Nat) : (d.bump g n k i j).areas = d.areas := rfl
@[simp] theorem Dev.bump_load (g : F) (n : Nat) (d : Dev) (k i j : Nat) : (d.bump g n k i j).load = d.load := rfl
@[simp] theorem Dev.bump_slots (g : F) (n : Nat) (d : Dev) (k i j : Nat) : (d.bump g n k i j).slots = d.slots := rfl
@[simp] theorem Dev.bump_slotPref (g : F) (n : Nat) (d : Dev) (k i j : Nat) : (d.bump g n k i j).slotPref = d.slotPref := rfl
@[simp] theorem Dev.bump_slotWr (g : F) (n : Nat) (d : Dev) (k i j : Nat) : (d.bump g n k i j).slotWr = d.slotWr := rfl
@[simp] theorem Dev.bump_streamed (g : F) (n : Nat) (d : Dev) (k i j : Nat) : (d.bump g n k i j).streamed = d.streamed := rfl
@[simp] theorem Dev.bump_force (g : F) (n : Nat) (d : Dev) (k i j : Nat) : (d.bump g n k i j).force = d.force := rfl
@[simp] theorem Dev.bump_forceOld (g : F) (n : Nat) (d : Dev) (k i j : Nat) : (d.bump g n k i j).forceOld = d.forceOld := rfl
@[simp] theorem Dev.bump_forcePend (g : F) (n : Nat) (d : Dev) (k i j : Nat) : (d.bump g n k i j).forcePend = d.forcePend := rfl
@[simp] theorem Dev.bump_recipes (g : F) (n : Nat) (d : Dev) (k i j : Nat) : (d.bump g n k i j).recipes = d.recipes := rfl
@[simp] theorem Dev.bump_recipeParsed (g : F) (n : Nat) (d : Dev) (k i j : Nat) : (d.bump g n k i j).recipeParsed = d.recipeParsed := rfl
@[simp] theorem Dev.bump_recipeLoad (g : F) (n : Nat) (d : Dev) (k i j : Nat) : (d.bump g n k i j).recipeLoad = d.recipeLoad := rfl
@[simp] theorem Dev.bump_recipeRes (g : F) (n : Nat) (d : Dev) (k i j : Nat) : (d.bump g n k i j).recipeRes = d.recipeRes := rfl
@[simp] theorem Dev.bump_recipeStore (g : F) (n : Nat) (d : Dev) (k i j : Nat) : (d.bump g n k i j).recipeStore = d.recipeStore := rfl
@[simp] theorem Dev.bump_adc (g : F) (n : Nat) (d : Dev) (k i j : Nat) : (d.bump g n k i j).adc = d.adc := rfl
@[simp] theorem Dev.bump_mains (g : F) (n : Nat) (d : Dev) (k i j : Nat) : (d.bump g n k i j).mains = d.mains := rfl
@[simp] theorem Dev.bump_outs (g : F) (n : Nat) (d : Dev) (k i j : Nat) : (d.bump g n k i j).outs = d.outs := rfl
@[simp] theorem Dev.bump_pins (g : F) (n : Nat) (d : Dev) (k i j : Nat) : (d.bump g n k i j).pins = d.pins := rfl
@[simp] theorem Dev.bump_ioHeld (g : F) (n : Nat) (d : Dev) (k i j : Nat) : (d.bump g n k i j).ioHeld = d.ioHeld := rfl
@[simp] theorem Dev.bump_carriers (g : F) (n : Nat) (d : Dev) (k i j : Nat) : (d.bump g n k i j).carriers = d.carriers := rfl
@[simp] theorem Dev.bump_steps (g : F) (n : Nat) (d : Dev) (k i j : Nat) : (d.bump g n k i j).steps = d.steps := rfl
@[simp] theorem Dev.bump_chops (g : F) (n : Nat) (d : Dev) (k i j : Nat) : (d.bump g n k i j).chops = d.chops := rfl
@[simp] theorem Dev.bump_eng (g : F) (n : Nat) (d : Dev) (k i j : Nat) : (d.bump g n k i j).eng = d.eng := rfl
@[simp] theorem Dev.bump_rings (g : F) (n : Nat) (d : Dev) (k i j : Nat) : (d.bump g n k i j).rings = d.rings := rfl
@[simp] theorem Dev.bump_hsig (g : F) (n : Nat) (d : Dev) (k i j : Nat) : (d.bump g n k i j).hsig = d.hsig := rfl
@[simp] theorem Dev.bump_dseqs (g : F) (n : Nat) (d : Dev) (k i j : Nat) : (d.bump g n k i j).dseqs = d.dseqs := rfl
@[simp] theorem Dev.bump_snaps (g : F) (n : Nat) (d : Dev) (k i j : Nat) : (d.bump g n k i j).snaps = d.snaps := rfl
@[simp] theorem Dev.bump_frz (g : F) (n : Nat) (d : Dev) (k i j : Nat) : (d.bump g n k i j).frz = d.frz := rfl
@[simp] theorem Dev.bump_stamps (g : F) (n : Nat) (d : Dev) (k i j : Nat) : (d.bump g n k i j).stamps = d.stamps := rfl
@[simp] theorem Dev.bump_hol (g : F) (n : Nat) (d : Dev) (k i j : Nat) : (d.bump g n k i j).hol = d.hol := rfl
@[simp] theorem Dev.bump_lineRel (g : F) (n : Nat) (d : Dev) (k i j : Nat) : (d.bump g n k i j).lineRel = d.lineRel := rfl
@[simp] theorem Dev.bump_can (g : F) (n : Nat) (d : Dev) (k i j : Nat) : (d.bump g n k i j).can = d.can := rfl
@[simp] theorem Dev.bump_eth (g : F) (n : Nat) (d : Dev) (k i j : Nat) : (d.bump g n k i j).eth = d.eth := rfl
@[simp] theorem Dev.bump_ethRx (g : F) (n : Nat) (d : Dev) (k i j : Nat) : (d.bump g n k i j).ethRx = d.ethRx := rfl
@[simp] theorem Dev.bump_netcfg (g : F) (n : Nat) (d : Dev) (k i j : Nat) : (d.bump g n k i j).netcfg = d.netcfg := rfl
@[simp] theorem Dev.bump_netApplied (g : F) (n : Nat) (d : Dev) (k i j : Nat) : (d.bump g n k i j).netApplied = d.netApplied := rfl
@[simp] theorem Dev.bump_sessions (g : F) (n : Nat) (d : Dev) (k i j : Nat) : (d.bump g n k i j).sessions = d.sessions := rfl
@[simp] theorem Dev.bump_owed (g : F) (n : Nat) (d : Dev) (k i j : Nat) : (d.bump g n k i j).owed = d.owed := rfl
@[simp] theorem Dev.bump_dupx (g : F) (n : Nat) (d : Dev) (k i j : Nat) : (d.bump g n k i j).dupx = d.dupx := rfl
@[simp] theorem Dev.bump_dupOld (g : F) (n : Nat) (d : Dev) (k i j : Nat) : (d.bump g n k i j).dupOld = d.dupOld := rfl
@[simp] theorem Dev.bump_hclaimMram (g : F) (n : Nat) (d : Dev) (k i j : Nat) : (d.bump g n k i j).hclaimMram = d.hclaimMram := rfl
@[simp] theorem Dev.bump_isl (g : F) (n : Nat) (d : Dev) (k i j : Nat) : (d.bump g n k i j).isl = d.isl := rfl
@[simp] theorem Dev.bump_pwr (g : F) (n : Nat) (d : Dev) (k i j : Nat) : (d.bump g n k i j).pwr = d.pwr := rfl
@[simp] theorem Dev.bump_planHist (g : F) (n : Nat) (d : Dev) (k i j : Nat) : (d.bump g n k i j).planHist = d.planHist := rfl
@[simp] theorem Dev.bump_rst (g : F) (n : Nat) (d : Dev) (k i j : Nat) : (d.bump g n k i j).rst = d.rst := rfl
@[simp] theorem Dev.bump_plr (g : F) (n : Nat) (d : Dev) (k i j : Nat) : (d.bump g n k i j).plr = d.plr := rfl
@[simp] theorem Dev.bump_evt (g : F) (n : Nat) (d : Dev) (k i j : Nat) : (d.bump g n k i j).evt = d.evt := rfl
@[simp] theorem Dev.bump_lc (g : F) (n : Nat) (d : Dev) (k i j : Nat) : (d.bump g n k i j).lc = d.lc := rfl
@[simp] theorem Dev.bump_srcHits (g : F) (n : Nat) (d : Dev) (k i j : Nat) : (d.bump g n k i j).srcHits = d.srcHits := rfl
@[simp] theorem Dev.bump_unitWr (g : F) (n : Nat) (d : Dev) (k i j : Nat) : (d.bump g n k i j).unitWr = d.unitWr := rfl
@[simp] theorem Dev.bump_outWr (g : F) (n : Nat) (d : Dev) (k i j : Nat) : (d.bump g n k i j).outWr = d.outWr := rfl
@[simp] theorem Dev.bump_cfgDirty (g : F) (n : Nat) (d : Dev) (k i j : Nat) : (d.bump g n k i j).cfgDirty = d.cfgDirty := rfl
@[simp] theorem Dev.bump_cfgCommit (g : F) (n : Nat) (d : Dev) (k i j : Nat) : (d.bump g n k i j).cfgCommit = d.cfgCommit := rfl
@[simp] theorem Dev.bump_cfgBlk (g : F) (n : Nat) (d : Dev) (k i j : Nat) : (d.bump g n k i j).cfgBlk = d.cfgBlk := rfl
@[simp] theorem Dev.bump_cfgMism (g : F) (n : Nat) (d : Dev) (k i j : Nat) : (d.bump g n k i j).cfgMism = d.cfgMism := rfl
@[simp] theorem Dev.bump_sent (g : F) (n : Nat) (d : Dev) (k i j : Nat) : (d.bump g n k i j).sent = d.sent := rfl
@[simp] theorem Dev.bump_free (g : F) (n : Nat) (d : Dev) (k i j : Nat) : (d.bump g n k i j).free = d.free := rfl

end Sys2Proof.Machine
end

