-- ==== Sys2Proof/Laws/Events.lean ====
section
/-!
SUPPORT. Raising an event, said once: it changes the recorder's queue and buckets, snapshots where the code is listed for a freeze, and three
register words (ACQ.FRZ_STAT, EVT.LOST, EVT.STAT); nothing else.
-/
namespace Sys2Proof.Machine

/-- Only the recorder, snapshots, freezes and the three words they write differ. -/
def Dev.EvtOnly (d d' : Dev) : Prop :=
  (∃ r e n z, d' = { d with regs := r, evt := e, snaps := n, frz := z }) ∧
    ∀ a, a ≠ 0xA0024 → a ≠ 0x6002C → a ≠ 0x60004 → d'.rw a = d.rw a

theorem Dev.EvtOnly.refl (d : Dev) : d.EvtOnly d := ⟨⟨d.regs, d.evt, d.snaps, d.frz, rfl⟩, fun _ _ _ _ => rfl⟩

theorem Dev.EvtOnly.trans {a b c : Dev} (h : a.EvtOnly b) (h' : b.EvtOnly c) : a.EvtOnly c := by
  refine ⟨?_, fun x h1 h2 h3 => (h'.2 x h1 h2 h3).trans (h.2 x h1 h2 h3)⟩
  obtain ⟨⟨r, e, n, z, rfl⟩, -⟩ := h
  obtain ⟨⟨r', e', n', z', rfl⟩, -⟩ := h'
  exact ⟨r', e', n', z', rfl⟩

/-- A write of one of the three words. -/
theorem Dev.EvtOnly.wf (g : F) (v : Nat) (d : Dev) (k i j : Nat)
    (h : g.addr k i j = 0xA0024 ∨ g.addr k i j = 0x6002C ∨ g.addr k i j = 0x60004) : d.EvtOnly (d.wf g v k i j) := by
  refine ⟨⟨_, d.evt, d.snaps, d.frz, rfl⟩, fun a h1 h2 h3 => Dev.rw_wf_ne v d ?_⟩
  rcases h with h | h | h <;> rw [h] <;> assumption

/-- A change of the recorder, of snapshots or of freezes. -/
theorem Dev.EvtOnly.fields (d : Dev) (e : EvtSt) (n : Tbl SnapRec) (z : FreezeSt) :
    d.EvtOnly { d with evt := e, snaps := n, frz := z } := ⟨⟨d.regs, e, n, z, rfl⟩, fun _ _ _ _ => rfl⟩

theorem Dev.evtOnly_frzRefuse (d : Dev) : d.EvtOnly d.frzRefuse := Dev.EvtOnly.wf _ _ _ _ _ _ (.inl rfl)

theorem Dev.evtOnly_frzStart (c mf : Nat) (d : Dev) : d.EvtOnly (d.frzStart c mf) := by
  unfold Dev.frzStart
  split
  · exact (Dev.EvtOnly.wf R.ACQ_FRZ_STAT_FULL 1 d 0 0 0 (.inl rfl)).trans (Dev.evtOnly_frzRefuse _)
  · exact ((Dev.EvtOnly.fields d d.evt _ _).trans (Dev.EvtOnly.wf R.ACQ_FRZ_STAT_BUSY _ _ 0 0 0 (.inl rfl))).trans
      (Dev.EvtOnly.wf R.ACQ_FRZ_STAT_SLOT _ _ 0 0 0 (.inl rfl))

theorem Dev.evtOnly_freezeReq (c : Nat) (d : Dev) : d.EvtOnly (d.freezeReq c) := by
  unfold Dev.freezeReq
  dsimp only
  split
  · exact Dev.evtOnly_frzStart _ _ _
  · split
    · exact Dev.EvtOnly.fields d d.evt _ _
    · split
      · exact (Dev.EvtOnly.fields d d.evt d.snaps _).trans (Dev.EvtOnly.wf R.ACQ_FRZ_STAT_QUEUED _ _ 0 0 0 (.inl rfl))
      · exact Dev.evtOnly_frzRefuse _

theorem Dev.evtOnly_enqueueEv (e : EvRec) (d : Dev) : d.EvtOnly (d.enqueueEv e) := by
  unfold Dev.enqueueEv
  split
  · exact Dev.EvtOnly.fields d _ d.snaps d.frz
  · exact ((Dev.EvtOnly.fields d _ d.snaps d.frz).trans (Dev.EvtOnly.wf R.EVT_LOST _ _ 0 0 0 (.inr (.inl rfl)))).trans
      (Dev.EvtOnly.wf R.EVT_STAT_QOVF _ _ 0 0 0 (.inr (.inr rfl)))

theorem Dev.evtOnly_raiseFrom (isl : Bool) (c i : Nat) (x : List Byte) (d : Dev) : d.EvtOnly (d.raiseFrom isl c i x) := by
  have h1 : d.EvtOnly (if d.cfg.own.frz.contains c then d.freezeReq c else d) := by
    split
    · exact Dev.evtOnly_freezeReq _ _
    · exact Dev.EvtOnly.refl d
  unfold Dev.raiseFrom
  dsimp only
  generalize (if d.cfg.own.frz.contains c then d.freezeReq c else d) = d1 at h1 ⊢
  refine h1.trans ?_
  split
  · exact Dev.EvtOnly.refl d1
  · split
    · refine Dev.EvtOnly.trans ?_ (Dev.evtOnly_enqueueEv _ _)
      split
      · exact Dev.EvtOnly.refl d1
      · exact Dev.EvtOnly.fields d1 _ d1.snaps d1.frz
    · exact Dev.EvtOnly.fields d1 _ d1.snaps d1.frz

/-- Raising an event changes nothing beside the recorder, snapshots, freezes and their words. -/
theorem Dev.evtOnly_raise (c i : Nat) (x : List Byte) (d : Dev) : d.EvtOnly (d.raise c i x) := Dev.evtOnly_raiseFrom false c i x d

theorem Dev.raise_rw (c i : Nat) (x : List Byte) (d : Dev) {a : Nat} (h1 : a ≠ 0xA0024) (h2 : a ≠ 0x6002C) (h3 : a ≠ 0x60004) :
    (d.raise c i x).rw a = d.rw a := (Dev.evtOnly_raise c i x d).2 a h1 h2 h3

theorem Dev.raise_rf (c i : Nat) (x : List Byte) (d : Dev) (f : F) (k a b : Nat) (h1 : f.addr k a b ≠ 0xA0024)
    (h2 : f.addr k a b ≠ 0x6002C) (h3 : f.addr k a b ≠ 0x60004) : (d.raise c i x).rf f k a b = d.rf f k a b := by
  simp [Dev.rf, Dev.raise_rw c i x d h1 h2 h3]

@[simp] theorem Dev.raise_variant (c i : Nat) (x : List Byte) (d : Dev) : (d.raise c i x).variant = d.variant := by
  obtain ⟨r, e, n, z, h⟩ := (Dev.evtOnly_raise c i x d).1
  rw [h]

@[simp] theorem Dev.raise_stepping (c i : Nat) (x : List Byte) (d : Dev) : (d.raise c i x).stepping = d.stepping := by
  obtain ⟨r, e, n, z, h⟩ := (Dev.evtOnly_raise c i x d).1
  rw [h]

@[simp] theorem Dev.raise_strap (c i : Nat) (x : List Byte) (d : Dev) : (d.raise c i x).strap = d.strap := by
  obtain ⟨r, e, n, z, h⟩ := (Dev.evtOnly_raise c i x d).1
  rw [h]

@[simp] theorem Dev.raise_time (c i : Nat) (x : List Byte) (d : Dev) : (d.raise c i x).time = d.time := by
  obtain ⟨r, e, n, z, h⟩ := (Dev.evtOnly_raise c i x d).1
  rw [h]

@[simp] theorem Dev.raise_units (c i : Nat) (x : List Byte) (d : Dev) : (d.raise c i x).units = d.units := by
  obtain ⟨r, e, n, z, h⟩ := (Dev.evtOnly_raise c i x d).1
  rw [h]

@[simp] theorem Dev.raise_ckpt (c i : Nat) (x : List Byte) (d : Dev) : (d.raise c i x).ckpt = d.ckpt := by
  obtain ⟨r, e, n, z, h⟩ := (Dev.evtOnly_raise c i x d).1
  rw [h]

@[simp] theorem Dev.raise_sigs (c i : Nat) (x : List Byte) (d : Dev) : (d.raise c i x).sigs = d.sigs := by
  obtain ⟨r, e, n, z, h⟩ := (Dev.evtOnly_raise c i x d).1
  rw [h]

@[simp] theorem Dev.raise_rimIn (c i : Nat) (x : List Byte) (d : Dev) : (d.raise c i x).rimIn = d.rimIn := by
  obtain ⟨r, e, n, z, h⟩ := (Dev.evtOnly_raise c i x d).1
  rw [h]

@[simp] theorem Dev.raise_disp (c i : Nat) (x : List Byte) (d : Dev) : (d.raise c i x).disp = d.disp := by
  obtain ⟨r, e, n, z, h⟩ := (Dev.evtOnly_raise c i x d).1
  rw [h]

@[simp] theorem Dev.raise_last (c i : Nat) (x : List Byte) (d : Dev) : (d.raise c i x).last = d.last := by
  obtain ⟨r, e, n, z, h⟩ := (Dev.evtOnly_raise c i x d).1
  rw [h]

@[simp] theorem Dev.raise_load (c i : Nat) (x : List Byte) (d : Dev) : (d.raise c i x).load = d.load := by
  obtain ⟨r, e, n, z, h⟩ := (Dev.evtOnly_raise c i x d).1
  rw [h]

@[simp] theorem Dev.raise_slots (c i : Nat) (x : List Byte) (d : Dev) : (d.raise c i x).slots = d.slots := by
  obtain ⟨r, e, n, z, h⟩ := (Dev.evtOnly_raise c i x d).1
  rw [h]

@[simp] theorem Dev.raise_slotPref (c i : Nat) (x : List Byte) (d : Dev) : (d.raise c i x).slotPref = d.slotPref := by
  obtain ⟨r, e, n, z, h⟩ := (Dev.evtOnly_raise c i x d).1
  rw [h]

@[simp] theorem Dev.raise_streamed (c i : Nat) (x : List Byte) (d : Dev) : (d.raise c i x).streamed = d.streamed := by
  obtain ⟨r, e, n, z, h⟩ := (Dev.evtOnly_raise c i x d).1
  rw [h]

@[simp] theorem Dev.raise_force (c i : Nat) (x : List Byte) (d : Dev) : (d.raise c i x).force = d.force := by
  obtain ⟨r, e, n, z, h⟩ := (Dev.evtOnly_raise c i x d).1
  rw [h]

@[simp] theorem Dev.raise_forcePend (c i : Nat) (x : List Byte) (d : Dev) : (d.raise c i x).forcePend = d.forcePend := by
  obtain ⟨r, e, n, z, h⟩ := (Dev.evtOnly_raise c i x d).1
  rw [h]

@[simp] theorem Dev.raise_recipes (c i : Nat) (x : List Byte) (d : Dev) : (d.raise c i x).recipes = d.recipes := by
  obtain ⟨r, e, n, z, h⟩ := (Dev.evtOnly_raise c i x d).1
  rw [h]

@[simp] theorem Dev.raise_recipeParsed (c i : Nat) (x : List Byte) (d : Dev) : (d.raise c i x).recipeParsed = d.recipeParsed := by
  obtain ⟨r, e, n, z, h⟩ := (Dev.evtOnly_raise c i x d).1
  rw [h]

@[simp] theorem Dev.raise_recipeLoad (c i : Nat) (x : List Byte) (d : Dev) : (d.raise c i x).recipeLoad = d.recipeLoad := by
  obtain ⟨r, e, n, z, h⟩ := (Dev.evtOnly_raise c i x d).1
  rw [h]

@[simp] theorem Dev.raise_recipeRes (c i : Nat) (x : List Byte) (d : Dev) : (d.raise c i x).recipeRes = d.recipeRes := by
  obtain ⟨r, e, n, z, h⟩ := (Dev.evtOnly_raise c i x d).1
  rw [h]

@[simp] theorem Dev.raise_recipeStore (c i : Nat) (x : List Byte) (d : Dev) : (d.raise c i x).recipeStore = d.recipeStore := by
  obtain ⟨r, e, n, z, h⟩ := (Dev.evtOnly_raise c i x d).1
  rw [h]

@[simp] theorem Dev.raise_adc (c i : Nat) (x : List Byte) (d : Dev) : (d.raise c i x).adc = d.adc := by
  obtain ⟨r, e, n, z, h⟩ := (Dev.evtOnly_raise c i x d).1
  rw [h]

@[simp] theorem Dev.raise_mains (c i : Nat) (x : List Byte) (d : Dev) : (d.raise c i x).mains = d.mains := by
  obtain ⟨r, e, n, z, h⟩ := (Dev.evtOnly_raise c i x d).1
  rw [h]

@[simp] theorem Dev.raise_outs (c i : Nat) (x : List Byte) (d : Dev) : (d.raise c i x).outs = d.outs := by
  obtain ⟨r, e, n, z, h⟩ := (Dev.evtOnly_raise c i x d).1
  rw [h]

@[simp] theorem Dev.raise_pins (c i : Nat) (x : List Byte) (d : Dev) : (d.raise c i x).pins = d.pins := by
  obtain ⟨r, e, n, z, h⟩ := (Dev.evtOnly_raise c i x d).1
  rw [h]

@[simp] theorem Dev.raise_steps (c i : Nat) (x : List Byte) (d : Dev) : (d.raise c i x).steps = d.steps := by
  obtain ⟨r, e, n, z, h⟩ := (Dev.evtOnly_raise c i x d).1
  rw [h]

@[simp] theorem Dev.raise_chops (c i : Nat) (x : List Byte) (d : Dev) : (d.raise c i x).chops = d.chops := by
  obtain ⟨r, e, n, z, h⟩ := (Dev.evtOnly_raise c i x d).1
  rw [h]

@[simp] theorem Dev.raise_eng (c i : Nat) (x : List Byte) (d : Dev) : (d.raise c i x).eng = d.eng := by
  obtain ⟨r, e, n, z, h⟩ := (Dev.evtOnly_raise c i x d).1
  rw [h]

@[simp] theorem Dev.raise_rings (c i : Nat) (x : List Byte) (d : Dev) : (d.raise c i x).rings = d.rings := by
  obtain ⟨r, e, n, z, h⟩ := (Dev.evtOnly_raise c i x d).1
  rw [h]

@[simp] theorem Dev.raise_dseqs (c i : Nat) (x : List Byte) (d : Dev) : (d.raise c i x).dseqs = d.dseqs := by
  obtain ⟨r, e, n, z, h⟩ := (Dev.evtOnly_raise c i x d).1
  rw [h]

@[simp] theorem Dev.raise_hol (c i : Nat) (x : List Byte) (d : Dev) : (d.raise c i x).hol = d.hol := by
  obtain ⟨r, e, n, z, h⟩ := (Dev.evtOnly_raise c i x d).1
  rw [h]

@[simp] theorem Dev.raise_can (c i : Nat) (x : List Byte) (d : Dev) : (d.raise c i x).can = d.can := by
  obtain ⟨r, e, n, z, h⟩ := (Dev.evtOnly_raise c i x d).1
  rw [h]

@[simp] theorem Dev.raise_eth (c i : Nat) (x : List Byte) (d : Dev) : (d.raise c i x).eth = d.eth := by
  obtain ⟨r, e, n, z, h⟩ := (Dev.evtOnly_raise c i x d).1
  rw [h]

@[simp] theorem Dev.raise_ethRx (c i : Nat) (x : List Byte) (d : Dev) : (d.raise c i x).ethRx = d.ethRx := by
  obtain ⟨r, e, n, z, h⟩ := (Dev.evtOnly_raise c i x d).1
  rw [h]

@[simp] theorem Dev.raise_netcfg (c i : Nat) (x : List Byte) (d : Dev) : (d.raise c i x).netcfg = d.netcfg := by
  obtain ⟨r, e, n, z, h⟩ := (Dev.evtOnly_raise c i x d).1
  rw [h]

@[simp] theorem Dev.raise_netApplied (c i : Nat) (x : List Byte) (d : Dev) : (d.raise c i x).netApplied = d.netApplied := by
  obtain ⟨r, e, n, z, h⟩ := (Dev.evtOnly_raise c i x d).1
  rw [h]

@[simp] theorem Dev.raise_sessions (c i : Nat) (x : List Byte) (d : Dev) : (d.raise c i x).sessions = d.sessions := by
  obtain ⟨r, e, n, z, h⟩ := (Dev.evtOnly_raise c i x d).1
  rw [h]

@[simp] theorem Dev.raise_owed (c i : Nat) (x : List Byte) (d : Dev) : (d.raise c i x).owed = d.owed := by
  obtain ⟨r, e, n, z, h⟩ := (Dev.evtOnly_raise c i x d).1
  rw [h]

@[simp] theorem Dev.raise_dupx (c i : Nat) (x : List Byte) (d : Dev) : (d.raise c i x).dupx = d.dupx := by
  obtain ⟨r, e, n, z, h⟩ := (Dev.evtOnly_raise c i x d).1
  rw [h]

@[simp] theorem Dev.raise_dupOld (c i : Nat) (x : List Byte) (d : Dev) : (d.raise c i x).dupOld = d.dupOld := by
  obtain ⟨r, e, n, z, h⟩ := (Dev.evtOnly_raise c i x d).1
  rw [h]

@[simp] theorem Dev.raise_hclaimMram (c i : Nat) (x : List Byte) (d : Dev) : (d.raise c i x).hclaimMram = d.hclaimMram := by
  obtain ⟨r, e, n, z, h⟩ := (Dev.evtOnly_raise c i x d).1
  rw [h]

@[simp] theorem Dev.raise_isl (c i : Nat) (x : List Byte) (d : Dev) : (d.raise c i x).isl = d.isl := by
  obtain ⟨r, e, n, z, h⟩ := (Dev.evtOnly_raise c i x d).1
  rw [h]

@[simp] theorem Dev.raise_pwr (c i : Nat) (x : List Byte) (d : Dev) : (d.raise c i x).pwr = d.pwr := by
  obtain ⟨r, e, n, z, h⟩ := (Dev.evtOnly_raise c i x d).1
  rw [h]

@[simp] theorem Dev.raise_planHist (c i : Nat) (x : List Byte) (d : Dev) : (d.raise c i x).planHist = d.planHist := by
  obtain ⟨r, e, n, z, h⟩ := (Dev.evtOnly_raise c i x d).1
  rw [h]

@[simp] theorem Dev.raise_rst (c i : Nat) (x : List Byte) (d : Dev) : (d.raise c i x).rst = d.rst := by
  obtain ⟨r, e, n, z, h⟩ := (Dev.evtOnly_raise c i x d).1
  rw [h]

@[simp] theorem Dev.raise_plr (c i : Nat) (x : List Byte) (d : Dev) : (d.raise c i x).plr = d.plr := by
  obtain ⟨r, e, n, z, h⟩ := (Dev.evtOnly_raise c i x d).1
  rw [h]

@[simp] theorem Dev.raise_lc (c i : Nat) (x : List Byte) (d : Dev) : (d.raise c i x).lc = d.lc := by
  obtain ⟨r, e, n, z, h⟩ := (Dev.evtOnly_raise c i x d).1
  rw [h]

@[simp] theorem Dev.raise_srcHits (c i : Nat) (x : List Byte) (d : Dev) : (d.raise c i x).srcHits = d.srcHits := by
  obtain ⟨r, e, n, z, h⟩ := (Dev.evtOnly_raise c i x d).1
  rw [h]

@[simp] theorem Dev.raise_unitWr (c i : Nat) (x : List Byte) (d : Dev) : (d.raise c i x).unitWr = d.unitWr := by
  obtain ⟨r, e, n, z, h⟩ := (Dev.evtOnly_raise c i x d).1
  rw [h]

@[simp] theorem Dev.raise_cfgDirty (c i : Nat) (x : List Byte) (d : Dev) : (d.raise c i x).cfgDirty = d.cfgDirty := by
  obtain ⟨r, e, n, z, h⟩ := (Dev.evtOnly_raise c i x d).1
  rw [h]

@[simp] theorem Dev.raise_cfgCommit (c i : Nat) (x : List Byte) (d : Dev) : (d.raise c i x).cfgCommit = d.cfgCommit := by
  obtain ⟨r, e, n, z, h⟩ := (Dev.evtOnly_raise c i x d).1
  rw [h]

@[simp] theorem Dev.raise_cfgBlk (c i : Nat) (x : List Byte) (d : Dev) : (d.raise c i x).cfgBlk = d.cfgBlk := by
  obtain ⟨r, e, n, z, h⟩ := (Dev.evtOnly_raise c i x d).1
  rw [h]

@[simp] theorem Dev.raise_cfgMism (c i : Nat) (x : List Byte) (d : Dev) : (d.raise c i x).cfgMism = d.cfgMism := by
  obtain ⟨r, e, n, z, h⟩ := (Dev.evtOnly_raise c i x d).1
  rw [h]

@[simp] theorem Dev.raise_sent (c i : Nat) (x : List Byte) (d : Dev) : (d.raise c i x).sent = d.sent := by
  obtain ⟨r, e, n, z, h⟩ := (Dev.evtOnly_raise c i x d).1
  rw [h]

@[simp] theorem Dev.raise_free (c i : Nat) (x : List Byte) (d : Dev) : (d.raise c i x).free = d.free := by
  obtain ⟨r, e, n, z, h⟩ := (Dev.evtOnly_raise c i x d).1
  rw [h]

end Sys2Proof.Machine
end

