-- ==== Sys2Proof/Laws/Mem.lean ====
section
/-!
SUPPORT. Memory: a read after a write, and the canonical form that every memory operation keeps.
-/
namespace Sys2Proof.Machine

@[simp] theorem memGet_memSet_self (a : Nat) (b : Byte) (m : List Host.Cell) : memGet (memSet a b m) a = b := by
  simp [memGet, memSet]

theorem memGet_memSet_ne {a c : Nat} (b : Byte) (m : List Host.Cell) (h : c ≠ a) : memGet (memSet a b m) c = memGet m c :=
  Tbl.getD_set_ne _ _ _ m h

theorem Memory.wf_memSet (a : Nat) (b : Byte) (m : List Host.Cell) (h : Memory.wf m = true) : Memory.wf (memSet a b m) = true :=
  Tbl.canon_set (fun _ => memInit) a b m h

theorem Memory.wf_memPut (a : Nat) (bs : List Byte) (m : List Host.Cell) (h : Memory.wf m = true) : Memory.wf (memPut a bs m) = true := by
  induction bs generalizing a m with
  | nil => exact h
  | cons b t ih => exact ih _ _ (Memory.wf_memSet a b m h)

/-- Bytes outside a stretch that is written stay. -/
theorem memGet_memPut_out (a c : Nat) (bs : List Byte) (m : List Host.Cell) (h : c < a ∨ a + bs.length ≤ c) :
    memGet (memPut a bs m) c = memGet m c := by
  induction bs generalizing a m with
  | nil => rfl
  | cons b t ih =>
    simp only [List.length_cons] at h
    rw [memPut, ih _ _ (by omega), memGet_memSet_ne b m (by omega)]

/-- A byte inside a stretch that is written reads as written. -/
theorem memGet_memPut_in (a i : Nat) (bs : List Byte) (m : List Host.Cell) (h : i < bs.length) :
    memGet (memPut a bs m) (a + i) = nth 0 bs i := by
  induction bs generalizing a m i with
  | nil => simp at h
  | cons b t ih =>
    rw [memPut]
    cases i with
    | zero => rw [memGet_memPut_out _ _ _ _ (by omega)]; simp [nth]
    | succ n =>
      simp only [List.length_cons] at h
      have := ih (a + 1) n (memSet a b m) (by omega)
      rw [show a + (n + 1) = a + 1 + n by omega, this]; rfl

theorem Memory.wf_nil : Memory.wf [] = true := rfl

/-- A fold of operations that keep the canonical form keeps it. -/
theorem Memory.wf_foldl {α : Type} (f : List Host.Cell → α → List Host.Cell) (l : List α) (m : List Host.Cell) (h : Memory.wf m = true)
    (hf : ∀ x a, a ∈ l → Memory.wf x = true → Memory.wf (f x a) = true) : Memory.wf (l.foldl f m) = true := by
  induction l generalizing m with
  | nil => exact h
  | cons a t ih => exact ih _ (hf m a (by simp) h) (fun x b hb => hf x b (by simp [hb]))

/-- The same for folds over the device and memory together. -/
theorem Memory.wf_foldl_snd {α : Type} (f : Dev × List Host.Cell → α → Dev × List Host.Cell) (l : List α) (x : Dev × List Host.Cell)
    (h : Memory.wf x.2 = true) (hf : ∀ y a, a ∈ l → Memory.wf y.2 = true → Memory.wf (f y a).2 = true) :
    Memory.wf (l.foldl f x).2 = true := by
  induction l generalizing x with
  | nil => exact h
  | cons a t ih => exact ih _ (hf x a (by simp) h) (fun y b hb => hf y b (by simp [hb]))

/-- What a reset drops leaves the rest canonical. -/
theorem Memory.wf_filter (p : Host.Cell → Bool) (m : List Host.Cell) (h : Memory.wf m = true) : Memory.wf (m.filter p) = true := by
  have key : ∀ (t : List Host.Cell) (b : Nat), Tbl.risesFrom (some b) t = true → Tbl.risesFrom (some b) (t.filter p) = true := by
    intro t
    induction t with
    | nil => intro b _; rfl
    | cons e t ih =>
      intro b hb
      obtain ⟨k, v⟩ := e
      simp only [Tbl.risesFrom, Bool.and_eq_true, decide_eq_true_eq] at hb
      by_cases hp : p (k, v) = true
      · simp only [List.filter_cons, hp, if_true, Tbl.risesFrom, Bool.and_eq_true, decide_eq_true_eq]
        exact ⟨hb.1, ih k hb.2⟩
      · simp only [List.filter_cons, hp]
        exact ih b (Tbl.risesFrom_weaken t (Nat.le_of_lt hb.1) hb.2)
  simp only [Memory.wf, Tbl.canon, Bool.and_eq_true, List.all_eq_true] at *
  refine ⟨?_, fun e he => h.2 e (List.mem_of_mem_filter he)⟩
  cases m with
  | nil => rfl
  | cons e t =>
    obtain ⟨k, v⟩ := e
    have ht := key t k h.1
    by_cases hp : p (k, v) = true
    · simp only [List.filter_cons, hp, if_true]; exact ht
    · simp only [List.filter_cons, hp]; exact Tbl.sorted_of_rises _ ht

theorem Dev.tileWrite_wf (t : Nat) (bs : List Byte) (dirty : Bool) (x : Dev × List Host.Cell) (h : Memory.wf x.2 = true) :
    Memory.wf (Dev.tileWrite t bs dirty x).2 = true := Memory.wf_memPut _ _ _ h

theorem Dev.strike_wf (d : Dev) (flips : List (Nat × Byte)) (m : List Host.Cell) (h : Memory.wf m = true) :
    Memory.wf (d.strike flips m) = true := by
  refine Memory.wf_foldl _ flips m h (fun x f _ hx => ?_)
  split
  · exact Memory.wf_memSet _ _ _ hx
  · exact hx

theorem Dev.commitTiles_wf (u : Nat) (tiles : List (Nat × List Byte)) (x : Dev × List Host.Cell) (h : Memory.wf x.2 = true) :
    Memory.wf (Dev.commitTiles u tiles x).2 = true := by
  refine Memory.wf_foldl_snd _ tiles x h (fun y w _ hy => ?_)
  split
  · exact Dev.tileWrite_wf _ _ _ _ hy
  · exact hy

/-- A stretch that is written reads as written. -/
theorem memRead_memPut_self (a : Nat) (bs : List Byte) (m : List Host.Cell) : memRead (memPut a bs m) a bs.length = bs := by
  apply List.ext_getElem (by simp [memRead])
  intro i h1 h2
  simp only [memRead, List.getElem_map, List.getElem_range]
  rw [memGet_memPut_in a i bs m h2]
  have : ∀ (l : List Byte) (n : Nat) (h : n < l.length), nth 0 l n = l[n] := by
    intro l
    induction l with
    | nil => intro n h; simp at h
    | cons b t ih => intro n h; cases n with
      | zero => rfl
      | succ k => exact ih k (by simpa using h)
  exact this bs i h2

end Sys2Proof.Machine
end

