-- ==== Sys2Proof/Laws/Ops.lean ====
section
/-!
SUPPORT. What each shared operation of the commands can do: an effect on the device, on device and memory, a guard on operands, the
envelope of a request, an answer.
-/
namespace Sys2Proof.Machine

theorem F.addr_def (f : F) (k i j : Nat) : f.addr k i j = f.blk.base + k * 0x10000 + f.off + i * f.s1 + j * f.s2 := rfl

/-! ### Effects -/

theorem State.on_next {s t : State} {f : Dev → Dev} (h : s.on f = .next t) : t = { s with dev := f s.dev } := by
  simp only [State.on, Host.Outcome.next.injEq] at h; exact h.symm

theorem State.onMem_next {s t : State} {f : Dev → List Host.Cell → Dev × List Host.Cell} (h : s.onMem f = .next t) :
    t = { s with dev := (f s.dev s.mem).1, mem := (f s.dev s.mem).2 } := by
  simp only [State.onMem, Host.Outcome.next.injEq] at h; exact h.symm

/-- A guarded command goes on exactly on operands in range, and then touches the device alone. -/
theorem State.guarded_next {s t : State} {ok : Bool} {f : Dev → Dev} (h : s.guarded ok f = .next t) :
    ok = true ∧ t = { s with dev := f s.dev } := by
  cases ok
  · simp at h
  · exact ⟨rfl, State.on_next h⟩

theorem does_on {c : Instr} {s : State} {f : Dev → Dev} {P : Dev → Prop} (h : exec c s = s.on f) (hp : P (f s.dev)) : Does c s P :=
  ⟨f s.dev, h, hp⟩

theorem does_next {c : Instr} {s : State} {P : Dev → Prop} (h : exec c s = .next s) (hp : P s.dev) : Does c s P := ⟨s.dev, h, hp⟩

theorem does_onMem {c : Instr} {s : State} {f : Dev → List Host.Cell → Dev × List Host.Cell} {P : Dev → List Host.Cell → Prop}
    (h : exec c s = s.onMem f) (hp : P (f s.dev s.mem).1 (f s.dev s.mem).2) : DoesMem c s P := ⟨_, _, h, hp⟩

theorem Does.mono {c : Instr} {s : State} {P Q : Dev → Prop} (h : Does c s P) (hpq : ∀ d, P d → Q d) : Does c s Q := by
  obtain ⟨d, he, hp⟩ := h; exact ⟨d, he, hpq d hp⟩

/-! ### Requests -/

/-- A request that its envelope admits runs its operation. -/
theorem State.eyelet_go {s : State} {q : Req} {p : Nat} (f : State → Res) (h : Admitted s q p) : s.eyelet q p f = f s := by
  simp only [State.eyelet]; rw [h]

/-- Whatever the envelope decides, a request goes on where its operation does. -/
theorem State.eyelet_goes {s : State} {q : Req} {p : Nat} {f : State → Res} (h : ∃ t, f s = .next t) : ∃ t, s.eyelet q p f = .next t := by
  unfold State.eyelet
  split <;> first | exact ⟨_, rfl⟩ | exact h

/-- A request that its envelope does not admit changes sessions and what is sent, at most. -/
theorem State.eyelet_next {s t : State} {q : Req} {p : Nat} {f : State → Res} (h : s.eyelet q p f = .next t) :
    f s = .next t ∨ t.mem = s.mem ∧ t.pending = s.pending := by
  unfold State.eyelet at h
  split at h
  · cases h; exact .inr ⟨rfl, rfl⟩
  · rw [State.on_next h]; exact .inr ⟨rfl, rfl⟩
  · rw [State.on_next h]; exact .inr ⟨rfl, rfl⟩
  · cases h; exact .inr ⟨rfl, rfl⟩
  · rw [State.on_next h]; exact .inr ⟨rfl, rfl⟩
  · exact .inl h

/-- An image part with MORE is acknowledged; the final one runs the operation on all parts. -/
theorem State.eyeletImg_final {s : State} {q : Req} {op p : Nat} {img : List Byte} (f : List Byte → State → Res) (h : Admitted s q p)
    (hm : q.more = false) :
    s.eyeletImg q op p img f = f (s.dev.parts q.sess op ++ img) { s with dev := s.dev.setParts q.sess op [] } := by
  simp only [State.eyeletImg]; rw [State.eyelet_go _ h]; simp [hm]

theorem State.eyeletImg_more {s : State} {q : Req} {op p : Nat} {img : List Byte} (f : List Byte → State → Res) (h : Admitted s q p)
    (hm : q.more = true) :
    s.eyeletImg q op p img f =
      s.on (fun d => (d.setParts q.sess op (s.dev.parts q.sess op ++ img)).answer q eyCONTINUE []) := by
  simp only [State.eyeletImg]; rw [State.eyelet_go _ h]; simp [hm]

/-- A request admitted has its session. -/
theorem Admitted.session {s : State} {q : Req} {p : Nat} (h : Admitted s q p) : ∃ x, Tbl.get? s.dev.sessions q.sess = some x := by
  unfold Admitted Dev.envelope at h
  split at h
  · cases h
  · exact ⟨_, by assumption⟩

/-! ### Folds -/

/-- What every step of a fold keeps, the fold keeps. -/
theorem foldl_keeps {α β : Type} (p : β → Prop) (f : β → α → β) (l : List α) (b : β) (h : p b) (hf : ∀ y a, a ∈ l → p y → p (f y a)) :
    p (l.foldl f b) := by
  induction l generalizing b with
  | nil => exact h
  | cons a t ih => exact ih _ (hf b a (by simp) h) (fun y c hc => hf y c (by simp [hc]))

/-- A value that no step of a fold changes. -/
theorem foldl_const {α β γ : Type} (g : β → γ) (f : β → α → β) (l : List α) (b : β) (hf : ∀ y a, g (f y a) = g y) :
    g (l.foldl f b) = g b := by
  induction l generalizing b with
  | nil => rfl
  | cons a t ih => rw [List.foldl_cons, ih, hf]

/-! ### What leaves the device -/

/-- Sending changes what was sent and nothing else. -/
theorem Dev.emit_foldl {α : Type} (g : α → Emit) (l : List α) (d : Dev) :
    l.foldl (fun d x => d.emit (g x)) d = { d with sent := d.sent ++ l.map g } := by
  induction l generalizing d with
  | nil => simp
  | cons a t ih => rw [List.foldl_cons, ih]; simp [Dev.emit]

/-- Serving the queues of a port changes ports alone. -/
theorem Dev.ethKick_only (n : Nat) (d : Dev) : ∃ e, d.ethKick n = { d with eth := e } := by
  have hd : ∃ e, d.ethDrop n = { d with eth := e } := by
    unfold Dev.ethDrop
    split
    · exact ⟨_, rfl⟩
    · exact ⟨_, rfl⟩
  obtain ⟨e0, h0⟩ := hd
  unfold Dev.ethKick
  simp only [h0]
  split
  · exact ⟨_, rfl⟩
  · refine foldl_keeps (fun x => ∃ e, x = { d with eth := e }) _ _ _ ⟨e0, rfl⟩ ?_
    rintro y a - ⟨e, rfl⟩
    dsimp only
    split
    · exact ⟨_, rfl⟩
    · split
      · exact ⟨_, rfl⟩
      · split
        · exact ⟨_, rfl⟩
        · split
          · exact ⟨_, rfl⟩
          · split <;> exact ⟨_, rfl⟩

/-- Enqueuing a frame changes ports alone. -/
theorem Dev.ethPut_only (n : Nat) (x : EthTx) (d : Dev) : ∃ e, d.ethPut n x = { d with eth := e } := by
  unfold Dev.ethPut
  split
  · exact ⟨_, rfl⟩
  · dsimp only
    split <;> (obtain ⟨e, h⟩ := Dev.ethKick_only n (Dev.setPort n _ d); exact ⟨e, h⟩)

/-- Sending a frame, on one port or on a pair, changes ports alone. -/
theorem Dev.ethSend_only (n q : Nat) (c : Option Nat) (b : List Byte) (d : Dev) : ∃ e, d.ethSend n q c b = { d with eth := e } := by
  unfold Dev.ethSend
  split
  · dsimp only
    obtain ⟨e1, h1⟩ := Dev.ethPut_only (n / 2 * 2) { queue := q, bytes := rct 0xA (d.port (n / 2 * 2)).prpSeq b, cyc := c }
      (d.portUp (n / 2 * 2) (fun s => { s with prpSeq := (s.prpSeq + 1) % 65536 }))
    rw [h1]
    obtain ⟨e2, h2⟩ := Dev.ethPut_only (n / 2 * 2 + 1) { queue := q, bytes := rct 0xB (d.port (n / 2 * 2)).prpSeq b, cyc := c }
      { d.portUp (n / 2 * 2) (fun s => { s with prpSeq := (s.prpSeq + 1) % 65536 }) with eth := e1 }
    exact ⟨e2, h2⟩
  · exact Dev.ethPut_only _ _ _

/-- A message over a session counts a record and changes ports, nothing else: what the sessions keep stays. -/
theorem Dev.sessSend_only (i : Nat) (qu : Nat → Option Nat) (msg : List Nat) (pay : List Byte) (d : Dev) :
    ∃ e t, d.sessSend i qu msg pay = { d with eth := e, sessions := t } ∧
      ∀ j x, Tbl.get? d.sessions j = some x → ∃ y, Tbl.get? t j = some y ∧ y.kept = x.kept := by
  unfold Dev.sessSend
  split
  · exact ⟨_, _, rfl, fun j x h => ⟨x, h, rfl⟩⟩
  · rename_i x hx
    obtain ⟨e, he⟩ := Dev.ethSend_only x.port (match qu x.port with | some q => q | none => _) none _
      { d with sessions := Tbl.put i { x with recs := x.recs + 1 } d.sessions }
    refine ⟨e, Tbl.put i { x with recs := x.recs + 1 } d.sessions, he, fun j y hy => ?_⟩
    by_cases hj : j = i
    · subst hj
      rw [hx] at hy
      cases hy
      exact ⟨_, Tbl.get?_put_self _ _ _, rfl⟩
    · exact ⟨y, by rw [Tbl.get?_put_ne _ _ hj]; exact hy, rfl⟩

/-- A response to a client changes ports, sessions and what was sent; what the sessions keep stays. -/
theorem Dev.tell_only (i seq st : Nat) (pay : List Byte) (d : Dev) :
    ∃ e t n, d.tell i seq st pay = { d with eth := e, sessions := t, sent := n } ∧
      ∀ j x, Tbl.get? d.sessions j = some x → ∃ y, Tbl.get? t j = some y ∧ y.kept = x.kept := by
  obtain ⟨e, t, h, hk⟩ := Dev.sessSend_only i (fun n => some ((d.emit (.eyelet i seq st pay)).mgmtQ n)) [1, seq, st] pay (d.emit (.eyelet i seq st pay))
  exact ⟨e, t, _, h, hk⟩

/-- An answer changes ports, sessions and what was sent, and nothing else; in an open session it is the last one kept. -/
theorem Dev.respond_only (sess seq st : Nat) (p : List Byte) (d : Dev) :
    ∃ e t n, d.respond sess seq st p = { d with eth := e, sessions := t, sent := n } ∧
      ∀ x, Tbl.get? d.sessions sess = some x → ∃ y, Tbl.get? t sess = some y ∧
        y.kept.getLast? = some { seq := seq, status := st, payload := p } := by
  unfold Dev.respond
  split
  · rename_i h0
    exact ⟨_, _, _, rfl, fun x h => by rw [h0] at h; cases h⟩
  · dsimp only
    refine foldl_keeps (fun z => ∃ e t n, z = { d with eth := e, sessions := t, sent := n } ∧ ∀ x, Tbl.get? d.sessions sess = some x →
      ∃ y, Tbl.get? t sess = some y ∧ y.kept.getLast? = some { seq := seq, status := st, payload := p }) _ _ _ ?_ ?_
    · refine ⟨_, _, _, rfl, fun _ _ => ⟨_, Tbl.get?_put_self _ _ _, ?_⟩⟩
      simp only [List.getLast?_drop, List.length_append, List.length_singleton, List.getLast?_append, List.getLast?_singleton]
      rw [if_neg (by omega)]
      rfl
    · rintro z r - ⟨e, t, n, rfl, hk⟩
      obtain ⟨e', t', n', h', hk'⟩ := Dev.tell_only sess r.seq r.status r.payload { d with eth := e, sessions := t, sent := n }
      refine ⟨e', t', n', h', fun x hx => ?_⟩
      obtain ⟨y, hy, hl⟩ := hk x hx
      obtain ⟨w, hw, hwk⟩ := hk' _ _ hy
      exact ⟨w, hw, by rw [hwk]; exact hl⟩

theorem Dev.respond_frame (sess seq st : Nat) (p : List Byte) (d : Dev) :
    { d.respond sess seq st p with sessions := d.sessions, sent := d.sent, eth := d.eth } = d := by
  obtain ⟨e, t, n, h, -⟩ := Dev.respond_only sess seq st p d
  rw [h]

theorem Dev.answer_frame (q : Req) (st : Nat) (p : List Byte) (d : Dev) :
    { d.answer q st p with sessions := d.sessions, sent := d.sent, eth := d.eth } = d := Dev.respond_frame _ _ _ _ _

/-- In an open session an answer is the last one kept. -/
theorem Dev.answer_answered (q : Req) (st : Nat) (p : List Byte) (d : Dev) (x : Session) (h : Tbl.get? d.sessions q.sess = some x) :
    Answered q st p (d.answer q st p) := by
  obtain ⟨e, t, n, h', hk⟩ := Dev.respond_only q.sess q.seq st p d
  unfold Answered Dev.answer
  rw [h']
  exact hk x h

end Sys2Proof.Machine
end

