-- ==== Sys2Proof/Tests/Slice0.lean ====
section
/-!
SUPPORT. Tests: ill-formed commands that `Instr.wf` refuses, small tests of single commands against the spec, and for each statement with
premises a witness: concrete states and operands, at boundary values, on which the premises of its clauses hold.
-/
namespace Sys2Proof.Tests
open Sys2Proof Sys2Proof.Machine
set_option linter.unusedVariables false
set_option Elab.async false

/-! ### States to test on -/

/-- Reset with the device changed. -/
def at_ (f : Dev → Dev) : State := { State.reset with dev := f Dev.reset }
/-- A register field written. -/
def put (f : F) (v : Nat) (k : Nat := 0) (i : Nat := 0) (j : Nat := 0) (d : Dev) : Dev := d.wf f v k i j
/-- A session 0 of the highest privilege. -/
def sess (d : Dev) : Dev := { d with sessions := [(0, { priv := 4 })] }
/-- A Last in RUNNING. -/
def runs (l : LastRec) (d : Dev) : Dev := put R.SYS_LAST_STAT_STATE 3 0 0 0 { d with last := some l }
def unit (u : Nat) (x : UnitSt) (d : Dev) : Dev := { d with units := Tbl.put u x d.units }
def tick (t : Nat) (d : Dev) : Dev := { d with time := { d.time with cnt := t, pll := true } }
def cad (n : Nat) (c : CadSt) (d : Dev) : Dev := { d with time := { d.time with cads := Tbl.put n c d.time.cads } }
def q0 : Req := { sess := 0, seq := 1 }
/-- Bytes filled up with zeros. -/
def padTo (n : Nat) (b : List Byte) : List Byte := b ++ zeros (n - b.length)
/-- The sections of a smallest Last: one DRAM bank group for the service cores, a GLOBAL entry, no unit (R39, R41, R46 to R53). -/
def smallSecs : List (Nat × List Byte) :=
  [(1, [0x0A, 0, 0, 0, 1, 0, 0, 0]), (2, leBytes 4 0 ++ leBytes 4 16 ++ zeros 8), (4, leBytes 4 0 ++ leBytes 4 8 ++ zeros 8),
   (5, padTo 160 (leBytes 4 9 ++ leBytes 4 16)), (7, leBytes 4 1 ++ zeros 12 ++ padTo 224 ([0, 0, 4, 50, 12, 3] ++ leBytes 2 10 ++ leBytes 2 20 ++
     zeros 38 ++ [7])), (8, leBytes 4 1 ++ zeros 12 ++ ([1, 0] ++ leBytes 2 80 ++ [0xFF, 0xFF, 0, 0x80] ++ padTo 72 (padTo 64 (leBytes 2 100) ++ leBytes 2 10 ++ leBytes 2 10))),
   (14, leBytes 4 0 ++ leBytes 4 16 ++ zeros 8), (15, padTo 408 (zeros 16 ++ leBytes 2 100))]
/-- The section bodies from an offset, each filled up to 64 bytes, and their table. -/
def layout : Nat → List (Nat × List Byte) → List Byte × List Byte
  | _, [] => ([], [])
  | off, (t, b) :: r =>
    let n := (b.length + 63) / 64 * 64
    let x := layout (off + n) r
    (leBytes 2 t ++ zeros 2 ++ leBytes 4 off ++ leBytes 4 b.length ++ leBytes 4 (crc32c b) ++ x.1, padTo n b ++ x.2)
/-- An unsigned Last of these sections for every variant (R37, R40). -/
def lastOf (secs : List (Nat × List Byte)) : List Byte :=
  let x := layout (64 + 16 * secs.length) secs
  let head := leBytes 4 0x4C415354 ++ leBytes 2 1 ++ leBytes 2 0x40 ++ leBytes 4 (64 + x.1.length + x.2.length + 256) ++ [7, 0, 0, 0] ++
    List.replicate 16 0xAB ++ zeros 8 ++ leBytes 4 secs.length
  head ++ leBytes 4 (crc32c (head ++ zeros 4 ++ zeros 16 ++ x.1 ++ x.2)) ++ zeros 16 ++ x.1 ++ x.2 ++ padTo 256 (leBytes 4 0 ++ [0xFF])
def smallLast : List Byte := lastOf smallSecs

/-! ### The statements about every command -/

/-- Where the premises of `MemoryFrame` and `CommandsKeepTheQueue` hold: a command that stores nothing, and a record's write. -/
theorem witness_MemoryFrame :
    (storesMem .marginPlan = false ∧ ∃ t, exec .marginPlan State.reset = .next t) ∧
    (∃ t, exec .evtRecordWrite State.reset = .next t) ∧ 0 < slotAddr State.reset.dev.evt.wptr :=
  ⟨⟨rfl, _, rfl⟩, ⟨_, rfl⟩, by decide +kernel⟩

/-- Where the premises of `StepKeepsMemoryCanonical` and `IdleStepIsOneTick` hold. -/
theorem witness_StepKeepsMemoryCanonical : State.reset.pending = [] ∧ Memory.wf State.reset.mem = true ∧ ∃ t, step State.reset = .next t :=
  ⟨rfl, by decide, _, rfl⟩

/-- Where the premises of `WellFormedCommandsRun` hold: a well-formed command, a jump past its program, an operand of an instance that is not there. -/
theorem witness_WellFormedCommandsRun :
    (Instr.wf 0 (.cadenceBoundary 255 {}) = true ∧ hasLogicOperand (.cadenceBoundary 255 {}) = false) ∧
    (∃ r, exec (.cadenceBoundary 256 {}) State.reset = .refused r) := by
  exact ⟨by decide +kernel, .badOperand, rfl⟩


namespace Time

def at_ (f : Dev → Dev) : State := { State.reset with dev := f Dev.reset }
def put (f : F) (v : Nat) (k : Nat := 0) (i : Nat := 0) (j : Nat := 0) (d : Dev) : Dev := d.wf f v k i j
def sess (d : Dev) : Dev := { d with sessions := [(0, { priv := 4 })] }
def given.Req : Req := q0
def wT := at_ (sess ∘ put R.TIME_STEP_LO_V 7 0 0 ∘ put R.TIME_SET_NS_LO_V 9 0 0 ∘ put R.TIME_INC_LO_FRAC 0 0 1)

/-- Where the premises of `TimeCaptures` hold. -/
theorem witness_TimeCaptures :
    (let s : State := wT;
      s.dev.envelope given.Req pvVIEW = .go ∧
      0 < 256) := by
  decide +kernel

/-- Where the premises of `TimeWritesCommit` hold. -/
theorem witness_TimeWritesCommit :
    (let s : State := wT;
    let v : Nat := 1;
    let hi : Word := 0x200;
      v < 8 ∧
      (v = 0 → s.dev.running = false) ∧
      (v < 2 → s.dev.vstate v = vsFREE) ∧
      (v < 2 → s.dev.vstate v ≠ vsSPENT) ∧
      v < 2 ∧
      (v < 2 → incOk (s.dev.rf R.TIME_INC_LO_FRAC 0 v + bitsOf (BitVec.toNat hi) 0 16 * 2 ^ 32) = true ∧ s.dev.rf R.TIME_VCTL_SRC 0 v = 0)) ∧
    (let s : State := at_ (put R.TIME_VCTL_SRC 1 0 1);
    let wr : Writer := .core;
    let hi : Word := 0x200;
      (wr = .eyelet ∨ wr = .core) ∧ incOk (s.dev.rf R.TIME_INC_LO_FRAC 0 1 + bitsOf (BitVec.toNat hi) 0 16 * 2 ^ 32) = true ∧
      (wr = .eyelet → s.dev.rf R.TIME_VCTL_SRC 0 1 = 0)) := by
  refine ⟨?_, ?_⟩ <;> decide +kernel

/-- Where the premises of `TimeRefusalsChangeNothing` hold. -/
theorem witness_TimeRefusalsChangeNothing :
    (let s : State := at_ (put R.SYS_LAST_STAT_STATE 3);
    let v : Nat := 0;
    let why : Nat := 1;
      v < 8 ∧
      (v = 0 ∧ s.dev.running = true ∧ why = 1 ∨ ¬(v = 0 ∧ s.dev.running = true) ∧ v < 2 ∧ s.dev.vstate v ≠ vsFREE ∧ why = 2) ∧
      (v = 0 ∧ s.dev.running = true ∧ why = 1 ∨ ¬(v = 0 ∧ s.dev.running = true) ∧ v < 2 ∧ s.dev.vstate v = vsSPENT ∧ why = 2)) ∧
    (let s : State := at_ id;
    let v : Nat := 1;
    let hi : Word := 0;
    let why : Nat := 3;
    let ok := incOk (s.dev.rf R.TIME_INC_LO_FRAC 0 v + bitsOf hi.toNat 0 16 * 2 ^ 32);
      v < 8 ∧
      (v < 2 ∧ ok = false ∧ why = 3 ∨ v < 2 ∧ ok = true ∧ s.dev.rf R.TIME_VCTL_SRC 0 v ≠ 0 ∧ why = 4)) ∧
    (let s : State := at_ (put R.TIME_VCTL_SRC 1 0 1);
    let v : Nat := 1;
    let hi : Word := 0x200;
    let wr : Writer := .eyelet;
    let ok := incOk (s.dev.rf R.TIME_INC_LO_FRAC 0 v + bitsOf hi.toNat 0 16 * 2 ^ 32);
      (wr = .eyelet ∨ wr = .core) ∧ v < 2 ∧ ok = true ∧ wr = .eyelet ∧ s.dev.rf R.TIME_VCTL_SRC 0 v ≠ 0) := by
  refine ⟨?_, ?_, ?_⟩ <;> decide +kernel

/-- A comparator of view 0 whose target has been reached. -/
def cmpW (act tg per : Nat) (f : Dev → Dev := id) : State := at_ (f ∘ put R.TIME_CMPi_CTL_ARM 1 0 63 ∘ put R.TIME_CMPi_CTL_ACTION act 0 63 ∘
  put R.TIME_CMPi_CTL_TARGET tg 0 63 ∘ put R.TIME_CMPi_PER_PER per 0 63)
/-- Cadence 7 of a running Last waits for LOCK. -/
def waitW (t : Nat) : State := at_ (tick t ∘ cad 7 { used := true } ∘ runs { cads := List.replicate 8 ⟨1, 0, true, 5⟩ })
/-- View 0 follows the locked view 1. -/
def nearW (b : Nat) : State := at_ (put R.TIME_VCTL_SRC 2 0 0 ∘ put R.TIME_VSTAT_LOCK 1 0 1 ∘ cad 7 { used := true } ∘ runs { cads := List.replicate 8 ⟨1, 0, true, 5⟩ } ∘
  fun d => { d with time := { d.time with views := [(1, { base := b })] } })
/-- An increment on its way. -/
def slewW (t : Nat) : State := at_ (fun d => { d with rst := { d.rst with coresUp := true }, time := { d.time with views := [(1, { tgt := 2 ^ 41 + t })] } })

/-- Where the premises of `TimeControlAndTimers` hold: sources, slews, comparators with each action. -/
theorem witness_TimeControlAndTimers :
    (let s : State := at_ (put R.TIME_VCTL_SRC 1 0 1 ∘ put R.TIME_VSTAT_LOCK 1 0 1);
    let w : Word := 0x302;
    let src := bitsOf w.toNat 0 2;
      2 ≤ 7 ∧ 7 < 8 ∧ ¬ src < 2 ∧ src ≠ 1 ∧ s.dev.locked 1 = true ∧ s.dev.running = false ∧ s.dev.vstate 0 ≠ vsSPENT ∧
      s.dev.rf R.TIME_VCTL_SRC 0 0 ≠ src ∧ bitsOf w.toNat 8 5 ≠ s.dev.rf R.TIME_VCTL_SEG 0 1 ∧ s.dev.rf R.TIME_VCTL_SRC 0 1 ≠ bitsOf (0x300 : Word).toNat 0 2) ∧
    (let s : State := slewW 16384;
    let v : Nat := 1;
      v < 2 ∧ s.dev.steady v = false ∧ (s.dev.vw v).inc ≠ (s.dev.vw v).tgt ∧
      (((s.dev.vw v).tgt : Int) - (s.dev.vw v).inc).natAbs ≤ s.dev.slewLeft v) ∧
    (let s : State := slewW 16385;
    let v : Nat := 1;
      v < 2 ∧ s.dev.steady v = false ∧ (s.dev.vw v).inc ≠ (s.dev.vw v).tgt ∧
      s.dev.slewLeft v < (((s.dev.vw v).tgt : Int) - (s.dev.vw v).inc).natAbs) ∧
    (let s : State := at_ (put R.TIME_VCTL_SRC 2 ∘ fun d => { d with time := { d.time with views := [(0, { tgt := 2 ^ 41 + 1 })] } });
      s.dev.steady 0 = true) ∧
    (let s : State := slewW 0;
      s.dev.steady 1 = true ∨ (s.dev.vw 1).inc = (s.dev.vw 1).tgt) ∧
    (let s : State := cmpW 2 128 1000 (cad 7 { used := true, deferred := true });
    let i : Nat := 63;
    let now := s.dev.viewNs (s.dev.rf R.TIME_CMPi_CTL_VIEW 0 i);
    let per := s.dev.rf R.TIME_CMPi_PER_PER 0 i;
      i < 64 ∧ s.dev.flag R.TIME_CMPi_CTL_ARM 0 i = true ∧ Tbl.getD 0 s.dev.time.cmp i ≤ now ∧ (∀ j < i, s.dev.cmpDue j = false) ∧ per ≠ 0 ∧ now + per < 2 ^ 64 ∧
      s.dev.rf R.TIME_CMPi_CTL_ACTION 0 i = 2 ∧ bitAt (s.dev.rf R.TIME_CMPi_CTL_TARGET 0 i) 7 = true ∧ (s.dev.cad 7).used = true) ∧
    (let s : State := cmpW 1 15 0 (put R.ADC_CTRL_EN 1 15 ∘ put R.ADC_CHn_CTL_EN 1 15 15 ∘ put R.ADC_CHn_CTL_MODE 3 15 15);
    let i : Nat := 63;
    let tg := s.dev.rf R.TIME_CMPi_CTL_TARGET 0 i;
      i < 64 ∧ s.dev.flag R.TIME_CMPi_CTL_ARM 0 i = true ∧ Tbl.getD 0 s.dev.time.cmp i ≤ s.dev.viewNs (s.dev.rf R.TIME_CMPi_CTL_VIEW 0 i) ∧
      s.dev.rf R.TIME_CMPi_PER_PER 0 i = 0 ∧ s.dev.rf R.TIME_CMPi_CTL_ACTION 0 i = 1 ∧ tg < s.dev.nBanks ∧ 15 ∈ s.dev.chsOn tg ∧
      s.dev.rf R.ADC_CHn_CTL_MODE tg 15 = 3 ∧ (s.dev.adcCh tg 15).opened = none) ∧
    (let s : State := cmpW 3 3 0 (runs { units := [⟨511, 5, false, 7, 0, 0, []⟩], engs := [(511, List.replicate 4 {})] });
    let i : Nat := 63;
      i < 64 ∧ s.dev.flag R.TIME_CMPi_CTL_ARM 0 i = true ∧ s.dev.rf R.TIME_CMPi_CTL_ACTION 0 i = 3 ∧
      s.dev.engOf (s.dev.rf R.TIME_CMPi_CTL_TARGET 0 i) = some (511, 3)) ∧
    (let s : State := at_ id;
      63 < 64 ∧ s.dev.flag R.TIME_CMPi_CTL_ARM 0 63 = false) ∧
    (let s : State := cmpW 2 128 1000 (put R.TIME_CMPi_CTL_ARM 1 0 62);
      s.dev.flag R.TIME_CMPi_CTL_ARM 0 63 = true ∧ 62 < 63 ∧ s.dev.cmpDue 62 = true) := by
  refine ⟨?_, ?_, ?_, ?_, ?_, ?_, ?_, ?_, ?_, ?_⟩ <;> decide +kernel

/-- Where the premises of `TimeControlAndTimers` hold: waiting for LOCK. -/
theorem witness_TimeControlAndTimers_lock :
    (let s : State := waitW 2500000000;
    let n : Nat := 7;
    let lim := (nth { mult := 0, phase := 0, waitLock := false, timeout := 0 } s.dev.cfg.cads n).timeout;
      n < 8 ∧ s.dev.running = true ∧ (s.dev.cad n).used = true ∧ (s.dev.cad n).ref = none ∧ lim ≠ 0 ∧
      (s.dev.cad n).since + lim * 500000000 ≤ s.dev.time.cnt) ∧
    (let s : State := waitW 2499999999;
    let n : Nat := 7;
    let lim := (nth { mult := 0, phase := 0, waitLock := false, timeout := 0 } s.dev.cfg.cads n).timeout;
      n < 8 ∧ ¬ ((s.dev.cad n).since + lim * 500000000 ≤ s.dev.time.cnt)) ∧
    (let s : State := nearW (1000 * 2 ^ 40 - 1);
    let k : Nat := 7;
      s.dev.rf R.TIME_VCTL_SRC = 2 ∧ s.dev.locked 1 = true ∧ s.dev.locked 0 = false ∧
      (((s.dev.view 0) : Int) - ((s.dev.view 1) : Int)).natAbs < 1000 * 2 ^ 40 ∧
      k < 8 ∧ s.dev.running = true ∧ (s.dev.cad k).used = true ∧ (s.dev.cad k).ref = none) ∧
    (let s : State := nearW (1000 * 2 ^ 40);
      ¬ ((((s.dev.view 0) : Int) - ((s.dev.view 1) : Int)).natAbs < 1000 * 2 ^ 40)) := by
  refine ⟨?_, ?_, ?_, ?_⟩ <;> decide +kernel
end Time

namespace Fabric

def given.c : Ckpt := { k := 3 }
def given.e : Option (Nat × Nat) × List (Nat × Byte) := (none, [(1023, 5)])
def given.rest : List (Option (Nat × Nat) × List (Nat × Byte)) := []
def given.l : LevelRec := ⟨1, 1, 0, 0⟩
def bC := at_ (cad 7 { used := true, ref := some 0, run := true } ∘ put R.TIME_CADn_CFG_MULT 1000 0 7 ∘ tick 500000
    ∘ runs { cads := List.replicate 8 ⟨1000, 0, false, 0⟩ } ∘ unit 511 { kind := 1, cad := 7 })
def cU (x : UnitSt) := at_ (cad 7 { used := true, ref := some 0, run := true } ∘ put R.TIME_CADn_CFG_MULT 1000 0 7 ∘ tick 250000
    ∘ runs { cads := List.replicate 8 ⟨1000, 0, false, 0⟩ } ∘ unit 511 x)
def dL (q : Nat) (rl : Nat) (l : Nat) : LastRec :=
    { levels := [(16 + l, ⟨q, rl, 0, 0⟩)], flows := [⟨4095, 1, l, 31, 4, 0⟩], handlers := [(511, [4095])], proof := { handlers := [⟨511, 4095, 1, 1, 1, 1, 1⟩] } }
def dD (q rl : Nat) (st : DispSt) := at_ (runs (dL q rl 15) ∘ fun d => { d with disp := [(1, st)] })
def anItem : Item := { stamp := 1, flow := 4095, level := 15, origin := 0, payload := zeros 20 }
def dU := at_ (runs (dL 1 1 15) ∘ unit 511 { kind := 2, event := true } ∘ fun d => { d with disp := [(1, { store := [anItem] })] })
/-- An item that stayed with its unit after a failed shadow check. -/
def dK := at_ (runs (dL 1 1 15) ∘ unit 511 { kind := 2, event := true, item := some anItem } ∘ fun d => { d with disp := [(1, { serv := [4095] })] })
def dR := at_ (runs (dL 1 1 15) ∘ unit 511 { kind := 2, event := true, run := 1, item := some anItem }
    ∘ fun d => { d with disp := [(1, { ring := [anItem, anItem], serv := [4095] })] })

/-- Where the premises of `BoundaryCountsCycles` hold. -/
theorem witness_BoundaryCountsCycles :
    (let s : State := bC;
    let mask : Nat := 255;
      mask < 256 ∧
      s.dev.dupx.await = []) := by
  decide +kernel

/-- Where the premises of `CompletionCommits` hold. -/
theorem witness_CompletionCommits :
    (let s : State := cU { kind := 1, cad := 7, run := 1 };
    let u : Nat := 511;
      u < s.dev.nUnits ∧
      (s.dev.un u).run = 1 ∧
      (s.dev.un u).event = false ∧
      (s.dev.un u).done = false ∧
      (s.dev.un u).late = false ∧
      (Dev.struck [(tileAddr 16383, 1)] (s.dev, s.mem)).1.ready u = true ∧
      (s.dev.un u).scanning = false ∧
      (Dev.struck [(tileAddr 16383, 1)] (s.dev, s.mem)).1.shadowBad (s.dev.strike [(tileAddr 16383, 1)] s.mem) u [(31, [])] = none) ∧
    (let s : State := cU { kind := 2, cad := 7, run := 1, late := true };
    let u : Nat := 511;
      u < s.dev.nUnits ∧
      (s.dev.un u).run = 1 ∧
      (s.dev.un u).event = false ∧
      (s.dev.un u).done = false ∧
      (s.dev.un u).late = true ∧
      (Dev.struck [] (s.dev, s.mem)).1.shadowBad (s.dev.strike [] s.mem) u [] = none) ∧
    (let s : State := cU { kind := 1, cad := 7, run := 1, tiles := [⟨31, 3, false, 16383, false, 0⟩] };
    let u : Nat := 511;
      (s.dev.un u).run = 1 ∧
      (s.dev.un u).event = false ∧
      (s.dev.un u).done = false ∧
      (s.dev.un u).late = false ∧
      (Dev.struck [] (s.dev, s.mem)).1.ready u = true ∧
      (s.dev.un u).scanning = false ∧
      (Dev.struck [] (s.dev, s.mem)).1.shadowBad (s.dev.strike [] s.mem) u [(31, [])] = some ⟨31, 3, false, 16383, false, 0⟩) := by
  refine ⟨?_, ?_, ?_⟩ <;> decide +kernel

/-- Where the premises of `TilesAndCheckpoints` hold. -/
theorem witness_TilesAndCheckpoints :
    (let s : State := at_ (fun d => { d with ckpt := [(7, { pend := some { k := 3 } })] });
    let n : Nat := 7;
    let u : Nat := 0;
      n < 8 ∧
      (Tbl.getD { } s.dev.ckpt n).pend = some given.c ∧
      s.dev.dupx.acks.get? n = none ∧
      u < s.dev.nUnits) ∧
    (let s : State := at_ (unit 511 { kind := 1, restoring := true, run := 3 });
    let u : Nat := 511;
      u < s.dev.nUnits ∧
      (s.dev.un u).restoring = true) ∧
    (let s : State := at_ (unit 511 { kind := 1, tiles := [⟨0, 2, false, 16383, false, 0⟩], deferW := [(none, [(1023, 5)])] });
    let u : Nat := 511;
      u < s.dev.nUnits ∧
      (s.dev.un u).deferW = given.e :: given.rest ∧
      (s.dev.un u).run = 0) := by
  refine ⟨?_, ?_, ?_⟩ <;> decide +kernel

/-- Where the premises of `Dispatcher` hold. -/
theorem witness_Dispatcher :
    (let s : State := dU;
    let u : Nat := 511;
    let die : Nat := 1;
    let level : Nat := 15;
    let it : Item := anItem;
    let q : DispSt := Tbl.getD {} s.dev.disp die;
    let mine (x : List Item) : List Item := x.filter (fun i => decide (i.level = level));
      u < s.dev.nUnits ∧
      s.dev.choice u = some it ∧
      (s.dev.un u).item = none ∧
      s.dev.idleEv u = true ∧
      (∀ v ∈ s.dev.evUnits, v / 16 = u / 16 → v < u → s.dev.idleEv v = true → s.dev.choice v = none) ∧
      s.dev.envFull (rgnOf u) = false ∧
      s.dev.failing s.mem u = none ∧
      die < s.dev.nDies ∧
      level < 16 ∧
      s.dev.levelOf die level = some given.l ∧
      (mine q.store).length ≤ given.l.quota) ∧
    (let s : State := dD 1 0 {};
    let die : Nat := 1;
    let flow : Nat := 4095;
    let prod : Nat := 2;
    let orig : Nat := 2047;
    let f : FlowRec := FlowRec.mk 4095 1 15 31 4 0;
    let l : LevelRec := LevelRec.mk 1 0 0 0;
    let q : DispSt := Tbl.getD {} s.dev.disp die;
      die < s.dev.nDies ∧
      flow < 4096 ∧
      prod < 3 ∧
      orig < 2048 ∧
      s.dev.flowOf die flow = some f ∧
      s.dev.levelOf die f.level = some l ∧
      die < 2 ∧
      f.level < 16 ∧
      s.dev.rst.dark = false ∧
      s.dev.rst.epi = none ∧
      ((List.filter (fun x => decide (x.level = f.level)) q.store).length < l.quota ∧ ∀ x ∈ q.ring, ¬(x.level = f.level ∧ x.flow = flow))) ∧
    (let s : State := dD 0 4 {};
    let die : Nat := 1;
    let flow : Nat := 4095;
    let prod : Nat := 2;
    let orig : Nat := 2047;
    let f : FlowRec := FlowRec.mk 4095 1 15 31 4 0;
    let l : LevelRec := LevelRec.mk 0 4 0 0;
    let q : DispSt := Tbl.getD {} s.dev.disp die;
      die < s.dev.nDies ∧
      flow < 4096 ∧
      prod < 3 ∧
      orig < 2048 ∧
      s.dev.flowOf die flow = some f ∧
      s.dev.levelOf die f.level = some l ∧
      die < 2 ∧
      f.level < 16 ∧
      s.dev.rst.dark = false ∧
      s.dev.rst.epi = none ∧
      (¬((List.filter (fun x => decide (x.level = f.level)) q.store).length < l.quota ∧ ∀ x ∈ q.ring, ¬(x.level = f.level ∧ x.flow = flow))) ∧
      l.ringlog ≠ 0 ∧
      (List.filter (fun x => decide (x.level = f.level)) q.ring).length < 2 ^ l.ringlog) ∧
    (let s : State := dD 0 0 {};
    let die : Nat := 1;
    let flow : Nat := 4095;
    let prod : Nat := 2;
    let orig : Nat := 2047;
    let f : FlowRec := FlowRec.mk 4095 1 15 31 4 0;
    let l : LevelRec := LevelRec.mk 0 0 0 0;
    let q : DispSt := Tbl.getD {} s.dev.disp die;
      die < s.dev.nDies ∧
      flow < 4096 ∧
      prod < 3 ∧
      orig < 2048 ∧
      s.dev.flowOf die flow = some f ∧
      s.dev.levelOf die f.level = some l ∧
      die < 2 ∧
      f.level < 16 ∧
      s.dev.rst.dark = false ∧
      s.dev.rst.epi = none ∧
      (¬((List.filter (fun x => decide (x.level = f.level)) q.store).length < l.quota ∧ ∀ x ∈ q.ring, ¬(x.level = f.level ∧ x.flow = flow))) ∧
      (¬(l.ringlog ≠ 0 ∧ (List.filter (fun x => decide (x.level = f.level)) q.ring).length < 2 ^ l.ringlog))) ∧
    (let s : State := dR;
    let u : Nat := 511;
    let it : Item := anItem;
      u < s.dev.nUnits ∧
      (s.dev.un u).item = some it ∧
      (s.dev.un u).run = 1 ∧
      (s.dev.un u).scanning = false ∧
      (s.dev.un u).regw = [] ∧ (s.dev.un u).smpWait = [] ∧
      s.dev.shadowBad (s.dev.strike [] s.mem) u [] = none) ∧
    (let s : State := dK;
    let u : Nat := 511;
      s.dev.choice u = some anItem ∧
      (s.dev.un u).item = some anItem ∧
      s.dev.idleEv u = true ∧
      (∀ v ∈ s.dev.evUnits, v / 16 = u / 16 → v < u → s.dev.idleEv v = true → s.dev.choice v = none) ∧
      s.dev.envFull (rgnOf u) = false ∧
      s.dev.failing s.mem u = none) ∧
    (let s : State := at_ (fun d => { d with rst := { d.rst with dark := true } });
      1 < s.dev.nDies ∧ (4095 : Nat) < 4096 ∧ 2 < 3 ∧ (2047 : Nat) < 2048 ∧
      (s.dev.rst.dark = true ∨ s.dev.rst.epi ≠ none)) := by
  refine ⟨?_, ?_, ?_, ?_, ?_, ?_, ?_⟩ <;> decide +kernel

/-- No unit of that state has register writes waiting. -/
theorem witness_BoundaryCountsCycles_units : ∀ u : Nat, (bC.dev.un u).regw = [] := by
  intro u
  by_cases h : u = 511
  · subst h; rfl
  · have e : bC.dev.un u = (Tbl.getD {} (Tbl.put 511 ({ kind := 1, cad := 7 } : UnitSt) []) u) := rfl
    rw [e, Tbl.getD_put_ne _ _ _ h]; rfl
end Fabric

namespace Loads

def qm : Req := { sess := 0, seq := 1, more := true }
def sS := at_ sess
def sSl := at_ (sess ∘ fun d => { d with slots := [(1, {st := 2, image := smallLast})] })
def given.im := smallLast
def ldW (k : Nat) := at_ (fun d => put R.SYS_LAST_STAT_STATE 1 0 0 0 { d with load := some { src := 3, last := parseLast smallLast, step := k, boot := false } })
def kp (n : Nat) (s : Nat) := (List.range n).map (fun i => KeptResp.mk (i + s) 0 [])
def sK (k : List KeptResp) (pv : Nat) := at_ (fun d => { d with sessions := [(0, { priv := pv, kept := k })] })
def given.r : KeptResp := ⟨1, 0, []⟩
def given.e : EvRec := { code := Ev.RESET, inst := 0, opsec := 0, pcycle := 1, t1 := none, island := false, data := [0x31, 0, 2, 0] }

/-- Where the premises of `LoadsBegin` hold. -/
theorem witness_LoadsBegin :
    (let s : State := sS;
    let q : Req := qm;
    let n : Nat := 1;
      q.more = true ∧
      s.dev.envelope q pvENGINEER = .go ∧
      Dev.imgBusy q 16 s.dev = false ∧
      s.dev.envelope q pvVIEW = .go ∧
      Dev.imgBusy q 18 s.dev = false ∧
      n < 2 ∧
      s.dev.envelope q pvOWNER = .go ∧
      Dev.imgBusy q (1245184 + n) s.dev = false ∧
      s.dev.envelope q pvOPERATE = .go) ∧
    (let s : State := sS;
    let q : Req := q0;
    let img : List Byte := smallLast;
    let slot : Nat := 1;
      s.dev.envelope q pvENGINEER = .go ∧
      q.more = false ∧
      s.dev.rst.lcPend = false ∧
      s.dev.lc.erasing = false ∧
      Dev.imgBusy q 16 s.dev = false ∧
      (Dev.lastCheck (s.dev.parts q.sess 16 ++ img) (Dev.taken q (Dev.setParts q.sess 16 [] s.dev))).1 = ldOK ∧
      (s.dev.lastState = lsEMPTY ∨ s.dev.lastState = lsSTOPPED) ∧
      slot < 2 ∧
      Dev.imgBusy { sess := q.sess, seq := q.seq } 0 s.dev = false ∧
      (Dev.lastCheck (Tbl.getD { } s.dev.slots slot).image (Dev.taken q (Dev.setParts q.sess 0 [] s.dev))).1 ≠ ldOK) ∧
    (let s : State := sSl;
    let q : Req := q0;
    let slot : Nat := 1;
      s.dev.envelope q pvENGINEER = .go ∧
      q.more = false ∧
      s.dev.rst.lcPend = false ∧
      s.dev.lc.erasing = false ∧
      slot < 2 ∧
      Dev.imgBusy { sess := q.sess, seq := q.seq } 0 s.dev = false ∧
      (Dev.lastCheck (Tbl.getD { } s.dev.slots slot).image (Dev.taken q (Dev.setParts q.sess 0 [] s.dev))).1 = ldOK ∧
      (s.dev.lastState = lsEMPTY ∨ s.dev.lastState = lsSTOPPED)) ∧
    (let s : State := at_ (sess ∘ put R.SYS_LAST_STAT_STATE 2);
    let q : Req := q0;
    let img : List Byte := [];
      s.dev.envelope q pvENGINEER = .go ∧
      q.more = false ∧
      s.dev.rst.lcPend = false ∧
      s.dev.lc.erasing = false ∧
      Dev.imgBusy q 16 s.dev = false ∧
      (Dev.lastCheck (s.dev.parts q.sess 16 ++ img) (Dev.taken q (Dev.setParts q.sess 16 [] s.dev))).1 ≠ ldOK) ∧
    (let s : State := at_ (sess ∘ put R.SYS_LAST_STAT_STATE 3);
    let q : Req := q0;
    let img : List Byte := smallLast;
      (Dev.lastCheck (s.dev.parts q.sess 16 ++ img) (Dev.taken q (Dev.setParts q.sess 16 [] s.dev))).1 = ldOK ∧
      s.dev.lastState ≠ lsEMPTY ∧ s.dev.lastState ≠ lsSTOPPED) ∧
    (let s : State := at_ (sess ∘ fun d => { d with slotWr := some { slot := 1, image := [], owe := (0, 7) } });
    let q : Req := q0;
    let n : Nat := 1;
      s.dev.envelope q pvENGINEER = .go ∧ s.dev.envelope q pvVIEW = .go ∧ s.dev.envelope q pvOWNER = .go ∧ n < 2 ∧
      Dev.imgBusy q 16 s.dev = true ∧ Dev.imgBusy q 18 s.dev = true ∧ Dev.imgBusy q (1245184 + n) s.dev = true ∧
      Dev.imgBusy { sess := q.sess, seq := q.seq } 0 s.dev = true) := by
  refine ⟨?_, ?_, ?_, ?_, ?_, ?_⟩ <;> decide +kernel

/-- Where the premises of `SlotsAndVerify` hold. -/
theorem witness_SlotsAndVerify :
    (let s : State := at_ (sess ∘ fun d => { d with streamed := some smallLast });
    let q : Req := q0;
    let slot : Nat := 1;
      q.more = false ∧
      s.dev.envelope q pvVIEW = .go ∧
      Dev.imgBusy q 18 s.dev = false ∧
      slot < 2 ∧
      s.dev.envelope q pvOWNER = .go ∧
      Dev.imgBusy q (1245184 + slot) s.dev = false ∧
      ¬ (s.dev.running = true ∧ s.dev.rf R.SYS_LAST_STAT_SRC = slot + 1) ∧
      Dev.imgBusy { sess := q.sess, seq := q.seq } 0 s.dev = false ∧
      s.dev.streamed = some given.im) ∧
    (let s : State := at_ (sess ∘ put R.SYS_LAST_STAT_STATE 3 ∘ put R.SYS_LAST_STAT_SRC 2 ∘ fun d => { d with streamed := some smallLast });
    let q : Req := q0;
    let slot : Nat := 1;
      s.dev.envelope q pvOWNER = .go ∧
      Dev.imgBusy q (1245184 + slot) s.dev = false ∧
      s.dev.running = true ∧ s.dev.rf R.SYS_LAST_STAT_SRC = slot + 1 ∧ 1 - s.dev.slotPref % 2 = slot ∧ s.dev.streamed = some given.im) ∧
    (let s : State := at_ (sess ∘ fun d => { d with slotWr := some { slot := 1, image := smallLast, owe := (0, 7) } });
      s.pending = [] ∧ s.dev.slotWr = some { slot := 1, image := smallLast, owe := (0, 7) } ∧ (Tbl.get? s.dev.sessions 0).isSome = true) := by
  refine ⟨?_, ?_, ?_⟩ <;> decide +kernel

/-- Where the premises of `LoadsEnd` hold. -/
theorem witness_LoadsEnd :
    (let s : State := at_ (fun d => { d with rst := { phase := 4 }, slotPref := 1, slots := [(1, {st := 2, image := smallLast})] });
      s.dev.unitWrote 68 = false ∧ s.dev.unitWrites 68 = false ∧
      s.dev.rst.phase = 4 ∧
      s.dev.rst.epi = none ∧
      s.dev.lc.erasing = false ∧
      s.dev.lastState = lsEMPTY ∧
      (Tbl.getD { } s.dev.slots (s.dev.slotPref % 2)).st = 2 ∧
      (Dev.lastCheck (Tbl.getD { } s.dev.slots (s.dev.slotPref % 2)).image { s.dev with rst := { s.dev.rst with phase := 5 } }).1 = ldOK) ∧
    (let s : State := ldW 8;
    let x : LoadSt := { src := 3, last := parseLast smallLast, step := 8, boot := false };
      s.dev.load = some x ∧
      x.boot = false ∧
      s.dev.rst.epi = none ∧
      x.step = 8) ∧
    (let s : State := ldW 11;
    let x : LoadSt := { src := 3, last := parseLast smallLast, step := 11, boot := false };
    let ps : List PlanMeas := [];
      s.dev.load = some x ∧
      x.boot = false ∧
      s.dev.rst.epi = none ∧
      x.step = 11 ∧
      (∀ g ∈ s.dev.rgnsUsed, ∃ p ∈ ps, p.rgn = g)) := by
  refine ⟨?_, ?_, ?_⟩ <;> decide +kernel

/-- Where the premises of `RequestsAreGated` hold. -/
theorem witness_RequestsAreGated :
    (let c : Instr := Instr.run q0;
    let s : State := at_ id;
    let q : Req := q0;
    let priv : Nat := 1;
      reqOf c = some (q, priv) ∧
      (s.dev.envelope q priv = Envelope.dead ∨ s.dev.envelope q priv = Envelope.busy)) ∧
    (let c : Instr := Instr.run q0;
    let s : State := sK (kp 1 1) 4;
    let q : Req := q0;
    let priv : Nat := 1;
      reqOf c = some (q, priv) ∧
      s.dev.envelope q priv = Envelope.again given.r) ∧
    (let c : Instr := Instr.run q0;
    let s : State := sK (kp 64 2) 4;
    let q : Req := q0;
    let priv : Nat := 1;
      reqOf c = some (q, priv) ∧
      s.dev.envelope q priv = Envelope.stale) ∧
    (let c : Instr := Instr.run q0;
    let s : State := sK [] 0;
    let q : Req := q0;
    let priv : Nat := 1;
    let x : Session := { priv := 0 };
      reqOf c = some (q, priv) ∧
      s.dev.sessions.get? q.sess = some x ∧
      List.find? (fun r => decide (r.seq = q.seq)) x.kept = none ∧
      x.kept.length < 64 ∧
      x.inProg.contains q.seq = false ∧
      x.priv < priv) := by
  refine ⟨?_, ?_, ?_, ?_⟩ <;> decide +kernel

/-- Where the premises of `EventsAreQueued` hold. -/
theorem witness_EventsAreQueued :
    (let d : Dev := Dev.reset;
    let code : Nat := Ev.TIME_STEP;
      d.cfg.own.frz.contains code = false ∧
      d.evt.stopped = false ∧
      (noLimit code = true ∨ Tbl.getD 0 d.evt.taken code < d.burstOf code) ∧
      d.evt.queue.length < 256) ∧
    (let d : Dev := { Dev.reset with evt := { queue := List.replicate 256 ⟨0, 1, 0, 0, 0, none, false, []⟩ } };
    let code : Nat := Ev.TIME_STEP;
      d.cfg.own.frz.contains code = false ∧
      d.evt.stopped = false ∧
      (noLimit code = true ∨ Tbl.getD 0 d.evt.taken code < d.burstOf code) ∧
      256 ≤ d.evt.queue.length) ∧
    (let d : Dev := { Dev.reset with evt := { taken := [(Ev.TIME_STEP, 4)] } };
    let code : Nat := Ev.TIME_STEP;
      d.cfg.own.frz.contains code = false ∧
      d.evt.stopped = false ∧
      (¬(noLimit code = true ∨ Tbl.getD 0 d.evt.taken code < d.burstOf code))) := by
  refine ⟨?_, ?_, ?_⟩ <;> decide +kernel

/-- Where the premises of `RecorderWrites` hold. -/
theorem witness_RecorderWrites :
    (let s : State := at_ (tick 500000000);
      evFirst s.dev.evt.queue = some given.e ∧
      s.dev.evt.clearing = false ∧
      s.dev.evt.lostNow = 0 ∧
      s.dev.evt.pfill < nPerm ∧
      s.dev.time.pll = true ∧
      s.dev.evt.opAt + 500000000 ≤ s.dev.time.cnt) ∧
    (let s : State := at_ (tick 499999999);
      s.dev.time.cnt < s.dev.evt.opAt + 500000000) ∧
    (let s : State := at_ (fun d => { d with evt := { d.evt with clearing := true } });
      s.dev.evt.clearing = true) := by
  refine ⟨?_, ?_, ?_⟩ <;> decide +kernel
end Loads

namespace Control

def rn := at_ (sess ∘ cad 7 { used := true, ref := some 0, run := true } ∘ tick 5 ∘ runs { cads := List.replicate 8 ⟨1000, 0, false, 0⟩ })
def stp := at_ (sess ∘ cad 7 { used := true } ∘ put R.TIME_CADn_CFG_WAITLOCK 1 0 7 ∘ tick 5 ∘ put R.SYS_LAST_STAT_STATE 2
    ∘ fun d => { d with last := some { cads := List.replicate 8 ⟨1000, 0, true, 0⟩ }, rst := { phase := 5, coresUp := true } })

/-- Where the premises of `RunAndStop` hold. -/
theorem witness_RunAndStop :
    (let s : State := rn;
    let q : Req := q0;
      s.dev.envelope q pvOPERATE = .go ∧
      s.dev.lastState = lsRUNNING ∧
      s.dev.lastState ≠ lsSTOPPED) ∧
    (let s : State := stp;
    let q : Req := q0;
      s.dev.envelope q pvOPERATE = .go ∧
      s.dev.lastState = lsSTOPPED ∧
      s.dev.mayRun = true ∧
      s.dev.rst.lcPend = false ∧
      s.dev.rst.resume = false ∧
      s.dev.rst.plrWait = false ∧
      s.dev.lastState ≠ lsRUNNING) ∧
    (let s : State := { stp with dev := { stp.dev with rst := { stp.dev.rst with plrWait := true } } };
      s.dev.envelope q0 pvOPERATE = .go ∧ s.dev.lastState = lsSTOPPED ∧ s.dev.mayRun = true ∧ s.dev.rst.lcPend = false ∧ s.dev.rst.resume = false ∧
      s.dev.rst.plrWait = true) := by
  refine ⟨?_, ?_, ?_⟩ <;> decide +kernel

/-- Where the premises of `ResetRequests` hold. -/
theorem witness_ResetRequests :
    (let s : State := rn;
    let q : Req := q0;
      s.dev.envelope q pvENGINEER = .go ∧
      s.dev.rst.epi = none ∧
      s.dev.rst.loss = none ∧
      s.dev.rst.trimFault = false ∧
      s.dev.rst.deferred = [] ∧
      s.dev.escalates = false ∧
      s.dev.slotWr = none ∧ s.dev.frz.copy = none) ∧
    (let s : State := at_ (sess ∘ fun d => { d with slotWr := some { slot := 1, image := [], owe := (0, 1) } });
      s.dev.envelope q0 pvENGINEER = .go ∧ s.dev.rst.epi = none ∧ s.dev.rst.loss = none ∧ s.dev.rst.trimFault = false ∧ s.dev.rst.deferred = [] ∧
      s.dev.slotWr.map SlotWr.slot = some 1) := by
  refine ⟨?_, ?_⟩ <;> decide +kernel
end Control

namespace Access

def given.b := Blk.sys
def given.r : RegDef := ((findReg Blk.sys.regs 0x44).getD (⟨0,[],0,0,0,[]⟩, 0,0)).1
def given.sS := at_ sess
def mWU : UnitSt := { kind := 1, tiles := [⟨31, 2, false, 16383, false, 0⟩] }
def given.x : TileMap := ⟨31, 2, false, 16383, false, 0⟩
def given.t : Nat := 16383
def given.u : Nat := 511

/-- Where the premises of `RegisterRequests` hold. -/
theorem witness_RegisterRequests :
    (let s : State := given.sS;
    let q : Req := q0;
    let a : Nat := 0x44;
      s.dev.envelope q pvVIEW = .go ∧
      a % 4 = 0 ∧
      blkAt a = some (given.b, 0) ∧
      ¬ (s.dev.present given.b ≤ 0 ∨ s.dev.absentWord given.b 0x44 = true) ∧
      s.dev.wordAt given.b 0 (aliasOf given.b (a % 65536)).2 = some given.r ∧
      1 ≤ 256 ∧ 256 ≤ 256 ∧ 256 < 257 ∧ 1 ≤ [(5 : Word)].length ∧ [(5 : Word)].length ≤ 256 ∧
      s.dev.envelope q pvENGINEER = .go) ∧
    (let s : State := given.sS;
      blkAt 0x300 = some (given.b, 0) ∧ ¬ (s.dev.present given.b ≤ 0 ∨ s.dev.absentWord given.b 0x300 = true) ∧ s.dev.wordAt given.b 0 0x300 = none) ∧
    (let s : State := given.sS;
      blkAt 0x30034 = some (Blk.pwr, 0) ∧ ¬ (s.dev.present .pwr ≤ 0 ∨ s.dev.absentWord .pwr 0x34 = true) ∧ (s.dev.wordAt .pwr 0 0x34).isSome = true) ∧
    (let s : State := at_ (sess ∘ fun d => { d with unitWr := (0, [0x44]) });
      s.dev.envelope q0 pvENGINEER = .go ∧ ¬ (s.dev.unitWrote 0x44 = false) ∧ (s.dev.wordAt .sys 0 0x44).isSome = true) ∧
    (let s : State := at_ (sess ∘ put R.CFGCHK_CTRL_EN 1);
      s.dev.envelope q0 pvENGINEER = .go ∧ blkAt 0x50010 = some (.cfgchk, 0) ∧ s.dev.unitWrote 0x50010 = false ∧ s.dev.unitWrites 0x50010 = false ∧
      ((s.dev.wordAt .cfgchk 0 0x10).any (fun r => r.changesRwl (r.newWord 0 3 (s.dev.peek 0x50010) (s.dev.rw 0x50010)) (s.dev.peek 0x50010))) = true ∧
      bitAt (s.dev.peek 0x50000) 0 = true) ∧
    (let s : State := given.sS;
      blkAt (0x2080C + 0x20 * 63 + 0xC000) = some (.time, 0) ∧ aliasOf .time ((0x2080C + 0x20 * 63 + 0xC000) % 0x10000) = (3, 0x80C + 0x20 * 63) ∧
      s.dev.unitWrote (0x2080C + 0x20 * 63) = false ∧ s.dev.unitWrites (0x2080C + 0x20 * 63) = false) ∧
    (let s : State := given.sS;
    let q : Req := q0;
    let a : Nat := 0x46;
      s.dev.envelope q pvVIEW = .go ∧
      (a % 4 ≠ 0 ∨ blkAt a = none)) := by
  refine ⟨?_, ?_, ?_, ?_, ?_, ?_, ?_⟩ <;> decide +kernel

/-- Where the premises of `MemoryRequests` hold. -/
theorem witness_MemoryRequests :
    (let s : State := at_ (sess ∘ unit 511 mWU);
    let q : Req := q0;
    let a : Nat := tileAddr 16383 + 1023;
    let bs : List Byte := [5];
      s.dev.envelope q pvVIEW = .go ∧
      0 < 1 ∧
      1 ≤ 1024 ∧
      s.dev.readable a 1 = true ∧ s.dev.dramParts = [] ∧
      0 < 2 ∧
      2 ≤ 1024 ∧
      s.dev.readable a 2 = false ∧
      s.dev.envelope q pvENGINEER = .go ∧
      bs ≠ [] ∧
      bs.length ≤ 1024 ∧
      s.dev.inTiles a bs.length = true ∧
      tileAddr given.t ≤ a ∧
      a + bs.length ≤ tileAddr (given.t + 1) ∧
      s.dev.tileOwner given.t = some (given.u, given.x) ∧
      given.x.cls = 2) ∧
    (let s : State := at_ (sess ∘ unit 511 mWU);
    let q : Req := q0;
    let a : Nat := tileAddr 16384;
    let bs : List Byte := [5];
      s.dev.envelope q pvENGINEER = .go ∧
      bs ≠ [] ∧
      bs.length ≤ 1024 ∧
      s.dev.inTiles a bs.length = false) := by
  refine ⟨?_, ?_⟩ <;> decide +kernel
end Access

namespace Absent

def given.b := Blk.dupx

/-- Where the premises of `RegisterRequests` hold. -/
theorem witness_RegisterRequests :
    (let s : State := at_ (sess ∘ fun d => {d with variant := 2});
    let q : Req := q0;
    let a : Nat := 0x80000;
      s.dev.envelope q pvVIEW = .go ∧
      a % 4 = 0 ∧
      blkAt a = some (given.b, 0) ∧
      s.dev.present given.b ≤ 0) ∧
    (let s : State := at_ (sess ∘ fun d => { d with variant := 2 });
      blkAt 0x620100 = some (.chop, 0) ∧ s.dev.present .chop ≤ 0) ∧
    (let s : State := at_ (sess ∘ fun d => { d with variant := 1 });
      blkAt 0x620300 = some (.chop, 0) ∧ 0 < s.dev.present .chop ∧ s.dev.absentWord .chop 0x300 = true) := by
  refine ⟨?_, ?_, ?_⟩ <;> decide +kernel
end Absent

namespace Sessions

def given.b : List Byte := [1,2,3]
def given.sess : Nat := 0
def given.seq : Nat := 1
def given.cert : ClientCert := { anchor := 1, role := 3, ok := true, port := 1, ip := 0x0A000001, udp := 5000 }
def given.p : Nat := 3
def given.q := q0
def given.x : Session := {priv := 4}
def given.op : Nat := 0x77
def sqU (st : Nat) : UnitSt := { kind := 4, base := { seqs := [(3, { st := st })] } }
def sqL : LastRec := { units := [⟨511, 4, false, 7, 1, 0xFFFF, [4,0,0,0,0,0,0,0]⟩], seqs := [(511, [{}, {}, {}, {}])] }

/-- Where the premises of `RecipeLoads` hold. -/
theorem witness_RecipeLoads :
    (let s : State := at_ (sess ∘ unit 511 (sqU 1) ∘ runs sqL ∘ fun d => {d with recipeLoad := [(3, ([1,2,3], 0, 1))]});
    let q : Req := q0;
    let num : Nat := 3;
    let u : Nat := 511;
    let i : Nat := 3;
      s.dev.seqOf num = some (u, i) ∧
      s.dev.envelope q pvOPERATE = .go ∧
      q.more = false ∧
      s.dev.dxStandby = false ∧
      s.dev.rst.lcPend = false ∧
      (¬((s.dev.un u).run ≠ 2 ∧ ((Tbl.getD { } (s.dev.un u).base.seqs i).st = 0 ∨ (Tbl.getD { } (s.dev.un u).base.seqs i).st = 6 ∨
        (Tbl.getD { } (s.dev.un u).base.seqs i).st = 7))) ∧
      u < s.dev.nUnits ∧
      i < 4 ∧
      s.dev.seqNo u i = num ∧
      s.dev.recipeLoad.get? num = some (given.b, given.sess, given.seq) ∧
      s.dev.copies = false) ∧
    (let s : State := at_ (sess ∘ unit 511 (sqU 0) ∘ runs sqL);
    let q : Req := q0;
    let num : Nat := 3;
    let u : Nat := 511;
    let i : Nat := 3;
      s.dev.seqOf num = some (u, i) ∧
      s.dev.envelope q pvOPERATE = .go ∧
      q.more = false ∧
      s.dev.dxStandby = false ∧
      s.dev.rst.lcPend = false ∧
      (s.dev.un u).run ≠ 2 ∧ (Tbl.getD { } (s.dev.un u).base.seqs i).st = 0) ∧
    (let s : State := at_ (sess ∘ unit 511 { sqU 0 with run := 2 } ∘ runs sqL);
      s.dev.seqOf 3 = some (511, 3) ∧ s.dev.envelope q0 pvOPERATE = .go ∧ ¬ (s.dev.un 511).run ≠ 2) := by
  refine ⟨?_, ?_, ?_⟩ <;> decide +kernel

/-- Where the premises of `StoredData` hold. -/
theorem witness_StoredData :
    (let s : State := at_ (sess ∘ fun d => {d with lc := {d.lc with state := 2}});
    let q : Req := q0;
    let n : Nat := 0;
      s.dev.envelope q pvENGINEER = .go ∧
      n < 64 ∧
      0 < 2 ∧
      Option.map Prod.fst s.dev.frz.copy ≠ some n ∧
      s.dev.envelope q pvVIEW = .go ∧
      s.dev.envelope q pvOWNER = .go ∧
      n < nSlots ∧ 1 ≤ 16 ∧ 16 ≤ 16 ∧
      s.dev.lc.state = 2 ∧
      s.dev.evt.clearing = false) := by
  decide +kernel

/-- Where the premises of `Sessions` hold. -/
theorem witness_Sessions :
    (let s : State := at_ (sess ∘ tick 30000000000);
    let n : Nat := 0;
      n < 8 ∧
      s.dev.sessions.get? n = some given.x ∧
      eyOps.contains given.op = false ∧
      s.dev.envelope given.q pvVIEW = .go) ∧
    (let s : State := at_ (fun d => {d with rst := {coresUp := true}, lc := {d.lc with state := 2}});
    let n : Nat := 0;
      s.dev.rst.coresUp = true ∧
      sessPriv s.dev.lc.state given.cert = some given.p ∧
      n < 8 ∧
      s.dev.sessions.get? n = none ∧
      (∀ k < n, s.dev.sessions.get? k ≠ none)) ∧
    (let s : State := at_ fun d => { d with rst := { coresUp := true }, sessions := (List.range 8).map fun i => (i, { priv := 1 }) };
      ∀ k < 8, s.dev.sessions.get? k ≠ none) := by
  refine ⟨?_, ?_, ?_⟩ <;> decide +kernel

/-- A session that was quiet for the whole idle time, where the configuration says 60 s (log entry 5: its decoding is opaque). -/
theorem witness_Sessions_idle (h : ∀ b : List Byte, (Config.decNetcfg b).eylIdle = 60) :
    given.x.last + (at_ (sess ∘ tick 30000000000)).dev.net.eylIdle * 500000000 ≤ (at_ (sess ∘ tick 30000000000)).dev.time.cnt := by
  have e : (at_ (sess ∘ tick 30000000000)).dev.net.eylIdle = 60 := h _
  rw [e]
  decide +kernel
end Sessions

namespace Registers

def given.b := Blk.sys
def cf (f : Dev → Dev) := at_ (f ∘ put R.CFGCHK_CTRL_EN 1)

/-- Where the premises of `RegisterWrites` hold. -/
theorem witness_RegisterWrites :
    (let s : State := at_ (unit 511 { kind := 1, run := 1 });
    let wr : Machine.Writer := Writer.core;
    let a : Nat := 0x300;
    let u : Nat := 511;
    let w : Word := 5;
    let b := given.b;
    let k : Nat := 0;
    let al := (aliasOf b (a % 0x10000)).1;
    let base := b.base + k * 0x10000 + (aliasOf b (a % 0x10000)).2;
      (wr = Writer.core ∧ ¬ (a % 4 = 0 ∧ s.dev.inTiles a 4 = true)) ∧
      a % 4 = 0 ∧ s.dev.absentWord given.b 0x300 = false ∧
      blkAt a = some (given.b, 0) ∧
      0 < s.dev.present given.b ∧
      (s.dev.wordAt given.b 0 (aliasOf given.b (a % 65536)).2 = none ∨ s.dev.unitWrote base = false ∧ s.dev.unitWrites base = false ∧ bitAt (s.dev.peek (given.b.base + 0 *
        65536)) 0 = true ∧ (s.dev.wordAt given.b 0 (aliasOf given.b (a % 65536)).2).any (fun r => r.changesRwl (r.newWord al (BitVec.toNat w)
        (s.dev.peek base) (s.dev.rw base)) (s.dev.peek base)) = true) ∧
      base ≠ 4 ∧
      base ≠ 28 ∧
      base ≠ given.b.base + 0 * 65536 + 4 ∧
      base / 65536 ≠ 10 ∧
      base / 65536 ≠ 6 ∧
      (s.dev.un u).run = 1 ∧
      (s.dev.un u).done = false) ∧
    (let s : State := at_ id;
    let wr : Machine.Writer := Writer.eyelet;
    let a : Nat := 0x46;
    let u : Nat := 511;
      (wr = Writer.eyelet ∨ wr = Writer.core) ∧
      (a % 4 ≠ 0 ∨ blkAt a = none) ∧
      ((s.dev.un u).run ≠ 1 ∨ (s.dev.un u).done = true)) ∧
    (let s : State := at_ (tick 3 ∘ put R.TIME_CMPi_PER_PER 0xF0F0 0 63 ∘ put R.TIME_STAT_REFLOSS 1);
    let i : Nat := 63;
    let al : Nat := 0;
      al < 4 ∧
      i < 64 ∧
      s.dev.unitWrote (133132 + 32 * i) = false ∧ s.dev.unitWrites (133132 + 32 * i) = false ∧
      s.dev.unitWrote 131076 = false ∧ s.dev.unitWrites 131076 = false) ∧
    (let s : State := at_ (put R.CFGCHK_CTRL_EN 1);
      blkAt 0x50010 = some (.cfgchk, 0) ∧ s.dev.unitWrote 0x50010 = false ∧ s.dev.unitWrites 0x50010 = false ∧
      ((s.dev.wordAt .cfgchk 0 0x10).any (fun r => r.changesRwl (r.newWord 0 3 (s.dev.peek 0x50010) (s.dev.rw 0x50010)) (s.dev.peek 0x50010))) = true ∧
      bitAt (s.dev.peek 0x50000) 0 = true) ∧
    (let s : State := at_ (unit 511 { kind := 1, tiles := [⟨31, 2, false, 16383, false, 0⟩] });
      s.dev.inTiles (tileAddr 16383 + 1020) 4 = true ∧ s.dev.tileOwner 16383 = some (511, ⟨31, 2, false, 16383, false, 0⟩) ∧
      s.dev.inTiles (tileAddr 0) 4 = true ∧ s.dev.tileOwner 0 = none) ∧
    (let s : State := at_ fun d => { d with variant := 2 };
      s.dev.present .adc ≤ 15 ∧ 15 < Blk.adc.count) := by
  refine ⟨?_, ?_, ?_, ?_, ?_, ?_⟩ <;> decide +kernel

/-- Where the premises of `ConfigurationChecker` hold. -/
theorem witness_ConfigurationChecker :
    (let s : State := cf fun d => { d with cfgDirty := true };
      s.dev.cfgRuns = true ∧
      s.dev.cfgDirty = true) ∧
    (let s : State := at_ id;
      s.dev.cfgRuns = false) ∧
    (let s : State := cf fun d => { d with cfgCommit := 2 };
      s.dev.cfgRuns = true ∧
      s.dev.cfgDirty = false ∧
      s.dev.cfgCommit = 2) := by
  refine ⟨?_, ?_, ?_⟩ <;> decide +kernel

/-- Where an absent block is written. -/
theorem witness_RegisterWrites_absent :
    (let s : State := at_ fun d => { d with variant := 2 };
    let a : Nat := 0x80000;
      a % 4 = 0 ∧ blkAt a = some (Blk.dupx, 0) ∧ s.dev.present Blk.dupx = 0 ∧ s.dev.flag R.SYS_STAT_ABSENT_ACC = false) ∧
    (let s : State := at_ (put R.SYS_STAT_ABSENT_ACC 1 ∘ fun d => { d with variant := 2 });
      s.dev.present Blk.dupx = 0 ∧ s.dev.flag R.SYS_STAT_ABSENT_ACC = true) := by
  refine ⟨?_, ?_⟩ <;> decide +kernel
end Registers

namespace Forces

def fE : ForceEnt := { kind := 1, id := 5, val := 9 }
def given.e : ForceEnt := fE
def given.p : ForcePend := { idx := 1023, ent := some fE, unit := 511 }
def given.rest : List ForcePend := []
def fS (ps : List PartCfg) (f : Dev → Dev) := at_ (f ∘ put R.SYS_FRC_ID_SIGID 5 ∘ put R.SYS_FRC_ID_TYPE 1 ∘ put R.SYS_FRC_VAL_VAL 9 ∘ put R.SYS_FRC_SEL_ENTRY 1023
    ∘ runs { sigs := [⟨5, 1, 0, false, false, 0, 0, 0⟩], parts := ps })
def lgU (p : PartSt) (ev := false) (o : LogicObjs := {}) (sc : Option ScanSt := none) : UnitSt :=
    { kind := 2, cad := 7, event := ev, run := if sc.isSome then 1 else 0, base := { part := p, objs := o }, work := { part := p, objs := o }, scan := sc }
def lgL (ev := false) (ob : List ObjCfg := []) (pr : List Word := [0xFC000000]) : LastRec :=
    { units := [⟨511, 2, ev, 7, 1, 0xFFFF, [31,0,0,0,0,0,0,0]⟩], parts := [{ part := 31, objs := ob, progs := [(511, pr)] }] }
def obs : List ObjCfg := [{ kind := 0, idx := 0, owner := 511, init := 1 }, { kind := 1, idx := 3, owner := 511, init := 7, retain := true }]

/-- Where the premises of `Forces` hold. -/
theorem witness_Forces :
    (let s : State := fS [] (fun d => { d with force := [(1023, fE)], forcePend := [given.p] });
    let idx := s.dev.frcSel;
    let id := s.dev.rf R.SYS_FRC_ID_SIGID;
    let kind := s.dev.rf R.SYS_FRC_ID_TYPE + 4 * s.dev.rf R.SYS_FRC_ID_WCLASS;
      s.dev.copies = false ∧
      s.dev.dxStandby = false ∧
      s.dev.frcWhy idx id kind = 0 ∧
      s.dev.objOwner id = none ∧
      s.dev.force.get? idx = some given.e ∧
      s.dev.objOwner given.e.id = none ∧
      s.dev.forcePend = [] ++ given.p :: given.rest ∧
      (s.dev.un given.p.unit).run = 0 ∧ (s.dev.un given.p.unit).tiles.find? (fun t => decide (t.cls = 2)) = none) ∧
    (let s : State := fS [] (unit 510 { kind := 2, run := 1 } ∘ unit 511 { kind := 2, tiles := [⟨0, 2, false, 16383, false, 0⟩] } ∘
        fun d => { d with forcePend := [{ given.p with unit := 510 }, given.p] });
      s.dev.copies = false ∧ s.dev.forcePend = [{ given.p with unit := 510 }] ++ given.p :: given.rest ∧
      (∀ x ∈ [{ given.p with unit := 510 }], (s.dev.un x.unit).run ≠ 0) ∧ (s.dev.un given.p.unit).run = 0 ∧
      (s.dev.un given.p.unit).tiles.find? (fun t => decide (t.cls = 2)) = some ⟨0, 2, false, 16383, false, 0⟩) ∧
    (let s : State := fS [] (unit 510 { kind := 2, run := 1 } ∘ fun d => { d with forcePend := [{ given.p with unit := 510 }] });
      s.dev.copies = false ∧ ∀ x ∈ s.dev.forcePend, (s.dev.un x.unit).run ≠ 0) ∧
    (let s : State := fS [] (put R.SYS_FRC_ID_TYPE 3);
    let idx := s.dev.frcSel;
    let id := s.dev.rf R.SYS_FRC_ID_SIGID;
    let kind := s.dev.rf R.SYS_FRC_ID_TYPE + 4 * s.dev.rf R.SYS_FRC_ID_WCLASS;
      s.dev.copies = false ∧
      s.dev.dxStandby = false ∧
      s.dev.frcWhy idx id kind ≠ 0) ∧
    (let s : State := fS [] (put R.DUPX_STATE_STATE dxSTANDBY);
      s.dev.copies = false ∧
      s.dev.dxStandby = true) := by
  refine ⟨?_, ?_, ?_, ?_, ?_⟩ <;> decide +kernel

/-- Where the premises of `PartitionCommands` hold. -/
theorem witness_PartitionCommands :
    (let s : State := at_ (unit 511 (lgU {} ) ∘ runs (lgL false obs));
    let u : Nat := 511;
    let p := s.dev.partOf u;
      u < s.dev.nUnits ∧
      (s.dev.un u).kind = 2 ∧
      s.dev.lead (s.dev.partOf u) = u ∧
      (s.dev.partSt p).st ≠ 1 ∧
      s.dev.running = true) ∧
    (let s : State := at_ (unit 511 (lgU { st := 1, strict := true, test := true } ) ∘ runs (lgL false obs));
    let u : Nat := 511;
    let p := s.dev.partOf u;
      u < s.dev.nUnits ∧
      (s.dev.un u).kind = 2 ∧
      s.dev.lead (s.dev.partOf u) = u ∧
      ((s.dev.partSt p).st = 1 ∨ s.dev.running = false) ∧
      (s.dev.partSt p).st = 1 ∧
      (s.dev.partSt p).test = true) ∧
    (let s : State := at_ (unit 510 (lgU {}) ∘ unit 511 (lgU {}) ∘ runs { lgL false obs with units := [⟨510, 2, false, 7, 1, 0xFFFF, [31,0,0,0,0,0,0,0]⟩,
        ⟨511, 2, false, 7, 1, 0xFFFF, [31,0,0,0,0,0,0,0]⟩] });
      511 < s.dev.nUnits ∧ s.dev.lead (s.dev.partOf 511) ≠ 511 ∧ (s.dev.un 0).kind ≠ 2) := by
  refine ⟨?_, ?_, ?_⟩ <;> decide +kernel
end Forces

namespace LogicBasics

def lgU (o : LogicObjs := {}) (sc : ScanSt := {}) : UnitSt :=
    { kind := 2, cad := 7, run := 1, base := { part := {st := 1}, objs := o }, work := { part := {st:=1}, objs := o }, scan := some sc }
def lgL (ob : List ObjCfg := []) (pr : List Word := List.replicate 9 0xFC000000) : LastRec :=
    { units := [⟨511, 2, false, 7, 1, 0xFFFF, [31,0,0,0,0,0,0,0]⟩], parts := [{ part := 31, objs := ob, progs := [(511, pr)] }] }
def obs : List ObjCfg := [{ kind := 0, idx := 16383, owner := 511, init := 1 }, { kind := 1, idx := 4095, owner := 511, init := 7, retain := true },
 { kind := 2, idx := 255, owner := 511 }, { kind := 3, idx := 255, owner := 511 }, { kind := 4, idx := 255, owner := 511 }]
/-- A program word (R148). -/
def wd (op area i : Nat) : Word := BitVec.ofNat 32 (op * 2 ^ 26 + area * 2 ^ 23 + i)
def lS (o : LogicObjs) (sc : ScanSt) (w : Word := 0xFC000000) := at_ (unit 511 (lgU o sc) ∘ runs (lgL obs (List.replicate 9 w)))
def sc0 : ScanSt := { pc := 2, acc := 0x80000000 }
def sc1 : ScanSt := { pc := 2, cr := true, acc := 0x7FFFFFFF }
def o1 : LogicObjs := { bits := [(16383, true)], words := [(4095, 0xFFFFFFFF)] }
def given.o : ObjCfg := { kind := 0, idx := 16383, owner := 511, init := 1 }
def given.c := false
def given.op : PushOp := .orn
def given.rest : List (Bool × PushOp) := []
def sc2 : ScanSt := { sc1 with stack := [(false, .orn)] }

/-- Where the premises of `LogicBits` hold. -/
theorem witness_LogicBits :
    (let s : State := lS o1 sc0;
    let u : Nat := 511;
    let area : Nat := 0;
    let i : Nat := 16383;
    let sc : ScanSt := sc0;
      s.dev.scanGoes u = some sc ∧
      bitOperandOk area i = true ∧
      area = 0 ∧
      findObj (s.dev.partCfg (s.dev.partOf u)) 0 i = some given.o ∧
      given.o.owner = u ∧
      given.o.mapTo ≠ 1 ∧
      given.o.dirSig = none) ∧
    (let s : State := lS o1 sc1;
    let u : Nat := 511;
    let area : Nat := 0;
    let i : Nat := 16383;
    let sc : ScanSt := sc1;
      s.dev.scanGoes u = some sc ∧
      bitWritable (s.dev.logicEnv u) area i = true) ∧
    (let s : State := lS o1 sc1;
    let u : Nat := 511;
    let area : Nat := 5;
    let i : Nat := 0;
    let sc : ScanSt := sc1;
      s.dev.scanGoes u = some sc ∧
      bitOperandOk area i = true ∧
      area = 5 ∧
      i = 0) ∧
    (∀ op ∈ [1, 2, 3, 4, 5, 6, 7, 8, 9, 10, 11, 12], (lS o1 sc1 (wd op 0 16383)).dev.scanGoes 511 = some sc1 ∧
      (lS o1 sc1 (wd op 0 16383)).dev.wordIs 511 sc1.pc op (some 0) 16383 = true) ∧
    (∀ i ∈ [0, 4095 * 32 + 31], bitWritable ((lS o1 sc1).dev.logicEnv 511) 1 i = decide (i ≠ 0)) := by
  refine ⟨?_, ?_, ?_, ?_, ?_⟩ <;> decide +kernel

/-- Where the premises of `LogicStackAndJumps` hold. -/
theorem witness_LogicStackAndJumps :
    (let s : State := lS o1 sc2;
    let u : Nat := 511;
    let area : Nat := 0;
    let i : Nat := 16383;
    let sc : ScanSt := sc2;
      s.dev.scanGoes u = some sc ∧
      bitOperandOk area i = true ∧
      sc.stack.length < 16 ∧
      sc.stack = (given.c, given.op) :: given.rest) ∧
    (let s : State := lS o1 sc2;
    let u : Nat := 511;
    let t : Nat := 8;
    let sc : ScanSt := sc2;
      s.dev.scanGoes u = some sc ∧
      sc.pc < t ∧
      t < (s.dev.progOf u).length) ∧
    (let s : State := lS o1 sc2;
    let u : Nat := 511;
    let t : Nat := 9;
    let sc : ScanSt := sc2;
      s.dev.scanGoes u = some sc ∧
      (¬(sc.pc < t ∧ t < (s.dev.progOf u).length))) ∧
    (∀ op ∈ [0x10, 0x11, 0x12, 0x13, 0x14], (lS o1 sc2 (wd op 0 16383)).dev.scanGoes 511 = some sc2 ∧
      (lS o1 sc2 (wd op 0 16383)).dev.wordIs 511 sc2.pc op (some 0) 16383 = true) ∧
    (∀ op ∈ [0x15, 0x0D, 0x00, 0x3F], (lS o1 sc2 (wd op 0 0)).dev.scanGoes 511 = some sc2 ∧
      (lS o1 sc2 (wd op 0 0)).dev.wordIs 511 sc2.pc op (some 0) 0 = true) ∧
    (∀ op ∈ [0x3C, 0x3D, 0x3E], ∀ t ∈ [8, 9], (lS o1 sc2 (wd op 0 t)).dev.scanGoes 511 = some sc2 ∧
      (lS o1 sc2 (wd op 0 t)).dev.wordIs 511 sc2.pc op none t = true) ∧
    (at_ id).dev.scanGoes 511 = none := by
  refine ⟨?_, ?_, ?_, ?_, ?_, ?_, ?_⟩ <;> decide +kernel
end LogicBasics

namespace LogicObjects

def lgU (o : LogicObjs := {}) (sc : ScanSt := {}) : UnitSt :=
    { kind := 2, cad := 7, run := 1, base := { part := {st := 1}, objs := o }, work := { part := {st:=1}, objs := o }, scan := some sc }
def lgL (ob : List ObjCfg := []) (pr : List Word := List.replicate 9 0xFC000000) : LastRec :=
    { units := [⟨511, 2, false, 7, 1, 0xFFFF, [31,0,0,0,0,0,0,0]⟩], parts := [{ part := 31, objs := ob, progs := [(511, pr)] }] }
def oc (k : Nat) : ObjCfg := { kind := k, idx := 255, owner := 511 }
def obs : List ObjCfg := [{ kind := 1, idx := 4095, owner := 511, init := 7, retain := true }, oc 2, oc 3, oc 4]
/-- A program word (R148). -/
def word (op area i : Nat) : Word := BitVec.ofNat 32 (op * 2 ^ 26 + area * 2 ^ 23 + i)
def lS (o : LogicObjs) (sc : ScanSt) (w : Word := 0xFC000000) := at_ (unit 511 (lgU o sc) ∘ runs (lgL obs (List.replicate 9 w)))
def sc0 : ScanSt := { pc := 2, acc := 0x80000000 }
def sc1 : ScanSt := { pc := 2, cr := true, acc := 0x7FFFFFFF }
def tm (t : TimerSt) : LogicObjs := { timers := [(255, t)] }
def ct (t : CtrSt) : LogicObjs := { ctrs := [(255, t)] }
def ed (t : EdgeSt) : LogicObjs := { edges := [(255, t)] }
def wd (t : Word) : LogicObjs := { words := [(4095, t)] }

/-- Where the premises of `LogicObjectInstructions` hold. -/
theorem witness_LogicObjectInstructions :
    (let s : State := lS (ct { pv := 5, cv := 0x7FFFFFFF, primed := true }) sc1;
    let u : Nat := 511;
    let n : Nat := 255;
    let sc : ScanSt := sc1;
    let o : ObjCfg := oc 3;
      s.dev.scanGoes u = some sc ∧
      n < 256 ∧
      findObj (s.dev.partCfg (s.dev.partOf u)) 3 n = some o ∧
      o.owner = u ∧
      o.mapTo ≠ 1) ∧
    (let s : State := lS (tm { pt := 5, et := 5, inLast := true, running := true }) sc0;
    let u : Nat := 511;
    let n : Nat := 255;
    let sc : ScanSt := sc0;
    let o : ObjCfg := oc 2;
      s.dev.scanGoes u = some sc ∧
      n < 256 ∧
      findObj (s.dev.partCfg (s.dev.partOf u)) 2 n = some o ∧
      o.owner = u ∧
      o.mapTo ≠ 1) ∧
    (let s : State := lS (ed {}) sc1;
    let u : Nat := 511;
    let n : Nat := 255;
    let sc : ScanSt := sc1;
    let o : ObjCfg := oc 4;
      s.dev.scanGoes u = some sc ∧
      n < 256 ∧
      findObj (s.dev.partCfg (s.dev.partOf u)) 4 n = some o ∧
      o.owner = u ∧
      o.mapTo ≠ 1) ∧
    (∀ op ∈ [0x18, 0x19, 0x1A, 0x1B, 0x1C, 0x1D, 0x1E, 0x1F, 0x20], (lS (ed {}) sc1 (word op 0 255)).dev.scanGoes 511 = some sc1 ∧
      (lS (ed {}) sc1 (word op 0 255)).dev.wordIs 511 sc1.pc op none 255 = true) := by
  refine ⟨?_, ?_, ?_, ?_⟩ <;> decide +kernel

/-- Where the premises of `LogicWords` hold. -/
theorem witness_LogicWords :
    (let s : State := lS (wd 0) sc0;
    let u : Nat := 511;
    let area : Nat := 0;
    let i : Nat := 4095;
    let sc : ScanSt := sc0;
      s.dev.scanGoes u = some sc ∧
      wordOperandOk area i = true ∧
      wordWritable (s.dev.logicEnv u) area i = true) ∧
    (let s : State := lS (wd 0) sc1;
    let u : Nat := 511;
    let area : Nat := 1;
    let i : Nat := 0x7FFFFF;
    let sc : ScanSt := sc1;
      s.dev.scanGoes u = some sc ∧
      area = 1 ∧
      2 ^ 22 ≤ i ∧
      i < 2 ^ 23) ∧
    (let s : State := lS (wd 0) sc1;
    let u : Nat := 511;
    let area : Nat := 1;
    let i : Nat := 0x3FFFFF;
    let sc : ScanSt := sc1;
      s.dev.scanGoes u = some sc ∧
      area = 1 ∧
      i < 2 ^ 22) ∧
    (let s : State := lS (wd 0) sc0;
    let u : Nat := 511;
    let i : Nat := 31;
    let sc : ScanSt := sc0;
      s.dev.scanGoes u = some sc ∧
      i < 32) ∧
    (∀ op ∈ [0x28, 0x29, 0x2A, 0x2B, 0x2C, 0x2D, 0x2E, 0x2F, 0x30, 0x31, 0x32, 0x33, 0x34, 0x35, 0x36],
      (lS (wd 0) sc1 (word op 0 4095)).dev.scanGoes 511 = some sc1 ∧ (lS (wd 0) sc1 (word op 0 4095)).dev.wordIs 511 sc1.pc op (some 0) 4095 = true) ∧
    (∀ op ∈ [0x37, 0x38], (lS (wd 0) sc1 (word op 1 31)).dev.scanGoes 511 = some sc1 ∧
      (lS (wd 0) sc1 (word op 1 31)).dev.wordIs 511 sc1.pc op (some 1) 31 = true) ∧
    (∀ area ∈ [3, 5], wordWritable ((lS {} sc1 (word 0x29 area 255)).dev.logicEnv 511) area 255 = true ∧
      (lS {} sc1 (word 0x29 area 255)).dev.wordIs 511 sc1.pc 0x29 (some area) 255 = true) := by
  refine ⟨?_, ?_, ?_, ?_, ?_, ?_, ?_⟩ <;> decide +kernel
end LogicObjects

namespace Loops
def words (pt : Nat) (l : List (Nat × Nat)) (s : State) : State :=
  { s with mem := l.foldl (fun m p => memPut (tileAddr pt + 4 * p.1) (leBytes 4 p.2) m) s.mem }
def cfgd (f : LastRec → LastRec) (d : Dev) : Dev := { d with last := some (f d.cfg) }
def lpU (x : LoopSt) : UnitSt := { kind := 1, run := 1, tiles := [⟨0, 2, false, 5, false, 0⟩], work := { loops := [(63, x)] }, vis := [(7, { val := 0, st := stOk })] }
def rqW (mode : Nat) (edit : Nat) (set seq : Nat) : Nat := mode + 4 * edit + 16 * set + 256 * seq
def lpS (c : LoopCfg) (x : LoopSt) (w : Nat) (sigw : Nat := 0) : State :=
  words 5 [(126, w)] (at_ (unit 511 { lpU x with vis := [(7, { val := 0, st := stOk }), (9, {val := BitVec.ofNat 32 sigw, st := stOk})] }
    ∘ cfgd fun p => { p with loops := [(511, List.replicate 64 c)] }))
def given.v : Word := BitVec.ofNat 32 (rqW 1 0 0 5)

/-- Where the premises of `LoopRequests` hold. -/
theorem witness_LoopRequests :
    (let s : State := lpS {pv := 7} {} (rqW 1 0 0 5);
    let u : Nat := 511;
    let l : Nat := 63;
    let sig : Bool := false;
    let k : Instr := .loopMode 511 63 false;
    let c := nth {} (s.dev.loopsOf u) l;
    let e := s.dev.loopEnv s.mem u l c;
    let x := Tbl.getD {} (s.dev.un u).work.loops l;
    let ack (y : LoopSt) : Nat := if sig = true then y.ackS else y.ackW;
    let w := given.v.toNat;
      (k = Instr.loopMode u l sig ∨ k = Instr.loopEdit u l sig ∨ k = Instr.loopSet u l sig) ∧
      u < s.dev.nUnits ∧
      l < 64 ∧
      s.dev.inCycle u 1 l (s.dev.loopsOf u).length = true ∧
      (sig = false ∧ given.v = e.req ∧ x.sigTaken = false ∧ c.modeSig = none ∨ sig = true ∧ c.modeSig = some 9 ∧ (e.sig 9).valid = true ∧ given.v = (e.sig 9).val) ∧
      (if e.ovr3 = true then 1 else x.pendHold) = 0 ∧
      x.heldNow = false ∧
      bitsOf w 8 8 ≠ ack x ∧
      (bitAt w 2 = true → bitsOf w 0 2 ≠ 3) ∧
      (bitsOf w 0 2 = 3 ∨ x.holdDev = true ∧ x.hcause = 2 → loopValid c e = true) ∧
      (c.sched = false → bitsOf w 4 3 ≠ x.set → x.mode ≠ 3 ∧ bitsOf w 4 3 < c.sets) ∧
      c.sched = false) ∧
    (let s : State := lpS {pv := 7, sched := true, modeSig := some 9} {} 0 (rqW 1 0 0 5);
    let u : Nat := 511;
    let l : Nat := 63;
    let sig : Bool := true;
    let k : Instr := .loopMode 511 63 true;
    let c := nth {} (s.dev.loopsOf u) l;
    let e := s.dev.loopEnv s.mem u l c;
    let x := Tbl.getD {} (s.dev.un u).work.loops l;
    let ack (y : LoopSt) : Nat := if sig = true then y.ackS else y.ackW;
    let w := given.v.toNat;
      (k = Instr.loopMode u l sig ∨ k = Instr.loopEdit u l sig ∨ k = Instr.loopSet u l sig) ∧
      u < s.dev.nUnits ∧
      l < 64 ∧
      s.dev.inCycle u 1 l (s.dev.loopsOf u).length = true ∧
      (sig = false ∧ given.v = e.req ∧ x.sigTaken = false ∧ c.modeSig = none ∨ sig = true ∧ c.modeSig = some 9 ∧ (e.sig 9).valid = true ∧ given.v = (e.sig 9).val) ∧
      (if e.ovr3 = true then 1 else x.pendHold) = 0 ∧
      x.heldNow = false ∧
      bitsOf w 8 8 ≠ ack x ∧
      (bitAt w 2 = true → bitsOf w 0 2 ≠ 3) ∧
      (bitsOf w 0 2 = 3 ∨ x.holdDev = true ∧ x.hcause = 2 → loopValid c e = true) ∧
      (c.sched = false → bitsOf w 4 3 ≠ x.set → x.mode ≠ 3 ∧ bitsOf w 4 3 < c.sets) ∧
      c.sched = true) ∧
    (let s : State := lpS {pv := 7, sched := true, modeSig := some 9} {pendHold := 3} 0 (rqW 1 0 0 5);
    let u : Nat := 511;
    let l : Nat := 63;
    let sig : Bool := true;
    let k : Instr := .loopMode 511 63 true;
    let c := nth {} (s.dev.loopsOf u) l;
    let e := s.dev.loopEnv s.mem u l c;
    let x := Tbl.getD {} (s.dev.un u).work.loops l;
    let ack (y : LoopSt) : Nat := if sig = true then y.ackS else y.ackW;
    let w := given.v.toNat;
      (k = Instr.loopMode u l sig ∨ k = Instr.loopEdit u l sig ∨ k = Instr.loopSet u l sig) ∧
      u < s.dev.nUnits ∧
      l < 64 ∧
      s.dev.inCycle u 1 l (s.dev.loopsOf u).length = true ∧
      (sig = false ∧ given.v = e.req ∧ x.sigTaken = false ∧ c.modeSig = none ∨ sig = true ∧ c.modeSig = some 9 ∧ (e.sig 9).valid = true ∧ given.v = (e.sig 9).val) ∧
      (if e.ovr3 = true then 1 else x.pendHold) ≠ 0 ∧
      bitsOf w 8 8 ≠ ack x) ∧
    (let s : State := lpS {pv := 7} {mode := 3, set := 2} (rqW 1 0 0 5);
    let u : Nat := 511;
    let l : Nat := 63;
    let sig : Bool := false;
    let k : Instr := .loopMode 511 63 false;
    let c := nth {} (s.dev.loopsOf u) l;
    let e := s.dev.loopEnv s.mem u l c;
    let x := Tbl.getD {} (s.dev.un u).work.loops l;
    let ack (y : LoopSt) : Nat := if sig = true then y.ackS else y.ackW;
    let w := given.v.toNat;
      (k = Instr.loopMode u l sig ∨ k = Instr.loopEdit u l sig ∨ k = Instr.loopSet u l sig) ∧
      u < s.dev.nUnits ∧
      l < 64 ∧
      s.dev.inCycle u 1 l (s.dev.loopsOf u).length = true ∧
      (sig = false ∧ given.v = e.req ∧ x.sigTaken = false ∧ c.modeSig = none ∨ sig = true ∧ c.modeSig = some 9 ∧ (e.sig 9).valid = true ∧ given.v = (e.sig 9).val) ∧
      (if e.ovr3 = true then 1 else x.pendHold) = 0 ∧
      x.heldNow = false ∧
      bitsOf w 8 8 ≠ ack x ∧
      (bitAt w 2 = true ∧ bitsOf w 0 2 = 3 ∨ bitsOf w 0 2 = 3 ∧ loopValid c e = false ∨ c.sched = false ∧ bitsOf w 4 3 ≠ x.set ∧ (x.mode = 3 ∨ c.sets
        ≤ bitsOf w 4 3))) ∧
    (let s : State := lpS {pv := 7} {ackW := 5} (rqW 1 0 0 5);
    let u : Nat := 511;
    let l : Nat := 63;
    let sig : Bool := false;
    let k : Instr := .loopMode 511 63 false;
    let c := nth {} (s.dev.loopsOf u) l;
    let e := s.dev.loopEnv s.mem u l c;
    let x := Tbl.getD {} (s.dev.un u).work.loops l;
    let ack (y : LoopSt) : Nat := if sig = true then y.ackS else y.ackW;
    let w := given.v.toNat;
      (k = Instr.loopMode u l sig ∨ k = Instr.loopEdit u l sig ∨ k = Instr.loopSet u l sig) ∧
      u < s.dev.nUnits ∧
      l < 64 ∧
      s.dev.inCycle u 1 l (s.dev.loopsOf u).length = true ∧
      (sig = false ∧ given.v = e.req ∧ x.sigTaken = false ∧ c.modeSig = none ∨ sig = true ∧ c.modeSig = some 9 ∧ (e.sig 9).valid = true ∧ given.v = (e.sig 9).val) ∧
      (if e.ovr3 = true then 1 else x.pendHold) = 0 ∧
      x.heldNow = false ∧
      bitsOf w 8 8 = ack x) ∧
    (let s : State := lpS {pv := 8} {mode := 2, holdDev := true, hcause := 2} (rqW 1 0 0 5);
    let c := nth {} (s.dev.loopsOf 511) 63;
    let e := s.dev.loopEnv s.mem 511 63 c;
    let x := Tbl.getD {} (s.dev.un 511).work.loops 63;
      s.dev.inCycle 511 1 63 (s.dev.loopsOf 511).length = true ∧ given.v = e.req ∧ x.sigTaken = false ∧ c.modeSig = none ∧
      (if e.ovr3 = true then 1 else x.pendHold) = 0 ∧ bitsOf given.v.toNat 8 8 ≠ x.ackW ∧ x.holdDev = true ∧ x.hcause = 2 ∧ loopValid c e = false) ∧
    (let s : State := lpS {pv := 7, modeSig := some 9} {} (rqW 1 0 0 5) (rqW 1 0 0 6);
    let c := nth {} (s.dev.loopsOf 511) 63;
    let e := s.dev.loopEnv s.mem 511 63 c;
    let x := Tbl.getD {} (s.dev.un 511).work.loops 63;
      s.dev.inCycle 511 1 63 (s.dev.loopsOf 511).length = true ∧ c.modeSig = some 9 ∧ (e.sig 9).valid = true ∧
      bitsOf (e.sig 9).val.toNat 8 8 ≠ x.ackS ∧ bitsOf e.req.toNat 8 8 ≠ x.ackW) := by
  refine ⟨?_, ?_, ?_, ?_, ?_, ?_, ?_⟩ <;> decide +kernel
end Loops

namespace Axes
def words (pt : Nat) (l : List (Nat × Nat)) (s : State) : State :=
  { s with mem := l.foldl (fun m p => memPut (tileAddr pt + 4 * p.1) (leBytes 4 p.2) m) s.mem }
def cfgd (f : LastRec → LastRec) (d : Dev) : Dev := { d with last := some (f d.cfg) }
def axc : AxisCfg := { kind := 1, dest := 1, vDef := 5, aDef := 5, jDef := 5, vAdj := 5, ratios := [(3,2),(1,1),(0,0),(1,4)], homing := 1, invMax := 100 }
def axS (c : AxisCfg) (x : AxisSt) (w : Nat) (sigw : Nat := 0) (par : List (Nat × Nat) := []) (cyc : Nat := 3) : State :=
  words 5 ([(240, w)] ++ par) (at_ (unit 511 { kind := 3, run := 1, tiles := [⟨5, 2, false, 5, false, 0⟩], cycle := cyc, work := { axes := [(15, x)] }, vis := [(9, {val := BitVec.ofNat 32 sigw, st := stOk})] }
    ∘ cfgd fun p => { p with axes := [(511, List.replicate 16 c)] }))

/-- The premises that every clause of `AxisCommands` shares: axis 15 of unit 511 in a cycle with the new command word `w` of code `code`; the rest is `P`. -/
def axOk (s : State) (sig : Bool) (w : Word) (code : Nat) (P : AxisCfg → AxisEnv → AxisSt → AxisPar → Bool) : Bool :=
  let c := nth {} (s.dev.axesOf 511) 15
  let x0 := Tbl.getD {} (s.dev.un 511).work.axes 15
  let e := s.dev.axisEnv s.mem 511 15 c x0
  let x := axFaults c e x0
  let src : Bool := if sig = true then decide (c.cmdSig = some 9) && (e.sig 9).valid && decide (w = (e.sig 9).val)
    else decide (w = e.cmdW) && !x.sigTaken && decide (c.cmdSig = none)
  decide (511 < s.dev.nUnits) && s.dev.inCycle 511 3 15 (s.dev.axesOf 511).length && decide (c.kind ≠ 0) && src &&
    decide (bitsOf w.toNat 8 8 ≠ if sig = true then x.ackS else x.ackW) && decide (bitsOf w.toNat 0 4 = code) &&
    P c e x (if sig = true then parSig c e w else parTile c e w)
def pos (r : AxisPar) : Bool := decide (0 < r.v ∧ 0 < r.a ∧ 0 < r.j)
def aPlan : MovePlan := { k0 := 1, p0 := 0, target := 9, s := 1, tj := 1, ta := 2, tv := 3, vp := 1, j := 1, tEnd := 9 }
def free (x : AxisSt) : Bool := !x.heldNow

/-- Where the premises of `AxisCommands` hold: each command in a state that takes it. -/
theorem witness_AxisCommands :
    axOk (axS axc { st := 0 } 0x501) false 0x501 1 (fun c e x r => free x && decide (x.st = 0)) = true ∧
    axOk (axS axc { st := 7 } 0x502) false 0x502 2 (fun c e x r => free x && decide (x.st = 1 ∨ x.st = 6 ∨ x.st = 7)) = true ∧
    axOk (axS axc { st := 1 } 0x503) false 0x503 3 (fun c e x r => free x && pos r && decide (x.st = 1 ∧ c.kind = 1 ∧ c.slimLo = c.slimHi)) = true ∧
    axOk (axS { axc with slimHi := 9 } { st := 1, homed := true } 0x503 0 [(241, 0)]) false 0x503 3
      (fun c e x r => free x && pos r && decide (x.st = 1 ∧ c.slimLo ≠ c.slimHi ∧ x.homed = true ∧ c.slimLo ≤ r.p0 ∧ r.p0 ≤ c.slimHi)) = true ∧
    axOk (axS axc { st := 1 } 0x504) false 0x504 4 (fun c e x r => free x && pos r && decide (x.st = 1 ∧ c.kind = 1 ∧ c.slimLo = c.slimHi)) = true ∧
    axOk (axS axc { st := 1 } 0x505) false 0x505 5 (fun c e x r => free x && pos r && decide (c.kind = 1 ∧ x.st = 1)) = true ∧
    axOk (axS axc { st := 2, vt := some (1, 1, 1) } 0x505) false 0x505 5
      (fun c e x r => free x && pos r && decide (c.kind = 1 ∧ x.st = 2 ∧ x.vt.isSome = true)) = true ∧
    axOk (axS axc { st := 2 } 0x506) false 0x506 6 (fun c e x r => free x && pos r && decide (x.st = 2 ∧ x.plan = none)) = true ∧
    axOk (axS axc { st := 2, plan := some aPlan } 0x506) false 0x506 6 (fun c e x r => free x && pos r && decide (x.st = 2 ∧ x.plan = some aPlan)) = true ∧
    axOk (axS axc { st := 5, stopFault := 3 } 0x506) false 0x506 6 (fun c e x r => free x && pos r && decide (x.st = 5)) = true ∧
    axOk (axS axc { st := 6 } 0x506) false 0x506 6 (fun c e x r => free x && pos r && decide (x.st = 6)) = true ∧
    axOk (axS axc { st := 1 } 0x507) false 0x507 7
      (fun c e x r => free x && decide (x.st = 1 ∧ (nth (0, 0) c.ratios (r.arg % 4)).2 ≠ 0 ∧ bitAt r.arg 3 = false ∧ masterDelta e x.mSeen = 0)) = true ∧
    axOk (axS axc { st := 3, gear := some {} } 0x5B7) false 0x5B7 7
      (fun c e x r => free x && decide (x.st = 3 ∧ bitAt r.arg 3 = true ∧ (nth (0, 0) c.ratios (r.arg % 4)).2 ≠ 0)) = true ∧
    axOk (axS axc { st := 3, gear := some {} } 0x508) false 0x508 8 (fun c e x r => free x && pos r && decide (x.st = 3)) = true ∧
    axOk (axS axc { st := 3, gear := some {} } 0x509) false 0x509 9
      (fun c e x r => free x && decide (x.st = 3 ∧ x.offset = none ∧ 0 < orDef r.a c.aDef ∧ 0 < orDef r.j c.jDef ∧ 0 < c.vAdj)) = true ∧
    axOk (axS axc { st := 1 } 0x50A) false 0x50A 10 (fun c e x r => free x && pos r && decide (x.st = 1 ∧ c.kind = 1 ∧ c.homing ≠ 0)) = true ∧
    axOk (axS { axc with homing := 0 } { st := 1 } 0x50A) false 0x50A 10 (fun c e x r => free x && pos r && decide (x.st = 1 ∧ c.kind = 1 ∧ c.homing = 0)) = true ∧
    axOk (axS axc { st := 1 } 0x50B) false 0x50B 11 (fun c e x r => free x && decide (x.st = 0 ∨ x.st = 1)) = true ∧
    axOk (axS axc { st := 7 } 0x50C) false 0x50C 12 (fun c e x r => free x && decide (x.st = 7) && !axPersists c e x) = true ∧
    axOk (axS { axc with kind := 2 } { st := 1 } 0x50D 0 [(241, 100), (243, 7)]) false 0x50D 13
      (fun c e x r => free x && pos r && decide (c.kind = 2 ∧ x.st = 1 ∧ x.ramp = none ∧ e.k < r.kEff)) = true ∧
    axOk (axS { axc with cmdSig := some 9 } { st := 0 } 0 0x501) true 0x501 1 (fun c e x r => free x && decide (x.st = 0)) = true := by
  refine ⟨?_, ?_, ?_, ?_, ?_, ?_, ?_, ?_, ?_, ?_, ?_, ?_, ?_, ?_, ?_, ?_, ?_, ?_, ?_, ?_, ?_⟩ <;> decide +kernel

/-- Where the premises of `AxisCommands` hold: each command out of its states, a cycle with a hold, a tile command beside a new CMD_SIG command. -/
theorem witness_AxisCommands_refused :
    (∀ k ∈ [1, 2, 3, 4, 5, 7, 8, 9, 10, 11, 12, 13], axOk (axS axc { st := 5 } (0x500 + k)) false (BitVec.ofNat 32 (0x500 + k)) k
      (fun c e x r => free x && decide (c.kind = 1 ∧ x.st = 5)) = true) ∧
    axOk (axS axc { st := 1 } 0x506) false 0x506 6 (fun c e x r => free x && decide (x.st = 1)) = true ∧
    axOk (axS axc { st := 0, heldNow := true } 0x501) false 0x501 1 (fun c e x r => x.heldNow && decide (x.st = 0)) = true ∧
    (let s : State := axS { axc with cmdSig := some 9 } { st := 0 } 0x501 0x601;
      let c := nth {} (s.dev.axesOf 511) 15;
      let x0 := Tbl.getD {} (s.dev.un 511).work.axes 15;
      let e := s.dev.axisEnv s.mem 511 15 c x0;
      let x := axFaults c e x0;
      s.dev.inCycle 511 3 15 (s.dev.axesOf 511).length = true ∧ c.cmdSig = some 9 ∧ (e.sig 9).valid = true ∧
      bitsOf (e.sig 9).val.toNat 8 8 ≠ x.ackS ∧ x.heldNow = false ∧ bitsOf e.cmdW.toNat 8 8 ≠ x.ackW ∧ bitsOf e.cmdW.toNat 0 4 = 1) := by
  refine ⟨?_, ?_, ?_, ?_⟩ <;> decide +kernel
end Axes

namespace Sequencers
def words (pt : Nat) (l : List (Nat × Nat)) (s : State) : State :=
  { s with mem := l.foldl (fun m p => memPut (tileAddr pt + 4 * p.1) (leBytes 4 p.2) m) s.mem }
def cfgd (f : LastRec → LastRec) (d : Dev) : Dev := { d with last := some (f d.cfg) }
def rec2 : Recipe := { abortStep := some 2, steps := List.replicate 3 ⟨5, 0, false, (1, 2), (1, 0), 0, 0, [], []⟩ }
def rec3 : Recipe := { rec2 with abortStep := none, steps := List.replicate 3 ⟨5, 0, false, (0, 0), (1, 0), 0, 0, [], []⟩ }
def sqS (c : SeqCfg) (x : SeqSt) (w : Nat) (sigw : Nat := 0) (par : List (Nat × Nat) := []) (r : Recipe := rec2) (cyc : Nat := 3) : State :=
  words 5 ([(24, w)] ++ par) (at_ (unit 511 { kind := 4, run := 1, tiles := [⟨2, 2, false, 5, false, 0⟩], cycle := cyc, base := { seqs := [(3, x)] }, work := { seqs := [(3, x)] }, vis := [(9, {val := BitVec.ofNat 32 sigw, st := stOk})] }
    ∘ (fun d => { d with recipes := [(127, [1,2])], recipeParsed := [(3, r)] })
    ∘ cfgd fun p => { p with units := [⟨511, 4, false, 0, 0, 0, []⟩], seqs := [(511, List.replicate 4 c)] }))
def given.n : Nat := 127
def given.b : List Byte := [1,2]
def st1 : StepRec := ⟨5, 0, false, (1, 2), (1, 0), 0, 0, [], []⟩
def dF (x : SeqSt) : State := at_ (unit 511 { kind := 4, tiles := [⟨18, 2, false, 5, false, 0⟩], base := { seqs := [(3, x)] } } ∘
  (fun d => { d with recipes := [(127, [1,2])], recipeParsed := [(3, rec2)] }) ∘
  cfgd fun p => { p with units := [⟨511, 4, false, 0, 0, 0, []⟩], seqs := [(511, List.replicate 4 {})] })
/-- The premises that every clause about a command of `SequencerCommands` shares: sequencer 3 of unit 511 in a cycle with the new command word `w` of code
`code`; the rest is `P`, of what the cycle reads, the state after a failed fetch, START_STEP and START_AT, and whether the recipe is loaded. -/
def sqOk (s : State) (sig : Bool) (w : Word) (code : Nat) (P : SeqEnv → SeqSt → Nat → Nat → Bool → Bool) : Bool :=
  let e := s.dev.seqEnv s.mem 511 3
  let c := nth {} (s.dev.seqsOf 511) 3
  let x := (sqFaults 3 c e (Tbl.getD {} (s.dev.un 511).work.seqs 3)).st
  let src : Bool := if sig = true then decide (c.cmdSig = some 9) && (e.sig 9).valid && decide (w = (e.sig 9).val)
    else decide (w = e.cmdW) && !x.sigTaken && decide (c.cmdSig = none)
  decide (511 < s.dev.nUnits) && s.dev.inCycle 511 4 3 (s.dev.seqsOf 511).length && src &&
    decide (bitsOf w.toNat 8 8 ≠ if sig = true then x.ackS else x.ackW) && decide (bitsOf w.toNat 0 4 = code) &&
    P e x (if sig = true then 0 else e.startStep) (if sig = true then 0 else e.kStart) (s.dev.seqLoaded 511 3)
def canStart (e : SeqEnv) (x : SeqSt) (first at_ : Nat) (l : Bool) : Bool :=
  decide (x.st = 0 ∨ x.st = 6 ∨ x.st = 7) && l && e.recipe.any (fun q => decide (first < q.steps.length)) && decide (at_ = 0 ∨ e.k < at_) && !e.shed

/-- Where the premises of `SequencerCommands` hold: each command in a state that takes it. -/
theorem witness_SequencerCommands :
    sqOk (sqS {} {} 0x501) false 0x501 1 (fun e x first at_ l => canStart e x first at_ l && decide (at_ = 0)) = true ∧
    sqOk (sqS {} { st := 7 } 0x501 0 [(25, 2), (26, 4)]) false 0x501 1 (fun e x first at_ l => canStart e x first at_ l && decide (at_ ≠ 0 ∧ first = 2)) = true ∧
    sqOk (sqS { cmdSig := some 9 } { st := 3, ke := 1, cur := 1 } 0 0x502) true 0x502 2 (fun e x first at_ l => decide (x.st = 3)) = true ∧
    sqOk (sqS { cmdSig := some 9 } { st := 4, ih := 1, cur := 1, hkind := 1 } 0 0x503) true 0x503 3 (fun e x first at_ l => decide (x.st = 4 ∧ x.hkind ≠ 2)) = true ∧
    sqOk (sqS {} { st := 4, cur := 1, hkind := 2, pend := 2, slots := [some 2] } 0x503) false 0x503 3
      (fun e x first at_ l => decide (x.st = 4 ∧ x.hkind = 2 ∧ some x.pend ∈ x.slots) && (stepOf e.recipe x.pend).isSome) = true ∧
    sqOk (sqS {} { st := 4, cur := 1, hkind := 2, pend := 2 } 0x503) false 0x503 3
      (fun e x first at_ l => decide (x.st = 4 ∧ x.hkind = 2 ∧ some x.pend ∉ x.slots)) = true ∧
    sqOk (sqS {} { st := 2 } 0x504) false 0x504 4 (fun e x first at_ l => decide (x.st = 2)) = true ∧
    sqOk (sqS {} { st := 3, cur := 1 } 0x504 0 [] rec3) false 0x504 4 (fun e x first at_ l => decide (x.st = 3 ∧ e.recipe.bind Recipe.abortStep = none)) = true ∧
    sqOk (sqS {} { st := 5, cur := 2, handler := true } 0x504) false 0x504 4 (fun e x first at_ l => decide (x.st = 5 ∧ x.handler = true)) = true ∧
    sqOk (sqS {} { st := 3, cur := 1 } 0x504) false 0x504 4
      (fun e x first at_ l => decide (x.st = 3 ∧ e.recipe.bind Recipe.abortStep = some 2 ∧ x.handler = false) && (stepOf e.recipe 2).isSome) = true ∧
    sqOk (sqS {} { st := 7, cur := 1 } 0x505) false 0x505 5 (fun e x first at_ l => decide (x.st = 6 ∨ x.st = 7)) = true := by
  refine ⟨?_, ?_, ?_, ?_, ?_, ?_, ?_, ?_, ?_, ?_, ?_⟩ <;> decide +kernel

/-- Where the premises of `SequencerCommands` hold: each command out of its states, and a tile command beside a new CMD_SIG command. -/
theorem witness_SequencerCommands_refused :
    sqOk (sqS {} {} 0x501 0 [(25, 3)]) false 0x501 1 (fun e x first at_ l => !canStart e x first at_ l && decide (x.st = 0)) = true ∧
    sqOk (sqS {} { st := 4 } 0x502) false 0x502 2 (fun e x first at_ l => decide (x.st ≠ 3)) = true ∧
    sqOk (sqS {} { st := 3 } 0x503) false 0x503 3 (fun e x first at_ l => decide (x.st ≠ 4)) = true ∧
    sqOk (sqS {} { st := 6 } 0x504) false 0x504 4 (fun e x first at_ l => decide (x.st = 6)) = true ∧
    sqOk (sqS {} { st := 3 } 0x505) false 0x505 5 (fun e x first at_ l => decide (x.st = 3)) = true ∧
    (let s : State := sqS { cmdSig := some 9 } {} 0x501 0x601;
      let e := s.dev.seqEnv s.mem 511 3;
      s.dev.inCycle 511 4 3 (s.dev.seqsOf 511).length = true ∧ (nth {} (s.dev.seqsOf 511) 3).cmdSig = some 9 ∧ (e.sig 9).valid = true ∧
      bitsOf (e.sig 9).val.toNat 8 8 ≠ 0 ∧ bitsOf e.cmdW.toNat 8 8 ≠ 0 ∧ bitsOf e.cmdW.toNat 0 4 = 1) := by
  refine ⟨?_, ?_, ?_, ?_, ?_, ?_⟩ <;> decide +kernel

/-- Where the premises of `SequencerCommands` hold: the end of a fetch, with the current and the abort step in slots, and an image to store. -/
theorem witness_SequencerCommands_fetch :
    (let s : State := dF { fetchPend := true, cur := 1, slots := [some 1, some 2, none, none, none] };
      let b := Tbl.getD {} (s.dev.un 511).base.seqs 3;
      511 < s.dev.nUnits ∧ (s.dev.un 511).run = 0 ∧ b.fetchPend = true ∧ s.dev.recipeParsed.get? (s.dev.seqNo 511 3) = some rec2 ∧ b.slots.length = 5 ∧
      rec2.steps[b.cur]? = some st1 ∧ (successors rec2.steps.length b.cur st1).length ≤ 3 ∧ rec2.abortStep = some 2 ∧ some b.cur ∈ b.slots ∧ some 2 ∈ b.slots ∧
      (s.dev.un 511).tiles.length = 1) ∧
    (let s : State := dF { fetchPend := true, cur := 2, slots := [some 2, some 2, none, none, none] };
      let b := Tbl.getD {} (s.dev.un 511).base.seqs 3;
      (s.dev.un 511).run = 0 ∧ b.fetchPend = true ∧ b.slots.length = 5 ∧ rec2.steps[b.cur]?.isSome = true ∧ rec2.abortStep = some b.cur ∧ some b.cur ∈ b.slots) ∧
    (given.n < 128 ∧ (dF {}).dev.recipes.get? given.n = some given.b) := by
  refine ⟨?_, ?_, ?_⟩ <;> decide +kernel
end Sequencers

namespace LifeCycle

def lcS (st : Nat) (f : LcSt → LcSt) := at_ (sess ∘ tick 5 ∘ fun d => { d with lc := f { d.lc with state := st, keys := [(0,[1]),(1,[2])] } })

/-- Where the premises of `LifeCycleRequests` hold. -/
theorem witness_LifeCycleRequests :
    (let s : State := lcS 4 (fun l => { l with eraseStart := true });
      s.dev.lc.erasing = true ∧
      s.dev.rst.lcPend = false) := by
  decide +kernel

def noArg : LcMsg := ⟨0, 0, [], [], [], [], []⟩

/-- A request in a wrong state, and a TAKE_OWNERSHIP that meets what R485 asks. -/
theorem witness_LifeCycleRequests_ownership :
    ((lcS 0 id).dev.envelope q0 pvOWNER = .go ∧ (lcS 0 id).dev.lcWhy 1 noArg = 1) ∧
    ((lcS 1 id).dev.envelope q0 pvOWNER = .go ∧ (lcS 1 id).dev.lcWhy 1 noArg = 0 ∧ (lcS 1 id).dev.rst.epi = none ∧ (lcS 1 id).dev.rst.loss = none ∧
      (lcS 1 id).dev.rst.trimFault = false ∧ (lcS 1 id).dev.rst.deferred = [] ∧ (lcS 1 id).dev.slotWr = none) := by
  decide +kernel

/-- A signed DEV_ON, if its signature verifies (log entry 5: the check itself is opaque). -/
theorem witness_LifeCycleRequests_signed (h : (lcS 2 id).dev.osigOk 5 noArg none = true) :
    (lcS 2 id).dev.envelope q0 pvOWNER = .go ∧ (lcS 2 id).dev.lcWhy 5 noArg = 0 := by
  refine ⟨by decide +kernel, ?_⟩
  have e : (lcS 2 id).dev.lcWhy 5 noArg = if (true && !(lcS 2 id).dev.osigOk 5 noArg none) = true then 4 else 0 := rfl
  rw [e, h]; rfl
end LifeCycle

namespace Firmware

/-- A firmware image that its checks refuse, and one that they accept: what they answer is opaque (log entry 5). -/
theorem witness_LoadsEnd_refused (h : Config.fwForm [1] = false) :
    (at_ sess).dev.envelope q0 pvOWNER = .go ∧ q0.more = false ∧ (at_ sess).dev.fwCheck [1] ≠ 0 := by
  refine ⟨by decide +kernel, rfl, ?_⟩
  unfold Dev.fwCheck
  rw [h]
  decide

def fwImage : List Byte := leBytes 4 0x5349474E ++ [0xFE] ++ zeros 251

theorem witness_LoadsEnd_accepted (hf : Config.fwForm fwImage = true) (hc : Config.fwCrc fwImage = true)
    (hs : signedBy Config.firmwareKeyHash fwImage = true) (hv : Config.fwSvn fwImage = 0) : (at_ sess).dev.fwCheck fwImage = 0 := by
  have e : (isSigned fwImage && decide (byteAt (trailer fwImage) 4 = 0xFE)) = true := by decide +kernel
  unfold Dev.fwCheck
  rw [hf, hc, hs, hv, e]
  rfl
end Firmware

namespace Converters
def adcS (k n : Nat) (c : AdcCh) (b : AdcBank := {}) (f : Dev → Dev := id) : State :=
  at_ (f ∘ put R.ADC_CTRL_EN 1 k ∘ put R.ADC_CHn_CTL_EN 1 k n ∘ put R.ADC_CAL_REC_VALID 1 k n 3 ∘ put R.ADC_CAL_GAIN_G (2^22) k n 3
    ∘ fun d => { d with adc := [(k, { b with chs := [(n, c)] })] })
def tm : AdcMeas := { q := -5000, ovr := true }
/-- A closed window of channel 15, of one window, measured by its own converter. -/
def wn (settle : Nat) : ShutWin := { t0 := 0, t1 := 20, range := 3, conv := 15, n := 1, settle := settle, endless := false, measured := true, skip := false, clear := false, cnt := 7 }
def mn (lock : Bool) (q e p : Nat) : State := at_ (tick (e + p) ∘ fun d => { d with mains := { edge := some e, prev := some q, lock := lock, period := q } })
def given.l : List Nat := [1]
def given.r : RollSt := { ch := 15, phase := 2, left := 0 }
def given.v : VisitSt := { ch := 15, settle := 1, left := 3 }
def cm (ch : Nat := 15) (r : Int := 6710886 * 256) : CalMeas := { ch := ch, range := 3, z := 256, r := r, tj := 3, pa := 5 }

/-- Where the premises of `ConverterWindows` hold. -/
theorem witness_ConverterWindows :
    (let s : State := adcS 1 15 { range := 3, settle := 2, shut := [wn 0] };
    let c := s.dev.adcCh 1 15;
      1 < s.dev.nBanks ∧ s.dev.chOn 1 15 = true ∧ c.shut = wn 0 :: [] ∧ (wn 0).n = 1 ∧ (wn 0).conv = 15 ∧ (wn 0).measured = true ∧ s.dev.pairOf 1 15 = none ∧
      (decide ((wn 0).settle = 0) && !(wn 0).endless) = true ∧ (wn 0).skip = false ∧ tm.ovr = true) ∧
    (let s : State := adcS 1 15 { range := 3, settle := 2, shut := [wn 2] };
      s.dev.chOn 1 15 = true ∧ (s.dev.adcCh 1 15).shut = wn 2 :: [] ∧ s.dev.pairOf 1 15 = none ∧ (decide ((wn 2).settle = 0) && !(wn 2).endless) = false) ∧
    (let s : State := adcS 1 15 { range := 3, opened := some 3 } {} (tick 23 ∘ put R.ADC_CHn_CTL_MODE 1 1 15 ∘ put R.ADC_CHn_WLEN_WLEN 1 1 15);
    let c := s.dev.adcCh 1 15;
    let len := s.dev.rf R.ADC_CHn_WLEN_WLEN 1 15 * 20;
      s.dev.chOn 1 15 = true ∧ c.shut = [] ∧ s.dev.rf R.ADC_CHn_CTL_MODE 1 15 = 1 ∧ c.opened = some 3 ∧ 3 + len ≤ s.dev.time.cnt ∧
      (s.dev.bank 1).roll = none ∧ (s.dev.bank 1).pass = none ∧ s.dev.pairOf 1 15 = none ∧ c.pend = false) ∧
    (let s : State := adcS 1 15 { range := 3, opened := some 3 } {} (tick 22 ∘ put R.ADC_CHn_CTL_MODE 1 1 15 ∘ put R.ADC_CHn_WLEN_WLEN 1 1 15);
      s.dev.chOn 1 15 = true ∧ (s.dev.adcCh 1 15).shut = [] ∧ s.dev.rf R.ADC_CHn_CTL_MODE 1 15 = 1 ∧ (s.dev.adcCh 1 15).opened = some 3 ∧
      s.dev.time.cnt < 3 + s.dev.rf R.ADC_CHn_WLEN_WLEN 1 15 * 20) ∧
    (let s : State := adcS 1 15 { waits := true } {} (unit 511 { kind := 1, smpWait := [31] } ∘ unit 510 { kind := 1 });
      s.dev.chOn 1 15 = true ∧ (s.dev.adcCh 1 15).waits = true ∧ 16 * 1 + 15 ∈ (s.dev.un 511).smpWait ∧ 16 * 1 + 15 ∉ (s.dev.un 510).smpWait) ∧
    (let s : State := mn true 11250000 5 12500000;
    let e : Nat := 5;
    let p : Nat := 12500000;
    let k : Nat := 1;
      k < s.dev.nBanks ∧
      s.dev.mains.edge = some e ∧
      s.dev.time.cnt = e + p ∧
      (p < 7500000 ∨ 11250000 < p) ∧
      12500000 ≤ p ∧
      s.dev.mains.lock = true) ∧
    (let s : State := mn false 7500000 5 7500000;
    let e : Nat := 5;
    let p : Nat := 7500000;
    let q : Nat := 7500000;
    let k : Nat := 0;
      k < s.dev.nBanks ∧
      s.dev.mains.edge = some e ∧
      s.dev.time.cnt = e + p ∧
      7500000 ≤ p ∧
      p ≤ 11250000 ∧
      s.dev.mains.prev = some q ∧
      100 * ((p : Int) - (q : Int)).natAbs < q) ∧
    (let s : State := { State.reset with dev := (put R.ADC_CTRL_EN 1 1 ∘ put R.ADC_CHn_CTL_EN 1 1 15 ∘ put R.ADC_CHn_CTL_MODE 2 1 15) (mn false 7500000 5 7500000).dev };
      s.dev.mains.lock = false ∧ s.dev.chOn 1 15 = true ∧ s.dev.rf R.ADC_CHn_CTL_MODE 1 15 = 2 ∧ s.dev.rf R.ADC_CHn_CTL_MODE 1 14 ≠ 2) := by
  refine ⟨?_, ?_, ?_, ?_, ?_, ?_, ?_, ?_⟩ <;> decide +kernel

/-- Where the premises of `ConverterSettings` hold. -/
theorem witness_ConverterSettings :
    (let s : State := adcS 1 15 { range := 3, settle := 2, waits := true };
    let k : Nat := 1;
    let n : Nat := 15;
    let w : Word := 0x0;
      k < s.dev.nBanks ∧
      n < 16 ∧
      s.dev.wlenOk k (BitVec.toNat w % 2 ^ 22) = false ∧
      s.dev.pairOf k n = none ∧
      s.dev.rf R.ADC_CHn_CTL_EN k n = 1 ∧
      bitAt (BitVec.toNat w) 0 = false) ∧
    (let s : State := adcS 1 15 { range := 3, settle := 2, waits := true } {} (put R.ADC_CHn_CTL_EN 0 1 15);
    let k : Nat := 1;
    let n : Nat := 15;
    let w : Word := 0x107;
      k < s.dev.nBanks ∧
      n < 16 ∧
      s.dev.ctlOk k n (BitVec.toNat w) = false ∧
      s.dev.wlenOk k (BitVec.toNat w % 2 ^ 22) = true ∧
      s.dev.pairOf k n = none ∧
      s.dev.chOn k n = false) ∧
    (let s : State := adcS 1 15 { range := 3, settle := 2, waits := true } {} (put R.ADC_CHn_CTL_EN 0 1 15);
    let k : Nat := 1;
    let n : Nat := 15;
    let w : Word := 0x113;
      k < s.dev.nBanks ∧
      n < 16 ∧
      s.dev.ctlOk k n (BitVec.toNat w) = true ∧
      s.dev.pairOf k n = none ∧
      s.dev.rf R.ADC_CHn_CTL_EN k n = 0 ∧
      bitAt (BitVec.toNat w) 0 = true) := by
  refine ⟨?_, ?_, ?_⟩ <;> decide +kernel

/-- Where the premises of `ConverterCalibration` hold. -/
theorem witness_ConverterCalibration :
    (let s : State := adcS 1 15 {range := 3} {visit := some { ch := 15, settle := 1, left := 3 } } (put R.ADC_BANK_CFG_AUTOCAL 2 1 ∘ tick (24 * 1800000000000) ∘ fun d => { d with rst := { coresUp := true } });
    let k : Nat := 1;
    let b := s.dev.bank k;
      k < s.dev.nBanks ∧
      s.dev.flag R.ADC_CTRL_EN k = true ∧
      b.cal = false ∧
      b.pass = none ∧
      s.dev.chsOn k ≠ [] ∧
      s.dev.rst.coresUp = true ∧
      2 ≤ s.dev.rf R.ADC_BANK_CFG_AUTOCAL k ∧
      b.passEnd + s.dev.rf R.ADC_BANK_CFG_CAL_PERIOD k * 1800000000000 ≤ s.dev.time.cnt ∧
      b.visit = some given.v ∧
      given.v.seen + 500000000 ≤ s.dev.time.cnt) ∧
    (let s : State := adcS 1 15 {} {visit := some given.v} (tick 499999999);
      (s.dev.bank 1).visit = some given.v ∧ s.dev.time.cnt < given.v.seen + 500000000) ∧
    (let s : State := adcS 1 15 {} {cal := true};
    let k : Nat := 1;
    let c : CalMeas := cm;
    let b := s.dev.bank k;
    let span := c.r - c.z;
    let g := roundDiv (6710886 * 256 * 2 ^ 22) span.toNat;
      k < s.dev.nBanks ∧
      s.dev.flag R.ADC_CTRL_EN k = true ∧
      b.cal = true ∧
      c.ch ≤ 16 ∧
      c.range < 4 ∧
      (c.ch = 16 ∨ s.dev.chOn k c.ch = true) ∧
      0 < span ∧
      c.z.natAbs ≤ 2 ^ 19 * 256 ∧
      95 * 2 ^ 22 ≤ g * 100 ∧
      g * 100 ≤ 105 * 2 ^ 22) ∧
    (let s : State := adcS 1 15 {} {cal := true} (put R.ADC_CHn_CTL_EN 1 1 0);
    let k : Nat := 1;
    let c : CalMeas := cm 16 1000;
    let b := s.dev.bank k;
    let span := c.r - c.z;
    let g := roundDiv (6710886 * 256 * 2 ^ 22) span.toNat;
      k < s.dev.nBanks ∧
      b.cal = true ∧
      c.ch ≤ 16 ∧
      c.range < 4 ∧
      (c.ch = 16 ∨ s.dev.chOn k c.ch = true) ∧
      0 < span ∧
      (¬(0 < span ∧ c.z.natAbs ≤ 2 ^ 19 * 256 ∧ 95 * 2 ^ 22 ≤ g * 100 ∧ g * 100 ≤ 105 * 2 ^ 22))) ∧
    (let s : State := adcS 1 15 {range := 3} {pass := some [1], roll := some { ch := 15, phase := 2, left := 0 } } ;
    let k : Nat := 1;
    let c : CalMeas := cm 15 1000;
    let b := s.dev.bank k;
      k < s.dev.nBanks ∧
      b.pass = some given.l ∧
      b.chkFirst = false ∧
      b.roll = some given.r ∧
      given.r.phase = 2 ∧
      given.r.abandoned = false ∧
      given.r.calEnded = false ∧
      c.ch = given.r.ch ∧
      c.range = (s.dev.adcCh k given.r.ch).range) := by
  refine ⟨?_, ?_, ?_, ?_, ?_⟩ <;> decide +kernel
end Converters

namespace Outputs
def cfgd (f : LastRec → LastRec) (d : Dev) : Dev := { d with last := some (f d.cfg) }
def ioS (es : List IoEntry) (outs : Tbl OutSt := []) (f : Dev → Dev := id) : State := at_ (f ∘ put R.DIO_CTRL_EN 1 ∘ put R.AOUT_CTRL_EN 1 ∘ put R.PWM_CTRL_EN 1
    ∘ (fun d => { d with outs := outs }) ∘ cfgd fun p => { p with io := es })
def dioE (pin owner cfg : Nat) : IoEntry := ⟨4, 0, owner, some 0, .dio pin (BitVec.ofNat 32 cfg) 5⟩
def aoE (ch owner : Nat) : IoEntry := ⟨3, 0, owner, some 0, .aout ch 0 5⟩
def pwE (ch owner : Nat) : IoEntry := ⟨5, 0, owner, some 0, .pwm ch 0 100 0 5⟩
def pwS (o : OutSt) (lo : Nat) (per : Nat := 100) : State := ioS [pwE 31 7] [(8192+31, o)] (put R.PWM_CHn_CFG_EN 1 0 31 ∘ put R.PWM_CHn_PER_PER per 0 31
    ∘ put R.PWM_CHn_CFG_SAFELOW lo 0 31)

/-- Where the premises of `OutputCommands` hold. -/
theorem witness_OutputCommands :
    (let s : State := pwS {shows := 1, val := 0x40000000} 0;
    let wr : Machine.Writer := .core;
    let g : Nat := 5;
    let al : Nat := 3;
    let i : Nat := 31;
    let n : Nat := 31;
    let w : Word := 0;
    let new (i : Nat) : Bool := if al = 0 then bitAt w.toNat i else if bitAt w.toNat i then decide (al = 1) || (decide (al = 3) && !s.dev.pinLatch (32
      * g + i)) else s.dev.pinLatch (32 * g + i);
    let key (pwm : Bool) : Nat := if pwm then 8192 + n else 4096 + n;
      (wr = Writer.eyelet ∨ wr = Writer.core) ∧
      g < 6 ∧
      al < 4 ∧
      i < 32 ∧
      s.dev.unitWrote (6359072 + 4 * g) = false ∧ s.dev.unitWrites (6359072 + 4 * g) = false ∧
      (∀ j < 32, s.dev.progOwned (32 * g + j) = true → new j = s.dev.pinLatch (32 * g + j)) ∧
      n < 32 ∧
      s.dev.unitWrote (6488328 + 16 * n) = false ∧ s.dev.unitWrites (6488328 + 16 * n) = false ∧ s.dev.svcOwned (key true) = true ∧
      s.dev.inForce R.PWM_CHn_CFG_EN n = 1 ∧
      (s.dev.outSt (8192 + n)).ltick = none ∧ (s.dev.outSt (8192 + n)).shows = 1) ∧
    (let s : State := pwS {shows := 0, ltick := some 6, was := 0x7FFFFFFF, wasShows := 1} 0 100;
      let o := s.dev.outSt (8192 + 31);
      s.dev.inForce R.PWM_CHn_CFG_EN 31 = 1 ∧ o.ltick.any (fun l => decide (s.dev.time.cnt - 1 < l)) = true ∧ o.wasShows = 1) ∧
    (let s : State := ioS [pwE 31 7];
      31 < 32 ∧ s.dev.inForce R.PWM_CHn_CFG_EN 31 ≠ 1) ∧
    (let s : State := ioS [dioE 191 0 1, aoE 15 0, pwE 31 0] [] (put R.DIO_PINn_CFG_DIRM 1 0 191);
    let wr : Machine.Writer := .eyelet;
    let g : Nat := 5;
    let al : Nat := 0;
    let i : Nat := 31;
    let n : Nat := 15;
    let w : Word := 0x80000000;
    let new (i : Nat) : Bool := if al = 0 then bitAt w.toNat i else if bitAt w.toNat i then decide (al = 1) || (decide (al = 3) && !s.dev.pinLatch (32
      * g + i)) else s.dev.pinLatch (32 * g + i);
    let key (pwm : Bool) : Nat := if pwm then 8192 + n else 4096 + n;
      (wr = Writer.eyelet ∨ wr = Writer.core) ∧
      g < 6 ∧
      al < 4 ∧
      i < 32 ∧
      s.dev.unitWrote (6359072 + 4 * g) = false ∧ s.dev.unitWrites (6359072 + 4 * g) = false ∧
      (∃ j < 32, s.dev.progOwned (32 * g + j) = true ∧ new j ≠ s.dev.pinLatch (32 * g + j)) ∧
      n < s.dev.nAout ∧
      s.dev.unitWrote (6291716 + 16 * n) = false ∧ s.dev.unitWrites (6291716 + 16 * n) = false ∧
      s.dev.progOwned (key false) = true) ∧
    (let s : State := ioS [aoE 15 7, pwE 31 7] [] id;
      15 < s.dev.nAout ∧ s.dev.svcOwned (4096 + 15) = true ∧ s.dev.unitWrote (6291716 + 16 * 15) = false ∧ s.dev.unitWrites (6291716 + 16 * 15) = false) ∧
    (let s : State := pwS {shows := 2, val := 0x80000000} 1;
    let wr : Machine.Writer := .core;
    let g : Nat := 5;
    let al : Nat := 3;
    let i : Nat := 31;
    let n : Nat := 31;
      (wr = Writer.eyelet ∨ wr = Writer.core) ∧
      g < 6 ∧
      al < 4 ∧
      i < 32 ∧
      n < 32 ∧
      s.dev.inForce R.PWM_CHn_CFG_EN n = 1 ∧ (s.dev.outSt (8192 + n)).ltick = none ∧
      ((s.dev.outSt (8192 + n)).shows = 0 ∨ (s.dev.outSt (8192 + n)).shows = 2 ∧ s.dev.inForce R.PWM_CHn_CFG_SAFELOW n = 1)) := by
  refine ⟨?_, ?_, ?_, ?_, ?_, ?_⟩ <;> decide +kernel
end Outputs

namespace Inputs
def cfgd (f : LastRec → LastRec) (d : Dev) : Dev := { d with last := some (f d.cfg) }
def pinS (p : PinSt) (f : Dev → Dev := id) : State := at_ (f ∘ put R.DIO_CTRL_EN 1 ∘ (fun d => { d with pins := [(191, p)] }) ∘ tick 77
    ∘ cfgd fun p => { p with binds := [⟨191, 4095, 1⟩], flows := [⟨4095, 1, 15, 31, 4, 0⟩], levels := [(16+15, ⟨1,1,0,0⟩)] })
def bb : BindRec := ⟨191, 4095, 1⟩
def pR : PinSt := { run := some (3, 4, 5), rej := 254 }
def chS (y : ChopSt) (x : StepSt := {}) (f : Dev → Dev := id) : State := at_ (f ∘ fun d => { d with chops := [(31, y)], steps := [(31, x)] })

/-- Where the premises of `DigitalInputs` hold. -/
theorem witness_DigitalInputs :
    (let s : State := pinS pR;
    let n : Nat := 191;
    let t : Nat := 3;
    let ns : Nat := 4;
    let fr : Nat := 5;
    let p := s.dev.pin n;
    let lim := s.dev.inForce R.DIO_PINn_CFG_CHAT_LIM n;
    let lvl := !p.lvl;
    let asserted := lvl == decide (s.dev.inForce R.DIO_PINn_CFG_POL n = 0);
      n < 192 ∧
      p.run = some (t, ns, fr) ∧
      (asserted = false ∨ p.armed = false ∨ s.dev.inForce R.DIO_PINn_CFG_EVT n ≠ 1) ∧
      t + s.dev.filterTicks n ≤ s.dev.time.cnt) ∧
    (let s : State := pinS { pR with run := some (78, 4, 5) };
    let p := s.dev.pin 191;
    let lim := s.dev.inForce R.DIO_PINn_CFG_CHAT_LIM 191;
      p.run = some (78, 4, 5) ∧ s.dev.time.cnt < 78 + s.dev.filterTicks 191 ∧ s.dev.rawMay 191 p.lvl = true ∧
      lim ≠ 0 ∧
      lim ≤ p.rej + 1) ∧
    (let s : State := pinS pR (put R.DIO_PINn_CFG_EVT 1 0 191 ∘ put R.DIO_PINn_CFG_CHAT_LIM 0 0 191);
    let n : Nat := 191;
    let t : Nat := 3;
    let ns : Nat := 4;
    let fr : Nat := 5;
    let b : BindRec := bb;
    let p := s.dev.pin n;
    let lim := s.dev.inForce R.DIO_PINn_CFG_CHAT_LIM n;
    let lvl := !p.lvl;
    let asserted := lvl == decide (s.dev.inForce R.DIO_PINn_CFG_POL n = 0);
      n < 192 ∧
      p.run = some (t, ns, fr) ∧
      asserted = true ∧
      p.armed = true ∧
      s.dev.inForce R.DIO_PINn_CFG_EVT n = 1 ∧
      List.filter (fun b => decide (b.src = n)) s.dev.cfg.binds = [b] ∧
      t + s.dev.filterTicks n ≤ s.dev.time.cnt) ∧
    (let s : State := pinS { pR with run := some (78, 4, 5), rej := 0 };
    let lim := s.dev.inForce R.DIO_PINn_CFG_CHAT_LIM 191;
      (s.dev.pin 191).run = some (78, 4, 5) ∧ s.dev.time.cnt < 78 + s.dev.filterTicks 191 ∧ s.dev.rawMay 191 (s.dev.pin 191).lvl = true ∧ (lim = 0 ∨ (s.dev.pin 191).rej + 1 < lim)) ∧
    (let s : State := pinS {};
    let n : Nat := 191;
    let p := s.dev.pin n;
      n < 192 ∧
      p.run = none ∧ s.dev.rawMay n (!p.lvl) = true) ∧
    (let s : State := pinS { edge := some 77 } (put R.DIO_PINn_CFG_DIRM 1 0 191 ∘ fun d => { d with outs := [(191, { shows := 1, val := 0 })] });
      (s.dev.pin 191).edge = some s.dev.time.cnt ∧ s.dev.rawMay 191 (!(s.dev.pin 191).lvl) = false) := by
  refine ⟨?_, ?_, ?_, ?_, ?_, ?_⟩ <;> decide +kernel

/-- Where the premises of `StepsAndChoppers` hold. -/
theorem witness_StepsAndChoppers :
    (let s : State := chS {used := true, on := true, steps := {left := 2, down := true}, a := { st := 1, quick := 7}, b := { st := 2 } } {left := 3, down := true}
      (put R.CHOP_CH_STAT_DAC_A 16 0 31 ∘ put R.CHOP_CH_CUR_RUN 255 0 31);
    let g : Nat := 31;
    let c : Nat := 31;
    let ph : Bool := false;
    let first : Bool := true;
    let x := s.dev.step g;
    let y := s.dev.chop c;
    let p := y.phase ph;
      g < 32 ∧
      0 < x.left ∧
      c < s.dev.nChop ∧
      0 < y.steps.left ∧
      y.used = true ∧ y.on = true ∧
      y.safeV = false ∧
      y.mix = 0 ∧
      p.st = 1 ∧
      first = true ∧
      7 ≤ p.quick) ∧
    (let s : State := chS {used := true, steps := {left := 2}, a := { st := 1, quick := 6, full := 255}, b := { st := 2 } } {left := 3, down := true}
      (put R.CHOP_CH_STAT_DAC_A 16 0 31 ∘ put R.CHOP_CH_CUR_RUN 255 0 31 ∘ put R.CHOP_CH_CFG_MRES 8 0 31);
    let c : Nat := 31;
    let ph : Bool := false;
    let first : Bool := true;
    let y := s.dev.chop c;
    let p := y.phase ph;
      c < s.dev.nChop ∧
      p.st = 1 ∧
      (first = false ∨ p.quick < 7)) ∧
    (let s : State := chS {used := true, steps := {left := 2}, b := { st := 1, quick := 6, full := 255}, a := { st := 2 } } {left := 3, down := true}
      (put R.CHOP_CH_STAT_DAC_B 15 0 31 ∘ put R.CHOP_CH_CUR_RUN 255 0 31 ∘ put R.CHOP_CH_CFG_MRES 8 0 31);
    let c : Nat := 31;
    let ph : Bool := false;
    let y := s.dev.chop c;
    let p := y.phase ph;
      c < s.dev.nChop ∧
      p.st = 2) := by
  refine ⟨?_, ?_, ?_⟩ <;> decide +kernel
end Inputs

namespace Engines
def cfgd (f : LastRec → LastRec) (d : Dev) : Dev := { d with last := some (f d.cfg) }
def msg : GroupMsg := { gid := 3, devidx := 0, eng := 3, k := 9, period := 1000, phase := 0 }
def enS (c : EngCfg) (x : EngSt) (f : Dev → Dev := id) : State := at_ (f ∘ unit 511 { kind := 5, cycle := 5, cad := 7, base := { engs := [(3, x)] } }
    ∘ put R.TIME_CADn_CFG_MULT 1 0 7 ∘ cfgd fun p => { p with units := [⟨511, 5, false, 7, 0, 0, []⟩], engs := [(511, [{}, {}, {}, c])] })
/-- An arming group with engine 3 of this device. -/
def gm (m : Bool) : ArmMember := { gid := 3, lead := 10, master := m }
def enG (m : Bool) (x : EngSt) (f : Dev → Dev := id) (c : EngCfg := {}) : State :=
  enS c x (f ∘ cfgd fun p => { p with io := [⟨15, 0, 0, none, .armgrp 3 2 10 [(3, m)]⟩] })

/-- Where the premises of `EngineCommands` hold. -/
theorem witness_EngineCommands :
    (let s : State := enG true {st := 1};
    let u : Nat := 511;
    let e : Nat := 3;
    let c : EngCfg := {};
    let g : ArmMember := gm true;
    let m : GroupMsg := msg;
    let x := s.dev.engSt u e;
      s.dev.engOk u e = true ∧
      s.dev.engCfg u e = some c ∧
      x.st ≠ 0 ∧
      s.dev.grpOf u e = some g ∧ g.master = true ∧ g.gid = m.gid ∧
      x.st = 1 ∧
      (u, e) ∈ s.dev.members m.gid ∧
      (m.devidx = s.dev.rf R.ACQ_DEVIDX_IDX ∧ m.eng = s.dev.engNo u e ∨ ¬(x.st = 1 ∨ x.st = 2 ∧ (m.k < x.kT ∨ m.k = x.kT ∧ (m.devidx < s.dev.rf
        R.ACQ_DEVIDX_IDX ∨ m.devidx = s.dev.rf R.ACQ_DEVIDX_IDX ∧ m.eng < s.dev.engNo u e)))) ∧
      (x.st = 1 ∨ x.st = 2 ∨ x.st = 4)) ∧
    (let s : State := enG false {};
    let u : Nat := 511;
    let e : Nat := 3;
    let c : EngCfg := {};
    let g : ArmMember := gm false;
    let m : GroupMsg := msg;
    let x := s.dev.engSt u e;
      s.dev.engOk u e = true ∧
      s.dev.engCfg u e = some c ∧
      s.dev.grpOf u e = some g ∧ g.master = false ∧
      x.st ≠ 1 ∧
      (u, e) ∈ s.dev.members m.gid ∧
      s.dev.unitCad u = (m.period, m.phase) ∧
      x.st = 0) ∧
    (let s : State := enS {} {};
    let u : Nat := 511;
    let e : Nat := 3;
    let sl : Nat := 0;
    let c : EngCfg := {};
    let x := s.dev.engSt u e;
      s.dev.engOk u e = true ∧
      s.dev.engCfg u e = some c ∧
      s.dev.grpOf u e = none ∧
      x.st = 0 ∧
      c.cont = false ∧
      EngSt.freeSlot c x = some sl ∧
      (x.st = 0 ∨ x.st = 3) ∧
      x.armPend = none) ∧
    (let s : State := enS {} {used := [0]};
    let u : Nat := 511;
    let e : Nat := 3;
    let c : EngCfg := {};
    let x := s.dev.engSt u e;
      s.dev.engOk u e = true ∧
      s.dev.engCfg u e = some c ∧
      s.dev.grpOf u e = none ∧
      x.st = 0 ∧
      c.cont = false ∧
      EngSt.freeSlot c x = none) ∧
    (let s : State := enS {cont := true} {used := [0]};
    let u : Nat := 511;
    let e : Nat := 3;
    let c : EngCfg := {cont := true};
    let x := s.dev.engSt u e;
      s.dev.engOk u e = true ∧
      s.dev.engCfg u e = some c ∧
      s.dev.grpOf u e = none ∧
      x.st = 0 ∧
      c.cont = true) ∧
    (let s : State := enS {nrec := 16} {st := 1, used := [15, 3], slot := 15};
    let u : Nat := 511;
    let e : Nat := 3;
    let c : EngCfg := {nrec := 16};
    let x := s.dev.engSt u e;
      s.dev.engOk u e = true ∧
      s.dev.engCfg u e = some c ∧
      s.dev.grpOf u e = none ∧
      (x.st = 1 ∨ x.st = 2 ∨ x.st = 4)) ∧
    (let s : State := enS {nrec := 16} {st := 3, used := [15, 3], slot := 15};
    let u : Nat := 511;
    let e : Nat := 3;
    let sl : Nat := 15;
    let c : EngCfg := {nrec := 16};
    let x := s.dev.engSt u e;
      s.dev.engOk u e = true ∧
      s.dev.engCfg u e = some c ∧
      sl < 16 ∧
      x.st = 3 ∧
      sl = x.slot) ∧
    (let s : State := enS {nrec := 16} {st := 3, used := [15, 3], slot := 15};
    let u : Nat := 511;
    let e : Nat := 3;
    let sl : Nat := 3;
    let c : EngCfg := {nrec := 16};
    let x := s.dev.engSt u e;
      s.dev.engOk u e = true ∧
      s.dev.engCfg u e = some c ∧
      sl < 16 ∧
      sl ≠ x.slot) ∧
    (let s : State := enG true {};
    let u : Nat := 511;
    let e : Nat := 3;
    let c : EngCfg := {};
    let g : ArmMember := gm true;
    let m : GroupMsg := msg;
    let x := s.dev.engSt u e;
      s.dev.engOk u e = true ∧
      s.dev.engCfg u e = some c ∧
      s.dev.grpOf u e = some g ∧ g.master = true ∧ g.gid = m.gid ∧
      x.st = 0 ∧ (c.cont = true ∨ x.freeSlot c ≠ none)) ∧
    (let s : State := enG true {used := [0]};
      let x := s.dev.engSt 511 3;
      s.dev.engOk 511 3 = true ∧ s.dev.engCfg 511 3 = some {} ∧ s.dev.grpOf 511 3 = some (gm true) ∧ (gm true).master = true ∧
      x.st = 0 ∧ ¬ (({} : EngCfg).cont = true ∨ x.freeSlot {} ≠ none)) ∧
    (let s : State := enS {} {used := [0]};
      s.dev.engOk 511 3 = true ∧ s.dev.engCfg 511 3 = some {} ∧ s.dev.grpOf 511 3 = none ∧ (s.dev.engSt 511 3).st = 0 ∧
      ¬ (({} : EngCfg).cont = true ∨ (s.dev.engSt 511 3).freeSlot {} ≠ none)) ∧
    (let s : State := enG false {};
    let u : Nat := 511;
    let e : Nat := 3;
    let c : EngCfg := {};
    let g : ArmMember := gm false;
    let m : GroupMsg := {msg with period := 2000};
      s.dev.engOk u e = true ∧
      s.dev.engCfg u e = some c ∧
      s.dev.members m.gid = [(u, e)] ∧
      s.dev.unitCad u ≠ (m.period, m.phase)) ∧
    (let s : State := enG false {st := 1};
    let u : Nat := 511;
    let e : Nat := 3;
    let c : EngCfg := {};
    let g : ArmMember := gm false;
    let m : GroupMsg := {msg with devidx := 2};
    let x := s.dev.engSt u e;
      s.dev.engOk u e = true ∧
      s.dev.engCfg u e = some c ∧
      (u, e) ∈ s.dev.members m.gid ∧
      (¬(m.devidx = s.dev.rf R.ACQ_DEVIDX_IDX ∧ m.eng = s.dev.engNo u e)) ∧
      (x.st = 1 ∨ x.st = 2 ∧ (m.k < x.kT ∨ m.k = x.kT ∧ (m.devidx < s.dev.rf R.ACQ_DEVIDX_IDX ∨ m.devidx = s.dev.rf R.ACQ_DEVIDX_IDX ∧ m.eng <
        s.dev.engNo u e))) ∧
      x.grpReq = none) ∧
    (∀ k0 ∈ [8, 9, 10], let s : State := enG false {st := 2, kT := 9, grpReq := some (k0, 0, 0, true)} (put R.ACQ_DEVIDX_IDX 5);
    let x := s.dev.engSt 511 3;
      s.dev.engOk 511 3 = true ∧ s.dev.engCfg 511 3 = some {} ∧ s.dev.grpOf 511 3 = some (gm false) ∧ (511, 3) ∈ s.dev.members 3 ∧ ¬ (2 = s.dev.rf R.ACQ_DEVIDX_IDX ∧ 3 = s.dev.engNo 511 3) ∧
      x.st = 2 ∧ 9 = x.kT ∧ 2 < s.dev.rf R.ACQ_DEVIDX_IDX ∧ x.grpReq = some (k0, 0, 0, true)) ∧
    (let s : State := enG false {st := 1, grpReq := some (9, 0, 0, false)} (put R.ACQ_DEVIDX_IDX 1);
    let x := s.dev.engSt 511 3;
      (511, 3) ∈ s.dev.members 3 ∧ x.st = 1 ∧ ¬ (2 = s.dev.rf R.ACQ_DEVIDX_IDX) ∧ ¬ (2 < s.dev.rf R.ACQ_DEVIDX_IDX) ∧ x.grpReq = some (9, 0, 0, false)) ∧
    (let s : State := enG false {st := 2, kT := 8};
      (511, 3) ∈ s.dev.members 3 ∧ (s.dev.engSt 511 3).st = 2 ∧ ¬ (9 < (s.dev.engSt 511 3).kT ∨ 9 = (s.dev.engSt 511 3).kT)) := by
  refine ⟨?_, ?_, ?_, ?_, ?_, ?_, ?_, ?_, ?_, ?_, ?_, ?_, ?_, ?_, ?_, ?_⟩ <;> decide +kernel
end Engines

namespace Records
def cfgd (f : LastRec → LastRec) (d : Dev) : Dev := { d with last := some (f d.cfg) }
def glob (rl : List Nat) : IoEntry := ⟨0, 0, 0, none, .global 1000 1 0 1 0 [] 0 rl 1 1⟩
def blk : BlockRec := { rows := [⟨5, [7], [0x80]⟩], seq := 3, k0 := 4, kEnd := 5, pos := 2, slot := 1 }
def ec : EngCfg := { base := 0x100000000000, sigs := [5], nrec := 2 }
def hs (rl : List Nat) (rg : RingSt) (f : Dev → Dev := id) : State := at_ (f
    ∘ (fun d => { d with rings := [(7, rg)], eng := [(2047, { queue := [blk, blk], stream := [blk] })], frz := { nextOrder := 3 } })
    ∘ cfgd fun p => { p with units := [⟨511, 5, false, 7, 0, 0, []⟩], io := [glob rl], sigs := [⟨9, 2, 0, false, true, 7, 0, 0⟩], engs := [(511, [{}, {}, {}, ec])] })
def es1 : List HistEntry := [⟨1,2,3,4,5⟩]
def sx : SliceRec := ⟨5, 0, es1⟩
def given.b : BlockRec := blk
def given.t : List BlockRec := []
def given.w : Nat := 2
def given.q : List (Nat × Nat) := []
def rg1 : RingSt := { slices := [⟨4, 0, es1⟩, sx, ⟨6, 0, es1⟩], sendFrom := 5 }
def rl (n : Nat) : List Nat := [0,0,0,0,0,0,0,n]
def given.m0 : Nat := 0
def fz (q : List (Nat × Nat)) (m0 : Nat) (ns : Nat) (rg : RingSt := rg1) : State :=
    hs (rl 3) rg (fun d => {d with frz := { copy := some (63, m0), queue := q, nextOrder := 9}, snaps := [(63, {})], time := { d.time with views := [(0, { base := ns * 2^40 , inc := 1, tb := 0})]} })

/-- A copy whose span is whole. -/
def fw (q : List (Nat × Nat)) (f : Dev → Dev := id) : State := hs (rl 3) { slices := [⟨9000, 0, es1⟩] }
    (f ∘ fun d => {d with frz := { copy := some (63, 0), queue := q, nextOrder := 9}, snaps := [(63, {order := 5})]})

/-- Where the premises of `RecordsAndHistory` hold. -/
theorem witness_RecordsAndHistory :
    (let s : State := hs (rl 3) rg1;
    let u : Nat := 511;
    let e : Nat := 3;
    let n : Nat := 7;
    let i : Nat := 0;
    let c : EngCfg := ec;
    let b : BlockRec := blk;
    let t : List BlockRec := [blk];
    let x : SliceRec := sx;
    let rg := s.dev.ring n;
    let len := s.dev.ringLen n;
      s.dev.engOk u e = true ∧
      s.dev.engCfg u e = some c ∧
      (s.dev.engRim u e).queue = b :: t ∧
      b.rows.length * rowSize c.sigs.length ≤ 4032 ∧
      (∀ r ∈ b.rows, r.vals.length = c.sigs.length ∧ r.sts.length = c.sigs.length) ∧
      n < 8 ∧
      0 < len ∧
      rg.skipped = none ∧
      List.find? (fun y => decide (rg.sendFrom ≤ y.ms)) rg.slices = some x ∧
      s.dev.nHist = 1 ∧
      (SliceRec.bytes n x).length ≤ max 64 ((s.dev.rf R.ETH_MTU_MTU - 60) / 64 * 64) ∧
      s.dev.frz.copy = none ∧
      s.dev.frzSlot = some i) ∧
    (let s : State := fz [] 0 0 {};
    let u : Nat := 511;
    let e : Nat := 3;
    let n : Nat := 3;
    let i : Nat := 63;
    let mf := s.dev.viewNs 0 / 1000000;
    let sp := s.dev.frzSpan;
      n < 128 ∧
      s.dev.engOf n = some (u, e) ∧
      (s.dev.engRim u e).stream = given.b :: given.t ∧
      s.dev.frz.copy = some (i, given.m0) ∧ s.dev.frzWhole = false ∧
      given.m0 - sp.1 ≤ mf ∧
      mf ≤ given.m0 + sp.2) ∧
    (let s : State := fw [];
      s.dev.frz.copy = some (63, 0) ∧ s.dev.frzWhole = true ∧ s.dev.frz.queue = []) ∧
    (let s : State := fw [(2, 3)];
      s.dev.frz.copy = some (63, 0) ∧ s.dev.frzWhole = true ∧ s.dev.frz.queue = (2, 3) :: [] ∧ s.dev.frzSlot = some 0) ∧
    (let s : State := fw [(2, 3)] (fun d => { d with snaps := (List.range 64).map fun i => (i, {order := 5, locked := true}) });
      s.dev.frz.copy = some (63, 0) ∧ s.dev.frzWhole = true ∧ s.dev.frz.queue ≠ [] ∧ s.dev.frzSlot = none) ∧
    (let s : State := hs (rl 3) {rg1 with skipped := some 0};
    let n : Nat := 7;
    let rg := s.dev.ring n;
      n < 8 ∧
      rg.skipped = some given.m0 ∧
      s.dev.nHist = 1) ∧
    (let s : State := fz [(2,3)] 0 3000000000;
    let n : Nat := 3;
    let i : Nat := 63;
    let mf := s.dev.viewNs 0 / 1000000;
    let sp := s.dev.frzSpan;
      s.dev.frz.copy = some (i, given.m0) ∧
      (mf < given.m0 - sp.1 ∨ given.m0 + sp.2 < mf) ∧
      s.dev.frz.queue.length < 4) ∧
    (let s : State := hs (rl 3) {rg1 with sendFrom := 3} (fun d => { d with hsig := [(9, { start := 0, ms := 8, out := [(7, ⟨1,2,3,4,5⟩)] })] });
    let ms := s.dev.sliceNext 7;
      ms = 7 ∧ 0 < s.dev.ringLen 7 ∧
      (s.dev.ringSigs 7).map (fun g => (Tbl.get? s.dev.hsig g.id).bind (fun h => (h.out.find? (fun z => decide (z.1 = ms))).map Prod.snd)) = es1.map some ∧
      ((s.dev.ring 7).slices ++ ([⟨ms, 0, es1⟩] : List SliceRec)).drop ((s.dev.ring 7).slices.length + 1 - s.dev.ringLen 7) =
        ⟨5, 0, es1⟩ :: [⟨6, 0, es1⟩, ⟨7, 0, es1⟩] ∧
      (s.dev.ring 7).slices ≠ [] ∧ (s.dev.ring 7).skipped = none ∧ (s.dev.ring 7).sendFrom < 5) ∧
    (let s : State := hs (rl 3) {rg1 with sendFrom := 3} (fun d => { d with time := { d.time with views := [(0, { base := 8000000 * 2^40 })] } });
    let ms := s.dev.sliceNext 7;
      0 < s.dev.ringLen 7 ∧ s.dev.histDark = true ∧ ms + 1 ≤ s.dev.viewNs 0 / 1000000 ∧
      none ∈ (s.dev.ringSigs 7).map (fun g => (Tbl.get? s.dev.hsig g.id).bind (fun h => (h.out.find? (fun z => decide (z.1 = ms))).map Prod.snd))) ∧
    (let s : State := hs (rl 3) {rg1 with sendFrom := 3} (fun d => {d with snaps := (List.range 64).map fun i => (i, {locked := true})});
      s.dev.frz.copy = none ∧
      s.dev.frzSlot = none) ∧
    (let s : State := fz [(1,1),(1,1),(1,1),(1,1)] 0 3000000000;
    let i : Nat := 63;
    let mf := s.dev.viewNs 0 / 1000000;
    let sp := s.dev.frzSpan;
      s.dev.frz.copy = some (i, given.m0) ∧
      (mf < given.m0 - sp.1 ∨ given.m0 + sp.2 < mf) ∧
      4 ≤ s.dev.frz.queue.length) := by
  refine ⟨?_, ?_, ?_, ?_, ?_, ?_, ?_, ?_, ?_, ?_, ?_⟩ <;> decide +kernel
end Records

namespace HolupSend
def cfgd (f : LastRec → LastRec) (d : Dev) : Dev := { d with last := some (f d.cfg) }
def hseg (role st : Nat) (x : HolSt) (ds : List HolDesc) (f : Dev → Dev := id) (t : Nat := 0) : State :=
  at_ (f ∘ (fun d => { d with hol := [(3, x)], time := { d.time with views := [(0, { base := t * 2^40 , inc := 2 * 2^40, tb := 0})]} }) ∘ put R.HOL_CFG_ROLE role 3
    ∘ put R.HOL_STATE_STATE st 3 ∘ put R.HOL_CFG_CHEN 3 3 ∘ put R.HOL_CFG_NODE 31 3 ∘ put R.HOL_CYC_M 100 3 ∘ put R.HOL_CFG_NBC 3 3
    ∘ cfgd fun p => { p with hol := [(3, { descs := ds })] })
def ds (k node : Nat) (rep : Bool := false) : List HolDesc := [⟨2, 1, 0, 0, 4, 4, 0, 0, 0, false, 5, 0, false, 0, 0⟩, ⟨k, 100, node, 1, 4, 4, 0, 0, 0, rep, 5, 0, false, 0, 0⟩]
def y0 (k node : Nat) (rep : Bool := false) : HolDesc := ⟨k, 100, node, 1, 4, 4, 0, 0, 0, rep, 5, 0, false, 0, 0⟩
def ch (role st : Nat) (x : HolSt := {}) (k : Nat := 0) (node : Nat := 31) (rep : Bool := false) (f : Dev → Dev := id) (t : Nat := 0)  : State :=
    hseg role st x (ds k node rep) f t
def ob : OutBuf := { fill := [1,2,3,4], filled := true, fresh := true }

/-- Segment 3 at view 0 time `t` ns, with one arbitrating window of channel 1 from 1 µs to 301 µs of the basic cycle. -/
def wd (x : HolSt) (t : Nat) (f : Dev → Dev := id) : State := hseg 1 5 x [{ kind := 2, offset := 100, ch := 1, len := 30000 }] f t
/-- A queued ARB frame of channel 1 at a priority. -/
def arb (p : Nat) : List Byte := zeros 8 ++ [1] ++ zeros 5 ++ [4, BitVec.ofNat 8 p] ++ zeros 272
/-- Descriptor 1 of segment 3 stands in the present basic cycle. -/
def here (s : State) (y : HolDesc) : Bool := decide (3 < s.dev.nHol) && decide ((s.dev.holNow 3).find? (fun e => decide (e.1 = 1)) = some (1, y, 1, 100))

/-- Where the premises of `HolupSending` hold: the start of a basic cycle. -/
theorem witness_HolupSending :
    (let s : State := ch 1 5 { nextDeg := 1 } 0 31 false id 0;
    let bc := s.dev.holIdx 3 (s.dev.holStart 3 (s.dev.viewNs 0));
      3 < s.dev.nHol ∧ 2 ≤ s.dev.rf R.HOL_CYC_M 3 ∧ (s.dev.seg 3).next = 0 ∧ s.dev.holMaster 3 = true ∧ bc = 0 ∧
      (s.dev.seg 3).annDeg = s.dev.rf R.HOL_STAT_DEG_A 3 + 2 * s.dev.rf R.HOL_STAT_DEG_B 3) ∧
    (∀ dg ∈ [1, 2], let s : State := ch 1 5 { annDeg := dg } 0 31 false id 0;
      2 ≤ s.dev.rf R.HOL_CYC_M 3 ∧ s.dev.holMaster 3 = true ∧ s.dev.holIdx 3 (s.dev.holStart 3 (s.dev.viewNs 0)) = 0 ∧
      (s.dev.seg 3).annDeg ≠ s.dev.rf R.HOL_STAT_DEG_A 3 + 2 * s.dev.rf R.HOL_STAT_DEG_B 3) ∧
    (let s : State := ch 1 5 {} 0 31 false (put R.HOL_STAT_DEG_A 1 3) 0;
      s.dev.holMaster 3 = true ∧ s.dev.holIdx 3 (s.dev.holStart 3 (s.dev.viewNs 0)) = 0 ∧ (s.dev.seg 3).annDeg = 0 ∧ s.dev.rf R.HOL_STAT_DEG_A 3 = 1) ∧
    (let s : State := ch 1 5 {} 0 31 false id 1000000;
      2 ≤ s.dev.rf R.HOL_CYC_M 3 ∧ (s.dev.seg 3).next = 0 ∧ s.dev.holMaster 3 = true ∧ s.dev.holIdx 3 (s.dev.holStart 3 (s.dev.viewNs 0)) ≠ 0) ∧
    (let s : State := ch 2 2 { csLeft := 3 } 0 31 false id 0;
      2 ≤ s.dev.rf R.HOL_CYC_M 3 ∧ (s.dev.seg 3).next = 0 ∧ s.dev.holState 3 = hsCOLDSTART ∧ s.dev.holRole 3 ≠ 0 ∧ 0 < (s.dev.seg 3).csLeft) := by
  refine ⟨?_, ?_, ?_, ?_, ?_⟩ <;> decide +kernel

/-- Where the premises of `HolupSending` hold: slots. -/
theorem witness_HolupSending_slots :
    (let s : State := ch 1 5 { outs := [(1, ob)] };
      here s (y0 0 31) = true ∧ s.dev.holMaster 3 = true ∧ (s.dev.seg 3).safeC.contains 0 = false ∧ (s.dev.outBuf 3 1).fresh = true) ∧
    (let s : State := ch 1 5 { outs := [(1, { ob with fresh := false })] } 0 31 true;
      here s (y0 0 31 true) = true ∧ s.dev.holMaster 3 = true ∧ (s.dev.seg 3).safeC.contains 0 = false ∧
      (s.dev.outBuf 3 1).fresh = false ∧ (s.dev.outBuf 3 1).filled = true ∧ (y0 0 31 true).repeatF = true) ∧
    (let s : State := ch 1 5 { outs := [(1, { ob with fresh := false })], holdC := [0] };
      here s (y0 0 31) = true ∧ s.dev.holMaster 3 = true ∧ (s.dev.seg 3).safeC.contains 0 = false ∧
      (s.dev.outBuf 3 1).fresh = false ∧ (s.dev.outBuf 3 1).filled = true ∧ (s.dev.seg 3).holdC.contains 0 = true) ∧
    (let s : State := ch 1 5;
      here s (y0 0 31) = true ∧ s.dev.holMaster 3 = true ∧ (s.dev.seg 3).safeC.contains 0 = false ∧ (s.dev.outBuf 3 1).fresh = false ∧
      (s.dev.outBuf 3 1).filled = false) ∧
    (let s : State := ch 1 5 { outs := [(1, { ob with fresh := false })] };
      here s (y0 0 31) = true ∧ (s.dev.outBuf 3 1).fresh = false ∧ (s.dev.outBuf 3 1).filled = true ∧
      ¬ ((y0 0 31).repeatF = true ∨ (s.dev.seg 3).holdC.contains 0 = true)) ∧
    (let s : State := ch 1 5 { safeC := [0] };
      here s (y0 0 31) = true ∧ s.dev.holMaster 3 = true ∧ (s.dev.seg 3).safeC.contains 0 = true) ∧
    (∀ b ∈ [true, false], let s : State := ch 0 5 { sub := 5, outs := [(1, { atSync := some ([1, 2, 3, 4], b) })] } 1 31 (!b);
      here s (y0 1 31 (!b)) = true ∧ s.dev.holSlave 3 = true ∧ (s.dev.seg 3).sub = hsRUN ∧ s.dev.holNode 3 = 31 ∧ (s.dev.seg 3).safeC.contains 0 = false ∧
      (s.dev.outBuf 3 1).atSync = some ([1, 2, 3, 4], b) ∧ (b = true ∨ (y0 1 31 (!b)).repeatF = true)) ∧
    (∀ o ∈ [none, some ([1, 2, 3, 4], false)], let s : State := ch 0 5 { sub := 5, outs := [(1, { atSync := o })] } 1 31;
      here s (y0 1 31) = true ∧ s.dev.holSlave 3 = true ∧ (s.dev.seg 3).sub = hsRUN ∧ s.dev.holNode 3 = 31 ∧ (s.dev.seg 3).safeC.contains 0 = false ∧
      (s.dev.outBuf 3 1).atSync = o ∧ ¬ ((y0 1 31).repeatF = true ∨ (s.dev.seg 3).holdC.contains 0 = true)) ∧
    (let s : State := ch 1 5 { outs := [(1, ob)] } 3 31;
      here s (y0 3 31) = true ∧ s.dev.holMaster 3 = true ∧ (s.dev.seg 3).safeC.contains 0 = false ∧ (s.dev.outBuf 3 1).fresh = true) ∧
    (let s : State := ch 1 5 { absN := [(31, 4)] } 1 31;
      here s (y0 1 31) = true ∧ s.dev.holMaster 3 = true ∧ (s.dev.seg 3).gotSlots.contains 1 = false ∧
      s.dev.rf R.HOL_CFG_ABS_N 3 ≤ Tbl.getD 0 (s.dev.seg 3).absN 31 + 1 ∧ bitAt (s.dev.rf R.HOL_ABSENT_V 3) 31 = false) ∧
    (let s : State := ch 1 5 { gotSlots := [1] } 1 31;
      here s (y0 1 31) = true ∧ s.dev.holMaster 3 = true ∧ (s.dev.seg 3).gotSlots.contains 1 = true) := by
  refine ⟨?_, ?_, ?_, ?_, ?_, ?_, ?_, ?_, ?_, ?_, ?_⟩ <;> decide +kernel

/-- Where the premises of `HolupSending` hold: arbitration, answers to a poll, and the measurement of delays. -/
theorem witness_HolupSending_arb :
    (∀ t ∈ [0, 1000, 200000], let s : State := wd { dlyPend := some 31 } t;
      3 < s.dev.nHol ∧ s.dev.chEn 3 1 = true ∧ s.dev.holMaster 3 = true ∧ (s.dev.seg 3).dly = none ∧ (s.dev.seg 3).dlyPend = some 31 ∧
      s.dev.arbMay 3 1 0 0 = decide (t = 200000)) ∧
    (∀ t ∈ [1000, 200000], let s : State := wd { dly := some (31, 7, 999) } t;
      s.dev.chEn 3 1 = true ∧ s.dev.holMaster 3 = true ∧ (s.dev.seg 3).dly = some (31, 7, 999) ∧ s.dev.arbWindow 3 1 = some (1000, 301000) ∧
      s.dev.arbMay 3 1 0 0 = decide (t = 200000)) ∧
    (∀ t ∈ [1000, 200000, 300999], let s : State := wd { txq := [arb 7, arb 2, zeros 288] } t;
      s.dev.chEn 3 1 = true ∧ s.dev.holMaster 3 = true ∧ (s.dev.seg 3).dly = none ∧ (s.dev.seg 3).dlyPend = none ∧ arb 2 ∈ (s.dev.seg 3).txq ∧
      (∀ z ∈ (s.dev.seg 3).txq, byteAt z 8 % 2 = 1 → z = arb 2 ∨ byteAt (arb 2) 15 % 8 < byteAt z 15 % 8) ∧
      s.dev.arbMay 3 1 (byteAt (arb 2) 15 % 8) (slice (arb 2) 20 (min 254 (byteAt (arb 2) 14))).length = decide (t = 200000)) ∧
    (∀ o ∈ [none, some ([1, 2, 3, 4], true)], let s : State := ch 0 5 { sub := 5, outs := [(1, { atSync := o })], owed := some (0, 1, 1) } 3 31;
      s.dev.holSlave 3 = true ∧ (s.dev.seg 3).sub = hsRUN ∧ (s.dev.seg 3).owed = some (0, 1, 1) ∧ (s.dev.holSch 3).descs[1]? = some (y0 3 31) ∧
      (s.dev.seg 3).safeC.contains 0 = false ∧ (s.dev.outBuf 3 1).atSync = o) ∧
    (let s : State := ch 0 5 { sub := 9, owed := some (1, 1, 100) } 3 31 false (tick 200);
      s.dev.holSlave 3 = true ∧ (s.dev.seg 3).sub = hsSYNCING ∧ (s.dev.seg 3).owed = some (1, 1, 100)) ∧
    (let s : State := ch 0 5 { sub := 10, owed := some (1, 1, 100) } 3 31;
      (s.dev.seg 3).sub = hsSILENT) ∧
    (let s : State := ch 1 5 { dlyNew := [31, 5] } 3 31;
      s.dev.holMaster 3 = true ∧ s.dev.flag R.HOL_CFG_DLYMODE 3 = false ∧ (s.dev.seg 3).dlyPend = none ∧ (s.dev.seg 3).dly = none ∧
      (s.dev.seg 3).dlyNew = 31 :: [5]) := by
  refine ⟨?_, ?_, ?_, ?_, ?_, ?_, ?_⟩ <;> decide +kernel

/-- Where the premises of `HolupSending` hold: states and their times, the ARB queues. -/
theorem witness_HolupSending_states :
    (∀ role ∈ [1, 2], ∀ t ∈ [3999999, 4000000], let s : State := ch role 1 {} 3 31 false (tick t);
      3 < s.dev.nHol ∧ s.dev.holState 3 = hsLISTEN ∧ s.dev.holRole 3 ≠ 0 ∧
      s.dev.segWaited 3 (2 * s.dev.holNbc 3 * s.dev.holPbc 3) = decide (t = 4000000)) ∧
    (let s : State := ch 2 2 {} 3 31 false id 1000000;
      s.dev.holState 3 = hsCOLDSTART ∧ (s.dev.seg 3).csLeft = 0 ∧ (s.dev.seg 3).lastB + s.dev.holPbc 3 ≤ s.dev.viewNs 0) ∧
    (∀ t ∈ [15999999, 16000000], let s : State := ch 2 3 {} 3 31 false (tick t);
      s.dev.holState 3 = hsBACKOFF ∧ s.dev.segWaited 3 ((s.dev.holNode 3 + 1) * s.dev.holPbc 3) = decide (t = 16000000)) ∧
    (∀ t ∈ [1499999, 1500000], ∀ x ∈ [(2, 4, 0), (0, 5, 5), (0, 5, 9)],
      let s : State := ch x.1 x.2.1 { sub := x.2.2, ins := [(1, { frozen := some (1, { typ := 2 }) })] } 3 31 false
        (put R.TIME_VCTL_SRC 3 ∘ put R.TIME_VCTL_SEG 3 ∘ tick t);
      s.dev.holSlave 3 = true ∧ ¬ (s.dev.holRole 3 = 0 ∧ s.dev.holState 3 = hsLISTEN) ∧ s.dev.segWaited 3 (3 * s.dev.holPbc 3) = decide (t = 1500000) ∧
      s.dev.rf R.TIME_VCTL_SRC = 3 ∧ s.dev.rf R.TIME_VCTL_SEG = 3 ∧
      ((Tbl.get? (s.dev.seg 3).ins 1).bind InBuf.frozen).isSome = true) ∧
    (let s : State := ch 2 7 { txq := List.replicate 16 [] };
      s.dev.holState 3 = hsYIELD ∧ 16 ≤ (s.dev.seg 3).txq.length) ∧
    (let s : State := ch 1 5 { txq := List.replicate 15 [] };
      s.dev.holMaster 3 = true ∧ (s.dev.seg 3).txq.length < 16) := by
  refine ⟨?_, ?_, ?_, ?_, ?_, ?_⟩ <;> decide +kernel
end HolupSend

namespace HolupReceive
def cfgd (f : LastRec → LastRec) (d : Dev) : Dev := { d with last := some (f d.cfg) }
def hseg (role st : Nat) (x : HolSt) (ds : List HolDesc) (f : Dev → Dev := id) (t : Nat := 0) : State :=
  at_ (f ∘ (fun d => { d with hol := [(3, x)], time := { d.time with views := [(0, { base := t * 2^40 , inc := 2 * 2^40, tb := 0})]} }) ∘ put R.HOL_CFG_ROLE role 3
    ∘ put R.HOL_STATE_STATE st 3 ∘ put R.HOL_CFG_CHEN 3 3 ∘ put R.HOL_CFG_NODE 31 3 ∘ put R.HOL_CYC_M 100 3 ∘ put R.HOL_CFG_NBC 3 3
    ∘ cfgd fun p => { p with hol := [(3, { descs := ds })] })
def ds (k node : Nat) (rep : Bool := false) : List HolDesc := [⟨2, 1, 0, 0, 4, 4, 0, 0, 0, false, 5, 0, false, 0, 0⟩, ⟨k, 100, node, 1, 4, 4, 0, 0, 0, rep, 5, 0, false, 0, 0⟩]
def y0 (k node : Nat) (rep : Bool := false) : HolDesc := ⟨k, 100, node, 1, 4, 4, 0, 0, 0, rep, 5, 0, false, 0, 0⟩
def ch (role st : Nat) (x : HolSt := {}) (k : Nat := 0) (node : Nat := 31) (rep : Bool := false) (f : Dev → Dev := id) (t : Nat := 0)  : State :=
    hseg role st x (ds k node rep) f t
def sf (typ ch slot : Nat) (pay : List Byte) (claim : Nat := 0) (src : Nat := 31) : HolFrame :=
    { typ := typ, src := src, ch := ch, slot := slot, claim := claim, payload := pay }
def sy (bc : Nat := 1) (ns : Nat := 0) : List Byte := leBytes 8 ns ++ zeros 4 ++ [BitVec.ofNat 8 bc, 0] ++ leBytes 2 0
def hi (c : Nat) : Dev → Dev := put R.HOL_HCLAIM_V c 3
def cl (c : Nat) : Dev → Dev := put R.HOL_CLAIM_V c 3
def g : Dev → Dev := put R.HOL_TIMING_GUARD 10 3

/-- The premises that every clause about a valid SYNC to a slave shares; the rest is `P`, of the segment and the offset. -/
def syncOk (s : State) (t : Nat) (P : HolSt → Int → Bool) : Bool :=
  let f : HolFrame := sf 1 1 0 (sy 5) 9
  let lat : Int := toS 32 (s.dev.rf R.HOL_ING_LAT_ING_LAT 3) + toS 32 (s.dev.rf R.HOL_ASYM_ASYM 3) + (s.dev.rf R.HOL_LDLY_DELAY 3 : Nat)
  let o : Int := s.dev.stampB 0 t - lat * 65536 - (le f.payload 0 8 * 2 ^ 32 + le f.payload 8 4 : Nat)
  decide (3 < s.dev.nHol) && s.dev.holCarrier 3 && s.dev.chEn 3 1 && decide (s.dev.holRole 3 = 0 ∧ s.dev.holState 3 ≠ hsOFF) &&
    decide (s.dev.rf R.HOL_HCLAIM_V 3 ≤ f.claim ∧ f.claim < 2 ^ 32 ∧ f.payload.length = 16 ∧ (s.dev.holSch 3).sched = 0) && s.dev.holTakes 3 f 1 1 &&
    P (s.dev.seg 3) o
def steers (s : State) : Bool := decide (s.dev.rf R.TIME_VCTL_SRC 0 0 = 3) && decide (s.dev.rf R.TIME_VCTL_SEG 0 0 = 3)
def inb (s : State) (o : Int) : Bool := decide (4 * o.natAbs ≤ s.dev.rf R.HOL_TIMING_GUARD 3 * (10 * 2 ^ 32))
def small (o : Int) : Bool := decide (-(2 ^ 31) ≤ roundDiv o 65536 ∧ roundDiv o 65536 < 2 ^ 31)
def st0 : Dev → Dev := put R.TIME_VCTL_SRC 3 ∘ put R.TIME_VCTL_SEG 3

/-- Where the premises of `HolupReceiving` hold: a valid SYNC in each state of a slave. -/
theorem witness_HolupReceiving :
    (let s := ch 0 1 { sub := 1 } 0 31 false (hi 9); syncOk s 0 (fun x o => !steers s && decide (x.sub = hsLISTEN) && small o) = true) ∧
    (let s := ch 0 9 { sub := 9, inb := 1, ldlyKnown := true } 0 31 false (hi 9);
      syncOk s 0 (fun x o => !steers s && decide (x.sub = hsSYNCING) && inb s o && decide (1 ≤ x.inb) && x.ldlyKnown && small o) = true) ∧
    (let s := ch 0 5 { sub := 5 } 0 31 false (hi 9); syncOk s (2 ^ 33) (fun x o => !steers s && decide (x.sub = hsRUN) && !inb s o) = true) ∧
    (let s := ch 0 10 { sub := 10, inb := 1 } 0 31 false (hi 9);
      syncOk s 0 (fun x o => !steers s && decide (x.sub = hsSILENT) && inb s o && decide (1 ≤ x.inb) && small o) = true) ∧
    (let s := ch 0 10 { sub := 1 } 0 31 false (hi 9 ∘ st0);
      syncOk s (2 ^ 40) (fun x o => steers s && !inb s o && !s.dev.running && decide (s.dev.vstate 0 = 0 ∧ x.sub ≠ hsRUN)) = true) ∧
    (let s := ch 0 10 { sub := 10, inb := 1 } 0 31 false (hi 9 ∘ st0);
      syncOk s 0 (fun x o => steers s && inb s o && decide (1 ≤ x.inb) && small o) = true) := by
  refine ⟨?_, ?_, ?_, ?_, ?_, ?_⟩ <;> decide +kernel

/-- The instant whose stamp is tick 0, whatever the port's nominal latency is (log entry 98). -/
def t0 (s : State) : Nat := 4 * Config.nominalLat (s.dev.holMode 3)
theorem stampOf_t0 (s : State) : s.dev.stampOf 3 (t0 s) = 0 := by simp [Dev.stampOf, stampA, t0]

/-- A master before an IN slot of node 31, one before an OUT slot (which another master's frame takes), and a slave before an OUT slot. -/
def wIn : State := ch 1 5 {} 1 31 false (g ∘ put R.HOL_ABSENT_V (2 ^ 31) 3) 1000
def wMo : State := ch 1 5 {} 0 31 false g 1000
def wOut : State := ch 0 5 { sub := 5, master := some 31 } 0 31 false g 1000

theorem window_t0 (s : State) (ks : List Nat) : s.dev.holWindow 3 1 (t0 s) ks = s.dev.windowAt 3 1 0 ks := by
  rw [← stampOf_t0 s]; rfl

/-- Where the premises of `HolupReceiving` hold: frames that fall into their windows. -/
theorem witness_HolupReceiving_windows :
    (∀ e ∈ [(wIn, [1], y0 1 31), (wIn, [0, 1], y0 1 31), (wMo, [0], y0 0 31), (wMo, [0, 1], y0 0 31), (wOut, [0], y0 0 31)],
      (e.1.dev.holWindow 3 1 (t0 e.1) e.2.1).1 = some (1, e.2.2)) := by
  intro e
  rw [window_t0]
  revert e
  decide +kernel

/-- Where the premises of `HolupReceiving` hold: what such frames hold. -/
theorem witness_HolupReceiving_lands :
    (3 < wIn.dev.nHol ∧ wIn.dev.holCarrier 3 = true ∧ wIn.dev.holMaster 3 = true ∧ wIn.dev.covered 3 = false ∧ wIn.dev.holPoll 3 = false ∧
      (y0 1 31).kind = 1 ∧ 1 = wIn.dev.slotNo 3 1 ∧ (wIn.dev.seg 3).gotSlots.contains 1 = false ∧
      wIn.dev.holTakes 3 (sf 3 1 1 [1, 2, 3, 4]) 1 3 = true ∧ (y0 1 31).len = 4 ∧ (y0 1 31).node = 31 ∧ bitAt (wIn.dev.rf R.HOL_ABSENT_V 3) 31 = true ∧
      wIn.dev.holTakes 3 (sf 5 1 1 []) 1 5 = true ∧ wIn.dev.rf R.HOL_CLAIM_V 3 = 0) ∧
    (wMo.dev.holMaster 3 = true ∧ wMo.dev.covered 3 = false ∧ wMo.dev.holPoll 3 = false ∧ wMo.dev.rf R.HOL_CLAIM_V 3 = 0 ∧ wMo.dev.rf R.HOL_HCLAIM_V 3 = 0 ∧
      (y0 0 31).kind = 0 ∧ 1 = wMo.dev.slotNo 3 1 ∧ (wMo.dev.seg 3).gotSlots.contains 1 = false ∧ (wMo.dev.seg 3).master = none ∧
      wMo.dev.holTakes 3 (sf 2 1 1 [1, 2, 3, 4] 1) 1 2 = true ∧ wMo.dev.holTakes 3 (sf 5 1 1 []) 1 5 = true) ∧
    (wOut.dev.holCarrier 3 = true ∧ wOut.dev.holRole 3 = 0 ∧ wOut.dev.holState 3 ≠ hsOFF ∧ wOut.dev.chEn 3 1 = true ∧ wOut.dev.holMaster 3 = false ∧
      wOut.dev.rf R.HOL_HCLAIM_V 3 ≤ 0 ∧ (wOut.dev.seg 3).master = some 31 ∧
      wOut.dev.holTakes 3 (sf 2 1 1 [1, 2, 3, 4]) 1 2 = true ∧ (y0 0 31).kind = 0 ∧ (y0 0 31).len = 4 ∧ 1 = wOut.dev.slotNo 3 1 ∧
      (wOut.dev.seg 3).gotSlots.contains 1 = false) ∧
    (∀ f ∈ [sf 2 1 1 [1, 2, 3], sf 2 1 1 [1, 2, 3, 4] 0 30, sf 2 1 2 [1, 2, 3, 4]], wOut.dev.holTakes 3 f 1 2 = true ∧
      (f.payload.length ≠ (y0 0 31).len ∨ (y0 0 31).kind = 0 ∧ f.src ≠ 31 ∨ f.slot ≠ wOut.dev.slotNo 3 1)) := by
  refine ⟨?_, ?_, ?_, ?_⟩ <;> decide +kernel

/-- A frame of each type with its payload, at a claim. -/
def fr (typ claim : Nat) : HolFrame :=
  sf typ 1 (if typ = 4 then 31 else 1) (if typ = 1 ∨ typ = 7 then sy else if typ = 8 then [] else if typ = 9 then zeros 8 else [1, 2, 3, 4]) claim

/-- Where the premises of `HolupReceiving` hold: frames that are discarded, ignored, mark a conflict or fence. -/
theorem witness_HolupReceiving_claims :
    (∀ c ∈ [3, 2], let s : State := ch 2 2 { csLeft := c } 0 31;
      3 < s.dev.nHol ∧ s.dev.holCarrier 3 = true ∧ s.dev.holState 3 ≠ hsOFF ∧ s.dev.chEn 3 1 = true ∧ s.dev.holState 3 = hsCOLDSTART ∧
      decide ((s.dev.seg 3).csLeft < 3) = decide (c = 2) ∧ s.dev.holTakes 3 (fr 2 9) 1 1 = false) ∧
    (let s : State := ch 0 5 {} 0 31;
      s.dev.holState 3 ≠ hsOFF ∧ s.dev.chEn 3 1 = true ∧
      (∀ f ∈ [sf 1 1 0 [1], sf 7 1 0 (sy ++ [0]), sf 8 1 31 [1], sf 10 1 31 [1, 2, 3]], s.dev.holTakes 3 f 1 f.typ = true)) ∧
    (let s : State := ch 0 5 {} 0 31 false (hi 9);
      s.dev.holMaster 3 = false ∧ s.dev.covered 3 = false ∧ (fr 1 8).claim < s.dev.rf R.HOL_HCLAIM_V 3 ∧
      ∀ ty ∈ [1, 2, 4, 7], s.dev.holTakes 3 (fr ty 8) 1 ty = true) ∧
    (∀ t ∈ [none, some 1], let s : State := ch 1 hsRUN { conflictAt := t } 0 31 false (hi 9 ∘ cl 9 ∘ tick 500000000);
      s.dev.holMaster 3 = true ∧ s.dev.covered 3 = false ∧ 9 ≤ s.dev.rf R.HOL_CLAIM_V 3 ∧ (s.dev.seg 3).conflictAt = t ∧ s.dev.time.cnt < 1 + 500000000 ∧
      ∀ ty ∈ [1, 2, 4, 7, 8, 10], s.dev.holTakes 3 (fr ty 9) 1 ty = true) ∧
    (let s : State := ch 1 hsRUN {} 0 31 false (hi 9 ∘ cl 9);
      s.dev.holMaster 3 = true ∧ s.dev.covered 3 = false ∧ s.dev.rf R.HOL_HCLAIM_V 3 ≤ 10 ∧ s.dev.rf R.HOL_CLAIM_V 3 < 10 ∧
      ∀ ty ∈ [1, 4, 7], s.dev.holTakes 3 (fr ty 10) 1 ty = true) ∧
    (let s : State := ch 1 5 {} 3 31 false (cl 9 ∘ put R.HOL_CFG_MODE 1 3);
      s.dev.holMaster 3 = true ∧ s.dev.covered 3 = false ∧ s.dev.rf R.HOL_CLAIM_V 3 < 2 ^ 32 - 1 ∧ s.dev.holTakes 3 (fr 3 (2 ^ 32 - 1)) 1 3 = true ∧
      s.dev.holPoll 3 = true ∧ (s.dev.seg 3).polled = none) ∧
    (∀ m ∈ [0, 1], let s : State := ch 1 1 {} 0 31 false (hi 9 ∘ cl 9 ∘ put R.HOL_CFG_MODE m 3);
      s.dev.holRole 3 = 1 ∧ s.dev.holState 3 = hsLISTEN ∧ s.dev.rf R.HOL_HCLAIM_V 3 ≤ 9 ∧ 9 ≤ s.dev.rf R.HOL_CLAIM_V 3 ∧
      s.dev.holTakes 3 (fr 7 9) 1 7 = true ∧ s.dev.holPoll 3 = decide (m = 1)) ∧
    (let s : State := ch 0 5 { sub := 5, outs := [(1, { fresh := true })] } 1 31 false (hi 9);
      s.dev.holRole 3 = 0 ∧ (s.dev.holSch 3).descs[1]? = some (y0 1 31) ∧ (y0 1 31).node = s.dev.holNode 3 ∧ (s.dev.outBuf 3 1).fresh = true ∧
      syncOk s 0 (fun _ _ => true) = true) ∧
    (∀ r ∈ [none, some (1, { typ := 2 })], let s : State := ch 0 5 { sub := 5, ins := [(1, { recv := r, latest := some (0, { typ := 2 }) })] } 0 31 false (hi 9);
      (s.dev.holSch 3).descs[1]? = some (y0 0 31) ∧ s.dev.holOccurs 3 ((5 + s.dev.holNbc 3 - 1) % s.dev.holNbc 3) (y0 0 31) = true ∧
      (Tbl.get? (s.dev.seg 3).ins 1).map InBuf.recv = some r ∧ syncOk s 0 (fun _ _ => true) = true) := by
  refine ⟨?_, ?_, ?_, ?_, ?_, ?_, ?_, ?_, ?_⟩ <;> decide +kernel

/-- Where the premises of `HolupReceiving` hold: POLL and ARB frames, the exchange of delays. -/
theorem witness_HolupReceiving_others :
    (let s : State := ch 0 5 {sub := 5} 3 31 false (g ∘ put R.HOL_CFG_MODE 1 3) 1000;
    let n : Nat := 3;
    let arr : Nat := 1;
    let i : Nat := 1;
    let node : Nat := 100;
    let f : HolFrame := sf 4 1 31 [1,2,3,4];
    let y : HolDesc := y0 3 31;
    let x := s.dev.seg n;
    let st := s.dev.holState n;
    let hc := s.dev.rf R.HOL_HCLAIM_V n;
      n < s.dev.nHol ∧
      arr < 2 ∧ s.dev.holCarrier n = true ∧
      s.dev.holRole n = 0 ∧
      st ≠ hsOFF ∧
      hc ≤ f.claim ∧
      s.dev.holTakes n f arr 4 = true ∧
      s.dev.holPoll n = true ∧
      f.slot = s.dev.holNode n ∧
      (x.sub = hsSYNCING ∨ x.sub = hsRUN) ∧
      List.find? (fun e => decide (e.2.1.kind = 3) && decide (e.2.1.node = f.slot) && decide (e.2.2.1 = arr) && !x.gotSlots.contains e.1)
        (s.dev.holNow n) = some (i, y, arr, node) ∧
      f.payload.length = y.len) ∧
    (let s : State := ch 0 5 {sub := 5} 3 31 false (g) 1000;
    let n : Nat := 3;
    let arr : Nat := 1;
    let f : HolFrame := sf 6 1 31 [31,2,3,4];
    let x := s.dev.seg n;
    let cl := s.dev.rf R.HOL_CLAIM_V n;
      n < s.dev.nHol ∧
      arr < 2 ∧ s.dev.holCarrier n = true ∧
      2 ≤ f.payload.length ∧
      s.dev.holTakes n f arr 6 = true ∧
      (s.dev.holRole n = 0 ∨ f.claim ≤ cl) ∧
      (byteAt f.payload 0 = s.dev.holNode n ∨ byteAt f.payload 0 = 63) ∧
      x.rxq.length < 32) ∧
    (let s : State := ch 0 5 {sub := 5, rxq := List.replicate 32 []} 3 31 false (g) 1000;
    let n : Nat := 3;
    let arr : Nat := 1;
    let f : HolFrame := sf 6 1 31 [0x3F,2,3,4];
    let x := s.dev.seg n;
    let cl := s.dev.rf R.HOL_CLAIM_V n;
      n < s.dev.nHol ∧
      arr < 2 ∧ s.dev.holCarrier n = true ∧
      2 ≤ f.payload.length ∧
      s.dev.holTakes n f arr 6 = true ∧
      (s.dev.holRole n = 0 ∨ f.claim ≤ cl) ∧
      (byteAt f.payload 0 = s.dev.holNode n ∨ byteAt f.payload 0 = 63) ∧
      32 ≤ x.rxq.length) ∧
    (let s : State := ch 0 5 {sub := 5} 3 31 false (g) 1000;
    let n : Nat := 3;
    let arr : Nat := 1;
    let f : HolFrame := sf 8 1 31 [];
    let x := s.dev.seg n;
    let st := s.dev.holState n;
      n < s.dev.nHol ∧
      arr < 2 ∧ s.dev.holCarrier n = true ∧
      s.dev.holRole n = 0 ∧
      st ≠ hsOFF ∧
      f.slot = s.dev.holNode n ∧
      f.payload = [] ∧
      s.dev.holTakes n f arr 8 = true ∧
      (x.sub = hsSYNCING ∨ x.sub = hsRUN)) ∧
    (let s : State := ch 0 5 {sub := 5} 3 31 false (g) 1000;
    let n : Nat := 3;
    let arr : Nat := 1;
    let f : HolFrame := sf 10 1 31 [1,2,3,0xFF];
    let st := s.dev.holState n;
      n < s.dev.nHol ∧
      arr < 2 ∧ s.dev.holCarrier n = true ∧
      s.dev.holRole n = 0 ∧
      st ≠ hsOFF ∧
      f.slot = s.dev.holNode n ∧
      f.payload.length = 4 ∧
      s.dev.holTakes n f arr 10 = true ∧
      s.dev.flag R.HOL_CFG_DLYMODE n = false) ∧
    (let s : State := ch 1 5 {dly := some (31, 1, 0)} 3 31 false (g) 1000;
    let n : Nat := 3;
    let arr : Nat := 1;
    let t1 : Nat := 1;
    let node : Nat := 31;
    let f : HolFrame := sf 9 1 31 (leBytes 4 100 ++ zeros 4);
    let x := s.dev.seg n;
    let cl := s.dev.rf R.HOL_CLAIM_V n;
      n < s.dev.nHol ∧
      arr < 2 ∧ s.dev.holCarrier n = true ∧
      s.dev.holMaster n = true ∧
      s.dev.covered n = false ∧
      f.claim ≤ cl ∧
      x.dly = some (node, t1, 0) ∧
      f.src = node ∧
      node < 32 ∧
      f.payload.length = 8 ∧
      s.dev.holTakes n f arr 9 = true) := by
  refine ⟨?_, ?_, ?_, ?_, ?_, ?_⟩ <;> decide +kernel
end HolupReceive

namespace Can
def cfgd (f : LastRec → LastRec) (d : Dev) : Dev := { d with last := some (f d.cfg) }
def cs (role tt : Nat) (x : CanSt) (f : Dev → Dev := id) (ws : List CanWin := []) (t : Nat := 0) : State :=
  at_ (f ∘ (fun d => { d with can := [(3, x)], time := { d.time with cnt := 500, views := [(0, { base := t * 2^40 , inc := 2 * 2^40, tb := 0})]} })
    ∘ put R.CAN_CTRL_EN 1 3 ∘ put R.CAN_CFG_ROLE role 3 ∘ put R.CAN_TT_STATE_STATE tt 3 ∘ put R.CAN_CFG_FDEN 1 3 ∘ cfgd fun p => { p with can := [(3, ws)] })
def fr : CanFrame := { id := 0x123 * 2^18, dlc := 8, data := List.replicate 8 7 }
def fl (act buf : Nat) : Dev → Dev := put R.CAN_FLT_ID_ACTION act 3 127 ∘ put R.CAN_FLT_CFG_BUF buf 3 127
def w0 : CanWin := { offset := 10, len := 100, excl := true, buf := some 63, id := some (0x123 * 2^18, false) }
def e0 : CanErr := { tx := true, lec := 3, extra := 1 }
def many : List (List Byte) := List.replicate 64 [1]
def rf (p : Nat) : CanFrame := { id := (0x120 + p) * 2^18, dlc := 8, data := [5, BitVec.ofNat 8 p] ++ zeros 6 }
def ri : Dev → Dev := put R.CAN_TT_TIMING_REFID 0x120 3

/-- The controller's clock: basic cycles of 1 ms from 0 on, windows of 100 ns units, g 800 ns. -/
def cyc : Dev → Dev := put R.CAN_TT_CYC_M 100 3 ∘ put R.CAN_TT_TIMING_GUARD 8 3
/-- A window of which buffer 63 may arbitrate. -/
def w1 : CanWin := { offset := 10, len := 9000, excl := false, buf := some 63 }
/-- Controller 3 is present, on and not bus-off. -/
def alive (s : State) : Bool := decide (3 < s.dev.nCan) && s.dev.canOn 3 && !s.dev.busOff 3
/-- Buffer 63 is cyclic and has a fill to send. -/
def cyclic : Dev → Dev := put R.CAN_TXB_CTL_KIND 1 3 63
def pend (s : State) (b : Nat) : Bool := s.dev.flag R.CAN_TXB_CTL_PEND 3 b
/-- Controller 3 may start a frame. -/
def idle (s : State) : Bool := alive s && !s.dev.flag R.CAN_CFG_MON 3 && !s.dev.flag R.CAN_CFG_RESTR 3 && (s.dev.can_ 3).cur.isNone

/-- Where the premises of `CanCommands` hold: received frames. -/
theorem witness_CanCommands :
    (let s : State := cs 0 0 { q0 := many.drop 1 } (fl 1 0);
      alive s = true ∧ s.dev.canCarrier = true ∧ fr.ok = true ∧ fr.fdf = false ∧ s.dev.canRole 3 = 0 ∧
      (List.range 128).find? (s.dev.fltMatch 3 fr) = some 127 ∧ s.dev.rf R.CAN_FLT_ID_ACTION 3 127 = 1 ∧ (s.dev.can_ 3).q0.length < 64) ∧
    (let s : State := cs 0 0 { q1 := many } (fl 2 0);
      alive s = true ∧ (List.range 128).find? (s.dev.fltMatch 3 { fr with fdf := true }) = some 127 ∧ s.dev.flag R.CAN_CFG_FDEN 3 = true ∧
      s.dev.rf R.CAN_FLT_ID_ACTION 3 127 = 2 ∧ 64 ≤ (s.dev.can_ 3).q1.length) ∧
    (∀ c ∈ [0, 1], let s : State := cs 0 0 {} (fl 3 63 ∘ put R.CAN_RXB_CTL_ND 1 3 63 ∘ put R.CAN_RXB_CTL_CAD c 3 63);
      alive s = true ∧ (List.range 128).find? (s.dev.fltMatch 3 fr) = some 127 ∧ s.dev.rf R.CAN_FLT_ID_ACTION 3 127 = 3 ∧
      s.dev.rf R.CAN_RXB_CTL_CAD 3 (s.dev.rf R.CAN_FLT_CFG_BUF 3 127) = c ∧ s.dev.rf R.CAN_RXB_CTL_ND 3 63 = 1) ∧
    (let s : State := cs 0 0 {};
      alive s = true ∧ (List.range 128).find? (s.dev.fltMatch 3 fr) = none ∧ s.dev.rf R.CAN_CFG_NOMATCH 3 = 0) ∧
    (let s : State := cs 1 2 { mark := some 0 } cyc [w0];
      alive s = true ∧ (0, w0) ∈ s.dev.canNow 3 ∧ w0.expects fr = true ∧
      2 * ((s.dev.stampNs 500 : Int) - (0 + w0.offset * 100 : Nat)).natAbs ≤ s.dev.canG 3) ∧
    (∀ sof ∈ [250, 750], let s : State := cs 1 2 { mark := some 0 } cyc [w0];
      alive s = true ∧ s.dev.canCarrier = true ∧ s.dev.canRole 3 ≠ 0 ∧ (s.dev.can_ 3).mark = some 0 ∧ (s.dev.canWins 3).any (·.expects fr) = true ∧
      (s.dev.canNow 3).all (fun z => !z.2.expects fr ||
        decide (s.dev.canG 3 < 2 * ((s.dev.stampNs sof : Int) - (0 + z.2.offset * 100 : Nat)).natAbs)) = true ∧
      (s.dev.nearWin 3 0 fr (s.dev.stampNs sof)).any (fun z => decide (z < 0)) = decide (sof = 250)) := by
  refine ⟨?_, ?_, ?_, ?_, ?_, ?_⟩ <;> decide +kernel

/-- Where the premises of `CanCommands` hold: received references. -/
theorem witness_CanCommands_references :
    (let s : State := cs 2 5 { mark := some 0 } ri;
      alive s = true ∧ s.dev.canCarrier = true ∧ (rf 3).ok = true ∧ s.dev.isRef 3 (rf 3) = true ∧ s.dev.canRole 3 = 2) ∧
    (let s : State := cs 1 1 {} ri;
      alive s = true ∧ s.dev.isRef 3 (rf 3) = true ∧ s.dev.canRole 3 = 1 ∧ (s.dev.can_ 3).mark = none ∧ s.dev.ttState 3 = ttLISTEN) ∧
    (let s : State := cs 1 2 { mark := some 0 } ri;
      alive s = true ∧ s.dev.isRef 3 (rf 3) = true ∧ s.dev.canRole 3 = 1 ∧ (s.dev.can_ 3).mark = some 0 ∧
      (s.dev.canG 3 : Int) < 4 * ((s.dev.stampNs 50 : Int) - (0 + s.dev.canPbc 3 : Nat)).natAbs) ∧
    (let s : State := cs 1 3 { mark := some 0, good := 1 } (ri ∘ put R.CAN_TT_TIMING_GUARD 8 3);
      alive s = true ∧ s.dev.isRef 3 (rf 3) = true ∧ s.dev.canRole 3 = 1 ∧ (s.dev.can_ 3).mark = some 0 ∧
      4 * ((s.dev.stampNs 50 : Int) - (0 + s.dev.canPbc 3 : Nat)).natAbs ≤ s.dev.canG 3 ∧ s.dev.ttState 3 = ttSILENT ∧ 1 ≤ (s.dev.can_ 3).good) := by
  refine ⟨?_, ?_, ?_, ?_⟩ <;> decide +kernel

/-- Where the premises of `CanCommands` hold: frames that are sent, and cancelled buffers. -/
theorem witness_CanCommands_sending :
    (let s : State := cs 2 5 { mark := some 0, refPend := true } ri [w0];
      idle s = true ∧ (s.dev.can_ 3).refPend = true) ∧
    (let s : State := cs 1 2 { mark := some 0, win := some 0, wait := some (63, fr, 7) } cyc [w0] 400;
      idle s = true ∧ (s.dev.can_ 3).refPend = false ∧ (s.dev.can_ 3).wait = some (63, fr, 7) ∧ s.dev.sofLate 3 = false ∧ pend s 63 = false) ∧
    (let s : State := cs 0 0 {} (put R.CAN_TXB_CTL_PEND 1 3 63 ∘ put R.CAN_TXB_CTL_PEND 1 3 9 ∘ put R.CAN_TXB_ID_ID (2 ^ 18) 3 63 ∘
        put R.CAN_TXB_ID_ID (2 ^ 19) 3 9 ∘ put R.CAN_TXB_CTL_KIND 2 3 63);
      idle s = true ∧ (s.dev.can_ 3).wait = none ∧ s.dev.canRole 3 = 0 ∧ pend s 63 = true ∧ s.dev.rf R.CAN_TXB_CTL_KIND 3 63 = 2 ∧
      (s.dev.can_ 3).cur.map Prod.fst ≠ some 63) ∧
    (let s : State := cs 1 2 { mark := some 0, win := some 0, txb := [(63, { fills := 2, sent := 1 })] } (cyc ∘ cyclic) [w1] 1000;
      idle s = true ∧ (s.dev.can_ 3).refPend = false ∧ (s.dev.can_ 3).wait = none ∧ (63, s.dev.txFrame 3 63) ∈ s.dev.offers 3 ∧ pend s 63 = false ∧
      (s.dev.can_ 3).cur.map Prod.fst ≠ some 63) ∧
    (∀ h ∈ [true, false], ∀ x ∈ [true, false],
      let s : State := cs 0 0 { cur := some (63, fr, 7, x), txb := [(63, { cancelHeld := h, fills := 1 })] } (put R.CAN_TXB_CTL_PEND 1 3 63);
      alive s = true ∧ s.dev.canCarrier = true ∧ (s.dev.can_ 3).cur = some (63, fr, 7, x) ∧ (s.dev.txbSt 3 63).cancelHeld = h ∧ pend s 63 = true) ∧
    (let s : State := cs 2 5 { cur := some (64, rf 3, 7, false) } ri;
      alive s = true ∧ s.dev.canCarrier = true ∧ (s.dev.can_ 3).cur = some (64, rf 3, 7, false)) ∧
    (let s : State := cs 0 0 {} cyclic;
      (s.dev.can_ 3).cur = none ∧ pend s 63 = false ∧ (s.dev.can_ 3).wait = none ∧ s.dev.offers 3 = []) := by
  refine ⟨?_, ?_, ?_, ?_, ?_, ?_, ?_⟩ <;> decide +kernel

/-- Where the premises of `CanCommands` hold: errors. -/
theorem witness_CanCommands_errors :
    (∀ k ∈ [14, 15], let s : State := cs 0 0 { ack := k, tec := 248 };
      alive s = true ∧ e0.lec < 7 ∧ e0.pex = false ∧ e0.tx = true ∧ e0.lec = 3 ∧ (s.dev.can_ 3).ack = k) ∧
    (∀ p ∈ [0, 1], let s : State := cs 0 0 { tec := 127 } (put R.CAN_CFG_PXHD p 3);
      alive s = true ∧ ({ tx := false, lec := 6, dom := true, pex := true } : CanErr).lec < 7 ∧ s.dev.rf R.CAN_CFG_PXHD 3 = p) ∧
    (let s : State := cs 0 0 { ack := 15, recov := true, tec := 248 } (put R.CAN_ERR_FCS 2 3);
      3 < s.dev.nCan ∧ s.dev.busOff 3 = true ∧ (s.dev.can_ 3).recov = true) := by
  refine ⟨?_, ?_, ?_⟩ <;> decide +kernel

/-- Where the premises of `CanCommands` hold: the instants of references, windows and time-outs. -/
theorem witness_CanCommands_times :
    (let s : State := cs 2 4 { mark := some 0 } cyc [] 2000000;
      s.dev.canOn 3 = true ∧ s.dev.canRole 3 = 2 ∧ s.dev.ttState 3 = ttMASTER ∧ s.dev.newStart 3 = true) ∧
    (let s : State := cs 2 5 { mark := some 0 } cyc [] 2000000;
      s.dev.canOn 3 = true ∧ s.dev.canRole 3 = 2 ∧ s.dev.ttState 3 = ttBACKUP ∧ s.dev.backupTime 3 = true) ∧
    (let s : State := cs 2 1 {} cyc [] 2000000;
      s.dev.canOn 3 = true ∧ s.dev.canRole 3 = 2 ∧ s.dev.ttState 3 = ttLISTEN ∧ s.dev.backupTime 3 = true) ∧
    (let s : State := cs 1 2 { mark := some 0 } cyc [] 1000400;
      s.dev.canOn 3 = true ∧ s.dev.canRole 3 = 1 ∧ (s.dev.can_ 3).mark = some 0 ∧ 0 + s.dev.canPbc 3 + s.dev.canG 3 / 2 ≤ s.dev.viewNs 0) ∧
    (let s : State := cs 1 2 { mark := some 0 } cyc [w0] 1000;
      s.dev.canOn 3 = true ∧ s.dev.ttSends 3 = true ∧ (s.dev.canNow 3).find? (fun y => decide (y.1 = 0)) = some (0, w0) ∧ 0 ∉ (s.dev.can_ 3).opened ∧
      (s.dev.can_ 3).mark = some 0 ∧ 0 + w0.offset * 100 ≤ s.dev.viewNs 0) ∧
    (let s : State := cs 1 2 { mark := some 0, opened := [0] } cyc [w0] 1000; 0 ∈ (s.dev.can_ 3).opened) ∧
    (let s : State := cs 1 2 { mark := some 0, win := some 0, wait := some (63, fr, 1) } cyc [w0] 400;
      (s.dev.can_ 3).wait.isSome = true ∧ (s.dev.can_ 3).win = some 0 ∧ (s.dev.canWins 3)[0]? = some w0 ∧ (s.dev.can_ 3).mark = some 0 ∧
      s.dev.viewNs 0 ≤ 0 + w0.offset * 100 + s.dev.canG 3 / 2 ∧ s.dev.sofLate 3 = false) ∧
    (let s : State := cs 1 2 { mark := some 0, win := some 0, wait := some (63, fr, 1) } cyc [w0] 2401;
      (s.dev.canWins 3)[0]? = some w0 ∧ 0 + w0.offset * 100 + s.dev.canG 3 / 2 < s.dev.viewNs 0) := by
  refine ⟨?_, ?_, ?_, ?_, ?_, ?_, ?_, ?_⟩ <;> decide +kernel
end Can

namespace Ports

def cfgd (f : LastRec → LastRec) (d : Dev) : Dev := { d with last := some (f d.cfg) }
def es (x : EthSt) (f : Dev → Dev := id) (io : List IoEntry := []) (t : Nat := 0) : State :=
  at_ (f ∘ (fun d => { d with eth := [(2, x)], time := { d.time with cnt := 0, views := [(0, { base := t * 2^40 , inc := 2 * 2^40, tb := 0})]} })
    ∘ put R.ETH_CTRL_EN 1 2 ∘ put R.ETH_STAT_LINK 1 2 ∘ put R.ETH_MTU_MTU 1500 2 ∘ cfgd fun p => { p with io := io })
def y0 (q : Nat := 5) (len : Nat := 60) : EthTx := { queue := q, bytes := zeros len }
def z0 : PrpSrc := { mac := 0x112233445566, seqs := [(0x1234, 0)] }
def fB (et : Nat) (body : List Byte) : List Byte := beBytes 6 0xAABBCCDDEEFF ++ beBytes 6 0x112233445566 ++ beBytes 2 et ++ body
def rxE : IoEntry := ⟨11, 0, 0, some 0, .ethRx 2 3 false false 0xAABBCCDDEEFF 0xFFFF 0x1111 0 0 []⟩
def pp : State := at_ ((fun d => { d with eth := [(2, {}), (3, {lastTracked := 1})], time := { d.time with cnt := 3000000000}}) ∘ put R.ETH_PRP_CFG_PAIRMODE 1 2)
/-- A frame with the trailer of a LAN, and port 2 with one waiting frame and a gate list of two entries, the second of `m1` in a cycle of 10 µs. -/
def trB (lan : Nat) : List Byte := fB 0x1111 (zeros 46 ++ [0x12, 0x34, BitVec.ofNat 8 lan, 0x34, 0x88, 0xFB])
def gs (intv m1 t : Nat) (m0 : Nat := 0) : State :=
  es { queues := [y0 7], operCyc := 1000 } (put R.ETH_GCL_CTL_EN 1 2 ∘ put R.ETH_GCL_CTL_NOPER 1 2 ∘ put R.ETH_GCL_OPER_INTV (1000 - intv) 2 0 ∘
    put R.ETH_GCL_OPER_INTV intv 2 1 ∘ put R.ETH_GCL_OPER_MASK m0 2 0 ∘ put R.ETH_GCL_OPER_MASK m1 2 1) [] t

/-- Where the premises of `NetworkPorts` hold. -/
theorem witness_NetworkPorts :
    (let s : State := es {sending := some (y0)};
    let n : Nat := 2;
    let b : List Byte := fB 0x1111 (zeros 46);
    let y : EthTx := y0;
    let ok : Bool := false;
    let up : Bool := false;
    let x := s.dev.port n;
      n < s.dev.nPorts ∧
      s.dev.flag R.ETH_STAT_LINK n ≠ up ∧
      up = false ∧
      x.sending.isSome = true ∧
      s.dev.ethOn n = true ∧
      s.dev.flag R.ETH_STAT_LINK n = true ∧
      (¬(ok = true ∧ (b.length + 4 ≤ s.dev.rf R.ETH_MTU_MTU n + (if s.dev.prp n = true then 28 else 22)) ∧ 14 ≤ b.length)) ∧
      x.sending = some y ∧
      s.dev.gateOk n (s.dev.gateList n false) = false) ∧
    (let s : State := es {swapAt := some 0} (put R.ETH_GCL_CYC_CYC 1000 2 ∘ put R.ETH_GCL_ADMIN_INTV 1000 2);
    let n : Nat := 2;
    let q : Nat := 0;
    let x := s.dev.port n;
    let start := (s.dev.viewNs 0 - s.dev.rf R.ETH_GCL_PHASE_PHASE n * 10) / max 1 (s.dev.rf R.ETH_GCL_CYC_CYC n * 10) * max 1 (s.dev.rf
      R.ETH_GCL_CYC_CYC n * 10) + s.dev.rf R.ETH_GCL_PHASE_PHASE n * 10;
      n < s.dev.nPorts ∧
      s.dev.gateOk n (s.dev.gateList n false) = true ∧
      x.swapAt = some q ∧
      s.dev.viewNs 0 < start + 3 ∧
      q ≤ start) ∧
    (let s : State := es {} id [rxE];
    let n : Nat := 2;
    let i : Nat := 0;
    let am : Nat := 3;
    let b : List Byte := fB 0x1111 (zeros 46);
    let pay : List Byte := zeros 46;
    let e : IoEntry := rxE;
    let ip : Bool := false;
    let mac : Nat := 0xAABBCCDDEEFF;
    let vlan : Nat := 0xFFFF;
    let et : Nat := 0x1111;
    let addr : Nat := 0;
    let port : Nat := 0;
    let fs : List FieldEl := [];
    let ok : Bool := true;
      n < s.dev.nPorts ∧
      s.dev.ethOn n = true ∧
      s.dev.flag R.ETH_STAT_LINK n = true ∧
      ok = true ∧
      b.length + 4 ≤ s.dev.rf R.ETH_MTU_MTU n + (if s.dev.prp n = true then 28 else 22) ∧
      14 ≤ b.length ∧
      s.dev.prp n = false ∧
      etOf b ≠ 34824 ∧
      s.dev.cfg.io[i]? = some e ∧
      e.body = IoBody.ethRx n am false ip mac vlan et addr port fs ∧
      rxMatch b ip mac vlan et addr port = some pay) ∧
    (let s : State := es {} (put R.ETH_CFG_PAUSE 1 2);
    let n : Nat := 2;
    let b : List Byte := fB 0x8808 ([0,1,0xFF,0xFF] ++ zeros 42);
    let ok : Bool := true;
      n < s.dev.nPorts ∧
      s.dev.ethOn n = true ∧
      s.dev.flag R.ETH_STAT_LINK n = true ∧
      ok = true ∧
      b.length + 4 ≤ s.dev.rf R.ETH_MTU_MTU n + (if s.dev.prp n = true then 28 else 22) ∧
      14 ≤ b.length ∧
      s.dev.prp n = false ∧
      etOf b = 34824 ∧
      s.dev.flag R.ETH_CFG_PAUSE n = true ∧
      be (payOf b) 0 2 = 1) ∧
    (let s : State := es {srcs := [z0]} (put R.ETH_PRP_CFG_PAIRMODE 1 2);
    let n : Nat := 2;
    let b : List Byte := fB 0x1111 (zeros 46 ++ [0x12,0x34,0xA0,0x34,0x88,0xFB]);
    let z : PrpSrc := z0;
    let ok : Bool := true;
    let ev := n / 2 * 2;
    let l := b.length;
      n < s.dev.nPorts ∧
      s.dev.ethOn n = true ∧
      s.dev.flag R.ETH_STAT_LINK n = true ∧
      ok = true ∧
      b.length + 4 ≤ s.dev.rf R.ETH_MTU_MTU n + (if s.dev.prp n = true then 28 else 22) ∧
      14 ≤ b.length ∧
      s.dev.prp n = true ∧
      etOf b ≠ 35067 ∧
      be b (l - 2) 2 = 35067 ∧
      be b (l - 4) 2 / 4096 = 0xA + n % 2 ∧
      List.find? (fun x => decide (x.mac = be b 6 6)) (s.dev.port ev).srcs = some z ∧
      ((List.take 128 (List.filter (fun p => decide (s.dev.time.cnt < p.2 + 200000000)) z.seqs)).any fun p => decide (p.1 = be b (l - 6) 2)) = true) ∧
    (let s : State := es {queues := [y0 3, y0]};
    let n : Nat := 2;
    let y : EthTx := y0;
    let x := s.dev.port n;
      n < s.dev.nPorts ∧
      (s.dev.ethOn n = true ∧ s.dev.flag R.ETH_STAT_LINK n = true) ∧
      x.sending = none ∧
      x.swapAt = none ∧
      s.dev.flag R.ETH_CFG_PAUSE n = false ∧
      y.queue < 8 ∧
      s.dev.flag R.ETH_GCL_CTL_EN n = false ∧
      List.find? (fun z => decide (z.queue = y.queue)) x.queues = some y ∧
      (∀ z ∈ x.queues, z.queue ≤ y.queue)) ∧
    (let s : State := es {} (put R.ETH_PRP_CFG_PAIRMODE 1 2 ∘ put R.ETH_STAT_LINK 0 2 ∘ put R.ETH_CTRL_EN 1 3);
    let n : Nat := 2;
      n < s.dev.nPorts ∧
      n % 2 = 0 ∧
      s.dev.prp n = true ∧
      s.dev.ethOn n = true ∧
      s.dev.ethOn (n + 1) = true ∧
      s.dev.flag R.ETH_STAT_LINK n = false ∧
      s.dev.flag R.ETH_STAT_LINK (n + 1) = false ∧ s.dev.flag R.ETH_GCL_CTL_EN n = false ∧ s.dev.flag R.ETH_GCL_CTL_EN (n + 1) = false) ∧
    (let s : State := pp;
    let n : Nat := 2;
    let x := s.dev.port n;
    let ev := n / 2 * 2;
    let lost := if n % 2 = 0 then R.ETH_PRP_STAT_PATHA_LOST else R.ETH_PRP_STAT_PATHB_LOST;
    let other := if n % 2 = 0 then n + 1 else n - 1;
      n < s.dev.nPorts ∧
      s.dev.prp n = true ∧
      x.lastTracked + 3000000000 ≤ s.dev.time.cnt ∧
      s.dev.time.cnt < (s.dev.port other).lastTracked + 3000000000 ∧
      s.dev.flag lost ev = false) ∧
    (∀ t ∈ [9900, 5000], let s : State := gs 500 128 t;
      s.dev.ethOn 2 = true ∧ s.dev.flag R.ETH_STAT_LINK 2 = true ∧ (s.dev.port 2).sending = none ∧ (s.dev.port 2).swapAt = none ∧
      s.dev.flag R.ETH_CFG_PAUSE 2 = false ∧ (s.dev.port 2).queues = [y0 7] ∧ s.dev.gateOpen 2 7 = some (10000 - t) ∧
      fitsOpen (s.dev.wireTime 2 60) (gateMax 7 (s.dev.gateList 2 true)) = true ∧ decide (s.dev.wireTime 2 60 ≤ (10000 - t) * 10) = decide (t = 5000)) ∧
    (let s : State := gs 500 255 0 255;
      s.dev.flag R.ETH_GCL_CTL_EN 2 = true ∧ (s.dev.port 2).queues = [y0 7] ∧ s.dev.gateOpen 2 7 = none) ∧
    (let s : State := gs 10 128 0;
      s.dev.flag R.ETH_GCL_CTL_EN 2 = true ∧ (s.dev.port 2).queues = [y0 7] ∧
      fitsOpen (s.dev.wireTime 2 60) (gateMax 7 (s.dev.gateList 2 true)) = false) ∧
    (∀ k ∈ [511, 512], let s : State := es { srcs := (List.range k).map fun i => { mac := i, seqs := [(7, 0)] } } (put R.ETH_PRP_CFG_PAIRMODE 1 2);
      (∀ y ∈ (s.dev.port 2).srcs, y.mac ≠ be (trB 0xA0) 6 6) ∧ (s.dev.prpSrcs 2).length = k ∧ be (trB 0xA0) (66 - 4) 2 / 4096 = 0xA + 2 % 2) ∧
    (let s : State := es {} (put R.ETH_PRP_CFG_PAIRMODE 1 2);
      s.dev.ethOn 2 = true ∧ s.dev.prp 2 = true ∧ (trB 0xB0).length = 66 ∧ etOf (trB 0xB0) ≠ 0x88FB ∧ be (trB 0xB0) (66 - 2) 2 = 0x88FB ∧
      be (trB 0xB0) (66 - 4) 2 / 4096 ≠ 0xA + 2 % 2 ∧ (trB 0xB0).length + 4 ≤ s.dev.rf R.ETH_MTU_MTU 2 + 28) ∧
    (∀ p ∈ [(0x1234, 0), (0x1234, 5)],
    let s : State := es {srcs := [{ z0 with seqs := [p] }]} (tick 5 ∘ put R.ETH_PRP_CFG_PAIRMODE 1 2);
    let b : List Byte := fB 0x1111 (zeros 46 ++ [0x12,0x34,0xA0,0x34,0x88,0xFB]);
    let live := ([p].filter (fun p => decide (s.dev.time.cnt < p.2 + 200000000))).take 128;
      s.dev.ethOn 2 = true ∧ s.dev.prp 2 = true ∧ (s.dev.port 2).srcs.find? (fun x => decide (x.mac = be b 6 6)) = some { z0 with seqs := [p] } ∧
      live.any (fun p => decide (p.1 = be b (b.length - 6) 2)) = true ∧
      (live.contains (be b (b.length - 6) 2, s.dev.time.cnt) = true ↔ p.2 = 5)) := by
  refine ⟨?_, ?_, ?_, ?_, ?_, ?_, ?_, ?_, ?_, ?_, ?_, ?_, ?_, ?_⟩ <;> decide +kernel
end Ports

namespace Ptp
def ps (st : Nat) (x : EthSt) (na : Nat := 0) (f : Dev → Dev := id) : State :=
  at_ (f ∘ (fun d => { d with eth := [(2, x)], netApplied := zeros na, rst := { d.rst with coresUp := true }, time := { d.time with cnt := 0, views := [(0, { base := 0, inc := 2 * 2^40, tb := 0}), (1, { base := 0, inc := 2 * 2^40, tb := 0})]} }) ∘ put R.ETH_CTRL_EN 1 2 ∘ put R.ETH_STAT_LINK 1 2 ∘ put R.ETH_PTP_PORT_EN 1 2 ∘ put R.ETH_PTP_PORT_STATE st 2)
def msg (typ : Nat) (two : Bool) (rank : Nat := 0) : List Byte :=
    [BitVec.ofNat 8 typ, 0x12, 0, 64, 0, 0, (if two then 2 else 0), 0] ++ beBytes 8 65536 ++ zeros 14 ++ beBytes 2 0xFFFF ++ zeros 2 ++ beBytes 6 0 ++ beBytes 4 1000 ++ zeros 3 ++ List.replicate 14 (BitVec.ofNat 8 rank) ++ zeros 3
def sd : EthSt := { sending := some { queue := 0, bytes := [] } }
def g1 (g b : Nat) (src : Nat) : Dev → Dev := put R.TIME_VCTL_SRC src 0 1 ∘ fun d => { d with time := { d.time with good1 := g, bad1 := b } }

/-- Where the premises of `PtpMessages` hold, for a configuration of these settings (log entry 5: its decoding is opaque). -/
theorem witness_PtpMessages (h : ∀ b : List Byte, Config.decNetcfg b = { l2 := true, p2p := decide (b.length = 1), gmCap := decide (b.length ≠ 2) })
    (hm : Config.macBase = 0) :
    (let s : State := ps 2 { pendSync := some (0xFFFF, 5, 7) } 0 (g1 15 3 1);
    let n : Nat := 2;
    let m : List Byte := msg 8 false;
    let t2 : ℤ := 5;
    let c : ℤ := 7;
    let x := s.dev.port n;
    let typ := ptpType m;
    let st := s.dev.ptpState n;
    let src := s.dev.rf R.TIME_VCTL_SRC 0 1;
      n < s.dev.nPorts ∧
      s.dev.ethOn n = true ∧
      s.dev.flag R.ETH_PTP_PORT_EN n = true ∧
      byteAt m 4 = s.dev.net.domain ∧
      typ = 8 ∧
      x.pendSync = some (ptpSeq m, t2, c) ∧
      st ≠ psSLAVE ∧
      s.dev.rst.coresUp = true ∧
      List.filter (fun n => s.dev.ethOn n && s.dev.flag R.ETH_PTP_PORT_EN n) (List.range s.dev.nPorts) = [n] ∧
      src = 1) ∧
    (let s : State := ps 1 {} 0 (g1 15 3 1);
    let n : Nat := 2;
    let m : List Byte := msg 11 false;
    let typ := ptpType m;
    let st := s.dev.ptpState n;
      n < s.dev.nPorts ∧
      s.dev.ethOn n = true ∧
      s.dev.flag R.ETH_PTP_PORT_EN n = true ∧
      byteAt m 4 = s.dev.net.domain ∧
      typ = 11 ∧
      s.dev.rst.coresUp = true ∧
      List.filter (fun n => s.dev.ethOn n && s.dev.flag R.ETH_PTP_PORT_EN n) (List.range s.dev.nPorts) = [n] ∧
      st ≠ psSLAVE ∧
      annRank m < s.dev.ownRank) ∧
    (let s : State := ps 2 {};
    let n : Nat := 2;
    let m : List Byte := msg 0 false;
    let typ := ptpType m;
    let st := s.dev.ptpState n;
      n < s.dev.nPorts ∧
      s.dev.ethOn n = true ∧
      s.dev.flag R.ETH_PTP_PORT_EN n = true ∧
      byteAt m 4 = s.dev.net.domain ∧
      typ = 0 ∧
      ptpTwoStep m = false ∧
      st ≠ psSLAVE) ∧
    (let s : State := ps 3 {} 0 (g1 15 0 0);
    let n : Nat := 2;
    let m : List Byte := msg 0 false;
    let typ := ptpType m;
    let st := s.dev.ptpState n;
    let src := s.dev.rf R.TIME_VCTL_SRC 0 1;
      n < s.dev.nPorts ∧
      s.dev.ethOn n = true ∧
      s.dev.flag R.ETH_PTP_PORT_EN n = true ∧
      byteAt m 4 = s.dev.net.domain ∧
      typ = 0 ∧
      ptpTwoStep m = false ∧
      st = psSLAVE ∧
      s.dev.rst.coresUp = true ∧
      src ≠ 1) ∧
    (let s : State := ps 3 {} 0 (g1 15 0 1);
    let n : Nat := 2;
    let t : Nat := 2002;
    let m : List Byte := msg 0 false;
    let x := s.dev.port n;
    let typ := ptpType m;
    let st := s.dev.ptpState n;
    let rx : Int := s.dev.stampB 1 t - (toS 32 (s.dev.rf R.ETH_ING_LAT_ING_LAT n) + toS 32 (s.dev.rf R.ETH_ASYM_ASYM n)) * 65536;
    let o := rx - ptpTime m - ptpCorr m - x.pathDelay;
    let src := s.dev.rf R.TIME_VCTL_SRC 0 1;
      n < s.dev.nPorts ∧
      s.dev.ethOn n = true ∧
      s.dev.flag R.ETH_PTP_PORT_EN n = true ∧
      byteAt m 4 = s.dev.net.domain ∧
      typ = 0 ∧
      ptpTwoStep m = false ∧
      st = psSLAVE ∧
      s.dev.rst.coresUp = true ∧
      src = 1 ∧
      o.natAbs < 1000 * 2 ^ 32 ∧
      15 ≤ s.dev.time.good1) ∧
    (let s : State := ps 3 {} 0 (g1 15 3 1);
    let n : Nat := 2;
    let t : Nat := 2002000;
    let m : List Byte := msg 0 false;
    let x := s.dev.port n;
    let typ := ptpType m;
    let st := s.dev.ptpState n;
    let rx : Int := s.dev.stampB 1 t - (toS 32 (s.dev.rf R.ETH_ING_LAT_ING_LAT n) + toS 32 (s.dev.rf R.ETH_ASYM_ASYM n)) * 65536;
    let o := rx - ptpTime m - ptpCorr m - x.pathDelay;
    let src := s.dev.rf R.TIME_VCTL_SRC 0 1;
      n < s.dev.nPorts ∧
      s.dev.ethOn n = true ∧
      s.dev.flag R.ETH_PTP_PORT_EN n = true ∧
      byteAt m 4 = s.dev.net.domain ∧
      typ = 0 ∧
      ptpTwoStep m = false ∧
      st = psSLAVE ∧
      s.dev.rst.coresUp = true ∧
      src = 1 ∧
      10000 * 2 ^ 32 < o.natAbs ∧
      3 ≤ s.dev.time.bad1) ∧
    (let s : State := ps 3 {} 0 (g1 15 3 1);
    let n : Nat := 2;
    let m : List Byte := msg 0 true;
    let typ := ptpType m;
      n < s.dev.nPorts ∧
      s.dev.ethOn n = true ∧
      s.dev.flag R.ETH_PTP_PORT_EN n = true ∧
      byteAt m 4 = s.dev.net.domain ∧
      typ = 0 ∧
      ptpTwoStep m = true) ∧
    (let s : State := ps 2 { pdT1 := some (0xFFFF, 5) } 0 (g1 15 3 1);
    let n : Nat := 2;
    let m : List Byte := msg 3 false;
    let t1 : ℤ := 5;
    let x := s.dev.port n;
    let typ := ptpType m;
      n < s.dev.nPorts ∧
      s.dev.ethOn n = true ∧
      s.dev.flag R.ETH_PTP_PORT_EN n = true ∧
      byteAt m 4 = s.dev.net.domain ∧
      typ = 3 ∧
      ptpTwoStep m = false ∧
      x.pdT1 = some (ptpSeq m, t1)) ∧
    (let s : State := ps 3 { dlyT3 := some (0xFFFF, 9), sync := some (5, 6) } 0 (g1 15 3 1);
    let n : Nat := 2;
    let m : List Byte := msg 9 false;
    let t1 : ℤ := 5;
    let t2 : ℤ := 6;
    let t3 : ℤ := 9;
    let x := s.dev.port n;
    let typ := ptpType m;
      n < s.dev.nPorts ∧
      s.dev.ethOn n = true ∧
      s.dev.flag R.ETH_PTP_PORT_EN n = true ∧
      byteAt m 4 = s.dev.net.domain ∧
      typ = 9 ∧
      x.dlyT3 = some (ptpSeq m, t3) ∧
      x.sync = some (t1, t2)) ∧
    (let s : State := ps 2 sd 0;
    let x := s.dev.port 2;
      byteAt (msg 1 true) 4 = s.dev.net.domain ∧ ptpType (msg 1 true) = 1 ∧ s.dev.ptpState 2 = psMASTER ∧ x.sending.isSome = true ∧ s.dev.net.l2 = true ∧ s.dev.flag R.ETH_GCL_CTL_EN 2 = false) ∧
    (let s : State := ps 3 sd 0;
      ptpType (msg 2 true) = 2 ∧ s.dev.ptpState 2 = psSLAVE ∧ s.dev.net.p2p = false) ∧
    (let s : State := ps 3 sd 1;
      s.dev.net.p2p = true ∧ s.dev.rst.coresUp = true ∧ (s.dev.port 2).sending.isSome = true ∧ s.dev.flag R.ETH_GCL_CTL_EN 2 = false) ∧
    (∀ k ∈ [1, 2], let s : State := ps 3 { sending := some { queue := 0, bytes := [], ptp := some { msg := msg k true } } };
      (s.dev.port 2).sending = some { queue := 0, bytes := [], ptp := some { msg := msg k true } } ∧ ptpType (msg k true) = k) := by
  have hn : ∀ d : Dev, d.net = { l2 := true, p2p := decide (d.netApplied.length = 1), gmCap := decide (d.netApplied.length ≠ 2) } :=
    fun d => h d.netApplied
  simp only [hn, Dev.ownRank, hm]
  refine ⟨?_, ?_, ?_, ?_, ?_, ?_, ?_, ?_, ?_, ?_, ?_, ?_, ?_⟩ <;> decide +kernel
end Ptp

namespace Duplex
def cfgd (f : LastRec → LastRec) (d : Dev) : Dev := { d with last := some (f d.cfg) }
def txE (p : Nat) : IoEntry := ⟨10, 0, 0, some 0, .ethTx p 5 false false true (zeros 60) []⟩
def dxs (st : Nat) (side : Nat) (x : DupxSt) (f : Dev → Dev := id) : State :=
  at_ (f ∘ sess ∘ (fun d => { d with dupx := x, rst := { d.rst with phase := 5, coresUp := true } }) ∘ put R.DUPX_STATE_STATE st ∘ put R.DUPX_CTRL_EN 1
    ∘ put R.DUPX_CFG_SIDE side ∘ put R.DUPX_STATE_WELT_UP 1 ∘ put R.DUPX_CFG_MISS_N 3 ∘ put R.DUPX_CFG_PAIR_WAIT 1 ∘ put R.DUPX_CFG_HO_LEAD 3 ∘
   put R.HOL_CFG_ROLE 3 5 ∘ put R.HOL_CTRL_EN 1 5 ∘ cfgd fun p => { p with io := [txE 2], cads := [⟨1000, 0, false, 0⟩] } )
def wb (role st claim hclaim : Nat) (id : Nat := 0) : List Byte :=
    [BitVec.ofNat 8 role, BitVec.ofNat 8 st, 0, 0] ++ leBytes 4 claim ++ leBytes 4 hclaim ++ leBytes 8 id ++ zeros 4
def pb (role claim : Nat) : List Byte := [BitVec.ofNat 8 role, 0] ++ leBytes 4 claim ++ zeros 4
def prpOn : Dev → Dev := put R.ETH_PRP_CFG_PAIRMODE 1 2 ∘ put R.ETH_CTRL_EN 1 2 ∘ put R.ETH_CTRL_EN 1 3
    ∘ fun d => { d with eth := [(2, { sending := some { queue := 0, bytes := [] } }), (3, { sending := some { queue := 0, bytes := [] } })] }

/-- Where the premises of `DuplexRoles` hold. -/
theorem witness_DuplexRoles :
    (let s : State := dxs 3 0 {} (prpOn ∘ put R.DUPX_PEER_CLAIM_CLAIM 3);
    let q : Req := q0;
    let b : List Byte := wb 16 3 3 4;
    let start : Nat := 60000;
    let pair : Bool := true;
    let dx := s.dev.dx;
    let h := s.dev.rf R.DUPX_HCLAIM_HCLAIM;
    let side := s.dev.rf R.DUPX_CFG_SIDE;
    let now := s.dev.time.cnt;
    let missF := if pair then R.DUPX_STATE_MISS_H else R.DUPX_STATE_MISS_W;
    let otherF := if pair then R.DUPX_STATE_MISS_W else R.DUPX_STATE_MISS_H;
    let n := s.dev.rf R.DUPX_CFG_MISS_N;
      3 ≤ s.dev.rst.phase ∧
      s.dev.weltUp = true ∧
      s.dev.hasWelt = true ∧
      s.dev.dxOn = true ∧
      bitAt (byteAt b 0) 4 ≠ decide (side = 1) ∧
      dx = dxSTANDBY ∧
      le b 4 4 = s.dev.rf R.DUPX_PEER_CLAIM_CLAIM ∧
      s.dev.tW + 1000 ≤ start ∧
      (pair = false → s.dev.weltUp = true) ∧
      dx ≠ dxPAIRING ∧
      bitAt (byteAt b 0) 3 = false ∧
      s.dev.flag otherF = false ∧
      (¬(s.dev.dxOn = true ∧ s.dev.flag missF = false ∧ ((if pair = true then s.dev.dupx.tvH else s.dev.dupx.tvW).getD 0 + n * if pair = true then
        50000 else 10000) ≤ now)) ∧
      s.dev.envelope q pvENGINEER = .go ∧
      (dx = dxSTANDBY ∨ dx = dxREADY) ∧
      h + 2 < 2 ^ 32 ∧
      (dx = dxSYNCING ∨ dx = dxSTANDBY ∨ dx = dxOUTDATED) ∧
      (dx = dxSYNCING ∨ dx = dxSTANDBY ∨ dx = dxREADY)) ∧
    (let s : State := dxs 5 1 {peerState := 3} (prpOn ∘ tick 50000005 );
    let q : Req := q0;
    let b : List Byte := pb 25 4;
    let p : Nat := 2;
    let pair : Bool := false;
    let dx := s.dev.dx;
    let side := s.dev.rf R.DUPX_CFG_SIDE;
    let now := s.dev.time.cnt;
    let missF := if pair then R.DUPX_STATE_MISS_H else R.DUPX_STATE_MISS_W;
    let otherF := if pair then R.DUPX_STATE_MISS_W else R.DUPX_STATE_MISS_H;
    let n := s.dev.rf R.DUPX_CFG_MISS_N;
      s.dev.dxRuns = true ∧
      List.filter s.dev.prp (List.map (fun p => p / 2 * 2) s.dev.dupPorts).eraseDups = [p] ∧
      s.dev.ethOn p = true ∧
      s.dev.ethOn (p + 1) = true ∧
      (s.dev.port p).sending.isSome = true ∧
      (s.dev.port (p + 1)).sending.isSome = true ∧
      s.dev.dxOn = true ∧
      (pair = false → s.dev.weltUp = true) ∧
      dx ≠ dxPAIRING ∧
      bitAt (byteAt b 0) 4 = decide (side = 1) ∧
      s.dev.flag missF = false ∧
      ((if pair = true then s.dev.dupx.tvH else s.dev.dupx.tvW).getD 0 + n * if pair = true then 50000 else 10000) ≤ now ∧
      s.dev.flag otherF = false ∧
      s.dev.dupx.faultW = false ∧
      s.dev.dupx.faultH = false ∧
      s.dev.envelope q pvENGINEER = .go ∧
      s.dev.hasWelt = true ∧
      dx = dxACTIVE ∧
      s.dev.dupx.peerState = dxSTANDBY) ∧
    (let s : State := dxs 6 0 {} (prpOn ∘ put R.DUPX_CLAIM_CLAIM 2);
    let b : List Byte := wb 16 3 3 4;
    let pair : Bool := true;
    let dx := s.dev.dx;
    let side := s.dev.rf R.DUPX_CFG_SIDE;
    let cl := if pair then le b 2 4 else le b 4 4;
    let otherF := if pair then R.DUPX_STATE_MISS_W else R.DUPX_STATE_MISS_H;
    let mine := s.dev.rf R.DUPX_CLAIM_CLAIM;
      s.dev.dxOn = true ∧
      bitAt (byteAt b 0) 4 ≠ decide (side = 1) ∧
      s.dev.dxRuns = true ∧
      mine < le b 4 4 ∧
      (pair = false → s.dev.weltUp = true) ∧
      dx ≠ dxPAIRING ∧
      bitAt (byteAt b 0) 3 = false ∧
      s.dev.flag otherF = false ∧
      mine < cl) ∧
    (let s : State := dxs 6 0 {} (prpOn);
    let b : List Byte := wb 16 3 0 0;
    let pair : Bool := false;
    let dx := s.dev.dx;
    let side := s.dev.rf R.DUPX_CFG_SIDE;
    let cl := if pair then le b 2 4 else le b 4 4;
    let otherF := if pair then R.DUPX_STATE_MISS_W else R.DUPX_STATE_MISS_H;
    let mine := s.dev.rf R.DUPX_CLAIM_CLAIM;
      s.dev.dxOn = true ∧
      (pair = false → s.dev.weltUp = true) ∧
      dx ≠ dxPAIRING ∧
      bitAt (byteAt b 0) 4 ≠ decide (side = 1) ∧
      bitAt (byteAt b 0) 3 = false ∧
      s.dev.flag otherF = false ∧
      cl ≤ mine ∧
      pair = false ∧
      dx = dxSOLO ∧
      byteAt b 1 = dxSTANDBY) ∧
    (let s : State := dxs 5 0 {} (prpOn);
    let b : List Byte := wb 16 4 0 0;
    let pair : Bool := false;
    let dx := s.dev.dx;
    let side := s.dev.rf R.DUPX_CFG_SIDE;
    let cl := if pair then le b 2 4 else le b 4 4;
    let otherF := if pair then R.DUPX_STATE_MISS_W else R.DUPX_STATE_MISS_H;
    let mine := s.dev.rf R.DUPX_CLAIM_CLAIM;
      s.dev.dxOn = true ∧
      (pair = false → s.dev.weltUp = true) ∧
      dx ≠ dxPAIRING ∧
      bitAt (byteAt b 0) 4 ≠ decide (side = 1) ∧
      bitAt (byteAt b 0) 3 = false ∧
      s.dev.flag otherF = false ∧
      cl ≤ mine ∧
      pair = false ∧
      dx = dxACTIVE ∧
      byteAt b 1 ≠ dxSTANDBY) ∧
    (let s : State := dxs 4 0 {witness := some 5} (prpOn);
    let b : List Byte := wb 17 4 0 0;
    let pair : Bool := false;
    let dx := s.dev.dx;
    let side := s.dev.rf R.DUPX_CFG_SIDE;
    let otherF := if pair then R.DUPX_STATE_MISS_W else R.DUPX_STATE_MISS_H;
      s.dev.dxOn = true ∧
      (pair = false → s.dev.weltUp = true) ∧
      dx ≠ dxPAIRING ∧
      bitAt (byteAt b 0) 4 ≠ decide (side = 1) ∧
      bitAt (byteAt b 0) 3 = false ∧
      s.dev.flag otherF = false ∧
      dx = dxISOLATED) ∧
    (let s : State := dxs 3 0 {} (prpOn);
    let b : List Byte := wb 25 4 0 0;
    let pair : Bool := false;
    let dx := s.dev.dx;
    let h := s.dev.rf R.DUPX_HCLAIM_HCLAIM;
    let side := s.dev.rf R.DUPX_CFG_SIDE;
    let cl := if pair then le b 2 4 else le b 4 4;
    let hc := max cl (if pair then 0 else le b 8 4);
      s.dev.dxOn = true ∧
      (pair = false → s.dev.weltUp = true) ∧
      dx ≠ dxPAIRING ∧
      bitAt (byteAt b 0) 4 ≠ decide (side = 1) ∧
      max h hc + 2 < 2 ^ 32 ∧
      bitAt (byteAt b 0) 3 = true ∧
      dx = dxSTANDBY) ∧
    (let s : State := dxs 5 0 {} (prpOn ∘ tick 150000 ∘ put R.DUPX_STATE_MISS_W 1);
    let pair : Bool := true;
    let dx := s.dev.dx;
    let now := s.dev.time.cnt;
    let missF := if pair then R.DUPX_STATE_MISS_H else R.DUPX_STATE_MISS_W;
    let otherF := if pair then R.DUPX_STATE_MISS_W else R.DUPX_STATE_MISS_H;
    let n := s.dev.rf R.DUPX_CFG_MISS_N;
      (s.dev.dxOn = true ∧ s.dev.flag missF = false ∧ ((if pair = true then s.dev.dupx.tvH else s.dev.dupx.tvW).getD 0 + n * if pair = true then 50000
        else 10000) ≤ now) ∧
      s.dev.flag otherF = true ∧
      dx = dxACTIVE) ∧
    (let s : State := dxs 3 1 {} (prpOn ∘ tick 150000 ∘ put R.DUPX_STATE_MISS_W 1);
    let pair : Bool := true;
    let dx := s.dev.dx;
    let h := s.dev.rf R.DUPX_HCLAIM_HCLAIM;
    let now := s.dev.time.cnt;
    let missF := if pair then R.DUPX_STATE_MISS_H else R.DUPX_STATE_MISS_W;
    let otherF := if pair then R.DUPX_STATE_MISS_W else R.DUPX_STATE_MISS_H;
    let n := s.dev.rf R.DUPX_CFG_MISS_N;
      (s.dev.dxOn = true ∧ s.dev.flag missF = false ∧ ((if pair = true then s.dev.dupx.tvH else s.dev.dupx.tvW).getD 0 + n * if pair = true then 50000
        else 10000) ≤ now) ∧
      s.dev.flag otherF = true ∧
      dx = dxSTANDBY ∧
      s.dev.dupx.witness = none ∧
      h + 2 < 2 ^ 32) ∧
    (let s : State := dxs 3 1 {witness := some 5} (prpOn ∘ tick 150000 ∘ put R.DUPX_STATE_MISS_H 1);
    let t : Nat := 5;
    let pair : Bool := false;
    let dx := s.dev.dx;
    let now := s.dev.time.cnt;
    let missF := if pair then R.DUPX_STATE_MISS_H else R.DUPX_STATE_MISS_W;
    let otherF := if pair then R.DUPX_STATE_MISS_W else R.DUPX_STATE_MISS_H;
    let n := s.dev.rf R.DUPX_CFG_MISS_N;
      (s.dev.dxOn = true ∧ s.dev.flag missF = false ∧ ((if pair = true then s.dev.dupx.tvH else s.dev.dupx.tvW).getD 0 + n * if pair = true then 50000
        else 10000) ≤ now) ∧
      s.dev.flag otherF = true ∧
      dx = dxSTANDBY ∧
      s.dev.dupx.witness = some t) ∧
    (let s : State := dxs 4 1 {witness := some 5} (prpOn ∘ tick 1250005 ∘ put R.DUPX_STATE_MISS_H 1);
    let t : Nat := 5;
    let dx := s.dev.dx;
    let h := s.dev.rf R.DUPX_HCLAIM_HCLAIM;
    let now := s.dev.time.cnt;
      dx = dxISOLATED ∧
      s.dev.dupx.witness = some t ∧
      h + 2 < 2 ^ 32 ∧
      t + s.dev.dxW ≤ now) ∧
    (let s : State := dxs 1 1 {since := 5} (prpOn ∘ tick 50000005 ∘ put R.DUPX_STATE_MISS_H 1);
    let dx := s.dev.dx;
    let h := s.dev.rf R.DUPX_HCLAIM_HCLAIM;
    let now := s.dev.time.cnt;
      dx = dxPAIRING ∧
      h + 2 < 2 ^ 32 ∧
      max s.dev.dupx.since (max (s.dev.dupx.tvW.getD 0) (s.dev.dupx.tvH.getD 0)) + s.dev.rf R.DUPX_CFG_PAIR_WAIT * 50000000 ≤ now) ∧
    (let s : State := dxs 8 1 {since := 5} (prpOn ∘ tick 50000005 ∘ put R.DUPX_STATE_MISS_H 1);
    let q : Req := q0;
    let dx := s.dev.dx;
      s.dev.envelope q pvENGINEER = .go ∧
      s.dev.hasWelt = true ∧
      (dx = dxFENCED ∨ dx = dxOUTDATED ∨ dx = dxDETACHED)) ∧
    (let s : State := dxs 11 1 {peerState := 3, peerId := 3} (prpOn ∘ tick 50000005 );
    let q : Req := q0;
    let dx := s.dev.dx;
      s.dev.envelope q pvENGINEER = .go ∧
      s.dev.hasWelt = true ∧
      (dx = dxEXCHANGE ∨ dx = dxREADY)) ∧
    (let s : State := dxs 5 1 {tH := some 0, tHseq := some 5} (prpOn ∘ tick 50000005 );
    let t : Nat := 0;
      s.dev.dupx.tH = some t ∧
      t ≤ s.dev.viewNs 0 ∧
      s.dev.dxRuns = true ∧
      s.dev.dupx.tHseq.isSome = true) ∧
    (let s : State := dxs 5 1 {tH := some 0} (prpOn ∘ tick 50000005 );
    let t : Nat := 0;
      s.dev.dupx.tH = some t ∧
      t ≤ s.dev.viewNs 0 ∧
      s.dev.dxRuns = true ∧
      s.dev.dupx.tHseq = none) ∧
    (let s : State := dxs 3 1 {tH := some 0} (prpOn ∘ tick 50000005 );
    let t : Nat := 0;
    let dx := s.dev.dx;
    let h := s.dev.rf R.DUPX_HCLAIM_HCLAIM;
      s.dev.dupx.tH = some t ∧
      t ≤ s.dev.viewNs 0 ∧
      (dx = dxSTANDBY ∨ dx = dxREADY) ∧
      h + 2 < 2 ^ 32) := by
  refine ⟨?_, ?_, ?_, ?_, ?_, ?_, ?_, ?_, ?_, ?_, ?_, ?_, ?_, ?_, ?_, ?_, ?_⟩ <;> decide +kernel

/-- A subcommand in a state that does not accept it. -/
theorem witness_DuplexRoles_refused :
    (let s : State := dxs 6 0 {};
      s.dev.envelope q0 pvENGINEER = .go ∧ s.dev.hasWelt = true ∧ s.dev.dx = dxSOLO ∧ ([dxFENCED, dxOUTDATED, dxDETACHED].contains s.dev.dx) = false) := by
  decide +kernel

/-- Where nothing is sent or heard, where a subcommand or an expiry comes in the wrong state or too early, and the other handovers. -/
theorem witness_DuplexRoles_others :
    (let s : State := dxs 3 0 {} (put R.DUPX_STATE_WELT_UP 0); s.dev.weltUp = false ∧ s.dev.dxRuns = false) ∧
    (let s : State := dxs 3 0 {} (fun d => { d with variant := 2, rst := { d.rst with phase := 2 } }); s.dev.hasWelt = false ∧ s.dev.rst.phase < 3) ∧
    (let s : State := dxs 0 0 {} (put R.DUPX_CTRL_EN 0); s.dev.dxOn = false) ∧
    (let s : State := dxs 5 1 { peerState := 3 } prpOn; s.dev.flag R.ETH_GCL_CTL_EN 2 = false ∧ s.dev.flag R.ETH_GCL_CTL_EN 3 = false) ∧
    (let s : State := dxs 6 0 { peerState := 11 };
      s.dev.envelope q0 pvENGINEER = .go ∧ s.dev.hasWelt = true ∧ s.dev.dx = dxSOLO ∧ s.dev.dupx.peerState = dxREADY) ∧
    (let s : State := dxs 6 0 { peerState := 3 };
      ¬ ((s.dev.dx = dxACTIVE ∧ (s.dev.dupx.peerState = dxSTANDBY ∨ s.dev.dupx.peerState = dxREADY)) ∨ (s.dev.dx = dxSOLO ∧ s.dev.dupx.peerState = dxREADY))) ∧
    (let s : State := dxs 4 0 { witness := some 5, exch := true }; s.dev.dx = dxISOLATED ∧ s.dev.dupx.exch = true ∧ s.dev.time.cnt < 5 + s.dev.dxW) ∧
    (let s : State := dxs 1 1 { since := 5 } (tick 50000004); s.dev.dx = dxPAIRING ∧
      s.dev.time.cnt < max s.dev.dupx.since (max (s.dev.dupx.tvW.getD 0) (s.dev.dupx.tvH.getD 0)) + s.dev.rf R.DUPX_CFG_PAIR_WAIT * 50000000) ∧
    (let s : State := dxs 3 1 { tH := some 1 }; s.dev.dupx.tH = some 1 ∧ s.dev.viewNs 0 < 1) ∧
    (let s : State := dxs 8 1 { tH := some 0 }; s.dev.dupx.tH = some 0 ∧ 0 ≤ s.dev.viewNs 0 ∧ s.dev.dxRuns = false ∧ s.dev.dx ≠ dxSTANDBY ∧ s.dev.dx ≠ dxREADY) := by
  refine ⟨?_, ?_, ?_, ?_, ?_, ?_, ?_, ?_, ?_, ?_⟩ <;> decide +kernel
end Duplex

namespace Welt

def cfgd (f : LastRec → LastRec) (d : Dev) : Dev := { d with last := some (f d.cfg) }
def txE (p : Nat) : IoEntry := ⟨10, 0, 0, some 0, .ethTx p 5 false false true (zeros 60) []⟩
def dxs (st : Nat) (side : Nat) (x : DupxSt) (f : Dev → Dev := id) : State :=
  at_ (f ∘ sess ∘ (fun d => { d with dupx := x, rst := { d.rst with phase := 5, coresUp := true } }) ∘ put R.DUPX_STATE_STATE st ∘ put R.DUPX_CTRL_EN 1
    ∘ put R.DUPX_CFG_SIDE side ∘ put R.DUPX_STATE_WELT_UP 1 ∘ put R.DUPX_CFG_MISS_N 3 ∘ put R.DUPX_CFG_PAIR_WAIT 1 ∘ put R.DUPX_CFG_HO_LEAD 3 ∘
   put R.HOL_CFG_ROLE 3 5 ∘ put R.HOL_CTRL_EN 1 5 ∘ cfgd fun p => { p with io := [txE 2], cads := [⟨1000, 0, false, 0⟩] } )
def wls (st : Nat) (x : DupxSt) (f : Dev → Dev := id) : State :=
  dxs st 0 x (f ∘ unit 511 { kind := 1, cad := 7, tiles := [⟨31, 2, false, 16383, false, 0⟩] } ∘ cad 7 { used := true } ∘ unit 9 { kind := 4, cad := 0 }
    ∘ fun d => { d with last := some { d.cfg with units := [⟨511, 1, false, 7, 0, 0, []⟩, ⟨9, 4, false, 0, 0, 0, []⟩], seqs := [(9, List.replicate 4 {})] } })
def wf (typ seq tag : Nat) (p : List Byte) : WeltFrame := { typ := typ, full := false, seq := seq, tag := tag, payload := p }
def ky : Nat := 32 * 511 + 31
def tb : List Byte := List.replicate 1024 7
def tm : TileMap := ⟨31, 2, false, 16383, false, 0⟩
def pl : List Byte := leBytes 4 5 ++ leBytes 4 77

/-- Where the premises of `WeltLink` hold. -/
theorem witness_WeltLink :
    (let s : State := wls 2 {rxSeq := 6, fullEnd := true} (put R.TIME_VSTAT_LOCK 1);
    let f : WeltFrame := wf 3 6 (7 + 256 * 9) [];
    let lanes : Nat := 0;
    let st := s.dev.dupx;
    let off := (f.seq + 2 ^ 32 - st.rxSeq) % 2 ^ 32;
      s.dev.hasWelt = true ∧
      lanes < 16 ∧
      s.dev.weltUp = true ∧
      off = 0 ∧
      st.rxSeq < 2 ^ 32 ∧
      f.typ = 3 ∧
      s.dev.takesCopy = true ∧
      st.exchLoaded = false ∧
      st.rxSeq + 1 < 2 ^ 32 ∧
      (s.dev.dx = dxSTANDBY ∨ s.dev.dx = dxSYNCING) ∧
      s.dev.dx = dxSYNCING ∧
      st.fullEnd = true ∧
      (∀ c ∈ s.dev.usedCads, c = f.tag % 8 ∨ c ∈ st.synced) ∧
      s.dev.locked 0 = true) ∧
    (let s : State := wls 6 {acks := [(7, 5, 1)]} (tick 600 ∘ fun d => { d with ckpt := [(7, {pend := some {}, copied := true})] });
    let f : WeltFrame := wf 8 0 6 (leBytes 8 9);
    let n : Nat := 7;
    let t0 : Nat := 1;
    let sq : Nat := 5;
    let st := s.dev.dupx;
    let got (v : Nat) : Bool := decide ((f.tag + 2 ^ 32 - v) % 2 ^ 32 < 2 ^ 31);
      s.dev.weltUp = true ∧
      f.typ = 8 ∧
      st.acks = [(n, sq, t0)] ∧
      got sq = true ∧
      (Tbl.getD { } s.dev.ckpt n).copied = true ∧
      n < 8) ∧
    (let s : State := wls 6 {tHseq := some 5, peerState := 2} (tick 600 ∘ fun d => { d with ckpt := [(7, {pend := some {}, copied := true})] });
    let f : WeltFrame := wf 8 0 6 (leBytes 8 9);
    let sq : Nat := 5;
    let st := s.dev.dupx;
    let got (v : Nat) : Bool := decide ((f.tag + 2 ^ 32 - v) % 2 ^ 32 < 2 ^ 31);
      s.dev.weltUp = true ∧
      f.typ = 8 ∧
      st.acks = [] ∧
      st.tHseq = some sq ∧
      got sq = true ∧
      s.dev.dxRuns = true ∧
      st.peerState = dxSYNCING) ∧
    (let s : State := wls 3 {};
    let f : WeltFrame := wf 2 0 0 [];
    let st := s.dev.dupx;
    let off := (f.seq + 2 ^ 32 - st.rxSeq) % 2 ^ 32;
    let k := 32 * (f.tag % 512) + f.tag / 512 % 32;
      s.dev.weltUp = true ∧
      off = 0 ∧
      st.rxSeq < 2 ^ 32 ∧
      f.typ = 2 ∧
      s.dev.takesCopy = true ∧
      (f.full && st.perCyc.contains k) = false) ∧
    (let s : State := wls 3 {rxSeq := 2^32-1};
    let f : WeltFrame := wf 4 (2^32-1) (7) pl;
    let st := s.dev.dupx;
    let off := (f.seq + 2 ^ 32 - st.rxSeq) % 2 ^ 32;
      s.dev.weltUp = true ∧
      off = 0 ∧
      st.rxSeq < 2 ^ 32 ∧
      f.typ = 4 ∧
      s.dev.takesCopy = true) ∧
    (let s : State := wls 3 {rxSeq := 2^32-1};
    let f : WeltFrame := wf 5 (2^32-1) (7) pl;
    let st := s.dev.dupx;
    let off := (f.seq + 2 ^ 32 - st.rxSeq) % 2 ^ 32;
      s.dev.weltUp = true ∧
      off = 0 ∧
      st.rxSeq < 2 ^ 32 ∧
      f.typ = 5 ∧
      s.dev.dxStandby = true ∧
      f.tag < 1024) ∧
    (let s : State := wls 3 {rxSeq := 2^32-1};
    let f : WeltFrame := wf 6 (2^32-1) (7) pl;
    let st := s.dev.dupx;
    let off := (f.seq + 2 ^ 32 - st.rxSeq) % 2 ^ 32;
      s.dev.weltUp = true ∧
      off = 0 ∧
      st.rxSeq < 2 ^ 32 ∧
      f.typ = 6 ∧
      s.dev.dxStandby = true ∧
      f.tag / 256 = 0 ∧
      f.payload.length ≤ 1024 ∧
      (s.dev.seqOf (f.tag % 128) = none ∨ le f.payload 8 4 ≠ f.payload.length)) ∧
    (let s : State := wls 3 {rxSeq := 6, rxTiles := [(ky, tb)], rxPort := [(7, 5, 8), (6, 3, 4)]};
    let f : WeltFrame := wf 3 6 (7 + 256 * 9) [];
    let key : Nat := ky;
    let b : List Byte := tb;
    let x : TileMap := tm;
    let st := s.dev.dupx;
    let off := (f.seq + 2 ^ 32 - st.rxSeq) % 2 ^ 32;
      s.dev.weltUp = true ∧
      off = 0 ∧
      st.rxSeq < 2 ^ 32 ∧
      f.typ = 3 ∧
      s.dev.takesCopy = true ∧
      st.exchLoaded = false ∧
      st.rxSeq + 1 < 2 ^ 32 ∧
      (s.dev.dx = dxSTANDBY ∨ s.dev.dx = dxSYNCING) ∧
      s.dev.tilesOf (f.tag % 8) = [(key, b)] ∧
      b.length = 1024 ∧
      List.find? (fun x => decide (x.lidx = key % 32)) (s.dev.un (key / 32)).tiles = some x) ∧
    (let s : State := wls 3 {rxSeq := 6, fullEnd := true} ;
    let f : WeltFrame := wf 7 6 1 (leBytes 8 9);
    let st := s.dev.dupx;
    let off := (f.seq + 2 ^ 32 - st.rxSeq) % 2 ^ 32;
      s.dev.weltUp = true ∧
      off = 0 ∧
      st.rxSeq < 2 ^ 32 ∧
      f.typ = 7 ∧
      f.tag = 1 ∧
      (s.dev.dx = dxSTANDBY ∨ s.dev.dx = dxREADY)) ∧
    (let s : State := wls 3 {kept := [wf 2 5 0 [], wf 2 6 0 []]} ;
    let f : WeltFrame := wf 9 6 6 (leBytes 8 9);
      s.dev.weltUp = true ∧
      f.typ = 9) := by
  refine ⟨?_, ?_, ?_, ?_, ?_, ?_, ?_, ?_, ?_, ?_⟩ <;> decide +kernel

/-- A damaged frame, one that is early, and one that was taken before. -/
theorem witness_WeltLink_order :
    (let s : State := wls 6 { rxSeq := 5 };
      s.dev.weltUp = true ∧ (7 + 2 ^ 32 - s.dev.dupx.rxSeq) % 2 ^ 32 = 2 ∧ (4 + 2 ^ 32 - s.dev.dupx.rxSeq) % 2 ^ 32 = 2 ^ 32 - 1) := by
  decide +kernel
end Welt

namespace WeltRecipe

def cfgd (f : LastRec → LastRec) (d : Dev) : Dev := { d with last := some (f d.cfg) }
def txE (p : Nat) : IoEntry := ⟨10, 0, 0, some 0, .ethTx p 5 false false true (zeros 60) []⟩
def dxs (st : Nat) (side : Nat) (x : DupxSt) (f : Dev → Dev := id) : State :=
  at_ (f ∘ sess ∘ (fun d => { d with dupx := x, rst := { d.rst with phase := 5, coresUp := true } }) ∘ put R.DUPX_STATE_STATE st ∘ put R.DUPX_CTRL_EN 1
    ∘ put R.DUPX_CFG_SIDE side ∘ put R.DUPX_STATE_WELT_UP 1 ∘ put R.DUPX_CFG_MISS_N 3 ∘ put R.DUPX_CFG_PAIR_WAIT 1 ∘ put R.DUPX_CFG_HO_LEAD 3 ∘
   put R.HOL_CFG_ROLE 3 5 ∘ put R.HOL_CTRL_EN 1 5 ∘ cfgd fun p => { p with io := [txE 2], cads := [⟨1000, 0, false, 0⟩] } )
def wls (st : Nat) (x : DupxSt) (f : Dev → Dev := id) : State :=
  dxs st 0 x (f ∘ unit 511 { kind := 1, cad := 7, tiles := [⟨31, 2, false, 16383, false, 0⟩] } ∘ cad 7 { used := true } ∘ unit 9 { kind := 4, cad := 0 }
    ∘ fun d => { d with last := some { d.cfg with units := [⟨511, 1, false, 7, 0, 0, []⟩, ⟨9, 4, false, 0, 0, 0, []⟩], seqs := [(9, List.replicate 4 {})] } })
def wf (typ seq tag : Nat) (p : List Byte) : WeltFrame := { typ := typ, full := false, seq := seq, tag := tag, payload := p }
def rcpHead : List Byte := leBytes 4 0x52504345 ++ leBytes 2 1 ++ leBytes 2 1 ++ leBytes 4 768 ++ leBytes 2 0xFFFF ++ zeros 2 ++ zeros 24
def rcpTail : List Byte := zeros 20 ++ zeros 512 ++ leBytes 4 0x280 ++ zeros 60 ++ zeros 12 ++ leBytes 4 1 ++ zeros 112
def rcp : List Byte := rcpHead ++ leBytes 4 (crc32c (rcpHead ++ zeros 4 ++ rcpTail)) ++ rcpTail

/-- Where the premises of `WeltLink` hold. -/
theorem witness_WeltLink :
    (let s : State := wls 2 {rxSeq := 6, fullEnd := true} ;
    let f : WeltFrame := wf 6 6 3 rcp;
    let u : Nat := 9;
    let i : Nat := 3;
    let st := s.dev.dupx;
    let off := (f.seq + 2 ^ 32 - st.rxSeq) % 2 ^ 32;
      s.dev.weltUp = true ∧
      off = 0 ∧
      st.rxSeq < 2 ^ 32 ∧
      f.typ = 6 ∧
      s.dev.dxStandby = true ∧
      f.tag / 256 = 0 ∧
      f.payload.length ≤ 1024 ∧
      s.dev.seqOf (f.tag % 128) = some (u, i) ∧
      le f.payload 8 4 = f.payload.length ∧
      recipeCheck (nth { } (s.dev.seqsOf u) i) s.dev.sigTyp f.payload = sqOK) := by
  decide +kernel
end WeltRecipe

namespace Island
def rin (n typ disc src mt : Nat) : List Byte :=
    [BitVec.ofNat 8 n, BitVec.ofNat 8 typ, 1, BitVec.ofNat 8 disc, BitVec.ofNat 8 src, BitVec.ofNat 8 (if typ == 3 then 0 else src), BitVec.ofNat 8 mt, 0]
def rout (n use dark : Nat) : List Byte := [BitVec.ofNat 8 n, BitVec.ofNat 8 use, BitVec.ofNat 8 dark, 0, 0, 0, 0, 0]
def rfn (kind cat rst rin dem mask lo li mi ov mu ss1 ld tp trel mm mc : Nat) : List Byte :=
  [kind, cat, rst, rin, dem, 255, 255, 255, mask, lo, li, mi, ov, mu].map (BitVec.ofNat 8) ++ leBytes 2 ss1 ++ leBytes 2 ld ++ leBytes 2 tp ++ leBytes 2 trel ++ zeros 2 ++ leBytes 4 mm ++ [BitVec.ofNat 8 mc, 0, 0, 0]
def psBody : List Byte := leBytes 8 77 ++ zeros 4 ++ rin 0 1 1 0 0 ++ rin 11 1 1 0 0 ++ rin 12 1 1 0 0 ++ rin 13 1 1 0 0 ++ rin 14 1 1 0 1 ++ rin 15 3 0 0 0 ++ rin 2 2 5 1 0
  ++ rout 0 1 1 ++ rout 7 2 0
  ++ rfn 1 1 1 15 0 1 255 255 255 255 255 5 0 0 0 0 0 ++ rfn 3 1 0 255 14 1 7 14 255 255 13 3 1 0 0 1 5 ++ rfn 4 0 0 255 11 0 255 255 12 1 255 0 0 0 100 0 0 ++ rfn 1 0 0 255 2 1 255 255 255 255 255 0 0 0 0 0 0
def psHead : List Byte := leBytes 4 0x53414650 ++ leBytes 2 1 ++ leBytes 2 (20 + psBody.length) ++ [7, 2, 4, 0] ++ leBytes 2 50 ++ leBytes 2 50
def psB : List Byte := let z := psHead ++ zeros 4 ++ psBody; psHead ++ leBytes 4 (crc32ieee z) ++ psBody
def sinR (n : Nat) : SinRec := ((psetOf psB).input n).getD ⟨0,0,0,0,0,0,false⟩
def soR (n : Nat) : SoutRec := ((psetOf psB).output n).getD ⟨0,0,false⟩
def isl0 : IslandSt := { st := 4, setA := some psB, setB := some (invert psB), confirmed := true }
def isS (i : IslandSt) (f : Dev → Dev := id) : State := at_ (f ∘ sess ∘ put R.SAFE_STAT_LINK 1
    ∘ fun d => { d with isl := i, rst := { d.rst with phase := 5, coresUp := true } })
def okIn : Tbl SinSt := [(0, {a := true, b := true, runA := 3, runB := 3}), (2, {a := true}), (11, {a := true, b := true}), (12, {}), (13, {a := true, b := true}), (14, {a := true, b := true, runA := 2}), (15, {a := true})]
def fIdle : Tbl FuncSt := [(0, {st := 0}), (1, {st := 0}), (2, {st := 0, relWait := false}), (3, {st := 0})]
def runI : IslandSt := { isl0 with ins := okIn, funcs := fIdle, outs := [(0, {on := true, rba := true, rbb := true}), (7, {})] }

/-- Where the premises of `IslandFunctions` hold. -/
theorem witness_IslandFunctions :
    (let s : State := isS {runI with funcs := [(1, {st := 1, unlocking := true, offFor := 400})]};
    let a : Nat := 0xFFFF;
    let b : Nat := 0xFFFF;
    let rba : Nat := 1;
    let rbb : Nat := 1;
    let n : Nat := 0;
    let f : Nat := 1;
    let code : Nat := 8;
    let r : SinRec := sinR 2;
    let o : SoutRec := soR 0;
    let i := s.dev.isl;
    let p := i.pset;
    let c := p.func f;
    let x := i.fn f;
      1 ≤ code ∧
      code ≤ 8 ∧
      i.st ≠ isOFF ∧
      i.st ≠ isLOCKOUT ∧
      isUNCONFIGURED ≤ i.st ∧
      i.st = isRUN ∧
      a < 65536 ∧
      b < 65536 ∧
      rba < 256 ∧
      rbb < 256 ∧
      (List.map (fun x => x.sin) p.ins).Nodup ∧
      r ∈ p.ins ∧
      n < 16 ∧
      (i.inp n).fault = 0 ∧
      n < 8 ∧
      (i.out n).fault = false ∧
      p.output n = some o ∧
      o.dark = true ∧
      (i.out n).on = true ∧
      f < 32 ∧
      x.st = fsSTOPPING ∧
      x.ss1 = 0 ∧
      x.unlocking = true ∧
      0 < x.offFor ∧
      400 * c.lockDelay ≤ x.offFor) ∧
    (let s : State := isS {isl0 with st := 1};
    let fault : Nat := 8;
    let i := s.dev.isl;
      i.st = isSTARTUP ∧
      1 ≤ fault ∧
      fault ≤ 8 ∧
      i.nvmOk = true) ∧
    (let s : State := isS {runI with ins := [(2, {disc := some 100, a := true})]};
    let n : Nat := 2;
    let r : SinRec := sinR 2;
    let cb : Bool := false;
    let i := s.dev.isl;
    let p := i.pset;
      i.st = isRUN ∧
      n < 16 ∧
      (i.inp n).fault = 0 ∧
      p.input n = some r ∧
      (r.typ = 1 ∨ r.typ = 2) ∧
      (20 * r.disc ≤ (i.inp n).disc.getD 0 ∧ (i.inp n).disc.isSome = true ∨ 20 * r.disc < (i.inp n).unsettled) ∧
      (if cb = true then r.srcB else r.srcA) ≠ 0) ∧
    (let s : State := isS {isl0 with st := 1, setB := none};
    let i := s.dev.isl;
      i.st = isSTARTUP ∧
      i.nvmOk = false) ∧
    (let s : State := isS {isl0 with st := 0};
    let i := s.dev.isl;
      i.st = isOFF ∧
      i.supplyOk = true) ∧
    (let s : State := isS {runI with outs := [(0, {since := 8, on := true})]};
    let n : Nat := 0;
    let i := s.dev.isl;
    let p := i.pset;
      i.st = isRUN ∧
      n < 8 ∧
      (i.out n).fault = false ∧
      p.use n ≠ 0 ∧
      8 ≤ (i.out n).since ∧
      ((i.out n).rba ≠ (i.out n).on ∨ (i.out n).rbb ≠ (i.out n).on)) ∧
    (let s : State := isS {runI with funcs := [(0, {st := 1, ss1 := 9})]};
    let f : Nat := 0;
    let i := s.dev.isl;
    let x := i.fn f;
      i.st = isRUN ∧
      f < 32 ∧
      x.st = fsSTOPPING ∧
      x.ss1 ≠ 0) ∧
    (let s : State := isS {runI with funcs := [(1, {st := 1, muted := true, muteFor := 4000, muteAge := 7})]};
    let f : Nat := 1;
    let i := s.dev.isl;
    let p := i.pset;
    let c := p.func f;
    let x := i.fn f;
      i.st = isRUN ∧
      f < 32 ∧
      x.muted = true ∧
      4000 * c.muteMax ≤ x.muteFor) ∧
    (let s : State := isS {runI with funcs := [(1, {st := 1, muted := true, muteFor := 3999, muteAge := 400})]};
    let f : Nat := 1;
    let i := s.dev.isl;
    let p := i.pset;
    let c := p.func f;
    let x := i.fn f;
      i.st = isRUN ∧
      f < 32 ∧
      x.muted = true ∧
      x.muteFor < 4000 * c.muteMax ∧
      400 ≤ x.muteAge) ∧
    (let s : State := isS {runI with funcs := [(2, {st := 1, relFor := 400})]};
    let f : Nat := 2;
    let i := s.dev.isl;
    let p := i.pset;
    let c := p.func f;
    let x := i.fn f;
      i.st = isRUN ∧
      f < 32 ∧
      c.kind = 4 ∧
      4 * c.tRel ≤ x.relFor) ∧
    (let s : State := isS {runI with funcs := [(0, {st := 2})]};
    let n : Nat := 15;
    let f : Nat := 0;
    let ms : Nat := 100;
    let i := s.dev.isl;
    let p := i.pset;
    let c := p.func f;
      i.st = isRUN ∧
      n < 16 ∧
      p.single n = true ∧
      100 ≤ ms ∧
      ms ≤ 3000 ∧
      f < p.funcs.length ∧
      c.reset = 1 ∧
      c.resetIn = some n ∧
      c.kind ≠ 0 ∧
      i.resetWhy f = 0) ∧
    (let s : State := isS {runI with funcs := [(0, {st := 2})]};
    let n : Nat := 15;
    let ms : Nat := 3001;
    let i := s.dev.isl;
    let p := i.pset;
      i.st = isRUN ∧
      n < 16 ∧
      p.single n = true ∧
      3000 < ms) ∧
    (let s : State := isS {runI with funcs := [(0, {st := 2})]};
    let n : Nat := 15;
    let ms : Nat := 99;
    let i := s.dev.isl;
    let p := i.pset;
      i.st = isRUN ∧
      n < 16 ∧
      p.single n = true ∧
      ms < 100) := by
  refine ⟨?_, ?_, ?_, ?_, ?_, ?_, ?_, ?_, ?_, ?_, ?_, ?_, ?_⟩ <;> decide +kernel

/-- The island after a command. -/
def islAfter (s : State) (k : Instr) : IslandSt := match exec k s with | .next t => t.dev.isl | _ => {}

/-- Where the premises on a sample hold: a contact that has settled, a function of KIND 4, and a demand on one of KIND 1. -/
theorem witness_IslandFunctions_sample :
    (let s := isS { runI with ins := [(2, { a := true, runA := 4 }), (11, { a := true, b := true })], funcs := [(0, { st := 0 })] }
      let p := s.dev.isl.pset
      let j := islAfter s (.safeInputSample 0 0 1 1)
      s.dev.isl.st = isRUN ∧ (p.outs.map (·.sout)).Nodup ∧ (p.ins.map (·.sin)).Nodup ∧ sinR 2 ∈ p.ins ∧ bitAt 0 2 ≠ (s.dev.isl.inp 2).a ∧
      4 * (sinR 2).filt ≤ (s.dev.isl.inp 2).runA ∧ 2 < p.funcs.length ∧ (p.func 2).kind = 4 ∧
      0 < p.funcs.length ∧ (p.func 0).kind = 1 ∧ (p.func 0).muteIn = none ∧ (s.dev.isl.fn 0).muted = false ∧ (s.dev.isl.fn 0).st = fsIDLE ∧
      (p.func 0).reset ≠ 2 ∧ p.funcs.all (fun c => decide (c.override ≠ some 0)) = true ∧ 0 ∈ (p.func 0).demand ∧ j.healthy 0 = false) := by
  decide +kernel

/-- Where the premises of the calls that do nothing outside RUN hold. -/
theorem witness_IslandFunctions_idle : ¬ (isS { isl0 with st := 3 }).dev.isl.st = isRUN := by decide +kernel
end Island

namespace IslandCalls
def rin (n typ disc src mt : Nat) : List Byte :=
    [BitVec.ofNat 8 n, BitVec.ofNat 8 typ, 1, BitVec.ofNat 8 disc, BitVec.ofNat 8 src, BitVec.ofNat 8 (if typ == 3 then 0 else src), BitVec.ofNat 8 mt, 0]
def rout (n use dark : Nat) : List Byte := [BitVec.ofNat 8 n, BitVec.ofNat 8 use, BitVec.ofNat 8 dark, 0, 0, 0, 0, 0]
def rfn (kind cat rst rin dem mask lo li mi ov mu ss1 ld tp trel mm mc : Nat) : List Byte :=
  [kind, cat, rst, rin, dem, 255, 255, 255, mask, lo, li, mi, ov, mu].map (BitVec.ofNat 8) ++ leBytes 2 ss1 ++ leBytes 2 ld ++ leBytes 2 tp ++ leBytes 2 trel ++ zeros 2 ++ leBytes 4 mm ++ [BitVec.ofNat 8 mc, 0, 0, 0]
def psBody : List Byte := leBytes 8 77 ++ zeros 4 ++ rin 0 1 1 0 0 ++ rin 11 1 1 0 0 ++ rin 12 1 1 0 0 ++ rin 13 1 1 0 0 ++ rin 14 1 1 0 1 ++ rin 15 3 0 0 0 ++ rin 2 2 5 1 0
  ++ rout 0 1 1 ++ rout 7 2 0
  ++ rfn 1 1 1 15 0 1 255 255 255 255 255 5 0 0 0 0 0 ++ rfn 3 1 0 255 14 1 7 14 255 255 13 3 1 0 0 1 5 ++ rfn 4 0 0 255 11 0 255 255 12 1 255 0 0 0 100 0 0 ++ rfn 1 0 0 255 2 1 255 255 255 255 255 0 0 0 0 0 0
def psHead : List Byte := leBytes 4 0x53414650 ++ leBytes 2 1 ++ leBytes 2 (20 + psBody.length) ++ [7, 2, 4, 0] ++ leBytes 2 50 ++ leBytes 2 50
def psB : List Byte := let z := psHead ++ zeros 4 ++ psBody; psHead ++ leBytes 4 (crc32ieee z) ++ psBody
def isl0 : IslandSt := { st := 4, setA := some psB, setB := some (invert psB), confirmed := true }
def isS (i : IslandSt) (f : Dev → Dev := id) : State := at_ (f ∘ sess ∘ put R.SAFE_STAT_LINK 1
    ∘ fun d => { d with isl := i, rst := { d.rst with phase := 5, coresUp := true } })
def okIn : Tbl SinSt := [(0, {a := true, b := true, runA := 3, runB := 3}), (2, {a := true}), (11, {a := true, b := true}), (12, {}), (13, {a := true, b := true}), (14, {a := true, b := true, runA := 2}), (15, {a := true})]
def fIdle : Tbl FuncSt := [(0, {st := 0}), (1, {st := 0}), (2, {st := 0, relWait := false}), (3, {st := 0})]
def runI : IslandSt := { isl0 with ins := okIn, funcs := fIdle, outs := [(0, {on := true, rba := true, rbb := true}), (7, {})] }
def rqS (src kind f code seq : Nat) (i : IslandSt) : State := isS { i with reqs := [(src, f + 32 * kind + 256 * code + 65536 * seq)] }
def wd (kind f code seq : Nat) : Nat := f + 32 * kind + 256 * code + 65536 * seq
def fun2 (n : Nat) (x : FuncSt) (i : IslandSt := runI) : IslandSt := { i with funcs := Tbl.put n x i.funcs }

/-- Where the premises of `IslandRequests` hold. -/
theorem witness_IslandRequests :
    (let s : State := rqS 0 1 0 0 9 (fun2 0 {st := 1});
    let q : Req := q0;
    let src : Nat := 0;
    let w : Nat := wd 1 0 0 9;
    let f : Nat := 0;
    let i := s.dev.isl;
    let p := i.pset;
    let c := p.func f;
      src < 9 ∧
      i.st = isRUN ∧
      i.reqs.get? src = some w ∧
      bitsOf w 5 3 = 1 ∧
      bitsOf w 0 5 = f ∧
      c.kind ≠ 0 ∧
      c.reset ≠ 0 ∧
      src = 0 ∧
      s.dev.linkOk = true ∧
      s.dev.flag R.SAFE_STAT_LINK = true ∧
      i.accepts = false ∧
      i.storing = none ∧
      s.dev.envelope q pvENGINEER = .go ∧
      (i.setA = none ∨ i.st ≠ isUNCONFIRMED ∨ i.blockAt.isSome = true)) ∧
    (let s : State := isS {runI with st := 3};
    let q : Req := q0;
    let src : Nat := 0;
    let b : List Byte := psB;
    let val : Word := 5#32;
    let i := s.dev.isl;
      src < 9 ∧
      s.dev.flag R.SAFE_STAT_LINK = true ∧
      i.accepts = true ∧
      s.dev.envelope q pvENGINEER = .go ∧
      i.setA = some b ∧
      i.st = isUNCONFIRMED ∧
      i.storing = none ∧
      i.blockAt = none ∧
      BitVec.toNat val ≠ psetCheck b) ∧
    (let s : State := rqS 0 1 3 0 9 (fun2 3 {st := 2});
    let src : Nat := 0;
    let w : Nat := wd 1 3 0 9;
    let f : Nat := 3;
    let i := s.dev.isl;
    let p := i.pset;
    let c := p.func f;
      src < 9 ∧
      i.st = isRUN ∧
      i.reqs.get? src = some w ∧
      bitsOf w 5 3 = 1 ∧
      bitsOf w 0 5 = f ∧
      c.kind ≠ 0 ∧
      c.reset = 0 ∧
      c.kind ≠ 4 ∧
      i.resetWhy f = 0 ∧
      src = 0) ∧
    (let s : State := rqS 0 1 3 0 9 (fun2 3 {st := 1});
    let src : Nat := 0;
    let w : Nat := wd 1 3 0 9;
    let f : Nat := 3;
    let i := s.dev.isl;
    let p := i.pset;
    let c := p.func f;
      src < 9 ∧
      i.st = isRUN ∧
      i.reqs.get? src = some w ∧
      bitsOf w 5 3 = 1 ∧
      bitsOf w 0 5 = f ∧
      c.kind ≠ 0 ∧
      c.reset = 0 ∧
      c.kind ≠ 4 ∧
      i.resetWhy f ≠ 0 ∧
      src = 0) ∧
    (let s : State := rqS 0 2 1 0 1 (fun2 1 {st := 0});
    let src : Nat := 0;
    let w : Nat := wd 2 1 0 1;
    let f : Nat := 1;
    let i := s.dev.isl;
    let p := i.pset;
    let c := p.func f;
    let x := i.fn f;
      src < 9 ∧
      i.st = isRUN ∧
      i.reqs.get? src = some w ∧
      bitsOf w 5 3 = 2 ∧
      bitsOf w 0 5 = f ∧
      c.kind ≠ 0 ∧
      c.kind = 3 ∧
      x.st = fsIDLE ∧
      x.unlocked = false ∧
      x.unlocking = false ∧
      i.overrider f = none ∧
      src = 0) ∧
    (let s : State := rqS 0 2 1 0 1 { fun2 1 {st := 0} with ins := (okIn.filter (·.1 ≠ 12)) ++ [(12, {a := true, b := true})] };
    let src : Nat := 0;
    let w : Nat := wd 2 1 0 1;
    let f : Nat := 1;
    let i := s.dev.isl;
    let p := i.pset;
    let c := p.func f;
    let x := i.fn f;
      src < 9 ∧
      i.st = isRUN ∧
      i.reqs.get? src = some w ∧
      bitsOf w 5 3 = 2 ∧
      bitsOf w 0 5 = f ∧
      c.kind ≠ 0 ∧
      c.kind = 3 ∧
      x.st = fsIDLE ∧
      x.unlocked = false ∧
      x.unlocking = false ∧
      (i.overrider f).isSome = true ∧
      src = 0) ∧
    (let s : State := rqS 0 2 1 0 1 (fun2 1 {st := 1});
    let src : Nat := 0;
    let w : Nat := wd 2 1 0 1;
    let f : Nat := 1;
    let i := s.dev.isl;
    let p := i.pset;
    let c := p.func f;
    let x := i.fn f;
      src < 9 ∧
      i.st = isRUN ∧
      i.reqs.get? src = some w ∧
      bitsOf w 5 3 = 2 ∧
      bitsOf w 0 5 = f ∧
      c.kind ≠ 0 ∧
      c.kind = 3 ∧
      x.st ≠ fsIDLE ∧
      src = 0) ∧
    (let s : State := rqS 0 3 1 0 1 (fun2 1 {st := 1, unlocked := true});
    let src : Nat := 0;
    let w : Nat := wd 3 1 0 1;
    let f : Nat := 1;
    let i := s.dev.isl;
    let p := i.pset;
    let c := p.func f;
    let x := i.fn f;
      src < 9 ∧
      i.st = isRUN ∧
      i.reqs.get? src = some w ∧
      bitsOf w 5 3 = 3 ∧
      bitsOf w 0 5 = f ∧
      c.kind ≠ 0 ∧
      c.kind = 3 ∧
      (x.unlocked = true ∨ x.unlocking = true) ∧
      src = 0) ∧
    (let s : State := rqS 0 4 1 5 1 (fun2 1 {st := 0});
    let src : Nat := 0;
    let w : Nat := wd 4 1 5 1;
    let f : Nat := 1;
    let i := s.dev.isl;
    let p := i.pset;
    let c := p.func f;
      src < 9 ∧
      i.st = isRUN ∧
      i.reqs.get? src = some w ∧
      bitsOf w 5 3 = 4 ∧
      bitsOf w 0 5 = f ∧
      c.kind ≠ 0 ∧
      c.muteIn.isSome = true ∧
      bitsOf w 8 8 ≠ 0 ∧
      c.mcodes.contains (bitsOf w 8 8) = true ∧
      src = 0) ∧
    (let s : State := rqS 0 4 1 6 1 (fun2 1 {st := 0});
    let src : Nat := 0;
    let w : Nat := wd 4 1 6 1;
    let f : Nat := 1;
    let i := s.dev.isl;
    let p := i.pset;
    let c := p.func f;
      src < 9 ∧
      i.st = isRUN ∧
      i.reqs.get? src = some w ∧
      bitsOf w 5 3 = 4 ∧
      bitsOf w 0 5 = f ∧
      c.kind ≠ 0 ∧
      c.muteIn.isSome = true ∧
      (bitsOf w 8 8 = 0 ∨ c.mcodes.contains (bitsOf w 8 8) = false) ∧
      src = 0) ∧
    (let s : State := isS runI (fun d => {d with rst := {d.rst with phase := 2}});
    let src : Nat := 0;
      src < 9 ∧
      s.dev.linkOk = false) ∧
    (let s : State := isS {runI with st := 2, storing := some psB};
    let src : Nat := 0;
    let b : List Byte := psB;
    let agree : Bool := true;
    let i := s.dev.isl;
      src < 9 ∧
      i.storing = some b ∧
      psetOk b = true ∧
      agree = true) ∧
    (let s : State := isS {runI with st := 2, storing := some psB};
    let src : Nat := 0;
    let b : List Byte := psB;
    let agree : Bool := false;
    let i := s.dev.isl;
      src < 9 ∧
      i.storing = some b ∧
      psetOk b = true ∧
      agree = false) ∧
    (let s : State := isS {runI with st := 2, storing := some [1]};
    let src : Nat := 0;
    let b : List Byte := [1];
    let i := s.dev.isl;
      src < 9 ∧
      i.storing = some b ∧
      psetOk b = false) ∧
    (let s : State := isS {runI with st := 3};
    let q : Req := q0;
    let src : Nat := 0;
    let b : List Byte := psB;
    let val : Word := BitVec.ofNat 32 (psetCheck psB);
    let i := s.dev.isl;
      src < 9 ∧
      s.dev.envelope q pvENGINEER = .go ∧
      i.setA = some b ∧
      i.st = isUNCONFIRMED ∧
      i.storing = none ∧
      i.blockAt = none ∧
      s.dev.flag R.SAFE_STAT_LINK = true ∧
      BitVec.toNat val = psetCheck b) ∧
    (let s : State := isS {runI with blockAt := some 1000, samp := 61000 * 4};
    let src : Nat := 0;
    let t : Nat := 1000;
    let i := s.dev.isl;
      src < 9 ∧
      i.blockAt = some t) := by
  refine ⟨?_, ?_, ?_, ?_, ?_, ?_, ?_, ?_, ?_, ?_, ?_, ?_, ?_, ?_, ?_, ?_⟩ <;> decide +kernel

/-- Where the premises on the exchange's mutes hold: a mute whose request word is gone, and none asked for. -/
theorem witness_IslandRequests_mutes :
    (let s := isS (fun2 1 { st := 0, muteReq := true, muteCode := 5, muteSrc := 3 })
      let words := s.dev.rw (R.SAFE_REQ.addr 0 0 0) :: (List.range 8).map (fun n => s.dev.rw (R.SAFE_LREQi.addr 0 n 0))
      s.dev.linkOk = true ∧ isUNCONFIGURED ≤ s.dev.isl.st ∧ 1 < s.dev.isl.pset.funcs.length ∧ (s.dev.isl.fn 1).muteReq = true ∧
      s.dev.isl.muteHere 1 (nth 0 words (s.dev.isl.fn 1).muteSrc) = false) ∧
    (let s := isS { runI with evq := [{ code := 1, ms := 1, data := [] }] };
      s.dev.linkOk = true ∧ s.dev.isl.funcs.all (fun x => !x.2.muteReq) = true ∧ s.dev.isl.evLost = 0) := by
  constructor <;> decide +kernel
end IslandCalls

namespace Power
def u64 : UnitRec := { unit := 64, kind := 0, event := false, cad := 0, order := 0, resref := 0, kdata := [] }
def p64 : ProofUnit := { unit := 64, cad := 0, n := 0, h := 0, x := 50, a := 0, vreq := 0 }
def pmOk (g : Nat) : PlanMeas := { rgn := g, units := [(64, 2000)], ratio := (List.range 81).map (fun i => 3000000 - 30000 * i), alphaT := 500, ag := 12, tj := -180, ops := 77, hours := 10 }
def pmBad (g : Nat) : PlanMeas := { pmOk g with units := [(64, 11000)] }
def cfgp (cls : List Nat) (d : Dev) : Dev :=
  { d with last := some { units := [u64], own := { clClass := cls }, proof := { regions := [(0, []), (800, [100, 200])], units := [p64] } } }
def en (d : Dev) : Dev := put R.TIME_CADn_CFG_MULT 1 0 0 0 (put R.PWR_CTRL_EN 1 0 0 0 d)
def rgn (g : Nat) (r : RgnSt) (d : Dev) : Dev := { d with pwr := { d.pwr with rgns := Tbl.put g r d.pwr.rgns } }
def up (d : Dev) : Dev := { d with rst := { d.rst with coresUp := true, phase := 5 } }
def spare (n : Nat) (d : Dev) : Dev := put R.PWR_SPARE_MW n 0 0 0 d
/-- A state 24 h after reset, in which region 1 has the one unit. -/
def st0 (f : Dev → Dev) : State := at_ (f ∘ tick 43200000000000 ∘ up ∘ en ∘ cfgp [])
/-- The setting of the statement's clauses on boosts. -/
def asked (s : State) (control : Bool) : Prop :=
  1 < s.dev.nRegions ∧ (s.dev.rgn 1).wants = true ∧ s.dev.boostFirst 1 = some 1 ∧ decide (s.dev.rgnClass 1 = 1) = control
/-- The first region whose rail can change. -/
def first (s : State) : Option Nat := (s.dev.rgnOrder s.dev.epoch).find? (fun h => (s.dev.railNext h).isSome)
def far (s : State) (tj : Nat) : Prop := 40 < (toS 10 tj - toS 10 (s.dev.rf R.MARG_RGN_TJ_PLAN 0 1)).natAbs

/-- Where the premises of `PowerAndMargins` hold: epochs, with the arbiter off, and a second time in an epoch; budget and limit writes. -/
theorem witness_PowerAndMargins :
    ((st0 id).dev.flag R.PWR_CTRL_EN = true ∧ (st0 id).dev.pwr.epochAt ≠ some (st0 id).dev.epoch ∧ 1 < (st0 id).dev.nRegions ∧ ((st0 id).dev.rgn 1).cut = 0) ∧
    (st0 (put R.PWR_CTRL_EN 0)).dev.flag R.PWR_CTRL_EN = false ∧
    (st0 (fun d => { d with pwr := { d.pwr with epochAt := some d.epoch } })).dev.pwr.epochAt = some (st0 id).dev.epoch ∧
    (∀ v ∈ [30000, 95000], 30000 ≤ v ∧ v ≤ 95000 ∧ (st0 id).dev.capNeed ≤ (st0 id).dev.capOf v ((st0 id).dev.rf R.PWR_ILIM_ILIM)) ∧
    (∀ l ∈ [100, 850], 100 ≤ l ∧ l ≤ 850 ∧ (st0 id).dev.capNeed ≤ (st0 id).dev.capOf ((st0 id).dev.rf R.PWR_BUDGET_PKG_BUDGET) l) ∧
    (let s := st0 (put R.PWR_PBASE_MW 30001); s.dev.capOf 30000 (s.dev.rf R.PWR_ILIM_ILIM) < s.dev.capNeed) ∧
    (let s := st0 (put R.PWR_PBASE_MW 30001 ∘ fun d => { d with pwr := { d.pwr with vin := 12000 } });
      s.dev.capOf (s.dev.rf R.PWR_BUDGET_PKG_BUDGET) 250 < s.dev.capNeed) := by
  refine ⟨?_, ?_, ?_, ?_, ?_, ?_, ?_⟩ <;> decide +kernel

/-- Where its premises on boosts hold, by what the boost costs. -/
theorem witness_PowerAndMargins_boosts :
    (¬ (st0 id).dev.boostFirst 1 = some 1) ∧
    asked (st0 (rgn 1 { wants := true } ∘ cfgp [0,0,0,0,1,0,0,0] ∘ spare 20)) true ∧
    (let s := st0 (rgn 1 { wants := true } ∘ spare 20);
      asked s false ∧ 100 ≤ s.dev.pwr.ilimFor ∧ s.dev.boostCost 1 20 ≤ s.dev.rf R.PWR_SPARE_MW) ∧
    (let s := st0 (rgn 1 { wants := true } ∘ spare 20 ∘ fun d => { d with pwr := { d.pwr with ilimFor := 99 } });
      asked s false ∧ s.dev.pwr.ilimFor < 100) ∧
    (let s := st0 (rgn 1 { wants := true } ∘ spare 20);
      asked s false ∧ 100 ≤ s.dev.pwr.ilimFor ∧ s.dev.rgnsUsed = [1] ∧ s.dev.rf R.PWR_SPARE_MW + s.dev.pwr.reserve < s.dev.boostCost 1 21) := by
  unfold asked; decide +kernel

/-- Where its premises on rails hold: a change in full, one that a CAPPED region cannot make, and one behind another region's. -/
theorem witness_PowerAndMargins_rails :
    (let s := st0 (rgn 1 { railWait := some 700 });
      (s.dev.rgn 1).railWait = some 700 ∧ 700 ≤ 950 ∧ s.dev.railNext 1 = some 700 ∧ first s = some 1 ∧ s.dev.flag R.PWR_RGN_STAT_CAPPED 0 1 = false ∧
      s.dev.rf R.RGN_RAIL_MV 1 < 700) ∧
    (let s := st0 (rgn 1 { railWait := some 700, vm := 600 } ∘ put R.RGN_RAIL_MV 600 1 ∘ put R.PWR_RGN_STAT_CAPPED 1 0 1 ∘ put R.PWR_RGN_MEAS_MW 100 0 1 ∘
        put R.PWR_RGN_GRANT_MW 100 0 1); s.dev.railNext 1 = none) ∧
    first (st0 (rgn 0 { railWait := some 700 } ∘ rgn 1 { railWait := some 700 })) ≠ some 1 := by
  refine ⟨?_, ?_, ?_⟩ <;> decide +kernel

/-- Where its premises on plans hold: plans with and without a voltage that meets the limits, and one whose window is not over. -/
theorem witness_PowerAndMargins_plans :
    ((st0 id).dev.rgnUsed 0 = false ∧ (st0 id).dev.rgnsUsed = [1] ∧ (st0 (rgn 1 { lastPlan := 1 })).dev.time.cnt < 1 + 43200000000000 ∧
      43200000000000 ≤ (st0 id).dev.time.cnt) ∧
    ((at_ en).dev.rst.coresUp = false ∧ far (st0 id) 100 ∧ far (st0 id) 500 ∧ ¬ far (st0 id) 1023) ∧
    (let s := st0 (rgn 1 { planning := true, boost := 50 } ∘ put R.RGN_RAIL_MV 600 1 ∘ put R.MARG_STAT_PLANNING 255);
      (pmBad 1).rgn = 1 ∧ (s.dev.rgn 1).planning = true ∧ (s.dev.rgn 1).planAt + s.dev.planWindow 1 ≤ s.dev.time.cnt ∧ (s.dev.rgn 1).wants = false ∧
      (pmBad 1).grid (s.dev.planUnits (pmBad 1)) = none ∧ s.dev.rf R.RGN_RAIL_MV 1 < 950) ∧
    (let s := st0 (rgn 1 { planning := true, wants := true } ∘ put R.RGN_RAIL_MV 900 1);
      (pmOk 1).rgn = 1 ∧ (s.dev.rgn 1).planning = true ∧ (s.dev.rgn 1).planAt + s.dev.planWindow 1 ≤ s.dev.time.cnt ∧ (s.dev.rgn 1).wants = true ∧
      s.dev.rst.coresUp = true ∧ (pmOk 1).grid (s.dev.planUnits (pmOk 1)) = some 0 ∧ 550 < s.dev.rf R.RGN_RAIL_MV 1) ∧
    (let s := st0 (rgn 1 { planning := true, planAt := 43200000000000 - 499999999 });
      s.dev.time.cnt < (s.dev.rgn 1).planAt + s.dev.planWindow 1) ∧ ((st0 id).dev.rgn 1).planning = false := by
  unfold far; refine ⟨?_, ?_, ?_, ?_, ?_, ?_⟩ <;> decide +kernel

/-- Region 1 is the only one of that Last, and it declares no floors. -/
theorem witness_PowerAndMargins_region : (∀ h : Nat, (st0 id).dev.rgnUsed h = decide (h = 1)) ∧ ∀ i : Nat, nth 0 (st0 id).dev.cfg.own.floors i = 0 := by
  refine ⟨fun h => ?_, fun i => ?_⟩
  · show ([u64].any fun u => decide (u.unit / 64 = h)) = decide (h = 1)
    simp [u64, eq_comm]
  · show nth 0 ([] : List Nat) i = 0
    simp [nth]
end Power

namespace Resets
def rst (f : RstSt → RstSt) (d : Dev) : Dev := { d with rst := f d.rst }
def memS (s : State) : State := { s with mem := memPut 0x200000000000 [9,8] (memPut 5 [1,2,3] s.mem) }
def st0 (f : Dev → Dev) : State := memS (at_ (f ∘ sess ∘ runs {} ∘ tick 6000000000 ∘ rst (fun r => { r with coresUp := true, phase := 5, epi := none })))
def ep (r : Nat) (now : List Nat := []) : Episode := { first := 10, reach := r, mask := [10], now := now }
def lst (n : Nat) : RstSt → RstSt := fun r => { r with entries := (List.range 8).map (· + n) }
def dbg (b : Bool) (d : Dev) : Dev := { d with lc := { d.lc with state := if b then 0 else 3 } }

/-- Where the premises of `ResetEpisodes` hold. -/
theorem witness_ResetEpisodes :
    (let s : State := st0 (rst fun r => {r with phase := 3, coresUp := false});
    let code : Nat := 2;
    let r := s.dev.rst;
      (code = srPOR ∨ code = srPIN ∨ code = srTHERM) ∧
      r.epi = none ∧
      r.loss = none ∧
      r.deferred = [] ∧
      r.trimFault = false ∧
      s.dev.escalates = false ∧
      s.dev.lc.debugOpen = true ∧
      r.entries.length < 8 ∧
      3 ≤ r.phase ∧
      r.coresUp = false) ∧
    (let s : State := st0 (rst (fun r => {r with epi := some (ep 2 []), trimFault := true}));
    let e : Episode := ep 2 [];
    let code : Nat := 2;
    let r := s.dev.rst;
      (code = srPOR ∨ code = srPIN ∨ code = srTHERM) ∧
      r.epi = some e ∧
      r.trimFault = true ∧
      (e.now ≠ [] ∨ r.loss.isSome = true ∨ r.trimFault = true)) ∧
    (let s : State := st0 (rst (fun r => {r with epi := some (ep 2 [])}));
    let e : Episode := ep 2 [];
    let r := s.dev.rst;
      r.epi = some e ∧
      e.fresh = false ∧
      e.reach = 2 ∧
      r.loss = none ∧
      r.deferred = [] ∧
      r.trimFault = false ∧
      s.dev.lc.debugOpen = true ∧
      e.now = [] ∧
      (e.reach = 1 ∨ r.vinLow = false) ∧
      e.reach ≠ 1) ∧
    (let s : State := st0 (rst (lst 2000000000));
    let r := s.dev.rst;
      r.epi = none ∧
      r.loss = none ∧
      r.deferred = [] ∧
      r.trimFault = false ∧
      s.dev.escalates = true ∧
      r.entries.length = 8) ∧
    (let s : State := st0 (dbg false);
      s.dev.lc.debugOpen = false) ∧
    (let s : State := st0 (rst fun r => {r with phase := 1});
    let r := s.dev.rst;
      r.phase = 1 ∧
      r.epi = none) ∧
    (let s : State := st0 (rst (fun r => {r with epi := some (ep 1 [])}));
    let e : Episode := ep 1 [];
    let r := s.dev.rst;
      r.epi = some e ∧
      e.now = [] ∧
      r.loss = none ∧
      r.trimFault = false ∧
      (e.reach = 1 ∨ r.vinLow = false) ∧
      e.reach = 1) ∧
    (let s : State := st0 (rst (fun r => {r with loss := some 5}));
    let r := s.dev.rst;
      r.trimFault = false ∧
      r.loss.isSome = true) ∧
    (let s : State := st0 (put R.RST_TRIM_FAILS 2 ∘ (fun d => {d with time := {d.time with pll := false}}) ∘ rst fun r => {r with phase := 2});
    let r := s.dev.rst;
      r.phase = 2 ∧
      r.epi = none ∧
      s.dev.time.pll = false) := by
  refine ⟨?_, ?_, ?_, ?_, ?_, ?_, ?_, ?_, ?_⟩ <;> decide +kernel

/-- Where the premises on episodes that cannot end yet hold, at the end of the pulse and below VIN, and those on what a snapshot's copy and a slot's
write are. -/
theorem witness_ResetEpisodes_ends :
    ((st0 (rst (fun r => { r with epi := some { ep 1 with pulseEnd := 6000000000 } }))).dev.rst.epi.any (fun e => decide (e.pulseEnd ≤ 6000000000)) = true) ∧
    ((st0 (rst (fun r => { r with epi := some { ep 1 with pulseEnd := 6000000001 } }))).dev.rst.epi.any (fun e => decide (6000000000 < e.pulseEnd)) = true) ∧
    (let s := st0 (rst (fun r => { r with epi := some (ep 2), vinLow := true }));
      s.dev.rst.epi = some (ep 2) ∧ (ep 2).reach ≠ 1 ∧ s.dev.rst.vinLow = true) ∧
    ((st0 (rst (fun r => { r with epi := some (ep 2 [2]) }))).dev.rst.epi = some (ep 2 [2]) ∧ (ep 2 [2]).now ≠ []) ∧
    (let s := st0 (rst (lst 999999999));
      s.dev.rst.entries.length = 8 ∧ s.dev.escalates = false ∧ s.dev.slotWr = none ∧ s.dev.frz.copy = none) := by
  refine ⟨?_, ?_, ?_, ?_, ?_⟩ <;> decide +kernel
end Resets

namespace Resumes
def rst (f : RstSt → RstSt) (d : Dev) : Dev := { d with rst := f d.rst }
def vw (v base : Nat) (d : Dev) : Dev := { d with time := { d.time with views := Tbl.put v { base := base * 2^40, tb := d.time.cnt } d.time.views } }
def lock (d : Dev) : Dev := put R.TIME_VSTAT_LOCK 1 0 0 0 d
def idl : List Byte := List.replicate 16 0xAB
def st0 (f : Dev → Dev) : State := at_ (f ∘ sess ∘ put R.RST_HOLD_HOLD_MAX 10 ∘ runs { id := idl } ∘ cad 7 {used := true} ∘ tick 6000000000
    ∘ rst (fun r => { r with coresUp := true, phase := 5, epi := none }))
def plr (p : PlrRec) (d : Dev) : Dev := { d with plr := p }
def stopped (d : Dev) : Dev := put R.SYS_LAST_STAT_STATE 2 0 0 0 d
def pw (f : Dev → Dev) : State := st0 (f ∘ lock ∘ vw 0 1000000000000 ∘ stopped
    ∘ plr { valid := true, id := idl, ns := 900000000000, force := [(0, {kind := 0, id := 3, val := 5})] } ∘ rst fun r => {r with plrWait := true})

/-- Where the premises of `ResumeAndPowerLoss` hold. -/
theorem witness_ResumeAndPowerLoss :
    (let s : State := st0 (rst fun r => {r with resume := true, holdFrom := some 5995000001});
    let t : Nat := 5995000001;
    let which : Nat := 2;
    let r := s.dev.rst;
    let now := s.dev.time.cnt;
      r.resume = true ∧
      r.epi = none ∧
      s.dev.load = none ∧
      (∀ n < 8, (s.dev.cad n).ref = none) ∧
      r.wasRun = false ∧
      r.holdFrom = some t ∧
      now < t + s.dev.rf R.RST_HOLD_HOLD_MAX * 500000 ∧
      r.vinLow = false ∧
      3 ≤ r.phase ∧
      r.loss = none ∧
      s.dev.plrDue = false ∧
      s.dev.plr.crcOk = true ∧
      s.dev.plr.id ≠ s.dev.cfg.id ∧
      s.dev.variant ≠ 2 ∧
      2 ≤ which ∧
      which < 10) ∧
    (let s : State := st0 (rst fun r => {r with loss := some 5, lossRec := true, lossNs := 88});
    let t : Nat := 5;
    let good : Bool := false;
    let r := s.dev.rst;
      r.loss = some t ∧
      r.epi = none ∧
      r.trimFault = false ∧
      r.deferred = [] ∧
      r.lossRec = true ∧
      good = false) ∧
    (let s : State := pw (plr {crcOk := false, id := [], ns := 4});
    let r := s.dev.rst;
      s.dev.plrDue = true ∧
      r.plrRun = false ∧
      s.dev.plrWhy ≠ 0 ∧
      s.dev.locked 0 = true ∧
      s.dev.plr.crcOk = false) ∧
    (let s : State := pw (put R.TIME_VSTAT_LOCK 0);
    let r := s.dev.rst;
      s.dev.plrDue = true ∧
      r.plrRun = false ∧
      s.dev.plrWhy = 0 ∧
      s.dev.locked 0 = false) ∧
    (let s : State := st0 (rst fun r => {r with resume := true, holdFrom := some 5995000000});
    let t : Nat := 5995000000;
    let r := s.dev.rst;
    let now := s.dev.time.cnt;
      r.holdFrom = some t ∧
      t + s.dev.rf R.RST_HOLD_HOLD_MAX * 500000 ≤ now ∧
      r.safe = false ∧
      s.dev.running = true) ∧
    (let s : State := pw id;
    let r := s.dev.rst;
      s.dev.plrDue = true ∧
      r.plrRun = false ∧
      s.dev.plrWhy = 0 ∧
      s.dev.locked 0 = true) ∧
    (let s : State := st0 (put R.DUPX_STATE_STATE 5 ∘ rst fun r => {r with phase := 3});
    let r := s.dev.rst;
      r.vinLow = false ∧
      3 ≤ r.phase ∧
      r.loss = none ∧
      s.dev.dxRuns = true) := by
  refine ⟨?_, ?_, ?_, ?_, ?_, ?_, ?_⟩ <;> decide +kernel

/-- Where the premises on the end of the dark time, on the wait for LOCK and on a second loss hold. -/
theorem witness_ResumeAndPowerLoss_waits :
    (let s := st0 (rst fun r => { r with resume := true, dark := true, wasRun := true });
      s.dev.rst.resume = true ∧ s.dev.rst.epi = none ∧ s.dev.rst.dark = true ∧ s.dev.load = none ∧ s.dev.rst.wasRun = true ∧ s.dev.running = true ∧
      (s.dev.cad 7).used = true) ∧
    (let s := st0 (rst fun r => { r with resume := true, dark := true });
      s.dev.rst.resume = true ∧ s.dev.rst.epi = none ∧ s.dev.rst.dark = true ∧ s.dev.load = none ∧ s.dev.rst.wasRun = false) ∧
    (st0 id).dev.rst.dark = false ∧ (st0 (rst fun r => { r with vinLow := true })).dev.rst.vinLow = true ∧
    (let s := pw (put R.TIME_VSTAT_LOCK 0 ∘ tick 30000000000);
      s.dev.plrDue = true ∧ s.dev.rst.plrRun = false ∧ s.dev.locked 0 = false ∧ s.dev.rst.plrAt + s.dev.plrWaitTicks ≤ s.dev.time.cnt) ∧
    (let s := pw (put R.TIME_VSTAT_LOCK 0 ∘ tick 29999999999);
      s.dev.plrDue = true ∧ s.dev.rst.plrRun = false ∧ s.dev.time.cnt < s.dev.rst.plrAt + s.dev.plrWaitTicks) := by
  refine ⟨?_, ?_, ?_, ?_, ?_, ?_⟩ <;> decide +kernel
end Resumes

end Sys2Proof.Tests
end

section
/-!
SUPPORT. Register writes: the word a write produces, what a dropped write marks, and what `writeReg` and `regWrite` do in each case.
-/
namespace Sys2Proof.Machine

/-! ### Values that a write stores (R7, R358) -/

/-- Taking away the bits that a number shares with a word leaves those that the word lacks. -/
theorem ofNat_sub_and (x : Nat) (w : Word) (hx : x < 2 ^ 32) :
    BitVec.ofNat 32 (x - (x &&& w.toNat)) = BitVec.ofNat 32 x &&& ~~~w := by
  have hsplit : (BitVec.ofNat 32 x &&& ~~~w) + (BitVec.ofNat 32 x &&& w) = BitVec.ofNat 32 x := by
    rw [BitVec.add_eq_or_of_and_eq_zero]
    · ext i hi
      cases hw : w[i] <;> simp [hw]
    · ext i hi
      cases hw : w[i] <;> simp [hw]
  rw [← BitVec.ofNat_sub_ofNat_of_le x (x &&& w.toNat) (Nat.lt_of_le_of_lt Nat.and_le_left hx) Nat.and_le_left, eq_comm]
  exact BitVec.eq_sub_iff_add_eq.2 (by simpa using hsplit)

/-- The word in a 32-bit RW field after a write through each of its four addresses. -/
theorem ofNat_fieldNew_rw (al seen held : Nat) (w : Word) (hs : seen < 2 ^ 32) :
    BitVec.ofNat 32 (fieldNew al .rw w.toNat seen held) =
      (let old := BitVec.ofNat 32 seen
       if al = 0 then w else if al = 1 then old ||| w else if al = 2 then old &&& ~~~w else old ^^^ w) := by
  unfold fieldNew
  dsimp only
  split
  · simp
  split
  · simp
  split
  · exact ofNat_sub_and seen w hs
  · simp

/-- Fields beside a stretch of bits leave it. -/
theorem bitsOf_foldl_setBits_ne (fs : List FldDef) (val : FldDef → Nat) (x lo n : Nat) (h : ∀ g ∈ fs, lo + n ≤ g.lo ∨ g.lo + g.w ≤ lo) :
    bitsOf (fs.foldl (fun y g => setBits y g.lo g.w (val g)) x) lo n = bitsOf x lo n := by
  induction fs generalizing x with
  | nil => rfl
  | cons g fs ih => rw [List.foldl_cons, ih _ (fun g' hg => h g' (by simp [hg])), bitsOf_setBits_ne _ _ _ _ _ _ (h g (by simp))]

/-- A field of the word that a write stores: what the write gives it, if no later field overlaps it. -/
theorem RegDef.bitsOf_newWord (r : RegDef) {f : FldDef} {pre post : List FldDef} (hr : r.flds = pre ++ f :: post)
    (hpost : ∀ g ∈ post, f.lo + f.w ≤ g.lo ∨ g.lo + g.w ≤ f.lo) (al v seen held : Nat) :
    bitsOf (r.newWord al v seen held) f.lo f.w =
      fieldNew al f.acc (bitsOf v f.lo f.w) (bitsOf seen f.lo f.w) (bitsOf held f.lo f.w) % 2 ^ f.w := by
  rw [RegDef.newWord, hr, List.foldl_append, List.foldl_cons]
  rw [bitsOf_foldl_setBits_ne post (fun g => fieldNew al g.acc (bitsOf v g.lo g.w) (bitsOf seen g.lo g.w) (bitsOf held g.lo g.w)) _ _ _ hpost,
    bitsOf_setBits_self]

/-- A comparator's period in the register list of TIME. -/
def cmpPer : RegDef := ⟨0x80C, [(64, 0x20)], 0, 0, 0, [⟨0, 32, .rw⟩]⟩

/-- STAT in the register list of TIME: REFLOSS is its bit 1. -/
def timeStat : RegDef := ⟨0x4, [], 0, 0, 0, [⟨0, 1, .ro⟩, ⟨1, 1, .w1c⟩, ⟨2, 29, .rsv⟩, ⟨31, 1, .w1c⟩]⟩

/-- The period after a write of its word. -/
theorem ofNat_newWord_cmpPer (al seen held : Nat) (w : Word) :
    BitVec.ofNat 32 (bitsOf (cmpPer.newWord al w.toNat seen held) 0 32) =
      (let old := BitVec.ofNat 32 (bitsOf seen 0 32)
       if al = 0 then w else if al = 1 then old ||| w else if al = 2 then old &&& ~~~w else old ^^^ w) := by
  have hw : bitsOf w.toNat 0 32 = w.toNat := by simpa [bitsOf] using w.isLt
  have hnew : bitsOf (cmpPer.newWord al w.toNat seen held) 0 32 =
      fieldNew al .rw (bitsOf w.toNat 0 32) (bitsOf seen 0 32) (bitsOf held 0 32) % 2 ^ 32 :=
    cmpPer.bitsOf_newWord (f := ⟨0, 32, .rw⟩) (pre := []) (post := []) rfl (by simp) al w.toNat seen held
  have hmod (n : Nat) : BitVec.ofNat 32 (n % 2 ^ 32) = BitVec.ofNat 32 n := by
    apply BitVec.eq_of_toNat_eq
    simp
  rw [hnew, hmod, hw, ofNat_fieldNew_rw _ _ _ _ (bitsOf_lt _ _ _)]

theorem bitsOf_toNat_bit (w : Word) (n : Nat) : bitsOf w.toNat n 1 = (w.getLsbD n).toNat := by
  rw [BitVec.getLsbD, bitsOf, Nat.testBit, Nat.and_comm, Nat.and_one_is_mod]
  rcases Nat.mod_two_eq_zero_or_one (w.toNat >>> n) with h | h <;> simp [h]

/-- A 1 written at the base and SET addresses clears REFLOSS, and nothing else touches it. -/
theorem bitsOf_newWord_refloss (al seen held : Nat) (w : Word) :
    bitsOf (timeStat.newWord al w.toNat seen held) 1 1 = if al < 2 ∧ w.getLsbD 1 = true then 0 else bitsOf held 1 1 := by
  have hnew : bitsOf (timeStat.newWord al w.toNat seen held) 1 1 =
      fieldNew al .w1c (bitsOf w.toNat 1 1) (bitsOf seen 1 1) (bitsOf held 1 1) % 2 ^ 1 :=
    timeStat.bitsOf_newWord (f := ⟨1, 1, .w1c⟩) (pre := [⟨0, 1, .ro⟩]) (post := [⟨2, 29, .rsv⟩, ⟨31, 1, .w1c⟩]) rfl (by simp) al w.toNat seen held
  have hheld : bitsOf held 1 1 = 0 ∨ bitsOf held 1 1 = 1 := by
    have := bitsOf_lt held 1 1
    omega
  rw [hnew, bitsOf_toNat_bit]
  by_cases hal : al < 2
  · have hle : al ≤ 1 := by omega
    cases hw : w.getLsbD 1 <;> rcases hheld with h | h <;> simp [fieldNew, hal, hle, h]
  · have hle : ¬ al ≤ 1 := by omega
    rcases hheld with h | h <;> simp [fieldNew, hal, hle, h]

/-! ### Dropped writes (R3, R364, R510) -/

/-- Only the listed register words differ. -/
def Dev.WordsOnly (l : List Nat) (d d' : Dev) : Prop := { d' with regs := d.regs } = d ∧ ∀ a, a ∉ l → d'.rw a = d.rw a

theorem Dev.WordsOnly.refl (l : List Nat) (d : Dev) : d.WordsOnly l d := ⟨rfl, fun _ _ => rfl⟩

theorem Dev.WordsOnly.trans {l : List Nat} {d x y : Dev} (h : d.WordsOnly l x) (h' : x.WordsOnly l y) : d.WordsOnly l y := by
  refine ⟨?_, fun a ha => (h'.2 a ha).trans (h.2 a ha)⟩
  rw [← h.1, ← h'.1]

theorem Dev.WordsOnly.mono {l l' : List Nat} {d x : Dev} (h : d.WordsOnly l x) (hl : l ⊆ l') : d.WordsOnly l' x :=
  ⟨h.1, fun a ha => h.2 a (fun hm => ha (hl hm))⟩

/-- A field of a listed word may be written. -/
theorem Dev.WordsOnly.wf {l : List Nat} {d x : Dev} (h : d.WordsOnly l x) (g : F) (v k i j : Nat) (hg : g.addr k i j ∈ l) :
    d.WordsOnly l (x.wf g v k i j) := by
  refine ⟨h.1, fun a ha => ?_⟩
  have hne : a ≠ g.addr k i j := fun e => ha (e ▸ hg)
  rw [Dev.rw_wf_ne _ _ hne, h.2 a ha]

/-- An event raised after that: the rest of the device stays. -/
theorem Dev.WordsOnly.raise_frame {l : List Nat} {d x : Dev} (h : d.WordsOnly l x) (c i : Nat) (data : List Byte) :
    { x.raise c i data with regs := d.regs, evt := d.evt, frz := d.frz, snaps := d.snaps } = d := by
  obtain ⟨r, e, n, z, hx⟩ := (Dev.evtOnly_raise c i data x).1
  rw [hx]
  exact congrArg (fun y : Dev => { y with evt := d.evt, frz := d.frz, snaps := d.snaps }) h.1

theorem Dev.WordsOnly.raise_units {l : List Nat} {d x : Dev} (h : d.WordsOnly l x) (c i : Nat) (data : List Byte) :
    (x.raise c i data).units = d.units := by
  rw [Dev.raise_units, ← h.1]

theorem Dev.WordsOnly.raise_raises {l : List Nat} {d x : Dev} (h : d.WordsOnly l x) (c i : Nat) (data : List Byte) :
    Raises c i d (x.raise c i data) := by
  have he : x.evt = d.evt := by rw [← h.1]
  exact ⟨x, data, he, rfl⟩

/-- The flags and addresses that SYS keeps are no words of the recorder. -/
theorem Dev.raise_rf_sys (c i : Nat) (data : List Byte) (d : Dev) (f : F) (hf : f.addr 0 0 0 < 0x10000) :
    (d.raise c i data).rf f = d.rf f :=
  Dev.raise_rf _ _ _ _ _ _ _ _ (by omega) (by omega) (by omega)

/-- A write is dropped: listed register words change, WIGN_ANY is set, and REG_WIGN is raised (R510). -/
def Dev.DropsWrite (l : List Nat) (d d' : Dev) : Prop :=
  ∃ x data, d' = x.raise Ev.REG_WIGN 0 data ∧ d.WordsOnly l x ∧ x.rf R.SYS_STAT_WIGN_ANY = 1

theorem Dev.wignAny_drops (w : Writer) (a : Nat) (d : Dev) : d.DropsWrite [0x4, 0x1C] (d.wignAny w a) := by
  have h : d.WordsOnly [0x4, 0x1C] (if d.flag R.SYS_STAT_WIGN_ANY then d else d.wf R.SYS_WIGN_ADDR_ADDR a) := by
    split
    · exact .refl _ d
    · exact (Dev.WordsOnly.refl _ d).wf _ _ _ _ _ (by decide)
  exact ⟨_, _, rfl, h.wf R.SYS_STAT_WIGN_ANY 1 0 0 0 (by decide), Dev.rf_wf_self _ _ _ _ _ _⟩

/-- A write dropped by a block sets the block's WIGN too (R364). -/
theorem Dev.wign_drops (b : Blk) (k : Nat) (w : Writer) (a : Nat) (d : Dev) :
    d.DropsWrite [0x4, 0x1C, b.base + k * 0x10000 + 4] (d.wign b k w a) := by
  obtain ⟨x, data, hx, h, hany⟩ := Dev.wignAny_drops w a (d.wf ⟨b, 4, 0, 0, 31, 1⟩ 1 k)
  have haddr : F.addr ⟨b, 4, 0, 0, 31, 1⟩ k 0 0 = b.base + k * 0x10000 + 4 := by simp [F.addr]
  have h0 := (Dev.WordsOnly.refl [0x4, 0x1C, b.base + k * 0x10000 + 4] d).wf ⟨b, 4, 0, 0, 31, 1⟩ 1 k 0 0 (by rw [haddr]; simp)
  exact ⟨x, data, hx, h0.trans (h.mono (by simp)), hany⟩

namespace Dev.DropsWrite
variable {l : List Nat} {d d' : Dev} (h : d.DropsWrite l d')
include h

theorem any : d'.rf R.SYS_STAT_WIGN_ANY = 1 := by
  obtain ⟨x, data, rfl, -, hany⟩ := h
  rw [Dev.raise_rf_sys _ _ _ _ _ (by decide), hany]

theorem raises : Raises Ev.REG_WIGN 0 d d' := by
  obtain ⟨x, data, rfl, hw, -⟩ := h
  exact hw.raise_raises _ _ _

theorem units : d'.units = d.units := by
  obtain ⟨x, data, rfl, hw, -⟩ := h
  exact hw.raise_units _ _ _

theorem time : d'.time = d.time := by
  obtain ⟨x, data, rfl, hw, -⟩ := h
  rw [Dev.raise_time, ← hw.1]

/-- A word beside the listed ones and those of acquisition and recorder stays. -/
theorem rw_eq {a : Nat} (hl : a ∉ l) (ha : a / 0x10000 ≠ 0xA) (he : a / 0x10000 ≠ 6) : d'.rw a = d.rw a := by
  obtain ⟨x, data, rfl, hw, -⟩ := h
  rw [Dev.raise_rw _ _ _ _ (by omega) (by omega) (by omega), hw.2 a hl]

end Dev.DropsWrite

/-- The first access to an absent block marks SYS, with its address, and raises REG_ABSENT. -/
theorem Dev.absentAcc_first (w : Writer) (a : Nat) (d : Dev) (h : d.flag R.SYS_STAT_ABSENT_ACC = false) :
    ∃ x data, d.absentAcc w a = x.raise Ev.REG_ABSENT 0 data ∧ d.WordsOnly [0x4, 0x18] x ∧
      x.rf R.SYS_STAT_ABSENT_ACC = 1 ∧ x.rf R.SYS_ABSENT_ADDR_ADDR = a % 2 ^ 32 := by
  refine ⟨(d.wf R.SYS_ABSENT_ADDR_ADDR a).wf R.SYS_STAT_ABSENT_ACC 1, _, by rw [Dev.absentAcc, h]; rfl, ?_, ?_, ?_⟩
  · exact ((Dev.WordsOnly.refl _ d).wf _ _ _ _ _ (by decide)).wf _ _ _ _ _ (by decide)
  · exact Dev.rf_wf_self _ _ _ _ _ _
  · rw [Dev.rf_wf_word _ _ (by decide)]; exact Dev.rf_wf_self _ _ _ _ _ _

/-- A later one changes nothing. -/
theorem Dev.absentAcc_later (w : Writer) (a : Nat) (d : Dev) (h : d.flag R.SYS_STAT_ABSENT_ACC = true) : d.absentAcc w a = d := by
  rw [Dev.absentAcc, if_pos h]

/-- After any access to an absent block ABSENT_ACC is set, and beside registers, recorder, snapshots and freezes nothing has changed. -/
theorem Dev.absentAcc_marks (w : Writer) (a : Nat) (d : Dev) :
    (d.absentAcc w a).rf R.SYS_STAT_ABSENT_ACC = 1 ∧
      { d.absentAcc w a with regs := d.regs, evt := d.evt, frz := d.frz, snaps := d.snaps } = d := by
  cases h : d.flag R.SYS_STAT_ABSENT_ACC with
  | false =>
    obtain ⟨x, data, hx, hw, hacc, -⟩ := Dev.absentAcc_first w a d h
    rw [hx, Dev.raise_rf_sys _ _ _ _ _ (by decide)]
    exact ⟨hacc, hw.raise_frame _ _ _⟩
  | true =>
    have hlt : d.rf R.SYS_STAT_ABSENT_ACC < 2 := bitsOf_lt _ _ _
    have hne : d.rf R.SYS_STAT_ABSENT_ACC ≠ 0 := by simpa [Dev.flag] using h
    rw [Dev.absentAcc_later _ _ _ h]
    exact ⟨by omega, rfl⟩

/-- A command that is a register write acts as one on a block that the variant lacks (R3). -/
theorem does_regCmd_absent {c : Instr} {s : State} {g : F} {k i : Nat} {f : Dev → Dev} (h : exec c s = s.regCmd g k i true f)
    (hp : s.dev.present g.blk ≤ k) (hk : k < g.blk.count) :
    Does c s (fun d => d.rf R.SYS_STAT_ABSENT_ACC = 1 ∧
      { d with regs := s.dev.regs, evt := s.dev.evt, frz := s.dev.frz, snaps := s.dev.snaps } = s.dev) :=
  does_on (f := Dev.absentAcc .core (g.addr k i 0)) (by simp [h, State.regCmd, hk, Nat.not_lt.2 hp]) (Dev.absentAcc_marks _ _ _)

/-! ### The cases of a register write (R355, R361, R364) -/

section WriteReg
variable {wr : Writer} {a : Nat} {v : Word} {m : List Host.Cell} {d : Dev} {b : Blk} {k : Nat}

/-- An address that names no word of any block. -/
theorem Dev.writeReg_nowhere (h : a % 4 ≠ 0 ∨ blkAt a = none) : d.writeReg wr a v m = (d, eyBAD_ADDR) := by
  unfold Dev.writeReg
  rcases h with h | h
  · rw [if_pos h]
  · rw [h]; exact ite_self _

variable {al o : Nat} (ha : a % 4 = 0) (hb : blkAt a = some (b, k)) (hal : aliasOf b (a % 0x10000) = (al, o))
include ha hb hal

/-- A block or a word that the variant lacks. -/
theorem Dev.writeReg_absent (h : d.present b ≤ k ∨ d.absentWord b o = true) : d.writeReg wr a v m = (d.absentAcc wr a, eyABSENT) := by
  simp only [Dev.writeReg, ha, hb, hal, ne_eq, not_true_eq_false, if_false]
  rw [if_pos (by simpa using h)]

variable (hk : k < d.present b) (hw : d.absentWord b o = false)
include hk hw

/-- An empty offset. -/
theorem Dev.writeReg_empty (h : d.wordAt b k o = none) : d.writeReg wr a v m = (d.wign b k wr a, eyIGNORED) := by
  simp [Dev.writeReg, ha, hb, hal, hw, Nat.not_le.2 hk, h]

/-- A write from outside that would change an RWL field of an enabled block. -/
theorem Dev.writeReg_locked {r : RegDef} (hu : wr = .eyelet ∨ wr = .core) (hf : d.wordFree (b.base + k * 0x10000 + o))
    (hr : d.wordAt b k o = some r) (hen : bitAt (d.peek (b.base + k * 0x10000)) 0 = true)
    (hc : r.changesRwl (r.newWord al v.toNat (d.peek (b.base + k * 0x10000 + o)) (d.rw (b.base + k * 0x10000 + o)))
      (d.peek (b.base + k * 0x10000 + o)) = true) :
    d.writeReg wr a v m = (d.wign b k wr a, eyIGNORED) := by
  obtain ⟨hf1, hf2⟩ := hf
  rcases hu with rfl | rfl <;> simp [Dev.writeReg, Dev.mayWrite, ha, hb, hal, hw, Nat.not_le.2 hk, hr, hf1, hf2, hen, hc]

end WriteReg

/-! ### Words of TIME -/

/-- The 64 KiB of TIME (R356). -/
theorem blkAt_time (off : Nat) (h : off < 0x10000) : blkAt (0x20000 + off) = some (.time, 0) := by
  have hfind : Blk.all.find? (fun c => decide (c.base ≤ 0x20000 + off) && decide (0x20000 + off < c.base + c.count * 0x10000)) =
      some .time := by
    rw [Blk.all, List.find?_cons_of_neg (by simp [Blk.base, Blk.count]; omega), List.find?_cons_of_neg (by simp [Blk.base, Blk.count]),
      List.find?_cons_of_pos (by simp [Blk.base, Blk.count]; omega)]
  have hdiv : (0x20000 + off - Blk.base .time) / 0x10000 = 0 := Nat.div_eq_of_lt (by simp only [Blk.base]; omega)
  rw [blkAt, hfind]
  exact congrArg (fun n => some (Blk.time, n)) hdiv

/-- Every register of TIME but the version word stands where the block's list has it. -/
theorem Dev.wordAt_time (d : Dev) (k : Nat) {off : Nat} (h : off ≠ 0xC) : d.wordAt .time k off = (findReg regsTIME off).map (·.1) := by
  simp [Dev.wordAt, h, Dev.absentWord, Blk.regs]

/-- The period of a comparator is one RW field. -/
theorem findReg_cmpPer (i : Nat) (hi : i < 64) : findReg regsTIME (0x80C + 0x20 * i) = some (cmpPer, i, 0) := by
  have h : ∀ n : Fin 64, findReg regsTIME (0x80C + 0x20 * n.val) = some (cmpPer, n.val, 0) := by decide
  exact h ⟨i, hi⟩

/-- The period reads as stored. -/
theorem Dev.peek_cmpPer (d : Dev) (i : Nat) (hi : i < 64) : d.peek (0x2080C + 0x20 * i) = d.rw (0x2080C + 0x20 * i) := by
  have hb : blkAt (0x2080C + 0x20 * i) = some (.time, 0) := by
    rw [show 0x2080C + 0x20 * i = 0x20000 + (0x80C + 0x20 * i) by omega]
    exact blkAt_time _ (by omega)
  have hoff : (0x2080C + 0x20 * i) % 0x10000 = 0x80C + 0x20 * i := by omega
  have hin : (0x80C + 0x20 * i) % 0x20 = 0xC := by omega
  rw [Dev.peek, hb]
  simp only [hoff]
  rw [if_neg (by omega), Dev.viewTime, if_neg (by omega), if_neg (by omega), if_neg (by omega), if_neg (by omega), if_pos (by omega), hin]
  rfl

theorem RegDef.changesRwl_of_none {r : RegDef} (h : r.hasRwl = false) (new seen : Nat) : r.changesRwl new seen = false := by
  simp_all [RegDef.hasRwl, RegDef.changesRwl]

/-- The registers of TIME whose write does more than store the word (R97, R98, R100, R111). -/
def timeActs : List Nat :=
  [R.TIME_VCTL.off, R.TIME_INC_HI.off, R.TIME_SET_NS_HI.off, R.TIME_STEP_HI.off, R.TIME_SNAP_CTL.off, R.TIME_CMPi_HI.off, R.TIME_CMPi_CTL.off]

theorem Dev.writeTime_stores {r : RegDef} (h : r.off ∉ timeActs) (x : RegWr) (d : Dev) :
    d.writeTime r x = (d.ww (0x20000 + x.off) x.new, eyOK) := by
  simp only [timeActs, List.mem_cons, List.not_mem_nil, or_false, not_or] at h
  simp [Dev.writeTime, h, Blk.base]

/-- A service core's write of a word of TIME that no unit writes, has no RWL field and only stores. -/
theorem Dev.writeReg_time {d : Dev} {r : RegDef} {off al : Nat} (w : Word) (m : List Host.Cell) (ho : off < 0x4000) (h4 : off % 4 = 0)
    (hal : al < 4) (hr : d.wordAt .time 0 off = some r) (hf : d.wordFree (0x20000 + off)) (hrwl : r.hasRwl = false) (hact : r.off ∉ timeActs)
    (hcov : covers .time r = false) :
    d.writeReg .core (0x20000 + off + 0x4000 * al) w m =
      ((d.ww (0x20000 + off) (r.newWord al w.toNat (d.peek (0x20000 + off)) (d.rw (0x20000 + off)))).noteWr .core (0x20000 + off), eyOK) := by
  obtain ⟨hf1, hf2⟩ := hf
  have hb : blkAt (0x20000 + off + 0x4000 * al) = some (.time, 0) := by
    rw [Nat.add_assoc]
    exact blkAt_time _ (by omega)
  have hmod : (0x20000 + off + 0x4000 * al) % 0x10000 = off + 0x4000 * al := by omega
  have halias : aliasOf .time (off + 0x4000 * al) = (al, off) := by
    simp only [aliasOf, reduceCtorEq, false_and, if_false, Prod.mk.injEq]
    omega
  have hword : (0x20000 + off + 0x4000 * al) % 4 = 0 := by omega
  simp [Dev.writeReg, hword, hb, hmod, halias, Dev.present, Blk.count, Dev.absentWord, hr, Dev.mayWrite, Blk.base, hf1, hf2,
    RegDef.changesRwl_of_none hrwl, Dev.writeWord, Dev.writeTime_stores hact, hcov]

/-! ### A register write arrives -/

theorem does_registerWrite {wr : Writer} {a : Nat} {w : Word} {s : State} {P : Dev → Prop} (h : P (s.dev.regWrite wr a w s.mem)) :
    Does (.registerWrite wr a w) s P := does_on (f := Dev.regWrite wr a w s.mem) rfl h

/-- Eyelet's writes, and a service core's outside the tile window, commit as register writes. -/
theorem Dev.regWrite_outside {wr : Writer} {a : Nat} {d : Dev} (w : Word) (m : List Host.Cell)
    (h : wr = .eyelet ∨ wr = .core ∧ ¬ (a % 4 = 0 ∧ d.inTiles a 4 = true)) : d.regWrite wr a w m = (d.writeReg wr a w m).1 := by
  rcases h with rfl | ⟨rfl, h⟩
  · rfl
  · exact if_neg h

/-- A word of the tile window goes to the tile that holds it. -/
theorem Dev.regWrite_tile {a : Nat} {d : Dev} (w : Word) (m : List Host.Cell) (h4 : a % 4 = 0) (hin : d.inTiles a 4 = true) :
    d.regWrite .core a w m = (Dev.tilePut .core a (leBytes 4 w.toNat) (d, [], false) ((a - 0x10000000) / 1024)).1 :=
  if_pos ⟨h4, hin⟩

/-- An aligned word of the window lies whole in its tile. -/
theorem tileAddr_word {a : Nat} {d : Dev} (h4 : a % 4 = 0) (hin : d.inTiles a 4 = true) :
    tileAddr ((a - 0x10000000) / 1024) ≤ a ∧ a + 4 ≤ tileAddr ((a - 0x10000000) / 1024 + 1) := by
  simp only [Dev.inTiles, Bool.and_eq_true, decide_eq_true_eq] at hin
  simp only [tileAddr]
  omega

/-- A unit's write is staged while the unit works. -/
theorem Dev.regWrite_unit {u a : Nat} {w : Word} {m : List Host.Cell} {d : Dev} (hr : (d.un u).run = 1) (hd : (d.un u).done = false) :
    d.regWrite (.unit u) a w m = d.unUp u (fun x => { x with regw := x.regw ++ [(a, w.toNat)] }) := by
  simp [Dev.regWrite, hr, hd]

theorem Dev.regWrite_unit_idle {u a : Nat} {w : Word} {m : List Host.Cell} {d : Dev} (h : (d.un u).run ≠ 1 ∨ (d.un u).done = true) :
    d.regWrite (.unit u) a w m = d := by
  rcases h with h | h <;> simp [Dev.regWrite, h]

@[simp] theorem Dev.un_unUp_self (u : Nat) (f : UnitSt → UnitSt) (d : Dev) : (d.unUp u f).un u = f (d.un u) := by
  simp [Dev.un, Dev.unUp, Dev.setUn]

theorem Dev.un_unUp_ne {u v : Nat} (f : UnitSt → UnitSt) (d : Dev) (h : v ≠ u) : (d.unUp u f).un v = d.un v := by
  simp [Dev.un, Dev.unUp, Dev.setUn, Tbl.getD_put_ne _ _ _ h]

/-- The bytes of a string at its own offset and length. -/
theorem slice_all (bs : List Byte) : slice bs 0 bs.length = bs := by simp [slice]

@[simp] theorem length_leBytes (n x : Nat) : (leBytes n x).length = n := by
  induction n generalizing x with
  | zero => rfl
  | succ n ih => simp [leBytes, ih]

/-- The unit that owns the tile as WRITABLE holds the word (R78). -/
theorem Dev.tilePut_held {a v : Nat} {d : Dev} {x : TileMap} (w : Word) (h4 : a % 4 = 0) (hin : d.inTiles a 4 = true)
    (ho : d.tileOwner ((a - 0x10000000) / 1024) = some (v, x)) (hx : x.cls = 2) :
    (Dev.tilePut .core a (leBytes 4 w.toNat) (d, [], false) ((a - 0x10000000) / 1024)).1 =
      d.unUp v (fun y => { y with deferW := y.deferW ++ [(none, (List.range 4).map (fun i =>
        (1024 * x.lidx + (a - tileAddr ((a - 0x10000000) / 1024)) + i, nth 0 (leBytes 4 w.toNat) i)))] }) := by
  obtain ⟨hlo, hhi⟩ := tileAddr_word h4 hin
  have hpart : slice (leBytes 4 w.toNat) 0 4 = leBytes 4 w.toNat := by simpa using slice_all (leBytes 4 w.toNat)
  simp [Dev.tilePut, ho, hx, Nat.max_eq_left hlo, Nat.min_eq_left hhi, hpart]

/-- Elsewhere the word is dropped with WIGN_ANY (R78). -/
theorem Dev.tilePut_drops {a : Nat} {d : Dev} (w : Word) (ho : ∀ v x, d.tileOwner ((a - 0x10000000) / 1024) = some (v, x) → x.cls ≠ 2) :
    ∃ l, d.DropsWrite l (Dev.tilePut .core a (leBytes 4 w.toNat) (d, [], false) ((a - 0x10000000) / 1024)).1 := by
  cases hown : d.tileOwner ((a - 0x10000000) / 1024) with
  | none => exact ⟨_, by simpa [Dev.tilePut, hown] using Dev.wignAny_drops _ _ _⟩
  | some p => exact ⟨_, by simpa [Dev.tilePut, hown, ho p.1 p.2 hown] using Dev.wign_drops _ _ _ _ _⟩

/-! ### A service core's write of a word of TIME that only stores -/

theorem Dev.regWrite_time {d : Dev} {r : RegDef} {off al : Nat} (w : Word) (m : List Host.Cell) (ho : off < 0x4000) (h4 : off % 4 = 0)
    (hal : al < 4) (hr : d.wordAt .time 0 off = some r) (hf : d.wordFree (0x20000 + off)) (hrwl : r.hasRwl = false) (hact : r.off ∉ timeActs)
    (hcov : covers .time r = false) :
    d.regWrite .core (0x20000 + off + 0x4000 * al) w m =
      (d.ww (0x20000 + off) (r.newWord al w.toNat (d.peek (0x20000 + off)) (d.rw (0x20000 + off)))).noteWr .core (0x20000 + off) := by
  have hin : d.inTiles (0x20000 + off + 0x4000 * al) 4 = false := by
    rw [Dev.inTiles, decide_eq_false (by omega), Bool.false_and]
  rw [Dev.regWrite_outside w m (.inr ⟨rfl, by simp [hin]⟩), Dev.writeReg_time w m ho h4 hal hr hf hrwl hact hcov]

/-- What a stored and noted word leaves of the device. -/
theorem Dev.stored_frame (x v : Nat) (d : Dev) :
    (∀ a, a ≠ x → ((d.ww x v).noteWr .core x).rw a = d.rw a) ∧
      { (d.ww x v).noteWr .core x with regs := d.regs, outWr := d.outWr } = d :=
  ⟨fun _ ha => Dev.rw_ww_ne v d ha, rfl⟩

theorem Dev.stored_rf {f : F} {x i : Nat} (v : Nat) (d : Dev) (hx : f.addr 0 i 0 = x) :
    ((d.ww x v).noteWr .core x).rf f 0 i = bitsOf v f.lo f.w := by
  have hw : ((d.ww x v).noteWr .core x).rw x = v := Dev.rw_ww_self x v d
  rw [Dev.rf, hx, hw]

theorem addr_cmpPer (i : Nat) : R.TIME_CMPi_PER_PER.addr 0 i 0 = 0x2080C + 0x20 * i := by
  simp only [F.addr, R.TIME_CMPi_PER_PER, Blk.base]
  omega

/-- R7, R358: a comparator's period after a write through each of its four addresses. -/
theorem does_write_cmpPer (s : State) (i al : Nat) (w : Word) (hal : al < 4) (hi : i < 64) (hf : s.dev.wordFree (0x2080C + 0x20 * i)) :
    Does (.registerWrite .core (0x2080C + 0x20 * i + 0x4000 * al) w) s (fun d =>
      let old := BitVec.ofNat 32 (s.dev.rf R.TIME_CMPi_PER_PER 0 i)
      BitVec.ofNat 32 (d.rf R.TIME_CMPi_PER_PER 0 i) = (if al = 0 then w else if al = 1 then old ||| w else if al = 2 then old &&& ~~~w else old ^^^ w) ∧
      (∀ a, a ≠ 0x2080C + 0x20 * i → d.rw a = s.dev.rw a) ∧ { d with regs := s.dev.regs, outWr := s.dev.outWr } = s.dev) := by
  have hbase : 0x2080C + 0x20 * i = 0x20000 + (0x80C + 0x20 * i) := by omega
  have hr : s.dev.wordAt .time 0 (0x80C + 0x20 * i) = some cmpPer := by
    rw [Dev.wordAt_time _ _ (by omega), findReg_cmpPer i hi]
    rfl
  have hrun := Dev.regWrite_time w s.mem (by omega) (by omega) hal hr (hbase ▸ hf) (by decide) (by decide) (by decide)
  rw [← hbase, Dev.peek_cmpPer _ _ hi] at hrun
  refine does_registerWrite ?_
  rw [hrun]
  refine ⟨?_, Dev.stored_frame _ _ _⟩
  rw [Dev.stored_rf _ _ (addr_cmpPer i), Dev.rf, addr_cmpPer]
  exact ofNat_newWord_cmpPer al _ _ w

/-- R7, R358: REFLOSS after a write through each of its word's four addresses. -/
theorem does_write_refloss (s : State) (al : Nat) (w : Word) (hal : al < 4) (hf : s.dev.wordFree 0x20004) :
    Does (.registerWrite .core (0x20004 + 0x4000 * al) w) s (fun d =>
      d.rf R.TIME_STAT_REFLOSS = (if al < 2 ∧ w.getLsbD 1 = true then 0 else s.dev.rf R.TIME_STAT_REFLOSS) ∧
      (∀ a, a ≠ 0x20004 → d.rw a = s.dev.rw a) ∧ { d with regs := s.dev.regs, outWr := s.dev.outWr } = s.dev) := by
  have hr : s.dev.wordAt .time 0 0x4 = some timeStat := by
    rw [Dev.wordAt_time _ _ (by omega)]
    rfl
  have hrun := Dev.regWrite_time w s.mem (by omega) (by omega) hal hr hf (by decide) (by decide) (by decide)
  refine does_registerWrite ?_
  rw [hrun]
  refine ⟨?_, Dev.stored_frame _ _ _⟩
  rw [Dev.stored_rf (f := R.TIME_STAT_REFLOSS) (x := 0x20000 + 0x4) _ _ rfl]
  exact bitsOf_newWord_refloss al _ _ w

end Sys2Proof.Machine

open Sys2Proof Sys2Proof.Machine

/-- Settles O30: each clause is one case of `regWrite`, `writeReg` or `regCmd`; a drop is read off `DropsWrite`, an access to an absent block off
`absentAcc`, and a stored word off `RegDef.bitsOf_newWord`. -/
theorem registerWrites : Obligations.RegisterWrites := by
  unfold Obligations.RegisterWrites
  refine ⟨fun s wr a u w => ⟨?tile, ?outside, ?staged, ?idle⟩, ?absent,
    fun s i al w hal => ⟨does_write_cmpPer s i al w hal, does_write_refloss s al w hal⟩⟩
  case tile =>
    intro h4 hin
    refine ⟨fun v x ho hx => does_registerWrite ?_, fun ho => does_registerWrite ?_⟩
    · rw [Dev.regWrite_tile w s.mem h4 hin, Dev.tilePut_held w h4 hin ho hx, Dev.un_unUp_self]
      exact ⟨rfl, fun y hy => Dev.un_unUp_ne _ _ hy, rfl⟩
    · obtain ⟨l, h⟩ := Dev.tilePut_drops w ho
      rw [Dev.regWrite_tile w s.mem h4 hin]
      exact ⟨h.any, h.units, h.raises⟩
  case outside =>
    intro hwr
    have hout : s.dev.regWrite wr a w s.mem = (s.dev.writeReg wr a w s.mem).1 := Dev.regWrite_outside w s.mem hwr
    have hu : wr = .eyelet ∨ wr = .core := hwr.imp_right And.left
    refine ⟨fun h => does_registerWrite ?_, fun b k h4 hb habs => ⟨fun hacc => does_registerWrite ?_, fun hacc => does_registerWrite ?_⟩,
      fun b k h4 hb hk hw => ?_⟩
    · rw [hout, Dev.writeReg_nowhere h]
    · obtain ⟨x, data, hx, hx0, hflag, haddr⟩ := Dev.absentAcc_first wr a s.dev hacc
      rw [hout, Dev.writeReg_absent h4 hb rfl habs, hx, Dev.raise_rf_sys _ _ _ _ _ (by decide), Dev.raise_rf_sys _ _ _ _ _ (by decide)]
      exact ⟨hflag, haddr, hx0.raise_units _ _ _, hx0.raise_raises _ _ _⟩
    · rw [hout, Dev.writeReg_absent h4 hb rfl habs, Dev.absentAcc_later _ _ _ hacc]
    · intro al base h
      have hrun : s.dev.regWrite wr a w s.mem = s.dev.wign b k wr a := by
        rw [hout]
        rcases h with hempty | ⟨hf, hen, r, hr, hc⟩
        · rw [Dev.writeReg_empty h4 hb rfl hk hw hempty]
        · rw [Dev.writeReg_locked h4 hb rfl hk hw hu hf hr hen hc]
      have hd := Dev.wign_drops b k wr a s.dev
      refine does_registerWrite ?_
      rw [hrun]
      exact ⟨hd.any, hd.units, hd.time, fun h1 h2 h3 h5 => hd.rw_eq (by simp [h1, h2, h3]) h5.1 h5.2, hd.raises⟩
  case staged =>
    intro hrun hdone
    refine does_registerWrite ?_
    rw [Dev.regWrite_unit hrun hdone, Dev.un_unUp_self]
    exact ⟨rfl, fun v hv => Dev.un_unUp_ne _ _ hv, rfl⟩
  case idle =>
    intro h
    exact does_registerWrite (Dev.regWrite_unit_idle h)
  case absent =>
    intro s c b k hp hk hmem
    simp only [List.mem_cons, List.not_mem_nil, or_false, Prod.mk.injEq] at hmem
    rcases hmem with ⟨rfl, rfl⟩ | ⟨rfl, rfl⟩ | ⟨rfl, rfl⟩ | ⟨rfl, rfl⟩ | ⟨rfl, rfl⟩ | ⟨rfl, rfl⟩ | ⟨rfl, rfl⟩ | ⟨rfl, rfl⟩ | ⟨rfl, rfl⟩ |
      ⟨rfl, rfl⟩ | ⟨rfl, rfl⟩ | ⟨rfl, rfl⟩ | ⟨rfl, rfl⟩ | ⟨rfl, rfl⟩ | ⟨rfl, rfl⟩ | ⟨rfl, rfl⟩ | ⟨rfl, rfl⟩ | ⟨rfl, rfl⟩ <;>
      exact does_regCmd_absent rfl hp hk
end

section
/-!
SUPPORT. Units and tiles: what an update leaves of each unit's state, what an upset of tile memory can change (R77), and the words of a unit's
block that nothing else writes.
-/
namespace Sys2Proof.Machine

/-! ### A unit's state after each update -/

theorem Dev.un_of_units {d d' : Dev} (h : d'.units = d.units) (v : Nat) : d'.un v = d.un v := by rw [Dev.un, h, Dev.un]

@[simp] theorem Dev.un_wf (g : F) (x : Nat) (d : Dev) (k i j v : Nat) : (d.wf g x k i j).un v = d.un v :=
  Dev.un_of_units (Dev.wf_units g x d k i j) v

@[simp] theorem Dev.un_bump (g : F) (x : Nat) (d : Dev) (k i j v : Nat) : (d.bump g x k i j).un v = d.un v :=
  Dev.un_of_units (Dev.bump_units g x d k i j) v

@[simp] theorem Dev.un_raise (c i : Nat) (data : List Byte) (d : Dev) (v : Nat) : (d.raise c i data).un v = d.un v :=
  Dev.un_of_units (Dev.raise_units c i data d) v

@[simp] theorem Dev.un_setUn_self (u : Nat) (x : UnitSt) (d : Dev) : (d.setUn u x).un u = x := Tbl.getD_put_self _ _ _ _

theorem Dev.un_setUn_ne {u v : Nat} (x : UnitSt) (d : Dev) (h : v ≠ u) : (d.setUn u x).un v = d.un v := Tbl.getD_put_ne _ _ _ h

@[simp] theorem Dev.un_setRun_self (u r : Nat) (d : Dev) : (d.setRun u r).un u = { d.un u with run := r } :=
  Dev.un_unUp_self u (fun x => { x with run := r }) d

theorem Dev.un_setRun_ne {u v : Nat} (r : Nat) (d : Dev) (h : v ≠ u) : (d.setRun u r).un v = d.un v :=
  Dev.un_unUp_ne (fun x => { x with run := r }) d h

theorem Dev.ckpt_unUp (u : Nat) (f : UnitSt → UnitSt) (d : Dev) : (d.unUp u f).ckpt = d.ckpt := rfl

theorem Dev.ckpt_setRun (u r : Nat) (d : Dev) : (d.setRun u r).ckpt = d.ckpt := rfl

theorem Dev.ckpt_slack (u : Nat) (x : Int) (d : Dev) : (d.slack u x).ckpt = d.ckpt := by
  unfold Dev.slack
  dsimp only
  split <;> rfl

@[simp] theorem Dev.un_slack (u : Nat) (x : Int) (d : Dev) (v : Nat) : (d.slack u x).un v = d.un v := by
  unfold Dev.slack
  dsimp only
  split <;> rfl

@[simp] theorem Dev.un_decodeUnit (u : Nat) (m : List Host.Cell) (d : Dev) (v : Nat) : (d.decodeUnit u m).un v = d.un v :=
  Dev.un_of_units rfl v

@[simp] theorem Dev.un_tileWrite (t : Nat) (bs : List Byte) (b : Bool) (dm : Dev × List Host.Cell) (v : Nat) :
    (Dev.tileWrite t bs b dm).1.un v = dm.1.un v := by
  cases b <;> rfl

/-! ### Words of a unit's block -/

theorem addr_unit {g : F} (hb : g.blk = .unit) (u : Nat) : g.addr u 0 0 = 0x1000000 + u * 0x10000 + g.off := by
  simp only [F.addr, hb, Blk.base]
  omega

/-- An event writes no word of a unit's block. -/
theorem Dev.rf_raise_unit {g : F} (hb : g.blk = .unit) (c i : Nat) (data : List Byte) (d : Dev) (u : Nat) :
    (d.raise c i data).rf g u = d.rf g u := by
  have ha := addr_unit hb u
  exact Dev.raise_rf _ _ _ _ _ _ _ _ (by omega) (by omega) (by omega)

/-- A field in another word of the block stays. -/
theorem Dev.rf_wf_unit {f g : F} (hf : f.blk = .unit) (hg : g.blk = .unit) (h : g.off ≠ f.off) (x : Nat) (d : Dev) (u : Nat) :
    (d.wf f x u).rf g u = d.rf g u := by
  refine Dev.rf_wf_word _ _ ?_
  rw [addr_unit hf, addr_unit hg]
  omega

@[simp] theorem Dev.rf_setRun_run (u r : Nat) (d : Dev) : (d.setRun u r).rf R.UNIT_STAT_RUN u = r % 4 := Dev.rf_wf_self _ _ _ _ _ _

/-- UNIT.STAT.TILE_ERR lies beside RUN. -/
theorem Dev.rf_setRun_tileErr (u r : Nat) (d : Dev) : (d.setRun u r).rf R.UNIT_STAT_TILE_ERR u = d.rf R.UNIT_STAT_TILE_ERR u :=
  Dev.rf_wf_beside _ _ rfl (by decide)

theorem ofS_lt (i : Int) : ofS 32 i < 2 ^ 32 := by
  unfold ofS
  omega

/-- SLACK_LAST after the slack was recorded. -/
theorem Dev.rf_slack_last (u : Nat) (x : Int) (d : Dev) :
    (d.slack u x).rf R.UNIT_SLACK_LAST_SLACK u = ofS 32 (clampI (-(2 ^ 31)) (2 ^ 31 - 1) x) := by
  have hself (y : Nat) (e : Dev) (hy : y < 2 ^ 32) : (e.wf R.UNIT_SLACK_LAST_SLACK y u).rf R.UNIT_SLACK_LAST_SLACK u = y := by
    rw [Dev.rf_wf_self]
    exact Nat.mod_eq_of_lt hy
  unfold Dev.slack
  dsimp only
  split
  · rw [Dev.rf_wf_unit rfl rfl (by decide), hself _ _ (ofS_lt _)]
  · exact hself _ _ (ofS_lt _)

/-- The slack that a completion of the unit records now. -/
def Dev.slackNow (d : Dev) (u : Nat) : Int := d.tickOf (d.cadNs (d.un u).cad ((d.un u).cycle + 1)) - d.time.cnt

/-! ### Upsets of tile memory (R77) -/

/-- What an upset can change: descriptors, and a unit's content, the same on both sides where both sides agreed. -/
structure Dev.Upset (d d' : Dev) : Prop where
  frame : { d' with last := d.last, units := d.units } = d
  un_eq : ∀ v, d'.un v = { d.un v with base := (d'.un v).base, work := (d'.un v).work }
  agree : ∀ v, (d.un v).base = (d.un v).work → (d'.un v).base = (d'.un v).work

theorem Dev.Upset.refl (d : Dev) : d.Upset d := ⟨rfl, fun _ => rfl, fun _ => id⟩

theorem Dev.Upset.trans {a b c : Dev} (h : a.Upset b) (h' : b.Upset c) : a.Upset c where
  frame := (congrArg (fun x : Dev => { x with last := a.last, units := a.units }) h'.frame).trans h.frame
  un_eq v := (h'.un_eq v).trans (congrArg (fun x : UnitSt => { x with base := (c.un v).base, work := (c.un v).work }) (h.un_eq v))
  agree v he := h'.agree v (h.agree v he)

theorem Dev.Upset.decodeUnit (u : Nat) (m : List Host.Cell) (d : Dev) : d.Upset (d.decodeUnit u m) := ⟨rfl, fun _ => rfl, fun _ => id⟩

theorem Dev.Upset.content (u : Nat) (sem : UnitSem) (d : Dev) : d.Upset (d.unUp u (fun x => { x with base := sem, work := sem })) := by
  have hself : (d.unUp u (fun x => { x with base := sem, work := sem })).un u = { d.un u with base := sem, work := sem } := Dev.un_unUp_self _ _ _
  refine ⟨rfl, fun v => ?_, fun v he => ?_⟩ <;> by_cases hv : v = u
  · rw [hv, hself]
  · rw [Dev.un_unUp_ne _ _ hv]
  · rw [hv, hself]
  · rw [Dev.un_unUp_ne _ _ hv, he]

/-- Bits that the environment strikes change nothing else. -/
theorem Dev.struck_upset (flips : List (Nat × Byte)) (d : Dev) (m : List Host.Cell) : d.Upset (Dev.struck flips (d, m)).1 := by
  refine foldl_keeps (fun x => d.Upset x) _ _ d (.refl d) (fun y e _ hy => hy.trans ?_)
  dsimp only
  split
  · exact .content _ _ _
  · exact .decodeUnit _ _ _

/-- Without an upset nothing changes: no tile is hit. -/
theorem Dev.struck_nil (d : Dev) (m : List Host.Cell) : (Dev.struck [] (d, m)).1 = d := by
  simp [Dev.struck]

namespace Dev.Upset
variable {d d' : Dev} (h : d.Upset d')
include h

theorem regs : d'.regs = d.regs := (congrArg Dev.regs h.frame :)

theorem time : d'.time = d.time := (congrArg Dev.time h.frame :)

theorem late (v : Nat) : (d'.un v).late = (d.un v).late := (congrArg UnitSt.late (h.un_eq v) :)

theorem scanning (v : Nat) : (d'.un v).scanning = (d.un v).scanning := (congrArg UnitSt.scanning (h.un_eq v) :)

/-- The ticks to the end of a unit's cycle are the same. -/
theorem slackNow (v : Nat) : d'.slackNow v = d.slackNow v := by
  simp only [Dev.slackNow, congrArg UnitSt.cad (h.un_eq v), congrArg UnitSt.cycle (h.un_eq v), Dev.tickOf, Dev.cadNs, Dev.vw, h.time,
    Dev.rf_regs h.regs]

end Dev.Upset

end Sys2Proof.Machine
end

section
/-!
SUPPORT. Completions (R31, R67, R77, R80): what a commit leaves of its unit and what keeps that, a late completion, and a shadow check that fails.
-/
namespace Sys2Proof.Machine

/-! ### The copy of a cycle goes to the partner (R389) -/

/-- Only the link, its stamps and what was sent differ. -/
def Dev.LinkOnly (d d' : Dev) : Prop := ∃ x s n, d' = { d with dupx := x, stamps := s, sent := n }

theorem Dev.LinkOnly.refl (d : Dev) : d.LinkOnly d := ⟨d.dupx, d.stamps, d.sent, rfl⟩

theorem Dev.LinkOnly.trans {a b c : Dev} (h : a.LinkOnly b) (h' : b.LinkOnly c) : a.LinkOnly c := by
  obtain ⟨x, s, n, rfl⟩ := h
  obtain ⟨x', s', n', rfl⟩ := h'
  exact ⟨x', s', n', rfl⟩

theorem Dev.linkOnly_dxUp (f : DupxSt → DupxSt) (d : Dev) : d.LinkOnly (d.dxUp f) := ⟨f d.dupx, d.stamps, d.sent, rfl⟩

theorem Dev.linkOnly_weltSend (typ : Nat) (full : Bool) (tag : Nat) (pay : List Byte) (d : Dev) : d.LinkOnly (d.weltSend typ full tag pay) := by
  unfold Dev.weltSend
  split
  · exact .refl d
  · exact ⟨_, _, _, rfl⟩

theorem Dev.linkOnly_weltSends {α : Type} (typ : Nat) (tag : α → Nat) (pay : α → List Byte) (l : List α) (d : Dev) :
    d.LinkOnly (l.foldl (fun d a => d.weltSend typ false (tag a) (pay a)) d) :=
  foldl_keeps (fun y => d.LinkOnly y) _ l d (.refl d) (fun y _ _ hy => hy.trans (Dev.linkOnly_weltSend _ _ _ _ y))

theorem Dev.linkOnly_copySend (n : Nat) (d : Dev) : d.LinkOnly (d.copySend n) := by
  unfold Dev.copySend
  split
  · exact .refl d
  · split
    · exact .refl d
    · exact (((Dev.linkOnly_weltSends _ _ _ _ d).trans (Dev.linkOnly_weltSends _ _ _ _ _)).trans (Dev.linkOnly_weltSend _ _ _ _ _)).trans
        (Dev.linkOnly_dxUp _ _)

/-! ### A commit and what keeps it -/

/-- A unit that has committed its cycle: idle and done, its content the one it worked on, no overrun counted, its slack recorded. -/
structure Dev.Committed (u slack : Nat) (d : Dev) : Prop where
  run : (d.un u).run = 0
  done : (d.un u).done = true
  content : (d.un u).base = (d.un u).work
  consec : d.rf R.UNIT_OVR_CNT_CONSEC u = 0
  slackLast : d.rf R.UNIT_SLACK_LAST_SLACK u = slack

namespace Dev.Committed
variable {u c : Nat} {d : Dev} (h : d.Committed u c)
include h

theorem of_eq {d' : Dev} (hu : d'.units = d.units) (hr : ∀ g : F, g.blk = .unit → (g.off = 0x20 ∨ g.off = 0x28) → d'.rf g u = d.rf g u) :
    d'.Committed u c := by
  have hun := Dev.un_of_units hu u
  refine ⟨?_, ?_, ?_, ?_, ?_⟩
  · rw [hun, h.run]
  · rw [hun, h.done]
  · rw [hun, h.content]
  · rw [hr R.UNIT_OVR_CNT_CONSEC rfl (.inr rfl), h.consec]
  · rw [hr R.UNIT_SLACK_LAST_SLACK rfl (.inl rfl), h.slackLast]

/-- A change beside units and registers. -/
theorem beside {d' : Dev} (hu : d'.units = d.units) (hr : d'.regs = d.regs) : d'.Committed u c :=
  h.of_eq hu (fun _ _ _ => Dev.rf_regs hr _ _ _ _)

/-- A field of another word of the unit's block. -/
theorem wf_unit {f : F} (hf : f.blk = .unit) (h1 : f.off ≠ 0x20) (h2 : f.off ≠ 0x28) (x : Nat) : (d.wf f x u).Committed u c :=
  h.of_eq rfl (fun g hg ho => Dev.rf_wf_unit hf hg (by omega) x d u)

/-- A field of a block of the rim. -/
theorem wf_rim {f : F} {k i j : Nat} (ha : f.addr k i j < 0x1000000) (x : Nat) : (d.wf f x k i j).Committed u c := by
  refine h.of_eq rfl (fun g hg _ => Dev.rf_wf_word _ _ ?_)
  rw [addr_unit hg]
  omega

theorem raise (code i : Nat) (data : List Byte) : (d.raise code i data).Committed u c :=
  h.of_eq (Dev.raise_units _ _ _ _) (fun _ hg _ => Dev.rf_raise_unit hg _ _ _ _ _)

theorem setRgn (g : Nat) (r : RgnSt) : (d.setRgn g r).Committed u c := h.beside rfl rfl

theorem countOps (g n : Nat) : (d.countOps g n).Committed u c := h.setRgn _ _

theorem planTrigger (g : Nat) : (d.planTrigger g).Committed u c := by
  unfold Dev.planTrigger
  dsimp only
  split
  · exact (h.setRgn _ _).wf_rim (by decide) _
  · exact h.setRgn _ _

theorem slackAlarm (x : Int) : (d.slackAlarm u x).Committed u c := by
  have hp := (h.raise Ev.SLACK_ALARM u (leBytes 2 u ++ leBytes 8 (d.un u).cycle ++ leBytes 4 (ofS 32 x))).planTrigger (rgnOf u)
  unfold Dev.slackAlarm
  dsimp only
  split
  · exact hp.setRgn _ _
  · exact hp

/-- The scan counter stands in the lead segment's content on both sides alike. -/
theorem scanCount (p : Nat) : (d.scanCount p).Committed u c := by
  by_cases hu : u = d.lead p
  · obtain ⟨f, hself⟩ : ∃ f, (d.scanCount p).un u = UnitSt.both f (d.un u) := by
      subst hu
      exact ⟨_, Dev.un_unUp_self _ _ _⟩
    refine ⟨?_, ?_, ?_, h.consec, h.slackLast⟩
    · rw [hself]; exact h.run
    · rw [hself]; exact h.done
    · rw [hself]; exact congrArg _ h.content
  · have hne : (d.scanCount p).un u = d.un u := Dev.un_unUp_ne _ _ hu
    refine ⟨?_, ?_, ?_, h.consec, h.slackLast⟩
    · rw [hne, h.run]
    · rw [hne, h.done]
    · rw [hne, h.content]

theorem copySend (n : Nat) : (d.copySend n).Committed u c := by
  obtain ⟨x, s, e, hc⟩ := Dev.linkOnly_copySend n d
  rw [hc]
  exact h.beside rfl rfl

/-- A step that is taken or not. -/
theorem ite {p : Prop} [Decidable p] {d' : Dev} (h' : d'.Committed u c) : (if p then d' else d).Committed u c := by
  split
  · exact h'
  · exact h

end Dev.Committed

/-! ### One completion -/

/-- A cadence unit in a cycle that is not done. -/
structure Dev.AtWork (d : Dev) (u : Nat) : Prop where
  run : (d.un u).run = 1
  event : (d.un u).event = false
  done : (d.un u).done = false

theorem Dev.Upset.atWork {d d' : Dev} {u : Nat} (h : d.Upset d') (hw : d.AtWork u) : d'.AtWork u := by
  have hu := h.un_eq u
  refine ⟨?_, ?_, ?_⟩
  · rw [hu]; exact hw.run
  · rw [hu]; exact hw.event
  · rw [hu]; exact hw.done

/-- The end of a cycle in time: nothing is missing and no scan is left. -/
structure Dev.Ends (d : Dev) (u : Nat) : Prop where
  late : (d.un u).late = false
  ready : d.ready u = true
  scanEnded : (d.un u).scanning = false

/-- What a late completion leaves: nothing of the cycle but its slack. -/
def Dev.dropLate (u : Nat) (d : Dev) : Dev :=
  ((d.setUn u { d.un u with late := false, staged := [], regw := [], scan := none, work := (d.un u).base }).setRun u 0).slack u (d.slackNow u)

/-- The unit is idle with the content it had before the cycle. -/
structure Dev.LateDropped (u : Nat) (d d' : Dev) : Prop where
  run : (d'.un u).run = 0
  base : (d'.un u).base = (d.un u).base
  work : (d'.un u).work = (d.un u).base
  late : (d'.un u).late = false
  done : (d'.un u).done = (d.un u).done
  slackLast : d'.rf R.UNIT_SLACK_LAST_SLACK u = ofS 32 (clampI (-(2 ^ 31)) (2 ^ 31 - 1) (d.slackNow u))
  others : ∀ v, v ≠ u → d'.un v = d.un v

theorem Dev.dropLate_drops (u : Nat) (d : Dev) : Dev.LateDropped u d (d.dropLate u) := by
  have hun : (d.dropLate u).un u =
      { d.un u with late := false, staged := [], regw := [], scan := none, work := (d.un u).base, run := 0 } := by
    rw [Dev.dropLate, Dev.un_slack, Dev.un_setRun_self, Dev.un_setUn_self]
  refine ⟨?_, ?_, ?_, ?_, ?_, Dev.rf_slack_last _ _ _, fun v hv => ?_⟩
  · rw [hun]
  · rw [hun]
  · rw [hun]
  · rw [hun]
  · rw [hun]
  · rw [Dev.dropLate, Dev.un_slack, Dev.un_setRun_ne _ _ hv, Dev.un_setUn_ne _ _ hv]

/-- An evaluation ends with the content that the unit worked on committed. -/
theorem Dev.evalUnit_commits (u : Nat) (tiles : List (Nat × List Byte)) (dm : Dev × List Host.Cell) :
    ((Dev.evalUnit u tiles dm).1.un u).done = true ∧
      ((Dev.evalUnit u tiles dm).1.un u).base = ((Dev.evalUnit u tiles dm).1.un u).work := by
  unfold Dev.evalUnit
  dsimp only
  rw [Dev.un_setUn_self]
  exact ⟨rfl, rfl⟩

/-- The commit's own words: RUN, the slack and the run of overruns. -/
theorem Dev.Committed.recorded {u : Nat} {x : Dev} (hdone : (x.un u).done = true) (hcontent : (x.un u).base = (x.un u).work) (i : Int) :
    Dev.Committed u (ofS 32 (clampI (-(2 ^ 31)) (2 ^ 31 - 1) i)) (((x.setRun u 0).slack u i).wf R.UNIT_OVR_CNT_CONSEC 0 u) where
  run := by simp
  done := by simpa using hdone
  content := by simpa using hcontent
  consec := Dev.rf_wf_self _ _ _ _ _ _
  slackLast := by rw [Dev.rf_wf_unit rfl rfl (by decide), Dev.rf_slack_last]

section
variable {d : Dev} {u : Nat} {tiles : List (Nat × List Byte)} {m : List Host.Cell} (hw : d.AtWork u)
include hw

/-- R31, R67: a completion in time commits. -/
theorem Dev.complete_commits (he : d.Ends u) :
    Dev.Committed u (ofS 32 (clampI (-(2 ^ 31)) (2 ^ 31 - 1) (d.slackNow u))) (Dev.complete u tiles (d, m)).1 := by
  obtain ⟨hdone, hcontent⟩ := Dev.evalUnit_commits u tiles (d, m)
  have hwork : ¬ ((d.un u).run ≠ 1 ∨ (d.un u).event = true ∨ (d.un u).done = true) := by simp [hw.run, hw.event, hw.done]
  have hlate : ¬ (d.un u).late = true := by simp [he.late]
  have hends : ¬ (!d.ready u || (d.un u).scanning) = true := by simp [he.ready, he.scanEnded]
  unfold Dev.complete
  extract_lets d1 x s _ scanned r d3 g d4 d5 d6 d7 p d8
  have h4 := (Dev.Committed.recorded hdone hcontent s).countOps g (d3.proofN u)
  have h5 : d5.Committed u _ := h4.wf_unit rfl (by decide) (by decide) _
  have h6 : d6.Committed u _ := h5.ite (h5.wf_unit rfl (by decide) (by decide) _)
  have h7 : d7.Committed u _ := h6.ite (h6.slackAlarm s)
  have h8 : d8.Committed u _ := h7.ite (h7.scanCount p)
  rw [if_neg hwork, if_neg hlate, if_neg hends]
  exact h8.ite (h8.beside rfl rfl)

/-- R80: a late completion drops what the unit worked on. -/
theorem Dev.complete_late (hl : (d.un u).late = true) : Dev.complete u tiles (d, m) = (d.dropLate u, m) := by
  simp [Dev.complete, Dev.dropLate, Dev.slackNow, hw.run, hw.event, hw.done, hl]

end

/-! ### A shadow check that fails (R77, R79) -/

/-- The restore of a unit's tile begins: the cycle is dropped, the content stays. -/
structure Dev.RestoreBegun (u : Nat) (d d' : Dev) : Prop where
  run : (d'.un u).run = 3
  restoring : (d'.un u).restoring = true
  base : (d'.un u).base = (d.un u).base
  work : (d'.un u).work = (d.un u).base
  done : (d'.un u).done = false
  tileErr : d'.rf R.UNIT_STAT_TILE_ERR u = 1
  others : ∀ v, v ≠ u → d'.un v = d.un v
  ckpt : d'.ckpt = d.ckpt

/-- A tile's first failure begins its restore. -/
theorem Dev.tokenFail_first {t : TileMap} (ha : t.again = false) (u : Nat) (d : Dev) : Dev.RestoreBegun u d (d.tokenFail u t) := by
  unfold Dev.tokenFail
  extract_lets c i d1 d2 d3 restore mark
  have hun (v : Nat) : d2.un v = d.un v := by simp [d2, d1]
  have hc : d2.ckpt = d.ckpt := by simp [d2, d1]
  have h3 : d3.un u = { d.un u with staged := [], regw := [], scan := none, skipped := true, done := false, late := false, work := (d.un u).base } := by
    rw [← hun u]
    exact Dev.un_unUp_self _ _ _
  have hr : d2.rf R.UNIT_STAT_TILE_ERR u = 1 := by
    rw [Dev.rf_raise_unit rfl]
    exact Dev.rf_wf_self _ _ _ _ _ _
  rw [if_pos (by simp [ha])]
  refine ⟨?_, ?_, ?_, ?_, ?_, ?_, fun v hv => ?_, ?_⟩
  · simp [restore]
  · simp [restore]
  · simp [restore, mark, h3]
  · simp [restore, mark, h3]
  · simp [restore, mark, h3]
  · rw [Dev.rf_setRun_tileErr]
    exact hr
  · simp only [restore, mark, d3, Dev.un_setRun_ne _ _ hv, Dev.un_unUp_ne _ _ hv, hun]
  · rw [Dev.ckpt_setRun, Dev.ckpt_unUp, Dev.ckpt_unUp, Dev.ckpt_unUp, hc]

/-- R77: so does the first failure of the check of a shadow, whatever becomes of a unit's item. -/
theorem Dev.shadowFail_first {t : TileMap} (ha : t.again = false) (u : Nat) (d : Dev) : Dev.RestoreBegun u d (d.shadowFail u t) := by
  have key (x : Dev) (hb : (x.un u).base = (d.un u).base) (ho : ∀ v, v ≠ u → x.un v = d.un v) (hc : x.ckpt = d.ckpt) :
      Dev.RestoreBegun u d (x.tokenFail u t) := by
    have hx := Dev.tokenFail_first ha u x
    exact ⟨hx.run, hx.restoring, hx.base.trans hb, hx.work.trans hb, hx.done, hx.tileErr, fun v hv => (hx.others v hv).trans (ho v hv),
      hx.ckpt.trans hc⟩
  unfold Dev.shadowFail
  dsimp only
  split
  · exact key d rfl (fun _ _ => rfl) rfl
  · split
    · refine key _ ?_ (fun v hv => Dev.un_unUp_ne _ _ hv) rfl
      rw [Dev.un_unUp_self]
      rfl
    · exact key d rfl (fun _ _ => rfl) rfl

/-! ### UNIT_COMPLETION -/

section
variable {d : Dev} {u : Nat} {tiles : List (Nat × List Byte)} {m : List Host.Cell}

/-- Where the shadows pass their check the unit completes; a copy of the cycle that starts goes to the partner. -/
theorem Dev.unitDone_passes (hb : d.shadowBad m u tiles = none) :
    Dev.unitDone u tiles (d, m) = Dev.complete u tiles (d, m) ∨
      ((Dev.complete u tiles (d, m)).1.ckpt ≠ d.ckpt ∧ Dev.unitDone u tiles (d, m) =
        ((Dev.complete u tiles (d, m)).1.copySend (d.un u).cad, (Dev.complete u tiles (d, m)).2)) := by
  unfold Dev.unitDone
  simp only [hb, ite_self]
  split
  · next h => exact .inr ⟨fun hc => h (by rw [hc]), rfl⟩
  · exact .inl rfl

/-- R80: after a pass a late unit drops its cycle; memory stays. -/
theorem Dev.unitDone_late (hw : d.AtWork u) (hl : (d.un u).late = true) (hb : d.shadowBad m u tiles = none) :
    Dev.unitDone u tiles (d, m) = (d.dropLate u, m) := by
  rcases Dev.unitDone_passes hb with h | ⟨hne, -⟩
  · rw [h, Dev.complete_late hw hl]
  · rw [Dev.complete_late hw hl] at hne
    exact absurd (Dev.ckpt_slack _ _ _) hne

/-- R31, R67: after a pass a unit whose cycle ends in time commits it. -/
theorem Dev.unitDone_commits (hw : d.AtWork u) (he : d.Ends u) (hb : d.shadowBad m u tiles = none) :
    Dev.Committed u (ofS 32 (clampI (-(2 ^ 31)) (2 ^ 31 - 1) (d.slackNow u))) (Dev.unitDone u tiles (d, m)).1 := by
  have hc := Dev.complete_commits (tiles := tiles) (m := m) hw he
  rcases Dev.unitDone_passes hb with h | ⟨-, h⟩
  · rwa [h]
  · rw [h]
    exact hc.copySend _

/-- Where a shadow fails its check the unit does not complete. -/
theorem Dev.unitDone_fails {t : TileMap} (hw : d.AtWork u) (he : d.Ends u ∨ (d.un u).late = true) (hb : d.shadowBad m u tiles = some t)
    (ha : t.again = false) : Dev.unitDone u tiles (d, m) = (d.shadowFail u t, m) := by
  have hchecks : ((d.un u).late || (d.ready u && !(d.un u).scanning)) = true := by
    rcases he with he | hl
    · simp [he.ready, he.scanEnded]
    · simp [hl]
  simp [Dev.unitDone, hw.run, hw.event, hw.done, hchecks, hb, (Dev.shadowFail_first ha u d).ckpt]

end

/-- A completion runs on what the environment has left of the tiles. -/
theorem does_unitCompletion {s : State} {u : Nat} (hu : u < s.dev.nUnits) (tiles : List (Nat × List Byte)) (flips : List (Nat × Byte))
    {P : Dev → List Host.Cell → Prop}
    (h : P (Dev.unitDone u tiles ((Dev.struck flips (s.dev, s.mem)).1, s.dev.strike flips s.mem)).1
      (Dev.unitDone u tiles ((Dev.struck flips (s.dev, s.mem)).1, s.dev.strike flips s.mem)).2) :
    DoesMem (.unitCompletion u tiles flips) s P :=
  does_onMem (f := fun d m => Dev.unitDone u tiles (Dev.struck flips (d, m))) (if_pos hu) h

end Sys2Proof.Machine

open Sys2Proof Sys2Proof.Machine

/-- Settles O11: an upset leaves the unit at work with the same slack, so the completion is one of three: a commit, which every later operation
of the completion keeps, the drop of a late cycle, or the begin of a restore. -/
theorem completionCommits : Obligations.CompletionCommits := by
  unfold Obligations.CompletionCommits
  intro s u tiles flips hu hrun hevent hdone slack d0 m0 ends
  have hup : s.dev.Upset d0 := Dev.struck_upset flips s.dev s.mem
  have hw : d0.AtWork u := hup.atWork ⟨hrun, hevent, hdone⟩
  have hslack : d0.slackNow u = slack := hup.slackNow u
  have hquiet : flips = [] → d0 = s.dev := by
    rintro rfl
    exact Dev.struck_nil s.dev s.mem
  have hends (h : ends) : d0.Ends u := by
    obtain ⟨hl, hready, hscan⟩ := h
    exact ⟨(hup.late u).trans hl, hready, (hup.scanning u).trans hscan⟩
  have hdoes (P : Dev → List Host.Cell → Prop) (h : P (Dev.unitDone u tiles (d0, m0)).1 (Dev.unitDone u tiles (d0, m0)).2) :
      DoesMem (.unitCompletion u tiles flips) s P := does_unitCompletion hu tiles flips h
  clear_value slack d0 m0
  refine ⟨fun he hb => hdoes _ ?commits, fun hl hb => hdoes _ ?late, hquiet, fun t hx hb ha => hdoes _ ?fails⟩
  case commits =>
    have hc := Dev.unitDone_commits hw (hends he) hb
    rw [hslack] at hc
    exact ⟨hc.run, hc.done, hc.content, hc.consec, hc.slackLast⟩
  case late =>
    have hd := Dev.dropLate_drops u d0
    rw [Dev.unitDone_late hw ((hup.late u).trans hl) hb, ← hslack]
    exact ⟨rfl, hd.run, hd.base, hd.work, hd.late, hd.done.trans hw.done, hd.slackLast, hd.others⟩
  case fails =>
    have hf := Dev.shadowFail_first ha u d0
    rw [Dev.unitDone_fails hw (hx.imp hends (hup.late u).trans) hb ha]
    exact ⟨rfl, hf.run, hf.restoring, hf.base, hf.work, hf.done, hf.tileErr, hf.others⟩
end

section
/-!
SUPPORT. Checkpoints, restores, held tile-window writes and CLRSTAT (R35, R78, R79, R90).
-/
namespace Sys2Proof.Machine

/-! ### Checkpoints (R35) -/

/-- A complete checkpoint is that of the later cycle. -/
@[simp] theorem Ckpt.merge_k (old : Option Ckpt) (c : Ckpt) : (Ckpt.merge old c).k = c.k := by
  cases old <;> rfl

/-- A copy that becomes complete: nothing is pending, the cycle is the copied one, units stay. -/
theorem Dev.ckptComplete_pend {n : Nat} {d : Dev} {c : Ckpt} (m : List Host.Cell) (hn : n ≠ 8) (hp : (Tbl.getD {} d.ckpt n).pend = some c) :
    (Tbl.getD {} (d.ckptComplete n m).ckpt n).pend = none ∧
      (Tbl.getD {} (d.ckptComplete n m).ckpt n).complete.map Ckpt.k = some c.k ∧ (d.ckptComplete n m).units = d.units := by
  unfold Dev.ckptComplete
  simp only [hp]
  refine ⟨?_, ?_, ?_⟩
  · rw [Tbl.getD_upd_ne _ _ _ hn, Tbl.getD_put_self]
  · rw [Tbl.getD_upd_ne _ _ _ hn, Tbl.getD_put_self]
    simp
  · refine foldl_const Dev.units _ _ d (fun y t => ?_)
    split
    · split <;> rfl
    · rfl

/-! ### Restores (R79) -/

/-- A restored unit is idle, with one content. -/
structure Dev.Restored (u : Nat) (d d' : Dev) : Prop where
  restoring : (d'.un u).restoring = false
  run : (d'.un u).run = 0
  stat : d'.rf R.UNIT_STAT_RUN u = 0
  content : (d'.un u).base = (d'.un u).work
  others : ∀ v, v ≠ u → d'.un v = d.un v

/-- R79: a restore's end is that, with an upset after it. -/
theorem Dev.restoreDone_restores {u : Nat} {d : Dev} (hr : (d.un u).restoring = true) (flips : List (Nat × Byte)) (m : List Host.Cell) :
    ∃ x y, Dev.Restored u d x ∧ Dev.restoreDone u flips (d, m) = Dev.struck flips (x, y) := by
  unfold Dev.restoreDone
  extract_lets x all ts r old sem e
  rw [if_neg (by simp [x, hr])]
  have hts (v : Nat) : r.1.un v = d.un v :=
    foldl_const (fun dm : Dev × List Host.Cell => dm.1.un v) _ ts (d, m) (fun dm t => Dev.un_tileWrite _ _ _ dm v)
  refine ⟨_, _, ⟨?_, ?_, Dev.rf_setRun_run _ _ _, ?_, fun v hv => ?_⟩, rfl⟩
  · simp [e]
  · simp [e]
  · simp [e]
  · rw [Dev.un_decodeUnit, Dev.un_setRun_ne _ _ hv, Dev.un_unUp_ne _ _ hv, hts]

/-! ### Held tile-window writes (R78) -/

/-- A change of the unit's content and of its WRITABLE tiles alone. -/
structure Dev.TileStep (u : Nat) (dm dm' : Dev × List Host.Cell) : Prop where
  un_eq : dm'.1.un u = { dm.1.un u with base := (dm'.1.un u).base, work := (dm'.1.un u).work }
  others : ∀ v, v ≠ u → dm'.1.un v = dm.1.un v
  mem : ∀ a, (∀ t ∈ (dm.1.un u).tiles, t.cls = 2 → a < tileAddr t.ptile ∨ tileAddr t.ptile + 1024 ≤ a) → memGet dm'.2 a = memGet dm.2 a

theorem Dev.TileStep.refl (u : Nat) (dm : Dev × List Host.Cell) : Dev.TileStep u dm dm := ⟨rfl, fun _ _ => rfl, fun _ _ => rfl⟩

theorem Dev.TileStep.trans {u : Nat} {a b c : Dev × List Host.Cell} (h : Dev.TileStep u a b) (h' : Dev.TileStep u b c) : Dev.TileStep u a c where
  un_eq := h'.un_eq.trans (congrArg (fun x : UnitSt => { x with base := (c.1.un u).base, work := (c.1.un u).work }) h.un_eq)
  others v hv := (h'.others v hv).trans (h.others v hv)
  mem x hx := by
    have htiles : (b.1.un u).tiles = (a.1.un u).tiles := (congrArg UnitSt.tiles h.un_eq :)
    rw [h'.mem x (by rwa [htiles]), h.mem x hx]

/-- An operation that leaves units, and memory outside the unit's WRITABLE tiles. -/
theorem Dev.TileStep.of_un {u : Nat} {dm dm' : Dev × List Host.Cell} (hu : ∀ v, dm'.1.un v = dm.1.un v)
    (hm : ∀ a, (∀ t ∈ (dm.1.un u).tiles, t.cls = 2 → a < tileAddr t.ptile ∨ tileAddr t.ptile + 1024 ≤ a) → memGet dm'.2 a = memGet dm.2 a) :
    Dev.TileStep u dm dm' := by
  refine ⟨?_, fun v _ => hu v, hm⟩
  rw [hu]

theorem Dev.TileStep.of_dev {u : Nat} {d d' : Dev} (hu : ∀ v, d'.un v = d.un v) (m : List Host.Cell) : Dev.TileStep u (d, m) (d', m) :=
  .of_un hu (fun _ _ => rfl)

/-- A unit's content changes. -/
theorem Dev.TileStep.content (u : Nat) (f : UnitSem → UnitSem) (dm : Dev × List Host.Cell) :
    Dev.TileStep u dm (dm.1.unUp u (UnitSt.both f), dm.2) := by
  refine ⟨?_, fun v hv => Dev.un_unUp_ne _ _ hv, fun _ _ => rfl⟩
  rw [Dev.un_unUp_self]
  rfl

/-- Bytes put one by one into a stretch leave the rest of memory. -/
theorem memGet_foldl_memSet_out {a : Nat} (b n : Nat) (ws : List (Nat × Byte)) (m : List Host.Cell) (hw : ∀ w ∈ ws, w.1 < n)
    (ha : a < b ∨ b + n ≤ a) : memGet (ws.foldl (fun m w => memSet (b + w.1) w.2 m) m) a = memGet m a := by
  refine foldl_keeps (fun x => memGet x a = memGet m a) _ ws m rfl (fun y w hmem hy => ?_)
  have := hw w hmem
  rw [memGet_memSet_ne _ _ (by omega), hy]

theorem length_memRead (m : List Host.Cell) (a n : Nat) : (memRead m a n).length = n := by simp [memRead]

/-- Bytes put into a tile and the tile written with its new tag: memory outside the tile stays. -/
theorem Dev.tileWrite_mem_out {t a : Nat} {bs : List Byte} (hl : bs.length = 1024) (dirty : Bool) (dm : Dev × List Host.Cell)
    (ha : a < tileAddr t ∨ tileAddr t + 1024 ≤ a) : memGet (Dev.tileWrite t bs dirty dm).2 a = memGet dm.2 a :=
  memGet_memPut_out _ _ _ _ (by omega)

/-- The bytes of one request for a tile lie in it. -/
theorem tilePart_lt {l : Nat} {ws : List (Nat × Byte)} {w : Nat × Byte} (h : w ∈ tilePart l ws) : w.1 < 1024 := by
  simp only [tilePart, List.mem_map] at h
  obtain ⟨x, -, rfl⟩ := h
  exact Nat.mod_lt _ (by decide)

/-- R78: a held write goes into a WRITABLE tile of its unit, or is dropped. -/
theorem Dev.tileApply_step (u : Nat) (ws : List (Nat × Byte)) (a : (Dev × List Host.Cell) × Bool) (l : Nat) :
    Dev.TileStep u a.1 (Dev.tileApply u ws a l).1 := by
  unfold Dev.tileApply
  extract_lets d m part coef cs g
  split
  · exact .refl _ _
  · next t ht =>
    obtain ⟨-, hcls⟩ : t.lidx = l ∧ t.cls = 2 := by simpa using List.find?_some ht
    have hmem : t ∈ (d.un u).tiles := List.mem_of_find?_eq_some ht
    split
    · exact .refl _ _
    · extract_lets m' dm
      split
      · have hun (v : Nat) : ((d.wign .unit u .eyelet (tileAddr t.ptile)).raise Ev.COEF_REFUSED u []).un v = d.un v :=
          (Dev.un_raise _ _ _ _ v).trans (Dev.un_of_units (Dev.wign_drops _ _ _ _ d).units v)
        exact .of_dev hun m
      · have hw : Dev.TileStep u (d, m) dm := by
          refine .of_un (fun v => Dev.un_tileWrite _ _ _ _ v) (fun x hx => ?_)
          have hout := hx t hmem hcls
          calc memGet dm.2 x
              = memGet m' x := Dev.tileWrite_mem_out (length_memRead _ _ _) _ _ hout
            _ = memGet m x := memGet_foldl_memSet_out _ _ _ _ (fun _ => tilePart_lt) hout
        exact hw.trans (.content u g dm)

theorem Dev.units_decodeUnit (u : Nat) (m : List Host.Cell) (d : Dev) : (d.decodeUnit u m).units = d.units := rfl

theorem Dev.answerOwed_units (o : Option (Nat × Nat)) (st : Nat) (p : List Byte) (d : Dev) : (d.answerOwed o st p).units = d.units := by
  cases o with
  | none => rfl
  | some q =>
    obtain ⟨e, t, n, h, -⟩ := Dev.respond_only q.1 q.2 st p d
    rw [Dev.answerOwed, h]

/-- R78: the oldest held write of an idle unit leaves the list; the rest is a change of the unit's content and WRITABLE tiles. -/
theorem Dev.tileWriteApply_step {u : Nat} {d : Dev} {e : Option (Nat × Nat) × List (Nat × Byte)} {rest : List (Option (Nat × Nat) × List (Nat × Byte))}
    (hd : (d.un u).deferW = e :: rest) (hr : (d.un u).run = 0) (m : List Host.Cell) :
    Dev.TileStep u (d.unUp u (fun x => { x with deferW := rest }), m) (Dev.tileWriteApply u (d, m)) := by
  unfold Dev.tileWriteApply
  extract_lets x
  have hx : x.deferW = e :: rest := hd
  split
  · next h => exact absurd (h.symm.trans hx) (List.cons_ne_nil _ _).symm
  · next o ws rest' h =>
    obtain ⟨-, rfl⟩ := List.cons.inj (h.symm.trans hx)
    rw [if_neg (not_not.2 hr)]
    extract_lets r y
    have hfold : Dev.TileStep u (d.unUp u (fun x => { x with deferW := rest' }), m) r.1 :=
      foldl_keeps (fun a : (Dev × List Host.Cell) × Bool => Dev.TileStep u (d.unUp u (fun x => { x with deferW := rest' }), m) a.1) _ _ _ (.refl _ _)
        (fun a l _ ha => ha.trans (Dev.tileApply_step u ws a l))
    have hy : y.units = r.1.1.units := by
      unfold y
      split
      · exact Dev.units_decodeUnit _ _ _
      · rfl
    clear_value r y
    refine hfold.trans ?_
    exact .of_dev (Dev.un_of_units ((Dev.answerOwed_units _ _ _ _).trans hy)) r.1.2

/-! ### CLRSTAT (R90) -/

theorem Dev.clrstat_words (u : Nat) (d : Dev) :
    (d.clrstat u).rf R.UNIT_SLACK_MIN_SLACK u = 0x7FFFFFFF ∧ (d.clrstat u).rf R.UNIT_OVR_CNT_TOTAL u = 0 ∧
      { d.clrstat u with regs := d.regs } = d := by
  refine ⟨?_, (Dev.rf_wf_self _ _ _ _ _ _).trans (Nat.zero_mod _), ?_⟩
  · rw [Dev.clrstat, Dev.rf_wf_unit rfl rfl (by decide), Dev.rf_wf_self]
    exact Nat.mod_eq_of_lt (by decide)
  · have h := (Dev.WordsOnly.refl [R.UNIT_SLACK_MIN_SLACK.addr u 0 0, R.UNIT_OVR_CNT_TOTAL.addr u 0 0] d).wf R.UNIT_SLACK_MIN_SLACK 0x7FFFFFFF u 0 0 (by simp)
    exact (h.wf R.UNIT_OVR_CNT_TOTAL 0 u 0 0 (by simp)).1

end Sys2Proof.Machine

open Sys2Proof Sys2Proof.Machine

/-- Settles O12: a clause per command, each read off what the command's operation leaves. -/
theorem tilesAndCheckpoints : Obligations.TilesAndCheckpoints := by
  unfold Obligations.TilesAndCheckpoints
  intro s n u flips
  refine ⟨fun c hn hp hack => ?checkpoint, fun hu hr => ?restore, fun e rest hu hd hr => ?held, fun hu => ?clrstat⟩
  case checkpoint =>
    refine does_on (f := Dev.copyDone n s.mem) (if_pos (decide_eq_true hn)) ?_
    have hcopy : s.dev.copyDone n s.mem = s.dev.ckptComplete n s.mem := by simp [Dev.copyDone, hack]
    rw [hcopy]
    exact Dev.ckptComplete_pend s.mem (by omega) hp
  case restore =>
    obtain ⟨x, y, hx, hrun⟩ := Dev.restoreDone_restores hr flips s.mem
    refine does_onMem (f := fun d m => Dev.restoreDone u flips (d, m)) (if_pos hu) ?_
    rw [hrun]
    have hup := Dev.struck_upset flips x y
    refine ⟨?_, ?_, ?_, hup.agree u hx.content, fun v hv => ⟨?_, ?_⟩⟩
    · rw [hup.un_eq u, hx.restoring]
    · rw [hup.un_eq u, hx.run]
    · rw [Dev.rf_regs hup.regs, hx.stat]
    · rw [hup.un_eq v, hx.others v hv]
    · rintro rfl
      rw [Dev.struck_nil, hx.others v hv]
  case held =>
    have hstep := Dev.tileWriteApply_step hd hr s.mem
    refine does_onMem (f := fun d m => Dev.tileWriteApply u (d, m)) (if_pos hu) ⟨?_, fun v hv => ?_, fun a ha => ?_⟩
    · rw [hstep.un_eq, Dev.un_unUp_self]
    · rw [hstep.others v hv, Dev.un_unUp_ne _ _ hv]
    · refine hstep.mem a ?_
      rwa [Dev.un_unUp_self]
  case clrstat =>
    refine does_on (f := Dev.clrstat u) ?_ (Dev.clrstat_words u s.dev)
    exact if_pos (decide_eq_true hu)
end

section
/-!
SUPPORT. Loads and slots: what the checks of a Last answer, what a load, verify or slot write reports, how an image command runs, and what a tick
leaves of a slot write in progress (R56 to R61).
-/
namespace Sys2Proof.Machine

/-! ### What the checks answer (R60, R376) -/

theorem LcSt.signResult_lt (l : LcSt) (im : List Byte) : l.signResult im < 256 := by
  have hauth : (if l.authentic im then ldOK else ldBAD_SIG) < 256 := by split <;> decide
  unfold LcSt.signResult
  dsimp only
  split
  · split
    · exact hauth
    · decide
  · decide
  · split
    · exact hauth
    · split <;> decide
  · split
    · exact hauth
    · decide
  · split <;> decide
  · decide

/-- The answer of the checks fits RESULT and STEP of SYS.LAST_STAT. -/
theorem Dev.lastCheck_lt (im : List Byte) (d : Dev) : (d.lastCheck im).1 < 256 ∧ (d.lastCheck im).2.1 < 16 := by
  unfold Dev.lastCheck
  split
  · decide
  split
  · decide
  split
  · exact ⟨LcSt.signResult_lt _ _, (by decide : 3 < 16)⟩
  split
  · decide
  dsimp only
  split
  · exact ⟨(by decide : ldMISSING_RES < 256), (by decide : 5 < 16)⟩
  split
  · decide
  split <;> decide

/-! ### What SYS.LAST_STAT reports (R62, R65) -/

theorem Dev.loadResult_false (res step : Nat) (d : Dev) :
    d.loadResult res step false = (d.wf R.SYS_LAST_STAT_RESULT res).wf R.SYS_LAST_STAT_STEP step := by simp [Dev.loadResult]

/-- The event of a failed load writes no word of SYS. -/
theorem Dev.rf_loadResult (f : F) (hf : f.addr 0 0 0 < 0x10000) (res step : Nat) (b : Bool) (d : Dev) :
    (d.loadResult res step b).rf f = ((d.wf R.SYS_LAST_STAT_RESULT res).wf R.SYS_LAST_STAT_STEP step).rf f := by
  unfold Dev.loadResult
  dsimp only
  split
  · exact Dev.raise_rf_sys _ _ _ _ _ hf
  · rfl

@[simp] theorem Dev.result_loadResult (res step : Nat) (b : Bool) (d : Dev) :
    (d.loadResult res step b).rf R.SYS_LAST_STAT_RESULT = res % 256 := by
  rw [Dev.rf_loadResult _ (by decide)]
  have hstep := Dev.rf_wf_beside (f := R.SYS_LAST_STAT_STEP) (g := R.SYS_LAST_STAT_RESULT) (k := 0) (i := 0) (j := 0) (k' := 0) (i' := 0) (j' := 0)
    step (d.wf R.SYS_LAST_STAT_RESULT res) rfl (by decide)
  rw [hstep]
  exact Dev.rf_wf_self R.SYS_LAST_STAT_RESULT res d 0 0 0

@[simp] theorem Dev.step_loadResult (res step : Nat) (b : Bool) (d : Dev) :
    (d.loadResult res step b).rf R.SYS_LAST_STAT_STEP = step % 16 := by
  rw [Dev.rf_loadResult _ (by decide)]
  exact Dev.rf_wf_self _ _ _ _ _ _

/-- STATE lies beside RESULT and STEP. -/
@[simp] theorem Dev.lastState_loadResult (res step : Nat) (b : Bool) (d : Dev) : (d.loadResult res step b).lastState = d.lastState := by
  rw [Dev.lastState, Dev.rf_loadResult _ (by decide)]
  rw [Dev.rf_wf_beside (f := R.SYS_LAST_STAT_STEP) (g := R.SYS_LAST_STAT_STATE) _ _ rfl (by decide),
    Dev.rf_wf_beside (f := R.SYS_LAST_STAT_RESULT) (g := R.SYS_LAST_STAT_STATE) _ _ rfl (by decide), Dev.lastState]

/-- SYS.MISSING is the one word that differs. -/
theorem Dev.missShow_words (m : Option (Nat × Nat)) (d : Dev) : d.WordsOnly [R.SYS_MISSING_RTYPE.addr 0 0 0] (d.missShow m) := by
  unfold Dev.missShow
  split <;> exact ((Dev.WordsOnly.refl _ d).wf _ _ _ _ _ (by decide)).wf _ _ _ _ _ (by decide)

@[simp] theorem Dev.lastState_missShow (m : Option (Nat × Nat)) (d : Dev) : (d.missShow m).lastState = d.lastState := by
  have h := (d.missShow_words m).2 (R.SYS_LAST_STAT_STATE.addr 0 0 0) (by decide)
  rw [Dev.lastState, Dev.rf, h]
  rfl

theorem Dev.loadBytes_of {d : Dev} {a b : Nat} (h1 : d.rf R.SYS_LAST_STAT_RESULT = a) (h2 : d.rf R.SYS_LAST_STAT_STEP = b) :
    d.loadBytes = [BitVec.ofNat 8 a, BitVec.ofNat 8 b] := by
  rw [Dev.loadBytes, h1, h2]

theorem Dev.loadAnswer_some (o : Nat × Nat) (d : Dev) : d.loadAnswer (some o) = d.respond o.1 o.2 eyOK d.loadBytes := rfl

/-! ### Image commands (R346) -/

theorem Dev.session_setParts (i op : Nat) (bs : List Byte) (d : Dev) : ∃ x, Tbl.get? (d.setParts i op bs).sessions i = some x :=
  ⟨_, Tbl.get?_put_self _ _ _⟩

/-- The final part of an admitted image command runs its operation on the whole image. -/
theorem does_eyeletImg {c : Instr} {s : State} {q : Req} {op p : Nat} {img : List Byte} {f : List Byte → Dev → Dev} {P : Dev → Prop}
    (h : exec c s = s.eyeletImg q op p img (fun im s => s.on (f im))) (ha : Admitted s q p) (hm : q.more = false)
    (hp : P (f (s.dev.parts q.sess op ++ img) (s.dev.setParts q.sess op []))) : Does c s P :=
  ⟨_, by rw [h, State.eyeletImg_final _ ha hm]; rfl, hp⟩

/-- So does one while no other image transfer, load or slot write is in progress (R61). -/
theorem does_imageCmd {c : Instr} {s : State} {q : Req} {op p : Nat} {img : List Byte} {f : List Byte → Dev → Dev} {P : Dev → Prop}
    (h : exec c s = s.imageCmd q op p img (fun im s => s.on (f im))) (ha : Admitted s q p) (hm : q.more = false)
    (hb : s.dev.imgBusy q op = false) (hp : P (f (s.dev.parts q.sess op ++ img) (s.dev.setParts q.sess op []))) : Does c s P := by
  refine does_eyeletImg (h.trans ?_) ha hm hp
  rw [State.imageCmd, State.eyelet_go _ ha, hb]
  rfl

/-! ### Verifies and slot writes begin (R56, R57, R61) -/

/-- What a verify leaves in the device and answers. -/
theorem Dev.verify_reports (q : Req) (c : Nat × Nat × Option (Nat × Nat)) (d : Dev) (h1 : c.1 < 256) (h2 : c.2.1 < 16)
    (hs : ∃ x, Tbl.get? d.sessions q.sess = some x) :
    let e := (d.missShow c.2.2).loadResult c.1 c.2.1 false
    let d' := e.answer q eyOK e.loadBytes
    d'.rf R.SYS_LAST_STAT_RESULT = c.1 ∧ d'.rf R.SYS_LAST_STAT_STEP = c.2.1 ∧
      Answered q eyOK [BitVec.ofNat 8 c.1, BitVec.ofNat 8 c.2.1] d' ∧ d'.lastState = d.lastState ∧
      { d' with regs := d.regs, sessions := d.sessions, sent := d.sent, eth := d.eth } = d := by
  intro e d'
  have hresult : e.rf R.SYS_LAST_STAT_RESULT = c.1 := (Dev.result_loadResult _ _ _ _).trans (Nat.mod_eq_of_lt h1)
  have hstep : e.rf R.SYS_LAST_STAT_STEP = c.2.1 := (Dev.step_loadResult _ _ _ _).trans (Nat.mod_eq_of_lt h2)
  have hframe : { e with regs := d.regs } = d := (d.missShow_words c.2.2).1
  have hregs : d'.regs = e.regs := (congrArg Dev.regs (Dev.answer_frame q eyOK e.loadBytes e) :)
  have hsess : e.sessions = d.sessions := (congrArg Dev.sessions hframe :)
  obtain ⟨x, hx⟩ := hs
  refine ⟨(Dev.rf_regs hregs _ _ _ _).trans hresult, (Dev.rf_regs hregs _ _ _ _).trans hstep, ?_, ?_, ?_⟩
  · have hans := Dev.answer_answered q eyOK e.loadBytes e x (by rw [hsess]; exact hx)
    rwa [← Dev.loadBytes_of hresult hstep]
  · calc d'.lastState = e.lastState := Dev.rf_regs hregs _ _ _ _
      _ = d.lastState := by simp [e]
  · calc { d' with regs := d.regs, sessions := d.sessions, sent := d.sent, eth := d.eth }
        = { e with regs := d.regs, sessions := d.sessions, sent := d.sent, eth := d.eth } :=
          congrArg (fun y : Dev => { y with regs := d.regs, sessions := d.sessions, sent := d.sent, eth := d.eth })
            (Dev.answer_frame q eyOK e.loadBytes e)
      _ = d := congrArg (fun y : Dev => { y with sessions := d.sessions, sent := d.sent, eth := d.eth }) hframe

/-- A request taken is in progress in its session. -/
theorem Dev.taken_inProg (q : Req) (d : Dev) : ∃ y, Tbl.get? (d.taken q).sessions q.sess = some y ∧ q.seq ∈ y.inProg :=
  ⟨_, Tbl.get?_put_self _ _ _, by simp⟩

section
variable {q : Req} {n : Nat} (im : List Byte) {d : Dev}

theorem Dev.slotPut_begins (h : ¬ (d.running = true ∧ d.rf R.SYS_LAST_STAT_SRC = n + 1)) :
    d.slotPut q n im = { d.taken q with slots := Tbl.put n { st := 1, image := im } d.slots,
                                        slotWr := some { slot := n, image := im, owe := (q.sess, q.seq) } } :=
  if_neg (by simpa using h)

/-- A write to the slot of the running Last changes no slot. -/
theorem Dev.slotPut_refused (h : d.running = true ∧ d.rf R.SYS_LAST_STAT_SRC = n + 1) (hs : ∃ x, Tbl.get? d.sessions q.sess = some x) :
    (d.slotPut q n im).slots = d.slots ∧ (d.slotPut q n im).slotWr = d.slotWr ∧ (d.slotPut q n im).rf R.SYS_LAST_STAT_RESULT = ldRUNNING ∧
      ∃ b, Answered q eyOK [BitVec.ofNat 8 ldRUNNING, b] (d.slotPut q n im) := by
  obtain ⟨x, hx⟩ := hs
  let e := (d.fresh 4).2.loadResult ldRUNNING (1 + (d.fresh 4).1 % 12) false
  have hput : d.slotPut q n im = e.answer q eyOK e.loadBytes := if_pos (by simpa using h)
  have hresult : e.rf R.SYS_LAST_STAT_RESULT = ldRUNNING := Dev.result_loadResult _ _ _ _
  have hframe := Dev.answer_frame q eyOK e.loadBytes e
  have hans := Dev.answer_answered q eyOK e.loadBytes e x hx
  have hbytes := Dev.loadBytes_of hresult rfl
  rw [hput]
  refine ⟨(congrArg Dev.slots hframe :), (congrArg Dev.slotWr hframe :), (Dev.rf_regs (congrArg Dev.regs hframe :) _ _ _ _).trans hresult,
    BitVec.ofNat 8 (e.rf R.SYS_LAST_STAT_STEP), ?_⟩
  rwa [← hbytes]

end

/-! ### A tick leaves a slot write as it is (R93, log entry 56) -/

/-- What a slot write turns on: the write in progress, the slots, the sessions, the life cycle. -/
def Dev.slotView (d : Dev) : Option SlotWr × Tbl SlotSt × Tbl Session × LcSt := (d.slotWr, d.slots, d.sessions, d.lc)

theorem Dev.slotView_wf (f : F) (v : Nat) (d : Dev) (k i j : Nat) : (d.wf f v k i j).slotView = d.slotView := rfl

theorem Dev.slotView_raise (c i : Nat) (x : List Byte) (d : Dev) : (d.raise c i x).slotView = d.slotView := by
  obtain ⟨r, e, n, z, h⟩ := (Dev.evtOnly_raise c i x d).1
  rw [h]
  rfl

theorem Dev.slotView_setView (v x : Nat) (d : Dev) : (d.setView v x).slotView = d.slotView := by
  unfold Dev.setView
  dsimp only
  split <;> rfl

theorem Dev.slotView_releaseWait (d : Dev) : d.releaseWait.slotView = d.slotView := by
  unfold Dev.releaseWait
  split
  · rfl
  · refine foldl_const Dev.slotView _ _ _ (fun y n => ?_)
    dsimp only
    split <;> rfl

theorem Dev.slotView_declareLock (v : Nat) (d : Dev) : (d.declareLock v).slotView = d.slotView := by
  unfold Dev.declareLock
  simp only [apply_ite Dev.slotView, Dev.slotView_releaseWait, Dev.slotView_wf, Dev.slotView_raise, ite_self]

theorem Dev.slotView_followStep (d : Dev) : d.followStep.slotView = d.slotView := by
  unfold Dev.followStep
  simp only [apply_ite Dev.slotView, Dev.slotView_declareLock, Dev.slotView_wf, Dev.slotView_raise, Dev.slotView_setView, ite_self]

theorem Dev.slotView_followRate (d : Dev) : d.followRate.slotView = d.slotView := by
  unfold Dev.followRate
  split <;> rfl

theorem Dev.slotView_slew (v : Nat) (d : Dev) : (d.slew v).slotView = d.slotView := by
  unfold Dev.slew
  dsimp only
  split <;> rfl

theorem Dev.slotView_tick (d : Dev) : d.tick.slotView = d.slotView := by
  unfold Dev.tick
  dsimp only
  split
  · simp only [apply_ite Dev.slotView, Dev.slotView_slew, Dev.slotView_followRate, Dev.slotView_followStep, ite_self]
    rfl
  · rfl

/-- Steps 1 to 3 look at the life cycle alone. -/
theorem Dev.slotCheck_lc {d d' : Dev} (h : d'.lc = d.lc) (im : List Byte) : d'.slotCheck im = d.slotCheck im := by
  unfold Dev.slotCheck
  rw [h]

/-! ### A slot write goes on or ends (R56) -/

/-- The slot write has ended with `im` read back: the slot is judged, and the request has its answer. -/
def Dev.SlotEnds (w : SlotWr) (im : List Byte) (d d' : Dev) : Prop :=
  d'.slotWr = none ∧ d'.slots = Tbl.put w.slot { st := if (d.slotCheck im).1 = ldOK then 2 else 3, image := im } d.slots ∧
    ((Tbl.get? d.sessions w.owe.1).isSome = true → ∃ x b c, Tbl.get? d'.sessions w.owe.1 = some x ∧
      x.kept.getLast? = some { seq := w.owe.2, status := eyOK, payload := [b, c] })

theorem Dev.SlotEnds.of_view {w : SlotWr} {im : List Byte} {d d0 d' : Dev} (h : d0.slotView = d.slotView) (he : Dev.SlotEnds w im d0 d') :
    Dev.SlotEnds w im d d' := by
  simp only [Dev.slotView, Prod.mk.injEq] at h
  obtain ⟨-, hslots, hsess, hlc⟩ := h
  rwa [Dev.SlotEnds, Dev.slotCheck_lc hlc, hslots, hsess] at he

theorem Dev.slotDone_ends (w : SlotWr) (im : List Byte) (d : Dev) : Dev.SlotEnds w im d (d.slotDone w im) := by
  unfold Dev.slotDone
  extract_lets c d1
  rw [Dev.loadResult_false, Dev.loadAnswer_some]
  generalize he : (d1.wf R.SYS_LAST_STAT_RESULT c.1).wf R.SYS_LAST_STAT_STEP c.2 = e
  obtain ⟨p, t, n, h, hk⟩ := Dev.respond_only w.owe.1 w.owe.2 eyOK e.loadBytes e
  rw [h]
  subst he
  refine ⟨rfl, rfl, fun hs => ?_⟩
  obtain ⟨x, hx⟩ := Option.isSome_iff_exists.1 hs
  obtain ⟨y, hy, hl⟩ := hk x hx
  exact ⟨y, _, _, hy, hl⟩

/-- With a write in progress and no command waiting the write goes on, or ends with as many bytes read back as were written. -/
theorem Dev.slotRun_cases {w : SlotWr} {d : Dev} (hw : d.slotWr = some w) :
    d.slotRun.slotView = d.slotView ∨ ∃ im, im.length = w.image.length ∧ Dev.SlotEnds w im d d.slotRun := by
  unfold Dev.slotRun
  rw [hw]
  dsimp only
  split
  · exact .inl rfl
  · exact .inr ⟨_, List.length_mapIdx, .of_view (d0 := (((d.fresh 1).2.fresh 28).2.fresh 8).2) rfl (Dev.slotDone_ends w _ _)⟩

end Sys2Proof.Machine

open Sys2Proof Sys2Proof.Machine

/-- Settles O15: the commands run on the device without the parts of their session, where a slot put begins or is refused; an idle step is a tick,
which leaves the slot write alone, and then the write goes on or ends. -/
theorem slotsAndVerify : Obligations.SlotsAndVerify := by
  unfold Obligations.SlotsAndVerify
  refine ⟨fun s q img slot hm => ?commands, fun s w hp hw => ?idle⟩
  case commands =>
    intro runs put
    have hput {c : Instr} {op n : Nat} {im : List Byte}
        (hdoes : ∀ {P : Dev → Prop}, P ((s.dev.setParts q.sess op []).slotPut q n im) → Does c s P) : put c n im := by
      refine ⟨fun hr => hdoes ?_, fun hr => hdoes ?_⟩
      · have hbegins := Dev.slotPut_begins (q := q) (d := s.dev.setParts q.sess op []) im hr
        rw [hbegins]
        exact ⟨rfl, rfl, Dev.taken_inProg _ _, rfl⟩
      · exact Dev.slotPut_refused im hr (Dev.session_setParts _ _ _ _)
    refine ⟨fun ha hb => ?verify, fun hs ha hb => hput (op := 0x130000 + slot) ?write, fun im ha hb hst => hput (op := 0) ?commit⟩
    case verify =>
      obtain ⟨h1, h2⟩ := Dev.lastCheck_lt (s.dev.parts q.sess 0x12 ++ img) (s.dev.setParts q.sess 0x12 [])
      obtain ⟨hresult, hstep, hans, hstate, hframe⟩ := Dev.verify_reports q _ _ h1 h2 (Dev.session_setParts q.sess 0x12 [] s.dev)
      refine does_imageCmd rfl ha hm hb ⟨hresult, hstep, hans, hstate, ?_⟩
      exact congrArg (fun y : Dev => { y with sessions := s.dev.sessions }) hframe
    case write =>
      exact fun hP => does_imageCmd (if_neg (Nat.not_le.2 hs)) ha hm hb hP
    case commit =>
      refine fun hP => does_imageCmd rfl ha rfl hb ?_
      have hst' : (s.dev.setParts q.sess 0 []).streamed = some im := hst
      dsimp only
      rw [hst']
      exact hP
  case idle =>
    have htick := Dev.slotView_tick s.dev
    have hwr : s.dev.tick.slotWr = some w := (congrArg Prod.fst htick).trans hw
    refine ⟨s.dev.idle, by rw [step, hp], (Dev.slotRun_cases hwr).imp (fun h => ?_) (fun ⟨im, hlen, hends⟩ => ?_)⟩
    · have hsame := h.trans htick
      simp only [Dev.slotView, Prod.mk.injEq] at hsame
      obtain ⟨hwr', hslots, hsess, -⟩ := hsame
      exact ⟨hwr'.trans hw, hslots, hsess⟩
    · obtain ⟨hnone, hput, hans⟩ := hends.of_view htick
      exact ⟨hnone, im, hlen, hput, hans⟩
end

section
/-!
SUPPORT. How a load stands (R58, R59, R62): which operations leave the load in progress, the Last and SYS.LAST_STAT as they are.
-/
namespace Sys2Proof.Machine

/-- How a load stands: the load in progress, the Last, the word SYS.LAST_STAT. -/
def Dev.loadView (d : Dev) : Option LoadSt × Option LastRec × Nat := (d.load, d.last, d.rw 0x40)

theorem Dev.loadView_of_fields {d d' : Dev} (hload : d'.load = d.load) (hlast : d'.last = d.last) (hregs : d'.regs = d.regs) :
    d'.loadView = d.loadView := by
  simp only [Dev.loadView, hload, hlast, Dev.rw_regs hregs]

theorem Dev.load_of_view {d d' : Dev} (h : d'.loadView = d.loadView) : d'.load = d.load := congrArg Prod.fst h

theorem Dev.last_of_view {d d' : Dev} (h : d'.loadView = d.loadView) : d'.last = d.last := congrArg (fun x => x.2.1) h

theorem Dev.rf_of_view {d d' : Dev} (h : d'.loadView = d.loadView) {f : F} (hf : f.addr 0 0 0 = 0x40) : d'.rf f = d.rf f := by
  have hw : d'.rw 0x40 = d.rw 0x40 := congrArg (fun x => x.2.2) h
  simp only [Dev.rf, hf, hw]

/-! ### Words of other blocks, events, the link -/

theorem Blk.base_ge {b : Blk} (h : b ≠ .sys) : 0x10000 ≤ b.base := by
  cases b
  case sys => exact absurd rfl h
  all_goals decide

/-- SYS alone holds SYS.LAST_STAT. -/
theorem Dev.loadView_wf {f : F} (hf : f.blk ≠ .sys) (v : Nat) (d : Dev) (k i j : Nat) : (d.wf f v k i j).loadView = d.loadView := by
  have hbase := Blk.base_ge hf
  have hne : 0x40 ≠ f.addr k i j := by
    rw [F.addr_def]
    omega
  simp only [Dev.loadView, Dev.wf_load, Dev.wf_last, Dev.rw_wf_ne v d hne]

theorem Dev.loadView_raise (c i : Nat) (x : List Byte) (d : Dev) : (d.raise c i x).loadView = d.loadView := by
  simp only [Dev.loadView, Dev.raise_load, Dev.raise_last, Dev.raise_rw c i x d (a := 0x40) (by decide) (by decide) (by decide)]

theorem Dev.LinkOnly.loadView {d d' : Dev} (h : d.LinkOnly d') : d'.loadView = d.loadView := by
  obtain ⟨x, s, n, rfl⟩ := h
  rfl

theorem Dev.loadView_foldl {α : Type} (f : Dev → α → Dev) (l : List α) (d : Dev) (hf : ∀ y a, (f y a).loadView = y.loadView) :
    (l.foldl f d).loadView = d.loadView := foldl_const Dev.loadView f l d hf

theorem Dev.loadView_setRgn (g : Nat) (r : RgnSt) (d : Dev) : (d.setRgn g r).loadView = d.loadView := rfl

theorem Dev.loadView_fresh (n : Nat) (d : Dev) : (d.fresh n).2.loadView = d.loadView := rfl

theorem Dev.loadView_setSeg (n : Nat) (x : HolSt) (d : Dev) : (d.setSeg n x).loadView = d.loadView := rfl

theorem Dev.loadView_canUp (c : Nat) (f : CanSt → CanSt) (d : Dev) : (d.canUp c f).loadView = d.loadView := rfl

theorem Dev.loadView_setUn (u : Nat) (x : UnitSt) (d : Dev) : (d.setUn u x).loadView = d.loadView := rfl

theorem Dev.loadView_setBank (k : Nat) (b : AdcBank) (d : Dev) : (d.setBank k b).loadView = d.loadView := rfl

theorem Dev.loadView_setCh (k n : Nat) (c : AdcCh) (d : Dev) : (d.setCh k n c).loadView = d.loadView := rfl

/-- A block's EN lies in another block than SYS. -/
theorem Dev.loadView_setEn {b : Blk} (hb : b ≠ .sys) (on : Bool) (d : Dev) : (d.setEn b on).loadView = d.loadView := by
  have hbase := Blk.base_ge hb
  have hne : 0x40 ≠ b.base := by omega
  unfold Dev.setEn
  extract_lets a was held d1
  have h1 : d1.loadView = d.loadView := by
    dsimp only [d1]
    split
    · rfl
    · split <;> rfl
  rw [← h1]
  simp only [Dev.loadView, Dev.ww_load, Dev.ww_last, a, Dev.rw_ww_ne _ d1 hne]

/-! ### Blocks go off, units are mapped (R59 step 9) -/

theorem Dev.loadView_railsOff (d : Dev) : d.railsOff.loadView = d.loadView :=
  Dev.loadView_foldl _ _ _ (fun y g => by
    simp (disch := decide) only [Dev.loadView_setRgn, Dev.loadView_wf])

theorem Dev.loadView_forget (d : Dev) : d.forget.loadView = d.loadView := rfl

theorem Dev.load_clearTags (d : Dev) : d.clearTags.load = d.load := rfl

theorem Dev.loadView_passNext (k : Nat) (d : Dev) : (d.passNext k).loadView = d.loadView := by
  unfold Dev.passNext
  dsimp only
  split
  · rfl
  split
  · exact Dev.loadView_wf (by decide) _ _ _ _ _
  split
  · rfl
  · exact Dev.loadView_wf (by decide) _ _ _ _ _
  · split <;> exact Dev.loadView_wf (by decide) _ _ _ _ _

theorem Dev.loadView_rollEnd (k n : Nat) (d : Dev) : (d.rollEnd k n).loadView = d.loadView := by
  simp (disch := decide) only [Dev.rollEnd, Dev.loadView_passNext, Dev.loadView_wf, Dev.loadView_setBank]

theorem Dev.loadView_chStop (k n : Nat) (d : Dev) : (d.chStop k n).loadView = d.loadView := by
  unfold Dev.chStop
  extract_lets c d1 d2 d3 d4 d5 b d6
  have h3 : d3.loadView = d.loadView := Dev.loadView_wf (f := R.ADC_CHn_LAST) (by decide) 0 d1 k n 0
  have h5 : d5.loadView = d.loadView := by simp (disch := decide) only [d5, d4, Dev.loadView_wf, h3]
  have h6 : d6.loadView = d.loadView := by simp only [d6, apply_ite Dev.loadView, Dev.loadView_setBank, h5, ite_self]
  simp only [apply_ite Dev.loadView, Dev.loadView_rollEnd, h6, ite_self]

theorem Dev.loadView_bankDisable (k : Nat) (d : Dev) : (d.bankDisable k).loadView = d.loadView := by
  unfold Dev.bankDisable
  refine (Dev.loadView_foldl _ _ _ (fun y n => Dev.loadView_wf (by decide) _ _ _ _ _)).trans ?_
  simp (disch := decide) only [Dev.loadView_wf, Dev.loadView_setBank]
  exact Dev.loadView_foldl _ _ _ (fun y n => Dev.loadView_chStop k n y)

theorem Dev.loadView_holDisable (n : Nat) (d : Dev) : (d.holDisable n).loadView = d.loadView := by
  simp (disch := decide) only [Dev.holDisable, Dev.setHol, Dev.loadView_setSeg, Dev.loadView_wf]

theorem Dev.loadView_canDisable (c : Nat) (d : Dev) : (d.canDisable c).loadView = d.loadView := by
  simp (disch := decide) only [Dev.canDisable, Dev.setTt, Dev.loadView_canUp, Dev.loadView_wf]

theorem Dev.loadView_blocksOff (d : Dev) : d.blocksOff.loadView = d.loadView := by
  unfold Dev.blocksOff
  extract_lets d1 d2 d3
  have h1 : d1.loadView = d.loadView := Dev.loadView_foldl _ _ _ (fun y k => by
    simp (disch := decide) only [apply_ite Dev.loadView, Dev.loadView_wf, Dev.loadView_bankDisable, ite_self])
  have h2 : d2.loadView = d1.loadView := Dev.loadView_foldl _ _ _ (fun y n => by
    simp only [apply_ite Dev.loadView, Dev.loadView_holDisable, ite_self])
  have h3 : d3.loadView = d2.loadView := Dev.loadView_foldl _ _ _ (fun y n => by
    simp only [apply_ite Dev.loadView, Dev.loadView_canDisable, ite_self])
  simp (disch := decide) only [Dev.loadView_wf, Dev.loadView_setEn, h3, h2, h1]

theorem Dev.loadView_tagMap (u : Nat) (t : TileMap) (d : Dev) : (d.tagMap u t).loadView = d.loadView := by
  simp (disch := decide) only [Dev.tagMap, Dev.wb, Dev.loadView_wf]

theorem Dev.loadView_mapUnit (l : LastRec) (u : UnitRec) (d : Dev) : (Dev.mapUnit l d u).loadView = d.loadView :=
  (Dev.loadView_foldl _ _ _ (fun y t => Dev.loadView_tagMap u.unit t y)).trans (Dev.loadView_setUn _ _ _)

/-- Step 9 completes, or it stops where a cluster lacks a spare, with the load as it was. -/
theorem Dev.mapLast_cases (l : LastRec) (dm : Dev × List Host.Cell) :
    (Dev.mapLast l dm).2 = true ∨ (Dev.mapLast l dm).1.1.load = dm.1.load := by
  unfold Dev.mapLast
  extract_lets d1 rst d2 d3
  have h1 : d1.load = dm.1.load := (Dev.load_clearTags _).trans (Dev.load_of_view
    ((Dev.loadView_blocksOff _).trans ((Dev.loadView_forget _).trans (Dev.loadView_railsOff _))))
  clear_value d1
  have h3 : d3.load = d2.load := Dev.load_of_view (Dev.loadView_foldl _ _ _ (fun y u => Dev.loadView_mapUnit l u y))
  split
  · exact .inr (h3.trans h1)
  · exact .inl rfl

/-! ### Steps 10 and 11 (R237, R445) -/

theorem Dev.loadView_bankcal (k : Nat) (d : Dev) : (d.bankcal k).loadView = d.loadView := by
  unfold Dev.bankcal
  dsimp only
  split
  · rfl
  split
  · exact Dev.loadView_wf (by decide) _ _ _ _ _
  · refine (Dev.loadView_foldl _ _ _ (fun y n => ?_)).trans ?_
    · simp (disch := decide) only [Dev.loadView_wf, Dev.loadView_setCh]
    · simp (disch := decide) only [Dev.loadView_wf, Dev.loadView_setBank]

theorem Dev.load_rehearse (d : Dev) : d.rehearse.load = d.load.map (fun l => { l with step := 11, banks := [] }) :=
  Dev.load_of_view (Dev.loadView_foldl _ _ _ (fun y g => Dev.loadView_wf (by decide) _ _ _ _ _))

/-! ### Plans (R442 to R444) -/

theorem Dev.loadView_planTrigger (g : Nat) (d : Dev) : (d.planTrigger g).loadView = d.loadView := by
  simp (disch := decide) only [Dev.planTrigger, apply_ite Dev.loadView, Dev.loadView_wf, Dev.loadView_setRgn, ite_self]

theorem Dev.loadView_horizonShow (d : Dev) : d.horizonShow.loadView = d.loadView := by
  unfold Dev.horizonShow
  extract_lets h warn old pwr d1
  have h1 : d1.loadView = d.loadView := (Dev.loadView_wf (f := R.MARG_STAT_HORIZON) (by decide) _ _ _ _ _).trans rfl
  simp only [apply_ite Dev.loadView, Dev.loadView_raise, h1, ite_self]

theorem Dev.loadView_planApply (m : PlanMeas) (d : Dev) : (d.planApply m).loadView = d.loadView := by
  unfold Dev.planApply
  extract_lets g us i v r rs d1 d2 d3 d4 d5 d6 d7 d8 d9 d10 now rgn d11 d12
  have h9 : d9.loadView = d.loadView := by
    simp (disch := decide) only [d9, d8, d7, d6, d5, d4, d3, d2, d1, Dev.wb, Dev.loadView_wf, Dev.loadView_setRgn]
  clear_value d9
  have h10 : d10.loadView = d.loadView := h9
  have h11 : d11.loadView = d.loadView := by
    simp only [d11, apply_ite Dev.loadView, Dev.railAsk, Dev.loadView_setRgn, h10, ite_self]
  have h12 : d12.loadView = d.loadView := by simp only [d12, apply_ite Dev.loadView, Dev.loadView_raise, h11, ite_self]
  simp only [Dev.loadView_horizonShow, apply_ite Dev.loadView, Dev.loadView_planTrigger, h12, ite_self]

/-! ### Forces are refitted, the pair is informed (R169, R393) -/

theorem Dev.loadView_forceCommit (idx : Nat) (e : Option ForceEnt) (d : Dev) : (d.forceCommit idx e).loadView = d.loadView := by
  unfold Dev.forceCommit
  extract_lets d1
  have h1 : d1.loadView = d.loadView := rfl
  simp only [apply_ite Dev.loadView, (Dev.linkOnly_weltSend _ _ _ _ d1).loadView, h1, ite_self]

theorem Dev.loadView_forceOp (idx id : Nat) (e : Option ForceEnt) (d : Dev) : (d.forceOp idx id e).loadView = d.loadView := by
  unfold Dev.forceOp
  split
  · rfl
  · exact Dev.loadView_forceCommit _ _ _

/-- DROPPED lies in SYS beside LAST_STAT. -/
theorem Dev.loadView_dropped (v : Nat) (d : Dev) : (d.wf R.SYS_FRC_STAT_DROPPED v).loadView = d.loadView := by
  have hne : 0x40 ≠ R.SYS_FRC_STAT_DROPPED.addr 0 0 0 := by decide
  simp only [Dev.loadView, Dev.wf_load, Dev.wf_last, Dev.rw_wf_ne v d hne]

theorem Dev.loadView_forceRefit (more : Bool) (d : Dev) : (d.forceRefit more).loadView = d.loadView := by
  unfold Dev.forceRefit
  extract_lets gone d1 bad d2 d3 sets
  have h2 : d2.loadView = d.loadView := Dev.loadView_foldl _ _ _ (fun y e => Dev.loadView_raise _ _ _ _)
  have h3 : d3.loadView = d.loadView := (Dev.loadView_dropped _ d2).trans h2
  refine (Dev.loadView_foldl _ _ _ (fun y p => ?_)).trans h3
  split
  · simp only [apply_ite Dev.loadView, Dev.loadView_forceOp, Dev.loadView_raise, ite_self]
  · rfl

theorem Dev.loadView_pairing (d : Dev) : d.pairing.loadView = d.loadView := by
  unfold Dev.pairing
  extract_lets d1
  have h1 : d1.loadView = d.loadView := by
    change (((d.setDx dxPAIRING).wf R.DUPX_STAT_FENCED 0).wf R.DUPX_CLAIM_CLAIM 0).loadView = d.loadView
    simp (disch := decide) only [Dev.setDx, Dev.loadView_wf]
  refine (Dev.loadView_foldl _ _ _ (fun y n => ?_)).trans h1
  simp (disch := decide) only [Dev.setHol, Dev.loadView_wf]

theorem Dev.loadView_dxUp (f : DupxSt → DupxSt) (d : Dev) : (d.dxUp f).loadView = d.loadView := rfl

theorem Dev.loadView_pairLoaded (boot : Bool) (d : Dev) : (d.pairLoaded boot).loadView = d.loadView := by
  simp (disch := decide) only [Dev.pairLoaded, Dev.setDx, apply_ite Dev.loadView, Dev.loadView_dxUp, Dev.loadView_pairing, Dev.loadView_wf,
    ite_self]

theorem Dev.loadView_cfgCommitReq (d : Dev) : d.cfgCommitReq.loadView = d.loadView :=
  (Dev.loadView_of_fields (d := d.wf R.CFGCHK_STAT_SUSP 1) rfl rfl rfl).trans (Dev.loadView_wf (by decide) _ _ _ _ _)

/-! ### What EMPTY shows (R62) -/

theorem Dev.loadView_showStructure (l : LastRec) (d : Dev) : (d.showStructure l).loadView = d.loadView := by
  unfold Dev.showStructure
  extract_lets d1
  have h1 : d1.loadView = d.loadView := Dev.loadView_foldl _ _ _ (fun y c => by
    simp (disch := decide) only [Dev.loadView_wf])
  refine (Dev.loadView_foldl _ _ _ (fun y g => ?_)).trans h1
  extract_lets cs mask y1 z
  clear_value cs
  have hy : y1.loadView = y.loadView := by simp (disch := decide) only [y1, Dev.loadView_setRgn, Dev.loadView_wf]
  split
  · exact (Dev.loadView_wf (by decide) _ _ _ _ _).trans hy
  · split
    · exact (Dev.loadView_wf (by decide) _ _ _ _ _).trans ((Dev.loadView_fresh _ _).trans hy)
    · exact (Dev.loadView_wf (by decide) _ _ _ _ _).trans hy

theorem Dev.loadView_showGens (d : Dev) : d.showGens.loadView = d.loadView :=
  Dev.loadView_foldl _ _ _ (fun y g => Dev.loadView_wf (by decide) _ _ _ _ _)

/-- EMPTY shows itself on a device whose Last is gone. -/
theorem Dev.emptied_eq (d : Dev) : ∃ (x : Dev) (r : RstSt), x.last = none ∧
    d.emptied = { (((x.showStructure {}).showGens.pairLoaded false).wf R.SYS_LAST_STAT_SRC 0).setLast lsEMPTY with rst := r } := by
  unfold Dev.emptied
  extract_lets d1 d2 d3 d4 d5 d6 e rst
  exact ⟨d5, _, rfl, rfl⟩

theorem Dev.emptied_empty (d : Dev) : d.emptied.last = none ∧ d.emptied.lastState = lsEMPTY := by
  obtain ⟨x, r, hx, h⟩ := d.emptied_eq
  have hview : ((x.showStructure {}).showGens.pairLoaded false).loadView = x.loadView := by
    simp only [Dev.loadView_pairLoaded, Dev.loadView_showGens, Dev.loadView_showStructure]
  have hlast := (Dev.last_of_view hview).trans hx
  rw [h]
  generalize (x.showStructure {}).showGens.pairLoaded false = y at hlast
  exact ⟨hlast, Dev.rf_wf_self R.SYS_LAST_STAT_STATE lsEMPTY (y.wf R.SYS_LAST_STAT_SRC 0) 0 0 0⟩

end Sys2Proof.Machine
end

section
/-!
SUPPORT. How loads begin and end (R58, R59, R62, R64, R445), a write of SLOT_PREF (R65), and firmware images (R486).
-/
namespace Sys2Proof.Machine

/-! ### Results and answers -/

theorem Dev.loadResult_only (res step : Nat) (b : Bool) (d : Dev) :
    ∃ r e n z, d.loadResult res step b = { d with regs := r, evt := e, snaps := n, frz := z } := by
  unfold Dev.loadResult
  dsimp only
  split
  · obtain ⟨r, e, n, z, h⟩ := (Dev.evtOnly_raise Ev.LAST_FAIL 0 [BitVec.ofNat 8 res, BitVec.ofNat 8 step]
      ((d.wf R.SYS_LAST_STAT_RESULT res).wf R.SYS_LAST_STAT_STEP step)).1
    exact ⟨r, e, n, z, h⟩
  · exact ⟨_, d.evt, d.snaps, d.frz, rfl⟩

theorem Dev.load_loadResult (res step : Nat) (b : Bool) (d : Dev) : (d.loadResult res step b).load = d.load := by
  obtain ⟨r, e, n, z, h⟩ := Dev.loadResult_only res step b d
  rw [h]

theorem Dev.last_loadResult (res step : Nat) (b : Bool) (d : Dev) : (d.loadResult res step b).last = d.last := by
  obtain ⟨r, e, n, z, h⟩ := Dev.loadResult_only res step b d
  rw [h]

theorem Dev.rst_loadResult (res step : Nat) (b : Bool) (d : Dev) : (d.loadResult res step b).rst = d.rst := by
  obtain ⟨r, e, n, z, h⟩ := Dev.loadResult_only res step b d
  rw [h]

/-- A response that a load, verify or slot write owes changes ports, sessions and what was sent, and nothing else. -/
theorem Dev.loadAnswer_only (o : Option (Nat × Nat)) (d : Dev) :
    ∃ e t n, d.loadAnswer o = { d with eth := e, sessions := t, sent := n } := by
  cases o with
  | none => exact ⟨d.eth, d.sessions, d.sent, rfl⟩
  | some q =>
    obtain ⟨e, t, n, h, -⟩ := Dev.respond_only q.1 q.2 eyOK d.loadBytes d
    exact ⟨e, t, n, h⟩

theorem Dev.loadView_loadAnswer (o : Option (Nat × Nat)) (d : Dev) : (d.loadAnswer o).loadView = d.loadView := by
  obtain ⟨e, t, n, h⟩ := Dev.loadAnswer_only o d
  rw [h]
  rfl

theorem Dev.rst_loadAnswer (o : Option (Nat × Nat)) (d : Dev) : (d.loadAnswer o).rst = d.rst := by
  obtain ⟨e, t, n, h⟩ := Dev.loadAnswer_only o d
  rw [h]

/-! ### A load fails (R62) -/

/-- The load has failed at steps 8 to 11: nothing is loaded, and SYS.LAST_STAT says why. -/
def Dev.LoadFailed (res step : Nat) (d : Dev) : Prop :=
  d.load = none ∧ d.last = none ∧ d.lastState = lsEMPTY ∧ d.rf R.SYS_LAST_STAT_RESULT = res ∧ d.rf R.SYS_LAST_STAT_STEP = step

/-- No load is in progress any more. -/
def Dev.withoutLoad (d : Dev) : Dev := { d with load := none }

theorem Dev.load_withoutLoad (d : Dev) : d.withoutLoad.load = none := rfl

theorem Dev.last_withoutLoad (d : Dev) : d.withoutLoad.last = d.last := rfl

theorem Dev.lastState_withoutLoad (d : Dev) : d.withoutLoad.lastState = d.lastState := rfl

/-- The load of a request is not tried again from another slot. -/
theorem Dev.loadFail_eq {d : Dev} {l : LoadSt} {res step : Nat} (hl : d.load = some l) (hb : l.boot = false) :
    d.loadFail res step = (d.emptied.withoutLoad.loadResult res step true).loadAnswer l.owe := by
  unfold Dev.loadFail
  rw [hl]
  exact if_neg (by simp [hb])

theorem Dev.loadFail_failed {d : Dev} {l : LoadSt} {res step : Nat} (hl : d.load = some l) (hb : l.boot = false) (hres : res < 256)
    (hstep : step < 16) : (d.loadFail res step).LoadFailed res step := by
  obtain ⟨hlast, hstate⟩ := d.emptied_empty
  rw [← Dev.last_withoutLoad] at hlast
  rw [← Dev.lastState_withoutLoad] at hstate
  have hload := d.emptied.load_withoutLoad
  rw [Dev.loadFail_eq hl hb]
  generalize d.emptied.withoutLoad = e at hload hlast hstate
  have hview := Dev.loadView_loadAnswer l.owe (e.loadResult res step true)
  have hresult : (e.loadResult res step true).rf R.SYS_LAST_STAT_RESULT = res := (Dev.result_loadResult _ _ _ _).trans (Nat.mod_eq_of_lt hres)
  have hat : (e.loadResult res step true).rf R.SYS_LAST_STAT_STEP = step := (Dev.step_loadResult _ _ _ _).trans (Nat.mod_eq_of_lt hstep)
  exact ⟨(Dev.load_of_view hview).trans ((Dev.load_loadResult _ _ _ _).trans hload),
    (Dev.last_of_view hview).trans ((Dev.last_loadResult _ _ _ _).trans hlast),
    (Dev.rf_of_view hview rfl).trans ((Dev.lastState_loadResult _ _ _ _).trans hstate),
    (Dev.rf_of_view hview rfl).trans hresult, (Dev.rf_of_view hview rfl).trans hat⟩

/-! ### Step 9 and what follows it (R59, R79, R237) -/

/-- After a good copy: no spare was left at step 9, or step 10 or 11 is under way. -/
def Dev.CopyTaken (d : Dev) : Prop :=
  d.LoadFailed ldCOPY_FAIL 9 ∨ d.load.map LoadSt.step = some 10 ∨ d.load.map LoadSt.step = some 11

/-- A good copy is mapped and calibrates or rehearses, or the load ends where a cluster lacks a spare. -/
theorem Dev.loadMap_ends {dm : Dev × List Host.Cell} {l : LoadSt} (hl : dm.1.load = some l) (hb : l.boot = false) :
    (Dev.loadMap dm).1.CopyTaken := by
  unfold Dev.loadMap
  split
  · next h => simp [hl] at h
  next l' h =>
  obtain rfl : l = l' := Option.some.inj (hl.symm.trans h)
  extract_lets red r banks mapped d
  have hmap : r.2 = true ∨ r.1.1.load = dm.1.load := Dev.mapLast_cases red dm
  clear_value r
  split
  · next hr =>
    have hload : r.1.1.load = some l := (hmap.resolve_left (by simpa using hr)).trans hl
    exact .inl (Dev.loadFail_failed hload hb (by decide) (by decide))
  · have hd : d.load = some { l with step := 10, banks := banks } :=
      Dev.load_of_view (Dev.loadView_foldl _ _ _ (fun y k => Dev.loadView_bankcal k y))
    clear_value d
    refine .inr ?_
    split
    · right
      rw [Dev.load_rehearse, hd]
      rfl
    · left
      rw [hd]
      rfl

/-! ### Step 12 -/

/-- The load is over with OK at step 12. -/
def Dev.LoadDone (d : Dev) : Prop := d.load = none ∧ d.rf R.SYS_LAST_STAT_RESULT = ldOK ∧ d.rf R.SYS_LAST_STAT_STEP = 12

theorem Dev.LoadDone.of_view {d d' : Dev} (h : d'.loadView = d.loadView) (hd : d.LoadDone) : d'.LoadDone := by
  obtain ⟨hload, hresult, hstep⟩ := hd
  exact ⟨(Dev.load_of_view h).trans hload, (Dev.rf_of_view h rfl).trans hresult, (Dev.rf_of_view h rfl).trans hstep⟩

theorem Dev.loadFinish_done {d : Dev} {l : LoadSt} (hl : d.load = some l) (hb : l.boot = false) : d.loadFinish.LoadDone := by
  unfold Dev.loadFinish
  split
  · next h => simp [hl] at h
  next l' h =>
  obtain rfl : l = l' := Option.some.inj (hl.symm.trans h)
  extract_lets stopped rst evt d1 d2 d3 d4 d5 d6
  have h2 : d2.LoadDone := ⟨Dev.load_loadResult _ _ _ _, Dev.result_loadResult _ _ _ _, Dev.step_loadResult _ _ _ _⟩
  clear_value d2
  have h3 : d3.loadView = d2.loadView := Dev.loadView_forceRefit false d2
  have h4 : d4.loadView = d3.loadView := Dev.loadView_cfgCommitReq d3
  clear_value d4
  have h5 : d5.loadView = d4.loadView := by
    dsimp only [d5]
    split <;> rfl
  have h6 : d6.loadView = d5.loadView := Dev.loadView_pairLoaded _ _
  have hrelease : d6.bootRelease l.boot = d6 := by simp [Dev.bootRelease, hb]
  rw [hrelease]
  exact h2.of_view ((Dev.loadView_loadAnswer _ _).trans (h6.trans (h5.trans (h4.trans h3))))

/-- First plans of regions leave the load in progress. -/
theorem Dev.load_planApplies (ps : List PlanMeas) (d : Dev) : (ps.foldl (fun d p => d.planApply p) d).load = d.load :=
  Dev.load_of_view (Dev.loadView_foldl _ _ _ (fun y p => Dev.loadView_planApply p y))

/-! ### The boot (R64) -/

theorem Dev.rst_missShow (m : Option (Nat × Nat)) (d : Dev) : (d.missShow m).rst = d.rst :=
  (congrArg Dev.rst (d.missShow_words m).1 :)

theorem Dev.rst_loadBegin (src : Nat) (boot second : Bool) (owe : Option (Nat × Nat)) (im : List Byte) (d : Dev) :
    (d.loadBegin src boot second owe im).1.rst = d.rst := by
  unfold Dev.loadBegin
  extract_lets c d1
  have h1 : d1.rst = d.rst := Dev.rst_missShow _ _
  clear_value d1
  split
  · rw [Dev.rst_loadAnswer, Dev.rst_loadResult, h1]
  split
  · rw [Dev.rst_loadAnswer, Dev.rst_loadResult, h1]
  · exact h1

theorem Dev.rst_bootSlot (slot : Nat) (second : Bool) (d : Dev) : (d.bootSlot slot second).1.rst = d.rst := by
  unfold Dev.bootSlot
  extract_lets x r
  have hr : r.1.rst = d.rst := Dev.rst_loadBegin _ _ _ _ _ _
  clear_value r
  split
  · rfl
  split <;> exact hr

theorem Dev.rst_boot (d : Dev) : d.boot.rst = d.rst := by
  unfold Dev.boot
  dsimp only
  split
  · exact Dev.rst_bootSlot _ _ _
  · exact (Dev.rst_bootSlot _ _ _).trans (Dev.rst_bootSlot _ _ _)

/-- An image that passes steps 1 to 7 while nothing runs or loads: its load is under way at step 8. -/
theorem Dev.loadBegin_begins {src : Nat} {boot second : Bool} {owe : Option (Nat × Nat)} {im : List Byte} {d : Dev}
    (hc : (d.lastCheck im).1 = ldOK) (hs : d.lastState = lsEMPTY ∨ d.lastState = lsSTOPPED) :
    ∃ e : Dev, d.loadBegin src boot second owe im = (e, true) ∧ e.lastState = lsLOADING ∧
      e.load = some { src := src, last := parseLast im, step := 8, boot := boot, owe := owe, second := second } := by
  unfold Dev.loadBegin
  extract_lets c d1
  have h1 : d1.lastState = d.lastState := Dev.lastState_missShow _ _
  clear_value d1
  rw [if_neg (not_not_intro hc), if_neg (by rcases hs with h | h <;> simp [h1, h])]
  exact ⟨_, rfl, Dev.rf_wf_self R.SYS_LAST_STAT_STATE lsLOADING d1 0 0 0, rfl⟩

/-- The preferred slot boots where it is VALID and its image passes. -/
theorem Dev.boot_begins {d : Dev} (hst : (Tbl.getD {} d.slots (d.slotPref % 2) : SlotSt).st = 2)
    (hc : (d.lastCheck (Tbl.getD {} d.slots (d.slotPref % 2) : SlotSt).image).1 = ldOK) (hs : d.lastState = lsEMPTY) :
    d.boot.lastState = lsLOADING ∧ ∃ l, d.boot.load = some l ∧ l.step = 8 ∧ l.boot = true ∧ l.src = d.slotPref % 2 + 1 := by
  obtain ⟨e, he, hstate, hload⟩ := Dev.loadBegin_begins (src := d.slotPref % 2 + 1) (boot := true) (second := false) (owe := none) hc (.inl hs)
  have hslot : d.bootSlot (d.slotPref % 2) false = (e, true) := by simp [Dev.bootSlot, hst, he]
  have hboot : d.boot = e := by simp [Dev.boot, hslot]
  rw [hboot]
  exact ⟨hstate, _, hload, rfl, rfl, rfl⟩

theorem does_bootLoad {s : State} (h4 : s.dev.rst.phase = 4) (hepi : s.dev.rst.epi = none) (her : s.dev.lc.erasing = false)
    (hs : s.dev.lastState = lsEMPTY) :
    exec .bootLoad s = .next { s with dev := ({ s.dev with rst := { s.dev.rst with phase := 5 } } : Dev).boot } := by
  change execBootLoad s = _
  rw [execBootLoad, State.on_eq, if_pos ⟨h4, hepi, her⟩]
  exact congrArg (fun d => Host.Outcome.next { s with dev := d }) (if_pos hs)

/-! ### SLOT_PREF (R65) -/

/-- SLOT_CTL in the register list of SYS: PREF is its bit 0. -/
def slotCtl : RegDef := ⟨0x44, [], 0, 0, 0, [⟨0, 1, .rw⟩, ⟨1, 31, .rsv⟩]⟩

theorem slotCtl_newWord (v seen held : Nat) : slotCtl.newWord 0 v seen held % 2 = v % 2 := by
  have h := slotCtl.bitsOf_newWord (f := ⟨0, 1, .rw⟩) (pre := []) (post := [⟨1, 31, .rsv⟩]) rfl (by simp) 0 v seen held
  simpa [bitsOf, fieldNew] using h

/-- Eyelet's write of SLOT_CTL sets the preference. -/
theorem Dev.regWrite_slotPref {d : Dev} (w : Word) (m : List Host.Cell) (hf : d.wordFree 0x44) :
    ∃ (r : Tbl Nat) (o : Nat × List Nat), d.regWrite .eyelet 0x44 w m = { d with regs := r, slotPref := w.toNat % 2, outWr := o } := by
  obtain ⟨hf1, hf2⟩ := hf
  have hb : blkAt 0x44 = some (.sys, 0) := by decide
  have hword : d.wordAt .sys 0 0x44 = some slotCtl := rfl
  have halias : aliasOf .sys 0x44 = (0, 0x44) := by decide
  have hrwl : slotCtl.hasRwl = false := by decide
  have hcov : covers .sys slotCtl = false := hrwl
  refine ⟨(d.ww 0x44 (slotCtl.newWord 0 w.toNat (d.peek 0x44) (d.rw 0x44))).regs,
    (d.time.cnt, (if d.outWr.1 = d.time.cnt then d.outWr.2 else []) ++ [0x44]), ?_⟩
  simp [Dev.regWrite, Dev.writeReg, hb, halias, Dev.present, Blk.count, Dev.absentWord, hword, Dev.mayWrite, Blk.base, hf1, hf2,
    RegDef.changesRwl_of_none hrwl, Dev.writeWord, Dev.writeSys, R.SYS_FRC_CTL, Dev.noteWr, slotCtl_newWord, hcov]

/-! ### Firmware images (R486) -/

/-- What FW_LOAD does with a whole image. -/
def Dev.fwTake (q : Req) (im : List Byte) (d : Dev) : Dev :=
  (if d.fwCheck im = 0 then
    { d with lc := { d.lc with fwImages := Tbl.put (1 - d.lc.fwSlot % 2) im d.lc.fwImages, fwNext := 1 - d.lc.fwSlot % 2 } }
  else d).answer q eyOK [BitVec.ofNat 8 (d.fwCheck im)]

theorem Dev.fwTake_answered {q : Req} {im : List Byte} {d : Dev} (hs : ∃ x, Tbl.get? d.sessions q.sess = some x) :
    Answered q eyOK [BitVec.ofNat 8 (d.fwCheck im)] (d.fwTake q im) := by
  obtain ⟨x, hx⟩ := hs
  unfold Dev.fwTake
  split <;> exact Dev.answer_answered _ _ _ _ x hx

/-- The accepted image goes into the firmware slot that is not running, and boots next. -/
theorem Dev.fwTake_lc (q : Req) (im : List Byte) (d : Dev) :
    (d.fwTake q im).lc = if d.fwCheck im = 0 then
      { d.lc with fwImages := Tbl.put (1 - d.lc.fwSlot % 2) im d.lc.fwImages, fwNext := 1 - d.lc.fwSlot % 2 } else d.lc := by
  have hans (e : Dev) (p : List Byte) : (e.answer q eyOK p).lc = e.lc := (congrArg Dev.lc (Dev.answer_frame q eyOK p e) :)
  unfold Dev.fwTake
  rw [hans]
  split <;> rfl

theorem Dev.fwTake_frame (q : Req) (im : List Byte) (d : Dev) :
    { d.fwTake q im with lc := d.lc, sessions := d.sessions, sent := d.sent, eth := d.eth } = d := by
  unfold Dev.fwTake
  split <;> exact (congrArg (fun y : Dev => { y with lc := d.lc }) (Dev.answer_frame q eyOK [BitVec.ofNat 8 (d.fwCheck im)] _) :)

end Sys2Proof.Machine

open Sys2Proof Sys2Proof.Machine

/-- Settles O16: a clause per outcome of its command. What follows a load's result, and what step 9 does before it stops, leave `loadView`, so the
load and SYS.LAST_STAT are read off where they were set. -/
theorem loadsEnd : Obligations.LoadsEnd := by
  unfold Obligations.LoadsEnd
  refine ⟨fun s w => ⟨fun hf => ?pref, fun h4 hepi her hs => ?boot⟩,
    fun s x ps hl hb hepi => ⟨fun h8 => ⟨?badCopy, ?goodCopy⟩, fun h11 => ?late, fun h11 hp => ?clean⟩,
    fun s q img ha hm => ?firmware⟩
  case pref =>
    obtain ⟨r, o, h⟩ := Dev.regWrite_slotPref w s.mem hf
    refine does_on (f := Dev.regWrite .eyelet 0x44 w s.mem) rfl ?_
    rw [h]
    exact ⟨rfl, rfl, rfl⟩
  case boot =>
    refine ⟨_, does_bootLoad h4 hepi her hs, ?_, fun hst hc => ?_⟩
    · rw [Dev.rst_boot]
    · obtain ⟨hstate, l, hload, hstep, hboot, hsrc⟩ := Dev.boot_begins (d := { s.dev with rst := { s.dev.rst with phase := 5 } }) hst hc hs
      rw [hload]
      exact ⟨hstate, congrArg some hstep, congrArg some hboot, congrArg some hsrc⟩
  case badCopy =>
    refine ⟨s.dev.loadFail ldCOPY_FAIL 8, s.mem, ?_, rfl, Dev.loadFail_failed hl hb (by decide) (by decide)⟩
    change execLoadCopyDone false s = _
    simp [execLoadCopyDone, hl, h8, hepi]
  case goodCopy =>
    let d9 : Dev := ({ s.dev with load := some { x with step := 9 }, area := 1 - s.dev.area } : Dev).wf R.SYS_LAST_STAT_SRC x.src
    refine ⟨(Dev.loadMap (d9, s.mem)).1, (Dev.loadMap (d9, s.mem)).2, ?_, Dev.loadMap_ends (l := { x with step := 9 }) rfl hb⟩
    change execLoadCopyDone true s = _
    simp [execLoadCopyDone, hl, h8, hepi, d9]
  case late =>
    refine ⟨s.dev.loadFail ldBAD_REHEARSAL 11, ?_, Dev.loadFail_failed hl hb (by decide) (by decide)⟩
    change execLoadRehearsalEnd true ps s = _
    simp [execLoadRehearsalEnd, hl, h11, hepi]
  case clean =>
    have hall : s.dev.rgnsUsed.all (fun g => ps.any (fun p => decide (p.rgn = g))) = true := by simpa using hp
    refine ⟨_, ?_, Dev.loadFinish_done ((Dev.load_planApplies (ps.filter (fun p => s.dev.rgnsUsed.contains p.rgn)) s.dev).trans hl) hb⟩
    change execLoadRehearsalEnd false ps s = _
    simp only [execLoadRehearsalEnd, State.on_eq, hl]
    rw [if_neg (by simp [h11, hepi]), if_neg (by simp), if_pos hall]
  case firmware =>
    have hsess := Dev.session_setParts q.sess 0x15 [] s.dev
    refine does_eyeletImg (f := Dev.fwTake q) rfl ha hm ⟨Dev.fwTake_answered hsess, fun h0 => ?_, fun h0 => ?_, ?_⟩
    · exact (Dev.fwTake_lc _ _ _).trans (if_pos h0)
    · exact (Dev.fwTake_lc _ _ _).trans (if_neg h0)
    · exact (congrArg (fun y : Dev => { y with sessions := s.dev.sessions }) (Dev.fwTake_frame q _ (s.dev.setParts q.sess 0x15 [])) :)
end

section
/-!
SUPPORT. The shells of commands that change the device alone.
-/
namespace Sys2Proof.Machine

/-- Where the command goes on, memory and queue are as they were. -/
def Res.DevOnly (s : State) (r : Res) : Prop := ∀ t, r = .next t → ∃ d, t = { s with dev := d }

theorem Res.DevOnly.mem {s t : State} {r : Res} (h : r.DevOnly s) (ht : r = .next t) : t.mem = s.mem := by
  obtain ⟨d, rfl⟩ := h t ht
  rfl

theorem State.devOnly_self (s : State) : Res.DevOnly s (.next s) := by
  rintro t ⟨⟩
  exact ⟨s.dev, rfl⟩

theorem State.devOnly_refused (s : State) (r : Refusal) : Res.DevOnly s (.refused r) := fun _ h => by cases h

theorem State.devOnly_fault (s : State) (f : Fault) : Res.DevOnly s (.fault f) := fun _ h => by cases h

theorem State.devOnly_on (s : State) (f : Dev → Dev) : Res.DevOnly s (s.on f) := fun _ h => ⟨_, State.on_next h⟩

theorem State.devOnly_guarded (s : State) (ok : Bool) (f : Dev → Dev) : Res.DevOnly s (s.guarded ok f) :=
  fun _ h => ⟨_, (State.guarded_next h).2⟩

theorem State.devOnly_axis (s : State) (code u a : Nat) (sig : Bool) : Res.DevOnly s (s.axis code u a sig) := s.devOnly_guarded _ _

theorem State.devOnly_sequencer (s : State) (code u i : Nat) (sig : Bool) : Res.DevOnly s (s.sequencer code u i sig) := s.devOnly_guarded _ _

theorem State.devOnly_holRx (s : State) (n : Nat) (f : HolFrame) (arr t typ : Nat) (g : Dev → Dev) : Res.DevOnly s (s.holRx n f arr t typ g) :=
  s.devOnly_guarded _ _

theorem State.devOnly_island (s : State) (ok : Bool) (f : IslandSt → IslandSt) : Res.DevOnly s (s.island ok f) := s.devOnly_guarded _ _

theorem State.devOnly_islandIo (s : State) (ok : Bool) (f : IslandSt → IslandSt) : Res.DevOnly s (s.islandIo ok f) := s.devOnly_guarded _ _

theorem State.devOnly_regCmd (s : State) (g : F) (k i : Nat) (ok : Bool) (f : Dev → Dev) : Res.DevOnly s (s.regCmd g k i ok f) := by
  unfold State.regCmd
  split
  · exact s.devOnly_on _
  · split
    · exact s.devOnly_on _
    · exact s.devOnly_refused _

/-- A request, where its operation changes the device alone. -/
theorem State.devOnly_eyelet {s : State} (q : Req) (p : Nat) {f : State → Res} (hf : Res.DevOnly s (f s)) : Res.DevOnly s (s.eyelet q p f) := by
  unfold State.eyelet
  split
  · exact s.devOnly_self
  · exact s.devOnly_on _
  · exact s.devOnly_on _
  · exact s.devOnly_self
  · exact s.devOnly_on _
  · exact hf

theorem State.devOnly_eyelet_on (s : State) (q : Req) (p : Nat) (f : State → Dev → Dev) :
    Res.DevOnly s (s.eyelet q p (fun s => s.on (f s))) := s.devOnly_eyelet q p (s.devOnly_on _)

theorem State.devOnly_duplex (s : State) (q : Req) (sts : List Nat) (f : Dev → Dev) : Res.DevOnly s (s.duplex q sts f) :=
  s.devOnly_eyelet_on _ _ _

theorem State.devOnly_eyeletImg (s : State) (q : Req) (op p : Nat) (img : List Byte) (f : List Byte → Dev → Dev) :
    Res.DevOnly s (s.eyeletImg q op p img (fun b s => s.on (f b))) := by
  refine s.devOnly_eyelet q p ?_
  dsimp only
  split
  · exact s.devOnly_on _
  · exact fun t h => ⟨_, State.on_next (s := { s with dev := s.dev.setParts q.sess op [] }) h⟩

theorem State.devOnly_imageCmd (s : State) (q : Req) (op p : Nat) (img : List Byte) (f : List Byte → Dev → Dev) :
    Res.DevOnly s (s.imageCmd q op p img (fun b s => s.on (f b))) := by
  refine s.devOnly_eyelet q p ?_
  split
  · exact s.devOnly_on _
  · exact s.devOnly_eyeletImg q op p img f

/-- An instruction of a logic scan. -/
theorem State.devOnly_logic (s : State) (u op : Nat) (area : Option Nat) (i : Nat) (ok : LogicEnv → LogicRun → Bool)
    (f : LogicEnv → LogicRun → LogicRun) : Res.DevOnly s (s.logic u op area i ok f) := by
  unfold State.logic
  split
  · exact s.devOnly_self
  · dsimp only
    split
    · exact s.devOnly_on _
    · exact s.devOnly_refused _

theorem State.devOnly_logicNone (s : State) (u op : Nat) (ok : LogicRun → Bool) (f : LogicRun → LogicRun) :
    Res.DevOnly s (s.logicNone u op ok f) := s.devOnly_logic _ _ _ _ _ _

theorem State.devOnly_logicBit (s : State) (u op area i : Nat) (f : LogicRun → Bool → LogicRun) : Res.DevOnly s (s.logicBit u op area i f) :=
  s.devOnly_logic _ _ _ _ _ _

theorem State.devOnly_logicWr (s : State) (u op area i : Nat) (f : Bool → Option Bool) : Res.DevOnly s (s.logicWr u op area i f) :=
  s.devOnly_logic _ _ _ _ _ _

theorem State.devOnly_logicWord (s : State) (u op area i : Nat) (f : LogicRun → Word → LogicRun) :
    Res.DevOnly s (s.logicWord u op area i f) := s.devOnly_logic _ _ _ _ _ _

theorem State.devOnly_logicPush (s : State) (u op area i : Nat) (b : PushOp) : Res.DevOnly s (s.logicPush u op area i b) :=
  s.devOnly_logic _ _ _ _ _ _

theorem State.devOnly_logicCmp (s : State) (u op area i : Nat) (p : Int → Int → Bool) : Res.DevOnly s (s.logicCmp u op area i p) :=
  s.devOnly_logicWord _ _ _ _ _

theorem State.devOnly_logicShift (s : State) (u op n : Nat) (right : Bool) : Res.DevOnly s (s.logicShift u op n right) :=
  s.devOnly_logic _ _ _ _ _ _

theorem State.devOnly_logicEdge (s : State) (op : Nat) (falling : Bool) (u n : Nat) : Res.DevOnly s (s.logicEdge op falling u n) :=
  s.devOnly_logic _ _ _ _ _ _

theorem State.devOnly_logicTimer (s : State) (op typ u n : Nat) : Res.DevOnly s (s.logicTimer op typ u n) := s.devOnly_logic _ _ _ _ _ _

theorem State.devOnly_logicCtr (s : State) (op u n : Nat) (f : LogicEnv → LogicRun → LogicRun) : Res.DevOnly s (s.logicCtr op u n f) :=
  s.devOnly_logic _ _ _ _ _ _

theorem State.devOnly_logicJump (s : State) (u op t : Nat) (c : Bool → Bool) : Res.DevOnly s (s.logicJump u op t c) := by
  unfold State.logicJump
  split
  · exact s.devOnly_self
  · split
    · exact s.devOnly_on _
    · exact s.devOnly_fault _

theorem execSlotWrite_devOnly (q : Req) (slot : Nat) (img : List Byte) (s : State) : Res.DevOnly s (execSlotWrite q slot img s) := by
  unfold execSlotWrite
  split
  · exact s.devOnly_eyelet_on _ _ _
  · exact s.devOnly_imageCmd _ _ _ _ _

theorem execUnknownOp_devOnly (q : Req) (op : Nat) (s : State) : Res.DevOnly s (execUnknownOp q op s) := by
  unfold execUnknownOp
  split
  · exact s.devOnly_refused _
  · exact s.devOnly_eyelet_on _ _ _

end Sys2Proof.Machine
end

section
/-!
SUPPORT. Records of the event recorder, and the canonical form of memory under every operation that writes it.
-/
namespace Sys2Proof.Machine

/-! ### Records of the event recorder (R473) -/

theorem length_zeros (n : Nat) : (zeros n).length = n := by simp [zeros]

theorem length_slice (bs : List Byte) (o n : Nat) : (slice bs o n).length = n := by simp [slice]

theorem length_putBytes (off : Nat) (xs bs : List Byte) (h : off ≤ bs.length) : (putBytes off xs bs).length = bs.length := by
  simp [putBytes]
  omega

/-- A record fills its slot. -/
theorem length_recordBytes (e : EvRec) (supp : Nat) : (recordBytes e supp).length = 64 := by
  have hbody : (recordBody e supp).length = 64 := by simp [recordBody, length_zeros, length_slice]
  have hmark : (putBytes 0x1A (leBytes 2 0xA55A) (recordBody e supp)).length = 64 := by
    rw [length_putBytes _ _ _ (by omega), hbody]
  rw [recordBytes, length_putBytes _ _ _ (by omega), hmark]

/-- The slot that the next record takes: the permanent area first. -/
def EvtSt.nextSlot (x : EvtSt) : Nat := if x.pfill < nPerm then x.pfill else x.wptr

/-- A record is written into the next slot and nowhere else. -/
theorem Dev.writeRec_mem (e : EvRec) (dm : Dev × List Host.Cell) :
    (Dev.writeRec e dm).2 = memPut (slotAddr dm.1.evt.nextSlot) (recordBytes e (Tbl.getD 0 dm.1.evt.supp e.code)) dm.2 := by
  unfold Dev.writeRec EvtSt.nextSlot
  dsimp only

theorem Dev.writeRec_mem_out {a : Nat} (e : EvRec) (dm : Dev × List Host.Cell)
    (h : a < slotAddr dm.1.evt.nextSlot ∨ slotAddr dm.1.evt.nextSlot + 64 ≤ a) : memGet (Dev.writeRec e dm).2 a = memGet dm.2 a := by
  rw [Dev.writeRec_mem, memGet_memPut_out _ _ _ _ (by rwa [length_recordBytes])]

/-- EVT_RECORD_WRITE leaves memory alone or writes one record into the slot that was next. -/
theorem Dev.recordWrite_cases (dm : Dev × List Host.Cell) :
    Dev.recordWrite dm = dm ∨ ∃ e d, Dev.recordWrite dm = Dev.writeRec e (d, dm.2) ∧ d.evt.nextSlot = dm.1.evt.nextSlot := by
  unfold Dev.recordWrite
  dsimp only
  split
  · exact .inl rfl
  · split
    · exact .inl rfl
    · split
      · exact .inr ⟨_, _, rfl, rfl⟩
      · exact .inr ⟨_, _, rfl, rfl⟩

theorem Dev.recordWrite_mem_out {a : Nat} (dm : Dev × List Host.Cell)
    (h : a < slotAddr dm.1.evt.nextSlot ∨ slotAddr dm.1.evt.nextSlot + 64 ≤ a) : memGet (Dev.recordWrite dm).2 a = memGet dm.2 a := by
  rcases Dev.recordWrite_cases dm with hw | ⟨e, d, hw, hs⟩
  · rw [hw]
  · rw [hw, Dev.writeRec_mem_out _ _ (by rwa [hs])]

/-! ### The canonical form under the operations that write memory -/

section
variable {m : List Host.Cell} (h : Memory.wf m = true) (d : Dev)
include h

theorem Dev.writeRec_wf (e : EvRec) : Memory.wf (Dev.writeRec e (d, m)).2 = true := by
  rw [Dev.writeRec_mem]
  exact Memory.wf_memPut _ _ _ h

theorem Dev.recordWrite_wf : Memory.wf (Dev.recordWrite (d, m)).2 = true := by
  rcases Dev.recordWrite_cases (d, m) with hw | ⟨e, d', hw, -⟩
  · rwa [hw]
  · rw [hw]
    exact Dev.writeRec_wf h d' e

theorem Dev.recErase_wf : Memory.wf (Dev.recErase (d, m)).2 = true := by
  unfold Dev.recErase
  dsimp only
  refine Dev.writeRec_wf ?_ _ _
  exact Memory.wf_filter _ m h

theorem Dev.clearDone_wf : Memory.wf (Dev.clearDone (d, m)).2 = true := by
  unfold Dev.clearDone
  dsimp only
  split
  · dsimp only
    exact Dev.recErase_wf h _
  · exact h

theorem Dev.struck_wf (flips : List (Nat × Byte)) : Memory.wf (Dev.struck flips (d, m)).2 = true := by
  unfold Dev.struck
  extract_lets m' hit ts
  exact Dev.strike_wf d flips m h

/-! Evaluations and completions -/

theorem Dev.evalUnit_wf (u : Nat) (tiles : List (Nat × List Byte)) : Memory.wf (Dev.evalUnit u tiles (d, m)).2 = true := by
  unfold Dev.evalUnit
  extract_lets d0 m0 dh m1 dm x rv still
  have hm : Memory.wf m1 = true := Memory.wf_foldl _ dh.2 m0 h (fun _ _ _ hx => Memory.wf_memPut _ _ _ hx)
  exact Dev.commitTiles_wf u tiles (dh.1, m1) hm

theorem Dev.complete_wf (u : Nat) (tiles : List (Nat × List Byte)) : Memory.wf (Dev.complete u tiles (d, m)).2 = true := by
  unfold Dev.complete
  extract_lets d0 x s d1 scanned r d2 g d3 d4 d5 d6 p d7
  split
  · exact h
  · split
    · exact h
    · split
      · exact h
      · exact Dev.evalUnit_wf h d u tiles

theorem Dev.unitDone_wf (u : Nat) (tiles : List (Nat × List Byte)) : Memory.wf (Dev.unitDone u tiles (d, m)).2 = true := by
  unfold Dev.unitDone
  extract_lets x n pend bad r
  have hr : Memory.wf r.2 = true := by
    clear_value bad
    cases bad with
    | none => exact Dev.complete_wf h d u tiles
    | some t => exact h
  split
  · exact hr
  · exact hr

theorem Dev.itemComplete_wf (u : Nat) (tiles : List (Nat × List Byte)) : Memory.wf (Dev.itemComplete u tiles (d, m)).2 = true := by
  have heval := Dev.evalUnit_wf h d u tiles
  unfold Dev.itemComplete
  extract_lets x
  split
  · exact h
  · split
    · exact h
    · split
      · exact h
      · extract_lets scanned r d1 die q d2 s d3 p d4 key d5 d6
        split
        · exact heval
        · exact heval

theorem Dev.itemDone_wf (u : Nat) (tiles : List (Nat × List Byte)) : Memory.wf (Dev.itemDone u tiles (d, m)).2 = true := by
  have hitem := Dev.itemComplete_wf h d u tiles
  unfold Dev.itemDone
  extract_lets r
  split
  · exact h
  · split
    · exact hitem
    · exact hitem

/-! Tiles: restores, held writes, recipe steps, the force mirror -/

theorem Dev.tileWrites_wf {α : Type} (l : List α) (t : α → Nat) (bs : Dev → α → List Byte) (dirty : Bool) :
    Memory.wf (l.foldl (fun dm x => Dev.tileWrite (t x) (bs dm.1 x) dirty dm) (d, m)).2 = true :=
  Memory.wf_foldl_snd _ l (d, m) h (fun _ _ _ hy => Dev.tileWrite_wf _ _ _ _ hy)

theorem Dev.restoreDone_wf (u : Nat) (flips : List (Nat × Byte)) : Memory.wf (Dev.restoreDone u flips (d, m)).2 = true := by
  unfold Dev.restoreDone
  extract_lets x all ts r old sem d'
  split
  · exact h
  · have hr : Memory.wf r.2 = true := Dev.tileWrites_wf h d ts (·.ptile) (fun d t => d.restoreOf u t) false
    exact Dev.struck_wf hr _ flips

theorem Dev.tileApply_wf (u : Nat) (ws : List (Nat × Byte)) (b : Bool) (l : Nat) :
    Memory.wf (Dev.tileApply u ws ((d, m), b) l).1.2 = true := by
  unfold Dev.tileApply
  extract_lets d0 m0 part coef cs g
  split
  · exact h
  · split
    · exact h
    · extract_lets m' dm
      have hm : Memory.wf m' = true := Memory.wf_foldl _ part m h (fun _ _ _ hx => Memory.wf_memSet _ _ _ hx)
      have hdm : Memory.wf dm.2 = true := Dev.tileWrite_wf _ _ true (d, m') hm
      clear_value dm
      split
      · exact h
      · exact hdm

theorem Dev.tileApplies_wf (u : Nat) (ws : List (Nat × Byte)) (b : Bool) (ls : List Nat) :
    Memory.wf (ls.foldl (Dev.tileApply u ws) ((d, m), b)).1.2 = true :=
  foldl_keeps (fun a : (Dev × List Host.Cell) × Bool => Memory.wf a.1.2 = true) _ ls ((d, m), b) h
    (fun a l _ ha => Dev.tileApply_wf ha a.1.1 u ws a.2 l)

theorem Dev.tileWriteApply_wf (u : Nat) : Memory.wf (Dev.tileWriteApply u (d, m)).2 = true := by
  unfold Dev.tileWriteApply
  extract_lets x
  split
  · exact h
  · next o ws rest _ =>
    extract_lets r d1
    have hr : Memory.wf r.1.2 = true := by
      simp only [r]
      exact Dev.tileApplies_wf h _ u ws false _
    clear_value r
    split
    · exact h
    · exact hr

theorem Dev.slotTiles_wf (u i : Nat) (img : List Byte) (slots : List (Option Nat)) : Memory.wf (Dev.slotTiles u i img slots (d, m)).2 = true := by
  refine Memory.wf_foldl_snd _ _ (d, m) h (fun y p _ hy => ?_)
  split
  · exact hy
  · split
    · split
      · exact hy
      · exact Dev.tileWrite_wf _ _ _ _ hy
    · exact hy

theorem Dev.fetchDone_wf (u : Nat) (n : FetchEnd) : Memory.wf (Dev.fetchDone u n (d, m)).2 = true := by
  unfold Dev.fetchDone
  extract_lets d0 x s
  split
  · exact h
  · extract_lets succ slots g d1
    split
    · exact h
    · split
      · exact h
      · exact Dev.slotTiles_wf h d1 _ _ _ _

theorem Dev.mirror_wf (u : Nat) : Memory.wf (Dev.mirror u (d, m)).2 = true := by
  unfold Dev.mirror
  split
  · exact Dev.tileWrite_wf _ _ _ _ h
  · exact h

theorem Dev.mirrorAll_wf : Memory.wf (Dev.mirrorAll (d, m)).2 = true := by
  unfold Dev.mirrorAll
  exact Memory.wf_foldl_snd _ _ (d, m) h (fun y u _ hy => Dev.mirror_wf hy y.1 u)

theorem Dev.forceApply_wf : Memory.wf (Dev.forceApply (d, m)).2 = true := by
  unfold Dev.forceApply
  extract_lets d0
  split
  · exact Dev.mirror_wf h _ _
  · exact h

theorem Dev.restoreUnit_wf (u : Nat) : Memory.wf (Dev.restoreUnit u (d, m)).2 = true := by
  unfold Dev.restoreUnit
  extract_lets d1 r sem sem' d2
  have hr : Memory.wf r.2 = true := Dev.tileWrites_wf h d1 (d1.un u).tiles (·.ptile) (fun d t => d.restoreOf u t) false
  exact hr

theorem Dev.restoreUnits_wf (us : List Nat) : Memory.wf (us.foldl (fun dm u => Dev.restoreUnit u dm) (d, m)).2 = true :=
  Memory.wf_foldl_snd _ us (d, m) h (fun y u _ hy => Dev.restoreUnit_wf hy y.1 u)

theorem Dev.fabricRestore_wf (plr : Bool) : Memory.wf (Dev.fabricRestore plr (d, m)).2 = true := by
  unfold Dev.fabricRestore
  extract_lets us d1 r
  have hr : Memory.wf r.2 = true := Dev.restoreUnits_wf h d1 us
  exact Dev.mirrorAll_wf hr _

/-! The duplex pair -/

theorem Dev.takeover_wf (cause : Nat) : Memory.wf (Dev.takeover cause (d, m)).2 = true := by
  unfold Dev.takeover
  extract_lets d0 ns d1 d2 d3 r d4 d5
  dsimp only
  exact Dev.fabricRestore_wf h _ false

theorem Dev.activeFailed_wf (cause : Nat) : Memory.wf (Dev.activeFailed cause (d, m)).2 = true := by
  unfold Dev.activeFailed
  split
  · exact Dev.takeover_wf h d cause
  · exact h

theorem Dev.dxJudge_wf : Memory.wf (Dev.dxJudge (d, m)).2 = true := by
  have hfailed := Dev.activeFailed_wf h d 1
  unfold Dev.dxJudge
  extract_lets d0 w hb d1
  split
  · split
    · exact h
    · split
      · exact h
      · exact hfailed
  · split
    · exact hfailed
    · exact h

theorem Dev.heartbeat_wf (pair : Bool) (role claim hclaim : Nat) (welt : Option (Nat × Nat)) :
    Memory.wf (Dev.heartbeat pair role claim hclaim welt (d, m)).2 = true := by
  unfold Dev.heartbeat
  extract_lets d0 now gap was n d1 d2 d3 d4 d5 d6
  split
  · exact h
  · split
    · exact Dev.activeFailed_wf h _ 2
    · exact Dev.dxJudge_wf h _

theorem Dev.pathMissed_wf (pair : Bool) : Memory.wf (Dev.pathMissed pair (d, m)).2 = true := by
  unfold Dev.pathMissed
  extract_lets d0 n due was d1 both d2
  split
  · exact h
  · exact Dev.dxJudge_wf h _

theorem Dev.applyTiles_wf (n k : Nat) (ts : List (Nat × List Byte)) : Memory.wf (Dev.applyTiles n k ts (d, m)).2 = true := by
  unfold Dev.applyTiles
  extract_lets r us
  have hr : Memory.wf r.2 = true := by
    refine Memory.wf_foldl_snd _ ts (d, m) h (fun y t _ hy => ?_)
    split
    · exact Dev.tileWrite_wf _ _ _ _ hy
    · exact hy
  exact Memory.wf_foldl_snd _ us r hr (fun _ _ _ hy => hy)

theorem Dev.derive_wf (k : Nat) : Memory.wf (Dev.derive k (d, m)).2 = true := by
  unfold Dev.derive
  extract_lets d0 us all parts r d1 d2
  split
  · exact h
  · refine Memory.wf_foldl_snd _ all (d, m) h (fun y a _ hy => ?_)
    extract_lets u sem x st dm d1 c key
    have hdm : Memory.wf dm.2 = true := Dev.tileWrites_wf hy y.1 st (fun t => t.1.ptile) (fun _ t => t.2) false
    exact hdm

theorem Dev.weltCommit_wf (f : WeltFrame) : Memory.wf (Dev.weltCommit f (d, m)).2 = true := by
  unfold Dev.weltCommit
  extract_lets d0 n k ts img d1 r d2 r2
  have hr : Memory.wf r.2 = true := by
    simp only [r]
    split
    · exact h
    · exact Dev.applyTiles_wf h d1 n k ts
  have hr2 : Memory.wf r2.2 = true := by
    simp only [r2]
    split
    · exact hr
    · exact hr
  split
  · exact h
  · split
    · exact Dev.derive_wf hr2 r2.1 k
    · exact hr2

/-! Boundaries -/

theorem Dev.bnOn_wf (n : Nat) : Memory.wf (Dev.bnOn n (d, m)).2 = true := by
  unfold Dev.bnOn
  extract_lets d0 gap d1 us r d2 d3
  split
  · exact h
  · exact Dev.restoreUnits_wf h d1 us

theorem Dev.boundary_wf (mask : Nat) (env : BoundaryEnv) : Memory.wf (Dev.boundary mask env (d, m)).2 = true := by
  unfold Dev.boundary
  extract_lets dm ns reach d1 r m1 a d2 d3 d4 d5 d6 d7 d8 d9 d10 s d11
  have hr : Memory.wf m1 = true := Memory.wf_foldl_snd _ ns (d1, dm.2) h (fun y n _ hy => Dev.bnOn_wf hy y.1 n)
  exact Dev.struck_wf hr d10 env.flips

/-! Resets and the life cycle -/

theorem Dev.sysEnter_wf (por : Bool) : Memory.wf (Dev.sysEnter por (d, m)).2 = true := by
  unfold Dev.sysEnter
  extract_lets d1 d2 supply n n'
  exact Memory.wf_filter _ _ h

theorem Dev.enterReach_wf (r : Nat) : Memory.wf (Dev.enterReach r (d, m)).2 = true := by
  unfold Dev.enterReach
  split
  · exact h
  · exact Dev.sysEnter_wf h d _

theorem Dev.assertReset_wf (code : Nat) : Memory.wf (Dev.assertReset code (d, m)).2 = true := by
  unfold Dev.assertReset
  extract_lets d0 level old d1 d2
  split
  · exact h
  · split
    · exact h
    · split
      · exact Dev.sysEnter_wf h _ false
      · split
        · exact Dev.enterReach_wf h _ _
        · exact h

theorem Dev.lcRequest_wf (q : Req) (sub : Nat) (msg : LcMsg) : Memory.wf (Dev.lcRequest q sub msg (d, m)).2 = true := by
  unfold Dev.lcRequest
  extract_lets d0 why r d1 d2 moves d3 d4
  split
  · exact h
  · split
    · exact Dev.assertReset_wf h _ _
    · exact h

theorem Dev.eraseEnd_wf : Memory.wf (Dev.eraseEnd (d, m)).2 = true := by
  unfold Dev.eraseEnd
  extract_lets d0 lc d1 r
  have hr : Memory.wf r.2 = true := Dev.recErase_wf h d1
  clear_value r
  split
  · exact h
  · split
    · exact Dev.assertReset_wf hr r.1 _
    · exact hr

/-! Loads, resume and the resume record -/

theorem Dev.fillUnit_wf (u : Nat) : Memory.wf (Dev.fillUnit u (d, m)).2 = true := by
  unfold Dev.fillUnit
  extract_lets r d1 sem
  have hr : Memory.wf r.2 = true := Dev.tileWrites_wf h d (d.un u).tiles (·.ptile) (fun d t => d.tileImage t) false
  exact hr

theorem Dev.mapLast_wf (l : LastRec) : Memory.wf (Dev.mapLast l (d, m)).1.2 = true := by
  unfold Dev.mapLast
  dsimp only
  split
  · exact h
  · refine Memory.wf_foldl_snd _ _ _ ?_ (fun y u _ hy => Dev.fillUnit_wf hy y.1 u)
    exact h

theorem Dev.loadMap_wf : Memory.wf (Dev.loadMap (d, m)).2 = true := by
  unfold Dev.loadMap
  split
  · exact h
  · extract_lets red r banks d1
    have hr : Memory.wf r.1.2 = true := Dev.mapLast_wf h d red
    split
    · exact hr
    · exact hr

theorem Dev.resumeReady_wf : Memory.wf (Dev.resumeReady (d, m)).2 = true := by
  unfold Dev.resumeReady
  extract_lets d0 now d1 r d2 go back d3
  split
  · exact h
  · split
    · exact Dev.loadMap_wf h _
    · exact Dev.fabricRestore_wf h d1 false

theorem Dev.plrCopied_wf : Memory.wf (Dev.plrCopied (d, m)).2 = true := by
  unfold Dev.plrCopied
  dsimp only
  split
  · exact h
  · refine Memory.wf_foldl_snd _ _ _ ?_ (fun y c _ hy => Dev.assertReset_wf hy y.1 c)
    exact h

theorem Dev.plrApplyTo_wf : Memory.wf (Dev.plrApplyTo (d, m)).2 = true := by
  unfold Dev.plrApplyTo
  extract_lets d0 d1 d2 r
  exact Dev.fabricRestore_wf h d2 true

end
end Sys2Proof.Machine
end

section
/-!
SUPPORT. What a command does to memory: the commands that store nothing, and the canonical form under every command.
-/
namespace Sys2Proof.Machine

/-- A command outside `storesMem` changes the device alone. -/
theorem exec_devOnly (c : Instr) (s : State) (h : storesMem c = false) : Res.DevOnly s (exec c s) := by
  cases c with
  | samplePresent | checkpointCopyDone | dispatchAccept | dispatchHandover | spillReturn | cmpFire | waitLockTimeout | timeSnap |
    timeSetWrite | timeStepWrite | timeIncWrite | timeVctlWrite | timeCmpTargetWrite | eyeletIdleTimeout | loopMode | loopEdit | loopSet |
    chopTrip | chopMaxOn | chopOffEnd | recipeStoreWrite | adcWindowClose | bankcalDone | rollCalDone | autocalPeriod | checkVisitTimeout |
    dioFilteredTransition | dioRejectedPulse | dioCntWrite | dioOutWrite | aoutSetWrite | pwmSetWrite | aoutCheck | pwmCarrierStart |
    historySliceWrite | historyStreamSend | holBasicCycleStart | holSlotStart | holSlotWindowClose | holArbContend | holPollReplyDue |
    holDelayMeasure | holListenTimeout | holColdstartEnd | holBackoffEnd | holSyncTimeout | canFrameReceived | canReferenceReceived |
    canReferenceDue | canBackupDue | canReferenceTimeout | canWindowStart | canTxmiss | canTxStart | canArbitrationLost | canTxComplete |
    canError | canBusoffRecovery | ethLinkChange | ethFrameReceived | ethFrameSent | ethGateChange | prpSupervisionDue | prpPathTimeout |
    ptpEventReceived | ptpGeneralReceived | ptpSendDue | ptpAnnounceTimeout | weltLinkChange | safeStartupDone | safeInputSample |
    safeIslandFault | boostDecision | pwrRailChange | marginPlanTimer | marginPlanComplete | supplyChange | holFrameDiscarded | viewSlewDone
    | regionTjDrift | dioRawEdge | stepPulse | microstepAdvance | recipeLoadDone | ethModuleChange =>
    dsimp only [exec]
    exact s.devOnly_guarded _ _
  | timeCntLoRead | refclkLoss | slotPrefWrite | bootLoad | loadRehearsalEnd | eyeletHandshake | registerWrite | cfgchkPassEnd | cfgCommit |
    cfgSuspend | cfgchkRefWrite | frcSelWrite | frcSet | frcRemove | mainsEdge | mainsTimeout | groupArm | groupFire | groupDisarm | freeze
    | freezeCopyEnd | ptpSyncTimeout | claimBeaconDue | claimBeaconReceived | weltHbDue | hbPairDue | pairWaitExpiry | weltAckDue | weltTile
    | weltPortimg | weltForce | weltRecipe | weltCtrl | weltAck | weltNak | fullCopyEnd | handoverTime | safeIslandReset |
    safeMailboxExchange | safeStore | safeClear | safeConfirmBlockEnd | safePeriodicTest | pwrEpoch | ilimExceeded | pwrBudgetWrite |
    pwrIlimWrite | marginPlan | resetEpisodeExit | trimLoadEnd | rimPllLock | serviceCoresUp | holdMaxExpiry | powerLossDetect |
    plrWaitTimeout | opsecTick | eyeletMalformed | psetStoreDone | vinRecovery | refclkReturn | follow1Lock =>
    dsimp only [exec]
    exact s.devOnly_on _
  | unitClrstat | startCold | startWarm | logicStop | testOn | testOff | adcChWrite | bankcal | roll | stoproll | engArm | engDisarm |
    engForce | engRelease | holRestart | holRestore | holClrcnt | arbqPop | arbqSend | canReq | canCancel | rxqPop | canRecover | canClrcnt
    | tscap | ethSwap =>
    dsimp only [exec]
    exact s.devOnly_regCmd _ _ _ _ _
  | axEnable | axDisable | axMoveAbs | axMoveRel | axVelocity | axStop | axGearIn | axGearOut | axOffset | axHome | axSetPos | axResetFault
    | axVmSpeed =>
    dsimp only [exec]
    exact s.devOnly_axis _ _ _ _
  | sqStart | sqHold | sqResume | sqAbort | sqReset =>
    dsimp only [exec]
    exact s.devOnly_sequencer _ _ _ _
  | holSync | holCstart | holOut | holIn | holPoll | holNull | holArb | holDlyReq | holDlyRsp | holDlySet =>
    dsimp only [exec]
    exact s.devOnly_holRx _ _ _ _ _ _
  | safeDarkPulse | safeSs1Expiry | safeLockDelayExpiry | safeMuteExpiry | safeTRelExpiry | safeResetPress | safeResetRequest | safeUnlock |
    safeLock | safeMute =>
    dsimp only [exec]
    exact s.devOnly_island _ _
  | safeDiscrepancyTimeout | safeTestPulseSample | safeReadbackTimeout =>
    dsimp only [exec]
    exact s.devOnly_islandIo _ _
  | run | stop | regRead | regWrite | memRead | memWrite | recRead | recClear | snapLock | snapClear | netcfgRead | netcfgWrite |
    dupHandover | safeConfirm =>
    dsimp only [exec]
    exact s.devOnly_eyelet_on _ _ _
  | dupJoin | dupExchPrep | dupExchAbort | dupLeave =>
    dsimp only [exec]
    exact s.devOnly_duplex _ _ _
  | fwLoad | recipeLoad =>
    dsimp only [exec]
    exact s.devOnly_eyeletImg _ _ _ _ _
  | lastStream | lastLoad | lastVerify | slotCommit =>
    dsimp only [exec]
    exact s.devOnly_imageCmd _ _ _ _ _
  | lgStw =>
    dsimp only [exec]
    exact s.devOnly_logic _ _ _ _ _ _
  | lgNop | lgNot | lgPop | lgEnd =>
    dsimp only [exec]
    exact s.devOnly_logicNone _ _ _ _
  | lgLd | lgLdn | lgAnd | lgAndn | lgOr | lgOrn | lgXor | lgXorn =>
    dsimp only [exec]
    exact s.devOnly_logicBit _ _ _ _ _
  | lgSt | lgStn | lgS | lgR =>
    dsimp only [exec]
    exact s.devOnly_logicWr _ _ _ _ _
  | lgLdw | lgAdd | lgSub | lgMul | lgDiv | lgWand | lgWor | lgWxor =>
    dsimp only [exec]
    exact s.devOnly_logicWord _ _ _ _ _
  | lgAndPush | lgAndnPush | lgOrPush | lgOrnPush | lgXorPush =>
    dsimp only [exec]
    exact s.devOnly_logicPush _ _ _ _ _
  | lgGt | lgGe | lgEq | lgNe | lgLe | lgLt =>
    dsimp only [exec]
    exact s.devOnly_logicCmp _ _ _ _ _
  | lgShl | lgShr =>
    dsimp only [exec]
    exact s.devOnly_logicShift _ _ _ _
  | lgRTrig | lgFTrig =>
    dsimp only [exec]
    exact s.devOnly_logicEdge _ _ _ _
  | lgTon | lgTof | lgTp =>
    dsimp only [exec]
    exact s.devOnly_logicTimer _ _ _ _
  | lgCtu | lgCtd | lgResc | lgLdc =>
    dsimp only [exec]
    exact s.devOnly_logicCtr _ _ _ _
  | lgJmp | lgJmpc | lgJmpcn =>
    dsimp only [exec]
    exact s.devOnly_logicJump _ _ _ _
  | slotWrite =>
    dsimp only [exec]
    exact execSlotWrite_devOnly _ _ _ s
  | unknownOp =>
    dsimp only [exec]
    exact execUnknownOp_devOnly _ _ s
  | cadenceBoundary | unitCompletion | tileRestoreDone | tileWriteApply | itemCompletion | reset | recClearDone | forceCommit |
    stepFetchDone | acqBlockWritten | weltHb | hbPairFrame | hbPathMissed | isolatedExpiry | weltCommit | dupTakeover | rstPor | rstPin |
    rstTherm | rstScwd | rstDbgSys | rstDbgCore | resumeReady | plrCopyDone | plrApply | evtRecordWrite | takeOwnership | lcSeal | lcReturn
    | lcScrap | devOn | devOff | keyAdd | keyRevoke | lcShip | loadCopyDone | lcEraseDone =>
    cases h

/-- From a canonical memory the command, where it goes on, leads to a canonical one. -/
def Res.KeepsWf (s : State) (r : Res) : Prop := Memory.wf s.mem = true → ∀ t, r = .next t → Memory.wf t.mem = true

theorem Res.DevOnly.keepsWf {s : State} {r : Res} (h : r.DevOnly s) : r.KeepsWf s := fun hm t ht => by rwa [h.mem ht]

theorem State.keepsWf_onMem {s : State} {f : Dev → List Host.Cell → Dev × List Host.Cell}
    (hf : Memory.wf s.mem = true → Memory.wf (f s.dev s.mem).2 = true) : Res.KeepsWf s (s.onMem f) := by
  intro hm t ht
  rw [State.onMem_next ht]
  exact hf hm

/-- A command whose operands are checked first. -/
theorem State.keepsWf_ite {s : State} {p : Prop} [Decidable p] {f : Dev → List Host.Cell → Dev × List Host.Cell} {e : Refusal}
    (hf : Memory.wf s.mem = true → Memory.wf (f s.dev s.mem).2 = true) : Res.KeepsWf s (if p then s.onMem f else .refused e) := by
  split
  · exact s.keepsWf_onMem hf
  · exact (s.devOnly_refused e).keepsWf

theorem State.keepsWf_eyelet {s : State} (q : Req) (p : Nat) {f : State → Res} (hf : Res.KeepsWf s (f s)) : Res.KeepsWf s (s.eyelet q p f) := by
  intro hm t ht
  rcases State.eyelet_next ht with h | ⟨h, -⟩
  · exact hf hm t h
  · rwa [h]

theorem State.keepsWf_level (s : State) (code : Nat) (on : Bool) : Res.KeepsWf s (s.level code on) := by
  refine s.keepsWf_onMem (fun hm => ?_)
  split
  · exact Dev.assertReset_wf hm _ _
  · exact hm

theorem State.keepsWf_lifeCycle (s : State) (q : Req) (sub : Nat) (m : LcMsg) : Res.KeepsWf s (s.lifeCycle q sub m) :=
  s.keepsWf_eyelet q _ (s.keepsWf_onMem (fun hm => Dev.lcRequest_wf hm _ _ _ _))

/-- A debug command whose port is shut does nothing. -/
theorem State.keepsWf_debugReset (s : State) (code : Nat) :
    Res.KeepsWf s (s.onMem (fun d m => if d.lc.debugOpen then Dev.assertReset code (d, m) else (d, m))) := by
  refine s.keepsWf_onMem (fun hm => ?_)
  split
  · exact Dev.assertReset_wf hm _ _
  · exact hm

theorem execAcqBlockWritten_keepsWf (u e : Nat) (s : State) : Res.KeepsWf s (execAcqBlockWritten u e s) := by
  refine s.keepsWf_ite (fun hm => ?_)
  split
  · exact Memory.wf_memPut _ _ _ hm
  · exact hm

theorem execWeltHb_keepsWf (bytes : List Byte) (ok : Bool) (s : State) : Res.KeepsWf s (execWeltHb bytes ok s) := by
  refine s.keepsWf_onMem (fun hm => ?_)
  extract_lets d
  split
  · exact Dev.heartbeat_wf hm _ _ _ _ _ _
  · exact hm

theorem execHbPairFrame_keepsWf (bytes : List Byte) (ok : Bool) (s : State) : Res.KeepsWf s (execHbPairFrame bytes ok s) := by
  refine s.keepsWf_onMem (fun hm => ?_)
  split
  · exact Dev.heartbeat_wf hm _ _ _ _ _ _
  · exact hm

theorem execIsolatedExpiry_keepsWf (s : State) : Res.KeepsWf s (execIsolatedExpiry s) := by
  refine s.keepsWf_onMem (fun hm => ?_)
  split
  · split
    · exact Dev.takeover_wf hm _ _
    · exact hm
  · exact hm

theorem execWeltCommit_keepsWf (f : WeltFrame) (ok : Bool) (s : State) : Res.KeepsWf s (execWeltCommit f ok s) := by
  refine s.keepsWf_onMem (fun hm => ?_)
  extract_lets d
  split
  · exact Dev.weltCommit_wf hm _ _
  · exact hm

theorem execDupTakeover_keepsWf (q : Req) (s : State) : Res.KeepsWf s (execDupTakeover q s) := by
  refine s.keepsWf_eyelet q _ (s.keepsWf_onMem (fun hm => ?_))
  have hr : Memory.wf (Dev.takeover 4 (s.dev, s.mem)).2 = true := Dev.takeover_wf hm _ _
  generalize Dev.takeover 4 (s.dev, s.mem) = r at hr
  split
  · exact hr
  · exact hm

theorem execReset_keepsWf (q : Req) (reach : Nat) (s : State) : Res.KeepsWf s (execReset q reach s) := by
  refine s.keepsWf_eyelet q _ (s.keepsWf_onMem (fun hm => ?_))
  split
  · exact hm
  · exact Dev.assertReset_wf hm _ _

theorem execLoadCopyDone_keepsWf (ok : Bool) (s : State) : Res.KeepsWf s (execLoadCopyDone ok s) := by
  refine s.keepsWf_onMem (fun hm => ?_)
  split
  · split
    · exact hm
    · split
      · exact hm
      · exact Dev.loadMap_wf hm _
  · exact hm

theorem execPlrApply_keepsWf (s : State) : Res.KeepsWf s (execPlrApply s) := by
  refine s.keepsWf_onMem (fun hm => ?_)
  split
  · exact hm
  · split
    · exact hm
    · split
      · exact Dev.plrApplyTo_wf hm _
      · exact hm

/-- So does a command that stores: each of its operations that write memory does. -/
theorem exec_keepsWf_of_stores (c : Instr) (s : State) (h : storesMem c = true) : Res.KeepsWf s (exec c s) := by
  cases c with
  | cadenceBoundary =>
    dsimp only [exec]
    exact s.keepsWf_ite (fun hm => Dev.boundary_wf hm _ _ _)
  | unitCompletion =>
    dsimp only [exec]
    exact s.keepsWf_ite (fun hm => Dev.unitDone_wf (Dev.struck_wf hm _ _) _ _ _)
  | itemCompletion =>
    dsimp only [exec]
    exact s.keepsWf_ite (fun hm => Dev.itemDone_wf (Dev.struck_wf hm _ _) _ _ _)
  | stepFetchDone =>
    dsimp only [exec]
    exact s.keepsWf_ite (fun hm => Dev.fetchDone_wf hm _ _ _)
  | forceCommit =>
    dsimp only [exec]
    exact s.keepsWf_onMem (fun hm => Dev.forceApply_wf hm _)
  | tileRestoreDone =>
    dsimp only [exec]
    exact s.keepsWf_ite (fun hm => Dev.restoreDone_wf hm _ _ _)
  | tileWriteApply =>
    dsimp only [exec]
    exact s.keepsWf_ite (fun hm => Dev.tileWriteApply_wf hm _ _)
  | loadCopyDone => exact execLoadCopyDone_keepsWf _ s
  | acqBlockWritten => exact execAcqBlockWritten_keepsWf _ _ s
  | hbPathMissed =>
    dsimp only [exec]
    exact s.keepsWf_onMem (fun hm => Dev.pathMissed_wf hm _ _)
  | isolatedExpiry => exact execIsolatedExpiry_keepsWf s
  | hbPairFrame => exact execHbPairFrame_keepsWf _ _ s
  | weltHb => exact execWeltHb_keepsWf _ _ s
  | weltCommit => exact execWeltCommit_keepsWf _ _ s
  | dupTakeover => exact execDupTakeover_keepsWf _ s
  | evtRecordWrite =>
    dsimp only [exec]
    exact s.keepsWf_onMem (fun hm => Dev.recordWrite_wf hm _)
  | recClearDone =>
    dsimp only [exec]
    exact s.keepsWf_onMem (fun hm => Dev.clearDone_wf hm _)
  | lcEraseDone =>
    dsimp only [exec]
    exact s.keepsWf_onMem (fun hm => Dev.eraseEnd_wf hm _)
  | reset => exact execReset_keepsWf _ _ s
  | rstPor | rstPin | rstTherm =>
    dsimp only [exec]
    exact s.keepsWf_level _ _
  | rstScwd =>
    dsimp only [exec]
    exact s.keepsWf_onMem (fun hm => Dev.assertReset_wf hm _ _)
  | rstDbgSys | rstDbgCore =>
    dsimp only [exec]
    exact s.keepsWf_debugReset _
  | resumeReady =>
    dsimp only [exec]
    exact s.keepsWf_onMem (fun hm => Dev.resumeReady_wf hm _)
  | plrCopyDone =>
    dsimp only [exec]
    exact s.keepsWf_onMem (fun hm => Dev.plrCopied_wf hm _)
  | plrApply => exact execPlrApply_keepsWf s
  | takeOwnership | lcSeal | lcReturn | lcScrap | devOn | devOff | keyAdd | keyRevoke | lcShip =>
    dsimp only [exec]
    exact s.keepsWf_lifeCycle _ _ _
  | _ => cases h

theorem exec_keepsWf (c : Instr) (s : State) : Res.KeepsWf s (exec c s) := by
  cases h : storesMem c with
  | false => exact (exec_devOnly c s h).keepsWf
  | true => exact exec_keepsWf_of_stores c s h

end Sys2Proof.Machine

open Sys2Proof Sys2Proof.Machine

/-- Settles O5: a step runs one command, which keeps the canonical form, or passes one tick, which leaves memory alone. -/
theorem stepKeepsMemoryCanonical : Obligations.StepKeepsMemoryCanonical := by
  unfold Obligations.StepKeepsMemoryCanonical
  intro s t hwf ht
  unfold step at ht
  split at ht
  · next c rest _ => exact exec_keepsWf c { s with pending := rest } hwf t ht
  · cases ht
    exact hwf

/-- Settles O17: the commands outside `storesMem` change the device alone, and a record fills the slot that is next. -/
theorem memoryFrame : Obligations.MemoryFrame := by
  unfold Obligations.MemoryFrame
  refine ⟨fun c s t hc ht => (exec_devOnly c s hc).mem ht, ?_⟩
  intro s t a ht i ha
  dsimp only [exec] at ht
  rw [State.onMem_next ht]
  exact Dev.recordWrite_mem_out (s.dev, s.mem) ha
end

section
/-!
SUPPORT. The dispatcher: what becomes of an item at its acceptance, at a hand-over and when spilled items return (R84 to R89).
-/
namespace Sys2Proof.Machine

theorem does_guarded {c : Instr} {s : State} {ok : Bool} {f : Dev → Dev} {P : Dev → Prop} (h : exec c s = s.guarded ok f) (hok : ok = true)
    (hp : P (f s.dev)) : Does c s P := does_on (h.trans (by rw [hok]; rfl)) hp

/-! ### Acceptance (R84, R87, R89) -/

/-- While the fabric is down nothing is accepted. -/
theorem Dev.acceptItem_down {d : Dev} (h : d.rst.dark = true ∨ d.rst.epi ≠ none) (die flow origin : Nat) (payload : List Byte) :
    d.acceptItem die flow origin payload = d := by
  have hdown : (d.rst.dark || d.rst.epi.isSome) = true := by simpa [Option.isSome_iff_ne_none] using h
  unfold Dev.acceptItem
  rw [if_pos hdown]

/-- The dispatcher of a die. -/
def Dev.dispOf (d : Dev) (die : Nat) : DispSt := Tbl.getD {} d.disp die

def Dev.setDisp (die : Nat) (q : DispSt) (d : Dev) : Dev := { d with disp := Tbl.put die q d.disp }

@[simp] theorem Dev.dispOf_setDisp (die : Nat) (q : DispSt) (d : Dev) : (d.setDisp die q).dispOf die = q := Tbl.getD_put_self _ _ _ _

/-- The item that an acceptance makes. -/
def Dev.newItem (d : Dev) (flow level origin : Nat) (payload : List Byte) : Item :=
  { stamp := d.time.cnt, flow := flow, level := level, origin := origin, payload := payload }

/-- An item behind those on chip, and one behind those in the ring. -/
def DispSt.keep (it : Item) (q : DispSt) : DispSt := { q with store := q.store ++ [it] }
def DispSt.spill (it : Item) (q : DispSt) : DispSt := { q with ring := q.ring ++ [it] }

/-- A level's store is below its quota and the flow has nothing in the ring. -/
def DispSt.hasRoom (q : DispSt) (flow level quota : Nat) : Prop :=
  (q.store.filter (fun x => x.level = level)).length < quota ∧ ∀ x ∈ q.ring, ¬ (x.level = level ∧ x.flow = flow)

/-- The level has a ring, and it is not full. -/
def DispSt.hasRing (q : DispSt) (level ringlog : Nat) : Prop :=
  ringlog ≠ 0 ∧ (q.ring.filter (fun x => x.level = level)).length < 2 ^ ringlog

/-- A refused item is counted at its level, sets DROP and raises the event. -/
def Dev.dropItem (die level : Nat) (d : Dev) : Dev :=
  ((d.bump R.DISP_LVL_DROP_COUNT 1 0 die level).wb R.DISP_STAT_DROP true).raise Ev.DISP_DROP 0 []

/-- The room as the acceptance tests it. -/
theorem DispSt.hasRoom_iff (q : DispSt) (flow level quota : Nat) :
    q.hasRoom flow level quota ↔ (q.store.filter (fun x => x.level = level)).length < quota ∧
      (!(q.ring.any (fun x => x.level = level && x.flow = flow))) = true := by
  simp [DispSt.hasRoom]

section
variable {d : Dev} {die flow : Nat} {f : FlowRec} {l : LevelRec} (hdark : d.rst.dark = false) (hepi : d.rst.epi = none)
  (hf : d.flowOf die flow = some f) (hl : d.levelOf die f.level = some l) (origin : Nat) (payload : List Byte)
include hdark hepi hf hl

theorem Dev.acceptItem_onChip (h : (d.dispOf die).hasRoom flow f.level l.quota) :
    d.acceptItem die flow origin payload = d.setDisp die ((d.dispOf die).keep (d.newItem flow f.level origin payload)) := by
  rw [DispSt.hasRoom_iff] at h
  unfold Dev.acceptItem
  simp only [hdark, hepi, hf, hl, Option.isSome_none, Bool.or_self, Bool.false_eq_true, if_false]
  exact if_pos h

theorem Dev.acceptItem_inRing (h : ¬ (d.dispOf die).hasRoom flow f.level l.quota) (hr : (d.dispOf die).hasRing f.level l.ringlog) :
    d.acceptItem die flow origin payload = d.setDisp die ((d.dispOf die).spill (d.newItem flow f.level origin payload)) := by
  rw [DispSt.hasRoom_iff] at h
  unfold Dev.acceptItem
  simp only [hdark, hepi, hf, hl, Option.isSome_none, Bool.or_self, Bool.false_eq_true, if_false]
  exact (if_neg h).trans (if_pos hr)

theorem Dev.acceptItem_refused (h : ¬ (d.dispOf die).hasRoom flow f.level l.quota) (hr : ¬ (d.dispOf die).hasRing f.level l.ringlog) :
    d.acceptItem die flow origin payload = d.dropItem die f.level := by
  rw [DispSt.hasRoom_iff] at h
  unfold Dev.acceptItem
  simp only [hdark, hepi, hf, hl, Option.isSome_none, Bool.or_self, Bool.false_eq_true, if_false]
  exact (if_neg h).trans (if_neg hr)

end

/-- A counter that saturates after one more count. -/
theorem Dev.rf_bump_self (f : F) (n : Nat) (d : Dev) (k i j : Nat) :
    (d.bump f n k i j).rf f k i j = satAdd (2 ^ f.w - 1) (d.rf f k i j) n := by
  have hpow := Nat.two_pow_pos f.w
  rw [Dev.bump, Dev.rf_wf_self]
  refine Nat.mod_eq_of_lt ?_
  unfold satAdd
  split <;> omega

theorem addr_lvlDrop (die level : Nat) : R.DISP_LVL_DROP_COUNT.addr 0 die level = 0x70400 + die * 0x80 + level * 0x4 := by
  simp [F.addr_def, R.DISP_LVL_DROP_COUNT, Blk.base]

theorem addr_dispDrop : R.DISP_STAT_DROP.addr 0 0 0 = 0x70004 := by decide

theorem Dev.dropItem_disp (die level : Nat) (d : Dev) : (d.dropItem die level).disp = d.disp := by simp [Dev.dropItem]

theorem Dev.dropItem_raises (die level : Nat) (d : Dev) : Raises Ev.DISP_DROP 0 d (d.dropItem die level) :=
  ⟨(d.bump R.DISP_LVL_DROP_COUNT 1 0 die level).wb R.DISP_STAT_DROP true, [], by simp, rfl⟩

theorem Dev.dropItem_flag (die level : Nat) (d : Dev) : (d.dropItem die level).rf R.DISP_STAT_DROP = 1 := by
  have haddr := addr_dispDrop
  rw [Dev.dropItem, Dev.raise_rf _ _ _ _ _ _ _ _ (by omega) (by omega) (by omega), Dev.wb, Dev.rf_wf_self]
  rfl

theorem Dev.dropItem_count {die level : Nat} (hd : die < 2) (hl : level < 16) (d : Dev) :
    (d.dropItem die level).rf R.DISP_LVL_DROP_COUNT 0 die level =
      satAdd (2 ^ R.DISP_LVL_DROP_COUNT.w - 1) (d.rf R.DISP_LVL_DROP_COUNT 0 die level) 1 := by
  have haddr := addr_lvlDrop die level
  have hflag := addr_dispDrop
  rw [Dev.dropItem, Dev.raise_rf _ _ _ _ _ _ _ _ (by omega) (by omega) (by omega), Dev.wb, Dev.rf_wf_word _ _ (by omega), Dev.rf_bump_self]

/-! ### Spilled items return (R87) -/

/-- The die's store and ring after a level's spilled items have come back as far as the quota goes. -/
def DispSt.spillBack (level quota : Nat) (q : DispSt) : DispSt :=
  let mine := q.ring.filter (fun x => decide (x.level = level))
  let n := (q.store.filter (fun x => decide (x.level = level))).length
  { q with store := q.store ++ mine.take (quota - n), ring := q.ring.filter (fun x => decide (x.level ≠ level)) ++ mine.drop (quota - n) }

theorem Dev.spillReturn_eq {d : Dev} {die level : Nat} {l : LevelRec} (h : d.levelOf die level = some l) :
    d.spillReturn die level = d.setDisp die ((d.dispOf die).spillBack level l.quota) := by
  simp only [Dev.spillReturn, h]
  rfl

section
variable (level quota : Nat) (q : DispSt)

/-- Of a part of the level's own items, all are the level's. -/
theorem filter_level_eq_self {xs : List Item} (h : xs ⊆ q.ring.filter (fun x => decide (x.level = level))) :
    xs.filter (fun x => decide (x.level = level)) = xs :=
  List.filter_eq_self.2 (fun _ hx => (List.mem_filter.1 (h hx)).2)

/-- The level's items keep their order; none is lost and none is added. -/
theorem DispSt.spillBack_items :
    (q.spillBack level quota).store.filter (fun x => decide (x.level = level)) ++
        (q.spillBack level quota).ring.filter (fun x => decide (x.level = level)) =
      q.store.filter (fun x => decide (x.level = level)) ++ q.ring.filter (fun x => decide (x.level = level)) := by
  have hothers : (q.ring.filter (fun x => decide (x.level ≠ level))).filter (fun x => decide (x.level = level)) = [] := by
    simp [List.filter_filter]
  unfold DispSt.spillBack
  extract_lets mine n
  rw [List.filter_append, List.filter_append, hothers, filter_level_eq_self level q (List.take_subset _ mine),
    filter_level_eq_self level q (List.drop_subset _ mine), List.nil_append, List.append_assoc, List.take_append_drop]

/-- The store stays within the quota. -/
theorem DispSt.spillBack_quota (h : (q.store.filter (fun x => decide (x.level = level))).length ≤ quota) :
    ((q.spillBack level quota).store.filter (fun x => decide (x.level = level))).length ≤ quota := by
  unfold DispSt.spillBack
  extract_lets mine n
  rw [List.filter_append, filter_level_eq_self level q (List.take_subset _ mine), List.length_append, List.length_take]
  omega

/-- Other levels' items stay in the ring as they were. -/
theorem DispSt.spillBack_others :
    (q.spillBack level quota).ring.filter (fun x => decide (x.level ≠ level)) = q.ring.filter (fun x => decide (x.level ≠ level)) := by
  have hmine (xs : List Item) (h : xs ⊆ q.ring.filter (fun x => decide (x.level = level))) : xs.filter (fun x => decide (x.level ≠ level)) = [] :=
    List.filter_eq_nil_iff.2 (fun x hx => by simpa using (List.mem_filter.1 (h hx)).2)
  unfold DispSt.spillBack
  extract_lets mine n
  rw [List.filter_append, hmine _ (List.drop_subset _ mine), List.append_nil, List.filter_filter]
  simp

end

/-! ### A hand-over (R85, R86, R434) -/

/-- The unit is busy with the item, and the dispatchers are these. -/
structure Dev.Busy (u : Nat) (it : Item) (t : Tbl DispSt) (d : Dev) : Prop where
  run : (d.un u).run = 1
  item : (d.un u).item = some it
  disp : d.disp = t

/-- A change of the unit beside its run state and item. -/
theorem Dev.Busy.setUn {u : Nat} {it : Item} {t : Tbl DispSt} {d : Dev} (h : d.Busy u it t) {x : UnitSt} (hr : x.run = (d.un u).run)
    (hi : x.item = (d.un u).item) : (d.setUn u x).Busy u it t where
  run := by rw [Dev.un_setUn_self, hr, h.run]
  item := by rw [Dev.un_setUn_self, hi, h.item]
  disp := h.disp

theorem Dev.Busy.scanOpen {u : Nat} {it : Item} {t : Tbl DispSt} {d : Dev} (h : d.Busy u it t) (ts : Nat) (x : Option Item) :
    (d.scanOpen u ts x).Busy u it t := by
  unfold Dev.scanOpen
  dsimp only
  split
  · exact h.setUn rfl rfl
  · exact h.setUn rfl rfl

/-- The passing of a unit's tiles changes nothing of its item and no dispatcher. -/
theorem Dev.verified_item (u : Nat) (d : Dev) : ((d.verified u).un u).item = (d.un u).item ∧ (d.verified u).disp = d.disp := by
  unfold Dev.verified Dev.passed
  extract_lets d'
  have hd : d'.units = d.units ∧ d'.disp = d.disp :=
    foldl_keeps (fun y : Dev => y.units = d.units ∧ y.disp = d.disp) _ _ d ⟨rfl, rfl⟩ (fun _ _ _ hy => hy)
  exact ⟨by rw [Dev.un_unUp_self, ← Dev.un_of_units hd.1 u], hd.2⟩

/-- Its samples are read (R434): the same of them. -/
theorem Dev.takeSamples_item (u : Nat) (d : Dev) : ((d.takeSamples u).un u).item = (d.un u).item ∧ (d.takeSamples u).disp = d.disp := by
  unfold Dev.takeSamples
  dsimp only
  exact ⟨by rw [Dev.un_setUn_self], rfl⟩

/-- What the unit's dispatcher holds after the hand-over: an item that stayed with its unit has left the store before. -/
def Dev.handedOver (u : Nat) (it : Item) (d : Dev) : DispSt :=
  let q := d.dispOf (dieOf u)
  if (d.un u).item.isSome then q else { q with store := q.store.erase it, serv := q.serv ++ [it.flow] }

theorem Dev.handover_busy {d : Dev} {u : Nat} {it : Item} {m : List Host.Cell} (hc : d.choice u = some it) (hidle : d.idleEv u = true)
    (hfirst : ∀ v, v ∈ d.evUnits → v / 16 = u / 16 → v < u → d.idleEv v = true → d.choice v = none) (henv : d.envFull (rgnOf u) = false)
    (hgood : d.failing m u = none) : (d.handover u m).Busy u it (Tbl.put (dieOf u) (d.handedOver u it) d.disp) := by
  have hlower : (d.evUnits.filter (fun v => decide (v / 16 = u / 16) && decide (v < u))).any (fun v => d.idleEv v && (d.choice v).isSome) = false := by
    simp only [List.any_eq_false, List.mem_filter, Bool.and_eq_true, decide_eq_true_eq]
    rintro v ⟨hev, hcl, hlt⟩ ⟨hi, hs⟩
    rw [hfirst v hev hcl hlt hi] at hs
    cases hs
  unfold Dev.handover
  extract_lets lower die q x
  split
  · next h => simp [hc] at h
  · next it' h =>
    obtain rfl : it = it' := Option.some.inj (hc.symm.trans h)
    rw [if_neg (by simp [hidle, lower, hlower]), if_neg (by simp [henv])]
    split
    · next h => simp [hgood] at h
    · extract_lets q' y d1
      obtain ⟨hv, hvd⟩ := Dev.verified_item u (({ d with disp := Tbl.put die q' d.disp } : Dev).setUn u y)
      obtain ⟨hs, hsd⟩ := Dev.takeSamples_item u ((({ d with disp := Tbl.put die q' d.disp } : Dev).setUn u y).verified u)
      have hbusy : d1.Busy u it (Tbl.put die q' d.disp) := by
        refine ⟨?_, ?_, hsd.trans hvd⟩
        · rw [Dev.un_setRun_self]
        · rw [Dev.un_setRun_self]
          exact (hs.trans hv).trans (by rw [Dev.un_setUn_self])
      split
      · exact hbusy.scanOpen _ _
      · exact hbusy

end Sys2Proof.Machine
end

section
/-!
SUPPORT. An item's completion: what an evaluation leaves of the dispatcher, and what the unit is afterwards (R86, R434).
-/
namespace Sys2Proof.Machine

/-! ### What an evaluation leaves alone -/

/-- No dispatcher changes, and no unit's register writes that wait. -/
structure Dev.ItemsStay (d d' : Dev) : Prop where
  disp : d'.disp = d.disp
  regw : ∀ v, (d'.un v).regw = (d.un v).regw

namespace Dev.ItemsStay
variable {d d' : Dev}

theorem refl (d : Dev) : d.ItemsStay d := ⟨rfl, fun _ => rfl⟩

theorem trans {e : Dev} (h : d.ItemsStay d') (h' : d'.ItemsStay e) : d.ItemsStay e :=
  ⟨h'.disp.trans h.disp, fun v => (h'.regw v).trans (h.regw v)⟩

/-- A change beside units and dispatchers. -/
theorem beside (hu : d'.units = d.units) (hd : d'.disp = d.disp) : d.ItemsStay d' := ⟨hd, fun v => by rw [Dev.un_of_units hu v]⟩

theorem setUn (u : Nat) (x : UnitSt) (d : Dev) (hx : x.regw = (d.un u).regw) : d.ItemsStay (d.setUn u x) := by
  refine ⟨rfl, fun v => ?_⟩
  by_cases hv : v = u
  · rw [hv, Dev.un_setUn_self, hx]
  · rw [Dev.un_setUn_ne _ _ hv]

theorem unUp (u : Nat) (f : UnitSt → UnitSt) (d : Dev) (hf : ∀ x, (f x).regw = x.regw) : d.ItemsStay (d.unUp u f) := .setUn u _ d (hf _)

theorem wf (f : F) (x : Nat) (d : Dev) (k i j : Nat) : d.ItemsStay (d.wf f x k i j) := .beside rfl rfl

theorem evtOnly (h : d.EvtOnly d') : d.ItemsStay d' := by
  obtain ⟨⟨r, e, n, z, rfl⟩, -⟩ := h
  exact .beside rfl rfl

/-- A step that is taken or not. -/
theorem ite (p : Prop) [Decidable p] (h : d.ItemsStay d') : d.ItemsStay (if p then d' else d) := by
  split
  · exact h
  · exact .refl d

theorem foldl {α : Type} (f : Dev → α → Dev) (l : List α) (d : Dev) (hf : ∀ y a, Dev.ItemsStay y (f y a)) : d.ItemsStay (l.foldl f d) :=
  foldl_keeps (fun y => d.ItemsStay y) f l d (.refl d) (fun y a _ hy => hy.trans (hf y a))

end Dev.ItemsStay

theorem Dev.itemsStay_raiseAll (u : Nat) (evs : List UEv) (d : Dev) : d.ItemsStay (d.raiseAll u evs) :=
  .foldl _ evs d (fun y _ => .evtOnly (Dev.evtOnly_raise _ _ _ y))

theorem Dev.itemsStay_evalLoops (u : Nat) (m : List Host.Cell) (d : Dev) : d.ItemsStay (d.evalLoops u m) := by
  unfold Dev.evalLoops
  extract_lets cs
  refine .foldl _ _ d (fun y l => ?_)
  extract_lets c x r _ w y1
  have h1 : y.ItemsStay y1 := (Dev.ItemsStay.setUn u { x with staged := x.staged ++ r.staged, work := w } y rfl).trans (Dev.itemsStay_raiseAll u r.evs _)
  exact h1.trans (.ite _ (.wf R.UNIT_STAT_SAT 1 y1 u 0 0))

theorem Dev.itemsStay_evalLogic (u : Nat) (d : Dev) : d.ItemsStay (d.evalLogic u) := by
  unfold Dev.evalLogic
  dsimp only
  split
  · exact .refl d
  · exact .setUn u _ d rfl

theorem Dev.itemsStay_evalSeqs (u : Nat) (m : List Host.Cell) (d : Dev) : d.ItemsStay (d.evalSeqs u m) := by
  unfold Dev.evalSeqs
  extract_lets cs
  refine .foldl _ _ d (fun y i => ?_)
  extract_lets x r _ w y1
  have h1 : y.ItemsStay y1 := (Dev.ItemsStay.setUn u { x with staged := x.staged ++ r.2, work := w } y rfl).trans (Dev.itemsStay_raiseAll u r.1.evs _)
  exact h1.trans (.ite _ (.wf R.UNIT_STAT_SAT 1 y1 u 0 0))

theorem Dev.itemsStay_evalCond (u : Nat) (d : Dev) : d.ItemsStay (d.evalCond u) := by
  unfold Dev.evalCond
  extract_lets r f d1
  have h1 : d.ItemsStay d1 := .unUp u f d (fun _ => rfl)
  exact h1.trans (.ite _ (.wf R.UNIT_STAT_SAT 1 d1 u 0 0))

theorem Dev.ItemsStay.setChop (c : Nat) (x : ChopSt) (d : Dev) : d.ItemsStay (d.setChop c x) := .beside rfl rfl

theorem Dev.itemsStay_lagSeen (c : AxisCfg) (d : Dev) : d.ItemsStay (d.lagSeen c) := by
  unfold Dev.lagSeen
  extract_lets g x
  split
  · exact .beside rfl rfl
  · split
    · exact .setChop g _ d
    · exact .refl d

theorem Dev.itemsStay_chopShow (c : Nat) (d : Dev) : d.ItemsStay (d.chopShow c) := by
  unfold Dev.chopShow
  extract_lets x idx cur off ca cb ph d1
  split
  · exact .refl d
  · exact ((Dev.ItemsStay.setChop c _ d).trans (.wf R.CHOP_CH_STAT_DAC_A ca d1 0 c 0)).trans (.wf R.CHOP_CH_STAT_DAC_B cb _ 0 c 0)

theorem Dev.itemsStay_axisCut (c : AxisCfg) (s : AxisSt) (d : Dev) : d.ItemsStay (d.axisCut c s) :=
  .ite _ ((Dev.ItemsStay.setChop c.destNo { d.chop c.destNo with on := false } d).trans (Dev.itemsStay_chopShow c.destNo _))

theorem Dev.itemsStay_chopReset (c : Nat) (d : Dev) : d.ItemsStay (d.chopReset c) := by
  unfold Dev.chopReset
  extract_lets x fix
  exact (Dev.ItemsStay.setChop c _ d).trans (Dev.itemsStay_chopShow c _)

theorem Dev.itemsStay_evalAxes (u : Nat) (m : List Host.Cell) (d : Dev) : d.ItemsStay (d.evalAxes u m) := by
  unfold Dev.evalAxes
  extract_lets cs idx order d'
  have hd : d.ItemsStay d' := by
    refine .foldl _ order d (fun y a => ?_)
    extract_lets c x s r _ _ w y1 y2
    have h1 : y.ItemsStay y1 :=
      ((Dev.ItemsStay.setUn u { x with staged := x.staged ++ r.2, work := w } y rfl).trans (Dev.itemsStay_lagSeen c _)).trans (Dev.itemsStay_axisCut c r.1 _)
    have h2 : y1.ItemsStay y2 := .ite _ (Dev.itemsStay_chopReset c.destNo y1)
    exact (h1.trans h2).trans (.ite _ (.wf R.UNIT_STAT_SAT 1 y2 u 0 0))
  exact hd.trans (.unUp u _ d' (fun _ => rfl))

theorem Dev.itemsStay_updEng (u e : Nat) (f : EngSt → EngSt) (d : Dev) : d.ItemsStay (d.updEng u e f) := by
  unfold Dev.updEng
  extract_lets g
  exact .unUp u (fun x => { x with base := g x.base, work := g x.work }) d (fun _ => rfl)

theorem Dev.itemsStay_memberArm (u e k post period phase : Nat) (conds : List TrigCond × Nat × Nat) (d : Dev) :
    d.ItemsStay (d.memberArm u e k post period phase conds) := by
  unfold Dev.memberArm
  dsimp only
  split
  · exact (Dev.itemsStay_updEng u e _ d).trans (.evtOnly (Dev.evtOnly_raise _ _ _ _))
  · exact Dev.itemsStay_updEng u e _ d

theorem Dev.itemsStay_groupTake (kind : Nat) (msg : GroupMsg) (m : List Host.Cell) (d : Dev) : d.ItemsStay (d.groupTake kind msg m) := by
  refine .foldl _ _ d (fun y ue => ?_)
  dsimp only
  split
  · exact Dev.itemsStay_memberArm _ _ _ _ _ _ _ y
  · split
    · exact Dev.itemsStay_updEng _ _ _ y
    · split
      · exact .refl y
      · exact Dev.itemsStay_updEng _ _ _ y

theorem Dev.itemsStay_tellPeers (msg : List Nat) (d : Dev) : d.ItemsStay (d.tellPeers msg) := by
  refine .foldl _ _ d (fun y e => ?_)
  obtain ⟨t, n, h, -⟩ := Dev.sessSend_only e.1 y.acqQ (3 :: msg) [] y
  rw [h]
  exact .beside rfl rfl

theorem Dev.itemsStay_groupEmit (kind : Nat) (msg : GroupMsg) (d : Dev) : d.ItemsStay (d.groupEmit kind msg) :=
  (show d.ItemsStay (d.emit _) from .beside rfl rfl).trans (Dev.itemsStay_tellPeers _ _)

theorem Dev.itemsStay_engEval (u e : Nat) (c : EngCfg) (env : EngEnv) (dm : Dev × List (Nat × List Byte)) :
    dm.1.ItemsStay (Dev.engEval u e c env dm).1 := by
  unfold Dev.engEval
  extract_lets d x o _ w x' d1 d2 d3 grp d4 again
  have h1 : d.ItemsStay d1 := .setUn u x' d rfl
  have h2 : d1.ItemsStay d2 := .beside rfl rfl
  have h3 : d2.ItemsStay d3 := .ite _ (.evtOnly (Dev.evtOnly_freezeReq _ d2))
  refine ((h1.trans h2).trans h3).trans ?_
  clear_value d3 grp
  show d3.ItemsStay d4
  unfold d4
  split
  · exact .ite _ ((Dev.itemsStay_groupEmit 1 _ d3).trans (Dev.itemsStay_groupTake 1 _ _ _))
  · exact .refl d3

theorem Dev.itemsStay_evalTrig (u : Nat) (d : Dev) : d.ItemsStay (d.evalTrig u).1 := by
  unfold Dev.evalTrig
  extract_lets cs x env r d' low
  have hr : d.ItemsStay d' := foldl_keeps (fun a : Dev × List (Nat × List Byte) => d.ItemsStay a.1) _ _ (d, []) (.refl d)
    (fun a e _ ha => ha.trans (Dev.itemsStay_engEval u e _ _ a))
  exact hr.trans (.beside rfl rfl)

theorem Dev.itemsStay_tileWrite (t : Nat) (bs : List Byte) (b : Bool) (dm : Dev × List Host.Cell) : dm.1.ItemsStay (Dev.tileWrite t bs b dm).1 := by
  cases b
  · exact .beside rfl rfl
  · exact .beside rfl rfl

theorem Dev.itemsStay_commitTiles (u : Nat) (tiles : List (Nat × List Byte)) (dm : Dev × List Host.Cell) :
    dm.1.ItemsStay (Dev.commitTiles u tiles dm).1 := by
  refine foldl_keeps (fun a : Dev × List Host.Cell => dm.1.ItemsStay a.1) _ tiles dm (.refl _) (fun a w _ ha => ?_)
  split
  · exact ha.trans (Dev.itemsStay_tileWrite _ _ _ a)
  · exact ha

/-- An evaluation of a unit of any kind. -/
theorem Dev.itemsStay_evalUnit (u : Nat) (tiles : List (Nat × List Byte)) (d : Dev) (m : List Host.Cell) :
    d.ItemsStay (Dev.evalUnit u tiles (d, m)).1 := by
  unfold Dev.evalUnit
  extract_lets d0 m0 dh m1 dm x rv still
  have hdh : d.ItemsStay dh.1 := by
    simp only [dh]
    split
    · exact Dev.itemsStay_evalLoops u m d
    · exact Dev.itemsStay_evalLogic u d
    · exact Dev.itemsStay_evalAxes u m d
    · exact Dev.itemsStay_evalSeqs u m d
    · exact Dev.itemsStay_evalTrig u d
    · exact Dev.itemsStay_evalCond u d
    · exact .refl d
  have hdm : dh.1.ItemsStay dm.1 := Dev.itemsStay_commitTiles u tiles (dh.1, m1)
  exact (hdh.trans hdm).trans (.setUn u _ dm.1 rfl)

end Sys2Proof.Machine
end

section
/-!
SUPPORT. After an item's completion: what keeps the unit idle with its content committed, and its flow free (R86, R434).
-/
namespace Sys2Proof.Machine

/-- A unit after an item: idle, the item gone, its content committed, no register write left. -/
structure UnitSt.Freed (x : UnitSt) : Prop where
  run : x.run = 0
  item : x.item = none
  content : x.base = x.work
  regw : x.regw = []

/-- The unit is free, and its die has these flows in service. -/
structure Dev.Freed (u : Nat) (serv : List Nat) (d : Dev) : Prop where
  unit : (d.un u).Freed
  serv : (d.dispOf (dieOf u)).serv = serv

namespace Dev.Freed
variable {u : Nat} {serv : List Nat} {d : Dev} (h : d.Freed u serv)
include h

/-- A change beside units and dispatchers. -/
theorem beside {d' : Dev} (hu : d'.units = d.units) (hd : d'.disp = d.disp) : d'.Freed u serv := by
  refine ⟨?_, ?_⟩
  · rw [Dev.un_of_units hu u]
    exact h.unit
  · rw [Dev.dispOf, hd]
    exact h.serv

/-- A unit changes in what does not free it. -/
theorem unUp (v : Nat) {f : UnitSt → UnitSt} (hf : ∀ x, x.Freed → (f x).Freed) : (d.unUp v f).Freed u serv := by
  refine ⟨?_, h.serv⟩
  by_cases hv : u = v
  · subst hv
    rw [Dev.un_unUp_self]
    exact hf _ h.unit
  · rw [Dev.un_unUp_ne _ _ hv]
    exact h.unit

theorem setDisp {q : DispSt} (hq : q.serv = (d.dispOf (dieOf u)).serv) : (d.setDisp (dieOf u) q).Freed u serv :=
  ⟨h.unit, by rw [Dev.dispOf_setDisp, hq, h.serv]⟩

theorem ite {p : Prop} [Decidable p] {d' : Dev} (h' : d'.Freed u serv) : (if p then d' else d).Freed u serv := by
  split
  · exact h'
  · exact h

theorem wf (f : F) (x k i j : Nat) : (d.wf f x k i j).Freed u serv := h.beside rfl rfl

theorem raise (code i : Nat) (data : List Byte) : (d.raise code i data).Freed u serv := by
  obtain ⟨⟨r, e, n, z, hr⟩, -⟩ := Dev.evtOnly_raise code i data d
  rw [hr]
  exact h.beside rfl rfl

theorem setRgn (g : Nat) (r : RgnSt) : (d.setRgn g r).Freed u serv := h.beside rfl rfl

theorem setOut (key : Nat) (o : OutSt) : (d.setOut key o).Freed u serv := h.beside rfl rfl

theorem slack (v : Nat) (x : Int) : (d.slack v x).Freed u serv := by
  unfold Dev.slack
  extract_lets c d'
  exact Dev.Freed.ite (h.wf _ _ _ _ _) ((h.wf _ _ _ _ _).wf _ _ _ _ _)

/-! #### The stage of an item's outputs -/

theorem stageOut (v sig : Nat) (w : Word) : (d.stageOut v sig w).Freed u serv := by
  refine foldl_keeps (Dev.Freed u serv) _ _ d h (fun y e _ hy => ?_)
  split
  · exact hy.ite (hy.setOut _ _)
  · exact hy

theorem itemStage (v : Nat) : (d.itemStage v).Freed u serv := by
  unfold Dev.itemStage
  extract_lets x d1 d2
  have h1 : d1.Freed u serv := foldl_keeps (Dev.Freed u serv) _ _ d h (fun y s _ hy => hy.stageOut v s.sig s.v.val)
  have h2 : d2.Freed u serv := foldl_keeps (Dev.Freed u serv) _ _ d1 h1 (fun y s _ hy => by
    split
    · exact hy.beside rfl rfl
    · exact hy.beside rfl rfl)
  split
  · exact h1
  · exact h2.unUp v (fun x hx => ⟨hx.run, hx.item, hx.content, hx.regw⟩)

/-! #### The partition's counters and its stop -/

/-- A partition's words stand in its lead segment's content on both sides alike. -/
theorem partUp (p : Nat) (f : PartSt → PartSt) : (d.partUp p f).Freed u serv := by
  unfold Dev.partUp
  extract_lets g
  exact h.unUp (d.lead p) (fun x hx => ⟨hx.run, hx.item, congrArg g hx.content, hx.regw⟩)

theorem wantSafe (p : IoEntry → Bool) : (d.wantSafe p).Freed u serv := by
  refine foldl_keeps (Dev.Freed u serv) _ _ d h (fun y e _ hy => ?_)
  split
  · exact hy.ite (hy.setOut _ _)
  · exact hy

theorem setLatch (key : Nat) (w : Word) (n : Nat) : (d.setLatch key w n).Freed u serv := h.setOut _ _

theorem latchSafe (key : Nat) : (d.latchSafe key).Freed u serv := by
  unfold Dev.latchSafe
  extract_lets n d'
  have hd : d'.Freed u serv := h.setLatch key 0 2
  split
  · exact h.setLatch _ _ _
  · split
    · split
      · exact (hd.wf _ _ _ _ _).wf _ _ _ _ _
      · exact (hd.wf _ _ _ _ _).wf _ _ _ _ _
    · exact hd

theorem safeNow (p : IoEntry → Bool) : (d.safeNow p).Freed u serv := by
  refine foldl_keeps (Dev.Freed u serv) _ _ d h (fun y e _ hy => ?_)
  split
  · next key sig _ =>
    extract_lets _ y'
    have hy' : y'.Freed u serv := hy.setOut _ _
    exact hy.ite (hy'.ite (hy'.latchSafe key))
  · exact hy

theorem partHalt (p st : Nat) (now : Option Nat) : (d.partHalt p st now).Freed u serv := by
  unfold Dev.partHalt
  extract_lets own d1 d2 d3 d4 stop d5
  have h2 : d2.Freed u serv := by
    unfold d2
    split
    · exact (h.wantSafe own).safeNow _
    · exact h.wantSafe own
  have h3 : d3.Freed u serv := h2.beside rfl rfl
  have h4 : d4.Freed u serv := foldl_keeps (Dev.Freed u serv) _ _ d3 h3 (fun y s _ hy => by
    split
    · exact hy.beside rfl rfl
    · exact hy)
  have h5 : d5.Freed u serv := foldl_keeps (Dev.Freed u serv) _ _ d4 h4 (fun y v _ hy =>
    hy.unUp v (fun x hx => ⟨hx.run, hx.item, rfl, hx.regw⟩))
  exact h5.partUp p _

theorem watchdog (p seg why : Nat) (now : Option Nat) : (d.watchdog p seg why now).Freed u serv :=
  ((h.partHalt p 2 now).partUp p _).raise _ _ _

/-! #### Slack that ran out -/

theorem planTrigger (g : Nat) : (d.planTrigger g).Freed u serv := by
  unfold Dev.planTrigger
  extract_lets r
  split
  · exact (h.setRgn g _).wf _ _ _ _ _
  · exact h.setRgn g _

theorem slackAlarm (v : Nat) (x : Int) : (d.slackAlarm v x).Freed u serv := by
  unfold Dev.slackAlarm
  extract_lets g guard d1
  have h1 : d1.Freed u serv := (h.raise _ _ _).planTrigger g
  exact h1.ite (h1.setRgn g _)

theorem countOps (g n : Nat) : (d.countOps g n).Freed u serv := h.setRgn _ _

theorem scanCount (p : Nat) : (d.scanCount p).Freed u serv := h.partUp p _

theorem bump (f : F) (n k i j : Nat) : (d.bump f n k i j).Freed u serv := h.wf _ _ _ _ _

end Dev.Freed

/-! ### One completion -/

/-- The unit goes idle and gives its item back. -/
def Dev.unbusy (u : Nat) (d : Dev) : Dev := (d.unUp u (fun x => { x with item := none, done := false })).setRun u 0

/-- A flow of the unit's die leaves service. -/
def Dev.freeFlow (u flow : Nat) (d : Dev) : Dev :=
  d.setDisp (dieOf u) { d.dispOf (dieOf u) with serv := (d.dispOf (dieOf u)).serv.filter (· ≠ flow) }

theorem Dev.un_unbusy_self (u : Nat) (d : Dev) : (d.unbusy u).un u = { d.un u with item := none, done := false, run := 0 } := by
  rw [Dev.unbusy, Dev.un_setRun_self, Dev.un_unUp_self]

/-- An evaluated unit goes idle, and its flow leaves service. -/
theorem Dev.freed_of_evaluated {d : Dev} {u : Nat} (hcontent : (d.un u).base = (d.un u).work) (hregw : (d.un u).regw = []) (flow : Nat) :
    ((d.unbusy u).freeFlow u flow).Freed u ((d.dispOf (dieOf u)).serv.filter (· ≠ flow)) := by
  refine ⟨?_, ?_⟩
  · have hun : ((d.unbusy u).freeFlow u flow).un u = { d.un u with item := none, done := false, run := 0 } := Dev.un_unbusy_self u d
    rw [hun]
    exact ⟨rfl, rfl, hcontent, hregw⟩
  · rw [Dev.freeFlow, Dev.dispOf_setDisp]
    rfl

/-- A unit that may complete its item: at work on it, no scan under way, no sample awaited and no register write staged. -/
structure Dev.AtItem (u : Nat) (it : Item) (d : Dev) : Prop where
  item : (d.un u).item = some it
  run : (d.un u).run = 1
  scanning : (d.un u).scanning = false
  regw : (d.un u).regw = []
  smpWait : (d.un u).smpWait = []

theorem Dev.itemComplete_frees {u : Nat} {it : Item} {d : Dev} (h : d.AtItem u it) {m : List Host.Cell} {tiles : List (Nat × List Byte)}
    (hshadow : d.shadowBad m u tiles = none) :
    (Dev.itemComplete u tiles (d, m)).1.Freed u ((d.dispOf (dieOf u)).serv.filter (· ≠ it.flow)) := by
  have hstay := Dev.itemsStay_evalUnit u tiles d m
  obtain ⟨-, hcontent⟩ := Dev.evalUnit_commits u tiles (d, m)
  have hserv : ((Dev.evalUnit u tiles (d, m)).1.dispOf (dieOf u)).serv = (d.dispOf (dieOf u)).serv := by rw [Dev.dispOf, hstay.disp, Dev.dispOf]
  have hfree := Dev.freed_of_evaluated hcontent ((hstay.regw u).trans h.regw) it.flow
  rw [hserv] at hfree
  have hwork : ¬ ((d.un u).run ≠ 1 ∨ (d.un u).scanning = true ∨ (!(d.un u).smpWait.isEmpty) = true) := by simp [h.run, h.scanning, h.smpWait]
  unfold Dev.itemComplete
  extract_lets x scanned r d0 die q0
  split
  · next hi => exact nomatch hi.symm.trans h.item
  · next it' hi =>
    obtain rfl : it' = it := Option.some.inj (hi.symm.trans h.item)
    rw [if_neg hwork]
    split
    · next t ht => exact nomatch ht.symm.trans hshadow
    · extract_lets d1 s d2 p d3 key q d4 d5 d6 d7 ps d8
      have h1 : d1.Freed u _ := hfree
      clear_value d1
      have h2 : d2.Freed u _ := ((h1.slack u s).countOps _ _).itemStage u
      have h3 : d3.Freed u _ := h2.ite (h2.scanCount p)
      have h4 : d4.Freed u _ := h3.setDisp rfl
      have h5 : d5.Freed u _ := ((h4.wf _ _ _ _ _).wf _ _ _ _ _).raise _ _ _
      have h6 : d6.Freed u _ := h5.slackAlarm u s
      have h7 : d7.Freed u _ := h6.bump _ _ _ _ _
      have h8 : d8.Freed u _ := Dev.Freed.ite h6 (h7.ite (h7.watchdog _ _ _ _))
      split
      · exact h3
      · exact h8

/-- A unit without register writes wrote no output that is locked in this tick. -/
theorem Dev.outWrote_of_regw_nil {d : Dev} {u : Nat} (h : (d.un u).regw = []) : d.outWrote u = false := by
  rw [Dev.outWrote, h]
  exact Bool.and_false _

/-- Without a register write that waits, their commit leaves a free unit as it is. -/
theorem Dev.Freed.commitRegw {u : Nat} {serv : List Nat} {d : Dev} (h : d.Freed u serv) (m : List Host.Cell) :
    (d.commitRegw u m).Freed u serv := by
  unfold Dev.commitRegw
  rw [h.unit.regw]
  exact h.unUp u (fun x hx => ⟨hx.run, hx.item, hx.content, rfl⟩)

theorem Dev.itemDone_frees {u : Nat} {it : Item} {d : Dev} (h : d.AtItem u it) {m : List Host.Cell} {tiles : List (Nat × List Byte)}
    (hshadow : d.shadowBad m u tiles = none) :
    (Dev.itemDone u tiles (d, m)).1.Freed u ((d.dispOf (dieOf u)).serv.filter (· ≠ it.flow)) := by
  have hfree := Dev.itemComplete_frees h hshadow
  unfold Dev.itemDone
  rw [if_neg (by simp [Dev.outWrote_of_regw_nil h.regw])]
  extract_lets r
  split
  · exact hfree.commitRegw r.2
  · exact hfree

/-! ### An upset before the completion (R77) -/

namespace Dev.Upset
variable {d d' : Dev} (h : d.Upset d')
include h

theorem disp : d'.disp = d.disp := (congrArg Dev.disp h.frame :)

theorem atItem {u : Nat} {it : Item} (hw : d.AtItem u it) : d'.AtItem u it := by
  have hu := h.un_eq u
  refine ⟨?_, ?_, ?_, ?_, ?_⟩
  · rw [hu]; exact hw.item
  · rw [hu]; exact hw.run
  · rw [hu]; exact hw.scanning
  · rw [hu]; exact hw.regw
  · rw [hu]; exact hw.smpWait

/-- The shadow check reads the tiles' marks and the unit's map alone. -/
theorem shadowBad (m : List Host.Cell) (u : Nat) (tiles : List (Nat × List Byte)) : d'.shadowBad m u tiles = d.shadowBad m u tiles := by
  have htiles : (d'.un u).tiles = (d.un u).tiles := (congrArg UnitSt.tiles (h.un_eq u) :)
  simp only [Dev.shadowBad, Dev.tileOk, htiles, Dev.rf_regs h.regs]

end Dev.Upset

end Sys2Proof.Machine
end

section
/-!
The dispatcher: O13.
-/
open Sys2Proof Sys2Proof.Machine

namespace Sys2Proof.Machine

/-- What an accepted command's item goes through: its operation on operands in range. -/
theorem does_dispatchAccept {s : State} {die flow prod orig : Nat} {payload : List Byte} {P : Dev → Prop} (hdie : die < s.dev.nDies)
    (hflow : flow < 4096) (hprod : prod < 3) (horig : orig < 2048)
    (hp : P (s.dev.acceptItem die flow (orig + 2048 * prod) ((payload ++ zeros 20).take 20))) :
    Does (.dispatchAccept die flow prod orig payload) s P :=
  does_guarded (f := Dev.acceptItem die flow (orig + 2048 * prod) ((payload ++ zeros 20).take 20)) rfl
    (by simp [hdie, hflow, hprod, horig]) hp

/-- R84, R87: where an accepted item goes. -/
theorem dispatchAccept_places {s : State} {die flow prod orig : Nat} {payload : List Byte} {f : FlowRec} {l : LevelRec}
    (hdie : die < s.dev.nDies) (hflow : flow < 4096) (hprod : prod < 3) (horig : orig < 2048) (hf : s.dev.flowOf die flow = some f)
    (hl : s.dev.levelOf die f.level = some l) (hdie2 : die < 2) (hlevel : f.level < 16) (hdark : s.dev.rst.dark = false)
    (hepi : s.dev.rst.epi = none) :
    let q : DispSt := s.dev.dispOf die
    let it : Item := s.dev.newItem flow f.level (orig + 2048 * prod) ((payload ++ zeros 20).take 20)
    (q.hasRoom flow f.level l.quota → Does (.dispatchAccept die flow prod orig payload) s (fun d =>
      d.dispOf die = q.keep it ∧ { d with disp := s.dev.disp } = s.dev)) ∧
    (¬ q.hasRoom flow f.level l.quota → q.hasRing f.level l.ringlog → Does (.dispatchAccept die flow prod orig payload) s (fun d =>
      d.dispOf die = q.spill it ∧ { d with disp := s.dev.disp } = s.dev)) ∧
    (¬ q.hasRoom flow f.level l.quota → ¬ q.hasRing f.level l.ringlog → Does (.dispatchAccept die flow prod orig payload) s (fun d =>
      d.disp = s.dev.disp ∧ d.rf R.DISP_STAT_DROP = 1 ∧ Raises Ev.DISP_DROP 0 s.dev d ∧
      d.rf R.DISP_LVL_DROP_COUNT 0 die f.level =
        satAdd (2 ^ R.DISP_LVL_DROP_COUNT.w - 1) (s.dev.rf R.DISP_LVL_DROP_COUNT 0 die f.level) 1)) := by
  intro q it
  refine ⟨fun hroom => ?_, fun hroom hring => ?_, fun hroom hring => ?_⟩ <;> refine does_dispatchAccept hdie hflow hprod horig ?_
  · rw [Dev.acceptItem_onChip hdark hepi hf hl _ _ hroom]
    exact ⟨Dev.dispOf_setDisp _ _ _, rfl⟩
  · rw [Dev.acceptItem_inRing hdark hepi hf hl _ _ hroom hring]
    exact ⟨Dev.dispOf_setDisp _ _ _, rfl⟩
  · rw [Dev.acceptItem_refused hdark hepi hf hl _ _ hroom hring]
    exact ⟨Dev.dropItem_disp _ _ _, Dev.dropItem_flag _ _ _, Dev.dropItem_raises _ _ _, Dev.dropItem_count hdie2 hlevel _⟩

end Sys2Proof.Machine

/-- Settles O13: a clause per command of the dispatcher, each read off what the command's operation leaves. -/
theorem dispatcher : Obligations.Dispatcher := by
  unfold Obligations.Dispatcher
  refine ⟨?accepts, ?down, ?serves⟩
  case accepts =>
    intro s die flow prod orig payload f l hdie hflow hprod horig hf hl hdie2 hlevel hdark hepi
    exact dispatchAccept_places hdie hflow hprod horig hf hl hdie2 hlevel hdark hepi
  case down =>
    intro s die flow prod orig payload hdie hflow hprod horig hdown
    exact does_dispatchAccept hdie hflow hprod horig (Dev.acceptItem_down hdown _ _ _ _)
  case serves =>
    intro s u die level tiles flips it
    refine ⟨fun hu hc hidle hfirst henv hgood => ?handover, fun l hdie hlevel hl => ?spill, fun hu hi hrun hscan hregw hsmp hshadow => ?done⟩
    case handover =>
      have hbusy := Dev.handover_busy hc hidle hfirst henv hgood
      have hdisp : (s.dev.handover u s.mem).dispOf (dieOf u) = s.dev.handedOver u it := by
        rw [Dev.dispOf, hbusy.disp, Tbl.getD_put_self]
      refine does_guarded (f := Dev.handover u s.mem) rfl (decide_eq_true hu) ⟨hbusy.run, hbusy.item, fun hnone => ?_, fun hsome => ?_⟩
      · have hq : s.dev.handedOver u it = { s.dev.dispOf (dieOf u) with
            store := (s.dev.dispOf (dieOf u)).store.erase it, serv := (s.dev.dispOf (dieOf u)).serv ++ [it.flow] } :=
          if_neg (by simp [hnone])
        rw [hq] at hdisp
        exact ⟨congrArg DispSt.serv hdisp, congrArg DispSt.store hdisp⟩
      · exact hdisp.trans (if_pos (by simp [hsome]))
    case spill =>
      have hdisp : (s.dev.spillReturn die level).dispOf die = (s.dev.dispOf die).spillBack level l.quota := by
        rw [Dev.spillReturn_eq hl, Dev.dispOf_setDisp]
      refine does_guarded (f := Dev.spillReturn die level) rfl (by simp [hdie, hlevel]) ?_
      show _ ∧ _ ∧ _ ∧ _
      rw [show Tbl.getD {} (s.dev.spillReturn die level).disp die = _ from hdisp]
      refine ⟨DispSt.spillBack_items _ _ _, DispSt.spillBack_quota _ _ _, DispSt.spillBack_others _ _ _, ?_⟩
      rw [Dev.spillReturn_eq hl]
      rfl
    case done =>
      have hup := Dev.struck_upset flips s.dev s.mem
      have hfree := Dev.itemDone_frees (hup.atItem ⟨hi, hrun, hscan, hregw, hsmp⟩) ((hup.shadowBad _ u tiles).trans hshadow)
      refine does_onMem (f := fun d m => Dev.itemDone u tiles (Dev.struck flips (d, m))) (if_pos hu)
        ⟨hfree.unit.run, hfree.unit.item, hfree.unit.content, ?_⟩
      rw [Dev.dispOf, hup.disp] at hfree
      exact hfree.serv
end

section
/-!
SUPPORT. Requests for memory: what a byte reads outside the copies and checkpoints, and a write that its tile's unit holds (R78, R373).
-/
namespace Sys2Proof.Machine

/-! ### MEM_READ -/

/-- The answer to a read of memory. -/
def Dev.readAnswer (q : Req) (a n : Nat) (m : List Host.Cell) (d : Dev) : Dev :=
  if d.readable a n then d.answer q eyOK ((List.range n).map (fun i => d.seenByte m (a + i))) else d.answer q eyBAD_ADDR []

theorem exec_memRead {s : State} {q : Req} {a n : Nat} (h : Admitted s q pvVIEW) (h0 : 0 < n) (hn : n ≤ 1024) :
    exec (.memRead q a n) s = s.on (Dev.readAnswer q a n s.mem) := by
  have hlen : ¬ (n = 0 ∨ 1024 < n) := by omega
  have hrun : exec (.memRead q a n) s = execMemRead q a n s := rfl
  rw [hrun, execMemRead, State.eyelet_go _ h]
  exact congrArg s.on (funext fun d => if_neg hlen)

theorem Dev.readAnswer_frame (q : Req) (a n : Nat) (m : List Host.Cell) (d : Dev) :
    { d.readAnswer q a n m with sessions := d.sessions, sent := d.sent, eth := d.eth } = d := by
  unfold Dev.readAnswer
  split
  · exact Dev.answer_frame _ _ _ _
  · exact Dev.answer_frame _ _ _ _

section
variable {q : Req} {a n : Nat} {m : List Host.Cell} {d : Dev}

/-- Where no copy and no checkpoint lies, memory is seen. -/
theorem Dev.seenByte_eq_memGet (h : ∀ p ∈ d.dramParts, ¬ (p.1 ≤ a ∧ a < p.1 + p.2.length)) : d.seenByte m a = memGet m a := by
  have hnone : d.dramParts.find? (fun p => decide (p.1 ≤ a) && decide (a < p.1 + p.2.length)) = none :=
    List.find?_eq_none.2 (fun p hp => by simpa using h p hp)
  unfold Dev.seenByte
  rw [hnone]

theorem Dev.seenBytes_eq_memRead (h : ∀ p ∈ d.dramParts, a + n ≤ p.1 ∨ p.1 + p.2.length ≤ a) :
    (List.range n).map (fun i => d.seenByte m (a + i)) = memRead m a n := by
  refine List.map_congr_left (fun i hi => Dev.seenByte_eq_memGet (fun p hp => ?_))
  have hi := List.mem_range.1 hi
  have hp := h p hp
  omega

end

/-! ### MEM_WRITE -/

theorem exec_memWrite {s : State} {q : Req} {a : Nat} {bs : List Byte} (h : Admitted s q pvENGINEER) :
    exec (.memWrite q a bs) s = s.on (Dev.memWrite q a bs) :=
  State.eyelet_go (fun s => s.on (Dev.memWrite q a bs)) h

/-- The bytes of a write as the unit holds them: each with its place in the unit's tiles. -/
def heldBytes (x : TileMap) (a t : Nat) (bs : List Byte) : List (Nat × Byte) :=
  (List.range bs.length).map (fun i => (1024 * x.lidx + (a - tileAddr t) + i, nth 0 bs i))

/-- The unit holds a write that nobody is owed an answer for yet. -/
def UnitSt.hold (ws : List (Nat × Byte)) (x : UnitSt) : UnitSt := { x with deferW := x.deferW ++ [(none, ws)] }

section
variable {q : Req} {a t u : Nat} {bs : List Byte} {x : TileMap} {d : Dev} (hne : bs ≠ []) (hlen : bs.length ≤ 1024)

include hne hlen in
theorem Dev.memWrite_badAddr (hout : d.inTiles a bs.length = false) : d.memWrite q a bs = d.answer q eyBAD_ADDR [] := by
  unfold Dev.memWrite
  rw [if_neg (by simp [hne, hlen]), if_pos (by simp [hout])]


/-- A write that lies in one tile goes whole to the unit that holds the tile as WRITABLE. -/
theorem Dev.tilePut_whole (w : Writer) (hlo : tileAddr t ≤ a) (hhi : a + bs.length ≤ tileAddr (t + 1)) (hown : d.tileOwner t = some (u, x))
    (hcls : x.cls = 2) :
    Dev.tilePut w a bs (d, [], false) t =
      (d.unUp u (.hold (heldBytes x a t bs)), [u], false) := by
  simp only [Dev.tilePut, hown, hcls, if_true, Nat.max_eq_left hlo, Nat.min_eq_left hhi, Nat.sub_self, Nat.add_sub_cancel_left, slice_all,
    List.nil_append]
  rfl

include hne hlen in
theorem Dev.memWrite_held (hlo : tileAddr t ≤ a) (hhi : a + bs.length ≤ tileAddr (t + 1)) (hown : d.tileOwner t = some (u, x))
    (hcls : x.cls = 2) (hin : d.inTiles a bs.length = true) :
    d.memWrite q a bs = (d.unUp u (.hold (heldBytes x a t bs))).tileOwe q u := by
  have hpos := List.length_pos_iff.2 hne
  simp only [tileAddr] at hlo hhi
  unfold Dev.memWrite
  rw [if_neg (by simp [hne, hlen]), if_neg (by simp [hin])]
  extract_lets t0 t1 r
  have h0 : t = t0 := by omega
  have h1 : t1 + 1 - t0 = 1 := by omega
  have hr : r = (d.unUp u (.hold (heldBytes x a t bs)), [u], false) := by
    unfold r
    rw [h1, List.range_one, List.foldl_cons, List.foldl_nil, Nat.add_zero, ← h0]
    exact Dev.tilePut_whole .eyelet hlo hhi hown hcls
  rw [hr]
  rfl

end

/-- The request is owed for what the unit holds last. -/
theorem Dev.tileOwe_held (q : Req) (u : Nat) (ws : List (Nat × Byte)) (d : Dev) :
    (((d.unUp u (.hold ws)).tileOwe q u).un u).deferW =
      (d.un u).deferW ++ [(some (q.sess, q.seq), ws)] := by
  rw [Dev.tileOwe, Dev.un_unUp_self]
  have hun : (((d.unUp u (.hold ws)).taken q).un u).deferW = (d.un u).deferW ++ [(none, ws)] :=
    congrArg UnitSt.deferW (Dev.un_unUp_self u (.hold ws) d)
  simp [hun]

theorem Dev.tileOwe_others {u v : Nat} (h : v ≠ u) (q : Req) (f : UnitSt → UnitSt) (d : Dev) :
    ((d.unUp u f).tileOwe q u).un v = d.un v := by
  rw [Dev.tileOwe, Dev.un_unUp_ne _ _ h]
  exact Dev.un_unUp_ne f d h

theorem Dev.tileOwe_frame (q : Req) (u : Nat) (f : UnitSt → UnitSt) (d : Dev) :
    { (d.unUp u f).tileOwe q u with units := d.units, sessions := d.sessions } = d := rfl

end Sys2Proof.Machine

open Sys2Proof Sys2Proof.Machine

/-- Settles O25: a read answers what its bytes hold, and a write to a tile waits with the unit that holds it. -/
theorem memoryRequests : Obligations.MemoryRequests := by
  unfold Obligations.MemoryRequests
  intro s q a bs
  refine ⟨fun hadm n h0 hn => ?read, fun hadm hne hlen => ⟨fun hout => ?badAddr, fun t u x hin hlo hhi hown hcls => ?held⟩⟩
  case read =>
    obtain ⟨x, hx⟩ := hadm.session
    refine does_on (exec_memRead hadm h0 hn) ⟨Dev.readAnswer_frame _ _ _ _ _, fun hr => ?_, fun hr hparts => ?_, fun hr => ?_⟩
    · rw [Dev.readAnswer, if_pos hr]
      exact Dev.answer_answered _ _ _ _ x hx
    · rw [Dev.readAnswer, if_pos hr, Dev.seenBytes_eq_memRead hparts]
      exact Dev.answer_answered _ _ _ _ x hx
    · rw [Dev.readAnswer, if_neg (by simp [hr])]
      exact Dev.answer_answered _ _ _ _ x hx
  case badAddr =>
    obtain ⟨x, hx⟩ := hadm.session
    refine does_on (exec_memWrite hadm) ?_
    rw [Dev.memWrite_badAddr hne hlen hout]
    exact ⟨Dev.answer_answered _ _ _ _ x hx, Dev.answer_frame _ _ _ _⟩
  case held =>
    refine does_on (exec_memWrite hadm) ?_
    rw [Dev.memWrite_held hne hlen hlo hhi hown hcls hin]
    exact ⟨Dev.tileOwe_held _ _ _ _, fun w hw => Dev.tileOwe_others hw _ _ _, Dev.tileOwe_frame _ _ _ _, Dev.taken_inProg q _⟩
end

section
/-!
SUPPORT. What leaves the time base alone: operations of units, outputs, links, converters and events change neither the counter, nor a view, nor
a cadence (R93, R95, R105).
-/
namespace Sys2Proof.Machine

/-- A fold of operations that leave the time base leaves it. -/
theorem Dev.foldl_time {α : Type} {f : Dev → α → Dev} (hf : ∀ y a, (f y a).time = y.time) (l : List α) (d : Dev) : (l.foldl f d).time = d.time :=
  foldl_const Dev.time f l d hf

/-! ### Signals, units, events -/

@[simp] theorem Dev.unUp_time (u : Nat) (f : UnitSt → UnitSt) (d : Dev) : (d.unUp u f).time = d.time := rfl

@[simp] theorem Dev.setRun_time (u r : Nat) (d : Dev) : (d.setRun u r).time = d.time := rfl

@[simp] theorem Dev.partUp_time (p : Nat) (f : PartSt → PartSt) (d : Dev) : (d.partUp p f).time = d.time := rfl

@[simp] theorem Dev.showSig_time (g : Nat) (v : SigVal) (d : Dev) : (d.showSig g v).time = d.time := rfl

@[simp] theorem Dev.raiseAll_time (u : Nat) (evs : List UEv) (d : Dev) : (d.raiseAll u evs).time = d.time :=
  Dev.foldl_time (fun _ _ => Dev.raise_time _ _ _ _) evs d

@[simp] theorem Dev.slack_time (u : Nat) (x : Int) (d : Dev) : (d.slack u x).time = d.time := by
  unfold Dev.slack
  dsimp only
  split <;> rfl

@[simp] theorem Dev.acceptItem_time (die flow origin : Nat) (payload : List Byte) (d : Dev) :
    (d.acceptItem die flow origin payload).time = d.time := by
  unfold Dev.acceptItem
  split
  · rfl
  · split
    · rfl
    · dsimp only
      split
      · rfl
      · split
        · rfl
        · simp

@[simp] theorem Dev.assertSrc_time (src : Nat) (data : List Byte) (d : Dev) : (d.assertSrc src data).time = d.time := by
  unfold Dev.assertSrc Dev.assertAt
  dsimp only
  split <;> exact Dev.foldl_time (fun _ _ => by simp) _ d

/-! ### Outputs (R32, R258) -/

/-- Only output latches and register words beyond the SYS block differ. -/
def Dev.OutsOnly (d d' : Dev) : Prop := (∃ o r, d' = { d with outs := o, regs := r }) ∧ ∀ a, a < 0x10000 → d'.rw a = d.rw a

namespace Dev.OutsOnly
variable {d x : Dev} (h : d.OutsOnly x)

theorem refl (d : Dev) : d.OutsOnly d := ⟨⟨d.outs, d.regs, rfl⟩, fun _ _ => rfl⟩

include h

theorem trans {y : Dev} (h' : x.OutsOnly y) : d.OutsOnly y := by
  refine ⟨?_, fun a ha => (h'.2 a ha).trans (h.2 a ha)⟩
  obtain ⟨⟨o, r, rfl⟩, -⟩ := h
  obtain ⟨⟨o', r', rfl⟩, -⟩ := h'
  exact ⟨o', r', rfl⟩

theorem time : x.time = d.time := by
  obtain ⟨⟨o, r, rfl⟩, -⟩ := h
  rfl

theorem units : x.units = d.units := by
  obtain ⟨⟨o, r, rfl⟩, -⟩ := h
  rfl

theorem setOut (key : Nat) (o : OutSt) : d.OutsOnly (x.setOut key o) := h.trans ⟨⟨_, x.regs, rfl⟩, fun _ _ => rfl⟩

theorem wf {f : F} {k i j : Nat} (hf : 0x10000 ≤ f.addr k i j) (v : Nat) : d.OutsOnly (x.wf f v k i j) :=
  h.trans ⟨⟨x.outs, _, rfl⟩, fun a ha => Dev.rw_wf_ne v x (by omega)⟩

/-- A word of a block beyond SYS. -/
theorem wf_block {f : F} (hf : 0x10000 ≤ f.blk.base) (v k i j : Nat) : d.OutsOnly (x.wf f v k i j) := by
  refine h.wf ?_ v
  rw [F.addr_def]
  omega

theorem foldl {α : Type} {f : Dev → α → Dev} (hf : ∀ y a, Dev.OutsOnly y (f y a)) (l : List α) : d.OutsOnly (l.foldl f x) :=
  foldl_keeps (fun y => d.OutsOnly y) f l x h (fun y a _ hy => hy.trans (hf y a))

theorem setLatch (key : Nat) (w : Word) (n : Nat) : d.OutsOnly (x.setLatch key w n) := h.setOut _ _

theorem latchSafe (key : Nat) : d.OutsOnly (x.latchSafe key) := by
  unfold Dev.latchSafe
  split
  · exact h.setLatch _ _ _
  · split
    · dsimp only
      split
      · exact ((h.setLatch _ _ _).wf_block (by decide) _ _ _ _).wf_block (by decide) _ _ _ _
      · exact ((h.setLatch _ _ _).wf_block (by decide) _ _ _ _).wf_block (by decide) _ _ _ _
    · exact h.setLatch _ _ _

theorem latchVal (key : Nat) (w : Word) : d.OutsOnly (x.latchVal key w) := by
  unfold Dev.latchVal
  extract_lets x1 n c x2
  have h1 : d.OutsOnly x1 := h.setLatch _ _ _
  have h2 : d.OutsOnly x2 := (h1.wf_block (by decide) _ _ _ _).wf_block (by decide) _ _ _ _
  split
  · exact h1
  · split
    · exact h2.wf_block (by decide) _ _ _ _
    · exact h2

theorem latchOut (key g : Nat) : d.OutsOnly (x.latchOut key g) := by
  unfold Dev.latchOut
  split
  · exact h
  · split
    · exact h.latchVal _ _
    · dsimp only
      split
      · exact h.latchSafe _
      · split
        · exact h.latchVal _ _
        · exact h

theorem latchCad (c : Nat) : d.OutsOnly (x.latchCad c) := by
  refine h.foldl (fun y e => ?_) _
  split
  · split
    · exact (OutsOnly.refl y).latchOut _ _
    · exact .refl y
  · exact .refl y

theorem wantSafe (p : IoEntry → Bool) : d.OutsOnly (x.wantSafe p) := by
  refine h.foldl (fun y e => ?_) _
  split
  · split
    · exact (OutsOnly.refl y).setOut _ _
    · exact .refl y
  · exact .refl y

theorem safeNow (p : IoEntry → Bool) : d.OutsOnly (x.safeNow p) := by
  refine h.foldl (fun y e => ?_) _
  split
  · next key _ _ =>
    split
    · dsimp only
      split
      · exact ((OutsOnly.refl y).setOut key _).latchSafe key
      · exact (OutsOnly.refl y).setOut key _
    · exact .refl y
  · exact .refl y

theorem stageOut (u g : Nat) (w : Word) : d.OutsOnly (x.stageOut u g w) := by
  refine h.foldl (fun y e => ?_) _
  split
  · split
    · exact (OutsOnly.refl y).setOut _ _
    · exact .refl y
  · exact .refl y

end Dev.OutsOnly

@[simp] theorem Dev.latchCad_time (c : Nat) (d : Dev) : (d.latchCad c).time = d.time := ((OutsOnly.refl d).latchCad c).time

@[simp] theorem Dev.safeNow_time (p : IoEntry → Bool) (d : Dev) : (d.safeNow p).time = d.time := ((OutsOnly.refl d).safeNow p).time

@[simp] theorem Dev.pwmSync_time (c : Nat) (d : Dev) : (d.pwmSync c).time = d.time := by
  refine Dev.foldl_time (fun y n => ?_) _ d
  unfold Dev.carrierStart
  split
  · split <;> rfl
  · rfl

@[simp] theorem Dev.stepLatch_time (g p : Nat) (pos : Int) (d : Dev) : (d.stepLatch g p pos).time = d.time := by
  unfold Dev.stepLatch
  dsimp only
  split <;> rfl

@[simp] theorem Dev.chopShow_time (c : Nat) (d : Dev) : (d.chopShow c).time = d.time := by
  unfold Dev.chopShow
  extract_lets x idx cur off ca cb ph d1
  split
  · rfl
  · rw [Dev.wf_time, Dev.wf_time]
    rfl

@[simp] theorem Dev.chopLatch_time (c p : Nat) (pos : Int) (still en : Bool) (d : Dev) : (d.chopLatch c p pos still en).time = d.time := by
  unfold Dev.chopLatch
  extract_lets x r n hd mix d1
  rw [Dev.chopShow_time]
  split <;> rfl

/-! ### Partitions and regions -/

/-- A partition that halts changes signals and units after that, no more. -/
theorem Dev.partHalt_eq (p st : Nat) (now : Option Nat) (d : Dev) :
    ∃ x s w u, d.OutsOnly x ∧ d.partHalt p st now = { x with sigs := s, sigWait := w, units := u } := by
  unfold Dev.partHalt
  extract_lets own d1 d2 d3 d4 stop d5
  have h1 : d.OutsOnly d1 := (OutsOnly.refl d).wantSafe own
  have h2 : d.OutsOnly d2 := by
    unfold d2
    split
    · exact h1.safeNow _
    · exact h1
  have h4 : ∃ s, d4 = { d3 with sigs := s } := by
    refine foldl_keeps (fun y : Dev => ∃ s, y = { d3 with sigs := s }) _ _ d3 ⟨d3.sigs, rfl⟩ ?_
    rintro y g - ⟨s, rfl⟩
    dsimp only
    split <;> exact ⟨_, rfl⟩
  obtain ⟨s, h4⟩ := h4
  have h5 : ∃ u, d5 = { d4 with units := u } := by
    refine foldl_keeps (fun y : Dev => ∃ u, y = { d4 with units := u }) _ _ d4 ⟨d4.units, rfl⟩ ?_
    rintro y v - ⟨u, rfl⟩
    exact ⟨_, rfl⟩
  obtain ⟨u, h5⟩ := h5
  rw [h5, h4]
  exact ⟨d2, _, _, _, h2, rfl⟩

@[simp] theorem Dev.partHalt_time (p st : Nat) (now : Option Nat) (d : Dev) : (d.partHalt p st now).time = d.time := by
  obtain ⟨x, s, w, u, hx, h⟩ := Dev.partHalt_eq p st now d
  rw [h]
  exact hx.time

@[simp] theorem Dev.watchdog_time (p seg why : Nat) (now : Option Nat) (d : Dev) : (d.watchdog p seg why now).time = d.time := by
  simp [Dev.watchdog]

@[simp] theorem Dev.planTrigger_time (g : Nat) (d : Dev) : (d.planTrigger g).time = d.time := by
  unfold Dev.planTrigger
  dsimp only
  split <;> rfl

/-! ### Links (R301, R305, R342) -/

@[simp] theorem Dev.canUp_time (n : Nat) (f : CanSt → CanSt) (d : Dev) : (d.canUp n f).time = d.time := rfl

@[simp] theorem Dev.dxUp_time (f : DupxSt → DupxSt) (d : Dev) : (d.dxUp f).time = d.time := rfl

@[simp] theorem Dev.ethSend_time (n q : Nat) (c : Option Nat) (b : List Byte) (d : Dev) : (d.ethSend n q c b).time = d.time := by
  obtain ⟨e, h⟩ := Dev.ethSend_only n q c b d
  rw [h]

@[simp] theorem Dev.showFields_time (fs : List FieldEl) (pay : Option (List Byte)) (st : Byte) (d : Dev) : (d.showFields fs pay st).time = d.time :=
  Dev.foldl_time (fun _ _ => by rfl) fs d

@[simp] theorem Dev.showDesc_time (kind no : Nat) (bs : List Byte) (d : Dev) : (d.showDesc kind no bs).time = d.time :=
  Dev.foldl_time (fun _ _ => by rfl) _ d

@[simp] theorem Dev.holSafe_time (c : Option Nat) (d : Dev) : (d.holSafe c).time = d.time := Dev.foldl_time (fun _ _ => by rfl) _ d

@[simp] theorem Dev.holFill_time (c : Nat) (d : Dev) : (d.holFill c).time = d.time := by
  refine Dev.foldl_time (fun y e => ?_) _ d
  split
  · rfl
  · refine Dev.foldl_time (fun z x => ?_) _ y
    split <;> rfl

@[simp] theorem Dev.holFreeze_time (c : Nat) (d : Dev) : (d.holFreeze c).time = d.time := by
  refine Dev.foldl_time (fun y e => Dev.foldl_time (fun z x => ?_) _ y) _ d
  extract_lets takes b0 b z1 fs
  split
  · rfl
  · split
    · exact Dev.showFields_time _ _ _ z1
    · exact (Dev.showDesc_time _ _ _ _).trans (Dev.showFields_time _ _ _ z1)

@[simp] theorem Dev.canFillOne_time (safe : Bool) (c b : Nat) (d : Dev) : (d.canFillOne safe c b).time = d.time := by
  unfold Dev.canFillOne
  extract_lets k pay d1 d2
  have h1 : d1.time = d.time := Dev.foldl_time (fun _ _ => by rfl) _ d
  split <;> exact h1

@[simp] theorem Dev.canSafe_time (c : Nat) (d : Dev) : (d.canSafe c).time = d.time := by
  refine Dev.foldl_time (fun y e => ?_) _ d
  rw [Dev.canUp_time]
  unfold Dev.canSafeOne
  split
  · exact Dev.canFillOne_time _ _ _ y
  · rfl

@[simp] theorem Dev.canFill_time (c : Nat) (d : Dev) : (d.canFill c).time = d.time :=
  Dev.foldl_time (fun y _ => (Dev.canUp_time _ _ _).trans (Dev.canFillOne_time _ _ _ y)) _ d

@[simp] theorem Dev.rxbShow_time (c b : Nat) (e : List Byte) (d : Dev) : (d.rxbShow c b e).time = d.time :=
  Dev.foldl_time (fun _ _ => by rfl) _ _

@[simp] theorem Dev.canFreeze_time (c : Nat) (d : Dev) : (d.canFreeze c).time = d.time := by
  refine Dev.foldl_time (fun y e => ?_) _ d
  unfold Dev.canFreezeOne
  extract_lets x0 x y1 fs
  split
  · exact Dev.showFields_time _ _ _ y1
  · rw [Dev.showDesc_time, Dev.showFields_time]
    exact Dev.rxbShow_time _ _ _ y1

@[simp] theorem Dev.ethFill_time (c mode : Nat) (d : Dev) : (d.ethFill c mode).time = d.time := by
  refine Dev.foldl_time (fun y e => ?_) _ d
  dsimp only
  split
  · rfl
  · split
    · split
      · exact Dev.ethSend_time _ _ _ _ _
      · rfl
    · exact Dev.ethSend_time _ _ _ _ _

@[simp] theorem Dev.ethFreeze_time (c : Nat) (d : Dev) : (d.ethFreeze c).time = d.time := by
  refine Dev.foldl_time (fun y e => ?_) _ d
  split
  · split
    · rfl
    · extract_lets x0 x y1
      split
      · exact Dev.showFields_time _ _ _ y1
      · exact (Dev.showDesc_time _ _ _ _).trans (Dev.showFields_time _ _ _ y1)
  · rfl

/-! ### Converters (R229, R231, R236) -/

@[simp] theorem Dev.passNext_time (k : Nat) (d : Dev) : (d.passNext k).time = d.time := by
  unfold Dev.passNext
  dsimp only
  split
  · rfl
  · split
    · rfl
    · split
      · rfl
      · rfl
      · split <;> rfl

@[simp] theorem Dev.rollEnd_time (k n : Nat) (d : Dev) : (d.rollEnd k n).time = d.time := by
  unfold Dev.rollEnd
  extract_lets b retry d1
  exact Dev.passNext_time k _

@[simp] theorem Dev.rollStep_time (k n : Nat) (d : Dev) : (d.rollStep k n).time = d.time := by
  unfold Dev.rollStep
  extract_lets b
  split
  · rfl
  · split
    · rfl
    · split
      · rfl
      · split
        · split
          · split
            · rfl
            · exact Dev.rollEnd_time k n _
          · rfl
        · split
          · split <;> rfl
          · split
            · exact Dev.rollEnd_time k n d
            · rfl

@[simp] theorem Dev.nocalShow_time (k n : Nat) (d : Dev) : (d.nocalShow k n).time = d.time := by
  unfold Dev.nocalShow
  split <;> rfl

@[simp] theorem Dev.chClose_time (k n : Nat) (d : Dev) : (d.chClose k n).time = d.time := by
  unfold Dev.chClose
  extract_lets c
  split
  · exact Dev.nocalShow_time k n _
  · rfl

@[simp] theorem Dev.chShut_time (k n t : Nat) (next : Option Nat) (d : Dev) : (d.chShut k n t next).time = d.time := by
  unfold Dev.chShut
  extract_lets c
  split
  · rfl
  · rw [Dev.chClose_time]
    split
    · exact Dev.rollStep_time k n _
    · rfl

@[simp] theorem Dev.cadWindows_time (a : Nat) (d : Dev) : (d.cadWindows a).time = d.time :=
  Dev.foldl_time (fun y k => Dev.foldl_time (fun z n => by split <;> simp) _ y) _ d

@[simp] theorem Dev.samplePresent_time (k n : Nat) (d : Dev) : (d.samplePresent k n).time = d.time := by
  unfold Dev.samplePresent
  extract_lets c d1 w sv d2 d3 trig
  have h2 : d2.time = d1.time := by
    refine Dev.foldl_time (fun y e => ?_) _ d1
    split
    · split <;> rfl
    · rfl
  have h3 : d3.time = d2.time := rfl
  split
  · rw [Dev.assertSrc_time, h3, h2]
  · exact h3.trans h2

@[simp] theorem Dev.presentWords_time (a : Nat) (d : Dev) : (d.presentWords a).time = d.time :=
  Dev.foldl_time (fun y k => Dev.foldl_time (fun z n => by dsimp only; split <;> simp) _ y) _ d

end Sys2Proof.Machine
end

section
/-!
SUPPORT. Step 1 of a boundary (R28, R32, R34): overruns and latches leave the time base, where no unit has a register write staged.
-/
namespace Sys2Proof.Machine

/-- The time base is as it was and no unit has a register write staged. -/
structure Dev.NoWrite (d x : Dev) : Prop where
  time : x.time = d.time
  regw : ∀ u, (x.un u).regw = []

/-- A partition's halt stages no register write. -/
theorem Dev.regw_partHalt (p st : Nat) (now : Option Nat) (d : Dev) (v : Nat) : ((d.partHalt p st now).un v).regw = (d.un v).regw := by
  unfold Dev.partHalt
  extract_lets own d1 d2 d3 d4 stop d5
  have h1 : d.OutsOnly d1 := (OutsOnly.refl d).wantSafe own
  have h2 : d.OutsOnly d2 := by
    unfold d2
    split
    · exact h1.safeNow _
    · exact h1
  have h4 : d4.units = d3.units := by
    refine foldl_const Dev.units _ _ d3 (fun y g => ?_)
    split <;> rfl
  have h4d : d4.un v = d.un v := Dev.un_of_units (h4.trans h2.units) v
  have hstop (y : Dev) (u : Nat) (f : UnitSt → UnitSt) (hf : ∀ x, (f x).regw = x.regw) : ((y.unUp u f).un v).regw = (y.un v).regw := by
    by_cases hv : v = u
    · rw [hv, Dev.un_unUp_self, hf]
    · rw [Dev.un_unUp_ne _ _ hv]
  have h5 : (d5.un v).regw = (d4.un v).regw := foldl_const (fun y : Dev => (y.un v).regw) _ _ d4 (fun y u => hstop y u stop fun _ => rfl)
  calc ((d5.partUp p (fun s => { s with st := st, stopPend := false })).un v).regw
      = (d5.un v).regw := hstop d5 _ _ fun _ => rfl
    _ = (d.un v).regw := by rw [h5, h4d]

namespace Dev.NoWrite
variable {d x : Dev} (h : d.NoWrite x)
include h

/-- A change beside units and the time base. -/
theorem beside {y : Dev} (hu : y.units = x.units) (ht : y.time = x.time) : d.NoWrite y :=
  ⟨ht.trans h.time, fun v => by rw [Dev.un_of_units hu v, h.regw]⟩

theorem outs {y : Dev} (hy : x.OutsOnly y) : d.NoWrite y := h.beside hy.units hy.time

theorem setUn (u : Nat) {s : UnitSt} (hs : s.regw = []) : d.NoWrite (x.setUn u s) := by
  refine ⟨h.time, fun v => ?_⟩
  by_cases hv : v = u
  · rw [hv, Dev.un_setUn_self, hs]
  · rw [Dev.un_setUn_ne _ _ hv, h.regw]

theorem unUp (u : Nat) {f : UnitSt → UnitSt} (hf : ∀ s, (f s).regw = s.regw) : d.NoWrite (x.unUp u f) :=
  h.setUn u ((hf _).trans (h.regw u))

theorem wf (f : F) (v k i j : Nat) : d.NoWrite (x.wf f v k i j) := h.beside rfl rfl

theorem raise (c i : Nat) (data : List Byte) : d.NoWrite (x.raise c i data) := h.beside (Dev.raise_units _ _ _ _) (Dev.raise_time _ _ _ _)

theorem ite {p : Prop} [Decidable p] {y : Dev} (hy : d.NoWrite y) : d.NoWrite (if p then y else x) := by
  split
  · exact hy
  · exact h

theorem foldl {α : Type} {f : Dev → α → Dev} (hf : ∀ y a, d.NoWrite y → d.NoWrite (f y a)) (l : List α) : d.NoWrite (l.foldl f x) :=
  foldl_keeps (fun y => d.NoWrite y) f l x h (fun y a _ => hf y a)

theorem showSig (g : Nat) (v : SigVal) : d.NoWrite (x.showSig g v) := h.beside rfl rfl

/-! #### Overruns (R34, R80, R163) -/

theorem watchdog (p seg why : Nat) (now : Option Nat) : d.NoWrite (x.watchdog p seg why now) := by
  have hp : d.NoWrite (x.partHalt p 2 now) :=
    ⟨(Dev.partHalt_time _ _ _ _).trans h.time, fun v => (Dev.regw_partHalt _ _ _ _ v).trans (h.regw v)⟩
  have hw : d.NoWrite ((x.partHalt p 2 now).partUp p (fun s => { s with why := why })) := hp.unUp _ fun _ => by rfl
  exact hw.raise _ _ _

theorem slack (u : Nat) (s : Int) : d.NoWrite (x.slack u s) :=
  ⟨(Dev.slack_time _ _ _).trans h.time, fun v => by rw [Dev.un_slack, h.regw]⟩

theorem boostAsk (g : Nat) : d.NoWrite (x.boostAsk g) := h.beside rfl rfl

theorem planTrigger (g : Nat) : d.NoWrite (x.planTrigger g) := by
  refine h.beside ?_ (Dev.planTrigger_time _ _)
  unfold Dev.planTrigger
  dsimp only
  split <;> rfl

theorem holdLoops (u : Nat) (which : LoopCfg → Bool) : d.NoWrite (x.holdLoops u which) := by
  unfold Dev.holdLoops
  dsimp only
  split
  · exact (h.unUp u fun _ => by rfl).wf _ _ _ _ _
  · exact h

theorem thirdOverrun (u k : Nat) : d.NoWrite (x.thirdOverrun u k) := by
  unfold Dev.thirdOverrun
  split
  · exact h.holdLoops _ _
  · exact ((h.unUp u fun _ => by rfl).wf _ _ _ _ _).raise _ _ _
  · exact h.foldl (fun y v hy => hy.holdLoops v _) _
  · exact h

theorem overrun (n : Nat) (ops : Tbl Nat) (ue : Nat × Bool) : d.NoWrite (x.overrun n ops ue) := by
  unfold Dev.overrun
  extract_lets u exec st d1 d2 consec third d3 d4 d5 p s
  have h1 : d.NoWrite d1 := h.setUn u rfl
  have h2 : d.NoWrite d2 := by
    unfold d2
    split
    · exact h1
    · exact ((h1.slack _ _).unUp _ fun _ => by rfl).wf _ _ _ _ _
  have h3 : d.NoWrite d3 := ((h2.wf _ _ _ _ _).wf _ _ _ _ _).wf _ _ _ _ _
  have h4 : d.NoWrite d4 := (h3.boostAsk _).planTrigger _
  have h5 : d.NoWrite d5 := h4.raise _ _ _
  split
  · split
    · exact h5
    · split
      · exact h5.watchdog _ _ _ _
      · exact h5.wf _ _ _ _ _
  · exact h5.ite (h5.thirdOverrun _ _)

/-! #### Latches (R32, R159, R167, R191) -/

theorem showUnit (m : List Host.Cell) (u : Nat) : d.NoWrite (x.showUnit m u) := by
  have hc : x.commitRegw u m = x.unUp u (fun s => { s with regw := [] }) := by
    simp [Dev.commitRegw, h.regw u]
  have h0 : d.NoWrite (x.commitRegw u m) := by
    rw [hc]
    exact h.setUn u rfl
  unfold Dev.showUnit
  refine (h0.foldl (fun y s hy => ?_) _).unUp u fun _ => by rfl
  exact (hy.showSig _ _).outs ((OutsOnly.refl _).stageOut _ _ _)

theorem showWaiting (n : Nat) : d.NoWrite (x.showWaiting n) :=
  NoWrite.foldl (x := { x with sigWait := x.sigWait.filter (fun e => decide (x.outCad e.1 ≠ some n)) }) (h.beside rfl rfl)
    (fun _ _ hy => hy.showSig _ _) _

theorem showTasks (n : Nat) : d.NoWrite (x.showTasks n) :=
  h.foldl (fun _ u hy => (hy.foldl (fun _ _ hz => hz.showSig _ _) _).unUp u fun _ => by rfl) _

theorem forceRefresh (n : Nat) : d.NoWrite (x.forceRefresh n) := h.foldl (fun _ _ hy => hy.beside (by rfl) (by rfl)) _

theorem stepLatch (g p : Nat) (pos : Int) : d.NoWrite (x.stepLatch g p pos) := by
  refine h.beside ?_ (Dev.stepLatch_time _ _ _ _)
  unfold Dev.stepLatch
  dsimp only
  split <;> rfl

theorem chopLatch (c p : Nat) (pos : Int) (still en : Bool) : d.NoWrite (x.chopLatch c p pos still en) := by
  have hshow (y : Dev) : (y.chopShow c).units = y.units := by
    unfold Dev.chopShow
    extract_lets
    split
    · rfl
    · rw [Dev.wf_units, Dev.wf_units]
      rfl
  refine h.beside ?_ (Dev.chopLatch_time _ _ _ _ _ _)
  unfold Dev.chopLatch
  dsimp only
  rw [hshow]
  split <;> rfl

theorem latchAxes (u : Nat) : d.NoWrite (x.latchAxes u) := by
  refine h.foldl (fun y e hy => ?_) _
  dsimp only
  split
  · exact hy.stepLatch _ _ _
  · exact hy.ite (hy.chopLatch _ _ _ _ _)

theorem holdSigs (u : Nat) : d.NoWrite (x.holdSigs u) := by
  refine h.foldl (fun y s hy => ?_) _
  split
  · exact hy.beside rfl rfl
  · exact hy

end Dev.NoWrite

/-- R28 step 1 for one cadence. -/
theorem Dev.NoWrite.boundaryLatch {d : Dev} {a : Dev × List Nat} (h : d.NoWrite a.1) (m : List Host.Cell) (ops : Tbl Nat) (n : Nat) :
    d.NoWrite (Dev.boundaryLatch m ops a n).1 := by
  unfold Dev.boundaryLatch
  extract_lets late ran d1 us d2 d3 d4 d5
  have h1 : d.NoWrite d1 := h.foldl (fun _ ue hy => hy.overrun n ops ue) _
  have h2 : d.NoWrite d2 := h1.foldl (fun _ u hy => hy.showUnit m u) _
  have h3 : d.NoWrite d3 := ((h2.showTasks n).showWaiting n).forceRefresh n
  have h4 : d.NoWrite d4 := h3.foldl (fun _ u hy => hy.latchAxes u) _
  have h5 : d.NoWrite d5 := h4.ite (h4.foldl (fun _ u hy => hy.holdSigs u) _)
  exact h5.foldl (fun _ u hy => hy.unUp u fun _ => by rfl) _

end Sys2Proof.Machine
end

section
/-!
SUPPORT. A cadence's boundary (R28, R105 to R110): the cycle numbers it sets, and that none of its actions moves a view, the counter or a cycle number.
-/
namespace Sys2Proof.Machine

/-! ### Tokens leave the time base (R76, R79) -/

@[simp] theorem Dev.passed_time (u : Nat) (p : TileMap → Bool) (d : Dev) : (d.passed u p).time = d.time :=
  (Dev.unUp_time _ _ _).trans (Dev.foldl_time (fun _ _ => Dev.wf_time _ _ _ _ _ _) _ d)

@[simp] theorem Dev.scanOpen_time (u ts : Nat) (it : Option Item) (d : Dev) : (d.scanOpen u ts it).time = d.time := by
  unfold Dev.scanOpen
  dsimp only
  split <;> rfl

@[simp] theorem Dev.tagMap_time (u : Nat) (t : TileMap) (d : Dev) : (d.tagMap u t).time = d.time := by
  unfold Dev.tagMap
  dsimp only
  rw [Dev.wb_eq, Dev.wf_time, Dev.wf_time, Dev.wf_time, Dev.wf_time]

@[simp] theorem Dev.tagSpare_time (t : Nat) (d : Dev) : (d.tagSpare t).time = d.time := by
  unfold Dev.tagSpare
  dsimp only
  rw [Dev.ww_time, Dev.wf_time]

@[simp] theorem Dev.faulted_time (u : Nat) (now : Option Nat) (d : Dev) : (d.faulted u now).time = d.time := by
  unfold Dev.faulted
  split
  · exact Dev.raiseAll_time _ _ _
  · split
    · exact Dev.watchdog_time _ _ _ _ d
    · rfl
  · rfl

@[simp] theorem Dev.unitFault_time (u : Nat) (now : Option Nat) (d : Dev) : (d.unitFault u now).time = d.time := by
  unfold Dev.unitFault
  dsimp only
  rw [Dev.faulted_time, Dev.unUp_time, Dev.raise_time, Dev.setRun_time]

@[simp] theorem Dev.tokenFail_time (u : Nat) (t : TileMap) (d : Dev) : (d.tokenFail u t).time = d.time := by
  unfold Dev.tokenFail
  extract_lets c i d1 d2 d3 restore mark d4
  have h1 : d1.time = d.time := by rw [Dev.bump_time, Dev.wf_time, Dev.wf_time]
  have h3 : d3.time = d.time := by rw [Dev.unUp_time, Dev.raise_time, Dev.wf_time, h1]
  have h4 : d4.time = d.time := by rw [Dev.wf_time, h3]
  have hrestore (y : Dev) : (restore y).time = y.time := by rw [Dev.setRun_time, Dev.unUp_time]
  have hmark (l : Nat) (f : TileMap → TileMap) (y : Dev) : (mark l f y).time = y.time := by rw [Dev.unUp_time]
  split
  · rw [hrestore, hmark, h3]
  · split
    · extract_lets n d5
      have h5 : d5.time = d.time := by rw [Dev.wf_time, Dev.tagMap_time, Dev.tagSpare_time, h4]
      rw [hrestore, Dev.raise_time, hmark, h5]
    · rw [Dev.unitFault_time, h4]

@[simp] theorem Dev.verifyFail_time (u : Nat) (t : TileMap) (d : Dev) : (d.verifyFail u t).time = d.time := by
  rw [Dev.verifyFail, Dev.tokenFail_time, Dev.passed_time]

@[simp] theorem Dev.token_time (k : Nat) (m : List Host.Cell) (d : Dev) (u : Nat) : (d.token k m u).time = d.time := by
  unfold Dev.token
  split
  · exact Dev.verifyFail_time _ _ d
  · extract_lets x y d1
    have h1 : d1.time = d.time := Dev.passed_time _ _ _
    split
    · exact (Dev.scanOpen_time _ _ _ d1).trans h1
    · exact h1

/-! ### Samples and checks leave it (R110, R278, R390, R394, R462) -/

@[simp] theorem Dev.histEmit_time (n : Nat) (h : HistSig) (d : Dev) : (Dev.histEmit n h d).2.time = d.time := by
  induction n generalizing h d with
  | zero => rfl
  | succ n ih =>
    have he : (d.histEntry h).2.time = d.time := by
      unfold Dev.histEntry
      split
      · rfl
      · split <;> rfl
    exact (ih _ _).trans he

@[simp] theorem Dev.histSample_time (n : Nat) (d : Dev) : (d.histSample n).time = d.time := by
  unfold Dev.histSample
  split
  · rfl
  · refine Dev.foldl_time (fun y s => ?_) _ d
    exact Dev.histEmit_time _ _ y

@[simp] theorem Dev.boundaryInputs_time (n : Nat) (d : Dev) : (d.boundaryInputs n).time = d.time := by
  unfold Dev.boundaryInputs
  extract_lets put d1 d2 st d3 d4 d5 d6
  have hput (i v : Nat) (s : Byte) (y : Dev) : (put i v s y).time = y.time := rfl
  have h1 : d1.time = d.time := Dev.foldl_time (fun _ _ => hput _ _ _ _) _ d
  have h2 : d2.time = d1.time := Dev.foldl_time (fun _ _ => hput _ _ _ _) _ d1
  have h5 : d5.time = d2.time := by rw [hput, hput, hput]
  have h6 : d6.time = d5.time := Dev.foldl_time (fun _ _ => hput _ _ _ _) _ d5
  rw [← h1, ← h2, ← h5, ← h6]
  refine Dev.foldl_time (fun y e => ?_) _ d6
  split
  · rfl
  · split
    · split
      · rfl
      · exact Dev.showSig_time _ _ y
    · exact Dev.wf_time _ _ y _ _ _
    · rfl

@[simp] theorem Dev.boundaryFreeze_time (n : Nat) (d : Dev) : (d.boundaryFreeze n).time = d.time := by
  simp [Dev.boundaryFreeze]

@[simp] theorem Dev.copyLag_time (n : Nat) (d : Dev) : (d.copyLag n).time = d.time := by
  unfold Dev.copyLag
  split
  · split
    · rw [Dev.raise_time, Dev.wf_time]
    · rfl
  · rfl

@[simp] theorem Dev.takeCheck_time (d : Dev) : d.takeCheck.time = d.time := by
  unfold Dev.takeCheck
  dsimp only
  split
  · exact Dev.wf_time _ _ d _ _ _
  · rfl

@[simp] theorem Dev.resumeCheck_time (d : Dev) : d.resumeCheck.time = d.time := by
  unfold Dev.resumeCheck
  split <;> rfl

/-! ### Views, counter and cycle numbers -/

@[simp] theorem Dev.cad_setCad_self (n : Nat) (f : CadSt → CadSt) (d : Dev) : (d.setCad n f).cad n = f (d.cad n) := Tbl.getD_put_self _ _ _ _

theorem Dev.cad_setCad_ne {n k : Nat} (f : CadSt → CadSt) (d : Dev) (h : k ≠ n) : (d.setCad n f).cad k = d.cad k := Tbl.getD_put_ne _ _ _ h

theorem Dev.cad_of_time {d x : Dev} (h : x.time = d.time) (n : Nat) : x.cad n = d.cad n := by rw [Dev.cad, h, Dev.cad]

/-- The views, the counter and the cadences' cycle numbers. -/
def Dev.clock (d : Dev) : Tbl View × Nat × (Nat → Nat) := (d.time.views, d.time.cnt, fun n => (d.cad n).k)

theorem Dev.clock_of_time {d x : Dev} (h : x.time = d.time) : x.clock = d.clock := by
  simp [Dev.clock, Dev.cad_of_time h, h]

theorem Dev.clock_wf (f : F) (v : Nat) (d : Dev) (k i j : Nat) : (d.wf f v k i j).clock = d.clock := rfl

/-- A cadence changes beside its cycle number. -/
theorem Dev.clock_setCad (n : Nat) {f : CadSt → CadSt} (hf : ∀ c, (f c).k = c.k) (d : Dev) : (d.setCad n f).clock = d.clock := by
  have hk (i : Nat) : ((d.setCad n f).cad i).k = (d.cad i).k := by
    by_cases hi : i = n
    · rw [hi, Dev.cad_setCad_self, hf]
    · rw [Dev.cad_setCad_ne _ _ hi]
  unfold Dev.clock
  rw [funext hk]
  rfl

theorem Dev.foldl_clock {α : Type} {f : Dev → α → Dev} (hf : ∀ y a, (f y a).clock = y.clock) (l : List α) (d : Dev) : (l.foldl f d).clock = d.clock :=
  foldl_const Dev.clock f l d hf

/-- R108, R160, R259: the latches, and the stop of partitions and of the Last. -/
theorem Dev.boundaryOutputs_clock (n : Nat) (d : Dev) : (d.boundaryOutputs n).clock = d.clock := by
  have hhalts (ps : List Nat) (now : Option Nat) (y : Dev) : (ps.foldl (fun d p => d.partHalt p 0 now) y).time = y.time :=
    Dev.foldl_time (fun _ _ => Dev.partHalt_time _ _ _ _) ps y
  unfold Dev.boundaryOutputs
  extract_lets c parts d1 d2 d3 d4 d5
  split
  · rw [Dev.clock_of_time (hhalts _ _ d3)]
    have h1 : d1.time = d.time := by simp [d1]
    have h2 : d2.time = d1.time := by simp [d2]
    exact (Dev.clock_of_time (Dev.dxUp_time _ _)).trans ((Dev.clock_setCad n (fun _ => by rfl) d2).trans (Dev.clock_of_time (h2.trans h1)))
  · have h5 : d5.time = d.time := by
      rw [Dev.latchCad_time, hhalts]
    split
    · exact Dev.clock_of_time ((hhalts _ _ d5).trans h5)
    · exact Dev.clock_of_time h5

/-- R110 step 6. -/
theorem Dev.boundaryFill_clock (n : Nat) (d : Dev) : (d.boundaryFill n).clock = d.clock := by
  unfold Dev.boundaryFill
  extract_lets c d1 d2 d3
  split
  · have h1 : d1.time = d.time := by simp [d1]
    have h2 : d2.time = d1.time := by
      unfold d2
      split
      · exact Dev.foldl_time (fun _ _ => by rfl) _ d1
      · rfl
    exact (Dev.clock_setCad n (fun _ => by rfl) d2).trans (Dev.clock_of_time (h2.trans h1))
  · have h3 : d3.clock = d.clock := Dev.clock_setCad n (fun _ => by rfl) d
    split
    · exact (Dev.clock_of_time (Dev.ethFill_time _ _ d3)).trans h3
    · split
      · exact (Dev.clock_of_time (Dev.ethFill_time _ _ d3)).trans h3
      · exact h3

/-- R28 step 7: tokens. -/
theorem Dev.boundaryTokens_clock (m : List Host.Cell) (late : List Nat) (n : Nat) (d : Dev) : (d.boundaryTokens m late n).clock = d.clock := by
  unfold Dev.boundaryTokens
  extract_lets d1 c d2 d3
  have h1 : d1.clock = d.clock := Dev.clock_of_time (Dev.assertSrc_time _ _ d)
  have h2 : d2.clock = d1.clock := by
    unfold d2
    split
    · rfl
    · rw [Dev.clock_wf, Dev.clock_wf]
      exact Dev.clock_setCad n (fun _ => by rfl) d1
  have h3 : d3.clock = d2.clock := Dev.clock_setCad n (fun _ => by rfl) d2
  split
  · exact h1
  · refine (Dev.clock_of_time (Dev.foldl_time (fun y u => ?_) _ d3)).trans (h3.trans (h2.trans h1))
    split
    · exact Dev.token_time _ _ y u
    · rfl

end Sys2Proof.Machine
end

section
/-!
SUPPORT. Words of TIME with a stride, and the cycle numbers that a boundary sets (R105, R106, R109).
-/
namespace Sys2Proof.Machine

/-! ### Words of TIME with a stride -/

theorem addr_time {g : F} (hg : g.blk = .time) (i : Nat) : g.addr 0 i 0 = 0x20000 + g.off + i * g.s1 := by
  simp only [F.addr, hg, Blk.base]
  omega

section
variable {f g : F} (hf : f.blk = .time) (hg : g.blk = .time) (hs : f.s1 = g.s1)
include hf hg hs

theorem addr_time_ne_of_off (h : g.off % g.s1 ≠ f.off % g.s1) (i j : Nat) : g.addr 0 j 0 ≠ f.addr 0 i 0 := by
  rw [addr_time hf, addr_time hg, hs]
  intro he
  refine h ?_
  have := congrArg (· % g.s1) (show g.off + j * g.s1 = f.off + i * g.s1 by omega)
  simpa using this

theorem addr_time_ne_of_index (ho : f.off = g.off) (hpos : 0 < g.s1) {i j : Nat} (h : j ≠ i) : g.addr 0 j 0 ≠ f.addr 0 i 0 := by
  rw [addr_time hf, addr_time hg, hs, ho]
  intro he
  exact h (Nat.eq_of_mul_eq_mul_right hpos (by omega))

/-- A field of another register of the group stays, at every index. -/
theorem Dev.rf_wf_time (h : g.off % g.s1 ≠ f.off % g.s1) (v : Nat) (d : Dev) (i j : Nat) : (d.wf f v 0 i 0).rf g 0 j 0 = d.rf g 0 j 0 :=
  Dev.rf_wf_word v d (addr_time_ne_of_off hf hg hs h i j)

/-- A field of the register at another index stays. -/
theorem Dev.rf_wf_time_index (ho : f.off = g.off) (hpos : 0 < g.s1) {i j : Nat} (h : j ≠ i) (v : Nat) (d : Dev) :
    (d.wf f v 0 i 0).rf g 0 j 0 = d.rf g 0 j 0 :=
  Dev.rf_wf_word v d (addr_time_ne_of_index hf hg hs ho hpos h)

end

/-! ### The pace of cadences (R105) -/

/-- What boundaries are found by is the same: the views, the counter, the settings of every cadence. -/
structure Dev.SamePace (d x : Dev) : Prop where
  views : x.time.views = d.time.views
  cnt : x.time.cnt = d.time.cnt
  mult : ∀ n, x.rf R.TIME_CADn_CFG_MULT 0 n = d.rf R.TIME_CADn_CFG_MULT 0 n
  phase : ∀ n, x.rf R.TIME_CADn_PHASE_PHASE 0 n = d.rf R.TIME_CADn_PHASE_PHASE 0 n
  used : ∀ n, (x.cad n).used = (d.cad n).used

theorem Dev.SamePace.refl (d : Dev) : d.SamePace d := ⟨rfl, rfl, fun _ => rfl, fun _ => rfl, fun _ => rfl⟩

namespace Dev.SamePace
variable {d x : Dev} (h : d.SamePace x)
include h

theorem cadReach (n : Nat) : x.cadReach n = d.cadReach n := by
  simp only [Dev.cadReach, Dev.viewNs, Dev.view, h.views, h.cnt, h.mult, h.phase]

theorem cadIdx (n : Nat) : x.cadIdx n = d.cadIdx n := by rw [Dev.cadIdx, h.cadReach, Dev.cadIdx]

theorem usedCads : x.usedCads = d.usedCads := by
  unfold Dev.usedCads
  exact List.filter_congr fun n _ => h.used n

/-- A register of the cadences beside CFG and PHASE. -/
theorem wf {f : F} (hf : f.blk = .time) (hs : f.s1 = 0x10) (ho : 8 ≤ f.off % 0x10) (v i : Nat) : d.SamePace (x.wf f v 0 i 0) where
  views := h.views
  cnt := h.cnt
  mult n := (Dev.rf_wf_time (g := R.TIME_CADn_CFG_MULT) hf rfl hs (show (0x400 % 0x10) ≠ f.off % 0x10 by omega) v x i n).trans (h.mult n)
  phase n := (Dev.rf_wf_time (g := R.TIME_CADn_PHASE_PHASE) hf rfl hs (show (0x404 % 0x10) ≠ f.off % 0x10 by omega) v x i n).trans (h.phase n)
  used n := h.used n

theorem setCad (n : Nat) {f : CadSt → CadSt} (hf : ∀ c, (f c).used = c.used) : d.SamePace (x.setCad n f) where
  views := h.views
  cnt := h.cnt
  mult := h.mult
  phase := h.phase
  used i := by
    by_cases hi : i = n
    · rw [hi, Dev.cad_setCad_self, hf, h.used]
    · rw [Dev.cad_setCad_ne _ _ hi, h.used]

end Dev.SamePace

/-! ### Comparators that release cadences first (R112) -/

/-- A release changes no pace and no boundary. -/
def Dev.Released (d x : Dev) : Prop := d.SamePace x ∧ ∀ n, (x.cad n).b = (d.cad n).b ∧ (x.cad n).k = (d.cad n).k

theorem Dev.Released.cadRelease {d x : Dev} (h : d.Released x) (mask : Nat) : d.Released (x.cadRelease mask) := by
  refine foldl_keeps (fun y => d.Released y) _ _ x h (fun y n _ hy => ?_)
  dsimp only
  split
  · refine ⟨SamePace.wf (x := y.setCad n (fun c => { c with deferred := false })) (hy.1.setCad n fun _ => by rfl) rfl rfl (by decide) _ n, fun i => ?_⟩
    by_cases hi : i = n
    · subst hi
      have hself : (y.setCad i (fun c => { c with deferred := false })).cad i = { y.cad i with deferred := false } := Dev.cad_setCad_self _ _ _
      exact ⟨(congrArg CadSt.b hself).trans (hy.2 i).1, (congrArg CadSt.k hself).trans (hy.2 i).2⟩
    · have hne : (y.setCad n (fun c => { c with deferred := false })).cad i = y.cad i := Dev.cad_setCad_ne _ _ hi
      exact ⟨(congrArg CadSt.b hne).trans (hy.2 i).1, (congrArg CadSt.k hne).trans (hy.2 i).2⟩
  · exact hy

theorem Dev.cmpReleases_released (d : Dev) : d.Released d.cmpReleases := by
  refine foldl_keeps (fun y => d.Released y) _ _ d ⟨.refl d, fun _ => ⟨rfl, rfl⟩⟩ (fun y i _ hy => ?_)
  split
  · exact hy.cadRelease _
  · exact hy

theorem Dev.Released.due {d x : Dev} (h : d.Released x) (mask : Nat) : x.due mask = d.due mask := by
  unfold Dev.due
  rw [h.1.usedCads]
  exact List.filter_congr fun n _ => by rw [h.1.mult, h.1.cadReach, (h.2 n).1]

/-! ### The boundaries that fall (R105, R106) -/

/-- A cadence takes the cycle number that view 0 gives. -/
def Dev.reached (d : Dev) (n : Nat) : Dev :=
  (d.setCad n (fun c => { c with b := d.cadReach n, k := d.cadIdx n, ptick := c.tick, tick := d.time.cnt })).wf R.TIME_CADn_CYC_CYC
    (d.cadIdx n % 2 ^ 32) 0 n

theorem Dev.SamePace.reached {d x : Dev} (h : d.SamePace x) (n : Nat) : d.SamePace (x.reached n) :=
  (h.setCad n fun _ => by rfl).wf rfl rfl (by decide) _ n

theorem Dev.cad_reached_self (d : Dev) (n : Nat) : ((d.reached n).cad n).k = d.cadIdx n := by
  rw [Dev.reached, Dev.cad_of_time (Dev.wf_time ..), Dev.cad_setCad_self]

theorem Dev.cad_reached_ne {n i : Nat} (h : i ≠ n) (d : Dev) : (d.reached n).cad i = d.cad i := by
  rw [Dev.reached, Dev.cad_of_time (Dev.wf_time ..), Dev.cad_setCad_ne _ _ h]

/-- The cadences of a list take their numbers, the others keep theirs. -/
theorem Dev.foldl_reached (ns : List Nat) (d : Dev) :
    d.SamePace (ns.foldl Dev.reached d) ∧ ∀ i, ((ns.foldl Dev.reached d).cad i).k = if i ∈ ns then d.cadIdx i else (d.cad i).k := by
  induction ns generalizing d with
  | nil => exact ⟨.refl d, fun _ => by simp⟩
  | cons n ns ih =>
    have hn : d.SamePace (d.reached n) := (SamePace.refl d).reached n
    obtain ⟨hp, hk⟩ := ih (d.reached n)
    refine ⟨⟨hp.views.trans hn.views, hp.cnt.trans hn.cnt, fun i => (hp.mult i).trans (hn.mult i), fun i => (hp.phase i).trans (hn.phase i),
      fun i => (hp.used i).trans (hn.used i)⟩, fun i => ?_⟩
    rw [List.foldl_cons, hk, hn.cadIdx]
    by_cases hi : i = n
    · subst hi
      simp [Dev.cad_reached_self]
    · simp [hi, Dev.cad_reached_ne hi]

end Sys2Proof.Machine
end

section
/-!
SUPPORT. CADENCE_BOUNDARY as a whole.
-/
namespace Sys2Proof.Machine

/-- Without an exchange no unit is handed over. -/
theorem Dev.foldl_bnOn {d : Dev} (h : d.dupx.await = []) (ns : List Nat) (m : List Host.Cell) :
    ns.foldl (fun dm n => Dev.bnOn n dm) (d, m) = (d, m) := by
  induction ns with
  | nil => rfl
  | cons n ns ih => rw [List.foldl_cons, show Dev.bnOn n (d, m) = (d, m) by simp [Dev.bnOn, h], ih]

/-- Bits that the environment strikes change no byte beside their own. -/
theorem memGet_strike {flips : List (Nat × Byte)} {a : Nat} (h : ∀ f ∈ flips, f.1 ≠ a) (d : Dev) (m : List Host.Cell) :
    memGet (d.strike flips m) a = memGet m a := by
  refine foldl_keeps (fun y => memGet y a = memGet m a) _ flips m rfl (fun y f hf hy => ?_)
  split
  · rw [memGet_memSet_ne _ _ (h f hf).symm, hy]
  · exact hy

end Sys2Proof.Machine
end

section
/-!
SUPPORT. CADENCE_BOUNDARY as a whole (R28, R105, R106, R109, R110).
-/
namespace Sys2Proof.Machine

/-- A release of cadences touches neither the exchange nor a unit. -/
theorem Dev.cmpReleases_beside (d : Dev) : d.cmpReleases.dupx = d.dupx ∧ d.cmpReleases.units = d.units := by
  refine foldl_keeps (fun y => Dev.dupx y = d.dupx ∧ Dev.units y = d.units) _ _ d ⟨rfl, rfl⟩ (fun y i _ hy => ?_)
  split
  · refine foldl_keeps (fun y => Dev.dupx y = d.dupx ∧ Dev.units y = d.units) _ _ y hy (fun z n _ hz => ?_)
    dsimp only
    split <;> exact hz
  · exact hy

theorem Dev.foldl_reached_beside (ns : List Nat) (d : Dev) : (ns.foldl Dev.reached d).dupx = d.dupx ∧ (ns.foldl Dev.reached d).units = d.units :=
  foldl_keeps (fun y => Dev.dupx y = d.dupx ∧ Dev.units y = d.units) _ ns d ⟨rfl, rfl⟩ (fun _ _ _ hy => hy)

/-- Memory after the environment's upsets. -/
theorem Dev.struck_mem (flips : List (Nat × Byte)) (d : Dev) (m : List Host.Cell) : (Dev.struck flips (d, m)).2 = d.strike flips m := rfl

/-- Equal clocks agree in each part. -/
theorem Dev.of_clock {d x : Dev} (h : x.clock = d.clock) : (∀ v, x.vw v = d.vw v) ∧ x.time.cnt = d.time.cnt ∧ ∀ n, (x.cad n).k = (d.cad n).k :=
  by
  obtain ⟨hv, hc, hk⟩ : x.time.views = d.time.views ∧ x.time.cnt = d.time.cnt ∧ (fun n => (x.cad n).k) = fun n => (d.cad n).k := by
    simpa [Dev.clock] using h
  exact ⟨fun v => by rw [Dev.vw, hv, Dev.vw], hc, congrFun hk⟩

/-- A boundary where no exchange hands over and no unit has a register write staged: what it leaves of the time base, and the memory. -/
theorem Dev.boundary_clock (mask : Nat) (env : BoundaryEnv) {d : Dev} (ha : d.dupx.await = []) (hw : ∀ u, (d.un u).regw = []) (m : List Host.Cell) :
    (Dev.boundary mask env (d, m)).1.clock = ((d.cmpReleases.due mask).foldl Dev.reached d.cmpReleases).clock ∧
    ∃ y : Dev, (Dev.boundary mask env (d, m)).2 = y.strike env.flips m := by
  obtain ⟨hdx, hun⟩ := Dev.cmpReleases_beside d
  unfold Dev.boundary
  extract_lets dm ns reach d1 r m1 a d2 d3 d4 d5 d6 d7 d8 d9 d10 s d11
  have hreach : reach = Dev.reached := rfl
  have hd1 : d1 = ns.foldl Dev.reached d.cmpReleases := by unfold d1; rw [hreach]
  obtain ⟨h1x, h1u⟩ := Dev.foldl_reached_beside ns d.cmpReleases
  rw [← hd1] at h1x h1u
  have hx1 : d1.dupx.await = [] := by
    rw [h1x.trans hdx]
    exact ha
  have hr : r = (d1, m) := Dev.foldl_bnOn hx1 ns m
  have hr1 : r.1 = d1 := by rw [hr]
  have hm1 : m1 = m := by unfold m1; rw [hr]
  have hlatch : d1.NoWrite a.1 := by
    refine foldl_keeps (fun b : Dev × List Nat => d1.NoWrite b.1) _ ns _ ?_ (fun b n _ hb => hb.boundaryLatch m1 env.ops n)
    rw [hr1]
    exact ⟨rfl, fun u => by rw [Dev.un_of_units (h1u.trans hun) u, hw]⟩
  have h2 : d2.clock = d1.clock := (Dev.foldl_clock (fun y n => Dev.boundaryOutputs_clock n y) ns a.1).trans (Dev.clock_of_time hlatch.time)
  have h8 : d7.time = d2.time := by
    unfold d7 d6 d5 d4 d3
    rw [Dev.foldl_time (fun y n => Dev.boundaryFreeze_time n y), Dev.foldl_time (fun y n => Dev.boundaryInputs_time n y),
      Dev.foldl_time (fun y n => Dev.presentWords_time n y), Dev.foldl_time (fun y n => Dev.cadWindows_time n y), Dev.foldl_time
          (fun y n => Dev.pwmSync_time n y)]
  have h9 : d8.clock = d7.clock := Dev.foldl_clock (fun y n => Dev.boundaryFill_clock n y) ns d7
  have h10 : d10.time = d8.time := by
    unfold d10 d9
    rw [Dev.foldl_time (fun y n => Dev.histSample_time n y), Dev.foldl_time (fun y n => by rfl)]
  have hs : s.1.time = d10.time := (Dev.struck_upset env.flips d10 m1).time
  have h11 : d11.clock = s.1.clock := Dev.foldl_clock (fun y n => Dev.boundaryTokens_clock _ _ n y) ns s.1
  have hend : (ns.foldl (fun d n => d.copyLag n) d11.takeCheck.resumeCheck).time = d11.time := by
    rw [Dev.foldl_time (fun y n => Dev.copyLag_time n y), Dev.resumeCheck_time, Dev.takeCheck_time]
  refine ⟨?_, d10, ?_⟩
  · rw [Dev.clock_of_time hend, h11, Dev.clock_of_time hs, Dev.clock_of_time h10, h9, Dev.clock_of_time h8, h2, hd1]
  · rw [← hm1]
    exact Dev.struck_mem env.flips d10 m1

end Sys2Proof.Machine

open Sys2Proof Sys2Proof.Machine

/-- Settles O10: only the cadences that are due take a number (`foldl_reached`), the rest of a boundary leaves the clock (`boundary_clock`). -/
theorem boundaryCountsCycles : Obligations.BoundaryCountsCycles := by
  unfold Obligations.BoundaryCountsCycles
  intro s mask env hmask ha hw
  refine does_onMem (f := fun d m => Dev.boundary mask env (d, m)) (if_pos hmask) ?_
  obtain ⟨hclock, y, hmem⟩ := Dev.boundary_clock mask env ha hw s.mem
  have hrel := Dev.cmpReleases_released s.dev
  obtain ⟨hpace, hk⟩ := Dev.foldl_reached (s.dev.cmpReleases.due mask) s.dev.cmpReleases
  obtain ⟨hviews, hcnt, hks⟩ := Dev.of_clock hclock
  refine ⟨fun n => ?_, fun v => ?_, ?_, fun a hf => ?_⟩
  · rw [hks, hk, hrel.due, hrel.1.cadIdx, (hrel.2 n).2]
  · rw [hviews, Dev.vw, hpace.views, hrel.1.views, Dev.vw]
  · rw [hcnt, hpace.cnt, hrel.1.cnt]
  · rw [hmem]
    exact memGet_strike hf y s.mem
end

section
/-!
SUPPORT. Views (R95, R98): what a new value, a new target and a refusal leave of them.
-/
namespace Sys2Proof.Machine

/-- An event leaves the words of TIME. -/
theorem Dev.rf_raise_time {g : F} (hg : g.blk = .time) {v : Nat} (h : g.off + v * g.s1 < 0x10000) (c i : Nat) (data : List Byte) (d : Dev) :
    (d.raise c i data).rf g 0 v = d.rf g 0 v := by
  refine Dev.raise_rf c i data d g 0 v 0 ?_ ?_ ?_ <;> rw [addr_time hg] <;> omega

theorem Dev.vw_of_time {d x : Dev} (h : x.time = d.time) (v : Nat) : x.vw v = d.vw v := by rw [Dev.vw, h, Dev.vw]

/-- A view's value from its line. -/
theorem Dev.view_eq (d : Dev) (v : Nat) : d.view v = (d.vw v).base + (d.time.cnt - (d.vw v).tb) * (d.vw v).inc := rfl

theorem Dev.view_of_time {d x : Dev} (h : x.time = d.time) (v : Nat) : x.view v = d.view v := by
  rw [Dev.view_eq, Dev.vw_of_time h, h, ← Dev.view_eq]

/-! ### A new value (R98) -/

/-- What a new value of a view changes: the view's line, and for view 0 the boundaries that cadences look for (R106). -/
theorem Dev.setView_eq (v value : Nat) (d : Dev) : ∃ cads, d.setView v value =
    { d with time := { d.time with views := Tbl.put v { d.vw v with base := value % 2 ^ 104, tb := d.time.cnt } d.time.views, cads := cads } } := by
  unfold Dev.setView
  extract_lets w d1
  split
  · exact ⟨_, rfl⟩
  · exact ⟨d.time.cads, rfl⟩

theorem Dev.setView_regs (v value : Nat) (d : Dev) : (d.setView v value).regs = d.regs := by
  obtain ⟨cads, h⟩ := d.setView_eq v value
  rw [h]

theorem Dev.setView_evt (v value : Nat) (d : Dev) : (d.setView v value).evt = d.evt := by
  obtain ⟨cads, h⟩ := d.setView_eq v value
  rw [h]

theorem Dev.setView_frame (v value : Nat) (d : Dev) : { d.setView v value with time := d.time } = d := by
  obtain ⟨cads, h⟩ := d.setView_eq v value
  rw [h]

theorem Dev.setView_cnt (v value : Nat) (d : Dev) : (d.setView v value).time.cnt = d.time.cnt := by
  obtain ⟨cads, h⟩ := d.setView_eq v value
  rw [h]

theorem Dev.vw_setView_self (v value : Nat) (d : Dev) : (d.setView v value).vw v = { d.vw v with base := value % 2 ^ 104, tb := d.time.cnt } := by
  obtain ⟨cads, h⟩ := d.setView_eq v value
  rw [h]
  exact Tbl.getD_put_self _ _ _ _

theorem Dev.vw_setView_ne {v k : Nat} (h : k ≠ v) (value : Nat) (d : Dev) : (d.setView v value).vw k = d.vw k := by
  obtain ⟨cads, he⟩ := d.setView_eq v value
  rw [he]
  exact Tbl.getD_put_ne _ _ _ h

theorem Dev.view_setView_self (v value : Nat) (d : Dev) : (d.setView v value).view v = value % 2 ^ 104 := by
  simp only [Dev.view_eq, Dev.vw_setView_self, Dev.setView_cnt, Nat.sub_self, Nat.zero_mul, Nat.add_zero]

/-! ### A new target (R98) -/

/-- What a new target of a view changes: the target, and words of TIME. -/
theorem Dev.setTgt_eq (v tgt : Nat) (d : Dev) : ∃ regs, d.setTgt v tgt = { d.putView v { d.vw v with tgt := tgt } with regs := regs } := ⟨_, rfl⟩

theorem Dev.setInc_eq (v inc : Nat) (d : Dev) : ∃ regs, d.setInc v inc =
    { d.putView v { d.vw v with base := d.view v % 2 ^ 104, tb := d.time.cnt, inc := inc } with regs := regs } := ⟨_, rfl⟩

theorem Dev.setTgt_frame (v tgt : Nat) (d : Dev) : { d.setTgt v tgt with regs := d.regs, time := d.time } = d := by
  obtain ⟨regs, h⟩ := d.setTgt_eq v tgt
  rw [h]
  rfl

theorem Dev.vw_setTgt_self (v tgt : Nat) (d : Dev) : (d.setTgt v tgt).vw v = { d.vw v with tgt := tgt } := Tbl.getD_put_self _ _ _ _

theorem Dev.vw_setTgt_ne {v k : Nat} (h : k ≠ v) (tgt : Nat) (d : Dev) : (d.setTgt v tgt).vw k = d.vw k := Tbl.getD_put_ne _ _ _ h

/-- The target that the view has already leaves every view. -/
theorem Dev.vw_setTgt_same (v k : Nat) (d : Dev) : (d.setTgt v (d.vw v).tgt).vw k = d.vw k := by
  by_cases hk : k = v
  · rw [hk, Dev.vw_setTgt_self]
  · rw [Dev.vw_setTgt_ne hk]

theorem Dev.rf_setTgt_slew (v tgt : Nat) (d : Dev) : (d.setTgt v tgt).rf R.TIME_VSTAT_SLEW 0 v = b2n (decide ((d.vw v).inc ≠ tgt)) := by
  unfold Dev.setTgt Dev.wb
  rw [Dev.rf_wf_self]
  cases decide ((d.vw v).inc ≠ tgt) <;> rfl

theorem Dev.rf_setInc_slew (v inc : Nat) (d : Dev) : (d.setInc v inc).rf R.TIME_VSTAT_SLEW 0 v = b2n (decide (inc ≠ (d.vw v).tgt)) := by
  unfold Dev.setInc Dev.wb
  rw [Dev.rf_wf_self]
  cases decide (inc ≠ (d.vw v).tgt) <;> rfl

theorem Dev.vw_setInc_self (v inc : Nat) (d : Dev) :
    (d.setInc v inc).vw v = { d.vw v with base := d.view v % 2 ^ 104, tb := d.time.cnt, inc := inc } := Tbl.getD_put_self _ _ _ _

theorem Dev.vw_setInc_ne {v k : Nat} (h : k ≠ v) (inc : Nat) (d : Dev) : (d.setInc v inc).vw k = d.vw k := Tbl.getD_put_ne _ _ _ h

/-- A target's registers and SLEW leave the step state. -/
theorem Dev.vstate_setTgt (v tgt : Nat) (d : Dev) : (d.setTgt v tgt).vstate v = d.vstate v := by
  have other (f : F) (hf : f.blk = .time) (hs : f.s1 = 0x40) (ho : 0x104 % 0x40 ≠ f.off % 0x40) (x : Nat) (y : Dev) :
      (y.wf f x 0 v).vstate v = y.vstate v := Dev.rf_wf_time (g := R.TIME_VSTAT_STATE) hf rfl hs ho x y v v
  have beside (x : Nat) (y : Dev) : (y.wf R.TIME_VSTAT_SLEW x 0 v).vstate v = y.vstate v :=
    Dev.rf_wf_beside (g := R.TIME_VSTAT_STATE) x y rfl (by decide)
  exact (beside _ _).trans ((other R.TIME_INC_HI_INT rfl rfl (by decide) _ _).trans
    ((other R.TIME_INC_HI_FRACHI rfl rfl (by decide) _ _).trans (other R.TIME_INC_LO_FRAC rfl rfl (by decide) _ _)))

/-! ### A refusal (R98) -/

section
variable (v why : Nat) (d : Dev)

@[simp] theorem Dev.timeRefuse_time : (d.timeRefuse v why).time = d.time := Dev.raise_time ..

theorem Dev.timeRefuse_raises : Raises Ev.TIME_REFUSED 0 d (d.timeRefuse v why) :=
  ⟨(d.wf R.TIME_VSTAT_REFUSED 1 0 v).wf R.TIME_VSTAT_WHY why 0 v, [], rfl, rfl⟩

/-- REFUSED stands, WHY holds the reason, and the step state is as it was. -/
theorem Dev.timeRefuse_shows (hv : v < 8) (hwhy : why < 8) : (d.timeRefuse v why).rf R.TIME_VSTAT_REFUSED 0 v = 1 ∧
    (d.timeRefuse v why).rf R.TIME_VSTAT_WHY 0 v = why ∧ (d.timeRefuse v why).vstate v = d.vstate v := by
  have hvstat (g : F) (hg : g = R.TIME_VSTAT_REFUSED ∨ g = R.TIME_VSTAT_WHY ∨ g = R.TIME_VSTAT_STATE) :
      (d.timeRefuse v why).rf g 0 v = ((d.wf R.TIME_VSTAT_REFUSED 1 0 v).wf R.TIME_VSTAT_WHY why 0 v).rf g 0 v := by
    rcases hg with rfl | rfl | rfl <;> exact Dev.rf_raise_time rfl (by change 0x104 + v * 0x40 < _; omega) _ _ _ _
  have beside (g f : F) (hg : g.addr 0 v 0 = f.addr 0 v 0) (h : g.lo + g.w ≤ f.lo ∨ f.lo + f.w ≤ g.lo) (x : Nat) (y : Dev) :
      (y.wf f x 0 v).rf g 0 v = y.rf g 0 v := Dev.rf_wf_beside x y hg h
  refine ⟨?_, ?_, ?_⟩
  · rw [hvstat _ (.inl rfl), beside R.TIME_VSTAT_REFUSED R.TIME_VSTAT_WHY rfl (by decide), Dev.rf_wf_self]
    rfl
  · rw [hvstat _ (.inr (.inl rfl)), Dev.rf_wf_self]
    exact Nat.mod_eq_of_lt hwhy
  · rw [Dev.vstate, hvstat _ (.inr (.inr rfl)), beside R.TIME_VSTAT_STATE R.TIME_VSTAT_WHY rfl (by decide),
      beside R.TIME_VSTAT_STATE R.TIME_VSTAT_REFUSED rfl (by decide), Dev.vstate]

end

end Sys2Proof.Machine
end

section
/-!
SUPPORT. Writes of a view's words (R98): which commit and which are refused.
-/
namespace Sys2Proof.Machine
variable {d : Dev} {v : Nat}

/-- The value that a set brings: the held low words and fraction with the upper word written. -/
def Dev.setTo (d : Dev) (v : Nat) (hi : Word) : Nat :=
  (d.rf R.TIME_SET_NS_LO_V 0 v + hi.toNat * 2 ^ 32) * 2 ^ 40 + d.rf R.TIME_SET_FRAC_V 0 v * 2 ^ 8

/-- The nanoseconds of a step, as they are written. -/
def Dev.stepRaw (d : Dev) (v : Nat) (hi : Word) : Nat := d.rf R.TIME_STEP_LO_V 0 v + hi.toNat * 2 ^ 32

/-- The value that a step brings. -/
def Dev.stepTo (d : Dev) (v : Nat) (hi : Word) : Int := ((d.view v : Int) + toS 64 (d.stepRaw v hi) * 2 ^ 40) % 2 ^ 104

/-- The increment target written. -/
def Dev.incTo (d : Dev) (v : Nat) (hi : Word) : Nat := d.rf R.TIME_INC_LO_FRAC 0 v + bitsOf hi.toNat 0 16 * 2 ^ 32

theorem Dev.timeSet_commits (hi : Word) (hrun : v = 0 → d.running = false) (hfree : v < 2 → d.vstate v = vsFREE) :
    (d.timeSet v hi).1 = (d.wf R.TIME_SET_NS_HI_V hi.toNat 0 v).setView v (d.setTo v hi) := by
  rw [Dev.timeSet, if_neg (fun h => by simp [hrun h.1] at h), if_neg (fun h => h.2 (hfree h.1))]
  rfl

/-- A set is refused with reason 1 while the Last runs on view 0, otherwise with reason 2 where the view is not FREE. -/
theorem Dev.timeSet_refused (hi : Word) {why : Nat}
    (h : (v = 0 ∧ d.running = true ∧ why = 1) ∨ (¬ (v = 0 ∧ d.running = true) ∧ v < 2 ∧ d.vstate v ≠ vsFREE ∧ why = 2)) :
    (d.timeSet v hi).1 = d.timeRefuse v why ∧ why < 8 := by
  rcases h with ⟨hv, hrun, rfl⟩ | ⟨hrun, hv, hst, rfl⟩
  · rw [Dev.timeSet, if_pos ⟨hv, hrun⟩]
    exact ⟨rfl, by decide⟩
  · rw [Dev.timeSet, if_neg hrun, if_pos ⟨hv, hst⟩]
    exact ⟨rfl, by decide⟩

/-- A step from which the allowance of an ARMED view is taken, before it is recorded. -/
def Dev.stepped (v : Nat) (hi : Word) (d : Dev) : Dev :=
  let x := (d.wf R.TIME_STEP_HI_V hi.toNat 0 v).setView v (d.stepTo v hi).toNat
  if v < 2 ∧ x.vstate v = vsARMED then x.wf R.TIME_VSTAT_STATE vsSPENT 0 v else x

theorem Dev.timeStep_commits (hi : Word) (hrun : v = 0 → d.running = false) (hspent : v < 2 → d.vstate v ≠ vsSPENT) :
    ∃ data, (d.timeStep v hi).1 = (d.stepped v hi).raise Ev.TIME_STEP 0 data := by
  rw [Dev.timeStep, if_neg (fun h => by simp [hrun h.1] at h), if_neg (fun h => hspent h.1 h.2)]
  exact ⟨_, rfl⟩

theorem Dev.timeStep_refused (hi : Word) {why : Nat}
    (h : (v = 0 ∧ d.running = true ∧ why = 1) ∨ (¬ (v = 0 ∧ d.running = true) ∧ v < 2 ∧ d.vstate v = vsSPENT ∧ why = 2)) :
    (d.timeStep v hi).1 = d.timeRefuse v why ∧ why < 8 := by
  rcases h with ⟨hv, hrun, rfl⟩ | ⟨hrun, hv, hst, rfl⟩
  · rw [Dev.timeStep, if_pos ⟨hv, hrun⟩]
    exact ⟨rfl, by decide⟩
  · rw [Dev.timeStep, if_neg hrun, if_pos ⟨hv, hst⟩]
    exact ⟨rfl, by decide⟩

/-- The step's value, and the step state it leaves. -/
theorem Dev.stepped_shows (v : Nat) (hi : Word) (d : Dev) :
    (d.stepped v hi).time = ((d.wf R.TIME_STEP_HI_V hi.toNat 0 v).setView v (d.stepTo v hi).toNat).time ∧ (d.stepped v hi).evt = d.evt ∧
    (v < 2 → (d.stepped v hi).vstate v = if d.vstate v = vsARMED then vsSPENT else d.vstate v) := by
  unfold Dev.stepped
  extract_lets x
  have hst : x.vstate v = d.vstate v := by
    rw [Dev.vstate, Dev.rf_regs (Dev.setView_regs _ _ _)]
    exact Dev.rf_wf_time (g := R.TIME_VSTAT_STATE) (f := R.TIME_STEP_HI_V) rfl rfl rfl (by decide) _ d v v
  have hevt : x.evt = d.evt := Dev.setView_evt _ _ _
  by_cases harmed : v < 2 ∧ x.vstate v = vsARMED
  · rw [if_pos harmed]
    refine ⟨rfl, hevt, fun _ => ?_⟩
    rw [if_pos (hst ▸ harmed.2)]
    exact Dev.rf_wf_self _ _ _ _ _ _
  · rw [if_neg harmed]
    refine ⟨rfl, hevt, fun hv => ?_⟩
    rw [if_neg (fun h => harmed ⟨hv, hst.trans h⟩), hst]

/-- On views 0 and 1 the target alone changes; the others take it at once. -/
theorem Dev.timeInc_commits (wr : Writer) (hi : Word)
    (hok : v < 2 → incOk (d.incTo v hi) = true ∧ (wr = .eyelet → d.rf R.TIME_VCTL_SRC 0 v = 0)) :
    (d.timeInc wr v hi).1 = if v < 2 then d.setTgt v (d.incTo v hi) else (d.setTgt v (d.incTo v hi)).setInc v (d.incTo v hi) := by
  unfold Dev.timeInc
  by_cases hv : v < 2
  · obtain ⟨hband, hsrc⟩ := hok hv
    have hband' : ¬ (!incOk (d.incTo v hi)) = true := by simp [hband]
    rw [if_pos hv, if_pos hv]
    exact (congrArg Prod.fst (if_neg hband')).trans (congrArg Prod.fst (if_neg fun h => h.2 (hsrc h.1)))
  · rw [if_neg hv, if_neg hv]
    rfl

/-- A target that is accepted: where it acts at once it is the active increment too, and SLEW shows whether it is. -/
theorem Dev.retarget_shows (v t : Nat) (d : Dev) :
    let y := if v < 2 then d.setTgt v t else (d.setTgt v t).setInc v t
    (y.vw v).tgt = t ∧ (y.vw v).inc = (if v < 2 then (d.vw v).inc else t) ∧ (∀ w, w ≠ v → y.vw w = d.vw w) ∧
      y.rf R.TIME_VSTAT_SLEW 0 v = b2n (decide ((y.vw v).inc ≠ t)) ∧ { y with regs := d.regs, time := d.time } = d := by
  by_cases hv : v < 2
  · simp only [if_pos hv]
    refine ⟨by rw [Dev.vw_setTgt_self], by rw [Dev.vw_setTgt_self], fun w hw => Dev.vw_setTgt_ne hw _ _, ?_, Dev.setTgt_frame v t d⟩
    rw [Dev.rf_setTgt_slew, Dev.vw_setTgt_self]
  · simp only [if_neg hv]
    refine ⟨by rw [Dev.vw_setInc_self, Dev.vw_setTgt_self], by rw [Dev.vw_setInc_self],
      fun w hw => (Dev.vw_setInc_ne hw _ _).trans (Dev.vw_setTgt_ne hw _ _), ?_, ?_⟩
    · rw [Dev.rf_setInc_slew, Dev.vw_setTgt_self, Dev.vw_setInc_self]
    · obtain ⟨r1, h1⟩ := d.setTgt_eq v t
      obtain ⟨r2, h2⟩ := (d.setTgt v t).setInc_eq v t
      rw [h2, h1]
      rfl

theorem Dev.timeInc_refused (wr : Writer) (hi : Word) {why : Nat}
    (h : (v < 2 ∧ incOk (d.incTo v hi) = false ∧ why = 3) ∨
      (v < 2 ∧ incOk (d.incTo v hi) = true ∧ wr = .eyelet ∧ d.rf R.TIME_VCTL_SRC 0 v ≠ 0 ∧ why = 4)) :
    (d.timeInc wr v hi).1 = (d.setTgt v (d.vw v).tgt).timeRefuse v why ∧ why < 8 := by
  unfold Dev.timeInc
  rcases h with ⟨hv, hband, rfl⟩ | ⟨hv, hband, hwr, hsrc, rfl⟩
  · rw [if_pos hv]
    have hband' : (!incOk (d.incTo v hi)) = true := by simp [hband]
    exact ⟨congrArg Prod.fst (if_pos hband'), by decide⟩
  · rw [if_pos hv]
    have hband' : ¬ (!incOk (d.incTo v hi)) = true := by simp [hband]
    exact ⟨(congrArg Prod.fst (if_neg hband')).trans (congrArg Prod.fst (if_pos ⟨hwr, hsrc⟩)), by decide⟩

/-- A refusal on a device whose views, step state and recorder are those of `d`. -/
theorem Dev.refusal_shows {x : Dev} {why : Nat} (hv : v < 8) (hwhy : why < 8) (hvw : ∀ w, x.vw w = d.vw w) (hcnt : x.time.cnt = d.time.cnt)
    (hst : x.vstate v = d.vstate v) (hevt : x.evt = d.evt) :
    let y := x.timeRefuse v why
    y.rf R.TIME_VSTAT_REFUSED 0 v = 1 ∧ y.rf R.TIME_VSTAT_WHY 0 v = why ∧ y.vstate v = d.vstate v ∧
      (∀ w, y.view w = d.view w ∧ (y.vw w).inc = (d.vw w).inc ∧ (y.vw w).tgt = (d.vw w).tgt) ∧ Raises Ev.TIME_REFUSED 0 d y := by
  obtain ⟨href, hwhy', hst'⟩ := Dev.timeRefuse_shows v why x hv hwhy
  obtain ⟨z, data, hz, hy⟩ := Dev.timeRefuse_raises v why x
  have hvw' (w : Nat) : (x.timeRefuse v why).vw w = d.vw w := (Dev.vw_of_time (Dev.timeRefuse_time v why x) w).trans (hvw w)
  refine ⟨href, hwhy', hst'.trans hst, fun w => ⟨?_, by rw [hvw'], by rw [hvw']⟩, z, data, hz.trans hevt, hy⟩
  rw [Dev.view_eq, hvw', Dev.timeRefuse_time, hcnt, ← Dev.view_eq]

end Sys2Proof.Machine

open Sys2Proof Sys2Proof.Machine

/-- Settles O8: every refusal is `timeRefuse`, on the device itself or, for an increment, after its target's words show the old target again. -/
theorem timeRefusalsChangeNothing : Obligations.TimeRefusalsChangeNothing := by
  unfold Obligations.TimeRefusalsChangeNothing
  intro s v hi why hv refused
  have plain (hwhy : why < 8) := Dev.refusal_shows (d := s.dev) (x := s.dev) hv hwhy (fun _ => rfl) rfl rfl rfl
  refine ⟨fun h => ?set, fun h => ?step, fun wr hwr => ?inc⟩
  case set =>
    obtain ⟨he, hwhy⟩ := Dev.timeSet_refused hi h
    refine does_guarded (f := fun d => (d.timeSet v hi).1) rfl (decide_eq_true hv) ?_
    rw [he]
    exact plain hwhy
  case step =>
    obtain ⟨he, hwhy⟩ := Dev.timeStep_refused hi h
    refine does_guarded (f := fun d => (d.timeStep v hi).1) rfl (decide_eq_true hv) ?_
    rw [he]
    exact plain hwhy
  case inc =>
    intro ok h
    obtain ⟨he, hwhy⟩ := Dev.timeInc_refused wr hi h
    refine does_guarded (f := fun d => (d.timeInc wr v hi).1) rfl (by rcases hwr with rfl | rfl <;> simp [hv]) ?_
    rw [he]
    exact Dev.refusal_shows hv hwhy (fun w => Dev.vw_setTgt_same v w s.dev) rfl (Dev.vstate_setTgt ..) rfl

/-- Settles O7: a set and a step are `setView`, an increment is `setTgt`, at once followed by `setInc` on views 2 to 7. -/
theorem timeWritesCommit : Obligations.TimeWritesCommit := by
  unfold Obligations.TimeWritesCommit
  intro s v hi hv
  refine ⟨fun hrun hfree => ?set, fun hrun hspent => ?step, fun wr hwr hok => ?inc⟩
  case set =>
    refine does_guarded (f := fun d => (d.timeSet v hi).1) rfl (decide_eq_true hv) ?_
    rw [Dev.timeSet_commits hi hrun hfree]
    refine ⟨Dev.view_setView_self _ _ _, ?_, fun w hw => Dev.vw_setView_ne hw _ _, ?_, ?_⟩
    · rw [Dev.vw_setView_self]
      rfl
    · rw [Dev.vstate, Dev.rf_regs (Dev.setView_regs _ _ _)]
      exact Dev.rf_wf_time (g := R.TIME_VSTAT_STATE) (f := R.TIME_SET_NS_HI_V) rfl rfl rfl (by decide) _ s.dev v v
    · exact congrArg (fun y : Dev => { y with regs := s.dev.regs }) (Dev.setView_frame v (s.dev.setTo v hi) (s.dev.wf R.TIME_SET_NS_HI_V hi.toNat 0 v))
  case step =>
    refine does_guarded (f := fun d => (d.timeStep v hi).1) rfl (decide_eq_true hv) ?_
    obtain ⟨data, he⟩ := Dev.timeStep_commits hi hrun hspent
    obtain ⟨htime, hevt, hst⟩ := Dev.stepped_shows v hi s.dev
    rw [he]
    have htime' := (Dev.raise_time Ev.TIME_STEP 0 data (s.dev.stepped v hi)).trans htime
    refine ⟨?_, fun h2 => ?_, ?_, fun w hw => ?_, s.dev.stepped v hi, data, hevt, rfl⟩
    · rw [Dev.view_of_time htime', Dev.view_setView_self]
      change (((s.dev.stepTo v hi).toNat % 2 ^ 104 : Nat) : Int) = s.dev.stepTo v hi
      have hlo : 0 ≤ s.dev.stepTo v hi := Int.emod_nonneg _ (by decide)
      have hhi : s.dev.stepTo v hi < 2 ^ 104 := Int.emod_lt_of_pos _ (by decide)
      omega
    · rw [Dev.vstate, Dev.rf_raise_time rfl (by change 0x104 + v * 0x40 < _; omega)]
      exact hst h2
    · rw [Dev.vw_of_time htime', Dev.vw_setView_self]
      rfl
    · rw [Dev.vw_of_time htime', Dev.vw_setView_ne hw]
      rfl
  case inc =>
    refine does_guarded (f := fun d => (d.timeInc wr v hi).1) rfl (by rcases hwr with rfl | rfl <;> simp [hv]) ?_
    rw [Dev.timeInc_commits wr hi hok]
    exact Dev.retarget_shows v (s.dev.incTo v hi) s.dev
end

section
/-!
SUPPORT. Reads of TIME's words and snapshots of views (R94, R100).
-/
namespace Sys2Proof.Machine

/-! ### Reads (R94) -/

/-- A read of a word of TIME: what it shows, and the capture that a read of CNT_LO makes. -/
theorem Dev.readReg_time {o : Nat} (h4 : o % 4 = 0) (ho : o < 0x4000) (hc : o ≠ 0xC) (hb : blkAt (0x20000 + o) = some (.time, 0))
    (hw : findReg regsTIME o ≠ none) (w : Writer) (d : Dev) :
    d.readReg w (0x20000 + o) = (eyOK, d.viewTime o (d.rw (0x20000 + o)), if o = 0x10 then d.cntLoRead else d) := by
  have hmod : (0x20000 + o) % 0x10000 = o := by omega
  have halias : aliasOf .time o = (0, o) := by
    rw [aliasOf, if_neg (by simp)]
    exact Prod.ext (by simp; omega) (by simp; omega)
  have hpeek : d.peek (0x20000 + o) = d.viewTime o (d.rw (0x20000 + o)) := by
    rw [Dev.peek, hb]
    simp only [hmod, if_neg hc]
  obtain ⟨r, hr⟩ : ∃ r, d.wordAt .time 0 o = some r := by
    obtain ⟨p, hp⟩ := Option.ne_none_iff_exists'.mp hw
    exact ⟨_, (if_neg hc).trans (congrArg (Option.map _) hp)⟩
  unfold Dev.readReg
  rw [if_neg (by omega), hb]
  simp only [hmod, halias, Dev.present, Blk.count, Dev.absentWord, hr, Blk.base]
  simp [hpeek]
  split <;> rfl

/-- A request that reads one word of TIME has its word as its answer. -/
theorem exec_regRead_time {s : State} {q : Req} {o v : Nat} {x : Dev} (h : Admitted s q pvVIEW)
    (hr : s.dev.readReg .eyelet (0x20000 + o) = (eyOK, v, x)) :
    exec (.regRead q (0x20000 + o) 1) s = .next { s with dev := x.answer q eyOK (leBytes 4 v) } := by
  have hrun : exec (.regRead q (0x20000 + o) 1) s = execRegRead q (0x20000 + o) 1 s := rfl
  rw [hrun, execRegRead, State.eyelet_go _ h, State.on, if_neg (by decide)]
  simp [Dev.readWords, hr, eyOK, eyBAD_ADDR]

/-! ### Snapshots (R100) -/

/-- A snapshot's words of a view. -/
def Dev.snapOf (d : Dev) (v : Nat) : Nat × Nat × Nat := (d.rf R.TIME_SNAP_FRAC_V 0 v, d.rf R.TIME_SNAP_NS_LO_V 0 v, d.rf R.TIME_SNAP_NS_HI_V 0 v)

/-- A view's words as they are at the tick. -/
def Dev.viewWords (d : Dev) (v : Nat) : Nat × Nat × Nat := (d.viewFrac v % 2 ^ 32, d.viewNs v % 2 ^ 32, d.viewNs v / 2 ^ 32 % 2 ^ 32)

/-- One view goes into the snapshot. -/
def Dev.snapView (d : Dev) (v : Nat) : Dev :=
  ((d.wf R.TIME_SNAP_FRAC_V (d.viewFrac v) 0 v).wf R.TIME_SNAP_NS_LO_V (d.viewNs v) 0 v).wf R.TIME_SNAP_NS_HI_V (d.viewNs v / 2 ^ 32) 0 v

theorem Dev.snapOf_snapView_self (d : Dev) (v : Nat) : (d.snapView v).snapOf v = d.viewWords v := by
  have other (f g : F) (hf : f.blk = .time) (hg : g.blk = .time) (hs : f.s1 = g.s1) (ho : g.off % g.s1 ≠ f.off % g.s1) (x : Nat) (y : Dev) :
      (y.wf f x 0 v).rf g 0 v = y.rf g 0 v := Dev.rf_wf_time hf hg hs ho x y v v
  unfold Dev.snapOf Dev.snapView
  rw [other R.TIME_SNAP_NS_HI_V R.TIME_SNAP_FRAC_V rfl rfl rfl (by decide), other R.TIME_SNAP_NS_LO_V R.TIME_SNAP_FRAC_V rfl rfl rfl (by decide),
    other R.TIME_SNAP_NS_HI_V R.TIME_SNAP_NS_LO_V rfl rfl rfl (by decide)]
  simp only [Dev.rf_wf_self]
  rfl

/-- A word of TIME that is none of a snapshot's view words. -/
theorem Dev.rf_snapView {g : F} {i v : Nat} (hg : g.addr 0 i 0 ≠ R.TIME_SNAP_FRAC_V.addr 0 v 0) (hg' : g.addr 0 i 0 ≠ R.TIME_SNAP_NS_LO_V.addr 0 v 0)
    (hg'' : g.addr 0 i 0 ≠ R.TIME_SNAP_NS_HI_V.addr 0 v 0) (d : Dev) : (d.snapView v).rf g 0 i = d.rf g 0 i :=
  (Dev.rf_wf_word _ _ hg'').trans ((Dev.rf_wf_word _ _ hg').trans (Dev.rf_wf_word _ _ hg))

theorem Dev.snapOf_snapView_ne (d : Dev) {v i : Nat} (h : i ≠ v) : (d.snapView v).snapOf i = d.snapOf i := by
  have field (g : F) (hg : g.blk = .time) (hs : g.s1 = 0x40) (ho : g.off = 0x124 ∨ g.off = 0x128 ∨ g.off = 0x12c) :
      (d.snapView v).rf g 0 i = d.rf g 0 i := by
    refine Dev.rf_snapView ?_ ?_ ?_ d <;> rw [addr_time hg, addr_time rfl, hs] <;>
      simp only [R.TIME_SNAP_FRAC_V, R.TIME_SNAP_NS_LO_V, R.TIME_SNAP_NS_HI_V] <;> omega
  unfold Dev.snapOf
  rw [field R.TIME_SNAP_FRAC_V rfl rfl (by decide), field R.TIME_SNAP_NS_LO_V rfl rfl (by decide), field R.TIME_SNAP_NS_HI_V rfl rfl (by decide)]

/-- The selected views of a list go into the snapshot, the words of the others stay; the words before the views stay. -/
theorem Dev.foldl_snapView (mask : Nat) (vs : List Nat) (d : Dev) :
    let y := vs.foldl (fun d v => if bitAt mask v then d.snapView v else d) d
    { y with regs := d.regs } = d ∧ (∀ v, y.snapOf v = if v ∈ vs ∧ bitAt mask v = true then d.viewWords v else d.snapOf v) ∧
      ∀ a, a < 0x20100 → y.rw a = d.rw a := by
  induction vs generalizing d with
  | nil => exact ⟨rfl, fun _ => by simp, fun _ _ => rfl⟩
  | cons n vs ih =>
    rw [List.foldl_cons]
    by_cases hn : bitAt mask n = true
    · rw [if_pos hn]
      obtain ⟨hframe, hsnap, hlow⟩ := ih (d.snapView n)
      refine ⟨congrArg (fun y : Dev => { y with regs := d.regs }) hframe, fun v => ?_, fun a ha => ?_⟩
      · rw [hsnap v, show (d.snapView n).viewWords v = d.viewWords v from rfl]
        by_cases hv : v = n
        · rw [hv, Dev.snapOf_snapView_self]
          simp [hn]
        · rw [Dev.snapOf_snapView_ne _ hv]
          simp [hv]
      · refine (hlow a ha).trans ?_
        refine (Dev.rw_wf_ne _ _ ?_).trans ((Dev.rw_wf_ne _ _ ?_).trans (Dev.rw_wf_ne _ _ ?_)) <;> rw [addr_time rfl] <;>
          simp only [R.TIME_SNAP_FRAC_V, R.TIME_SNAP_NS_LO_V, R.TIME_SNAP_NS_HI_V] <;> omega
    · rw [if_neg hn]
      obtain ⟨hframe, hsnap, hlow⟩ := ih d
      refine ⟨hframe, fun v => (hsnap v).trans ?_, hlow⟩
      by_cases hv : v = n
      · rw [hv]
        simp [hn]
      · simp [hv]

/-- The counter goes into the snapshot. -/
def Dev.snapCnt (d : Dev) : Dev := d.w64 R.TIME_SNAP_CNT_LO_CNT R.TIME_SNAP_CNT_HI_CNT d.time.cnt

theorem Dev.timeSnap_eq (mask : Nat) (d : Dev) :
    d.timeSnap mask = ((List.range 8).foldl (fun d v => if bitAt mask v then d.snapView v else d) d.snapCnt).wf R.TIME_SNAP_CTL_DONE 1 := rfl

/-- A word before the views leaves the snapshot's view words. -/
theorem Dev.snapOf_wf {f : F} (hf : f.addr 0 0 0 < 0x20100) (x : Nat) (d : Dev) (v : Nat) : (d.wf f x).snapOf v = d.snapOf v := by
  have field (g : F) (hg : g.blk = .time) (ho : 0x100 ≤ g.off) : (d.wf f x).rf g 0 v = d.rf g 0 v := by
    refine Dev.rf_wf_word x d ?_
    rw [addr_time hg]
    omega
  unfold Dev.snapOf
  rw [field R.TIME_SNAP_FRAC_V rfl (by decide), field R.TIME_SNAP_NS_LO_V rfl (by decide), field R.TIME_SNAP_NS_HI_V rfl (by decide)]

theorem Dev.snapOf_snapCnt (d : Dev) (v : Nat) : d.snapCnt.snapOf v = d.snapOf v :=
  (Dev.snapOf_wf (by decide) _ _ v).trans (Dev.snapOf_wf (by decide) _ d v)

theorem Dev.rf_snapCnt (d : Dev) : d.snapCnt.rf R.TIME_SNAP_CNT_LO_CNT = d.time.cnt % 2 ^ 32 ∧
    d.snapCnt.rf R.TIME_SNAP_CNT_HI_CNT = d.time.cnt / 2 ^ 32 % 2 ^ 32 := by
  unfold Dev.snapCnt Dev.w64
  rw [Dev.rf_wf_word (f := R.TIME_SNAP_CNT_HI_CNT) (g := R.TIME_SNAP_CNT_LO_CNT) _ _ (by decide)]
  simp only [Dev.rf_wf_self]
  exact ⟨rfl, rfl⟩

end Sys2Proof.Machine

open Sys2Proof Sys2Proof.Machine

/-- Settles O6: the reads are those of two words of TIME (`readReg_time`), a snapshot is a fold over the views (`foldl_snapView`). -/
theorem timeCaptures : Obligations.TimeCaptures := by
  unfold Obligations.TimeCaptures
  intro s
  refine ⟨does_on (f := Dev.cntLoRead) rfl ⟨rfl, rfl⟩, fun q hq => ?reads, fun mask hmask => ?snap⟩
  case reads =>
    obtain ⟨x, hx⟩ := hq.session
    refine ⟨⟨_, exec_regRead_time (o := 0x10) hq (Dev.readReg_time rfl (by decide) (by decide) (by decide) (by decide) _ _), ?_, ?_⟩,
      ⟨_, exec_regRead_time (o := 0x14) hq (Dev.readReg_time rfl (by decide) (by decide) (by decide) (by decide) _ _), ?_, ?_⟩⟩
    · exact Dev.answer_answered q _ _ s.dev.cntLoRead x hx
    · exact congrArg (fun d : Dev => d.time.hi) (Dev.answer_frame q _ _ s.dev.cntLoRead)
    · exact Dev.answer_answered q _ _ s.dev x hx
    · exact Dev.answer_frame q _ _ s.dev
  case snap =>
    refine does_guarded (f := Dev.timeSnap mask) rfl (decide_eq_true hmask) ?_
    rw [Dev.timeSnap_eq]
    obtain ⟨hframe, hsnap, hlow⟩ := Dev.foldl_snapView mask (List.range 8) s.dev.snapCnt
    have hlow' (g : F) (hg : g.addr 0 0 0 < 0x20100) (hne : g.addr 0 0 0 ≠ 0x20018) :
        (((List.range 8).foldl (fun d v => if bitAt mask v then d.snapView v else d) s.dev.snapCnt).wf R.TIME_SNAP_CTL_DONE 1).rf g =
          s.dev.snapCnt.rf g := by
      rw [Dev.rf_wf_word _ _ hne, Dev.rf, hlow _ hg, Dev.rf]
    refine ⟨congrArg (fun d : Dev => { d with regs := s.dev.regs }) hframe, (hlow' R.TIME_SNAP_CNT_LO_CNT (by decide) (by decide)).trans
        (Dev.rf_snapCnt s.dev).1,
      (hlow' R.TIME_SNAP_CNT_HI_CNT (by decide) (by decide)).trans (Dev.rf_snapCnt s.dev).2, Dev.rf_wf_self _ _ _ _ _ _, fun v hv => ?_⟩
    have hshow := (Dev.snapOf_wf (f := R.TIME_SNAP_CTL_DONE) (by decide) 1 _ v).trans (hsnap v)
    refine ⟨fun hbit => ?_, fun hbit => ?_⟩
    · rw [if_pos ⟨List.mem_range.mpr hv, hbit⟩] at hshow
      exact ⟨congrArg Prod.fst hshow, congrArg (·.2.1) hshow, congrArg (·.2.2) hshow⟩
    · rw [if_neg (by simp [hbit]), Dev.snapOf_snapCnt] at hshow
      exact ⟨congrArg Prod.fst hshow, congrArg (·.2.1) hshow, congrArg (·.2.2) hshow⟩
end

section
/-!
SUPPORT. What locks and steps of views leave alone; a tick on an empty queue (R93), and reset.
-/
namespace Sys2Proof.Machine

/-! ### Parts of the device beside views, locks and references (R97 to R99, R108) -/

/-- A part of the device that is the same after a word's write, an event, a new value of a view and new references of cadences. -/
structure BesideViews {α : Type} (p : Dev → α) : Prop where
  wf : ∀ f v d k i j, p (Dev.wf f v d k i j) = p d
  raise : ∀ c i data d, p (Dev.raise c i data d) = p d
  setView : ∀ v x d, p (Dev.setView v x d) = p d
  cads : ∀ (d : Dev) t, p { d with time := { d.time with cads := t } } = p d

namespace BesideViews
variable {α : Type} {p : Dev → α} (h : BesideViews p)
include h

theorem releaseWait (d : Dev) : p d.releaseWait = p d := by
  unfold Dev.releaseWait
  split
  · rfl
  · refine foldl_const p _ _ _ (fun y n => ?_)
    dsimp only
    split
    · rw [Dev.wb_eq, h.wf, h.cads]
    · rfl

theorem declareLock (v : Nat) (d : Dev) : p (d.declareLock v) = p d := by
  unfold Dev.declareLock
  extract_lets d1 d2
  have h1 : p d1 = p d := by rw [h.raise, h.wf]
  have h2 : p d2 = p d := by
    unfold d2
    split
    · rw [h.wf, h1]
    · exact h1
  split
  · rfl
  · split
    · rw [h.releaseWait, h2]
    · exact h2

theorem followStep (d : Dev) : p d.followStep = p d := by
  unfold Dev.followStep
  extract_lets armed diff d1 d2 d3
  have h2 : p d2 = p d := by rw [h.raise, h.setView]
  have h3 : p d3 = p d := by
    unfold d3
    split
    · rw [h.wf, h2]
    · exact h2
  split
  · rw [h.declareLock, h3]
  · rfl

theorem loseLock (v : Nat) (d : Dev) : p (d.loseLock v) = p d := by
  unfold Dev.loseLock
  extract_lets drop d1
  have hdrop (w : Nat) (y : Dev) : p (drop w y) = p y := by
    unfold drop
    split
    · rw [h.raise, h.wf]
    · rfl
  split
  · rw [hdrop, hdrop]
  · exact hdrop v d

end BesideViews

/-! ### A tick (R93) -/

/-- The counter and the lock of the rim PLL. -/
def Dev.pulse (d : Dev) : Nat × Bool := (d.time.cnt, d.time.pll)

theorem Dev.pulse_of_time {d x : Dev} (h : x.time = d.time) : x.pulse = d.pulse := by rw [Dev.pulse, h, Dev.pulse]

theorem Dev.pulse_beside : BesideViews Dev.pulse where
  wf _ _ _ _ _ _ := rfl
  raise _ _ _ _ := Dev.pulse_of_time (Dev.raise_time ..)
  setView v x d := by
    obtain ⟨cads, h⟩ := d.setView_eq v x
    rw [h]
    rfl
  cads _ _ := rfl

theorem Dev.pulse_followRate (d : Dev) : d.followRate.pulse = d.pulse := by
  unfold Dev.followRate
  split <;> rfl

theorem Dev.pulse_slew (v : Nat) (d : Dev) : (d.slew v).pulse = d.pulse := by
  unfold Dev.slew
  extract_lets w left new gone
  split <;> rfl

/-- A tick counts where the PLL is locked (R93). -/
theorem Dev.pulse_tick (d : Dev) : d.tick.pulse = (d.time.cnt + (if d.time.pll then 1 else 0), d.time.pll) := by
  unfold Dev.tick
  extract_lets r d1 t d2 d3
  have h3 : d3.pulse = (d.time.cnt + 1, d.time.pll) := Dev.pulse_beside.followStep d2
  by_cases hpll : d.time.pll = true
  · rw [if_pos (show d1.time.pll = true from hpll), if_pos hpll, ← h3]
    split
    · rw [Dev.pulse_slew, Dev.pulse_slew, Dev.pulse_followRate]
    · rfl
  · rw [if_neg (show ¬ d1.time.pll = true from hpll), if_neg hpll]
    rfl

theorem Dev.pulse_slotDone (w : SlotWr) (im : List Byte) (d : Dev) : (d.slotDone w im).pulse = d.pulse := by
  unfold Dev.slotDone
  extract_lets c d1
  have hrespond (o : Nat × Nat) (p : List Byte) (y : Dev) : (y.respond o.1 o.2 eyOK p).pulse = y.pulse :=
    Dev.pulse_of_time (congrArg Dev.time (Dev.respond_frame o.1 o.2 eyOK p y) :)
  rw [Dev.loadResult_false, Dev.loadAnswer_some, hrespond, Dev.pulse_of_time (Dev.wf_time ..), Dev.pulse_of_time (Dev.wf_time ..)]
  rfl

theorem Dev.pulse_fresh (w : Nat) (d : Dev) : (d.fresh w).2.pulse = d.pulse := rfl

theorem Dev.pulse_slotRun (d : Dev) : d.slotRun.pulse = d.pulse := by
  unfold Dev.slotRun
  split
  · rfl
  · extract_lets e p x
    split
    · rfl
    · rw [Dev.pulse_slotDone, Dev.pulse_fresh, Dev.pulse_fresh, Dev.pulse_fresh]

end Sys2Proof.Machine

open Sys2Proof Sys2Proof.Machine

/-- Settles O2: the tick moves the counter, a slot write that goes on in it does not. -/
theorem idleStepIsOneTick : Obligations.IdleStepIsOneTick := by
  unfold Obligations.IdleStepIsOneTick
  intro s hp
  have hpulse : s.dev.idle.pulse = _ := (Dev.pulse_slotRun s.dev.tick).trans (Dev.pulse_tick s.dev)
  exact ⟨s.dev.idle, by rw [step, hp], congrArg Prod.fst hpulse, congrArg Prod.snd hpulse⟩

/-- Settles O4: the views, the words of the registers and the empty parts that reset lists. -/
theorem resetState : Obligations.ResetState := by
  unfold Obligations.ResetState
  exact ⟨rfl, rfl, rfl, rfl, by decide, by decide, rfl, by decide, by decide, by decide, by decide⟩
end

section
/-!
SUPPORT. RUN and STOP (R108, R377): the cadences that a release starts and a stop ends.
-/
namespace Sys2Proof.Machine

/-! ### A release (R108) -/

/-- A cadence is released: the present tick is its reference, or none where it waits for the LOCK of view 0. -/
def Dev.startCad (d : Dev) (n : Nat) : Dev :=
  let wait := d.flag R.TIME_CADn_CFG_WAITLOCK 0 n && !d.locked 0
  let defer := d.heldByCmp n
  (d.setCad n (fun c => { c with ref := if wait then none else some d.time.cnt, since := d.time.cnt, deferred := defer, run := false,
                                 halt := false, stopping := false, firstLatch := false })).wb R.TIME_CADn_STAT_WAIT (wait || defer) 0 n

/-- The reference that a release gives a cadence. -/
def Dev.startRef (d : Dev) (n : Nat) : Option Nat :=
  if d.flag R.TIME_CADn_CFG_WAITLOCK 0 n = true ∧ d.locked 0 = false then none else some d.time.cnt

/-- What neither a release nor a stop of a cadence changes. -/
structure Dev.SameRun (d x : Dev) : Prop where
  views : x.time.views = d.time.views
  cnt : x.time.cnt = d.time.cnt
  waitlock : ∀ n, x.flag R.TIME_CADn_CFG_WAITLOCK 0 n = d.flag R.TIME_CADn_CFG_WAITLOCK 0 n
  locked : x.locked 0 = d.locked 0
  state : x.lastState = d.lastState
  sess : x.sessions = d.sessions

namespace Dev.SameRun
variable {d x : Dev} (h : d.SameRun x)

theorem refl (d : Dev) : d.SameRun d := ⟨rfl, rfl, fun _ => rfl, rfl, rfl, rfl⟩

include h

theorem setCad (n : Nat) (f : CadSt → CadSt) : d.SameRun (x.setCad n f) := ⟨h.views, h.cnt, h.waitlock, h.locked, h.state, h.sess⟩

/-- The status word of a cadence. -/
theorem wf {f : F} (hf : f.blk = .time) (hs : f.s1 = 0x10) (ho : f.off = 0x40c) (v i : Nat) : d.SameRun (x.wf f v 0 i 0) where
  views := h.views
  cnt := h.cnt
  waitlock n := (congrArg (fun w : Nat => decide (w ≠ 0)) (Dev.rf_wf_time (g := R.TIME_CADn_CFG_WAITLOCK) hf rfl hs
    (show 0x400 % 0x10 ≠ f.off % 0x10 by rw [ho]; decide) v x i n)).trans (h.waitlock n)
  locked := by
    refine (congrArg (fun w : Nat => decide (w ≠ 0)) (Dev.rf_wf_word (g := R.TIME_VSTAT_LOCK) v x ?_)).trans h.locked
    rw [addr_time hf, addr_time rfl, ho, hs]
    simp only [R.TIME_VSTAT_LOCK]
    omega
  state := by
    refine (Dev.rf_wf_word (g := R.SYS_LAST_STAT_STATE) v x ?_).trans h.state
    rw [addr_time hf]
    simp only [F.addr, R.SYS_LAST_STAT_STATE, Blk.base]
    omega
  sess := h.sess

theorem startRef (n : Nat) : x.startRef n = d.startRef n := by rw [Dev.startRef, h.waitlock, h.locked, h.cnt, Dev.startRef]

theorem startCad (n : Nat) : d.SameRun (x.startCad n) := (h.setCad n _).wf rfl rfl rfl _ n

end Dev.SameRun

theorem Dev.cad_startCad_self (d : Dev) (n : Nat) : ((d.startCad n).cad n).ref = d.startRef n := by
  unfold Dev.startCad
  extract_lets wait defer
  rw [Dev.wb_eq, Dev.cad_of_time (Dev.wf_time ..), Dev.cad_setCad_self, Dev.startRef]
  simp [wait]

theorem Dev.cad_startCad_ne {n i : Nat} (h : i ≠ n) (d : Dev) : (d.startCad n).cad i = d.cad i := by
  unfold Dev.startCad
  extract_lets wait defer
  rw [Dev.wb_eq, Dev.cad_of_time (Dev.wf_time ..), Dev.cad_setCad_ne _ _ h]

theorem Dev.foldl_startCad (ns : List Nat) (d : Dev) :
    d.SameRun (ns.foldl Dev.startCad d) ∧ ∀ n, ((ns.foldl Dev.startCad d).cad n).ref = if n ∈ ns then d.startRef n else (d.cad n).ref := by
  refine ⟨foldl_keeps (fun y => d.SameRun y) _ ns d (.refl d) (fun y n _ hy => hy.startCad n), ?_⟩
  induction ns generalizing d with
  | nil => exact fun _ => by simp
  | cons n ns ih =>
    intro i
    rw [List.foldl_cons, ih, ((SameRun.refl d).startCad n).startRef]
    by_cases hi : i = n
    · rw [hi, Dev.cad_startCad_self]
      simp
    · simp [hi, Dev.cad_startCad_ne hi]

/-- Partitions that start change units alone (R160). -/
theorem Dev.autorun_units (d : Dev) : ∃ u, d.autorun = { d with units := u } := by
  refine foldl_keeps (fun y : Dev => ∃ u, y = { d with units := u }) _ _ d ⟨d.units, rfl⟩ ?_
  rintro y p - ⟨u, rfl⟩
  split
  · unfold Dev.partStart
    extract_lets cfg d1
    obtain ⟨v, hv⟩ : ∃ v, d1 = { d with units := v } := by
      refine foldl_keeps (fun y : Dev => ∃ v, y = { d with units := v }) _ _ _ ⟨u, rfl⟩ ?_
      rintro z g - ⟨v, rfl⟩
      exact ⟨_, rfl⟩
    rw [hv]
    exact ⟨_, rfl⟩
  · exact ⟨u, rfl⟩

theorem Dev.mem_usedCads {d : Dev} {n : Nat} : n ∈ d.usedCads ↔ n < 8 ∧ (d.cad n).used = true := by simp [Dev.usedCads]

/-- The Last is released: RUNNING, and its cadences have their references. -/
theorem Dev.runLast_shows (d : Dev) : d.runLast.lastState = lsRUNNING ∧ d.runLast.sessions = d.sessions ∧ d.runLast.time.views = d.time.views ∧
    ∀ n, n < 8 → (d.cad n).used = true → (d.runLast.cad n).ref = d.startRef n := by
  unfold Dev.runLast
  obtain ⟨u, hu⟩ := d.outsRun.linksRun.startCads.autorun_units
  rw [hu]
  have hstart : d.outsRun.linksRun.startCads = d.usedCads.foldl Dev.startCad (d.outsRun.linksRun.setLast lsRUNNING) := rfl
  obtain ⟨hsame, href⟩ := Dev.foldl_startCad d.usedCads (d.outsRun.linksRun.setLast lsRUNNING)
  rw [← hstart] at hsame href
  have hrun : (d.outsRun.linksRun.setLast lsRUNNING).lastState = lsRUNNING := Dev.rf_wf_self _ _ _ _ _ _
  have hflag (n : Nat) : (d.outsRun.linksRun.setLast lsRUNNING).startRef n = d.startRef n := by
    have hw : (d.outsRun.linksRun.setLast lsRUNNING).flag R.TIME_CADn_CFG_WAITLOCK 0 n = d.flag R.TIME_CADn_CFG_WAITLOCK 0 n := by
      refine congrArg (fun w : Nat => decide (w ≠ 0)) ((Dev.rf_wf_word (g := R.TIME_CADn_CFG_WAITLOCK) _ _ ?_).trans rfl)
      rw [addr_time rfl]
      simp only [F.addr, R.SYS_LAST_STAT_STATE, Blk.base]
      omega
    have hl : (d.outsRun.linksRun.setLast lsRUNNING).locked 0 = d.locked 0 :=
      congrArg (fun w : Nat => decide (w ≠ 0)) (Dev.rf_wf_word (g := R.TIME_VSTAT_LOCK) (f := R.SYS_LAST_STAT_STATE) _ _ (by decide))
    rw [Dev.startRef, hw, hl]
    rfl
  refine ⟨hsame.state.trans hrun, hsame.sess, hsame.views, fun n hn hused => ?_⟩
  refine (href n).trans ?_
  rw [if_pos (Dev.mem_usedCads.mpr ⟨hn, hused⟩), hflag]

/-! ### A stop (R377) -/

/-- A cadence is stopped: it takes its last latch first. -/
def Dev.stopCad (d : Dev) (n : Nat) : Dev :=
  ((d.setCad n (fun c => { c with ref := none, deferred := false, halt := false, stopping := true, firstLatch := true })).wf
    R.TIME_CADn_STAT_WAIT 0 0 n).wf R.TIME_CADn_STAT_RUN 0 0 n

theorem Dev.SameRun.stopCad {d x : Dev} (h : d.SameRun x) (n : Nat) : d.SameRun (x.stopCad n) := ((h.setCad n _).wf rfl rfl rfl _ n).wf rfl rfl rfl _ n

/-- A stopped cadence has no reference, will latch once more and does not show RUN. -/
def Dev.CadStopped (d : Dev) (n : Nat) : Prop := (d.cad n).ref = none ∧ (d.cad n).stopping = true ∧ d.rf R.TIME_CADn_STAT_RUN 0 n = 0

theorem Dev.cadStopped_stopCad_self (d : Dev) (n : Nat) : (d.stopCad n).CadStopped n := by
  have hcad : (d.stopCad n).cad n = { d.cad n with ref := none, deferred := false, halt := false, stopping := true, firstLatch := true } := by
    unfold Dev.stopCad
    rw [Dev.cad_of_time (Dev.wf_time ..), Dev.cad_of_time (Dev.wf_time ..), Dev.cad_setCad_self]
  exact ⟨congrArg CadSt.ref hcad, congrArg CadSt.stopping hcad, Dev.rf_wf_self _ _ _ _ _ _⟩

/-- A cadence that stops leaves the others. -/
theorem Dev.CadStopped.stopCad_ne {d : Dev} {n i : Nat} (hi : i ≠ n) (h : d.CadStopped i) : (d.stopCad n).CadStopped i := by
  obtain ⟨href, hstop, hrun⟩ := h
  have hcad : (d.stopCad n).cad i = d.cad i := by
    unfold Dev.stopCad
    rw [Dev.cad_of_time (Dev.wf_time ..), Dev.cad_of_time (Dev.wf_time ..), Dev.cad_setCad_ne _ _ hi]
  have hword (f : F) (hf : f.blk = .time) (hs : f.s1 = 0x10) (ho : f.off = 0x40c) (y : Dev) :
      (y.wf f 0 0 n).rf R.TIME_CADn_STAT_RUN 0 i = y.rf R.TIME_CADn_STAT_RUN 0 i :=
    Dev.rf_wf_time_index (g := R.TIME_CADn_STAT_RUN) hf rfl hs ho (by decide) hi 0 y
  refine ⟨by rw [hcad, href], by rw [hcad, hstop], ?_⟩
  unfold Dev.stopCad
  rw [hword _ rfl rfl rfl, hword _ rfl rfl rfl]
  exact hrun

theorem Dev.foldl_stopCad (ns : List Nat) (d : Dev) :
    d.SameRun (ns.foldl Dev.stopCad d) ∧ ∀ n, (n ∈ ns ∨ d.CadStopped n) → (ns.foldl Dev.stopCad d).CadStopped n := by
  refine ⟨foldl_keeps (fun y => d.SameRun y) _ ns d (.refl d) (fun y n _ hy => hy.stopCad n), ?_⟩
  induction ns generalizing d with
  | nil => exact fun n hn => hn.resolve_left List.not_mem_nil
  | cons n ns ih =>
    intro i hi
    refine ih (d.stopCad n) i ?_
    by_cases hin : i = n
    · exact .inr (hin ▸ Dev.cadStopped_stopCad_self d n)
    · rcases hi with hmem | hst
      · exact .inl ((List.mem_cons.mp hmem).resolve_left hin)
      · exact .inr (hst.stopCad_ne hin)

/-- Partitions that halt leave the time base, the sessions and the words of SYS. -/
theorem Dev.foldl_partHalt (ps : List Nat) (d : Dev) :
    let y := ps.foldl (fun d p => d.partHalt p 0 none) d
    y.time = d.time ∧ y.sessions = d.sessions ∧ y.lastState = d.lastState := by
  refine foldl_keeps (fun y : Dev => y.time = d.time ∧ y.sessions = d.sessions ∧ y.lastState = d.lastState) _ ps d ⟨rfl, rfl, rfl⟩ ?_
  rintro y p - ⟨ht, hs, hst⟩
  obtain ⟨x, g, w, u, hx, he⟩ := Dev.partHalt_eq p 0 none y
  have hxt : x.time = y.time := hx.time
  obtain ⟨⟨o, r, hxeq⟩, hword⟩ := hx
  have hxs : x.sessions = y.sessions := by rw [hxeq]
  have hxl : x.lastState = y.lastState := congrArg (fun w => bitsOf w 0 3) (hword 0x40 (by decide))
  rw [he]
  exact ⟨hxt.trans ht, hxs.trans hs, hxl.trans hst⟩

/-- An answer leaves the time base, resets and the words of registers. -/
theorem Dev.answer_keeps (q : Req) (st : Nat) (p : List Byte) (d : Dev) :
    (d.answer q st p).time = d.time ∧ (d.answer q st p).rst = d.rst ∧ (d.answer q st p).regs = d.regs := by
  have hframe := Dev.answer_frame q st p d
  exact ⟨(congrArg Dev.time hframe :), (congrArg Dev.rst hframe :), (congrArg Dev.regs hframe :)⟩

/-- The Last is stopped: STOPPED, and every cadence it uses is. -/
theorem Dev.stopLast_shows (d : Dev) : d.stopLast.lastState = lsSTOPPED ∧ d.stopLast.sessions = d.sessions ∧
    ∀ n, n < 8 → (d.cad n).used = true → d.stopLast.CadStopped n := by
  unfold Dev.stopLast
  extract_lets d1 d2
  obtain ⟨htime, hsess, hstate⟩ := Dev.foldl_partHalt (d1.partsOf.filter (fun p => (d1.partCad p).isNone && decide ((d1.partSt p).st ≠ 0))) d1
  have hst1 : d1.lastState = lsSTOPPED := Dev.rf_wf_self _ _ _ _ _ _
  obtain ⟨hsame, hstop⟩ := Dev.foldl_stopCad d2.usedCads d2
  refine ⟨hsame.state.trans (hstate.trans hst1), hsame.sess.trans hsess, fun n hn hused => hstop n (.inl (Dev.mem_usedCads.mpr ⟨hn, ?_⟩))⟩
  rwa [Dev.cad_of_time (show d2.time = d.time from htime)]

end Sys2Proof.Machine

open Sys2Proof Sys2Proof.Machine

/-- Settles O22: what `runLast` and `stopLast` leave, and the answer in each case. -/
theorem runAndStop : Obligations.RunAndStop := by
  unfold Obligations.RunAndStop
  intro s q hq may
  obtain ⟨x, hx⟩ := hq.session
  have hrun : exec (.run q) s = execRun q s := rfl
  have hstop : exec (.stop q) s = execStop q s := rfl
  rw [execRun, State.eyelet_go _ hq] at hrun
  rw [execStop, State.eyelet_go _ hq] at hstop
  have refused : Answered q eyREFUSED [] (s.dev.answer q eyREFUSED []) ∧
      { s.dev.answer q eyREFUSED [] with sessions := s.dev.sessions, sent := s.dev.sent, eth := s.dev.eth } = s.dev :=
    ⟨Dev.answer_answered q _ _ s.dev x hx, Dev.answer_frame q _ _ s.dev⟩
  refine ⟨fun hmay hwait => ?run, fun hrunning => ?stop, fun hmay hwait => ?wait, fun hmay => ?runRefused, fun hnot => ?stopRefused⟩
  case run =>
    refine does_on hrun ?_
    rw [if_pos hmay, if_neg (by simp [hwait])]
    obtain ⟨hstate, hsess, hviews, href⟩ := Dev.runLast_shows s.dev
    generalize hy : ({ s.dev.runLast with rst := { s.dev.rst with safe := false, holdFrom := none } } : Dev) = y
    have hyt : y.time = s.dev.runLast.time := by rw [← hy]
    have hyr : y.regs = s.dev.runLast.regs := by rw [← hy]
    have hsafe : y.rst.safe = false := by rw [← hy]
    have hys : y.sessions = s.dev.sessions := by rw [← hy, ← hsess]
    obtain ⟨htime, hrst, hregs⟩ := Dev.answer_keeps q eyOK [] y
    refine ⟨(Dev.rf_regs (hregs.trans hyr) _ _ _ _).trans hstate, Dev.answer_answered q _ _ y x (by rw [hys, hx]), by rw [hrst, hsafe],
      by rw [htime, hyt, hviews], fun n hn hused => ?_⟩
    rw [Dev.cad_of_time (htime.trans hyt), href n hn hused]
    rfl
  case stop =>
    refine does_on hstop ?_
    rw [if_pos (show s.dev.running = true from decide_eq_true hrunning)]
    obtain ⟨hstate, hsess, hcads⟩ := Dev.stopLast_shows s.dev
    obtain ⟨htime, -, hregs⟩ := Dev.answer_keeps q eyOK [] s.dev.stopLast
    refine ⟨(Dev.rf_regs hregs _ _ _ _).trans hstate, Dev.answer_answered q _ _ _ x (by rw [hsess, hx]), fun n hn hused => ?_⟩
    obtain ⟨href, hstopping, hrun⟩ := hcads n hn hused
    rw [Dev.cad_of_time htime]
    exact ⟨href, hstopping, (Dev.rf_regs hregs _ _ _ _).trans hrun⟩
  case wait =>
    refine does_on hrun ?_
    rw [if_pos hmay, if_pos hwait]
    generalize hy : ({ s.dev with rst := { s.dev.rst with plrRun := true } } : Dev) = y
    have hys : y.sessions = s.dev.sessions := by rw [← hy]
    have hrun : y.rst.plrRun = true := by rw [← hy]
    obtain ⟨-, hrst, -⟩ := Dev.answer_keeps q eyOK [] y
    refine ⟨by rw [hrst, hrun], Dev.answer_answered q _ _ y x (by rw [hys, hx]), ?_⟩
    subst hy
    exact congrArg (fun z : Dev => { z with rst := s.dev.rst }) (Dev.answer_frame q eyOK [] { s.dev with rst := { s.dev.rst with plrRun := true } })
  case runRefused =>
    refine does_on hrun ?_
    rw [if_neg hmay]
    exact refused
  case stopRefused =>
    refine does_on hstop ?_
    rw [if_neg (by simpa [Dev.running] using hnot)]
    exact refused
end

section
/-!
SUPPORT. Frames that carry PTP messages, and a message queued behind the frame that a port sends (R339, R343, R344).
-/
namespace Sys2Proof.Machine

/-! ### Big-endian fields -/

@[simp] theorem length_beBytes (n x : Nat) : (beBytes n x).length = n := by simp [beBytes]

/-- A stretch of known bytes, where it stands. -/
theorem slice_mid {a b : List Byte} (c : List Byte) {o n : Nat} (ho : a.length = o) (hn : b.length = n) : slice (a ++ (b ++ c)) o n = b := by
  subst ho hn
  simp [slice]

theorem be_beBytes {a : List Byte} {o : Nat} (ho : a.length = o) (n x : Nat) (c : List Byte) : be (a ++ (beBytes n x ++ c)) o n = x % 2 ^ (8 * n) := by
  rw [be, slice_mid c ho (length_beBytes n x), beBytes, List.reverse_reverse, leNat_leBytes]

/-! ### An untagged frame -/

theorem ethFrame_eq (dst src typ : Nat) (body : List Byte) :
    ethFrame dst src typ body = (beBytes 6 dst ++ beBytes 6 src) ++ (beBytes 2 typ ++ (body ++ zeros (46 - body.length))) := by
  simp [ethFrame]

/-- A PTP frame has no tag, its own EtherType, and the message as its payload. -/
theorem ethFrame_ptp (dst src : Nat) (body : List Byte) :
    etOf (ethFrame dst src 0x88F7 body) = 0x88F7 ∧ payOf (ethFrame dst src 0x88F7 body) = body ++ zeros (46 - body.length) := by
  have hlen : (beBytes 6 dst ++ beBytes 6 src).length = 12 := by simp
  have htyp : be (ethFrame dst src 0x88F7 body) 12 2 = 0x88F7 := by
    rw [ethFrame_eq, be_beBytes hlen]
    rfl
  have hoff : etOff (ethFrame dst src 0x88F7 body) = 12 := by
    rw [etOff, htyp]
    rfl
  refine ⟨by rw [etOf, hoff, htyp], ?_⟩
  rw [payOf, hoff, ethFrame_eq, ← List.append_assoc]
  exact List.drop_left' (by simp)

/-! ### A PTP message -/

/-- The type and the sequence number of a message, padded or not. -/
theorem ptpMsg_shows (d : Dev) (n : Nat) {typ : Nat} (ht : typ < 16) (seq : Nat) (corr logI : Int) (body z : List Byte) :
    ptpType (d.ptpMsg n typ seq corr logI body ++ z) = typ ∧ ptpSeq (d.ptpMsg n typ seq corr logI body ++ z) = seq % 65536 := by
  constructor
  · simp [ptpType, Dev.ptpMsg, byteAt, nth]
    omega
  · let pre : List Byte := [BitVec.ofNat 8 typ, 0x12] ++ beBytes 2 (34 + body.length) ++ [BitVec.ofNat 8 d.net.domain, 0, 0,
      (if typ = 11 then 0x0C else 0)] ++
      beBytes 8 (ofS 64 corr) ++ zeros 4 ++ (beBytes 3 (d.mac n / 2 ^ 24) ++ [0xFF, 0xFE] ++ beBytes 3 (d.mac n % 2 ^ 24)) ++ beBytes 2 (n + 1)
    have hpre : d.ptpMsg n typ seq corr logI body ++ z = pre ++ (beBytes 2 seq ++ ([0, BitVec.ofNat 8 (ofS 8 logI)] ++ (body ++ z))) := by
      simp [Dev.ptpMsg, pre]
    rw [ptpSeq, hpre]
    exact be_beBytes (by simp [pre, zeros]) 2 seq _

theorem ptpType_ptpMsg (d : Dev) (n : Nat) {typ : Nat} (ht : typ < 16) (seq : Nat) (corr logI : Int) (body : List Byte) :
    ptpType (d.ptpMsg n typ seq corr logI body) = typ := by
  simpa using (ptpMsg_shows d n ht seq corr logI body []).1

/-- A message in its frame on the wire: what a receiver reads of it. -/
theorem ptpFrame_shows {d : Dev} (hl2 : d.net.l2 = true) (n : Nat) (m : List Byte) : etOf (d.ptpFrame n m) = 0x88F7 ∧ ∃ z, payOf
    (d.ptpFrame n m) = m ++ z := by
  unfold Dev.ptpFrame
  extract_lets ev pd
  rw [if_pos hl2]
  obtain ⟨het, hpay⟩ := ethFrame_ptp (if pd then 0x0180C200000E else 0x011B19000000) (d.mac n) m
  exact ⟨het, _, hpay⟩

/-! ### Ports -/

@[simp] theorem Dev.port_setPort_self (n : Nat) (x : EthSt) (d : Dev) : (d.setPort n x).port n = x := Tbl.getD_put_self _ _ _ _

theorem Dev.port_setPort_ne {n j : Nat} (h : j ≠ n) (x : EthSt) (d : Dev) : (d.setPort n x).port j = d.port j := Tbl.getD_put_ne _ _ _ h

theorem Dev.port_of_eth {d x : Dev} (h : x.eth = d.eth) (n : Nat) : x.port n = d.port n := by rw [Dev.port, h, Dev.port]

theorem splitFirst_none {α : Type} {p : α → Bool} {l : List α} (h : ∀ x ∈ l, p x = false) : splitFirst p l = none := by
  induction l with
  | nil => rfl
  | cons x t ih => simp [splitFirst, h x (by simp), ih fun y hy => h y (by simp [hy])]

/-- A port that sends, without gates, starts nothing. -/
theorem Dev.ethKick_sending {n : Nat} {d : Dev} (hs : (d.port n).sending.isSome = true) (hg : d.flag R.ETH_GCL_CTL_EN n = false) : d.ethKick n = d := by
  have hdrop : d.ethDrop n = d := by simp [Dev.ethDrop, hg]
  simp [Dev.ethKick, hdrop, hs]

/-- A frame that is no cyclic one, on a port that sends already and has no gates, is the last in its queues. -/
theorem Dev.ethPut_sending {n : Nat} {d : Dev} (hon : d.ethOn n = true) (hs : (d.port n).sending.isSome = true) (hg : d.flag R.ETH_GCL_CTL_EN n = false)
    {x : EthTx} (hx : x.cyc = none) : d.ethPut n x = d.setPort n { d.port n with queues := (d.port n).queues ++ [x] } := by
  have hnone : splitFirst (fun y => x.cyc.isSome && decide (y.cyc = x.cyc)) (d.port n).queues = none := splitFirst_none (by simp [hx])
  unfold Dev.ethPut
  rw [if_neg (by simp [hon])]
  extract_lets s
  rw [hnone]
  refine Dev.ethKick_sending ?_ hg
  rw [Dev.port_setPort_self]
  exact hs

/-- The frame that carries a message in its queue. -/
def Dev.ptpTxOf (d : Dev) (n : Nat) (m : List Byte) (x : Option PtpTx) : EthTx :=
  { queue := if ptpType m < 8 then d.ptpQ n else d.mgmtQ n, bytes := d.ptpFrame n m, ptp := x }

theorem Dev.ptpOut_sending {n : Nat} {d : Dev} (hon : d.ethOn n = true) (hs : (d.port n).sending.isSome = true) (hg : d.flag R.ETH_GCL_CTL_EN n = false)
    (m : List Byte) (x : Option PtpTx) :
    d.ptpOut n m x = d.setPort n { d.port n with queues := (d.port n).queues ++ [d.ptpTxOf n m x] } := Dev.ethPut_sending hon hs hg rfl

end Sys2Proof.Machine
end

section
/-!
SUPPORT. The lock of view 1 and the servo that judges an offset from the master (R97, R99).
-/
namespace Sys2Proof.Machine

/-! ### LOCK (R97, R98) -/

/-- LOCK of a view, where a word of TIME other than the one shown is written. -/
theorem Dev.locked_wf {f : F} {v i : Nat} (hf : f.blk = .time) (h : 0x104 + v * 0x40 ≠ f.off + i * f.s1) (x : Nat) (d : Dev) :
    (d.wf f x 0 i).locked v = d.locked v := by
  refine congrArg (fun w : Nat => decide (w ≠ 0)) (Dev.rf_wf_word (g := R.TIME_VSTAT_LOCK) x d ?_)
  rw [addr_time hf, addr_time rfl]
  simp only [R.TIME_VSTAT_LOCK]
  omega

theorem Dev.locked_raise {v : Nat} (hv : v < 8) (c i : Nat) (data : List Byte) (d : Dev) : (d.raise c i data).locked v = d.locked v :=
  congrArg (fun w : Nat => decide (w ≠ 0)) (Dev.rf_raise_time (g := R.TIME_VSTAT_LOCK) rfl (by simp only [R.TIME_VSTAT_LOCK]; omega) c i data d)

theorem Dev.locked_regs {d x : Dev} (h : x.regs = d.regs) (v : Nat) : x.locked v = d.locked v :=
  congrArg (fun w : Nat => decide (w ≠ 0)) (Dev.rf_regs h _ _ _ _)

/-- LOCK is written. -/
theorem Dev.locked_wf_lock (b : Bool) (v : Nat) (d : Dev) : (d.wf R.TIME_VSTAT_LOCK (b2n b) 0 v).locked v = b := by
  refine (congrArg (fun w : Nat => decide (w ≠ 0)) (Dev.rf_wf_self R.TIME_VSTAT_LOCK (b2n b) d 0 v 0)).trans ?_
  cases b <;> rfl

/-- The step state of the view leaves its LOCK. -/
theorem Dev.locked_wf_state (x v : Nat) (d : Dev) : (d.wf R.TIME_VSTAT_STATE x 0 v).locked v = d.locked v :=
  congrArg (fun w : Nat => decide (w ≠ 0)) (Dev.rf_wf_beside (g := R.TIME_VSTAT_LOCK) x d rfl (by decide))

/-- View 1 declares its lock; its line stays. -/
theorem Dev.declareLock_one (d : Dev) : (d.declareLock 1).locked 1 = true ∧ (d.declareLock 1).time = d.time := by
  unfold Dev.declareLock
  extract_lets d1 d2
  have h1 : d1.locked 1 = true := (Dev.locked_raise (by decide) _ _ _ _).trans (Dev.locked_wf_lock true 1 d)
  have ht1 : d1.time = d.time := Dev.raise_time ..
  split
  · exact ⟨by assumption, rfl⟩
  · rw [if_neg (by decide)]
    unfold d2
    split
    · exact ⟨(Dev.locked_wf_state ..).trans h1, ht1⟩
    · exact ⟨h1, ht1⟩

/-- What view 0 does by itself leaves view 1: its line and its LOCK. -/
def Dev.viewOne (d : Dev) : View × Bool := (d.vw 1, d.locked 1)

theorem Dev.viewOne_eq {d x : Dev} (hv : x.vw 1 = d.vw 1) (hl : x.locked 1 = d.locked 1) : x.viewOne = d.viewOne := by
  rw [Dev.viewOne, hv, hl, Dev.viewOne]

theorem Dev.viewOne_wf {f : F} {i : Nat} (hf : f.blk = .time) (h : 0x144 ≠ f.off + i * f.s1) (x : Nat) (d : Dev) : (d.wf f x 0 i).viewOne = d.viewOne :=
  Dev.viewOne_eq rfl (Dev.locked_wf hf h x d)

theorem Dev.viewOne_raise (c i : Nat) (data : List Byte) (d : Dev) : (d.raise c i data).viewOne = d.viewOne :=
  Dev.viewOne_eq (Dev.vw_of_time (Dev.raise_time ..) 1) (Dev.locked_raise (by decide) ..)

theorem Dev.viewOne_releaseWait (d : Dev) : d.releaseWait.viewOne = d.viewOne := by
  unfold Dev.releaseWait
  split
  · rfl
  · refine foldl_keeps (fun y : Dev => y.viewOne = d.viewOne) _ _ d rfl (fun y n hn hy => ?_)
    dsimp only
    split
    · refine (Dev.viewOne_wf rfl ?_ _ _).trans hy
      have hn8 := List.mem_range.mp hn
      simp only [R.TIME_CADn_STAT_WAIT]
      omega
    · exact hy

theorem Dev.viewOne_declareLock (d : Dev) : (d.declareLock 0).viewOne = d.viewOne := by
  unfold Dev.declareLock
  extract_lets d1 d2
  have h1 : d1.viewOne = d.viewOne := (Dev.viewOne_raise ..).trans (Dev.viewOne_wf rfl (by decide) _ _)
  have h2 : d2.viewOne = d.viewOne := by
    unfold d2
    split
    · exact (Dev.viewOne_wf rfl (by decide) _ _).trans h1
    · exact h1
  split
  · rfl
  · rw [if_pos rfl, Dev.viewOne_releaseWait, h2]

theorem Dev.viewOne_followStep (d : Dev) : d.followStep.viewOne = d.viewOne := by
  unfold Dev.followStep
  extract_lets armed diff d1 d2 d3
  have h1 : d1.viewOne = d.viewOne := Dev.viewOne_eq (Dev.vw_setView_ne (by decide) _ _) (Dev.locked_regs (Dev.setView_regs ..) 1)
  have h3 : d3.viewOne = d2.viewOne := by
    unfold d3
    split
    · exact Dev.viewOne_wf rfl (by decide) _ _
    · rfl
  split
  · rw [Dev.viewOne_declareLock, h3, Dev.viewOne_raise, h1]
  · rfl

/-- View 1 loses its lock, whether view 0 loses its own with it or not. -/
theorem Dev.loseLock_one (d : Dev) : (d.loseLock 1).locked 1 = false ∧ (d.loseLock 1).time = d.time := by
  unfold Dev.loseLock
  extract_lets drop d1
  have htime (w : Nat) (y : Dev) : (drop w y).time = y.time := by
    unfold drop
    split
    · exact Dev.raise_time ..
    · rfl
  have hself : d1.locked 1 = false := by
    change (drop 1 d).locked 1 = false
    unfold drop
    split
    · exact (Dev.locked_raise (by decide) _ _ _ _).trans (Dev.locked_wf_lock false 1 d)
    · exact Bool.eq_false_iff.mpr (by assumption)
  have hother : (drop 0 d1).locked 1 = d1.locked 1 := by
    unfold drop
    split
    · exact (Dev.locked_raise (by decide) _ _ _ _).trans (Dev.locked_wf rfl (by decide) _ _)
    · rfl
  split
  · exact ⟨hother.trans hself, (htime 0 d1).trans (htime 1 d)⟩
  · exact ⟨hself, htime 1 d⟩

/-! ### The servo (R97) -/

/-- Units, and what the ports hold. -/
def Dev.links (d : Dev) : Tbl EthSt × Tbl UnitSt := (d.eth, d.units)

theorem Dev.links_of {d x : Dev} (he : x.eth = d.eth) (hu : x.units = d.units) : x.links = d.links := by rw [Dev.links, he, hu, Dev.links]

theorem Dev.of_links {d x : Dev} (h : x.links = d.links) : x.eth = d.eth ∧ x.units = d.units := ⟨congrArg Prod.fst h, congrArg Prod.snd h⟩

theorem Dev.links_beside : BesideViews Dev.links where
  wf _ _ _ _ _ _ := rfl
  raise _ _ _ _ := Dev.links_of (Dev.raise_eth ..) (Dev.raise_units ..)
  setView v x d := by
    obtain ⟨cads, h⟩ := d.setView_eq v x
    rw [h]
    rfl
  cads _ _ := rfl

theorem Dev.setTgt_links (v tgt : Nat) (d : Dev) : (d.setTgt v tgt).links = d.links := by
  obtain ⟨regs, h⟩ := d.setTgt_eq v tgt
  rw [h]
  rfl

/-- The device once the servo has counted an offset. -/
def Dev.counted (d : Dev) (o : Int) : Dev :=
  { d with time := { d.time with
    good1 := if decide (o.natAbs < 1000 * 2 ^ 32) then d.time.good1 + 1 else 0,
    bad1 := if decide (10000 * 2 ^ 32 < o.natAbs) then d.time.bad1 + 1 else 0 } }

/-- Out of bounds a FREE view may be set, otherwise its target alone changes. -/
def Dev.steer (o : Int) (d : Dev) : Dev :=
  let r := d.fresh 1
  let d := r.2
  if !decide (o.natAbs < 1000 * 2 ^ 32) && decide (d.vstate 1 = vsFREE) && decide (r.1 = 1) then
    d.setView 1 ((d.view 1 : Int) - o * 2 ^ 8).toNat
  else
    let r := d.fresh 32
    let c : Int := r.1 % (incBand + 1)
    r.2.setTgt 1 (clampI (2 ^ 41 - incBand) (2 ^ 41 + incBand) (2 ^ 41 - sgnI o * c)).toNat

/-- The lock that the counts declare. -/
def Dev.gains (g : Nat) (d : Dev) : Dev := if 16 ≤ g then (d.declareLock 1).followStep else d

section
variable (o : Int) {d : Dev}

/-- Where PTP does not steer view 1 the servo counts alone. -/
theorem Dev.ptpOffset_free (h : d.rf R.TIME_VCTL_SRC 0 1 ≠ 1) : d.ptpOffset o = d.counted o := by
  unfold Dev.ptpOffset
  exact if_pos h

/-- Where it does, the servo steers the view, then its counts declare or end the lock. -/
theorem Dev.ptpOffset_steers (h : d.rf R.TIME_VCTL_SRC 0 1 = 1) : d.ptpOffset o =
    if 4 ≤ (d.counted o).time.bad1 then (((d.counted o).steer o).gains (d.counted o).time.good1).loseLock 1
    else ((d.counted o).steer o).gains (d.counted o).time.good1 := by
  unfold Dev.ptpOffset
  exact if_neg (not_not.mpr h)

theorem Dev.steer_links : (d.steer o).links = d.links := by
  unfold Dev.steer
  extract_lets r d1 r2 c
  split
  · exact Dev.links_beside.setView ..
  · rw [Dev.setTgt_links]
    rfl

theorem Dev.gains_links (g : Nat) : (d.gains g).links = d.links := by
  unfold Dev.gains
  split
  · rw [Dev.links_beside.followStep, Dev.links_beside.declareLock]
  · rfl

/-- The servo touches neither ports nor units. -/
theorem Dev.ptpOffset_links : (d.ptpOffset o).links = d.links := by
  have hcount : (d.counted o).links = d.links := rfl
  by_cases h : d.rf R.TIME_VCTL_SRC 0 1 = 1
  · rw [Dev.ptpOffset_steers o h]
    split
    · rw [Dev.links_beside.loseLock, Dev.gains_links, Dev.steer_links, hcount]
    · rw [Dev.gains_links, Dev.steer_links, hcount]
  · rw [Dev.ptpOffset_free o h, hcount]

/-- Within bounds for the sixteenth time: view 1 has its lock, and is not stepped. -/
theorem Dev.ptpOffset_locks (h : d.rf R.TIME_VCTL_SRC 0 1 = 1) (ho : o.natAbs < 1000 * 2 ^ 32) (hg : 15 ≤ d.time.good1) :
    (d.ptpOffset o).locked 1 = true ∧ ((d.ptpOffset o).vw 1).base = (d.vw 1).base ∧ ((d.ptpOffset o).vw 1).inc = (d.vw 1).inc := by
  have hbad : ¬ 4 ≤ (d.counted o).time.bad1 := by
    simp only [Dev.counted]
    rw [if_neg (by simp; omega)]
    decide
  have hgood : 16 ≤ (d.counted o).time.good1 := by
    simp only [Dev.counted]
    rw [if_pos (decide_eq_true ho)]
    omega
  rw [Dev.ptpOffset_steers o h, if_neg hbad, Dev.gains, if_pos hgood]
  obtain ⟨hlock, htime⟩ := Dev.declareLock_one ((d.counted o).steer o)
  have hone := Dev.viewOne_followStep (((d.counted o).steer o).declareLock 1)
  have hvw : ((((d.counted o).steer o).declareLock 1).followStep).vw 1 = ((d.counted o).steer o).vw 1 :=
    (congrArg Prod.fst hone).trans (Dev.vw_of_time htime 1)
  have hsteer : (((d.counted o).steer o).vw 1).base = (d.vw 1).base ∧ (((d.counted o).steer o).vw 1).inc = (d.vw 1).inc := by
    unfold Dev.steer
    extract_lets r d1 r2 c
    rw [if_neg (by rw [decide_eq_true ho]; simp), Dev.vw_setTgt_self]
    exact ⟨rfl, rfl⟩
  rw [hvw]
  exact ⟨(congrArg Prod.snd hone).trans hlock, hsteer⟩

/-- Out of the wide bounds for the fourth time: view 1 has no lock. -/
theorem Dev.ptpOffset_unlocks (h : d.rf R.TIME_VCTL_SRC 0 1 = 1) (ho : 10000 * 2 ^ 32 < o.natAbs) (hb : 3 ≤ d.time.bad1) :
    (d.ptpOffset o).locked 1 = false := by
  have hbad : 4 ≤ (d.counted o).time.bad1 := by
    simp only [Dev.counted]
    rw [if_pos (decide_eq_true ho)]
    omega
  rw [Dev.ptpOffset_steers o h, if_pos hbad]
  exact (Dev.loseLock_one _).1

end

end Sys2Proof.Machine
end

section
/-!
SUPPORT. A PTP message that arrives: what its reception leaves, and what each type does (R102, R343, R344).
-/
namespace Sys2Proof.Machine

/-! ### The reception (R101) -/

/-- A message is counted and stamped. -/
def Dev.heard (n st : Nat) (d : Dev) : Dev := (d.bump R.ETH_CNT_RXOK_COUNT 1 n).noteRx n st

/-- A word other than the count of frames received. -/
theorem Dev.rf_heard {g : F} {n k i : Nat} (h : g.addr k i 0 ≠ R.ETH_CNT_RXOK_COUNT.addr n 0 0) (st : Nat) (d : Dev) :
    (d.heard n st).rf g k i = d.rf g k i := Dev.rf_wf_word _ d h

theorem addr_eth {g : F} (hg : g.blk = .eth) (hs : g.s1 = 0) (k : Nat) : g.addr k 0 0 = 0x100000 + k * 0x10000 + g.off := by
  simp [F.addr, hg, hs, Blk.base]

/-- Another word of the ports, of whichever port. -/
theorem Dev.rf_heard_eth {g : F} (hg : g.blk = .eth) (hs : g.s1 = 0) (ho : g.off < 0x10000) (hne : g.off ≠ 0x40) (n k st : Nat) (d : Dev) :
    (d.heard n st).rf g k = d.rf g k := by
  refine Dev.rf_heard ?_ st d
  rw [addr_eth hg hs, addr_eth rfl rfl]
  simp only [R.ETH_CNT_RXOK_COUNT]
  omega

theorem Dev.rf_heard_time {g : F} (hg : g.blk = .time) {i : Nat} (h : g.off + i * g.s1 < 0x10000) (n st : Nat) (d : Dev) :
    (d.heard n st).rf g 0 i = d.rf g 0 i := by
  refine Dev.rf_heard ?_ st d
  rw [addr_time hg, addr_eth rfl rfl]
  omega

section
variable (n st k : Nat) (d : Dev)

theorem Dev.ethOn_heard : (d.heard n st).ethOn k = d.ethOn k :=
  congrArg (fun w : Nat => decide (k < d.nPorts) && decide (w ≠ 0)) (Dev.rf_heard_eth (g := R.ETH_CTRL_EN) rfl rfl (by decide) (by decide) n k st d)

theorem Dev.ptpEn_heard : (d.heard n st).flag R.ETH_PTP_PORT_EN k = d.flag R.ETH_PTP_PORT_EN k :=
  congrArg (fun w : Nat => decide (w ≠ 0)) (Dev.rf_heard_eth (g := R.ETH_PTP_PORT_EN) rfl rfl (by decide) (by decide) n k st d)

theorem Dev.gclEn_heard : (d.heard n st).flag R.ETH_GCL_CTL_EN k = d.flag R.ETH_GCL_CTL_EN k :=
  congrArg (fun w : Nat => decide (w ≠ 0)) (Dev.rf_heard_eth (g := R.ETH_GCL_CTL_EN) rfl rfl (by decide) (by decide) n k st d)

theorem Dev.ptpState_heard : (d.heard n st).ptpState k = d.ptpState k :=
  Dev.rf_heard_eth (g := R.ETH_PTP_PORT_STATE) rfl rfl (by decide) (by decide) n k st d

theorem Dev.ptpRx_heard (t : Nat) : (d.heard n st).ptpRx k t = d.ptpRx k t := by
  have hstamp : (d.heard n st).stampB 1 t = d.stampB 1 t := rfl
  rw [Dev.ptpRx, hstamp, Dev.rf_heard_eth (g := R.ETH_ING_LAT_ING_LAT) rfl rfl (by decide) (by decide),
    Dev.rf_heard_eth (g := R.ETH_ASYM_ASYM) rfl rfl (by decide) (by decide), Dev.ptpRx]

theorem Dev.lastState_heard : (d.heard n st).lastState = d.lastState := by
  refine Dev.rf_heard (g := R.SYS_LAST_STAT_STATE) ?_ st d
  rw [addr_eth (g := R.ETH_CNT_RXOK_COUNT) rfl rfl]
  simp only [F.addr, R.SYS_LAST_STAT_STATE, Blk.base]
  omega

theorem Dev.ptpQ_heard : (d.heard n st).ptpQ k = d.ptpQ k := by
  rw [Dev.ptpQ, Dev.lastState_heard]
  rfl

theorem Dev.mgmtQ_heard : (d.heard n st).mgmtQ k = d.mgmtQ k := by
  rw [Dev.mgmtQ, Dev.lastState_heard]
  rfl

end

/-! ### Event messages (R102, R343, R344) -/

/-- The port takes PTP messages of the device's domain, and the cores run. -/
structure Dev.PtpHears (d : Dev) (n : Nat) (m : List Byte) : Prop where
  on : d.ethOn n = true
  en : d.flag R.ETH_PTP_PORT_EN n = true
  domain : byteAt m 4 = d.net.domain
  up : d.rst.coresUp = true

namespace Dev.PtpHears
variable {d : Dev} {n : Nat} {m : List Byte} (h : d.PtpHears n m)
include h

theorem not_dropped : ¬ (!d.ethOn n || !d.flag R.ETH_PTP_PORT_EN n || decide (byteAt m 4 ≠ d.net.domain)) = true := by
  simp [h.on, h.en, h.domain]

/-- What an event message does, by its type. -/
theorem event (t : Nat) : ∃ st, let y := d.heard n st
    (ptpType m = 0 → ptpTwoStep m = true → d.ptpEvent n m t = y.setPort n { d.port n with pendSync := some (ptpSeq m, d.ptpRx n t, ptpCorr m) }) ∧
    (ptpType m = 0 → ptpTwoStep m = false → d.ptpEvent n m t = y.ptpSync n (ptpTime m) (d.ptpRx n t) (ptpCorr m)) ∧
    (ptpType m = 1 → d.ptpState n = psMASTER → ∃ corr body, d.ptpEvent n m t = y.ptpOut n (y.ptpMsg n 9 (ptpSeq m) corr 0 body) none) ∧
    (ptpType m = 2 → ∃ corr body x, d.ptpEvent n m t = (y.fresh 2).2.ptpOut n (y.ptpMsg n 3 (ptpSeq m) corr 0x7F body) x) ∧
    (∀ t1, ptpType m = 3 → ptpTwoStep m = false → (d.port n).pdT1 = some (ptpSeq m, t1) →
      d.ptpEvent n m t = y.setPort n { d.port n with pdT1 := none, pathDelay := (d.ptpRx n t - t1 - ptpCorr m) / 2 }) := by
  refine ⟨stampA (d.ethMode n) t, ?_⟩
  unfold Dev.ptpEvent
  rw [if_neg h.not_dropped, ← Dev.ptpRx_heard n (stampA (d.ethMode n) t), ← Dev.ptpState_heard n (stampA (d.ethMode n) t)]
  extract_lets z y rx s r a
  have hup : y.rst.coresUp = true := h.up
  rw [if_neg (by simp [hup])]
  refine ⟨fun h0 h2 => ?twoStep, fun h0 h2 => ?oneStep, fun h1 hst => ?request, fun h2 => ?peerRequest, fun t1 h3 h2 hq => ?peerAnswer⟩
  case twoStep =>
    rw [h0]
    exact if_pos h2
  case oneStep =>
    rw [h0]
    exact if_neg (by simp [h2])
  case request =>
    rw [h1]
    exact ⟨_, _, if_pos hst⟩
  case peerRequest =>
    rw [h2]
    exact ⟨_, _, _, rfl⟩
  case peerAnswer =>
    have hs : s.pdT1 = some (ptpSeq m, t1) := hq
    rw [h3]
    simp only [hs]
    exact (if_neg (by simp)).trans (if_neg (by simp [h2]))

/-- What a general message does, by its type. -/
theorem general : ∃ st, let y := d.heard n st
    (∀ t2 c, ptpType m = 8 → (d.port n).pendSync = some (ptpSeq m, t2, c) → d.ptpGeneral n m = y.ptpSync n (ptpTime m) t2 (c + ptpCorr m)) ∧
    (∀ t1 t2 t3, ptpType m = 9 → (d.port n).dlyT3 = some (ptpSeq m, t3) → (d.port n).sync = some (t1, t2) → d.ptpGeneral n m =
      y.setPort n { d.port n with dlyT3 := none, pathDelay := ((t2 - t1) + (ptpTime m - ptpCorr m - t3)) / 2 }) ∧
    (ptpType m = 11 → d.ptpGeneral n m = (y.setPort n { d.port n with announce := some m }).bmca) := by
  refine ⟨stampA (d.ethMode n) (4 * d.time.cnt - d.byteHalves n ((d.ptpFrame n m).length + 4)), ?_⟩
  unfold Dev.ptpGeneral
  rw [if_neg h.not_dropped]
  extract_lets z half y s
  have hup : y.rst.coresUp = true := h.up
  rw [if_neg (by simp [hup])]
  refine ⟨fun t2 c h8 hp => ?followUp, fun t1 t2 t3 h9 ht3 hsync => ?answer, fun h11 => ?announce⟩
  case followUp =>
    have hs : s.pendSync = some (ptpSeq m, t2, c) := hp
    rw [h8]
    simp only [hs]
    exact if_pos trivial
  case answer =>
    have hs : s.dlyT3 = some (ptpSeq m, t3) := ht3
    have hs' : s.sync = some (t1, t2) := hsync
    rw [h9]
    simp only [hs, hs']
    rw [if_pos trivial, ← hsync]
    rfl
  case announce =>
    rw [h11]
    rfl

end Dev.PtpHears

/-! ### The state of a port (R344) -/

/-- The ports that the best master algorithm runs over. -/
def Dev.ptpPorts (d : Dev) : List Nat := (List.range d.nPorts).filter (fun n => d.ethOn n && d.flag R.ETH_PTP_PORT_EN n)

/-- On one port: SLAVE to what it hears, unless the device's own clock is better. -/
theorem Dev.bmca_heard {d : Dev} {n : Nat} {m : List Byte} (ho : d.ptpPorts = [n]) (ha : (d.port n).announce = some m) :
    d.bmca = d.setPtp n (if annRank m < d.ownRank ∨ d.net.gmCap = false then psSLAVE else psMASTER) := by
  have hports : (List.range d.nPorts).filter (fun n => d.ethOn n && d.flag R.ETH_PTP_PORT_EN n) = [n] := ho
  have hself (b : Bool) : (if (d.prp n && [n].contains (n / 2 * 2) && b) = true then n / 2 * 2 else n) = n := by
    split
    · rename_i heven
      simp only [Bool.and_eq_true, List.contains_cons, List.contains_nil, Bool.or_false, beq_iff_eq] at heven
      exact heven.1.2
    · rfl
  unfold Dev.bmca
  simp only [hports, List.foldl_cons, List.foldl_nil, ha]
  by_cases hr : annRank m < d.ownRank ∨ d.net.gmCap = false
  · rw [if_pos (by simpa using hr), if_pos hr, if_pos (hself _).symm]
  · rw [if_neg (by simpa using hr), if_neg hr]

/-- On one port that hears no master: master itself, or listening. -/
theorem Dev.bmca_alone {d : Dev} {n : Nat} (ho : d.ptpPorts = [n]) (ha : (d.port n).announce = none) :
    d.bmca = d.setPtp n (if d.net.gmCap then psMASTER else psLISTENING) := by
  have hports : (List.range d.nPorts).filter (fun n => d.ethOn n && d.flag R.ETH_PTP_PORT_EN n) = [n] := ho
  unfold Dev.bmca
  simp only [hports, List.foldl_cons, List.foldl_nil, ha]

theorem Dev.setPtp_links (n st : Nat) (d : Dev) : (d.setPtp n st).links = d.links := by
  unfold Dev.setPtp
  extract_lets old d1
  split
  · exact Dev.links_beside.raise ..
  · rfl

theorem Dev.ptpState_setPtp (n : Nat) {st : Nat} (hst : st < 8) (d : Dev) : (d.setPtp n st).ptpState n = st := by
  unfold Dev.setPtp
  extract_lets old d1
  have h1 : d1.ptpState n = st := (Dev.rf_wf_self R.ETH_PTP_PORT_STATE st d n 0 0).trans (Nat.mod_eq_of_lt hst)
  split
  · refine (Dev.raise_rf _ _ _ _ R.ETH_PTP_PORT_STATE n 0 0 ?_ ?_ ?_).trans h1 <;> rw [addr_eth rfl rfl] <;> omega
  · exact h1

/-- A port that becomes SLAVE: the event, and the lock counts from the start. -/
theorem Dev.setPtp_slave {n : Nat} {d : Dev} (h : d.ptpState n ≠ psSLAVE) : Raises Ev.PTP_PORT n d (d.setPtp n psSLAVE) ∧
    (d.setPtp n psSLAVE).time.good1 = 0 := by
  unfold Dev.setPtp
  extract_lets old d1
  rw [if_pos ⟨h, rfl⟩]
  exact ⟨⟨{ d1 with time := { d1.time with good1 := 0, bad1 := 0 } }, [], rfl, rfl⟩, by rw [Dev.raise_time]⟩

end Sys2Proof.Machine
end

section
/-!
SUPPORT. What a port sends of PTP: its messages by its state, and the stamps taken as they leave (R104, R343).
-/
namespace Sys2Proof.Machine

/-! ### A message in its queue (R339) -/

/-- The frame carries a message of a type and sequence number, in the queue of its kind. -/
def Dev.Carries (d : Dev) (n typ seq : Nat) (y : EthTx) : Prop :=
  y.queue = (if typ < 8 then d.ptpQ n else d.mgmtQ n) ∧ etOf y.bytes = 0x88F7 ∧ ptpType (payOf y.bytes) = typ ∧ ptpSeq (payOf y.bytes) = seq % 65536

/-- A message of type `typ` on a port that sends already, without gates, waits as the last one. -/
theorem Dev.ptpOut_carries {n : Nat} {d : Dev} (hon : d.ethOn n = true) (hs : (d.port n).sending.isSome = true) (hl2 : d.net.l2 = true)
    (hg : d.flag R.ETH_GCL_CTL_EN n = false) {typ : Nat} (ht : typ < 16) (d' : Dev) (seq : Nat) (corr logI : Int) (body : List Byte) (x : Option PtpTx) :
    ∃ y, d.ptpOut n (d'.ptpMsg n typ seq corr logI body) x = d.setPort n { d.port n with queues := (d.port n).queues ++ [y] } ∧ d.Carries n typ seq y := by
  refine ⟨_, Dev.ptpOut_sending hon hs hg _ x, ?_, ?_⟩
  · rw [Dev.ptpTxOf, ptpType_ptpMsg d' n ht]
  · obtain ⟨het, z, hpay⟩ := ptpFrame_shows hl2 n (d'.ptpMsg n typ seq corr logI body)
    have hbytes : (d.ptpTxOf n (d'.ptpMsg n typ seq corr logI body) x).bytes = d.ptpFrame n (d'.ptpMsg n typ seq corr logI body) := rfl
    rw [hbytes, hpay]
    exact ⟨het, ptpMsg_shows d' n ht seq corr logI body z⟩

theorem Dev.Carries.heard {d : Dev} {n st typ seq : Nat} {y : EthTx} (h : (d.heard n st).Carries n typ seq y) : d.Carries n typ seq y := by
  rwa [Dev.Carries, Dev.ptpQ_heard, Dev.mgmtQ_heard] at h

/-! ### Messages that are due (R343) -/

section
variable {d : Dev} {n : Nat} (hon : d.ethOn n = true) (hen : d.flag R.ETH_PTP_PORT_EN n = true) (t : Nat)
include hon hen

theorem Dev.not_ptpOff : ¬ (!d.ethOn n || !d.flag R.ETH_PTP_PORT_EN n) = true := by simp [hon, hen]

theorem Dev.ptpSend_sync (hst : d.ptpState n = psMASTER) : ∃ logI body x, d.ptpSend n 0 t =
    (d.setPort n { d.port n with syncSeq := ((d.port n).syncSeq + 1) % 65536 }).ptpOut n (d.ptpMsg n 0 (d.port n).syncSeq 0 logI body) x :=
  ⟨_, _, _, (if_neg (Dev.not_ptpOff hon hen)).trans (if_pos ⟨rfl, hst⟩)⟩

theorem Dev.ptpSend_announce (hst : d.ptpState n = psMASTER) : ∃ logI body x, d.ptpSend n 11 t =
    (d.setPort n { d.port n with annSeq := ((d.port n).annSeq + 1) % 65536 }).ptpOut n (d.ptpMsg n 11 (d.port n).annSeq 0 logI body) x :=
  ⟨_, _, _, (if_neg (Dev.not_ptpOff hon hen)).trans ((if_neg fun h => absurd h.1 (by decide)).trans (if_pos ⟨rfl, hst⟩))⟩

theorem Dev.ptpSend_delay (hc : d.rst.coresUp = true) (hst : d.ptpState n = psSLAVE) (hp : d.net.p2p = false) : ∃ logI body x, d.ptpSend n 1 t =
    (d.setPort n { d.port n with dlySeq := ((d.port n).dlySeq + 1) % 65536 }).ptpOut n (d.ptpMsg n 1 (d.port n).dlySeq 0 logI body) x := by
  have hup : ¬ (!d.rst.coresUp) = true := by simp [hc]
  exact ⟨_, _, _, (if_neg (Dev.not_ptpOff hon hen)).trans ((if_neg fun h => absurd h.1 (by decide)).trans
    ((if_neg fun h => absurd h.1 (by decide)).trans ((if_neg hup).trans (if_pos ⟨rfl, hst, by simp [hp]⟩))))⟩

theorem Dev.ptpSend_peerDelay (hc : d.rst.coresUp = true) (hp : d.net.p2p = true) : ∃ logI body x, d.ptpSend n 2 t =
    (d.setPort n { d.port n with dlySeq := ((d.port n).dlySeq + 1) % 65536 }).ptpOut n (d.ptpMsg n 2 (d.port n).dlySeq 0 logI body) x := by
  have hup : ¬ (!d.rst.coresUp) = true := by simp [hc]
  exact ⟨_, _, _, (if_neg (Dev.not_ptpOff hon hen)).trans ((if_neg fun h => absurd h.1 (by decide)).trans
    ((if_neg fun h => absurd h.1 (by decide)).trans ((if_neg hup).trans ((if_neg fun h => absurd h.1 (by decide)).trans (if_pos ⟨rfl, hp⟩)))))⟩

end

/-! ### A message that leaves (R101, R104) -/

/-- A port serves its queues: other ports stay, and the requests that it awaits answers to. -/
def Dev.Served (n : Nat) (d x : Dev) : Prop :=
  (∀ j, j ≠ n → x.port j = d.port j) ∧ (x.port n).dlyT3 = (d.port n).dlyT3 ∧ (x.port n).pdT1 = (d.port n).pdT1

theorem Dev.Served.refl (n : Nat) (d : Dev) : d.Served n d := ⟨fun _ _ => rfl, rfl, rfl⟩

theorem Dev.Served.setPort {n : Nat} {d x : Dev} (h : d.Served n x) {p : EthSt} (h3 : p.dlyT3 = (x.port n).dlyT3) (h1 : p.pdT1 = (x.port n).pdT1) :
    d.Served n (x.setPort n p) := by
  obtain ⟨hother, hdly, hpd⟩ := h
  refine ⟨fun j hj => (Dev.port_setPort_ne hj p x).trans (hother j hj), ?_, ?_⟩
  · rw [Dev.port_setPort_self, h3, hdly]
  · rw [Dev.port_setPort_self, h1, hpd]

theorem Dev.ethKick_served (n : Nat) (d : Dev) : d.Served n (d.ethKick n) := by
  have hdrop : d.Served n (d.ethDrop n) := by
    unfold Dev.ethDrop
    split
    · exact .refl n d
    · exact (Dev.Served.refl n d).setPort rfl rfl
  unfold Dev.ethKick
  extract_lets x s
  split
  · exact hdrop
  · refine foldl_keeps (fun y => d.Served n y) _ _ x hdrop (fun y q _ hy => ?_)
    extract_lets s o
    split
    · exact hy
    · split
      · exact hy
      · split
        · exact hy
        · split
          · exact hy.setPort rfl rfl
          · split
            · exact hy
            · exact hy.setPort rfl rfl

/-- The request that a port awaits an answer to. -/
def PtpTx.awaits (p : PtpTx) (tx : Int) (s : EthSt) : EthSt :=
  if ptpType p.msg = 1 then { s with dlyT3 := some (ptpSeq p.msg, tx) }
  else if ptpType p.msg = 2 then { s with pdT1 := some (ptpSeq p.msg, tx), pdResp := none }
  else s

/-- The device when a stamped message has left, before the port serves its queues again. -/
def Dev.left (d : Dev) (n q : Nat) (p : PtpTx) (tx : Int) : Dev :=
  ((d.portUp n (p.awaits tx)).portUp n (fun s => { s with sending := none })).emit (.eth n q (d.ptpFrame n (p.stamped tx)))

theorem Dev.left_ports (d : Dev) (n q : Nat) (p : PtpTx) (tx : Int) :
    (d.left n q p tx).port n = { p.awaits tx (d.port n) with sending := none } ∧ ∀ j, j ≠ n → (d.left n q p tx).port j = d.port j := by
  constructor
  · refine (Dev.port_setPort_self n _ (d.portUp n (p.awaits tx))).trans ?_
    rw [Dev.portUp, Dev.port_setPort_self]
  · exact fun j hj => (Dev.port_setPort_ne hj _ (d.portUp n (p.awaits tx))).trans (Dev.port_setPort_ne hj _ d)

/-- A PTP event message leaves: its stamp goes into it, and a request's is kept for the answer. -/
theorem Dev.ethSent_ptp {d : Dev} {n : Nat} {y : EthTx} {p : PtpTx} (hs : (d.port n).sending = some y) (hp : y.ptp = some p) :
    let tx := d.ptpTx n (4 * d.time.cnt - d.byteHalves n (y.bytes.length + 4) + p.sub)
    let x := d.ethSent n
    x.units = d.units ∧ x.sent = d.sent ++ [.eth n y.queue (d.ptpFrame n (p.stamped tx))] ∧ (∀ j, j ≠ n → x.port j = d.port j) ∧
      (ptpType p.msg = 1 → (x.port n).dlyT3 = some (ptpSeq p.msg, tx)) ∧ (ptpType p.msg = 2 → (x.port n).pdT1 = some (ptpSeq p.msg, tx)) := by
  intro tx x
  obtain ⟨st, hx⟩ : ∃ st, x = (((d.left n y.queue p tx).noteTx n st).bump R.ETH_CNT_TXOK_COUNT 1 n).ethKick n := by
    refine ⟨stampA (d.ethMode n) (4 * d.time.cnt - d.byteHalves n (y.bytes.length + 4)), ?_⟩
    unfold x Dev.ethSent
    rw [hs]
    simp only [Dev.ptpLeave, hp]
    rfl
  clear_value x
  obtain ⟨e, he⟩ := Dev.ethKick_only n (((d.left n y.queue p tx).noteTx n st).bump R.ETH_CNT_TXOK_COUNT 1 n)
  obtain ⟨hothers, hdly, hpd⟩ := Dev.ethKick_served n (((d.left n y.queue p tx).noteTx n st).bump R.ETH_CNT_TXOK_COUNT 1 n)
  rw [← hx] at he hothers hdly hpd
  obtain ⟨hself, hports⟩ := d.left_ports n y.queue p tx
  have hunits : x.units = (d.left n y.queue p tx).units := by rw [he, Dev.bump_units]; rfl
  have hsent : x.sent = (d.left n y.queue p tx).sent := by rw [he, Dev.bump_sent]; rfl
  refine ⟨hunits, hsent, fun j hj => (hothers j hj).trans (hports j hj), fun h1 => ?_, fun h2 => ?_⟩
  · refine (hdly.trans (congrArg EthSt.dlyT3 hself)).trans ?_
    rw [PtpTx.awaits, if_pos h1]
  · refine (hpd.trans (congrArg EthSt.pdT1 hself)).trans ?_
    rw [PtpTx.awaits, if_neg (by omega), if_pos h2]

end Sys2Proof.Machine
end

section
/-!
SUPPORT. A Sync whose times are complete (R97, R343).
-/
namespace Sys2Proof.Machine

/-- The times of a Sync are kept with the port. -/
def Dev.synced (d : Dev) (n : Nat) (t1 t2 c : Int) : Dev := d.setPort n { d.port n with sync := some (t1 + c, t2), pendSync := none }

section
variable (d : Dev) (n : Nat) (t1 t2 c : Int)

/-- On another port than the SLAVE the times are kept, no more. -/
theorem Dev.ptpSync_of_not_slave {d : Dev} {n : Nat} (h : d.ptpState n ≠ psSLAVE) : d.ptpSync n t1 t2 c = d.synced n t1 t2 c := if_neg h

theorem Dev.ptpSync_of_slave {d : Dev} {n : Nat} (h : d.ptpState n = psSLAVE) :
    d.ptpSync n t1 t2 c = (d.synced n t1 t2 c).ptpOffset (t2 - t1 - c - (d.port n).pathDelay) := if_pos h

/-- Either way the times are kept, and units are as they were. -/
theorem Dev.ptpSync_shows : (d.ptpSync n t1 t2 c).units = d.units ∧ ((d.ptpSync n t1 t2 c).port n).sync = some (t1 + c, t2) ∧
    ((d.ptpSync n t1 t2 c).port n).pendSync = none := by
  have hlinks : (d.ptpSync n t1 t2 c).links = (d.synced n t1 t2 c).links := by
    by_cases h : d.ptpState n = psSLAVE
    · rw [Dev.ptpSync_of_slave t1 t2 c h, Dev.ptpOffset_links]
    · rw [Dev.ptpSync_of_not_slave t1 t2 c h]
  obtain ⟨heth, hunits⟩ := Dev.of_links hlinks
  have hport : (d.ptpSync n t1 t2 c).port n = { d.port n with sync := some (t1 + c, t2), pendSync := none } :=
    (Dev.port_of_eth heth n).trans (Dev.port_setPort_self n _ d)
  exact ⟨hunits, by rw [hport], by rw [hport]⟩

end

/-- The counts of the servo. -/
theorem Dev.counted_time (d : Dev) (o : Int) : (d.counted o).time = { d.time with
    good1 := if o.natAbs < 1000 * 2 ^ 32 then d.time.good1 + 1 else 0, bad1 := if 10000 * 2 ^ 32 < o.natAbs then d.time.bad1 + 1 else 0 } := by
  simp only [Dev.counted, decide_eq_true_eq]

/-- A message of a type and sequence number has become the last in the queues of a port, which is `e` otherwise; units and other ports stay. -/
def Dev.Queues (d : Dev) (n : Nat) (e : EthSt) (typ seq : Nat) (x : Dev) : Prop :=
  ∃ y, x.port n = { e with queues := (d.port n).queues ++ [y] } ∧ d.Carries n typ seq y ∧ x.units = d.units ∧ ∀ j, j ≠ n → x.port j = d.port j

/-- A port sends already, in the layer-2 transport and without gates. -/
structure Dev.PtpBusy (d : Dev) (n : Nat) : Prop where
  on : d.ethOn n = true
  sends : (d.port n).sending.isSome = true
  l2 : d.net.l2 = true
  gates : d.flag R.ETH_GCL_CTL_EN n = false

/-- A message sent by a port that has counted it. -/
theorem Dev.PtpBusy.counted {d : Dev} {n : Nat} (h : d.PtpBusy n) {e : EthSt} (hq : e.queues = (d.port n).queues) (he : e.sending = (d.port n).sending)
    {typ : Nat} (ht : typ < 16) (seq : Nat) (logI : Int) (body : List Byte) (x : Option PtpTx) :
    d.Queues n e typ seq ((d.setPort n e).ptpOut n (d.ptpMsg n typ seq 0 logI body) x) := by
  have hs : ((d.setPort n e).port n).sending.isSome = true := by rw [Dev.port_setPort_self, he, h.sends]
  obtain ⟨y, hout, hcarries⟩ := Dev.ptpOut_carries (d := d.setPort n e) h.on hs h.l2 h.gates ht d seq 0 logI body x
  rw [Dev.port_setPort_self, hq] at hout
  rw [hout]
  exact ⟨y, Dev.port_setPort_self .., hcarries, rfl, fun j hj => (Dev.port_setPort_ne hj ..).trans (Dev.port_setPort_ne hj ..)⟩

/-- A message sent in answer to one just received. -/
theorem Dev.PtpBusy.answered {d : Dev} {n : Nat} (h : d.PtpBusy n) (st : Nat) {typ : Nat} (ht : typ < 16) (d' : Dev) (seq : Nat) (corr logI : Int)
    (body : List Byte) (x : Option PtpTx) : d.Queues n (d.port n) typ seq ((d.heard n st).ptpOut n (d'.ptpMsg n typ seq corr logI body) x) := by
  obtain ⟨y, hout, hcarries⟩ := Dev.ptpOut_carries (d := d.heard n st) (by rw [Dev.ethOn_heard, h.on]) h.sends h.l2
      (by rw [Dev.gclEn_heard, h.gates]) ht d' seq corr
    logI body x
  rw [hout]
  exact ⟨y, Dev.port_setPort_self .., hcarries.heard, rfl, fun j hj => Dev.port_setPort_ne hj ..⟩

/-- A free value before an answer changes nothing of it. -/
theorem Dev.ptpOut_fresh {d : Dev} {n : Nat} (hon : d.ethOn n = true) (hs : (d.port n).sending.isSome = true) (hg : d.flag R.ETH_GCL_CTL_EN n = false)
    (w : Nat) (m : List Byte) (x : Option PtpTx) :
    ((d.fresh w).2.ptpOut n m x).eth = (d.ptpOut n m x).eth ∧ ((d.fresh w).2.ptpOut n m x).units = (d.ptpOut n m x).units := by
  rw [Dev.ptpOut_sending hon hs hg, Dev.ptpOut_sending (d := (d.fresh w).2) hon hs hg]
  exact ⟨rfl, rfl⟩

theorem Dev.Queues.of_links {d x y : Dev} {n typ seq : Nat} {e : EthSt} (h : d.Queues n e typ seq x) (he : y.eth = x.eth) (hu : y.units = x.units) :
    d.Queues n e typ seq y := by
  obtain ⟨z, hport, hcarries, hunits, hothers⟩ := h
  exact ⟨z, (Dev.port_of_eth he n).trans hport, hcarries, hu.trans hunits, fun j hj => (Dev.port_of_eth he j).trans (hothers j hj)⟩

theorem Dev.ptpPorts_heard (n st : Nat) (d : Dev) : (d.heard n st).ptpPorts = d.ptpPorts := by
  unfold Dev.ptpPorts
  exact List.filter_congr fun k _ => by rw [Dev.ethOn_heard, Dev.ptpEn_heard]

/-- A port that is given its state keeps what it has heard. -/
theorem Dev.port_setPtp (n st : Nat) (d : Dev) : (d.setPtp n st).port n = d.port n ∧ (d.setPtp n st).units = d.units := by
  obtain ⟨heth, hunits⟩ := Dev.of_links (Dev.setPtp_links n st d)
  exact ⟨Dev.port_of_eth heth n, hunits⟩

namespace Dev.PtpHears
variable {d : Dev} {n : Nat} {m : List Byte} (h : d.PtpHears n m)
include h

/-- A one-step Sync: its times are kept; on the SLAVE port they give the servo its offset. -/
theorem oneStep (t : Nat) (h0 : ptpType m = 0) (h2 : ptpTwoStep m = false) :
    let x := d.ptpEvent n m t
    let rx := d.ptpRx n t
    (x.units = d.units ∧ (x.port n).sync = some (ptpTime m + ptpCorr m, rx) ∧ (x.port n).pendSync = none) ∧
    (d.ptpState n ≠ psSLAVE → x.time = d.time) ∧
    (d.ptpState n = psSLAVE → ∃ w : Dev, x = w.ptpOffset (rx - ptpTime m - ptpCorr m - (d.port n).pathDelay) ∧ w.time = d.time ∧
      w.rf R.TIME_VCTL_SRC 0 1 = d.rf R.TIME_VCTL_SRC 0 1) := by
  obtain ⟨z, -, hone, -⟩ := h.event t
  have he := hone h0 h2
  have hstate : (d.heard n z).ptpState n = d.ptpState n := Dev.ptpState_heard n z n d
  intro x rx
  refine ⟨?_, fun hst => ?_, fun hst => ⟨(d.heard n z).synced n (ptpTime m) rx (ptpCorr m), ?_, rfl, ?_⟩⟩
  · rw [show x = _ from he]
    exact Dev.ptpSync_shows (d.heard n z) n (ptpTime m) rx (ptpCorr m)
  · rw [show x = _ from he, Dev.ptpSync_of_not_slave _ _ _ (hstate ▸ hst)]
    rfl
  · exact he.trans (Dev.ptpSync_of_slave _ _ _ (hstate.trans hst))
  · exact Dev.rf_heard_time (g := R.TIME_VCTL_SRC) rfl (by decide) n z d

/-- A request of the path delay to a master, and one of a peer: each has its answer. -/
theorem answers (hb : d.PtpBusy n) (t : Nat) :
    (ptpType m = 1 → d.ptpState n = psMASTER → d.Queues n (d.port n) 9 (ptpSeq m) (d.ptpEvent n m t)) ∧
    (ptpType m = 2 → d.Queues n (d.port n) 3 (ptpSeq m) (d.ptpEvent n m t)) := by
  obtain ⟨z, -, -, hreq, hpeer, -⟩ := h.event t
  refine ⟨fun h1 hst => ?_, fun h2 => ?_⟩
  · obtain ⟨corr, body, he⟩ := hreq h1 hst
    rw [he]
    exact hb.answered z (by decide) _ _ _ _ _ _
  · obtain ⟨corr, body, x, he⟩ := hpeer h2
    rw [he]
    obtain ⟨heth, hunits⟩ := Dev.ptpOut_fresh (d := d.heard n z) (by rw [Dev.ethOn_heard, hb.on]) hb.sends (by rw [Dev.gclEn_heard, hb.gates]) 2
      ((d.heard n z).ptpMsg n 3 (ptpSeq m) corr 0x7F body) x
    exact (hb.answered z (by decide) _ _ _ _ _ _).of_links heth hunits

/-- An Announce on the one port that runs PTP: the port keeps it and has its state by it. -/
theorem announce (h11 : ptpType m = 11) (ho : d.ptpPorts = [n]) : ∃ w : Dev,
    d.ptpGeneral n m = w.setPtp n (if annRank m < d.ownRank ∨ d.net.gmCap = false then psSLAVE else psMASTER) ∧
      (w.port n).announce = some m ∧ w.ptpState n = d.ptpState n ∧ w.evt = d.evt ∧ w.units = d.units := by
  obtain ⟨z, -, -, hann⟩ := h.general
  have hport : (((d.heard n z).setPort n { d.port n with announce := some m }).port n).announce = some m := by rw [Dev.port_setPort_self]
  have hports : ((d.heard n z).setPort n { d.port n with announce := some m }).ptpPorts = [n] := (Dev.ptpPorts_heard n z d).trans ho
  exact ⟨(d.heard n z).setPort n { d.port n with announce := some m }, (hann h11).trans (Dev.bmca_heard hports hport), hport,
    Dev.ptpState_heard n z n d, rfl, rfl⟩

end Dev.PtpHears

/-- The master of the one port that runs PTP is gone. -/
theorem Dev.annTimeout_alone {d : Dev} {n : Nat} (hon : d.ethOn n = true) (hen : d.flag R.ETH_PTP_PORT_EN n = true) (hup : d.rst.coresUp = true)
    (ho : d.ptpPorts = [n]) : ∃ w : Dev, d.annTimeout n = w.setPtp n (if d.net.gmCap then psMASTER else psLISTENING) ∧ (w.port n).announce = none ∧
      w.units = d.units := by
  have hgo : (d.ethOn n && d.flag R.ETH_PTP_PORT_EN n && d.rst.coresUp) = true := by rw [hon, hen, hup]; rfl
  have hnone : ((d.portUp n (fun s => { s with announce := none })).port n).announce = none := by rw [Dev.portUp, Dev.port_setPort_self]
  refine ⟨d.portUp n (fun s => { s with announce := none }), ?_, hnone, rfl⟩
  rw [Dev.annTimeout, if_pos hgo]
  exact Dev.bmca_alone ho hnone

end Sys2Proof.Machine

open Sys2Proof Sys2Proof.Machine

/-- Settles O53, message by message: what a reception does by its type (`PtpHears.event`, `PtpHears.general`), the servo (`ptpOffset_…`), the state of
a port (`bmca_…`), a message in its queue (`ptpOut_carries`) and one that leaves (`ethSent_ptp`). -/
theorem ptpMessages : Obligations.PtpMessages := by
  unfold Obligations.PtpMessages
  intro s n t m t1 t2 t3 c y p hn hon hen x up mine typ st rx tx o src rest sync queued busy only alone
  have hok : s.dev.ethOk n = true := decide_eq_true hn
  have hears (h : mine) : s.dev.PtpHears n m := ⟨hon, hen, h.1, h.2⟩
  have isBusy (h : busy) : s.dev.PtpBusy n := ⟨hon, h.1, h.2.1, h.2.2⟩
  have event {P : Dev → Prop} (h : P (s.dev.ptpEvent n m t)) : Does (.ptpEventReceived n m t) s P := does_guarded (f := Dev.ptpEvent n m t) rfl hok h
  have general {P : Dev → Prop} (h : P (s.dev.ptpGeneral n m)) : Does (.ptpGeneralReceived n m) s P := does_guarded (f := Dev.ptpGeneral n m) rfl hok h
  have send {P : Dev → Prop} (k : Nat) (h : P (s.dev.ptpSend n k t)) : Does (.ptpSendDue n k t) s P := does_guarded (f := Dev.ptpSend n k t) rfl hok h
  have queues {typ seq : Nat} {d : Dev} {e : EthSt} (h : s.dev.Queues n e typ seq d) :
      rest d ∧ queued typ seq d ∧ ∃ qs, d.port n = { e with queues := qs } := by
    obtain ⟨y, hport, hcarries, hunits, hothers⟩ := h
    exact ⟨⟨hunits, fun j hj => .inl (hothers j hj)⟩, ⟨y, congrArg EthSt.queues hport, hcarries⟩, _, hport⟩
  refine ⟨fun hm h0 h2 => ?sync, fun hm h0 h2 => ?twoStep, fun hm h1 hst hb => ?delayReq, fun hm h2 hb => ?peerReq, fun hm h3 h2 hq => ?peerResp,
    fun hm h8 hp => ?followUp, fun hm h9 hq hsy => ?delayResp, fun hm h11 ho => ?announce, fun hup ho => ?announceTimeout, fun hb => ?sends,
    fun hsend hp => ?leaves, fun hsrc => ?syncTimeout⟩
  case sync =>
    obtain ⟨⟨hunits, hsync, hpend⟩, hfree, hslave⟩ := (hears hm).oneStep t h0 h2
    refine ⟨fun hst => event ⟨hunits, hsync, hpend, hfree hst⟩, fun hst hptp => event ⟨hunits, hsync, hpend, ?_⟩,
      fun hst hptp ho hg => event ⟨hunits, hsync, hpend, ?_⟩, fun hst hptp ho hb => event ⟨hunits, hsync, hpend, ?_⟩⟩ <;>
      obtain ⟨w, he, htime, hsrc⟩ := hslave hst <;> rw [he]
    · rw [Dev.ptpOffset_free _ (hsrc ▸ hptp), Dev.counted_time, htime]
      rfl
    · obtain ⟨hlock, hbase, hinc⟩ := Dev.ptpOffset_locks _ (hsrc.trans hptp) ho (by rw [htime]; exact hg)
      rw [Dev.vw_of_time htime] at hbase hinc
      exact ⟨hlock, hbase, hinc⟩
    · exact Dev.ptpOffset_unlocks _ (hsrc.trans hptp) ho (by rw [htime]; exact hb)
  case twoStep =>
    obtain ⟨z, htwo, -⟩ := (hears hm).event t
    refine event ?_
    rw [htwo h0 h2]
    exact ⟨Dev.port_setPort_self .., rfl, rfl, fun j hj => .inl (Dev.port_setPort_ne hj ..)⟩
  case delayReq =>
    obtain ⟨hrest, hqueued, -⟩ := queues (((hears hm).answers (isBusy hb) t).1 h1 hst)
    exact event ⟨hqueued, hrest⟩
  case peerReq =>
    obtain ⟨hrest, hqueued, -⟩ := queues (((hears hm).answers (isBusy hb) t).2 h2)
    exact event ⟨hqueued, hrest⟩
  case peerResp =>
    obtain ⟨z, -, -, -, -, hresp⟩ := (hears hm).event t
    refine event ?_
    rw [hresp t1 h3 h2 hq]
    exact ⟨⟨rfl, fun j hj => .inl (Dev.port_setPort_ne hj ..)⟩, Dev.port_setPort_self ..⟩
  case followUp =>
    obtain ⟨z, hfollow, -⟩ := (hears hm).general
    obtain ⟨hunits, hsync, hpend⟩ := Dev.ptpSync_shows (s.dev.heard n z) n (ptpTime m) t2 (c + ptpCorr m)
    refine general ?_
    rw [hfollow t2 c h8 hp]
    refine ⟨hunits, hsync, hpend, fun hst => ?_⟩
    rw [Dev.ptpSync_of_not_slave _ _ _ (fun h => hst ((Dev.ptpState_heard n z n s.dev).symm.trans h))]
    rfl
  case delayResp =>
    obtain ⟨z, -, hresp, -⟩ := (hears hm).general
    refine general ?_
    rw [hresp t1 t2 t3 h9 hq hsy]
    exact ⟨⟨rfl, fun j hj => .inl (Dev.port_setPort_ne hj ..)⟩, Dev.port_setPort_self ..⟩
  case announce =>
    obtain ⟨w, he, hann, hstate, hevt, hwunits⟩ := (hears hm).announce h11 ho
    refine general ?_
    rw [he]
    obtain ⟨hport, hunits⟩ := Dev.port_setPtp n (if annRank m < s.dev.ownRank ∨ s.dev.net.gmCap = false then psSLAVE else psMASTER) w
    refine ⟨hunits.trans hwunits, by rw [hport, hann], Dev.ptpState_setPtp n (by split <;> decide) w, fun hst hr => ?_⟩
    rw [if_pos (.inl hr)]
    obtain ⟨⟨v, data, hv, hraise⟩, hgood⟩ := Dev.setPtp_slave (fun h => hst (hstate.symm.trans h))
    exact ⟨⟨v, data, hv.trans hevt, hraise⟩, hgood⟩
  case announceTimeout =>
    obtain ⟨w, he, hann, hwunits⟩ := Dev.annTimeout_alone hon hen hup ho
    refine does_guarded (f := Dev.annTimeout n) rfl hok ?_
    rw [he]
    obtain ⟨hport, hunits⟩ := Dev.port_setPtp n alone w
    exact ⟨hunits.trans hwunits, (congrArg EthSt.announce hport).trans hann, Dev.ptpState_setPtp n (by split <;> decide) w⟩
  case sends =>
    have out {e : EthSt} (hq : e.queues = x.queues) (he : e.sending = x.sending) {k : Nat} (hk : k < 16) := (isBusy hb).counted hq he hk
    refine ⟨fun hst => ⟨send 0 ?_, send 11 ?_⟩, fun hc hst hp => send 1 ?_, fun hc hp => send 2 ?_⟩
    · obtain ⟨logI, body, ptp, he⟩ := Dev.ptpSend_sync hon hen t hst
      rw [he]
      obtain ⟨hrest, hqueued, _, hport⟩ := queues (out (e := { x with syncSeq := (x.syncSeq + 1) % 65536 }) rfl rfl (k := 0)
          (by decide) x.syncSeq logI body ptp)
      exact ⟨hrest, hqueued, congrArg EthSt.syncSeq hport⟩
    · obtain ⟨logI, body, ptp, he⟩ := Dev.ptpSend_announce hon hen t hst
      rw [he]
      obtain ⟨hrest, hqueued, _, hport⟩ := queues (out (e := { x with annSeq := (x.annSeq + 1) % 65536 }) rfl rfl (k := 11)
          (by decide) x.annSeq logI body ptp)
      exact ⟨hrest, hqueued, congrArg EthSt.annSeq hport⟩
    · obtain ⟨logI, body, ptp, he⟩ := Dev.ptpSend_delay hon hen t hc hst hp
      rw [he]
      obtain ⟨hrest, hqueued, _, hport⟩ := queues (out (e := { x with dlySeq := (x.dlySeq + 1) % 65536 }) rfl rfl (k := 1)
          (by decide) x.dlySeq logI body ptp)
      exact ⟨hrest, hqueued, congrArg EthSt.dlySeq hport⟩
    · obtain ⟨logI, body, ptp, he⟩ := Dev.ptpSend_peerDelay hon hen t hc hp
      rw [he]
      obtain ⟨hrest, hqueued, _, hport⟩ := queues (out (e := { x with dlySeq := (x.dlySeq + 1) % 65536 }) rfl rfl (k := 2)
          (by decide) x.dlySeq logI body ptp)
      exact ⟨hrest, hqueued, congrArg EthSt.dlySeq hport⟩
  case leaves =>
    obtain ⟨hunits, hsent, hports, hdly, hpd⟩ := Dev.ethSent_ptp hsend hp
    exact does_guarded (f := Dev.ethSent n) rfl hok ⟨⟨hunits, fun j hj => .inl (hports j hj)⟩, hdly, hpd, y.queue, hsent⟩
  case syncTimeout =>
    have hrun : exec .ptpSyncTimeout s = execPtpSyncTimeout s := rfl
    refine does_on hrun ?_
    rw [if_pos hsrc]
    obtain ⟨hlock, htime⟩ := Dev.loseLock_one { s.dev with time := { s.dev.time with good1 := 0, bad1 := 0 } }
    obtain ⟨heth, hunits⟩ := Dev.of_links (Dev.links_beside.loseLock 1 { s.dev with time := { s.dev.time with good1 := 0, bad1 := 0 } })
    exact ⟨hlock, congrArg TimeSt.good1 htime, hunits, heth⟩
end

section
/-!
SUPPORT. The requests of a loop: the device HOLD, one request of one source, and the two sources of a cycle in their order (R131 to R133).
-/
namespace Sys2Proof.Machine

/-! ### The device HOLD (R133) -/

/-- The cause of the HOLD that an evaluation imposes; 0 for none. -/
def loopCause (e : LoopEnv) (x : LoopSt) : Nat := if e.ovr3 = true then 1 else x.pendHold

/-- A loop on which the device has just imposed HOLD for a cause. -/
def LoopSt.held (c : LoopCfg) (cause : Nat) (x : LoopSt) : LoopSt :=
  { x with mode := 2, holdDev := true, hcause := cause, pendHold := 0, heldNow := true, holds := satAdd 0xFF x.holds 1,
           supp := if x.mode = 2 then x.supp else c.supp }

theorem loopHold_none {l : Nat} {c : LoopCfg} {e : LoopEnv} {x : LoopSt} (h : loopCause e x = 0) : loopHold l c e x = (x, []) := if_pos h

theorem loopHold_held {l : Nat} {c : LoopCfg} {e : LoopEnv} {x : LoopSt} (h : loopCause e x ≠ 0) :
    (loopHold l c e x).1 = x.held c (loopCause e x) := by
  have hrun : loopHold l c e x = _ := if_neg h
  rw [hrun]
  unfold LoopSt.held
  by_cases hm : x.mode = 2
  · rw [if_pos hm, if_pos hm]; rfl
  · rw [if_neg hm, if_neg hm]; rfl

/-- A HOLD leaves what tells a new request from an old one. -/
theorem loopHold_acks (l : Nat) (c : LoopCfg) (e : LoopEnv) (x : LoopSt) :
    (loopHold l c e x).1.ackW = x.ackW ∧ (loopHold l c e x).1.ackS = x.ackS := by
  by_cases h : loopCause e x = 0
  · rw [loopHold_none h]; exact ⟨rfl, rfl⟩
  · rw [loopHold_held h]; exact ⟨rfl, rfl⟩

/-! ### One request of one source (R131, R132) -/

/-- The SEQ that a source's latest request had: of MODE_SIG where `sig`, else of the request word. -/
def LoopSt.ack (sig : Bool) (x : LoopSt) : Nat := if sig = true then x.ackS else x.ackW

/-- A loop that has acknowledged a source's request of SEQ `n` with the outcome `r`. -/
def LoopSt.acked (sig : Bool) (n r : Nat) (x : LoopSt) : LoopSt :=
  { x with ackW := if sig = true then x.ackW else n, ackS := if sig = true then n else x.ackS, sigTaken := sig || x.sigTaken,
           lastReq := r, reqSrc := b2n sig }

/-- A loop that has refused a source's request of SEQ `n`. -/
def LoopSt.refuse (sig : Bool) (n : Nat) (x : LoopSt) : LoopSt := { x.acked sig n 2 with refused := satAdd 0xFF x.refused 1 }

@[simp] theorem LoopSt.ack_acked (sig : Bool) (n r : Nat) (x : LoopSt) : (x.acked sig n r).ack sig = n := by cases sig <;> rfl

@[simp] theorem LoopSt.ack_refuse (sig : Bool) (n : Nat) (x : LoopSt) : (x.refuse sig n).ack sig = n := LoopSt.ack_acked sig n 2 x

section
variable {c : LoopCfg} {v sig : Bool} {w : Word} {x : LoopSt}

theorem loopReqNew_iff : loopReqNew sig w x = true ↔ reqSeq w ≠ x.ack sig := by cases sig <;> simp [loopReqNew, LoopSt.ack]

/-- The acceptance rules of R132, field by field. -/
theorem loopAccepts_iff : loopAccepts c v w x = true ↔
    (reqEdit w = true → reqMode w ≠ 3) ∧ (c.sched = false → reqSet w ≠ x.set → x.mode ≠ 3 ∧ reqSet w < c.sets) ∧
    (reqMode w = 3 ∨ x.holdDev = true ∧ x.hcause = 2 → v = true) := by
  have himp (p q : Bool) : (!p || q) = true ↔ (p = true → q = true) := by cases p <;> simp
  simp only [loopAccepts, Bool.and_eq_true, himp, Bool.or_eq_true, Bool.not_eq_true', decide_eq_true_eq, and_imp, and_assoc]

/-- SET of an accepted request. -/
def loopApplySet (c : LoopCfg) (w : Word) (x : LoopSt) : LoopSt :=
  if !c.sched && reqSet w ≠ x.set then loopSuppress c { x with set := reqSet w, switches := satAdd 0xFFFF x.switches 1 } else x

/-- What a change of MODE in an accepted request starts; the mode itself is entered after it. -/
def loopApplyMode (c : LoopCfg) (w : Word) (x : LoopSt) : LoopSt :=
  if reqMode w ≠ x.mode then loopSuppress c { x with entering := if reqMode w = 3 then 1 else 0 } else x

theorem loopApplyReq_eq (c : LoopCfg) (w : Word) (x : LoopSt) : loopApplyReq c w x =
    { loopApplyMode c w (loopApplySet c w { x with edit := reqEdit w }) with mode := reqMode w, holdDev := false } := rfl

theorem loopApplySet_fields (c : LoopCfg) (w : Word) (x : LoopSt) : ∃ n p,
    loopApplySet c w x = { x with set := if c.sched = true then x.set else reqSet w, switches := n, supp := p } := by
  unfold loopApplySet
  cases c.sched
  · by_cases h : reqSet w = x.set
    · exact ⟨x.switches, x.supp, by simp [h]⟩
    · exact ⟨satAdd 0xFFFF x.switches 1, c.supp, by simp [h, loopSuppress]⟩
  · exact ⟨x.switches, x.supp, rfl⟩

theorem loopApplyMode_fields (c : LoopCfg) (w : Word) (x : LoopSt) : ∃ p t, loopApplyMode c w x = { x with supp := p, entering := t } := by
  unfold loopApplyMode
  split
  · exact ⟨_, _, rfl⟩
  · exact ⟨x.supp, x.entering, rfl⟩

/-- An accepted request has its three fields and ends a device HOLD; beside them only the count of set changes, the suppression and the
transfer it starts can change. -/
theorem loopApplyReq_fields (c : LoopCfg) (w : Word) (x : LoopSt) : ∃ n p t, loopApplyReq c w x =
    { x with mode := reqMode w, edit := reqEdit w, set := if c.sched = true then x.set else reqSet w, holdDev := false,
             switches := n, supp := p, entering := t } := by
  obtain ⟨n, p, hset⟩ := loopApplySet_fields c w { x with edit := reqEdit w }
  obtain ⟨p', t, hmode⟩ := loopApplyMode_fields c w (loopApplySet c w { x with edit := reqEdit w })
  exact ⟨n, p', t, by rw [loopApplyReq_eq, hmode, hset]⟩

/-- A request that is not new changes nothing. -/
theorem loopTake_old (h : reqSeq w = x.ack sig) : loopTake c v sig w x = x :=
  if_pos (by simp [loopReqNew_iff, ← Bool.not_eq_true, h])

theorem loopTake_accepted (hnew : reqSeq w ≠ x.ack sig) (hheld : x.heldNow = false) (hsig : x.sigTaken = false ∨ sig = true)
    (hacc : loopAccepts c v w x = true) : loopTake c v sig w x = loopApplyReq c w (x.acked sig (reqSeq w) 1) := by
  have hok : (!x.heldNow && !(x.sigTaken && !sig) && loopAccepts c v w x) = true := by
    rcases hsig with h | h <;> simp [hheld, h, hacc]
  simp only [loopTake, loopReqNew_iff.mpr hnew, hok]
  cases sig <;> rfl

/-- A new request is refused in a cycle with a device HOLD, behind a MODE_SIG request of its cycle, and where a rule speaks against it. -/
theorem loopTake_refused (hnew : reqSeq w ≠ x.ack sig)
    (hno : x.heldNow = true ∨ (x.sigTaken = true ∧ sig = false) ∨ loopAccepts c v w x = false) :
    loopTake c v sig w x = x.refuse sig (reqSeq w) := by
  have hok : (!x.heldNow && !(x.sigTaken && !sig) && loopAccepts c v w x) = false := by
    rcases hno with h | ⟨h, h'⟩ | h
    · simp [h]
    · simp [h, h']
    · simp [h]
  simp only [loopTake, loopReqNew_iff.mpr hnew, hok]
  cases sig <;> rfl

/-- A new MODE_SIG request, accepted or not, takes the cycle and leaves the request word's SEQ. -/
theorem loopTake_sig (hnew : reqSeq w ≠ x.ackS) :
    (loopTake c v true w x).sigTaken = true ∧ (loopTake c v true w x).ackW = x.ackW := by
  by_cases hno : x.heldNow = true ∨ loopAccepts c v w x = false
  · rw [loopTake_refused hnew (hno.imp_right .inr)]
    exact ⟨rfl, rfl⟩
  · obtain ⟨hheld, hacc⟩ : x.heldNow = false ∧ loopAccepts c v w x = true := by simpa using hno
    obtain ⟨n, p, t, happly⟩ := loopApplyReq_fields c w (x.acked true (reqSeq w) 1)
    rw [loopTake_accepted hnew hheld (.inr rfl) hacc, happly]
    exact ⟨rfl, rfl⟩

end

/-! ### The two sources of a cycle (R132) -/

/-- MODE_SIG is VALID and holds a request that is new to the loop. -/
def NewModeSig (c : LoopCfg) (e : LoopEnv) (x : LoopSt) : Prop :=
  ∃ g, c.modeSig = some g ∧ (e.sig g).valid = true ∧ reqSeq (e.sig g).val ≠ x.ackS

/-- What MODE_SIG makes of a loop. -/
def loopSigTake (c : LoopCfg) (e : LoopEnv) (x : LoopSt) : LoopSt :=
  match c.modeSig with
  | some g => if (e.sig g).valid then loopTake c (loopValid c e) true (e.sig g).val x else x
  | none => x

/-- What a request command makes of a loop: MODE_SIG, or both sources. -/
def loopJudge (sig : Bool) (c : LoopCfg) (e : LoopEnv) (x : LoopSt) : LoopSt :=
  if sig then loopSigTake c e x else loopRequests c e x

section
variable {c : LoopCfg} {e : LoopEnv} {x : LoopSt}

theorem loopSigTake_valid {g : Nat} (hg : c.modeSig = some g) (hv : (e.sig g).valid = true) :
    loopSigTake c e x = loopTake c (loopValid c e) true (e.sig g).val x := by
  rw [loopSigTake, hg]; exact if_pos hv

theorem loopSigTake_of_not_new (h : ¬ NewModeSig c e x) : loopSigTake c e x = x := by
  unfold loopSigTake
  split
  case h_1 g hg =>
    split
    · next hv => exact loopTake_old (Classical.byContradiction fun hn => h ⟨g, hg, hv, hn⟩)
    · rfl
  case h_2 => rfl

/-- The request word follows MODE_SIG. -/
theorem loopRequests_eq : loopRequests c e x = loopTake c (loopValid c e) false e.req (loopSigTake c e x) := rfl

/-- A source's request that no other precedes in the cycle is judged on the loop as the cycle found it. -/
theorem loopJudge_of_source {sig : Bool} {w : Word} (h : (sig = false ∧ w = e.req ∧ ¬ NewModeSig c e x) ∨
      (sig = true ∧ ∃ g, c.modeSig = some g ∧ (e.sig g).valid = true ∧ w = (e.sig g).val)) :
    loopJudge sig c e x = loopTake c (loopValid c e) sig w x := by
  rcases h with ⟨rfl, rfl, hno⟩ | ⟨rfl, g, hg, hv, rfl⟩
  · exact loopRequests_eq.trans (by rw [loopSigTake_of_not_new hno])
  · exact loopSigTake_valid hg hv

/-- Behind a new MODE_SIG request a new request word of the cycle is refused. -/
theorem loopJudge_behind_sig {sig : Bool} (h0 : sig = false) (hsig : NewModeSig c e x) (hnew : reqSeq e.req ≠ x.ackW) :
    ∃ y, loopJudge sig c e x = LoopSt.refuse false (reqSeq e.req) y := by
  subst h0
  obtain ⟨g, hg, hv, hn⟩ := hsig
  obtain ⟨htaken, hack⟩ := loopTake_sig (c := c) (v := loopValid c e) hn
  rw [← loopSigTake_valid hg hv] at htaken hack
  exact ⟨_, loopTake_refused (fun h => hnew (h.trans hack)) (.inr (.inl ⟨htaken, rfl⟩))⟩

end

/-! ### The command (R131) -/

theorem Dev.un_raiseAll (u : Nat) (evs : List UEv) (d : Dev) (v : Nat) : (d.raiseAll u evs).un v = d.un v :=
  foldl_const (Dev.un · v) _ evs d (fun y _ => Dev.un_raise _ _ _ y v)

/-- A unit with one loop's state of the cycle in progress replaced. -/
def UnitSt.withLoop (l : Nat) (y : LoopSt) (x : UnitSt) : UnitSt := { x with work := { x.work with loops := Tbl.put l y x.work.loops } }

theorem Dev.loopReq_cycle {u l : Nat} {sig : Bool} {m : List Host.Cell} {d : Dev} (h : d.inCycle u 1 l (d.loopsOf u).length = true) :
    let c := nth {} (d.loopsOf u) l
    let y := loopHold l c (d.loopEnv m u l c) (Tbl.getD {} (d.un u).work.loops l)
    d.loopReq u l sig m = (d.unUp u (UnitSt.withLoop l (loopJudge sig c (d.loopEnv m u l c) y.1))).raiseAll u y.2 := by
  have hgo : (!d.inCycle u 1 l (d.loopsOf u).length) = false := by rw [h]; rfl
  simp only [Dev.loopReq, hgo]
  cases sig <;> rfl

/-- A request command replaces the loop that it names and touches, beside it, at most what raising LOOP_HOLD touches. -/
theorem does_loopRequest {s : State} {u l : Nat} {sig : Bool} {k : Instr} {P : LoopSt → Prop}
    (hk : k = .loopMode u l sig ∨ k = .loopEdit u l sig ∨ k = .loopSet u l sig) (hu : u < s.dev.nUnits) (hl : l < 64)
    (hcyc : s.dev.inCycle u 1 l (s.dev.loopsOf u).length = true) :
    let c := nth {} (s.dev.loopsOf u) l
    let e := s.dev.loopEnv s.mem u l c
    let x := Tbl.getD {} (s.dev.un u).work.loops l
    P (loopJudge sig c e (loopHold l c e x).1) → Does k s (fun d => (∀ v, v ≠ u → d.un v = s.dev.un v) ∧
      (∀ j, j ≠ l → Tbl.getD {} (d.un u).work.loops j = Tbl.getD {} (s.dev.un u).work.loops j) ∧ (d.un u).base = (s.dev.un u).base ∧
      (loopCause e x = 0 → { d with units := s.dev.units } = s.dev) ∧ P (Tbl.getD {} (d.un u).work.loops l)) := by
  intro c e x hP
  have hexec : exec k s = s.guarded (s.dev.reqOk u l 64) (Dev.loopReq u l sig s.mem) := by rcases hk with rfl | rfl | rfl <;> rfl
  refine does_guarded hexec (by simp [Dev.reqOk, hu, hl]) ?_
  have hrun := Dev.loopReq_cycle (sig := sig) (m := s.mem) hcyc
  have hun : (s.dev.loopReq u l sig s.mem).un u = (s.dev.un u).withLoop l (loopJudge sig c e (loopHold l c e x).1) := by
    rw [hrun, Dev.un_raiseAll, Dev.un_unUp_self]
  refine ⟨fun v hv => ?others, fun j hj => ?loops, (congrArg UnitSt.base hun :), fun h0 => ?device, ?loop⟩
  case others => rw [hrun, Dev.un_raiseAll, Dev.un_unUp_ne _ _ hv]
  case loops => rw [hun]; exact Tbl.getD_put_ne _ _ _ hj
  case device => rw [hrun, loopHold_none h0]; rfl
  case loop => rw [hun]; exact (Tbl.getD_put_self ..).symm ▸ hP

end Sys2Proof.Machine

open Sys2Proof Sys2Proof.Machine

/-- Settles O38: the HOLD first (`loopHold_held`), then one source's request, judged on the loop as it then is (`loopJudge_of_source`): accepted, refused or
not new; a request word behind a new MODE_SIG request is refused (`loopJudge_behind_sig`). -/
theorem loopRequests : Obligations.LoopRequests := by
  unfold Obligations.LoopRequests
  intro s u l sig k hk hu hl hcyc c e x hold newSig source ack does
  have runs {P : LoopSt → Prop} (h : P (loopJudge sig c e (loopHold l c e x).1)) : does P := does_loopRequest hk hu hl hcyc h
  clear_value does
  obtain ⟨hackW, hackS⟩ := loopHold_acks l c e x
  have same : NewModeSig c e (loopHold l c e x).1 ↔ newSig := by unfold NewModeSig; rw [hackS]; exact Iff.rfl
  refine ⟨fun v hsrc => ?one, fun hsig hn hnew => ?behind⟩
  case behind =>
    obtain ⟨y, hy⟩ := loopJudge_behind_sig hsig (same.mpr hn) (fun h => hnew (h.trans hackW))
    refine runs ?_
    rw [hy]
    exact ⟨rfl, rfl, rfl⟩
  case one =>
    intro w valid
    have hfree : x.sigTaken = false ∨ sig = true := hsrc.imp (fun ⟨_, _, h, _⟩ => h) (fun ⟨h, _⟩ => h)
    have hjudge : loopJudge sig c e (loopHold l c e x).1 = loopTake c (loopValid c e) sig v (loopHold l c e x).1 :=
      loopJudge_of_source (hsrc.imp_left fun ⟨h, hv, _, hno⟩ => ⟨h, hv, fun h' => hno (same.mp h')⟩)
    refine ⟨fun h0 => ?noHold, fun hne => ?hold⟩
    case noHold =>
      rw [loopHold_none h0] at hjudge runs
      refine ⟨fun hheld hnew hedit hvalid hset => runs ?accept, fun hnew hno => runs ?refuse, fun hseq => runs (hjudge.trans (loopTake_old hseq))⟩
      case accept =>
        obtain ⟨n, p, t, happly⟩ := loopApplyReq_fields c v (x.acked sig (reqSeq v) 1)
        rw [hjudge, loopTake_accepted hnew hheld hfree (loopAccepts_iff.mpr ⟨hedit, hset, hvalid⟩), happly]
        exact ⟨rfl, rfl, fun h => if_neg (by simp [h]), fun h => if_pos h, LoopSt.ack_acked sig (reqSeq v) 1 x, rfl, rfl, rfl, rfl⟩
      case refuse =>
        have hacc : x.heldNow = true ∨ (x.sigTaken = true ∧ sig = false) ∨ loopAccepts c (loopValid c e) v x = false := by
          rw [← Bool.not_eq_true (loopAccepts ..), loopAccepts_iff]
          rcases hno with ⟨h, h'⟩ | h | ⟨h, h', h''⟩ | h
          · exact .inr (.inr fun ⟨hedit, _, _⟩ => hedit h h')
          · exact .inr (.inr fun ⟨_, _, hvalid⟩ => h hvalid)
          · exact .inr (.inr fun ⟨_, hset, _⟩ => h''.elim (hset h h').1 (Nat.not_le.mpr (hset h h').2))
          · exact .inl h
        rw [hjudge, loopTake_refused hnew hacc]
        exact ⟨rfl, rfl, rfl, rfl, LoopSt.ack_refuse .., rfl, rfl⟩
    case hold =>
      rw [loopHold_held hne] at hjudge runs
      refine runs ?_
      rw [hjudge]
      by_cases hnew : reqSeq v = (x.held c (loopCause e x)).ack sig
      · rw [loopTake_old hnew]
        exact ⟨rfl, rfl, rfl, rfl, rfl, fun h => absurd hnew h⟩
      · rw [loopTake_refused hnew (.inl rfl)]
        exact ⟨rfl, rfl, rfl, rfl, rfl, fun _ => ⟨LoopSt.ack_refuse .., rfl, rfl⟩⟩
end

section
/-!
SUPPORT. Where a command goes on: its operands are checked first, and nothing else stops it but a logic jump past its program.
-/
namespace Sys2Proof.Machine

/-- The command goes on, or is refused for its operands, which it is not where `p` holds. -/
def Res.GoesIf (p : Prop) (r : Res) : Prop := (∃ t, r = .next t) ∨ r = .refused .badOperand ∧ ¬ p

section GoesIf

variable {p : Prop} (s : State)

theorem State.goesIf_on (f : Dev → Dev) : Res.GoesIf p (s.on f) := .inl ⟨_, rfl⟩

theorem State.goesIf_onMem (f : Dev → List Host.Cell → Dev × List Host.Cell) : Res.GoesIf p (s.onMem f) := .inl ⟨_, rfl⟩

variable {s}

theorem State.goesIf_guarded {ok : Bool} {f : Dev → Dev} (h : p → ok = true) : Res.GoesIf p (s.guarded ok f) := by
  cases ok with
  | true => exact .inl ⟨_, rfl⟩
  | false => exact .inr ⟨rfl, fun hp => nomatch h hp⟩

theorem State.goesIf_ite {c : Prop} [Decidable c] {f : Dev → List Host.Cell → Dev × List Host.Cell} (h : p → c) :
    Res.GoesIf p (if c then s.onMem f else .refused .badOperand) := by
  split
  · exact s.goesIf_onMem _
  · next hc => exact .inr ⟨rfl, fun hp => hc (h hp)⟩

/-- A register command is refused only on an index out of range or on a block that no variant has. -/
theorem State.goesIf_regCmd {g : F} {k i : Nat} {ok : Bool} {f : Dev → Dev} (hok : p → ok = true) (hk : p → k < s.dev.present g.blk) :
    Res.GoesIf p (s.regCmd g k i ok f) := by
  unfold State.regCmd
  split
  · exact s.goesIf_on _
  · next h =>
    split
    · exact s.goesIf_on _
    · exact .inr ⟨rfl, fun hp => h (by simp [hok hp, hk hp])⟩

theorem State.goesIf_eyelet (q : Req) (pr : Nat) {f : State → Res} (h : ∃ t, f s = .next t) : Res.GoesIf p (s.eyelet q pr f) :=
  .inl (State.eyelet_goes h)

theorem State.eyeletImg_goes (q : Req) (op pr : Nat) (img : List Byte) (f : List Byte → Dev → Dev) :
    ∃ t, s.eyeletImg q op pr img (fun b s => s.on (f b)) = .next t := by
  refine State.eyelet_goes ?_
  dsimp only
  split <;> exact ⟨_, rfl⟩

theorem State.imageCmd_goes (q : Req) (op pr : Nat) (img : List Byte) (f : List Byte → Dev → Dev) :
    ∃ t, s.imageCmd q op pr img (fun b s => s.on (f b)) = .next t := by
  refine State.eyelet_goes ?_
  split
  · exact ⟨_, rfl⟩
  · exact State.eyeletImg_goes ..

theorem State.goesIf_logic {u op : Nat} {area : Option Nat} {i : Nat} {ok : LogicEnv → LogicRun → Bool} {f : LogicEnv → LogicRun → LogicRun}
    (h : p → ∀ e r, ok e r = true) : Res.GoesIf p (s.logic u op area i ok f) := by
  unfold State.logic
  split
  · exact .inl ⟨_, rfl⟩
  · dsimp only
    split
    · exact s.goesIf_on _
    · next hno => exact .inr ⟨rfl, fun hp => hno (h hp _ _)⟩

theorem State.goesIf_logicNone {u op : Nat} {ok : LogicRun → Bool} {f : LogicRun → LogicRun} (h : p → ∀ r, ok r = true) :
    Res.GoesIf p (s.logicNone u op ok f) := s.goesIf_logic fun hp _ => h hp

end GoesIf

/-! The shells of the logic instructions with an operand. -/
section Shells

variable (s : State) (u op area i n : Nat)

theorem State.goesIf_logicBit (f : LogicRun → Bool → LogicRun) : Res.GoesIf False (s.logicBit u op area i f) := s.goesIf_logic False.elim

theorem State.goesIf_logicWr (f : Bool → Option Bool) : Res.GoesIf False (s.logicWr u op area i f) := s.goesIf_logic False.elim

theorem State.goesIf_logicWord (f : LogicRun → Word → LogicRun) : Res.GoesIf False (s.logicWord u op area i f) := s.goesIf_logic False.elim

theorem State.goesIf_logicPush (b : PushOp) : Res.GoesIf False (s.logicPush u op area i b) := s.goesIf_logic False.elim

theorem State.goesIf_logicCmp (c : Int → Int → Bool) : Res.GoesIf False (s.logicCmp u op area i c) := s.goesIf_logicWord ..

theorem State.goesIf_logicShift (right : Bool) : Res.GoesIf False (s.logicShift u op n right) := s.goesIf_logic False.elim

theorem State.goesIf_logicEdge (falling : Bool) : Res.GoesIf False (s.logicEdge op falling u n) := s.goesIf_logic False.elim

theorem State.goesIf_logicTimer (typ : Nat) : Res.GoesIf False (s.logicTimer op typ u n) := s.goesIf_logic False.elim

theorem State.goesIf_logicCtr (f : LogicEnv → LogicRun → LogicRun) : Res.GoesIf False (s.logicCtr op u n f) := s.goesIf_logic False.elim

end Shells

theorem State.duplex_goes (s : State) (q : Req) (sts : List Nat) (f : Dev → Dev) : ∃ t, s.duplex q sts f = .next t :=
  State.eyelet_goes ⟨_, rfl⟩

theorem State.lifeCycle_goes (s : State) (q : Req) (sub : Nat) (m : LcMsg) : ∃ t, s.lifeCycle q sub m = .next t := State.eyelet_goes ⟨_, rfl⟩

theorem State.level_goes (s : State) (code : Nat) (on : Bool) : ∃ t, s.level code on = .next t := ⟨_, rfl⟩

theorem execSlotWrite_goes (q : Req) (slot : Nat) (img : List Byte) (s : State) : ∃ t, execSlotWrite q slot img s = .next t := by
  unfold execSlotWrite
  split
  · exact State.eyelet_goes ⟨_, rfl⟩
  · exact State.imageCmd_goes ..

theorem execUnknownOp_goesIf (q : Req) (op : Nat) (s : State) : Res.GoesIf ((!eyOps.contains op) = true) (execUnknownOp q op s) := by
  unfold execUnknownOp
  split
  · next h => exact .inr ⟨rfl, by rw [h]; exact Bool.false_ne_true⟩
  · exact State.goesIf_eyelet _ _ ⟨_, rfl⟩

/-- The variants with a Welt link are those before the last. -/
theorem Dev.hasWelt_of_lt {d : Dev} (h : d.variant < 2) : d.hasWelt = true := by
  unfold Dev.hasWelt Dev.byVariant
  split
  · rfl
  · rw [if_pos (by omega)]

/-- A jump goes on, or faults where its target does not lie ahead. -/
theorem State.logicJump_answers (s : State) (u op t : Nat) (c : Bool → Bool) :
    (∃ t', s.logicJump u op t c = .next t') ∨ s.logicJump u op t c = .fault .pastProgram := by
  unfold State.logicJump
  split
  · exact .inl ⟨_, rfl⟩
  · split
    · exact .inl ⟨_, rfl⟩
    · exact .inr rfl

/-- A command without a logic operand is refused only where it is not well formed. -/
theorem exec_goesIf_wf (c : Instr) (s : State) (h : hasLogicOperand c = false) : Res.GoesIf (c.wf s.dev.variant = true) (exec c s) := by
  cases c with
  | cadenceBoundary | unitCompletion | itemCompletion | tileRestoreDone | tileWriteApply =>
    dsimp only [exec]
    exact State.goesIf_ite of_decide_eq_true
  | stepFetchDone | acqBlockWritten =>
    dsimp only [exec]
    exact State.goesIf_ite id
  | samplePresent | checkpointCopyDone | dispatchAccept | dispatchHandover | spillReturn | cmpFire | waitLockTimeout | timeSnap |
    timeSetWrite | timeStepWrite | timeIncWrite | timeVctlWrite | timeCmpTargetWrite | eyeletIdleTimeout | loopMode | loopEdit | loopSet |
    chopTrip | chopMaxOn | chopOffEnd | recipeStoreWrite | adcWindowClose | bankcalDone | rollCalDone | autocalPeriod | checkVisitTimeout |
    dioFilteredTransition | dioRejectedPulse | dioCntWrite | dioOutWrite | aoutSetWrite | pwmSetWrite | aoutCheck | pwmCarrierStart |
    historySliceWrite | historyStreamSend | holBasicCycleStart | holSlotStart | holSlotWindowClose | holArbContend | holPollReplyDue |
    holDelayMeasure | holListenTimeout | holColdstartEnd | holBackoffEnd | holSyncTimeout | canFrameReceived | canReferenceReceived |
    canReferenceDue | canBackupDue | canReferenceTimeout | canWindowStart | canTxmiss | canTxStart | canArbitrationLost | canTxComplete |
    canError | canBusoffRecovery | ethLinkChange | ethFrameReceived | ethFrameSent | ethGateChange | prpSupervisionDue | prpPathTimeout |
    ptpEventReceived | ptpGeneralReceived | ptpSendDue | ptpAnnounceTimeout | safeStartupDone | safeInputSample |
    safeIslandFault | boostDecision | pwrRailChange | marginPlanTimer | marginPlanComplete | viewSlewDone
    | regionTjDrift | dioRawEdge | stepPulse | microstepAdvance | recipeLoadDone | ethModuleChange |
    axEnable | axDisable | axMoveAbs | axMoveRel | axVelocity | axStop | axGearIn | axGearOut | axOffset | axHome | axSetPos | axResetFault
    | axVmSpeed | sqStart | sqHold | sqResume | sqAbort | sqReset |
    holSync | holCstart | holOut | holIn | holPoll | holNull | holArb | holDlyReq | holDlyRsp | holDlySet |
    safeDarkPulse | safeSs1Expiry | safeLockDelayExpiry | safeMuteExpiry | safeTRelExpiry | safeResetPress | safeResetRequest | safeUnlock |
    safeLock | safeMute | safeDiscrepancyTimeout | safeTestPulseSample | safeReadbackTimeout | holFrameDiscarded =>
    dsimp only [exec]
    exact State.goesIf_guarded id
  | weltLinkChange lanes =>
    dsimp only [exec]
    refine State.goesIf_guarded fun hw => ?_
    simp only [Instr.wf, Bool.and_eq_true, decide_eq_true_eq] at hw
    simp [hw.1, Dev.hasWelt_of_lt hw.2]
  | supplyChange which =>
    dsimp only [exec]
    refine State.goesIf_guarded fun hw => ?_
    simp only [Instr.wf, Bool.and_eq_true, Bool.or_eq_true, decide_eq_true_eq] at hw ⊢
    exact ⟨hw.1, hw.2.imp_right fun h2 => Nat.ne_of_lt h2⟩
  | unitClrstat | startCold | startWarm | logicStop | testOn | testOff | bankcal | roll | stoproll | holRestart | holRestore | holClrcnt |
    arbqPop | arbqSend | canRecover | canClrcnt | tscap | ethSwap =>
    dsimp only [exec]
    exact State.goesIf_regCmd (fun _ => rfl) of_decide_eq_true
  | adcChWrite bank ch wlen w m =>
    dsimp only [exec]
    refine State.goesIf_regCmd (fun hw => ((Bool.and_eq_true ..).mp hw).2) fun hw => ?_
    cases wlen <;> exact of_decide_eq_true ((Bool.and_eq_true ..).mp hw).1
  | engArm | engDisarm | engForce | canReq | canCancel | rxqPop =>
    dsimp only [exec]
    exact State.goesIf_regCmd (fun hw => ((Bool.and_eq_true ..).mp hw).2) (fun hw => of_decide_eq_true ((Bool.and_eq_true ..).mp hw).1)
  | engRelease u e slot =>
    dsimp only [exec]
    have parts (hw : (Instr.engRelease u e slot).wf s.dev.variant = true) : (u < s.dev.nUnits ∧ e < 4) ∧ slot < 16 := by
      simp only [Instr.wf, Bool.and_eq_true, decide_eq_true_eq] at hw
      exact hw
    exact State.goesIf_regCmd (fun hw => by simp [parts hw]) fun hw => (parts hw).1.1
  | timeCntLoRead | refclkLoss | slotPrefWrite | bootLoad | loadRehearsalEnd | eyeletHandshake | registerWrite | cfgchkPassEnd | cfgCommit |
    cfgSuspend | cfgchkRefWrite | frcSelWrite | frcSet | frcRemove | mainsEdge | mainsTimeout | groupArm | groupFire | groupDisarm | freeze
    | freezeCopyEnd | ptpSyncTimeout | claimBeaconDue | claimBeaconReceived | weltHbDue | hbPairDue | pairWaitExpiry | weltAckDue | weltTile
    | weltPortimg | weltForce | weltRecipe | weltCtrl | weltAck | weltNak | fullCopyEnd | handoverTime | safeIslandReset |
    safeMailboxExchange | safeStore | safeClear | safeConfirmBlockEnd | safePeriodicTest | pwrEpoch | ilimExceeded | pwrBudgetWrite |
    pwrIlimWrite | marginPlan | resetEpisodeExit | trimLoadEnd | rimPllLock | serviceCoresUp | holdMaxExpiry | powerLossDetect |
    plrWaitTimeout | opsecTick | eyeletMalformed | psetStoreDone | vinRecovery | refclkReturn | follow1Lock =>
    dsimp only [exec]
    exact s.goesIf_on _
  | forceCommit | hbPathMissed | evtRecordWrite | recClearDone | lcEraseDone | rstScwd | rstDbgSys | rstDbgCore |
    resumeReady | plrCopyDone | loadCopyDone | isolatedExpiry | hbPairFrame | weltHb | weltCommit | plrApply =>
    dsimp only [exec]
    exact s.goesIf_onMem _
  | run | stop | regRead | regWrite | memRead | memWrite | recRead | recClear | snapLock | snapClear | netcfgRead | netcfgWrite |
    dupHandover | safeConfirm | dupTakeover | reset =>
    dsimp only [exec]
    exact State.goesIf_eyelet _ _ ⟨_, rfl⟩
  | dupJoin | dupExchPrep | dupExchAbort | dupLeave =>
    dsimp only [exec]
    exact .inl (s.duplex_goes ..)
  | takeOwnership | lcSeal | lcReturn | lcScrap | devOn | devOff | keyAdd | keyRevoke | lcShip =>
    dsimp only [exec]
    exact .inl (s.lifeCycle_goes ..)
  | rstPor | rstPin | rstTherm =>
    dsimp only [exec]
    exact .inl (s.level_goes ..)
  | fwLoad | recipeLoad =>
    dsimp only [exec]
    exact .inl (State.eyeletImg_goes ..)
  | lastStream | lastLoad | lastVerify | slotCommit =>
    dsimp only [exec]
    exact .inl (State.imageCmd_goes ..)
  | slotWrite =>
    dsimp only [exec]
    exact .inl (execSlotWrite_goes ..)
  | unknownOp =>
    dsimp only [exec]
    exact execUnknownOp_goesIf ..
  | lgNop | lgNot | lgEnd =>
    dsimp only [exec]
    exact State.goesIf_logicNone fun _ _ => rfl
  | _ => cases h

/-- A logic instruction with an operand, jumps apart, goes on or is refused for its operand. -/
theorem exec_goesIf_logic (c : Instr) (s : State) (h : hasLogicOperand c = true) (hj : isJump c = false) : Res.GoesIf False (exec c s) := by
  cases c with
  | lgStw =>
    dsimp only [exec]
    exact s.goesIf_logic False.elim
  | lgPop =>
    dsimp only [exec]
    exact s.goesIf_logicNone False.elim
  | lgLd | lgLdn | lgAnd | lgAndn | lgOr | lgOrn | lgXor | lgXorn =>
    dsimp only [exec]
    exact s.goesIf_logicBit ..
  | lgSt | lgStn | lgS | lgR =>
    dsimp only [exec]
    exact s.goesIf_logicWr ..
  | lgLdw | lgAdd | lgSub | lgMul | lgDiv | lgWand | lgWor | lgWxor =>
    dsimp only [exec]
    exact s.goesIf_logicWord ..
  | lgAndPush | lgAndnPush | lgOrPush | lgOrnPush | lgXorPush =>
    dsimp only [exec]
    exact s.goesIf_logicPush ..
  | lgGt | lgGe | lgEq | lgNe | lgLe | lgLt =>
    dsimp only [exec]
    exact s.goesIf_logicCmp ..
  | lgShl | lgShr =>
    dsimp only [exec]
    exact s.goesIf_logicShift ..
  | lgRTrig | lgFTrig =>
    dsimp only [exec]
    exact s.goesIf_logicEdge ..
  | lgTon | lgTof | lgTp =>
    dsimp only [exec]
    exact s.goesIf_logicTimer ..
  | lgCtu | lgCtd | lgResc | lgLdc =>
    dsimp only [exec]
    exact s.goesIf_logicCtr ..
  | lgJmp | lgJmpc | lgJmpcn => cases hj
  | _ => cases h

theorem exec_jump_answers (c : Instr) (s : State) (hj : isJump c = true) : (∃ t, exec c s = .next t) ∨ exec c s = .fault .pastProgram := by
  cases c with
  | lgJmp | lgJmpc | lgJmpcn =>
    dsimp only [exec]
    exact s.logicJump_answers ..
  | _ => cases hj

/-- What a command answers: the next state, a refusal of its operands, or, a jump alone, the fault. -/
theorem exec_answers (c : Instr) (s : State) :
    (∃ t, exec c s = .next t) ∨ exec c s = .refused .badOperand ∨ (isJump c = true ∧ exec c s = .fault .pastProgram) := by
  have of_goesIf {p : Prop} (h : Res.GoesIf p (exec c s)) : (∃ t, exec c s = .next t) ∨ exec c s = .refused .badOperand := h.imp_right And.left
  cases hj : isJump c with
  | true => exact (exec_jump_answers c s hj).imp_right fun h => .inr ⟨rfl, h⟩
  | false =>
    refine Or.imp_right .inl ?_
    cases h : hasLogicOperand c with
    | true => exact of_goesIf (exec_goesIf_logic c s h hj)
    | false => exact of_goesIf (exec_goesIf_wf c s h)

end Sys2Proof.Machine

open Sys2Proof Sys2Proof.Machine

/-- Settles O18: a command without a logic operand checks what `wf` checks (`exec_goesIf_wf`), and no command has another way to stop
(`exec_answers`). -/
theorem wellFormedCommandsRun : Obligations.WellFormedCommandsRun := by
  unfold Obligations.WellFormedCommandsRun
  refine ⟨fun c s hwf hop => (exec_goesIf_wf c s hop).resolve_right fun h => h.2 hwf, fun c s f hf => ?fault, fun c s r hr => ?refusal⟩
  case fault =>
    rcases exec_answers c s with ⟨t, h⟩ | h | ⟨hj, h⟩
    · cases hf.symm.trans h
    · cases hf.symm.trans h
    · cases hf.symm.trans h
      exact ⟨hj, rfl⟩
  case refusal =>
    rcases exec_answers c s with ⟨t, h⟩ | h | ⟨_, h⟩
    · cases hr.symm.trans h
    · cases hr.symm.trans h
      rfl
    · cases hr.symm.trans h
end

section
/-!
SUPPORT. One instruction of an open scan (R147, R148): the word where the scan stands runs on the segment's registers and objects, and stays within
them.
-/
namespace Sys2Proof.Machine

/-! ### A run is stored -/

/-- The run goes on with the registers of `sc` that no instruction writes. -/
def LogicRun.Of (sc : ScanSt) (r : LogicRun) : Prop :=
  { r.scan with cr := sc.cr, acc := sc.acc, stack := sc.stack, arith := sc.arith, pc := sc.pc, ended := sc.ended } = sc

theorem LogicRun.of_scan {sc : ScanSt} {r : LogicRun} (h : r.scan = sc) : r.Of sc := by
  unfold LogicRun.Of
  rw [h]

/-- The scan that an instruction leaves behind, at its next place. -/
def LogicRun.scanTo (r : LogicRun) (n pc : Nat) : ScanSt := { r.scan with pc := pc, ended := r.scan.ended || decide (n ≤ pc) }

theorem LogicRun.Of.scanTo {sc : ScanSt} {r : LogicRun} (h : r.Of sc) (n pc : Nat) :
    { r.scanTo n pc with cr := sc.cr, acc := sc.acc, stack := sc.stack, arith := sc.arith, pc := sc.pc, ended := sc.ended } = sc := h

theorem Dev.logicPut_un_self (u pc : Nat) (r : LogicRun) (d : Dev) : (d.logicPut u pc r).un u =
    { d.un u with scan := some (r.scanTo (d.progOf u).length pc), work := { (d.un u).work with objs := r.objs } } := by
  unfold Dev.logicPut
  dsimp only
  split <;> exact Dev.un_setUn_self ..

theorem Dev.logicPut_un_ne {u v : Nat} (h : v ≠ u) (pc : Nat) (r : LogicRun) (d : Dev) : (d.logicPut u pc r).un v = d.un v := by
  unfold Dev.logicPut
  dsimp only
  split <;> exact Dev.un_setUn_ne _ _ h

theorem Dev.logicPut_beside (u pc : Nat) (r : LogicRun) (d : Dev) : { d.logicPut u pc r with units := d.units, regs := d.regs } = d := by
  unfold Dev.logicPut
  dsimp only
  split <;> rfl

theorem Dev.logicPut_rw {u a : Nat} (h : a ≠ R.UNIT_STAT_SAT.addr u 0 0) (pc : Nat) (r : LogicRun) (d : Dev) :
    (d.logicPut u pc r).rw a = d.rw a := by
  unfold Dev.logicPut
  dsimp only
  split
  · exact Dev.rw_wf_ne _ _ h
  · rfl

/-- SAT shows a saturation and is else as it was (R153). -/
theorem Dev.logicPut_sat (u pc : Nat) (r : LogicRun) (d : Dev) :
    (d.logicPut u pc r).rf R.UNIT_STAT_SAT u = if r.sat = true then 1 else d.rf R.UNIT_STAT_SAT u := by
  unfold Dev.logicPut
  dsimp only
  split
  · exact Dev.rf_wf_self ..
  · rfl

/-! ### An instruction completes -/

section Scans

variable {c : Instr} {s : State} {u op : Nat} {sc : ScanSt} {area : Option Nat} {i : Nat} {P : ScanSt → LogicObjs → Prop}

theorem scans_put {pc : Nat} {r : LogicRun} (hrun : exec c s = s.on (Dev.logicPut u pc r)) (hof : r.Of sc)
    (hp : P (r.scanTo (s.dev.progOf u).length pc) r.objs) : Scans c s u sc pc P := by
  refine does_on hrun ⟨Dev.logicPut_beside .., fun v hv => Dev.logicPut_un_ne hv .., fun a ha => Dev.logicPut_rw ha ..,
    r.scanTo (s.dev.progOf u).length pc, ?_⟩
  rw [Dev.logicPut_un_self]
  exact ⟨rfl, rfl, hof.scanTo .., rfl, hp⟩

theorem Dev.scanAt_of_wordIs {d : Dev} (hg : d.scanGoes u = some sc) (hw : d.wordIs u sc.pc op area i = true) :
    d.scanAt u op area i = some sc := by
  unfold Dev.scanAt
  rw [hg]
  exact if_pos hw

variable {ok : LogicEnv → LogicRun → Bool} {f : LogicEnv → LogicRun → LogicRun}

/-- The instruction that the scan meets runs where its operand is one that a loaded program can hold. -/
theorem State.logic_runs (hg : s.dev.scanGoes u = some sc) (hw : s.dev.wordIs u sc.pc op area i = true)
    (hok : ok (s.dev.logicEnv u) (s.dev.logicRun u sc) = true) :
    s.logic u op area i ok f = s.on (Dev.logicPut u (sc.pc + 1) (f (s.dev.logicEnv u) (s.dev.logicRun u sc))) := by
  unfold State.logic
  rw [Dev.scanAt_of_wordIs hg hw]
  exact if_pos hok

theorem scans_logic (hrun : exec c s = s.logic u op area i ok f) (hg : s.dev.scanGoes u = some sc) (hw : s.dev.wordIs u sc.pc op area i = true)
    (hok : ok (s.dev.logicEnv u) (s.dev.logicRun u sc) = true) (hof : (f (s.dev.logicEnv u) (s.dev.logicRun u sc)).Of sc)
    (hp : P ((f (s.dev.logicEnv u) (s.dev.logicRun u sc)).scanTo (s.dev.progOf u).length (sc.pc + 1))
      (f (s.dev.logicEnv u) (s.dev.logicRun u sc)).objs) : Scans c s u sc (sc.pc + 1) P :=
  scans_put (hrun.trans (State.logic_runs hg hw hok)) hof hp

/-- Where no scan can take an instruction, it changes nothing. -/
theorem State.logic_idle (hg : s.dev.scanGoes u = none) : s.logic u op area i ok f = .next s := by
  unfold State.logic Dev.scanAt
  rw [hg]
  rfl

end Scans

/-! ### Instructions on bits (R149, R151) -/

section Bits

variable {c : Instr} {s : State} {u op area i : Nat} {sc : ScanSt}

/-- An instruction that reads a bit x leaves `g CR x` in CR and nothing else changed. -/
theorem scans_bit (g : Bool → Bool → Bool) (hrun : exec c s = s.logicBit u op area i (fun r x => r.setCR (g r.scan.cr x)))
    (hg : s.dev.scanGoes u = some sc) (hok : bitOperandOk area i = true) (hw : s.dev.wordIs u sc.pc op (some area) i = true) :
    Scans c s u sc (sc.pc + 1) (fun y o => y.cr = g sc.cr (rdBit (s.dev.logicEnv u) (s.dev.logicRun u sc) area i) ∧ y.acc = sc.acc ∧
      y.stack = sc.stack ∧ y.arith = sc.arith ∧ o = (s.dev.un u).work.objs) :=
  scans_logic hrun hg hw hok rfl ⟨rfl, rfl, rfl, rfl, rfl⟩

/-- The segment reads its own stored bit where no force and no signal stands for it (R144, R150, R167). -/
theorem rdBit_own {e : LogicEnv} {r : LogicRun} {o : ObjCfg} (hfind : findObj e.cfg 0 i = some o) (hown : o.owner = e.unit)
    (hmap : o.mapTo ≠ 1) (hdir : o.dirSig = none) : rdBit e r 0 i = Tbl.getD false r.objs.bits i := by
  simp [rdBit, rdBV, hfind, hdir, hmap, ownerObjs, hown]

/-- A bit variable holds b, every other bit variable and every word what it held. -/
def BitPut (i : Nat) (b : Bool) (old o : LogicObjs) : Prop :=
  o.words = old.words ∧ Tbl.getD false o.bits i = b ∧ ∀ j, j ≠ i → Tbl.getD false o.bits j = Tbl.getD false old.bits j

/-- One bit of a word variable is b, every other bit and every other variable is as it was. -/
def WordBitPut (i : Nat) (b : Bool) (old o : LogicObjs) : Prop :=
  o.bits = old.bits ∧ (∀ j, j ≠ i / 32 → Tbl.getD 0 o.words j = Tbl.getD 0 old.words j) ∧
    ∀ k, k < 32 → (Tbl.getD 0 o.words (i / 32)).getLsbD k = if k = i % 32 then b else (Tbl.getD 0 old.words (i / 32)).getLsbD k

theorem getLsbD_ofNat_setBits (w : Word) (n : Nat) (b : Bool) {k : Nat} (hk : k < 32) :
    (BitVec.ofNat 32 (setBits w.toNat n 1 (b2n b))).getLsbD k = if k = n then b else w.getLsbD k := by
  rw [BitVec.getLsbD_ofNat, setBits_testBit, decide_eq_true hk, Bool.true_and]
  rcases Nat.lt_trichotomy k n with h | rfl | h
  · rw [if_pos h, if_neg (Nat.ne_of_lt h), BitVec.getLsbD]
  · rw [if_neg (Nat.lt_irrefl k), if_pos (Nat.lt_succ_self k), if_pos rfl, Nat.sub_self]
    cases b <;> rfl
  · rw [if_neg (by omega), if_neg (by omega), if_neg (by omega), BitVec.getLsbD]

theorem wrBit_bit (r : LogicRun) (i : Nat) (b : Bool) : BitPut i b r.objs (wrBit r 0 i b).objs :=
  ⟨rfl, Tbl.getD_put_self .., fun _ hj => Tbl.getD_put_ne _ _ _ hj⟩

theorem wrBit_wordBit (r : LogicRun) (i : Nat) (b : Bool) : WordBitPut i b r.objs (wrBit r 1 i b).objs := by
  refine ⟨rfl, fun j hj => Tbl.getD_put_ne _ _ _ hj, fun k hk => ?_⟩
  refine (congrArg (BitVec.getLsbD · k) (Tbl.getD_put_self ..)).trans ?_
  exact getLsbD_ofNat_setBits _ _ _ hk

/-- A bit write leaves the scan, the timers, the counters and the edge detectors. -/
theorem wrBit_beside (r : LogicRun) (area i : Nat) (b : Bool) : (wrBit r area i b).scan = r.scan ∧
    (wrBit r area i b).objs.timers = r.objs.timers ∧ (wrBit r area i b).objs.ctrs = r.objs.ctrs ∧
    (wrBit r area i b).objs.edges = r.objs.edges := by
  unfold wrBit
  split <;> exact ⟨rfl, rfl, rfl, rfl⟩

theorem area_lt_of_bitWritable {e : LogicEnv} (h : bitWritable e area i = true) : area < 2 := by
  unfold bitWritable at h
  split at h
  · decide
  · decide
  · simp at h

/-- An instruction that writes a bit writes `f CR`, where that is a value. -/
theorem scans_write (f : Bool → Option Bool) (hrun : exec c s = s.logicWr u op area i f) (hg : s.dev.scanGoes u = some sc)
    (hok : bitWritable (s.dev.logicEnv u) area i = true) (hw : s.dev.wordIs u sc.pc op (some area) i = true) :
    let old := (s.dev.un u).work.objs
    Scans c s u sc (sc.pc + 1) (fun y o => y.cr = sc.cr ∧ y.acc = sc.acc ∧ y.stack = sc.stack ∧ o.timers = old.timers ∧ o.ctrs = old.ctrs ∧
      o.edges = old.edges ∧ (f sc.cr = none → o = old) ∧ (∀ b, f sc.cr = some b → area = 0 → BitPut i b old o) ∧
      ∀ b, f sc.cr = some b → area = 1 → WordBitPut i b old o) := by
  have hcr : (s.dev.logicRun u sc).scan.cr = sc.cr := rfl
  cases hf : f sc.cr with
  | none =>
    refine scans_logic hrun hg hw hok ?_ ?_ <;> rw [hcr, hf]
    · exact rfl
    · exact ⟨rfl, rfl, rfl, rfl, rfl, rfl, fun _ => rfl, fun _ h => (nomatch h), fun _ h => nomatch h⟩
  | some b =>
    obtain ⟨hscan, htimers, hctrs, hedges⟩ := wrBit_beside (s.dev.logicRun u sc) area i b
    refine scans_logic hrun hg hw hok ?_ ?_ <;> rw [hcr, hf]
    · exact LogicRun.of_scan hscan
    · refine ⟨(congrArg ScanSt.cr hscan :), (congrArg ScanSt.acc hscan :), (congrArg ScanSt.stack hscan :), htimers, hctrs, hedges,
        fun h => (nomatch h), ?_, ?_⟩
      · rintro _ ⟨⟩ rfl
        exact wrBit_bit ..
      · rintro _ ⟨⟩ rfl
        exact wrBit_wordBit ..

end Bits

end Sys2Proof.Machine

open Sys2Proof Sys2Proof.Machine

/-- Settles O34: the reads put a function of CR and the operand into CR (`scans_bit`), the writes put one of CR into the operand (`scans_write`). -/
theorem logicBits : Obligations.LogicBits := by
  unfold Obligations.LogicBits
  refine ⟨fun s u area i sc hg hok => ?reads, fun s u area i sc hg hok => ?writes⟩
  case reads =>
    refine ⟨scans_bit (fun _ x => x) rfl hg hok, scans_bit (fun _ x => !x) rfl hg hok, scans_bit (fun c x => c && x) rfl hg hok,
      scans_bit (fun c x => c && !x) rfl hg hok, scans_bit (fun c x => c || x) rfl hg hok, scans_bit (fun c x => c || !x) rfl hg hok,
      scans_bit (fun c x => c != x) rfl hg hok, ?xorn, ?always, ?own⟩
    case xorn =>
      intro hw
      have hxorn (x : Bool) : (sc.cr == x) = (sc.cr != !x) := by cases sc.cr <;> cases x <;> rfl
      simp only [hxorn]
      exact scans_bit (fun c x => c != !x) rfl hg hok hw
    case always =>
      rintro rfl rfl
      rfl
    case own =>
      rintro o rfl hfind hown hmap hdir
      exact rdBit_own hfind hown hmap hdir
  case writes =>
    exact ⟨scans_write (fun c => some c) rfl hg hok, scans_write (fun c => some (!c)) rfl hg hok,
      scans_write (fun c => if c then some true else none) rfl hg hok, scans_write (fun c => if c then some false else none) rfl hg hok,
      area_lt_of_bitWritable hok⟩
end

section
/-!
SUPPORT. The stack of the logic scan and its jumps (R151, R152).
-/
namespace Sys2Proof.Machine

section StackAndJumps

variable {c : Instr} {s : State} {u op : Nat} {sc : ScanSt}

/-- A push puts CR with its operator on the stack and loads the operand. -/
theorem scans_push {area i : Nat} (b : PushOp) (hrun : exec c s = s.logicPush u op area i b) (hg : s.dev.scanGoes u = some sc)
    (hok : bitOperandOk area i = true) (hlen : sc.stack.length < 16) (hw : s.dev.wordIs u sc.pc op (some area) i = true) :
    Scans c s u sc (sc.pc + 1) (fun y o => y.cr = rdBit (s.dev.logicEnv u) (s.dev.logicRun u sc) area i ∧ y.acc = sc.acc ∧
      y.stack = (sc.cr, b) :: sc.stack ∧ o = (s.dev.un u).work.objs) :=
  scans_logic hrun hg hw (Bool.and_eq_true_iff.mpr ⟨hok, decide_eq_true hlen⟩) rfl ⟨rfl, rfl, rfl, rfl⟩

/-- An instruction without an operand that leaves the objects. -/
theorem scans_none (ok : LogicRun → Bool) (f : LogicRun → LogicRun) {P : ScanSt → LogicObjs → Prop} (hrun : exec c s = s.logicNone u op ok f)
    (hg : s.dev.scanGoes u = some sc) (hok : ok (s.dev.logicRun u sc) = true) (hof : (f (s.dev.logicRun u sc)).Of sc)
    (hp : P ((f (s.dev.logicRun u sc)).scanTo (s.dev.progOf u).length (sc.pc + 1)) (f (s.dev.logicRun u sc)).objs)
    (hw : s.dev.wordIs u sc.pc op (some 0) 0 = true) : Scans c s u sc (sc.pc + 1) P := scans_logic hrun hg hw hok hof hp

/-- What the closing bracket makes of a run. -/
def LogicRun.popped (r : LogicRun) : LogicRun :=
  match r.scan.stack with
  | (c, op) :: t => { r with scan := { r.scan with stack := t, cr := op.apply c r.scan.cr } }
  | [] => r

theorem LogicRun.popped_eq {r : LogicRun} {b : Bool} {o : PushOp} {rest : List (Bool × PushOp)} (h : r.scan.stack = (b, o) :: rest) :
    r.popped = { r with scan := { r.scan with stack := rest, cr := o.apply b r.scan.cr } } := by
  unfold LogicRun.popped
  rw [h]

theorem execLgPop_eq (u : Nat) (s : State) : exec (.lgPop u) s =
    s.logic u 0x15 (some 0) 0 (fun _ r => !r.scan.stack.isEmpty) (fun _ r => r.popped) := rfl

/-- The closing bracket takes (c, op) off the stack and gives c op CR. -/
theorem scans_pop {b : Bool} {o : PushOp} {rest : List (Bool × PushOp)} (hg : s.dev.scanGoes u = some sc) (hstack : sc.stack = (b, o) :: rest)
    (hw : s.dev.wordIs u sc.pc 0x15 (some 0) 0 = true) : Scans (.lgPop u) s u sc (sc.pc + 1) (fun y x => y.cr = o.apply b sc.cr ∧ y.acc = sc.acc ∧
      y.stack = rest ∧ x = (s.dev.un u).work.objs) := by
  have hs : (s.dev.logicRun u sc).scan.stack = (b, o) :: rest := hstack
  refine scans_logic (execLgPop_eq u s) hg hw ?ok ?of ?run
  case ok => rw [hs]; rfl
  case of => rw [LogicRun.popped_eq hs]; rfl
  case run => rw [LogicRun.popped_eq hs]; exact ⟨rfl, rfl, rfl, rfl⟩

variable {t : Nat} (f : Bool → Bool)

/-- A jump whose target lies ahead goes there where its condition holds, else to the next instruction; behind the last one the scan ends. -/
theorem scans_jump (hrun : exec c s = s.logicJump u op t f) (hg : s.dev.scanGoes u = some sc)
    (ht : sc.pc < t ∧ t < (s.dev.progOf u).length) (hw : s.dev.wordIs u sc.pc op none t = true) :
    Scans c s u sc (if f sc.cr = true then t else sc.pc + 1) (fun y o => y.cr = sc.cr ∧ y.acc = sc.acc ∧ y.stack = sc.stack ∧
      y.ended = (sc.ended || (!f sc.cr && decide ((s.dev.progOf u).length ≤ sc.pc + 1))) ∧ o = (s.dev.un u).work.objs) := by
  have hput : exec c s = s.on (Dev.logicPut u (if f sc.cr = true then t else sc.pc + 1) (s.dev.logicRun u sc)) := by
    rw [hrun, State.logicJump, Dev.scanAt_of_wordIs hg hw]
    exact if_pos ht
  have hended : (!f sc.cr && decide ((s.dev.progOf u).length ≤ sc.pc + 1)) =
      decide ((s.dev.progOf u).length ≤ if f sc.cr = true then t else sc.pc + 1) := by
    cases f sc.cr with
    | true => exact (decide_eq_false (Nat.not_le.mpr ht.2)).symm
    | false => rfl
  refine scans_put hput rfl ⟨rfl, rfl, rfl, ?_, rfl⟩
  rw [hended]
  rfl

/-- A jump to a target that does not lie ahead faults. -/
theorem logicJump_faults (hrun : exec c s = s.logicJump u op t f) (hg : s.dev.scanGoes u = some sc) (ht : ¬ (sc.pc < t ∧ t < (s.dev.progOf u).length))
    (hw : s.dev.wordIs u sc.pc op none t = true) : exec c s = .fault .pastProgram := by
  rw [hrun, State.logicJump, Dev.scanAt_of_wordIs hg hw]
  exact if_neg ht

theorem logicNone_idle {ok : LogicRun → Bool} {f : LogicRun → LogicRun} (hg : s.dev.scanGoes u = none) : s.logicNone u op ok f = .next s :=
  State.logic_idle hg

theorem logicJump_idle {f : Bool → Bool} (hg : s.dev.scanGoes u = none) : s.logicJump u op t f = .next s := by
  unfold State.logicJump Dev.scanAt
  rw [hg]
  rfl

end StackAndJumps

end Sys2Proof.Machine

open Sys2Proof Sys2Proof.Machine

/-- Settles O35: each instruction by what it makes of the scan (`scans_push`, `scans_pop`, `scans_none`, `scans_jump`); a jump back faults
(`logicJump_faults`), and without an open scan nothing happens. -/
theorem logicStackAndJumps : Obligations.LogicStackAndJumps := by
  unfold Obligations.LogicStackAndJumps
  refine ⟨fun s u area i sc hg => ?stack, fun s u t sc hg => ?jumps, fun s u t hg => ?idle⟩
  case stack =>
    refine ⟨fun hok hlen => ?push, fun c op rest hstack hw => ?pop, ?not, ?nop, ?ends⟩
    case not => exact scans_none (fun _ => true) (fun r => r.setCR (!r.scan.cr)) rfl hg rfl rfl ⟨rfl, rfl, rfl, rfl⟩
    case nop => exact scans_none (fun _ => true) id rfl hg rfl rfl ⟨rfl, rfl, rfl, rfl⟩
    case ends =>
      exact scans_none (fun _ => true) (fun r => { r with scan := { r.scan with ended := true } }) rfl hg rfl rfl ⟨rfl, rfl, rfl, rfl⟩
    case push =>
      exact ⟨scans_push .and rfl hg hok hlen, scans_push .andn rfl hg hok hlen, scans_push .or rfl hg hok hlen, scans_push .orn rfl hg hok hlen,
        scans_push .xor rfl hg hok hlen⟩
    case pop =>
      have h := scans_pop hg hstack hw
      cases op <;> exact h
  case jumps =>
    exact ⟨fun ht => ⟨scans_jump (fun _ => true) rfl hg ht, scans_jump (fun c => c) rfl hg ht, scans_jump (fun c => !c) rfl hg ht⟩,
      fun ht => ⟨logicJump_faults (fun _ => true) rfl hg ht, logicJump_faults (fun c => c) rfl hg ht, logicJump_faults (fun c => !c) rfl hg ht⟩⟩
  case idle =>
    dsimp only [exec]
    exact ⟨logicNone_idle hg, logicNone_idle hg, logicNone_idle hg, logicNone_idle hg, logicJump_idle hg, logicJump_idle hg,
      logicJump_idle hg⟩
end

section
/-!
SUPPORT. Signed words: the model's reading of a word is `BitVec.toInt`, its saturation a clamp (R153).
-/
namespace Sys2Proof.Machine

theorem sW_eq_toInt (w : Word) : sW w = w.toInt := by
  rw [BitVec.toInt_eq_toNat_cond]
  unfold sW toS
  rw [Nat.mod_eq_of_lt w.isLt]

theorem sW_bounds (w : Word) : -2 ^ 31 ≤ sW w ∧ sW w < 2 ^ 31 := by
  rw [sW_eq_toInt]
  exact ⟨w.le_toInt, w.toInt_lt⟩

theorem sW_inj {a b : Word} : sW a = sW b ↔ a = b := by
  rw [sW_eq_toInt, sW_eq_toInt]
  exact BitVec.toInt_inj

theorem wS_eq_ofInt (i : Int) : wS i = BitVec.ofInt 32 i := by
  refine BitVec.eq_of_toNat_eq ?_
  rw [BitVec.toNat_ofInt, wS, ofS, BitVec.toNat_ofNat]
  have := Int.emod_lt_of_pos i (b := (2 ^ 32 : Nat)) (by decide)
  omega

/-- A number within the range of a word is read back. -/
theorem sW_wS {i : Int} (h : -2 ^ 31 ≤ i ∧ i < 2 ^ 31) : sW (wS i) = i := by
  rw [sW_eq_toInt, wS_eq_ofInt, BitVec.toInt_ofInt]
  exact Int.bmod_eq_of_le h.1 h.2

theorem clampI_eq {lo hi : Int} (h : lo ≤ hi) (x : Int) : clampI lo hi x = max lo (min hi x) := by
  unfold clampI
  split
  · omega
  · split <;> omega

/-- Saturation holds a number within the range of a word. -/
theorem sW_satW (i : Int) : sW (satW i).w = max (-2 ^ 31) (min (2 ^ 31 - 1) i) := by
  have hw : (satW i).w = wS (max (-2 ^ 31) (min (2 ^ 31 - 1) i)) := congrArg wS (clampI_eq (by decide) i)
  rw [hw]
  exact sW_wS (by omega)

theorem satW_sat (i : Int) : (satW i).sat = decide (max (-2 ^ 31) (min (2 ^ 31 - 1) i) ≠ i) := by
  rw [Bool.eq_iff_iff]
  simp only [satW, Bool.or_eq_true, decide_eq_true_eq]
  simp only [q31Min, q31Max]
  omega

end Sys2Proof.Machine
end

section
/-!
SUPPORT. Timers, edge detectors and counters of a segment (R156 to R158), with a force in Q's place (R167).
-/
namespace Sys2Proof.Machine

/-! ### An object that the segment owns -/

section Objects

/-- The segment owns the object that `o` declares, and no signal stands for it. -/
def LogicEnv.Owns (e : LogicEnv) (k n : Nat) (o : ObjCfg) : Prop := findObj e.cfg k n = some o ∧ o.owner = e.unit ∧ o.mapTo ≠ 1

variable {e : LogicEnv} {n : Nat} {o : ObjCfg}

theorem LogicEnv.Owns.ownsObj {k : Nat} (h : e.Owns k n o) : ownsObj e k n = true := by
  obtain ⟨hfind, hown, hmap⟩ := h
  simp [Machine.ownsObj, hfind, hown, hmap]

theorem LogicEnv.Owns.stTimer (h : e.Owns 2 n o) (r : LogicRun) : stTimer e r n = Tbl.getD o.timer r.objs.timers n := by
  obtain ⟨hfind, hown, -⟩ := h
  simp [Machine.stTimer, hfind, ownerObjs, hown]

theorem LogicEnv.Owns.stCtr (h : e.Owns 3 n o) (r : LogicRun) : stCtr e r n = Tbl.getD o.ctr r.objs.ctrs n := by
  obtain ⟨hfind, hown, -⟩ := h
  simp [Machine.stCtr, hfind, ownerObjs, hown]

/-- What stands for Q of an object: a force on its BOOL signal, else Q itself. -/
def forcedQ (e : LogicEnv) (k n : Nat) (q : Bool) : Bool :=
  match objForce e k n with
  | some (ty, w) => if ty = 1 then decide (w ≠ 0) else q
  | none => q

theorem rdTimer_q (e : LogicEnv) (r : LogicRun) (n : Nat) : (rdTimer e r n).q = forcedQ e 2 n (stTimer e r n).q := by
  unfold rdTimer forcedQ
  cases objForce e 2 n with
  | none => rfl
  | some f =>
    by_cases h : f.1 = 1
    · simp [h]
    · simp [h]

theorem rdCtr_q (e : LogicEnv) (r : LogicRun) (n : Nat) : (rdCtr e r n).q = forcedQ e 3 n (stCtr e r n).q := by
  unfold rdCtr forcedQ
  cases objForce e 3 n with
  | none => rfl
  | some f =>
    by_cases h : f.1 = 1
    · simp [h]
    · simp [h]

end Objects

/-! ### Timers (R156) -/

theorem timerExec_inLast (t : TimerSt) (inp : Bool) : (timerExec t inp).inLast = inp := rfl

/-- TON: Q follows IN once it has been there for PT. -/
theorem timerExec_ton (t : TimerSt) (inp : Bool) :
    let y := timerExec { t with typ := 0 } inp
    y.pt = t.pt ∧ (inp = false → y.et = 0 ∧ y.running = false ∧ y.q = false) ∧
      (inp = true → t.inLast = false → y.et = 0 ∧ y.running = true ∧ y.q = decide (t.pt = 0)) ∧
      (inp = true → t.inLast = true → y.et = t.et ∧ y.running = t.running ∧ y.q = decide (t.pt ≤ t.et)) := by
  cases inp with
  | false => cases t.inLast <;> simp [timerExec]
  | true => cases t.inLast <;> simp [timerExec]

/-- TOF: Q follows IN, and stays for PT after it. -/
theorem timerExec_tof (t : TimerSt) (inp : Bool) :
    let y := timerExec { t with typ := 1 } inp
    y.pt = t.pt ∧ (inp = true → y.et = 0 ∧ y.running = false ∧ y.q = true) ∧
      (inp = false → t.inLast = true → y.et = 0 ∧ y.running = true ∧ y.q = decide (0 < t.pt)) ∧
      (inp = false → t.inLast = false → y.et = t.et ∧ y.running = t.running ∧ y.q = (t.running && decide (t.et < t.pt))) := by
  cases inp with
  | false => cases t.inLast <;> simp [timerExec]
  | true => cases t.inLast <;> simp [timerExec]

/-- TP: a rise of IN starts a pulse of PT, which nothing lengthens. -/
theorem timerExec_tp (t : TimerSt) (inp : Bool) :
    let y := timerExec { t with typ := 2 } inp
    y.pt = t.pt ∧ (inp = true → t.inLast = false → t.running = false → y.et = 0 ∧ y.running = true ∧ y.q = decide (0 < t.pt)) ∧
      (t.running = true → t.et < t.pt → y.et = t.et ∧ y.running = true ∧ y.q = true) ∧
      (t.running = true → t.pt ≤ t.et → y.q = false ∧ (inp = true → y.et = t.pt ∧ y.running = true) ∧ (inp = false → y.running = false)) ∧
      (t.running = false → inp = false ∨ t.inLast = true → y.et = t.et ∧ y.running = false ∧ y.q = false) := by
  cases t.running with
  | true =>
    by_cases he : t.pt ≤ t.et
    · cases inp <;> simp [timerExec, he]
    · simp [timerExec, he, Nat.lt_of_not_le he]
  | false =>
    cases inp with
    | false => simp [timerExec]
    | true =>
      cases t.inLast with
      | true => simp [timerExec]
      | false => by_cases hp : t.pt = 0 <;> simp [timerExec, hp, Nat.pos_of_ne_zero]

/-! ### Counters (R158) -/

/-- CR rises at a counter that has seen it before. -/
def CtrSt.Rise (c : CtrSt) (cr : Bool) : Prop := cr = true ∧ c.primed = true ∧ c.mem = false

/-- CTU and CTD on the counter: one further at a rise of CR, held within the range of a word. -/
def CtrSt.counted (c : CtrSt) (down cr : Bool) : CtrSt :=
  let m := if c.primed then c.mem else cr
  let cv := if cr && !m then (satW (if down then sW c.cv - 1 else sW c.cv + 1)).w else c.cv
  { c with cv := cv, mem := cr, primed := true, q := if down then decide (sW cv ≤ 0) else decide (sW c.pv ≤ sW cv) }

theorem doCount_eq (e : LogicEnv) (down : Bool) (n : Nat) (r : LogicRun) : doCount e down n r =
    (let r' : LogicRun := { r with objs := { r.objs with ctrs := Tbl.put n ((stCtr e r n).counted down r.scan.cr) r.objs.ctrs } }
     r'.setCR (rdCtr e r' n).q) := rfl

theorem CtrSt.counted_rest {c : CtrSt} {cr : Bool} (down : Bool) (h : ¬ c.Rise cr) : (c.counted down cr).cv = c.cv := by
  refine if_neg fun hrise => h ?_
  cases cr with
  | false => exact nomatch hrise
  | true => cases hp : c.primed <;> simp_all [CtrSt.Rise]

theorem CtrSt.counted_rise {c : CtrSt} {cr : Bool} (down : Bool) (h : c.Rise cr) :
    (c.counted down cr).cv = (satW (if down then sW c.cv - 1 else sW c.cv + 1)).w := by
  obtain ⟨rfl, hp, hm⟩ := h
  exact if_pos (by simp [hp, hm])

theorem CtrSt.counted_up {c : CtrSt} {cr : Bool} (h : c.Rise cr) : sW (c.counted false cr).cv = min (sW c.cv + 1) (2 ^ 31 - 1) := by
  have := sW_bounds c.cv
  rw [CtrSt.counted_rise false h, if_neg Bool.false_ne_true, sW_satW]
  omega

theorem CtrSt.counted_down {c : CtrSt} {cr : Bool} (h : c.Rise cr) : sW (c.counted true cr).cv = max (sW c.cv - 1) (-2 ^ 31) := by
  have := sW_bounds c.cv
  rw [CtrSt.counted_rise true h, if_pos rfl, sW_satW]
  omega

/-! ### Edge detectors (R157) -/

/-- The m that an edge detector's rule reads: a force on the detector gives it; a detector not primed takes CR. -/
def edgeM (e : LogicEnv) (n : Nat) (g : EdgeSt) (cr : Bool) : Bool :=
  match objForce e 4 n with
  | some f => decide (f.2 ≠ 0)
  | none => if g.primed then g.m else cr

/-! ### The instructions -/

/-- A counter's instruction has left P of CR and its counter, whose PV stays, and every other object. -/
def CtrLeft (sc : ScanSt) (old : LogicObjs) (n : Nat) (o : ObjCfg) (P : Bool → CtrSt → Prop) (z : ScanSt) (x : LogicObjs) : Prop :=
  z.acc = sc.acc ∧ z.stack = sc.stack ∧ x.bits = old.bits ∧ x.words = old.words ∧ x.timers = old.timers ∧ x.edges = old.edges ∧
    (∀ j d, j ≠ n → Tbl.getD d x.ctrs j = Tbl.getD d old.ctrs j) ∧ P z.cr (Tbl.getD o.ctr x.ctrs n) ∧
    (Tbl.getD o.ctr x.ctrs n).pv = (Tbl.getD o.ctr old.ctrs n).pv

section Instructions

variable {k : Instr} {s : State} {u op n : Nat} {sc : ScanSt} {o : ObjCfg}

/-- A timer's instruction: the timer holds what `timerExec` makes of it, CR its Q or the force in its place. -/
theorem scans_timer {P : Bool → TimerSt → Prop} (typ : Nat) (hrun : exec k s = s.logicTimer op typ u n) (hg : s.dev.scanGoes u = some sc)
    (hn : n < 256) (hown : (s.dev.logicEnv u).Owns 2 n o)
    (hP : let t := Tbl.getD o.timer (s.dev.un u).work.objs.timers n
      let y := timerExec { t with typ := typ } sc.cr
      y.pt = t.pt ∧ P y.q y) (hw : s.dev.wordIs u sc.pc op none n = true) :
    let old := (s.dev.un u).work.objs
    Scans k s u sc (sc.pc + 1) (fun z x => z.acc = sc.acc ∧ z.stack = sc.stack ∧ x.bits = old.bits ∧ x.words = old.words ∧
      x.ctrs = old.ctrs ∧ x.edges = old.edges ∧ (∀ j d, j ≠ n → Tbl.getD d x.timers j = Tbl.getD d old.timers j) ∧
      P (Tbl.getD {} x.timers n).q (Tbl.getD {} x.timers n) ∧ (Tbl.getD {} x.timers n).inLast = sc.cr ∧
      (Tbl.getD {} x.timers n).pt = (Tbl.getD o.timer old.timers n).pt ∧ z.cr = forcedQ (s.dev.logicEnv u) 2 n (Tbl.getD {} x.timers n).q) := by
  intro old
  have ht : stTimer (s.dev.logicEnv u) (s.dev.logicRun u sc) n = Tbl.getD o.timer old.timers n := hown.stTimer _
  have hok : (decide (n < 256) && ownsObj (s.dev.logicEnv u) 2 n) = true := by simp [hn, hown.ownsObj]
  refine scans_logic hrun hg hw hok rfl ⟨rfl, rfl, rfl, rfl, rfl, rfl, fun j d hj => Tbl.getD_put_ne _ _ _ hj, ?_⟩
  obtain ⟨hpt, hP⟩ := hP
  have hself (d : TimerSt) : Tbl.getD d (doTimer (s.dev.logicEnv u) typ n (s.dev.logicRun u sc)).objs.timers n =
      timerExec { Tbl.getD o.timer old.timers n with typ := typ } sc.cr :=
    (Tbl.getD_put_self ..).trans (by rw [ht]; rfl)
  rw [hself]
  refine ⟨hP, rfl, hpt, (rdTimer_q ..).trans (congrArg _ ?_)⟩
  rw [hown.stTimer]
  exact congrArg TimerSt.q (hself _)

/-- A counter's instruction: counters t take the place of the segment's, where they differ in this counter alone. -/
theorem scans_ctr {P : Bool → CtrSt → Prop} {f : LogicEnv → LogicRun → LogicRun} (hrun : exec k s = s.logicCtr op u n f)
    (hg : s.dev.scanGoes u = some sc) (hn : n < 256) (hown : (s.dev.logicEnv u).Owns 3 n o) (cr : Bool) (t : Tbl CtrSt)
    (hf : f (s.dev.logicEnv u) (s.dev.logicRun u sc) = { scan := { sc with cr := cr }, objs := { (s.dev.un u).work.objs with ctrs := t } })
    (hne : ∀ j d, j ≠ n → Tbl.getD d t j = Tbl.getD d (s.dev.un u).work.objs.ctrs j)
    (hP : P cr (Tbl.getD o.ctr t n)) (hpv : (Tbl.getD o.ctr t n).pv = (Tbl.getD o.ctr (s.dev.un u).work.objs.ctrs n).pv)
    (hw : s.dev.wordIs u sc.pc op none n = true) :
    Scans k s u sc (sc.pc + 1) (CtrLeft sc (s.dev.un u).work.objs n o P) := by
  have hok : (decide (n < 256) && ownsObj (s.dev.logicEnv u) 3 n) = true := by simp [hn, hown.ownsObj]
  refine scans_logic hrun hg hw hok ?_ ?_ <;> rw [hf]
  · rfl
  · exact ⟨rfl, rfl, rfl, rfl, rfl, rfl, hne, hP, hpv⟩

/-- CTU and CTD: the counter counts, CR is its Q or the force in its place. -/
theorem scans_count {P : Bool → CtrSt → Prop} (down : Bool) (hrun : exec k s = s.logicCtr op u n (fun e r => doCount e down n r))
    (hg : s.dev.scanGoes u = some sc) (hn : n < 256) (hown : (s.dev.logicEnv u).Owns 3 n o)
    (hP : let y := (Tbl.getD o.ctr (s.dev.un u).work.objs.ctrs n).counted down sc.cr
      P (forcedQ (s.dev.logicEnv u) 3 n y.q) y) (hw : s.dev.wordIs u sc.pc op none n = true) :
    Scans k s u sc (sc.pc + 1) (CtrLeft sc (s.dev.un u).work.objs n o P) := by
  let old := (s.dev.un u).work.objs
  have hself (y : CtrSt) : Tbl.getD o.ctr (Tbl.put n y old.ctrs) n = y := Tbl.getD_put_self ..
  let y := (Tbl.getD o.ctr old.ctrs n).counted down sc.cr
  refine scans_ctr hrun hg hn hown (forcedQ (s.dev.logicEnv u) 3 n y.q) (Tbl.put n y old.ctrs) ?run (fun j d hj => Tbl.getD_put_ne _ _ _ hj) ?holds
    (by rw [hself]; rfl) hw
  case run =>
    have hq (r : LogicRun) : stCtr (s.dev.logicEnv u) r n = Tbl.getD o.ctr r.objs.ctrs n := hown.stCtr r
    rw [doCount_eq]
    dsimp only
    rw [rdCtr_q, hq, hq]
    refine congrArg (LogicRun.setCR _) (congrArg (forcedQ _ 3 n) ?_)
    exact congrArg CtrSt.q (hself y)
  case holds =>
    rw [hself]
    exact hP

/-- RESC and LDC: with CR the counter is set, and CR stays. -/
theorem scans_ctrSet {P : Bool → CtrSt → Prop} (load : Bool) (hrun : exec k s = s.logicCtr op u n (fun e r => doCtrSet e load n r))
    (hg : s.dev.scanGoes u = some sc) (hn : n < 256) (hown : (s.dev.logicEnv u).Owns 3 n o)
    (hP : let c := Tbl.getD o.ctr (s.dev.un u).work.objs.ctrs n
      P sc.cr (if sc.cr = true then { c with cv := if load then c.pv else 0 } else c)) (hw : s.dev.wordIs u sc.pc op none n = true) :
    Scans k s u sc (sc.pc + 1) (CtrLeft sc (s.dev.un u).work.objs n o P) := by
  let old := (s.dev.un u).work.objs
  let c := Tbl.getD o.ctr old.ctrs n
  have hcr : (s.dev.logicRun u sc).scan.cr = sc.cr := rfl
  cases h : sc.cr with
  | false =>
    refine scans_ctr hrun hg hn hown sc.cr old.ctrs ?run (fun _ _ _ => rfl) ?holds rfl hw
    case run => exact if_pos (by rw [hcr, h]; rfl)
    case holds => exact cast (congrArg (P sc.cr) (if_neg (by rw [h]; exact Bool.false_ne_true))) hP
  | true =>
    have hself (y : CtrSt) : Tbl.getD o.ctr (Tbl.put n y old.ctrs) n = y := Tbl.getD_put_self ..
    refine scans_ctr hrun hg hn hown sc.cr (Tbl.put n { c with cv := if load then c.pv else 0 } old.ctrs) ?run
      (fun j d hj => Tbl.getD_put_ne _ _ _ hj) ?holds (by rw [hself]) hw
    case run =>
      refine (if_neg (by rw [hcr, h]; exact Bool.false_ne_true)).trans ?_
      rw [hown.stCtr]
      rfl
    case holds =>
      rw [hself]
      exact cast (congrArg (P sc.cr) (if_pos h)) hP

/-- R_TRIG and F_TRIG: the detector holds CR, CR its edge against m or the force in m's place. -/
theorem scans_edge (falling : Bool) (hrun : exec k s = s.logicEdge op falling u n) (hg : s.dev.scanGoes u = some sc) (hn : n < 256)
    (hown : (s.dev.logicEnv u).Owns 4 n o) (hw : s.dev.wordIs u sc.pc op none n = true) :
    let old := (s.dev.un u).work.objs
    Scans k s u sc (sc.pc + 1) (fun z x => z.acc = sc.acc ∧ z.stack = sc.stack ∧ x.bits = old.bits ∧ x.words = old.words ∧
      x.timers = old.timers ∧ x.ctrs = old.ctrs ∧
      z.cr = (let m := edgeM (s.dev.logicEnv u) n (Tbl.getD {} old.edges n) sc.cr; if falling then !sc.cr && m else sc.cr && !m) ∧
      Tbl.getD {} x.edges n = { m := sc.cr, primed := true } ∧ ∀ j d, j ≠ n → Tbl.getD d x.edges j = Tbl.getD d old.edges j) := by
  have hok : (decide (n < 256) && ownsObj (s.dev.logicEnv u) 4 n) = true := by simp [hn, hown.ownsObj]
  exact scans_logic hrun hg hw hok rfl
    ⟨rfl, rfl, rfl, rfl, rfl, rfl, rfl, Tbl.getD_put_self .., fun j d hj => Tbl.getD_put_ne _ _ _ hj⟩

end Instructions

end Sys2Proof.Machine
end

section
open Sys2Proof Sys2Proof.Machine

/-- Settles O36: a timer holds what `timerExec` makes of it by its type's table, a counter what `CtrSt.counted` makes of it or what it is set to, an edge
detector CR; each leaves every other object. -/
theorem logicObjectInstructions : Obligations.LogicObjectInstructions := by
  unfold Obligations.LogicObjectInstructions
  intro s u n sc o hg hn old owns frc runs t timer c ctr e m edge rise
  have of_timer {op : Nat} {k : Instr} {P : Bool → TimerSt → Prop} (typ : Nat) (hrun : exec k s = s.logicTimer op typ u n) (hown : owns 2)
      (hP : (timerExec { t with typ := typ } sc.cr).pt = t.pt ∧
        P (timerExec { t with typ := typ } sc.cr).q (timerExec { t with typ := typ } sc.cr)) : timer op k P :=
    scans_timer typ hrun hg hn hown hP
  have of_count {op : Nat} {k : Instr} {P : Bool → CtrSt → Prop} (down : Bool)
      (hrun : exec k s = s.logicCtr op u n (fun e r => doCount e down n r)) (hown : owns 3)
      (hP : P (frc 3 (c.counted down sc.cr).q) (c.counted down sc.cr)) : ctr op k P := scans_count down hrun hg hn hown hP
  have of_set {op : Nat} {k : Instr} {P : Bool → CtrSt → Prop} (load : Bool)
      (hrun : exec k s = s.logicCtr op u n (fun e r => doCtrSet e load n r)) (hown : owns 3)
      (hP : P sc.cr (if sc.cr = true then { c with cv := if load then c.pv else 0 } else c)) : ctr op k P := scans_ctrSet load hrun hg hn hown hP
  clear_value timer ctr
  refine ⟨fun hown => ⟨?ton, ?tof, ?tp⟩, fun hown => ⟨?rtrig, ?ftrig⟩, fun hown => ⟨?ctu, ?ctd, ?resc, ?ldc⟩⟩
  case ton => exact of_timer 0 rfl hown (timerExec_ton t sc.cr)
  case tof => exact of_timer 1 rfl hown (timerExec_tof t sc.cr)
  case tp => exact of_timer 2 rfl hown (timerExec_tp t sc.cr)
  case rtrig => exact scans_edge false rfl hg hn hown
  case ftrig => exact scans_edge true rfl hg hn hown
  case ctu => exact of_count false rfl hown ⟨rfl, rfl, rfl, CtrSt.counted_rest false, CtrSt.counted_up⟩
  case ctd => exact of_count true rfl hown ⟨rfl, rfl, rfl, CtrSt.counted_rest true, CtrSt.counted_down⟩
  case resc => exact of_set false rfl hown ⟨rfl, rfl⟩
  case ldc => exact of_set true rfl hown ⟨rfl, rfl⟩
end

section
/-!
SUPPORT. Instructions on words (R150, R151, R153): ACC, the saturating arithmetic, comparisons, shifts and stores.
-/
namespace Sys2Proof.Machine

/-! ### Division (R153) -/

/-- A quotient of words lies within the range of a word, but for −2^31 / −1. -/
theorem tdiv_bounds {a b : Int} (ha : -2 ^ 31 ≤ a ∧ a < 2 ^ 31) (h : ¬ (a = -2 ^ 31 ∧ b = -1)) : -2 ^ 31 ≤ a.tdiv b ∧ a.tdiv b < 2 ^ 31 := by
  have habs : (a.tdiv b).natAbs = a.natAbs / b.natAbs := Int.natAbs_tdiv a b
  by_cases hb : 2 ≤ b.natAbs
  · have hle : a.natAbs / b.natAbs ≤ 2 ^ 31 / 2 := Nat.div_le_div (by omega) hb two_ne_zero
    omega
  · obtain rfl | rfl | rfl : b = 0 ∨ b = 1 ∨ b = -1 := by omega
    · rw [Int.tdiv_zero]
      decide
    · rwa [Int.tdiv_one]
    · rw [Int.tdiv_neg, Int.tdiv_one]
      omega

theorem sW_divW (a b : Word) : sW (divW a b).w = if sW b = 0 then (if 0 < sW a then 2 ^ 31 - 1 else if sW a < 0 then -2 ^ 31 else 0)
    else max (-2 ^ 31) (min (2 ^ 31 - 1) ((sW a).tdiv (sW b))) := by
  unfold divW
  split
  · dsimp only
    split
    · rfl
    · split <;> rfl
  · exact sW_satW _

theorem divW_sat (a b : Word) : (divW a b).sat = decide (sW b = 0 ∨ sW a = -2 ^ 31 ∧ sW b = -1) := by
  unfold divW
  split
  · next h => exact (decide_eq_true (.inl h)).symm
  · next h =>
    rw [satW_sat, decide_eq_decide, or_iff_right h]
    by_cases ho : sW a = -2 ^ 31 ∧ sW b = -1
    · rw [ho.1, ho.2]
      decide
    · have := tdiv_bounds (sW_bounds a) ho
      exact iff_of_false (by omega) ho

/-! ### Immediates (R150) -/

theorem imm23_low {i : Nat} (h : i < 2 ^ 22) : imm23 i = BitVec.ofNat 32 i := by
  have ht : toS 23 i = i := by
    unfold toS
    rw [Nat.mod_eq_of_lt (by omega), if_pos (by omega)]
  rw [imm23, ht, wS_eq_ofInt, BitVec.ofInt_natCast]

theorem imm23_high {i : Nat} (h : 2 ^ 22 ≤ i) (h' : i < 2 ^ 23) : sW (imm23 i) = (i : Int) - 2 ^ 23 := by
  have ht : toS 23 i = (i : Int) - 2 ^ 23 := by
    unfold toS
    rw [Nat.mod_eq_of_lt h', if_neg (by omega)]
    rfl
  rw [imm23, ht]
  exact sW_wS (by omega)

/-! ### The instructions -/

section Words

variable {c : Instr} {s : State} {u op area i : Nat} {sc : ScanSt}

/-- An instruction that puts `g ACC w` into ACC. -/
theorem scans_acc (g : Word → Word → Word) (hrun : exec c s = s.logicWord u op area i (fun r w => r.setACC (g r.scan.acc w)))
    (hg : s.dev.scanGoes u = some sc) (hok : wordOperandOk area i = true) (hw : s.dev.wordIs u sc.pc op (some area) i = true) :
    Scans c s u sc (sc.pc + 1) (fun y o => y.acc = g sc.acc (rdWord (s.dev.logicEnv u) (s.dev.logicRun u sc) area i) ∧ y.cr = sc.cr ∧
      y.stack = sc.stack ∧ y.arith = sc.arith ∧ o = (s.dev.un u).work.objs) :=
  scans_logic hrun hg hw hok rfl ⟨rfl, rfl, rfl, rfl, rfl⟩

/-- An arithmetic instruction puts a saturating result into ACC; a saturation sets ARITH and the unit's SAT. -/
theorem scans_arith (g : Word → Word → Taken) (hrun : exec c s = s.logicWord u op area i (fun r w => r.setSat (g r.scan.acc w)))
    (hg : s.dev.scanGoes u = some sc) (hok : wordOperandOk area i = true) (x : Int) (ov : Bool)
    (hx : sW (g sc.acc (rdWord (s.dev.logicEnv u) (s.dev.logicRun u sc) area i)).w = x)
    (hov : (g sc.acc (rdWord (s.dev.logicEnv u) (s.dev.logicRun u sc) area i)).sat = ov)
    (hw : s.dev.wordIs u sc.pc op (some area) i = true) :
    Scans c s u sc (sc.pc + 1) (fun y o => sW y.acc = x ∧ y.arith = (sc.arith || ov) ∧ y.cr = sc.cr ∧ y.stack = sc.stack ∧
      o = (s.dev.un u).work.objs) ∧
    Does c s (fun d => d.rf R.UNIT_STAT_SAT u = if ov = true then 1 else s.dev.rf R.UNIT_STAT_SAT u) := by
  subst hov
  exact ⟨scans_logic hrun hg hw hok rfl ⟨hx, rfl, rfl, rfl, rfl⟩,
    does_on (hrun.trans (State.logic_runs hg hw hok)) (Dev.logicPut_sat u (sc.pc + 1) _ s.dev)⟩

/-- A comparison puts its truth into CR. -/
theorem scans_cmp (p : Int → Int → Bool) (hrun : exec c s = s.logicCmp u op area i p) (hg : s.dev.scanGoes u = some sc)
    (hok : wordOperandOk area i = true) {b : Bool}
    (hb : p (sW sc.acc) (sW (rdWord (s.dev.logicEnv u) (s.dev.logicRun u sc) area i)) = b) (hw : s.dev.wordIs u sc.pc op (some area) i = true) :
    Scans c s u sc (sc.pc + 1) (fun y o => y.cr = b ∧ y.acc = sc.acc ∧ y.stack = sc.stack ∧ y.arith = sc.arith ∧ o = (s.dev.un u).work.objs) :=
  scans_logic (ok := fun _ _ => wordOperandOk area i) (f := fun e r => r.setCR (p (sW r.scan.acc) (sW (rdWord e r area i)))) hrun hg hw hok rfl
    ⟨hb, rfl, rfl, rfl, rfl⟩

theorem scans_shift {n : Nat} (right : Bool) (hrun : exec c s = s.logicShift u op n right) (hg : s.dev.scanGoes u = some sc) (hn : n < 32)
    (hw : s.dev.wordIs u sc.pc op (some 1) n = true) :
    Scans c s u sc (sc.pc + 1) (fun y o => y.acc = (if right then sc.acc.sshiftRight n else sc.acc <<< n) ∧ y.cr = sc.cr ∧ y.stack = sc.stack ∧
      y.arith = sc.arith ∧ o = (s.dev.un u).work.objs) :=
  scans_logic hrun hg hw (decide_eq_true hn) rfl ⟨rfl, rfl, rfl, rfl, rfl⟩

/-- A word write leaves the scan, the bit variables and the edge detectors. -/
theorem wrWord_beside (e : LogicEnv) (r : LogicRun) (area i : Nat) (w : Word) : (wrWord e r area i w).scan = r.scan ∧
    (wrWord e r area i w).objs.bits = r.objs.bits ∧ (wrWord e r area i w).objs.edges = r.objs.edges := by
  unfold wrWord
  split <;> exact ⟨rfl, rfl, rfl⟩

/-- STW stores ACC in a word variable, in PT of a timer or in PV of a counter. -/
theorem scans_store (hg : s.dev.scanGoes u = some sc) (hok : wordWritable (s.dev.logicEnv u) area i = true)
    (hw : s.dev.wordIs u sc.pc 0x29 (some area) i = true) :
    let old := (s.dev.un u).work.objs
    Scans (.lgStw u area i) s u sc (sc.pc + 1) (fun y o => y.cr = sc.cr ∧ y.acc = sc.acc ∧ o.bits = old.bits ∧ o.edges = old.edges ∧
      (area = 0 → Tbl.getD 0 o.words i = sc.acc ∧ o.timers = old.timers ∧ o.ctrs = old.ctrs ∧
        ∀ j, j ≠ i → Tbl.getD 0 o.words j = Tbl.getD 0 old.words j) ∧
      (area = 3 → (Tbl.getD {} o.timers i).pt = sc.acc.toNat ∧ o.words = old.words ∧ o.ctrs = old.ctrs) ∧
      (area = 5 → (Tbl.getD {} o.ctrs i).pv = sc.acc ∧ o.words = old.words ∧ o.timers = old.timers)) := by
  intro old
  obtain ⟨hscan, hbits, hedges⟩ := wrWord_beside (s.dev.logicEnv u) (s.dev.logicRun u sc) area i sc.acc
  have hrun : exec (.lgStw u area i) s = s.logic u 0x29 (some area) i (fun e _ => wordWritable e area i)
    (fun e r => wrWord e r area i r.scan.acc) := rfl
  refine scans_logic hrun hg hw hok (LogicRun.of_scan hscan)
    ⟨(congrArg ScanSt.cr hscan :), (congrArg ScanSt.acc hscan :), hbits, hedges, ?words, ?timers, ?ctrs⟩
  case words =>
    rintro rfl
    exact ⟨Tbl.getD_put_self .., rfl, rfl, fun j hj => Tbl.getD_put_ne _ _ _ hj⟩
  case timers =>
    rintro rfl
    exact ⟨congrArg TimerSt.pt (Tbl.getD_put_self ..), rfl, rfl⟩
  case ctrs =>
    rintro rfl
    exact ⟨congrArg CtrSt.pv (Tbl.getD_put_self ..), rfl, rfl⟩

end Words

end Sys2Proof.Machine
end

section
open Sys2Proof Sys2Proof.Machine

/-- Settles O37: an instruction is a function of ACC and the operand (`scans_acc`, `scans_arith`, `scans_cmp`); the saturation is a clamp (`sW_satW`), of a
quotient only for −2^31 / −1 (`tdiv_bounds`). -/
theorem logicWords : Obligations.LogicWords := by
  unfold Obligations.LogicWords
  intro s u area i sc hg w a old sat at_ arith acc cmp
  refine ⟨fun hok => ?operand, fun hok hw => scans_store hg hok hw, fun hi => ⟨scans_shift false rfl hg hi, scans_shift true rfl hg hi⟩, ?low, ?high⟩
  case operand =>
    exact ⟨scans_arith (fun a w => satW (sW a + sW w)) rfl hg hok _ _ (sW_satW _) (satW_sat _),
      scans_arith (fun a w => satW (sW a - sW w)) rfl hg hok _ _ (sW_satW _) (satW_sat _),
      scans_arith (fun a w => satW (sW a * sW w)) rfl hg hok _ _ (sW_satW _) (satW_sat _),
      scans_arith divW rfl hg hok _ _ (sW_divW ..) (divW_sat ..),
      scans_acc (fun _ w => w) rfl hg hok, scans_acc (fun a w => a &&& w) rfl hg hok, scans_acc (fun a w => a ||| w) rfl hg hok,
      scans_acc (fun a w => a ^^^ w) rfl hg hok,
      scans_cmp (fun a b => decide (b < a)) rfl hg hok rfl, scans_cmp (fun a b => decide (b ≤ a)) rfl hg hok rfl,
      scans_cmp (fun a b => decide (a = b)) rfl hg hok (decide_eq_decide.mpr sW_inj),
      scans_cmp (fun a b => decide (a ≠ b)) rfl hg hok (decide_eq_decide.mpr (not_congr sW_inj)),
      scans_cmp (fun a b => decide (a ≤ b)) rfl hg hok rfl, scans_cmp (fun a b => decide (a < b)) rfl hg hok rfl⟩
  case low =>
    rintro rfl hi
    exact imm23_low hi
  case high =>
    rintro rfl hi hi'
    exact imm23_high hi hi'
end

section
/-!
SUPPORT. A partition (R142): its segments and its lead depend on the loaded Last and on the units' kinds, so its state is reached through its lead
whatever else changes.
-/
namespace Sys2Proof.Machine

theorem does_regCmd {c : Instr} {s : State} {g : F} {k i : Nat} {f : Dev → Dev} {P : Dev → Prop} (h : exec c s = s.regCmd g k i true f)
    (hk : k < s.dev.present g.blk) (hp : P (f s.dev)) : Does c s P :=
  does_on (h.trans (by simp [State.regCmd, hk])) hp

/-! ### Segments and lead stay (R142) -/

/-- Variant, Last and the units' kinds are the same: so are all partitions. -/
structure Dev.SameParts (d d' : Dev) : Prop where
  variant : d'.variant = d.variant
  last : d'.last = d.last
  kind : ∀ v, (d'.un v).kind = (d.un v).kind
  event : ∀ v, (d'.un v).event = (d.un v).event

theorem Dev.SameParts.partOf {d d' : Dev} (h : d.SameParts d') (v : Nat) : d'.partOf v = d.partOf v := by
  unfold Dev.partOf Dev.kdata Dev.cfg
  rw [h.last]

theorem Dev.SameParts.segs {d d' : Dev} (h : d.SameParts d') (p : Nat) : d'.segs p = d.segs p := by
  have hunits : d'.nUnits = d.nUnits := by rw [Dev.nUnits, Dev.byVariant, h.variant]; rfl
  simp only [Dev.segs, Dev.kindUnits, Dev.unitsWhere, hunits, h.kind, h.partOf]

theorem Dev.SameParts.lead {d d' : Dev} (h : d.SameParts d') (p : Nat) : d'.lead p = d.lead p := by
  simp only [Dev.lead, Dev.cycSegs, h.segs, h.event]

theorem Dev.SameParts.refl (d : Dev) : d.SameParts d := ⟨rfl, rfl, fun _ => rfl, fun _ => rfl⟩

/-- A unit changes in what a partition does not depend on. -/
theorem Dev.SameParts.unUp {d x : Dev} (h : d.SameParts x) (u : Nat) {f : UnitSt → UnitSt} (hf : ∀ y, (f y).kind = y.kind ∧ (f y).event = y.event) :
    d.SameParts (x.unUp u f) := by
  have hun (v : Nat) : ((x.unUp u f).un v).kind = (x.un v).kind ∧ ((x.unUp u f).un v).event = (x.un v).event := by
    by_cases hv : v = u
    · subst hv
      rw [Dev.un_unUp_self]
      exact hf _
    · rw [Dev.un_unUp_ne _ _ hv]
      exact ⟨rfl, rfl⟩
  exact ⟨h.variant, h.last, fun v => (hun v).1.trans (h.kind v), fun v => (hun v).2.trans (h.event v)⟩

theorem Dev.segs_nodup (d : Dev) (p : Nat) : (d.segs p).Nodup := (List.nodup_range.filter _).filter _

/-! ### A partition's state changes -/

section PartUp

variable (p : Nat) (f g : PartSt → PartSt) (d : Dev)

theorem Dev.SameParts.partUp {x : Dev} (h : d.SameParts x) : d.SameParts (x.partUp p f) := h.unUp _ fun _ => ⟨rfl, rfl⟩

theorem Dev.lead_partUp : (d.partUp p f).lead p = d.lead p := (Dev.SameParts.partUp p f d (.refl d)).lead p

@[simp] theorem Dev.partSt_partUp : (d.partUp p f).partSt p = f (d.partSt p) := by
  unfold Dev.partSt
  rw [Dev.lead_partUp]
  exact congrArg (fun x : UnitSt => x.base.part) (Dev.un_unUp_self ..)

theorem Dev.un_partUp_ne {v : Nat} (h : v ≠ d.lead p) : (d.partUp p f).un v = d.un v := Dev.un_unUp_ne _ _ h

/-- A partition's state lies in the units. -/
theorem Dev.partUp_beside {x : Dev} (h : { x with units := d.units } = d) : { x.partUp p f with units := d.units } = d := h

/-- Two changes of a partition's state leave every unit but its lead. -/
theorem Dev.un_partUp_partUp_ne {v : Nat} (h : v ≠ d.lead p) : ((d.partUp p f).partUp p g).un v = d.un v := by
  rw [Dev.un_partUp_ne _ _ _ (by rwa [Dev.lead_partUp]), Dev.un_partUp_ne _ _ _ h]

theorem Dev.base_partUp {α : Type} (q : UnitSem → α) (hq : ∀ m, q { m with part := f m.part } = q m) (v : Nat) :
    q ((d.partUp p f).un v).base = q (d.un v).base := by
  by_cases hv : v = d.lead p
  · subst hv
    exact (congrArg (fun x : UnitSt => q x.base) (Dev.un_unUp_self ..)).trans (hq _)
  · rw [Dev.un_partUp_ne _ _ _ hv]

end PartUp

/-! ### A start (R161, R162) -/

/-- What a start makes of a segment. -/
def UnitSt.startSeg (cfg : PartCfg) (warm : Bool) (v : Nat) (x : UnitSt) : UnitSt :=
  let g (m : UnitSem) : UnitSem := { m with objs := startObjs cfg v warm m.objs, part := { m.part with firstPend := true, resumedPend := false } }
  let y := x.both g
  { y with shown := y.base.objs, scan := none }

/-- The segments of a partition at a start, before its state. -/
def Dev.startSegs (warm : Bool) (p : Nat) (d : Dev) : Dev := (d.segs p).foldl (fun x v => x.unUp v (UnitSt.startSeg (d.partCfg p) warm v)) d

/-- A partition's state at a start. -/
def PartSt.started (strict : Nat) (x : PartSt) : PartSt := { x with st := 1, strict := true, left := strict, scans := 0, stopPend := false }

theorem Dev.partStart_eq (warm : Bool) (p : Nat) (d : Dev) :
    d.partStart warm p = (d.startSegs warm p).partUp p (PartSt.started (d.partCfg p).strictScans) := rfl

/-- Each unit of a list changed once. -/
theorem Dev.un_foldl_unUp (f : Nat → UnitSt → UnitSt) {l : List Nat} (hl : l.Nodup) (d : Dev) (v : Nat) :
    (l.foldl (fun x w => x.unUp w (f w)) d).un v = if v ∈ l then f v (d.un v) else d.un v := by
  induction l generalizing d with
  | nil => rfl
  | cons w l ih =>
    obtain ⟨hw, hl⟩ := List.nodup_cons.mp hl
    rw [List.foldl_cons, ih hl]
    by_cases hv : v = w
    · subst hv
      rw [if_neg hw, if_pos List.mem_cons_self, Dev.un_unUp_self]
    · rw [Dev.un_unUp_ne _ _ hv]
      simp only [List.mem_cons, hv, false_or]

theorem Dev.un_startSegs (warm : Bool) (p : Nat) (d : Dev) (v : Nat) :
    (d.startSegs warm p).un v = if v ∈ d.segs p then UnitSt.startSeg (d.partCfg p) warm v (d.un v) else d.un v :=
  Dev.un_foldl_unUp _ (d.segs_nodup p) d v

theorem Dev.startSegs_beside (warm : Bool) (p : Nat) (d : Dev) : { d.startSegs warm p with units := d.units } = d :=
  foldl_keeps (fun x : Dev => { x with units := d.units } = d) _ _ d rfl fun _ _ _ h => h

theorem Dev.SameParts.startSegs (warm : Bool) (p : Nat) (d : Dev) : d.SameParts (d.startSegs warm p) :=
  foldl_keeps (fun x => d.SameParts x) _ _ d (.refl d) fun _ v _ h => h.unUp v fun _ => ⟨rfl, rfl⟩

/-- A start, with what is noted of it: the partition runs, each of its segments has its first objects and its first scan ahead, and nothing else
changes. -/
theorem Dev.partStart_does (warm : Bool) (p : Nat) (f : PartSt → PartSt) (hf : ∀ x, (f x).firstPend = x.firstPend) (d : Dev) :
    let d' := (d.partStart warm p).partUp p f
    d'.partSt p = f (PartSt.started (d.partCfg p).strictScans ((d.startSegs warm p).partSt p)) ∧ { d' with units := d.units } = d ∧
      (∀ v, v ∉ d.segs p → v ≠ d.lead p → d'.un v = d.un v) ∧
      ∀ v ∈ d.segs p, (d'.un v).base.objs = startObjs (d.partCfg p) v warm (d.un v).base.objs ∧ (d'.un v).base.part.firstPend = true := by
  have hlead : (d.startSegs warm p).lead p = d.lead p := (Dev.SameParts.startSegs warm p d).lead p
  have hself {v : Nat} (hv : v ∈ d.segs p) : (d.startSegs warm p).un v = UnitSt.startSeg (d.partCfg p) warm v (d.un v) := by
    rw [Dev.un_startSegs, if_pos hv]
  rw [Dev.partStart_eq]
  refine ⟨?state, Dev.partUp_beside _ _ _ (Dev.partUp_beside _ _ _ (d.startSegs_beside warm p)), fun v hv hvl => ?other, fun v hv => ⟨?objs, ?first⟩⟩
  case state => rw [Dev.partSt_partUp, Dev.partSt_partUp]
  case other => rw [Dev.un_partUp_partUp_ne _ _ _ _ (by rwa [hlead]), Dev.un_startSegs, if_neg hv]
  case objs =>
    rw [Dev.base_partUp p f _ UnitSem.objs fun _ => rfl, Dev.base_partUp p _ _ UnitSem.objs fun _ => rfl, hself hv]
    rfl
  case first =>
    rw [Dev.base_partUp p f _ (fun m => m.part.firstPend) fun m => hf m.part, Dev.base_partUp p _ _ (fun m => m.part.firstPend) fun _ => rfl, hself hv]
    rfl

/-! ### The commands (R160 to R162) -/

/-- The command writes this number to `UNIT.LG_CMD` of the unit. -/
def WritesPartCmd (s : State) (u cmd : Nat) (c : Instr) : Prop :=
  exec c s = s.regCmd R.UNIT_LG_CMD u 0 true (fun d => (d.partCmd .core u cmd).1)

theorem WritesPartCmd.does {s : State} {u cmd : Nat} {c : Instr} {P : Dev → Prop} {d : Dev} (h : WritesPartCmd s u cmd c) (hu : u < s.dev.nUnits)
    (hd : (s.dev.partCmd .core u cmd).1 = d) (hp : P d) : Does c s P := does_regCmd h hu (by rwa [hd])

/-- The result of a partition's last command is noted (R170). -/
def PartSt.noted (n : Nat) (x : PartSt) : PartSt := { x with lastCmd := n }

@[simp] theorem PartSt.noted_st (n : Nat) (x : PartSt) : (x.noted n).st = x.st := rfl

section PartCmd

variable {w : Writer} {u : Nat} {d : Dev}

/-- A command to a unit that leads no partition is dropped. -/
theorem Dev.partCmd_dropped (cmd : Nat) (h : (d.un u).kind ≠ 2 ∨ d.lead (d.partOf u) ≠ u) :
    (d.partCmd w u cmd).1 = d.wign .unit u w (R.UNIT_LG_CMD.addr u 0 0) := by
  unfold Dev.partCmd
  exact congrArg Prod.fst (if_pos h)

variable (hk : (d.un u).kind = 2) (hl : d.lead (d.partOf u) = u)
include hk hl

theorem Dev.partCmd_start {cmd : Nat} (hc : cmd = 1 ∨ cmd = 2) (hst : (d.partSt (d.partOf u)).st ≠ 1) (hrun : d.running = true) :
    (d.partCmd w u cmd).1 = (d.partStart (decide (cmd = 2)) (d.partOf u)).partUp (d.partOf u) (PartSt.noted 1) := by
  simp only [Dev.partCmd, hk, hl, ne_eq, not_true_eq_false, or_self, if_false]
  rw [if_pos hc, if_pos (by simp [hst, hrun])]
  rfl

/-- A start of a partition that runs, or without a running Last, is only noted as refused. -/
theorem Dev.partCmd_start_refused {cmd : Nat} (hc : cmd = 1 ∨ cmd = 2) (h : (d.partSt (d.partOf u)).st = 1 ∨ d.running = false) :
    (d.partCmd w u cmd).1 = d.partUp (d.partOf u) (PartSt.noted 2) := by
  simp only [Dev.partCmd, hk, hl, ne_eq, not_true_eq_false, or_self, if_false]
  rw [if_pos hc, if_neg (by rcases h with h | h <;> simp [h])]
  rfl

/-- So is every other command to a partition that does not run. -/
theorem Dev.partCmd_refused {cmd : Nat} (hc : ¬ (cmd = 1 ∨ cmd = 2)) (h : (d.partSt (d.partOf u)).st ≠ 1) :
    (d.partCmd w u cmd).1 = d.partUp (d.partOf u) (PartSt.noted 2) := by
  simp only [Dev.partCmd, hk, hl, ne_eq, not_true_eq_false, or_self, if_false]
  rw [if_neg hc]
  simp only [h, if_false, false_and, ite_self]
  rfl

variable (hst : (d.partSt (d.partOf u)).st = 1)
include hst

theorem Dev.partCmd_stop : (d.partCmd w u 3).1 =
    (if d.partCad (d.partOf u) = none then d.partHalt (d.partOf u) 0 none
      else d.partUp (d.partOf u) (fun x => { x with stopPend := true })).partUp (d.partOf u) (PartSt.noted 1) := by
  simp only [Dev.partCmd, hk, hl, hst, ne_eq, not_true_eq_false, or_self, if_false, if_true, Option.isNone_iff_eq_none]
  rfl

theorem Dev.partCmd_testOn : (d.partCmd w u 4).1 =
    (d.partUp (d.partOf u) (fun x => { x with strict := true, test := true })).partUp (d.partOf u) (PartSt.noted 1) := by
  simp only [Dev.partCmd, hk, hl, hst, ne_eq, not_true_eq_false, or_self, if_false, if_true]
  rfl

theorem Dev.partCmd_testOff (ht : (d.partSt (d.partOf u)).test = true) : (d.partCmd w u 5).1 =
    (d.partUp (d.partOf u) (fun x => { x with test := false, strict := true, left := (d.partCfg (d.partOf u)).strictScans })).partUp
      (d.partOf u) (PartSt.noted 1) := by
  simp only [Dev.partCmd, hk, hl, hst, ht, ne_eq, not_true_eq_false, or_self, if_false, if_true]
  rfl

end PartCmd

/-- A halt leaves the partition in the state asked for. -/
theorem Dev.partSt_partHalt (p st : Nat) (now : Option Nat) (d : Dev) : ((d.partHalt p st now).partSt p).st = st := by
  unfold Dev.partHalt
  extract_lets
  rw [Dev.partSt_partUp]

end Sys2Proof.Machine
end

section
open Sys2Proof Sys2Proof.Machine

/-- Settles O33: what each command makes of the device (`Dev.partCmd_start`, `…_refused`, `…_stop`, `…_testOn`, `…_testOff`, `…_dropped`), read through the
lead, which no command changes (`Dev.lead_partUp`). -/
theorem partitionCommands : Obligations.PartitionCommands := by
  unfold Obligations.PartitionCommands
  refine ⟨fun s u c hc hu hno => ?dropped, fun s u hu hk hl => ?taken⟩
  case dropped =>
    obtain ⟨cmd, hrun⟩ : ∃ cmd, WritesPartCmd s u cmd c := by
      rcases hc with rfl | rfl | rfl | rfl | rfl
      exacts [⟨1, rfl⟩, ⟨2, rfl⟩, ⟨3, rfl⟩, ⟨4, rfl⟩, ⟨5, rfl⟩]
    have hdrop := Dev.wign_drops .unit u .core (R.UNIT_LG_CMD.addr u 0 0) s.dev
    exact hrun.does hu (Dev.partCmd_dropped cmd hno) ⟨hdrop.any, hdrop.units, hdrop.raises⟩
  case taken =>
    intro p started refused
    have hne {v : Nat} (hv : v ≠ u) : v ≠ s.dev.lead p := by rwa [hl]
    have starts (cmd : Nat) {c : Instr} (hrun : WritesPartCmd s u cmd c) (hc : cmd = 1 ∨ cmd = 2)
        (hst : (s.dev.partSt p).st ≠ 1) (hr : s.dev.running = true) : started (decide (cmd = 2)) c := by
      refine hrun.does hu (Dev.partCmd_start hk hl hc hst hr) ?_
      obtain ⟨hstate, hbeside, hother, hseg⟩ := s.dev.partStart_does (decide (cmd = 2)) p (PartSt.noted 1) fun _ => rfl
      rw [hstate]
      exact ⟨rfl, rfl, rfl, rfl, rfl, hbeside, fun v hv hvu => hother v hv (hne hvu), hseg⟩
    have refuses (cmd : Nat) {c : Instr} (hrun : WritesPartCmd s u cmd c)
        (h : (s.dev.partCmd .core u cmd).1 = s.dev.partUp p (PartSt.noted 2)) : refused c := by
      refine hrun.does hu h ⟨?_, ?_, fun v hv => Dev.un_partUp_ne _ _ _ (hne hv), rfl⟩
      all_goals rw [Dev.partSt_partUp]; rfl
    refine ⟨fun hst hr => ⟨starts 1 rfl (.inl rfl) hst hr, starts 2 rfl (.inr rfl) hst hr⟩, fun h => ⟨?cold, ?warm⟩, fun hst => ?stop,
      fun hst => ?testOn, fun hst ht => ?testOff, fun h => ⟨?noStop, ?noTestOn, ?noTestOff⟩⟩
    case cold => exact refuses 1 rfl (Dev.partCmd_start_refused hk hl (.inl rfl) h)
    case warm => exact refuses 2 rfl (Dev.partCmd_start_refused hk hl (.inr rfl) h)
    case noStop => exact refuses 3 rfl (Dev.partCmd_refused hk hl (by decide) h)
    case noTestOn => exact refuses 4 rfl (Dev.partCmd_refused hk hl (by decide) h)
    case noTestOff => exact refuses 5 rfl (Dev.partCmd_refused hk hl (by decide) h)
    case stop =>
      refine WritesPartCmd.does (cmd := 3) rfl hu (Dev.partCmd_stop hk hl hst) ⟨by rw [Dev.partSt_partUp]; rfl, ?_⟩
      split
      · rw [Dev.partSt_partUp]
        exact (PartSt.noted_st ..).trans (Dev.partSt_partHalt ..)
      · rw [Dev.partSt_partUp, Dev.partSt_partUp]
        exact ⟨hst, rfl⟩
    case testOn =>
      refine WritesPartCmd.does (cmd := 4) rfl hu (Dev.partCmd_testOn hk hl hst)
        ⟨?_, ?_, ?_, fun v hv => Dev.un_partUp_partUp_ne _ _ _ _ (hne hv)⟩
      all_goals rw [Dev.partSt_partUp, Dev.partSt_partUp]; rfl
    case testOff =>
      refine WritesPartCmd.does (cmd := 5) rfl hu (Dev.partCmd_testOff hk hl hst ht)
        ⟨?_, ?_, ?_, ?_, fun v hv => Dev.un_partUp_partUp_ne _ _ _ _ (hne hv)⟩
      all_goals rw [Dev.partSt_partUp, Dev.partSt_partUp]; rfl
end

section
/-!
SUPPORT. The force table (R166, R168, R171): the prepared entry in the registers, a change at once or held, the mirror of a segment.
-/
namespace Sys2Proof.Machine

theorem Tbl.get?_del_ne {α : Type} {k j : Nat} (t : Tbl α) (h : j ≠ k) : Tbl.get? (Tbl.del k t) j = Tbl.get? t j := by
  induction t with
  | nil => rfl
  | cons e t ih =>
    obtain ⟨k', v'⟩ := e
    by_cases h' : k' = k
    · subst h'
      simp_all [Tbl.del, Tbl.get?, Ne.symm h]
    · simp_all [Tbl.del, Tbl.get?]

/-! ### The prepared entry (R171) -/

/-- A field written leaves what lies beside the registers. -/
theorem Dev.wf_beside {x d : Dev} (h : { x with regs := d.regs } = d) (g : F) (v k i j : Nat) : { x.wf g v k i j with regs := d.regs } = d := h

/-- The fields of the prepared entry beside the selector. -/
def Dev.frcShow (id typ cls val : Nat) (d : Dev) : Dev :=
  (((d.wf R.SYS_FRC_ID_SIGID id).wf R.SYS_FRC_ID_TYPE typ).wf R.SYS_FRC_ID_WCLASS cls).wf R.SYS_FRC_VAL_VAL val

section FrcShow

variable (id typ cls val : Nat) (d : Dev)

theorem Dev.frcShow_sel : (d.frcShow id typ cls val).frcSel = d.frcSel := by
  unfold Dev.frcShow Dev.frcSel
  rw [Dev.rf_wf_word _ _ (by decide), Dev.rf_wf_word _ _ (by decide), Dev.rf_wf_word _ _ (by decide), Dev.rf_wf_word _ _ (by decide)]

theorem Dev.frcShow_beside {x : Dev} (h : { x with regs := d.regs } = d) : { x.frcShow id typ cls val with regs := d.regs } = d :=
  Dev.wf_beside (Dev.wf_beside (Dev.wf_beside (Dev.wf_beside h _ _ _ _ _) _ _ _ _ _) _ _ _ _ _) _ _ _ _ _

theorem Dev.frcShow_val : (d.frcShow id typ cls val).rf R.SYS_FRC_VAL_VAL = val % 2 ^ 32 := Dev.rf_wf_self ..

theorem Dev.frcShow_typ : (d.frcShow id typ cls val).rf R.SYS_FRC_ID_TYPE = typ % 2 ^ 2 := by
  unfold Dev.frcShow
  rw [Dev.rf_wf_word _ _ (by decide), Dev.rf_wf_beside (f := R.SYS_FRC_ID_WCLASS) (g := R.SYS_FRC_ID_TYPE) _ _ rfl (by decide)]
  exact Dev.rf_wf_self ..

theorem Dev.frcShow_id : (d.frcShow id typ cls val).rf R.SYS_FRC_ID_SIGID = id % 2 ^ 20 := by
  unfold Dev.frcShow
  rw [Dev.rf_wf_word _ _ (by decide), Dev.rf_wf_beside (f := R.SYS_FRC_ID_WCLASS) (g := R.SYS_FRC_ID_SIGID) _ _ rfl (by decide),
    Dev.rf_wf_beside (f := R.SYS_FRC_ID_TYPE) (g := R.SYS_FRC_ID_SIGID) _ _ rfl (by decide)]
  exact Dev.rf_wf_self ..

end FrcShow

theorem Dev.frcSel_wf (w : Nat) (d : Dev) : (d.wf R.SYS_FRC_SEL_ENTRY w).frcSel = w % 2 ^ 10 := Dev.rf_wf_self ..

theorem Dev.frcLoad_some {w : Nat} {d : Dev} {e : ForceEnt} (h : Tbl.get? d.force (w % 2 ^ 10) = some e) :
    d.frcLoad w = (d.wf R.SYS_FRC_SEL_ENTRY w).frcShow e.id (e.kind % 4) (e.kind / 4) e.val.toNat := by
  unfold Dev.frcLoad
  dsimp only
  rw [Dev.frcSel_wf, Dev.wf_force, h]
  rfl

theorem Dev.frcLoad_none {w : Nat} {d : Dev} (h : Tbl.get? d.force (w % 2 ^ 10) = none) :
    d.frcLoad w = (d.wf R.SYS_FRC_SEL_ENTRY w).frcShow 0 0 0 0 := by
  unfold Dev.frcLoad
  dsimp only
  rw [Dev.frcSel_wf, Dev.wf_force, h]
  rfl

theorem Dev.frcLoad_sel (w : Nat) (d : Dev) : (d.frcLoad w).frcSel = w % 2 ^ 10 := by
  cases h : Tbl.get? d.force (w % 2 ^ 10) with
  | none => rw [Dev.frcLoad_none h, Dev.frcShow_sel, Dev.frcSel_wf]
  | some e => rw [Dev.frcLoad_some h, Dev.frcShow_sel, Dev.frcSel_wf]

theorem Dev.frcLoad_beside (w : Nat) (d : Dev) : { d.frcLoad w with regs := d.regs } = d := by
  have hsel : { d.wf R.SYS_FRC_SEL_ENTRY w with regs := d.regs } = d := rfl
  cases h : Tbl.get? d.force (w % 2 ^ 10) with
  | none => rw [Dev.frcLoad_none h]; exact Dev.frcShow_beside _ _ _ _ _ hsel
  | some e => rw [Dev.frcLoad_some h]; exact Dev.frcShow_beside _ _ _ _ _ hsel

/-- A refused SET says so, with its reason. -/
theorem Dev.frcRefused (why : Nat) (d : Dev) :
    let d' := (d.wf R.SYS_FRC_CTL_REFUSED 1).wf R.SYS_FRC_CTL_WHY why
    d'.rf R.SYS_FRC_CTL_REFUSED = 1 ∧ d'.rf R.SYS_FRC_CTL_WHY = why % 2 ^ 3 ∧ { d' with regs := d.regs } = d :=
  ⟨by rw [Dev.rf_wf_beside (f := R.SYS_FRC_CTL_WHY) (g := R.SYS_FRC_CTL_REFUSED) _ _ rfl (by decide)]; exact Dev.rf_wf_self .., Dev.rf_wf_self .., rfl⟩

theorem Dev.frcWhy_lt (d : Dev) (idx id kind : Nat) : d.frcWhy idx id kind < 8 := by
  unfold Dev.frcWhy
  split
  · decide
  · split
    · decide
    · split
      · decide
      · split <;> decide

/-! ### An operation of the table (R168) -/

theorem Dev.forceOp_held {idx id u : Nat} {e : Option ForceEnt} {d : Dev} (h : d.objOwner id = some u) :
    d.forceOp idx id e = { d with forcePend := d.forcePend ++ [{ idx := idx, ent := e, unit := u }] } := by
  unfold Dev.forceOp
  rw [h]

theorem Dev.forceOp_now {idx id : Nat} {e : Option ForceEnt} {d : Dev} (h : d.objOwner id = none) :
    d.forceOp idx id e = d.forceCommit idx e := by
  unfold Dev.forceOp
  rw [h]

/-- The table after an operation. -/
def forceTable (idx : Nat) (e : Option ForceEnt) (t : Tbl ForceEnt) : Tbl ForceEnt :=
  match e with
  | some x => Tbl.put idx x t
  | none => Tbl.del idx t

/-- Without a partner to copy to an operation changes the table alone. -/
theorem Dev.forceCommit_alone {d : Dev} (h : d.copies = false) (idx : Nat) (e : Option ForceEnt) :
    d.forceCommit idx e = d.setForce (forceTable idx e d.force) := by
  have hc (f : Tbl ForceEnt) : (d.setForce f).copies = false := h
  unfold Dev.forceCommit
  dsimp only
  rw [if_neg (by rw [hc]; exact Bool.false_ne_true)]
  cases e <;> rfl

theorem get?_forceTable_self (idx : Nat) (e : Option ForceEnt) (t : Tbl ForceEnt) : Tbl.get? (forceTable idx e t) idx = e := by
  cases e with
  | none => exact Tbl.get?_del_self ..
  | some x => exact Tbl.get?_put_self ..

theorem get?_forceTable_ne {idx k : Nat} (h : k ≠ idx) (e : Option ForceEnt) (t : Tbl ForceEnt) :
    Tbl.get? (forceTable idx e t) k = Tbl.get? t k := by
  cases e with
  | none => exact Tbl.get?_del_ne t h
  | some x => exact Tbl.get?_put_ne x t h

/-! ### FORCE_COMMIT (R168) -/

/-- A tile written changes its tag in the registers, and no more of the device. -/
theorem Dev.tileWrite_beside (t : Nat) (bs : List Byte) (dirty : Bool) (dm : Dev × List Host.Cell) :
    { (Dev.tileWrite t bs dirty dm).1 with regs := dm.1.regs } = dm.1 := by
  have htag : { (dm.1.wf R.CLUS_TAGLO_CRC (crc32c bs) (t / 512) (t % 512)).wf R.CLUS_TAGHI_PENDING 1 (t / 512) (t % 512) with regs := dm.1.regs } = dm.1 :=
    Dev.wf_beside (Dev.wf_beside rfl ..) ..
  cases dirty with
  | true => exact Dev.wf_beside htag ..
  | false => exact htag

/-- The mirror of a segment is its first WRITABLE tile: nothing else of memory changes, and of the device the tile's tag alone. -/
theorem Dev.mirror_does (u : Nat) (d : Dev) (m : List Host.Cell) :
    { (Dev.mirror u (d, m)).1 with regs := d.regs } = d ∧
      (∀ t, (d.un u).tiles.find? (fun t => decide (t.cls = 2)) = some t →
        ∀ x, x < tileAddr t.ptile ∨ tileAddr t.ptile + 1024 ≤ x → memGet (Dev.mirror u (d, m)).2 x = memGet m x) ∧
      ((d.un u).tiles.find? (fun t => decide (t.cls = 2)) = none → (Dev.mirror u (d, m)).2 = m) := by
  unfold Dev.mirror
  dsimp only
  split
  · next t ht =>
    rw [ht]
    refine ⟨Dev.tileWrite_beside .., fun t' h x hx => ?_, fun h => nomatch h⟩
    cases h
    exact Dev.tileWrite_mem_out (length_slice ..) true _ hx
  · next hnone =>
    rw [hnone]
    exact ⟨rfl, fun _ h => (nomatch h), fun _ => rfl⟩

/-- The oldest held operation whose segment is idle is carried out. -/
theorem Dev.forceApply_first {d : Dev} {a b : List ForcePend} {p : ForcePend} (m : List Host.Cell) (hpend : d.forcePend = a ++ p :: b)
    (ha : ∀ x ∈ a, (d.un x.unit).run ≠ 0) (hp : (d.un p.unit).run = 0) :
    Dev.forceApply (d, m) = Dev.mirror p.unit (({ d with forcePend := a ++ b } : Dev).forceCommit p.idx p.ent, m) := by
  have hfind : d.forcePend.find? (fun p => decide ((d.un p.unit).run = 0)) = some p := by
    rw [hpend, List.find?_append, List.find?_eq_none.mpr fun x hx => by simpa using ha x hx, List.find?_cons_of_pos (by simpa using hp)]
    rfl
  have herase : d.forcePend.erase p = a ++ b := by
    rw [hpend, List.erase_append_right _ fun hmem => ha p hmem hp, List.erase_cons_head]
  unfold Dev.forceApply
  dsimp only
  rw [hfind]
  dsimp only
  rw [herase]

theorem Dev.forceApply_none {d : Dev} (m : List Host.Cell) (h : ∀ x ∈ d.forcePend, (d.un x.unit).run ≠ 0) :
    Dev.forceApply (d, m) = (d, m) := by
  unfold Dev.forceApply
  dsimp only
  rw [List.find?_eq_none.mpr fun x hx => by simpa using h x hx]

end Sys2Proof.Machine
end

section
open Sys2Proof Sys2Proof.Machine

/-- Settles O32: the selector shows an entry (`Dev.frcLoad_some`, `Dev.frcLoad_none`), a SET or REMOVE changes the table or is held (`Dev.forceOp_now`,
`Dev.forceOp_held`), and FORCE_COMMIT takes the first operation that can be taken (`Dev.forceApply_first`). -/
theorem forces : Obligations.Forces := by
  unfold Obligations.Forces
  intro s w hcop idx id kind ent
  refine ⟨?select, fun hstand hwhy => ?set, fun hstand hwhy => ?refused, fun hstand => ?standby, fun e he => ?remove, fun a p b hpend ha hp => ?commit,
    fun h => ?idle⟩
  case select =>
    refine does_on (f := Dev.frcLoad w.toNat) rfl
      ⟨(Dev.frcLoad_sel ..).trans (by rw [bitsOf, Nat.shiftRight_zero]), Dev.frcLoad_beside .., fun e he => ?_, fun hnone => ?_⟩
    · rw [Dev.frcLoad_sel] at he
      rw [Dev.frcLoad_some he, Dev.frcShow_val, Dev.frcShow_typ]
      exact ⟨Nat.mod_eq_of_lt e.val.isLt, Nat.mod_mod ..⟩
    · rw [Dev.frcLoad_sel] at hnone
      rw [Dev.frcLoad_none hnone, Dev.frcShow_val, Dev.frcShow_id]
      exact ⟨rfl, rfl⟩
  case set =>
    have hset : s.dev.frcSet.1 = s.dev.forceOp idx id (some ent) := by
      unfold Dev.frcSet
      dsimp only
      rw [if_neg (by rw [hstand]; exact Bool.false_ne_true), if_neg (not_not.mpr hwhy)]
    refine does_on (f := fun d => d.frcSet.1) rfl ⟨fun hno => ?_, fun u hu => ?_⟩
    · rw [hset, Dev.forceOp_now hno, Dev.forceCommit_alone hcop]
      exact ⟨rfl, rfl⟩
    · rw [hset, Dev.forceOp_held hu]
      exact ⟨rfl, rfl⟩
  case refused =>
    have hset : s.dev.frcSet.1 = (s.dev.wf R.SYS_FRC_CTL_REFUSED 1).wf R.SYS_FRC_CTL_WHY (s.dev.frcWhy idx id kind) := by
      unfold Dev.frcSet
      dsimp only
      rw [if_neg (by rw [hstand]; exact Bool.false_ne_true), if_pos hwhy]
    obtain ⟨hrefused, hreason, hrest⟩ := Dev.frcRefused (s.dev.frcWhy idx id kind) s.dev
    refine does_on (f := fun d => d.frcSet.1) rfl ?_
    rw [hset]
    exact ⟨hrefused, hreason.trans (Nat.mod_eq_of_lt (Dev.frcWhy_lt ..)), hrest⟩
  case standby =>
    have hset : s.dev.frcSet.1 = (s.dev.wf R.SYS_FRC_CTL_REFUSED 1).wf R.SYS_FRC_CTL_WHY 0 := by
      unfold Dev.frcSet
      dsimp only
      rw [if_pos hstand]
    obtain ⟨hrefused, -, hrest⟩ := Dev.frcRefused 0 s.dev
    refine does_on (f := fun d => d.frcSet.1) rfl ?_
    rw [hset]
    exact ⟨hrefused, hrest⟩
  case remove =>
    have hremove : s.dev.frcRemove = s.dev.forceOp idx e.id none := by
      unfold Dev.frcRemove
      rw [he]
    refine does_on (f := Dev.frcRemove) rfl ⟨fun hno => ?_, fun u hu => ?_⟩
    · rw [hremove, Dev.forceOp_now hno, Dev.forceCommit_alone hcop]
      exact ⟨get?_forceTable_self idx none s.dev.force, fun k hk => get?_forceTable_ne hk none s.dev.force⟩
    · rw [hremove, Dev.forceOp_held hu]
      exact ⟨rfl, rfl⟩
  case commit =>
    have hcop' : ({ s.dev with forcePend := a ++ b } : Dev).copies = false := hcop
    obtain ⟨hrest, hin, hout⟩ := Dev.mirror_does p.unit (({ s.dev with forcePend := a ++ b } : Dev).setForce (forceTable p.idx p.ent s.dev.force)) s.mem
    refine does_onMem (f := fun d m => Dev.forceApply (d, m)) rfl ?_
    rw [Dev.forceApply_first s.mem hpend ha hp, Dev.forceCommit_alone hcop']
    generalize Dev.mirror p.unit _ = r at hrest hin hout ⊢
    have hforce := congrArg Dev.force hrest
    refine ⟨(congrArg Dev.forcePend hrest :), ?_, fun k hk => ?_, ?_, hin, hout⟩
    · exact (congrArg (Tbl.get? · p.idx) hforce).trans (get?_forceTable_self ..)
    · exact (congrArg (Tbl.get? · k) hforce).trans (get?_forceTable_ne hk ..)
    · exact congrArg (fun d : Dev => { d with force := s.dev.force, forceOld := s.dev.forceOld, forcePend := s.dev.forcePend }) hrest
  case idle =>
    refine does_onMem (f := fun d m => Dev.forceApply (d, m)) rfl ?_
    rw [Dev.forceApply_none s.mem h]
    exact ⟨rfl, rfl⟩
end

section
/-!
SUPPORT. A step generator's pulse, the display of a chopper channel, and how the on and off times of its phases end (R191 to R193).
-/
namespace Sys2Proof.Machine

/-! ### Step generators (R191) -/

/-- A position of 32 bits that is counted on or back by one wraps. -/
theorem ofS_toS_step (n : Nat) (down : Bool) :
    ofS 32 (toS 32 n + if down = true then -1 else 1) = (n + if down = true then 2 ^ 32 - 1 else 1) % 2 ^ 32 := by
  unfold ofS toS
  cases down <;> simp only [Bool.false_eq_true, if_false, if_true] <;> split <;> omega

theorem Dev.stepPulse_left {g : Nat} {d : Dev} (h : 0 < (d.step g).left) : d.stepPulse g =
    ({ d with steps := Tbl.put g { d.step g with left := (d.step g).left - 1 } d.steps } : Dev).wf R.DIO_SGn_POS_STEPS
      ((d.rf R.DIO_SGn_POS_STEPS 0 g + if (d.step g).down = true then 2 ^ 32 - 1 else 1) % 2 ^ 32) 0 g := by
  rw [← ofS_toS_step]
  exact if_neg (Nat.ne_of_gt h)

/-! ### What a channel shows (R192) -/

@[simp] theorem Dev.chop_setChop_self (c : Nat) (x : ChopSt) (d : Dev) : (d.setChop c x).chop c = x := Tbl.getD_put_self ..

theorem Dev.chop_setChop_ne {c j : Nat} (h : j ≠ c) (x : ChopSt) (d : Dev) : (d.setChop c x).chop j = d.chop j := Tbl.getD_put_ne _ _ _ h

/-- Beside the channels and the registers, writing a channel or a field leaves everything. -/
theorem Dev.rest_setChop (c : Nat) (x : ChopSt) (d e : Dev) :
    ({ d.setChop c x with chops := e.chops, regs := e.regs } : Dev) = { d with chops := e.chops, regs := e.regs } := rfl

theorem Dev.rest_wf (f : F) (v : Nat) (d e : Dev) (k i j : Nat) :
    ({ d.wf f v k i j with chops := e.chops, regs := e.regs } : Dev) = { d with chops := e.chops, regs := e.regs } := rfl

/-- A channel shows two codes. -/
def Dev.showCodes (c ca cb : Nat) (d : Dev) : Dev := (d.wf R.CHOP_CH_STAT_DAC_A ca 0 c).wf R.CHOP_CH_STAT_DAC_B cb 0 c

section Codes

variable (c ca cb : Nat) (d : Dev)

theorem Dev.rf_showCodes_a : (d.showCodes c ca cb).rf R.CHOP_CH_STAT_DAC_A 0 c = ca % 2 ^ 8 :=
  (Dev.rf_wf_beside (f := R.CHOP_CH_STAT_DAC_B) (g := R.CHOP_CH_STAT_DAC_A) _ _ rfl (by decide)).trans (Dev.rf_wf_self ..)

theorem Dev.rf_showCodes_b : (d.showCodes c ca cb).rf R.CHOP_CH_STAT_DAC_B 0 c = cb % 2 ^ 8 := Dev.rf_wf_self ..

theorem Dev.rf_showCodes_idx : (d.showCodes c ca cb).rf R.CHOP_CH_STAT_IDX 0 c = d.rf R.CHOP_CH_STAT_IDX 0 c :=
  (Dev.rf_wf_beside (f := R.CHOP_CH_STAT_DAC_B) (g := R.CHOP_CH_STAT_IDX) _ _ rfl (by decide)).trans
    (Dev.rf_wf_beside (f := R.CHOP_CH_STAT_DAC_A) (g := R.CHOP_CH_STAT_IDX) _ _ rfl (by decide))

theorem Dev.chop_showCodes (j : Nat) : (d.showCodes c ca cb).chop j = d.chop j := by
  unfold Dev.chop Dev.showCodes
  rw [Dev.wf_chops, Dev.wf_chops]

theorem Dev.rest_showCodes (e : Dev) :
    ({ d.showCodes c ca cb with chops := e.chops, regs := e.regs } : Dev) = { d with chops := e.chops, regs := e.regs } :=
  (Dev.rest_wf _ _ _ e _ _ _).trans (Dev.rest_wf _ _ d e _ _ _)

end Codes

/-- Showing a channel leaves one that is not assigned and otherwise writes its state and the two codes. -/
theorem Dev.chopShow_shows (c : Nat) (d : Dev) : d.chopShow c = d ∨ ∃ x ca cb, d.chopShow c = (d.setChop c x).showCodes c ca cb := by
  by_cases hused : (!(d.chop c).used) = true
  · exact .inl (if_pos hused)
  · exact .inr ⟨_, _, _, if_neg hused⟩

theorem Dev.chopShow_units (c : Nat) (d : Dev) : (d.chopShow c).units = d.units := by
  rcases d.chopShow_shows c with h | ⟨x, ca, cb, h⟩
  · rw [h]
  · rw [h, Dev.showCodes, Dev.wf_units, Dev.wf_units]
    rfl

/-- A channel that its axis has enabled, with no safe value in force, shows the codes of its index. -/
theorem Dev.chopShow_enabled {c : Nat} {d : Dev} (hused : (d.chop c).used = true) (hon : (d.chop c).on = true) (hsafe : (d.chop c).safeV = false) :
    let code (i : Nat) : Nat := chopCode (d.rf R.CHOP_CH_CUR_RUN 0 c) (d.rf R.CHOP_CH_CUR_HOLD 0 c) (d.chop c).mix i
    let idx := d.rf R.CHOP_CH_STAT_IDX 0 c
    ∃ a b, d.chopShow c = (d.setChop c { d.chop c with a := a, b := b }).showCodes c (code idx) (code (idx + 256)) := by
  have hshow : d.chopShow c = _ := if_neg (by rw [hused]; exact Bool.false_ne_true)
  have hoff : (!(d.chop c).on || (d.chop c).safeV && d.flag R.CHOP_CH_CFG_SAFEOFF 0 c) = false := by rw [hon, hsafe]; rfl
  simp only [hoff, Bool.false_eq_true, if_false] at hshow
  exact ⟨_, _, hshow⟩

/-- With no share of HOLD the current scale is RUN. -/
theorem chopCode_run (run hold idx : Nat) : chopCode run hold 0 idx = (2 * run * absSin idx + 2 ^ 60) / 2 ^ 61 := by
  unfold chopCode
  generalize absSin idx = x
  rw [show 2 * (run * (16 - 0) + hold * 0) * x + 16 * 2 ^ 60 = 16 * (2 * run * x + 2 ^ 60) by ring, show 32 * 2 ^ 60 = 16 * 2 ^ 61 by norm_num,
    Nat.mul_div_mul_left _ _ (by norm_num)]

/-! ### Microsteps (R192) -/

/-- A channel's index one microstep on. -/
def Dev.nextIdx (d : Dev) (c : Nat) : Nat :=
  let idx := d.rf R.CHOP_CH_STAT_IDX 0 c
  let inc := 256 / 2 ^ d.rf R.CHOP_CH_CFG_MRES 0 c
  (if (d.chop c).steps.down = true then idx + 1024 - inc else idx + inc) % 1024

/-- A channel with one microstep less to do in the period. -/
def ChopSt.stepped (x : ChopSt) : ChopSt := { x with steps := { x.steps with left := x.steps.left - 1 } }

theorem Dev.microstep_left {c : Nat} {d : Dev} (h : 0 < (d.chop c).steps.left) :
    d.microstep c = ((d.setChop c (d.chop c).stepped).wf R.CHOP_CH_STAT_IDX (d.nextIdx c) 0 c).chopShow c := by
  refine (if_neg (Nat.ne_of_gt h)).trans (congrArg (fun n => ((d.setChop c _).wf R.CHOP_CH_STAT_IDX n 0 c).chopShow c) ?_)
  unfold Dev.nextIdx
  have hinc : 256 / 2 ^ d.rf R.CHOP_CH_CFG_MRES 0 c ≤ 256 := Nat.div_le_self ..
  have hcast : (256 : Int) / 2 ^ d.rf R.CHOP_CH_CFG_MRES 0 c = (256 / 2 ^ d.rf R.CHOP_CH_CFG_MRES 0 c : Nat) := by push_cast; rfl
  rw [hcast]
  generalize 256 / 2 ^ d.rf R.CHOP_CH_CFG_MRES 0 c = inc at hinc
  dsimp only
  split <;> omega

/-! ### Phases (R193) -/

section Phases

variable {c : Nat} {ph first : Bool} {d : Dev}

@[simp] theorem ChopSt.phase_withPhase (x : ChopSt) (ph : Bool) (p : PhaseSt) : (x.withPhase ph p).phase ph = p := by cases ph <;> rfl

/-- The flag of a short, and that of an open load, of a phase; `ph` false for A, true for B. -/
def chopSHORT (ph : Bool) : F := if ph = true then R.CHOP_CH_STAT_SHORT_B else R.CHOP_CH_STAT_SHORT_A
def chopOPEN (ph : Bool) : F := if ph = true then R.CHOP_CH_STAT_OPEN_B else R.CHOP_CH_STAT_OPEN_A

theorem chopSHORT_w (ph : Bool) : (chopSHORT ph).w = 1 := by cases ph <;> rfl
theorem chopOPEN_w (ph : Bool) : (chopOPEN ph).w = 1 := by cases ph <;> rfl

/-- The eighth trip in a row at the first sample. -/
theorem Dev.chopTrip_short (hst : ((d.chop c).phase ph).st = 1) (hfirst : first = true) (hquick : 7 ≤ ((d.chop c).phase ph).quick) :
    d.chopTrip c ph first = (d.setChop c ((d.chop c).withPhase ph { st := 0, cut := true })).wf (chopSHORT ph) 1 0 c := by
  subst hfirst
  refine (if_neg (not_not.mpr hst)).trans ((if_pos (show 8 ≤ ((d.chop c).phase ph).quick + 1 by omega)).trans ?_)
  cases ph <;> rfl

theorem Dev.chopTrip_off (hst : ((d.chop c).phase ph).st = 1) (h : first = false ∨ ((d.chop c).phase ph).quick < 7) :
    let p := (d.chop c).phase ph
    d.chopTrip c ph first = d.setChop c ((d.chop c).withPhase ph { p with st := 2, full := 0, quick := if first = true then p.quick + 1 else 0 }) := by
  have hquick : ¬ 8 ≤ if first = true then ((d.chop c).phase ph).quick + 1 else 0 := by
    rcases h with rfl | h
    · exact Nat.not_succ_le_zero 7
    · split <;> omega
  exact (if_neg (not_not.mpr hst)).trans (if_neg hquick)

/-- Cycles in a row of a phase that reached 50 µs, this one among them; a code below 16 counts none. -/
def Dev.fullCycles (d : Dev) (c : Nat) (ph : Bool) : Nat :=
  if 16 ≤ (if ph = true then d.rf R.CHOP_CH_STAT_DAC_B 0 c else d.rf R.CHOP_CH_STAT_DAC_A 0 c) then min 255 (((d.chop c).phase ph).full + 1) else 0

/-- A phase whose on time has ended by itself. -/
def ChopSt.ranFull (x : ChopSt) (ph : Bool) (n : Nat) : ChopSt := x.withPhase ph { x.phase ph with st := 2, full := n, quick := 0 }

theorem satAdd_byte (n : Nat) : satAdd 255 n 1 = min 255 (n + 1) := by
  unfold satAdd
  split <;> omega

theorem Dev.chopMaxOn_on (hst : ((d.chop c).phase ph).st = 1) : d.chopMaxOn c ph =
    if 16 ≤ d.fullCycles c ph then (d.setChop c ((d.chop c).ranFull ph (d.fullCycles c ph))).wf (chopOPEN ph) 1 0 c
    else d.setChop c ((d.chop c).ranFull ph (d.fullCycles c ph)) := by
  unfold Dev.fullCycles
  rw [← satAdd_byte]
  refine (if_neg (not_not.mpr hst)).trans ?_
  cases ph <;> rfl

theorem Dev.chopOffEnd_off (hst : ((d.chop c).phase ph).st = 2) :
    d.chopOffEnd c ph = d.setChop c ((d.chop c).withPhase ph { (d.chop c).phase ph with st := 1 }) := if_pos hst

end Phases

end Sys2Proof.Machine

open Sys2Proof Sys2Proof.Machine

/-- Settles O46: a pulse (`Dev.stepPulse_left`), a microstep with the codes of its new index (`Dev.microstep_left`, `Dev.chopShow_enabled`), and the
ends of a phase's on and off times (`Dev.chopTrip_short`, `Dev.chopTrip_off`, `Dev.chopMaxOn_on`, `Dev.chopOffEnd_off`). -/
theorem stepsAndChoppers : Obligations.StepsAndChoppers := by
  unfold Obligations.StepsAndChoppers
  intro s g c ph first x y p idx inc idx' run code others rest full
  have alone (z : ChopSt) (j : Nat) (hj : j ≠ c) : (s.dev.setChop c z).chop j = s.dev.chop j := Dev.chop_setChop_ne hj ..
  refine ⟨fun hg hleft => ?pulse, fun hc => ⟨fun hleft hused hon hsafe => ?microstep, fun hst => ⟨fun hfirst hquick => ?short, fun hno => ?trip, ?maxOn⟩,
    fun hst => ?offEnd⟩⟩
  case pulse =>
    refine does_guarded (f := Dev.stepPulse g) rfl (decide_eq_true hg) ?_
    rw [Dev.stepPulse_left hleft]
    exact ⟨Tbl.getD_put_self .., fun j hj => Tbl.getD_put_ne _ _ _ hj, (Dev.rf_wf_self ..).trans (Nat.mod_mod ..), rfl⟩
  case microstep =>
    refine does_guarded (f := Dev.microstep c) rfl (decide_eq_true hc) ?_
    rw [Dev.microstep_left hleft]
    generalize hd : (s.dev.setChop c y.stepped).wf R.CHOP_CH_STAT_IDX (s.dev.nextIdx c) 0 c = d
    have hchop : d.chop c = y.stepped := hd ▸ Dev.chop_setChop_self ..
    have hidx : d.rf R.CHOP_CH_STAT_IDX 0 c = idx' := by
      rw [← hd, Dev.rf_wf_self]
      exact Nat.mod_mod ..
    have hrun : d.rf R.CHOP_CH_CUR_RUN 0 c = run := by
      rw [← hd]
      exact Dev.rf_wf_word _ _ (by simp [F.addr, R.CHOP_CH_CUR_RUN, R.CHOP_CH_STAT_IDX])
    obtain ⟨a, b, hshow⟩ := Dev.chopShow_enabled (c := c) (d := d) (by rw [hchop]; exact hused) (by rw [hchop]; exact hon)
      (by rw [hchop]; exact hsafe)
    rw [hidx, hrun, hchop] at hshow
    rw [hshow]
    refine ⟨fun j hj => ?_, ?_, (Dev.rf_showCodes_idx ..).trans hidx, ?_, fun hmix => ?_⟩
    · rw [Dev.chop_showCodes, Dev.chop_setChop_ne hj, ← hd]
      exact alone _ j hj
    · refine (Dev.rest_showCodes _ _ _ _ s.dev).trans ?_
      rw [Dev.rest_setChop, ← hd, Dev.rest_wf, Dev.rest_setChop]
    · rw [Dev.chop_showCodes, Dev.chop_setChop_self]
      rfl
    · have hmix' : y.stepped.mix = 0 := hmix
      rw [Dev.rf_showCodes_a, Dev.rf_showCodes_b, hmix']
      exact ⟨congrArg (· % 2 ^ 8) (chopCode_run ..), congrArg (· % 2 ^ 8) (chopCode_run ..)⟩
  case short =>
    refine does_guarded (f := Dev.chopTrip c ph first) rfl (decide_eq_true hc) ?_
    rw [Dev.chopTrip_short hst hfirst hquick]
    have hphase := congrArg (ChopSt.phase · ph) (Dev.chop_setChop_self c (y.withPhase ph { st := 0, cut := true }) s.dev)
    rw [ChopSt.phase_withPhase] at hphase
    exact ⟨alone _, rfl, congrArg PhaseSt.st hphase, congrArg PhaseSt.cut hphase, (Dev.rf_wf_self ..).trans (by rw [chopSHORT_w]; rfl)⟩
  case trip =>
    refine does_guarded (f := Dev.chopTrip c ph first) rfl (decide_eq_true hc) ?_
    rw [Dev.chopTrip_off hst hno]
    exact ⟨alone _, rfl, Dev.chop_setChop_self ..⟩
  case maxOn =>
    refine does_guarded (f := Dev.chopMaxOn c ph) rfl (decide_eq_true hc) ?_
    rw [Dev.chopMaxOn_on hst]
    have hfull : s.dev.fullCycles c ph = full := rfl
    rw [hfull]
    split
    · exact ⟨alone _, rfl, Dev.chop_setChop_self .., (Dev.rf_wf_self ..).trans (by rw [chopOPEN_w]; rfl)⟩
    · exact ⟨alone _, rfl, Dev.chop_setChop_self .., rfl⟩
  case offEnd =>
    refine does_guarded (f := Dev.chopOffEnd c ph) rfl (decide_eq_true hc) ?_
    rw [Dev.chopOffEnd_off hst]
    exact ⟨alone _, Dev.chop_setChop_self .., rfl⟩
end

section
/-!
SUPPORT. The commands of an axis: the rule that accepts each, what an accepted one leaves, one command of one source, and the two sources of a cycle
in their order (R177 to R189, R195).
-/
namespace Sys2Proof.Machine

/-! ### When a command is accepted (R179, R184, R186) -/

section Rules

variable {c : AxisCfg} {e : AxisEnv} {r : AxisPar} {x : AxisSt}

/-- V, A and J are all positive. -/
def AxisPar.Pos (r : AxisPar) : Prop := 0 < r.v ∧ 0 < r.a ∧ 0 < r.j

theorem parOk_iff : parOk r = true ↔ r.Pos := by simp [parOk, AxisPar.Pos, and_assoc]

/-- One check of a chain: with a reason of its own it lets a command through only where it does not fire. -/
theorem check_iff {p : Prop} [Decidable p] {why rest : Nat} (hwhy : why ≠ 0) : (if p then why else rest) = 0 ↔ ¬ p ∧ rest = 0 := by
  by_cases hp : p <;> simp [hp, hwhy]

/-- The last check of a chain. -/
theorem lastCheck_iff {p : Prop} [Decidable p] {why : Nat} (hwhy : why ≠ 0) : (if p then why else 0) = 0 ↔ ¬ p :=
  (check_iff hwhy).trans (and_iff_left rfl)

/-- A check of a chain that demands `b`. -/
theorem need_iff {b : Bool} {why rest : Nat} (hwhy : why ≠ 0) : (if (!b) = true then why else rest) = 0 ↔ b = true ∧ rest = 0 :=
  (check_iff hwhy).trans (by simp)

theorem lastNeed_iff {b : Bool} {why : Nat} (hwhy : why ≠ 0) : (if (!b) = true then why else 0) = 0 ↔ b = true :=
  (need_iff hwhy).trans (and_iff_left rfl)

theorem allowed_iff {p : Prop} [Decidable p] {why : Nat} (hwhy : why ≠ 0) : (if p then 0 else why) = 0 ↔ p := by
  by_cases hp : p <;> simp [hp, hwhy]

/-- The state, the parameters and the limits that a move to `t` needs. -/
theorem moveWhy_iff {t : Int} : moveWhy c r t x = 0 ↔
    x.st = 1 ∧ c.kind = 1 ∧ r.Pos ∧ (c.slimLo ≠ c.slimHi → x.homed = true ∧ c.slimLo ≤ t ∧ t ≤ c.slimHi) := by
  unfold moveWhy
  rw [need_iff (by decide), need_iff (by decide), check_iff (by decide), lastNeed_iff (by decide)]
  by_cases hlim : c.slimLo = c.slimHi <;> simp [inSlim, parOk_iff, hlim, and_assoc]

theorem axWhy_enable : axWhy 1 c e r x = 0 ↔ x.st = 0 := allowed_iff (by decide)

theorem axWhy_disable : axWhy 2 c e r x = 0 ↔ x.st = 1 ∨ x.st = 6 ∨ x.st = 7 := (allowed_iff (by decide)).trans (by simp [or_assoc])

theorem axWhy_velocity : axWhy 5 c e r x = 0 ↔ c.kind = 1 ∧ (x.st = 1 ∨ x.st = 2 ∧ x.vt.isSome = true) ∧ r.Pos := by
  refine (need_iff (by decide)).trans ((and_congr_right' (lastNeed_iff (by decide))).trans ?_)
  simp [parOk_iff, and_assoc]

theorem axWhy_stop : axWhy 6 c e r x = 0 ↔ (x.st = 2 ∨ x.st = 3 ∨ x.st = 4 ∨ x.st = 5 ∨ x.st = 6) ∧ r.Pos := by
  refine (need_iff (by decide)).trans ((and_congr_right' (lastNeed_iff (by decide))).trans ?_)
  simp [parOk_iff, or_assoc]

theorem axWhy_gearIn : axWhy 7 c e r x = 0 ↔ (x.st = 1 ∨ x.st = 3 ∧ bitAt r.arg 3 = true) ∧ (nth (0, 0) c.ratios (r.arg % 4)).2 ≠ 0 ∧
    (bitAt r.arg 3 = false → masterDelta e x.mSeen = 0) := by
  refine (need_iff (by decide)).trans ((and_congr_right' ((check_iff (by decide)).trans (and_congr_right' (lastCheck_iff (by decide))))).trans ?_)
  simp

theorem axWhy_gearOut : axWhy 8 c e r x = 0 ↔ x.st = 3 ∧ r.Pos := by
  refine (check_iff (by decide)).trans ((and_congr_right' (lastNeed_iff (by decide))).trans ?_)
  simp [parOk_iff]

theorem axWhy_offset : axWhy 9 c e r x = 0 ↔
    x.st = 3 ∧ x.offset = none ∧ 0 < orDef r.a c.aDef ∧ 0 < orDef r.j c.jDef ∧ 0 < c.vAdj := by
  refine (need_iff (by decide)).trans ((and_congr_right' (lastNeed_iff (by decide))).trans ?_)
  simp [and_assoc]

theorem axWhy_home : axWhy 10 c e r x = 0 ↔ x.st = 1 ∧ c.kind = 1 ∧ r.Pos := by
  refine (need_iff (by decide)).trans ((and_congr_right' (lastNeed_iff (by decide))).trans ?_)
  simp [parOk_iff, and_assoc]

theorem axWhy_setPos : axWhy 11 c e r x = 0 ↔ x.st = 0 ∨ x.st = 1 := (allowed_iff (by decide)).trans (by simp [or_comm])

theorem axWhy_resetFault : axWhy 12 c e r x = 0 ↔ (x.st = 6 ∨ x.st = 7) ∧ axPersists c e x = false := by
  refine (need_iff (by decide)).trans ((and_congr_right' (lastCheck_iff (by decide))).trans ?_)
  simp [or_comm]

theorem axWhy_vmSpeed : axWhy 13 c e r x = 0 ↔ c.kind = 2 ∧ x.st ≠ 6 ∧ x.st ≠ 7 ∧ x.ramp = none ∧ e.k < r.kEff ∧ r.Pos := by
  refine (check_iff (by decide)).trans ((and_congr_right' ((check_iff (by decide)).trans (and_congr_right' ((check_iff (by decide)).trans
    (and_congr_right' (lastNeed_iff (by decide))))))).trans ?_)
  simp [parOk_iff, and_assoc]

end Rules

/-! ### What an accepted command leaves -/

/-- What tells commands apart and what was answered is the same. -/
structure AxisSt.SameAnswer (x y : AxisSt) : Prop where
  ackW : y.ackW = x.ackW := by rfl
  ackS : y.ackS = x.ackS := by rfl
  sigTaken : y.sigTaken = x.sigTaken := by rfl
  heldNow : y.heldNow = x.heldNow := by rfl
  lastReq : y.lastReq = x.lastReq := by rfl
  reqSrc : y.reqSrc = x.reqSrc := by rfl
  why : y.why = x.why := by rfl
  refused : y.refused = x.refused := by rfl

section Effects

variable {c : AxisCfg} {e : AxisEnv} {r : AxisPar} {k : Nat} {x : AxisSt}

/-- A planned move that a stop ends has the profile's values of the cycle. -/
theorem axProfile_move {m : MovePlan} (hst : x.st = 2) (hplan : x.plan = some m) :
    axProfile c k x = { x.take (planNow m k) with p := pMod c.modulus (planNow m k).p, stopAt := some k } := by
  unfold axProfile
  rw [hplan]
  exact if_pos hst

theorem axProfile_other (h : x.st ≠ 2 ∨ x.plan = none) : axProfile c k x = x := by
  unfold axProfile
  split
  · next m hplan => exact if_neg (h.resolve_right fun hnone => nomatch hplan.symm.trans hnone)
  · rfl

theorem axProfile_sameAnswer : x.SameAnswer (axProfile c k x) := by
  unfold axProfile
  split
  · split <;> exact {}
  · exact {}

theorem axApply_stop (h : x.st ≠ 6) :
    axApply 6 c e r x = axStop r.a r.j (if x.st = 5 then x.stopFault else 0) (axProfile c e.k x) := if_neg h

theorem axApply_stop_held (h : x.st = 6) : axApply 6 c e r x = { x with st := 1, v := 0, a := 0, vt := none, plan := none } := if_pos h

/-- A gear that is engaged has the ratio that the command names, at once or as its blend's end. -/
theorem axApply_gearIn : let rt := nth (0, 1) c.ratios (r.arg % 4)
    ∃ g : GearSt, axApply 7 c e r x = { x with st := 3, ratioSet := r.arg % 4, gear := some g } ∧ g.num = rt.1 ∧ g.den = rt.2 := by
  by_cases h : bitAt r.arg 3 = true
  · exact ⟨_, if_pos h, rfl, rfl⟩
  · exact ⟨_, if_neg h, rfl, rfl⟩

theorem axApply_gearOut : axApply 8 c e r x = axStop r.a r.j 0 { x with v := (x.gear.map GearSt.q).getD 0, a := 0 } := by
  unfold axApply
  dsimp only
  cases x.gear <;> rfl

theorem axApply_home_search (h : c.homing ≠ 0) : axApply 10 c e r x =
    { x with st := 4, homPhase := 0, homStart := x.p, homeFe := 0, homed := false, latClear := false, swPrev := homeSwitch c e } := if_neg h

theorem axApply_home_here (h : c.homing = 0) : axApply 10 c e r x = { x.reframe (c.homePos - x.p) with p := pMod c.modulus c.homePos } := if_pos h

/-- No command changes its own answer. -/
theorem axApply_sameAnswer (code : Nat) : x.SameAnswer (axApply code c e r x) := by
  unfold axApply
  split
  case h_6 =>
    split
    · exact {}
    · exact { axProfile_sameAnswer with }
  case h_7 => dsimp only; split <;> exact {}
  case h_10 => split <;> exact {}
  all_goals exact {}

/-- A ratio with a divisor stands in the list, so that what a place beyond its end answers does not matter. -/
theorem nth_ratio {l : List (Int × Nat)} {n : Nat} (h : (nth (0, 0) l n).2 ≠ 0) : nth (0, 1) l n = nth (0, 0) l n := by
  induction l generalizing n with
  | nil => exact absurd rfl h
  | cons p l ih =>
    cases n with
    | zero => rfl
    | succ n => exact ih h

end Effects

/-! ### One command of one source (R178) -/

/-- The SEQ that a source's latest command had: of CMD_SIG where `sig`, else of the request tile. -/
def AxisSt.ack (sig : Bool) (x : AxisSt) : Nat := if sig = true then x.ackS else x.ackW

theorem AxisSt.SameAnswer.ack_eq {x y : AxisSt} (h : x.SameAnswer y) (sig : Bool) : y.ack sig = x.ack sig := by
  cases sig
  · exact h.ackW
  · exact h.ackS

/-- An axis that has acknowledged a source's command of SEQ `n`, with reason `why` where it is refused, 0 where it is not. -/
def AxisSt.judged (sig : Bool) (n why : Nat) (x : AxisSt) : AxisSt :=
  { x with ackW := if sig = true then x.ackW else n, ackS := if sig = true then n else x.ackS, sigTaken := sig || x.sigTaken,
           lastReq := if why = 0 then 1 else 2, reqSrc := b2n sig, why := why }

@[simp] theorem AxisSt.ack_judged (sig : Bool) (n why : Nat) (x : AxisSt) : (x.judged sig n why).ack sig = n := by cases sig <;> rfl

/-- An axis that has refused a source's command of SEQ `n`. -/
def AxisSt.refuse (sig : Bool) (n why : Nat) (x : AxisSt) : AxisSt := { x.judged sig n why with refused := satAdd 0xFFFF x.refused 1 }

@[simp] theorem AxisSt.ack_refuse (sig : Bool) (n why : Nat) (x : AxisSt) : (x.refuse sig n why).ack sig = n := AxisSt.ack_judged sig n why x

/-- The reason against a source's command, or 0. -/
def axReason (sig : Bool) (code : Nat) (c : AxisCfg) (e : AxisEnv) (r : AxisPar) (x : AxisSt) : Nat :=
  if x.heldNow then whySTATE else if x.sigTaken && !sig then whySOURCE else axWhy code c e r x

section Take

variable {only : Option Nat} {sig : Bool} {w : Word} {c : AxisCfg} {e : AxisEnv} {r : AxisPar} {x : AxisSt}

/-- A command that is not new changes nothing. -/
theorem axTake_old (h : bitsOf w.toNat 8 8 = x.ack sig) : axTake only sig w r c e x = x := by
  refine if_pos ?_
  cases sig <;> simp [h, AxisSt.ack]

theorem axReason_iff {code : Nat} : axReason sig code c e r x = 0 ↔
    x.heldNow = false ∧ (x.sigTaken = false ∨ sig = true) ∧ axWhy code c e r x = 0 := by
  unfold axReason
  rw [check_iff (by decide), check_iff (by decide)]
  cases sig <;> simp

/-- A new command of the code asked for is judged. -/
theorem axTake_new (hnew : bitsOf w.toNat 8 8 ≠ x.ack sig) (honly : only = none ∨ only = some (bitsOf w.toNat 0 4)) :
    axTake only sig w r c e x = let why := axReason sig (bitsOf w.toNat 0 4) c e r x
      if why = 0 then axApply (bitsOf w.toNat 0 4) c e r (x.judged sig (bitsOf w.toNat 8 8) why)
      else x.refuse sig (bitsOf w.toNat 8 8) why := by
  refine (if_neg ?_).trans ?_
  · simp only [Bool.not_eq_true', Bool.not_eq_false, Bool.and_eq_true, Bool.or_eq_true, decide_eq_true_eq]
    cases sig <;> exact ⟨hnew, honly⟩
  · cases sig <;> rfl

theorem axTake_accepted (hnew : bitsOf w.toNat 8 8 ≠ x.ack sig) (honly : only = none ∨ only = some (bitsOf w.toNat 0 4))
    (hreason : axReason sig (bitsOf w.toNat 0 4) c e r x = 0) :
    axTake only sig w r c e x = axApply (bitsOf w.toNat 0 4) c e r (x.judged sig (bitsOf w.toNat 8 8) 0) :=
  (axTake_new hnew honly).trans (by rw [hreason]; rfl)

theorem axTake_refused (hnew : bitsOf w.toNat 8 8 ≠ x.ack sig) (honly : only = none ∨ only = some (bitsOf w.toNat 0 4))
    (hreason : axReason sig (bitsOf w.toNat 0 4) c e r x ≠ 0) :
    axTake only sig w r c e x = x.refuse sig (bitsOf w.toNat 8 8) (axReason sig (bitsOf w.toNat 0 4) c e r x) :=
  (axTake_new hnew honly).trans (if_neg hreason)

end Take

/-! ### The two sources of a cycle (R178) -/

/-- CMD_SIG is VALID and holds a command that is new to the axis. -/
def NewCmdSig (c : AxisCfg) (e : AxisEnv) (x : AxisSt) : Prop :=
  ∃ g, c.cmdSig = some g ∧ (e.sig g).valid = true ∧ bitsOf (e.sig g).val.toNat 8 8 ≠ x.ackS

/-- The parameters of a source's command. -/
def axParams (sig : Bool) (c : AxisCfg) (e : AxisEnv) (w : Word) : AxisPar := if sig = true then parSig c e w else parTile c e w

/-- What a command of a code makes of an axis whose faults the cycle has judged: CMD_SIG, or both sources. -/
def axJudge (code : Nat) (sig : Bool) (c : AxisCfg) (e : AxisEnv) (x : AxisSt) : AxisSt :=
  if sig then
    match c.cmdSig with
    | some g => if (e.sig g).valid then axTake (some code) true (e.sig g).val (parSig c e (e.sig g).val) c e x else x
    | none => x
  else axTake (some code) false e.cmdW (parTile c e e.cmdW) c e (axFromSig c e x)

section Sources

variable {code : Nat} {sig : Bool} {w : Word} {c : AxisCfg} {e : AxisEnv} {x : AxisSt}

theorem axFromSig_valid {g : Nat} (hg : c.cmdSig = some g) (hv : (e.sig g).valid = true) :
    axFromSig c e x = axTake none true (e.sig g).val (parSig c e (e.sig g).val) c e x := by
  rw [axFromSig, hg]
  exact if_pos hv

theorem axFromSig_of_not_new (h : ¬ NewCmdSig c e x) : axFromSig c e x = x := by
  unfold axFromSig
  split
  · next g hg =>
    split
    · next hv => exact axTake_old (Classical.byContradiction fun hn => h ⟨g, hg, hv, hn⟩)
    · rfl
  · rfl

/-- A new CMD_SIG command, accepted or not, takes the cycle and leaves the request tile's SEQ. -/
theorem axFromSig_of_new (h : NewCmdSig c e x) :
    (axFromSig c e x).sigTaken = true ∧ (axFromSig c e x).heldNow = x.heldNow ∧ (axFromSig c e x).ackW = x.ackW := by
  obtain ⟨g, hg, hv, hn⟩ := h
  rw [axFromSig_valid hg hv]
  by_cases hr : axReason true (bitsOf (e.sig g).val.toNat 0 4) c e (parSig c e (e.sig g).val) x = 0
  · rw [axTake_accepted hn (.inl rfl) hr]
    have h := axApply_sameAnswer (c := c) (e := e) (r := parSig c e (e.sig g).val) (x := x.judged true (bitsOf (e.sig g).val.toNat 8 8) 0)
      (bitsOf (e.sig g).val.toNat 0 4)
    exact ⟨h.sigTaken, h.heldNow, h.ackW⟩
  · rw [axTake_refused hn (.inl rfl) hr]
    exact ⟨rfl, rfl, rfl⟩

/-- A source's command that no other precedes in the cycle is judged on the axis as the cycle's faults have left it. -/
theorem axJudge_of_source (h : (sig = false ∧ w = e.cmdW ∧ ¬ NewCmdSig c e x) ∨
      (sig = true ∧ ∃ g, c.cmdSig = some g ∧ (e.sig g).valid = true ∧ w = (e.sig g).val)) :
    axJudge code sig c e x = axTake (some code) sig w (axParams sig c e w) c e x := by
  rcases h with ⟨rfl, rfl, hno⟩ | ⟨rfl, g, hg, hv, rfl⟩
  · unfold axJudge
    rw [axFromSig_of_not_new hno]
    rfl
  · unfold axJudge
    rw [hg]
    exact if_pos hv

/-- Behind a new CMD_SIG command a new command of the request tile is refused with reason SOURCE. -/
theorem axJudge_behind_sig (hsig : NewCmdSig c e x) (hheld : x.heldNow = false) (hnew : bitsOf e.cmdW.toNat 8 8 ≠ x.ackW) :
    axJudge (bitsOf e.cmdW.toNat 0 4) false c e x = (axFromSig c e x).refuse false (bitsOf e.cmdW.toNat 8 8) whySOURCE := by
  obtain ⟨htaken, hheld', hack⟩ := axFromSig_of_new hsig
  have hreason (r : AxisPar) : axReason false (bitsOf e.cmdW.toNat 0 4) c e r (axFromSig c e x) = whySOURCE := by
    simp [axReason, htaken, hheld', hheld]
  have hnew' : bitsOf e.cmdW.toNat 8 8 ≠ (axFromSig c e x).ack false := fun h => hnew (h.trans hack)
  refine (axTake_refused hnew' (.inr rfl) (by rw [hreason]; decide)).trans ?_
  rw [hreason]

end Sources

/-! ### The command (R178, R189) -/

/-- A unit with one axis's state of the cycle in progress replaced. -/
def UnitSt.withAxis (a : Nat) (y : AxisSt) (x : UnitSt) : UnitSt := { x with work := { x.work with axes := Tbl.put a y x.work.axes } }

theorem Dev.axisCut_none {c : AxisCfg} {x : AxisSt} (h : c.dest ≠ 3 ∨ x.st ≠ 7) (d : Dev) : d.axisCut c x = d :=
  if_neg fun ⟨hdest, hst, _⟩ => h.elim (· hdest) (· hst)

theorem Dev.axisCut_units (c : AxisCfg) (x : AxisSt) (d : Dev) : (d.axisCut c x).units = d.units := by
  unfold Dev.axisCut
  split
  · exact Dev.chopShow_units ..
  · rfl

theorem Dev.un_axisCut (c : AxisCfg) (x : AxisSt) (d : Dev) (v : Nat) : (d.axisCut c x).un v = d.un v := by
  unfold Dev.un
  rw [Dev.axisCut_units]

theorem Dev.axisReq_cycle {code u a : Nat} {sig : Bool} {m : List Host.Cell} {d : Dev} (hcyc : d.inCycle u 3 a (d.axesOf u).length = true)
    (hkind : (nth {} (d.axesOf u) a).kind ≠ 0) :
    let c := nth {} (d.axesOf u) a
    let x := Tbl.getD {} (d.un u).work.axes a
    let e := d.axisEnv m u a c x
    let y := axJudge code sig c e (axFaults c e x)
    d.axisReq code u a sig m = (d.unUp u (UnitSt.withAxis a y)).axisCut c y := by
  have hgo : ¬ (!d.inCycle u 3 a (d.axesOf u).length || decide ((nth {} (d.axesOf u) a).kind = 0)) = true := by simp [hcyc, hkind]
  refine (if_neg hgo).trans ?_
  cases sig <;> rfl

/-- An axis command replaces the axis that it names and touches, beside it, at most the chopper of one in FAULT. -/
theorem does_axisCommand {s : State} {code u a : Nat} {sig : Bool} {k : Instr} {P : AxisSt → Prop} (hk : exec k s = s.axis code u a sig)
    (hu : u < s.dev.nUnits) (ha : a < 16) (hcyc : s.dev.inCycle u 3 a (s.dev.axesOf u).length = true)
    (hkind : (nth {} (s.dev.axesOf u) a).kind ≠ 0) :
    let c := nth {} (s.dev.axesOf u) a
    let x := Tbl.getD {} (s.dev.un u).work.axes a
    let e := s.dev.axisEnv s.mem u a c x
    P (axJudge code sig c e (axFaults c e x)) → Does k s (fun d => (∀ v, v ≠ u → d.un v = s.dev.un v) ∧
      (∀ j, j ≠ a → Tbl.getD {} (d.un u).work.axes j = Tbl.getD {} (s.dev.un u).work.axes j) ∧ (d.un u).base = (s.dev.un u).base ∧
      (c.dest ≠ 3 ∨ (Tbl.getD {} (d.un u).work.axes a).st ≠ 7 → { d with units := s.dev.units } = s.dev) ∧
      P (Tbl.getD {} (d.un u).work.axes a)) := by
  intro c x e hP
  refine does_guarded hk (by simp [Dev.reqOk, hu, ha]) ?_
  rw [Dev.axisReq_cycle hcyc hkind]
  generalize axJudge code sig c e (axFaults c e x) = y at hP
  have hun : ((s.dev.unUp u (UnitSt.withAxis a y)).axisCut c y).un u = (s.dev.un u).withAxis a y := by
    rw [Dev.un_axisCut, Dev.un_unUp_self]
  have haxis : Tbl.getD {} (((s.dev.unUp u (UnitSt.withAxis a y)).axisCut c y).un u).work.axes a = y := by
    rw [hun]
    exact Tbl.getD_put_self ..
  refine ⟨fun v hv => ?others, fun j hj => ?axes, (congrArg UnitSt.base hun :), fun hkeeps => ?device, haxis.symm ▸ hP⟩
  case others => rw [Dev.un_axisCut, Dev.un_unUp_ne _ _ hv]
  case axes => rw [hun]; exact Tbl.getD_put_ne _ _ _ hj
  case device => rw [haxis] at hkeeps; rw [Dev.axisCut_none hkeeps]; rfl

/-- The axis commands with their codes (R179). -/
def axisCodes (u a : Nat) (sig : Bool) : List (Instr × Nat) :=
  [(.axEnable u a sig, 1), (.axDisable u a sig, 2), (.axMoveAbs u a sig, 3), (.axMoveRel u a sig, 4), (.axVelocity u a sig, 5), (.axStop u a sig, 6),
   (.axGearIn u a sig, 7), (.axGearOut u a sig, 8), (.axOffset u a sig, 9), (.axHome u a sig, 10), (.axSetPos u a sig, 11),
   (.axResetFault u a sig, 12), (.axVmSpeed u a sig, 13)]

theorem exec_axisCode {k : Instr} {code u a : Nat} {sig : Bool} (h : (k, code) ∈ axisCodes u a sig) (s : State) :
    exec k s = s.axis code u a sig := by
  have hall : ∀ p ∈ axisCodes u a sig, exec p.1 s = s.axis p.2 u a sig := by
    simp only [axisCodes, List.forall_mem_cons]
    exact ⟨rfl, rfl, rfl, rfl, rfl, rfl, rfl, rfl, rfl, rfl, rfl, rfl, rfl, fun _ h => nomatch h⟩
  exact hall _ h

end Sys2Proof.Machine

open Sys2Proof Sys2Proof.Machine

/-- Settles O39: one source's command is judged on the axis as the cycle's faults leave it (`axJudge_of_source`): accepted by its rule (`axWhy_enable` to
`axWhy_vmSpeed`) it has its effect, otherwise it is refused; a tile command behind a new CMD_SIG command is refused (`axJudge_behind_sig`). -/
theorem axisCommands : Obligations.AxisCommands := by
  unfold Obligations.AxisCommands
  intro s u a sig hu ha hcyc hkind c x0 e x ack newSig source does
  have runs {k : Instr} {code : Nat} {P : AxisSt → Prop} (hk : exec k s = s.axis code u a sig) (h : P (axJudge code sig c e x)) : does k P :=
    does_axisCommand hk hu ha hcyc hkind h
  clear_value does x e x0 c
  refine ⟨fun w hsrc hnew => ?one, fun hsig hsigNew hheld hnew k hk => ?behind⟩
  case behind =>
    subst hsig
    refine runs (exec_axisCode hk s) ?_
    rw [axJudge_behind_sig hsigNew hheld hnew]
    exact ⟨rfl, rfl, rfl, rfl⟩
  case one =>
    intro r judged takes pos move ratio
    let z := x.judged sig (bitsOf w.toNat 8 8) 0
    have hfree : x.sigTaken = false ∨ sig = true := hsrc.imp (fun ⟨_, _, h, _⟩ => h) (fun ⟨h, _⟩ => h)
    have hjudge (code : Nat) : axJudge code sig c e x = axTake (some code) sig w r c e x :=
      axJudge_of_source (hsrc.imp_left fun ⟨h, hw, _, hno⟩ => ⟨h, hw, hno⟩)
    have command {code : Nat} {k : Instr} {ok : Prop} {P : AxisSt → Prop} (hk : exec k s = s.axis code u a sig)
        (hok : axWhy code c e r x = 0 ↔ ok) (hP : ok → P (axApply code c e r z)) : takes code k ok P := by
      rintro rfl
      refine ⟨fun hheld hallowed => runs hk ?accepted, fun hno => runs hk ?refused⟩
      case accepted =>
        rw [hjudge, axTake_accepted hnew (.inr rfl) (axReason_iff.mpr ⟨hheld, hfree, hok.mpr hallowed⟩)]
        have h := axApply_sameAnswer (c := c) (e := e) (r := r) (x := z) (bitsOf w.toNat 0 4)
        exact ⟨⟨(h.ack_eq sig).trans (AxisSt.ack_judged ..), h.reqSrc⟩, h.lastReq, h.why, h.refused, hP hallowed⟩
      case refused =>
        have hreason : axReason sig (bitsOf w.toNat 0 4) c e r x ≠ 0 := fun h => by
          obtain ⟨hheld, -, hwhy⟩ := axReason_iff.mp h
          exact hno.elim (· (hok.mp hwhy)) (fun h' => Bool.false_ne_true (hheld.symm.trans h'))
        rw [hjudge, axTake_refused hnew (.inr rfl) hreason]
        exact ⟨⟨AxisSt.ack_refuse .., rfl⟩, if_neg hreason, hreason, rfl, rfl, rfl, rfl, rfl, rfl, rfl, rfl⟩
    refine ⟨
      command rfl axWhy_enable fun _ => ⟨rfl, rfl, rfl, rfl⟩,
      command rfl axWhy_disable fun _ => ⟨rfl, rfl, rfl, rfl⟩,
      command rfl moveWhy_iff fun _ => ⟨rfl, rfl, rfl, rfl⟩,
      command rfl moveWhy_iff fun _ => ⟨rfl, rfl, rfl, rfl⟩,
      command rfl axWhy_velocity fun _ => ⟨rfl, rfl, rfl, rfl, rfl⟩,
      command rfl axWhy_stop fun _ => ?stop,
      command rfl axWhy_gearIn fun hok => ?gearIn,
      command rfl axWhy_gearOut fun _ => ?gearOut,
      command rfl axWhy_offset fun hok => ?offset,
      command rfl axWhy_home fun _ => ?home,
      command rfl axWhy_setPos fun _ => ⟨rfl, add_sub_cancel x.p (pMod c.modulus r.p0), rfl, rfl⟩,
      command rfl axWhy_resetFault fun _ => ⟨rfl, rfl, rfl, rfl⟩,
      command rfl axWhy_vmSpeed fun _ => ⟨rfl, rfl, rfl⟩⟩
    case stop =>
      by_cases hheld : x.st = 6
      · rw [axApply_stop_held (x := z) hheld]
        have hno {p : Prop} (h : x.st ≠ 6) : p := absurd hheld h
        exact ⟨hno, fun _ => ⟨rfl, rfl⟩, fun _ hst => hno (by rw [hst]; decide), fun _ => ⟨rfl, hno⟩⟩
      · rw [axApply_stop (x := z) hheld]
        refine ⟨fun _ => ⟨rfl, rfl, rfl, rfl, rfl⟩, fun h => absurd h hheld, fun m hst hplan => ?_, fun h => ?_⟩
        · rw [axProfile_move (x := z) hst hplan]
          exact ⟨rfl, rfl, rfl⟩
        · have hother : x.st ≠ 2 ∨ x.plan = none := by rcases h with h | h | h | h <;> simp [h]
          rw [axProfile_other (x := z) hother]
          exact ⟨rfl, fun _ => rfl⟩
    case gearIn =>
      obtain ⟨-, hratio, -⟩ := hok
      obtain ⟨g, happly, hnum, hden⟩ := axApply_gearIn (c := c) (e := e) (r := r) (x := z)
      rw [nth_ratio hratio] at hnum hden
      rw [happly]
      exact ⟨rfl, rfl, congrArg some hnum, congrArg some hden⟩
    case gearOut =>
      rw [axApply_gearOut (x := z)]
      exact ⟨rfl, rfl, rfl, rfl, rfl⟩
    case offset =>
      obtain ⟨hst, -⟩ := hok
      exact ⟨hst, congrArg some (Int.zero_add r.p0), rfl⟩
    case home =>
      refine ⟨fun hsearch => ?_, fun hhere => ?_⟩
      · rw [axApply_home_search (x := z) hsearch]
        exact ⟨rfl, rfl, rfl, rfl⟩
      · rw [axApply_home_here (x := z) hhere]
        exact ⟨rfl, rfl, rfl⟩
end

section
/-!
SUPPORT. Recipe images: a sequencer takes one or answers BUSY, and the end of its check stores or drops it (R208, R210).
-/
namespace Sys2Proof.Machine

/-! ### One sequencer outside its evaluation -/

@[simp] theorem Dev.seq_seqUp_self (u i : Nat) (f : SeqSt → SeqSt) (d : Dev) :
    Tbl.getD {} ((d.seqUp u i f).un u).base.seqs i = f (Tbl.getD {} (d.un u).base.seqs i) := by
  unfold Dev.seqUp
  rw [Dev.un_unUp_self]
  exact Tbl.getD_upd_self ..

theorem Dev.seq_seqUp_ne {i j : Nat} (u : Nat) (f : SeqSt → SeqSt) (d : Dev) (h : j ≠ i) :
    Tbl.getD {} ((d.seqUp u i f).un u).base.seqs j = Tbl.getD {} (d.un u).base.seqs j := by
  unfold Dev.seqUp
  rw [Dev.un_unUp_self]
  exact Tbl.getD_upd_ne _ _ _ h

theorem Dev.un_seqUp_ne {u v : Nat} (i : Nat) (f : SeqSt → SeqSt) (d : Dev) (h : v ≠ u) : (d.seqUp u i f).un v = d.un v :=
  Dev.un_unUp_ne _ _ h

/-! ### What a response leaves -/

section Response

variable (sess seq st : Nat) (p : List Byte) (d : Dev)

@[simp] theorem Dev.units_respond : (d.respond sess seq st p).units = d.units := (congrArg Dev.units (Dev.respond_frame ..) :)

@[simp] theorem Dev.recipes_respond : (d.respond sess seq st p).recipes = d.recipes := (congrArg Dev.recipes (Dev.respond_frame ..) :)

@[simp] theorem Dev.recipeRes_respond : (d.respond sess seq st p).recipeRes = d.recipeRes := (congrArg Dev.recipeRes (Dev.respond_frame ..) :)

@[simp] theorem Dev.recipeLoad_respond : (d.respond sess seq st p).recipeLoad = d.recipeLoad := (congrArg Dev.recipeLoad (Dev.respond_frame ..) :)

@[simp] theorem Dev.un_respond (v : Nat) : (d.respond sess seq st p).un v = d.un v := Dev.un_of_units (Dev.units_respond ..) v

end Response

/-! ### The image is taken, or not -/

/-- A sequencer that takes an image: its unit is not FAULTED, and it is idle, done or aborted. -/
def Dev.TakesRecipe (d : Dev) (u i : Nat) : Prop :=
  let st := (Tbl.getD {} (d.un u).base.seqs i).st
  (d.un u).run ≠ 2 ∧ (st = 0 ∨ st = 6 ∨ st = 7)

section Take

variable {d : Dev} {q : Req} {num u i : Nat} {img : List Byte}

theorem Dev.recipeTake_taken (hseq : d.seqOf num = some (u, i)) (hdx : d.dxStandby = false) (hlc : d.rst.lcPend = false)
    (h : d.TakesRecipe u i) :
    d.recipeTake q num img =
      (({ d with recipeLoad := Tbl.put num (img, q.sess, q.seq) d.recipeLoad } : Dev).seqUp u i (fun s => { s with st := 1 })).taken q := by
  unfold Dev.recipeTake
  rw [hseq, hdx, hlc]
  exact if_pos h

theorem Dev.recipeTake_busy (hseq : d.seqOf num = some (u, i)) (hdx : d.dxStandby = false) (hlc : d.rst.lcPend = false)
    (h : ¬ d.TakesRecipe u i) :
    d.recipeTake q num img = ({ d with recipeRes := Tbl.put num sqBUSY d.recipeRes } : Dev).answer q eyOK [BitVec.ofNat 8 sqBUSY] := by
  unfold Dev.recipeTake
  rw [hseq, hdx, hlc]
  exact if_neg h

end Take

/-! ### The check ends -/

section Check

variable {u i : Nat} {b : List Byte} {d : Dev}

/-- An image leaves its check. -/
def Dev.checkEnds (num : Nat) (d : Dev) : Dev := { d with recipeLoad := Tbl.del num d.recipeLoad }

/-- The result of a check is kept, an accepted image is stored, any other leaves no recipe, and nothing else of the device changes. -/
theorem Dev.recipePut_does (num u i : Nat) (b : List Byte) (d : Dev) :
    let res := recipeCheck (nth {} (d.seqsOf u) i) d.sigTyp b
    let r := d.recipePut num u i b
    r.2 = res ∧ Tbl.get? r.1.recipeRes num = some res ∧ Tbl.get? r.1.recipes num = (if res = sqOK then some b else none) ∧
      { r.1 with recipeRes := d.recipeRes, recipes := d.recipes, recipeParsed := d.recipeParsed } = d := by
  unfold Dev.recipePut
  dsimp only
  split
  · exact ⟨rfl, Tbl.get?_put_self .., Tbl.get?_put_self .., rfl⟩
  · exact ⟨rfl, Tbl.get?_put_self .., Tbl.get?_del_self .., rfl⟩

/-- Without a partner to copy to the end of a check frees the sequencer and answers. -/
theorem Dev.recipeDone_alone {sess seq : Nat} (hload : Tbl.get? d.recipeLoad (d.seqNo u i) = some (b, sess, seq)) (hcopies : d.copies = false) :
    let r := (d.checkEnds (d.seqNo u i)).recipePut (d.seqNo u i) u i b
    d.recipeDone u i = (r.1.seqUp u i (fun s => { s with st := 0 })).respond sess seq eyOK (leBytes 1 r.2) := by
  intro r
  obtain ⟨-, -, -, hframe⟩ := Dev.recipePut_does (d.seqNo u i) u i b (d.checkEnds (d.seqNo u i))
  have hcopy : (r.1.seqUp u i (fun s => { s with st := 0 })).copies = false := (congrArg Dev.copies hframe :).trans hcopies
  have hsend : ¬ (decide (r.2 = sqOK) && (r.1.seqUp u i (fun s => { s with st := 0 })).copies) = true := by simp [hcopy]
  unfold Dev.recipeDone
  dsimp only
  rw [hload]
  exact congrArg (Dev.respond sess seq eyOK (leBytes 1 r.2)) (if_neg hsend)

end Check

end Sys2Proof.Machine

open Sys2Proof Sys2Proof.Machine

/-- Settles O26: an idle sequencer takes the image (`Dev.recipeTake_taken`), any other answers BUSY (`Dev.recipeTake_busy`), and the end of the check
stores or drops it (`Dev.recipePut_does`) and frees the sequencer (`Dev.recipeDone_alone`). -/
theorem recipeLoads : Obligations.RecipeLoads := by
  unfold Obligations.RecipeLoads
  intro s q num u i img hseq
  refine ⟨?take, fun b sess seq hu hi hnum hload hcopies => ?checked⟩
  case take =>
    intro hadm hmore hdx hlc st idle
    obtain ⟨x, hx⟩ := Dev.session_setParts q.sess (0x230000 + num) [] s.dev
    have runs {P : Dev → Prop} := does_eyeletImg (c := .recipeLoad q num img) (f := fun b => Dev.recipeTake q num b) (P := P) rfl hadm hmore
    have hseq0 : (s.dev.setParts q.sess (0x230000 + num) []).seqOf num = some (u, i) := hseq
    refine ⟨fun hidle => runs ?taken, fun hbusy => runs ?busy⟩
    case taken =>
      rw [Dev.recipeTake_taken hseq0 hdx hlc hidle]
      exact ⟨Tbl.get?_put_self .., (congrArg SeqSt.st (Dev.seq_seqUp_self ..) :), rfl, fun w hw => Dev.un_seqUp_ne _ _ _ hw⟩
    case busy =>
      rw [Dev.recipeTake_busy hseq0 hdx hlc hbusy]
      refine ⟨Dev.answer_answered _ _ _ _ x hx, ?_, Dev.units_respond .., Dev.recipes_respond ..⟩
      exact (congrArg (Tbl.get? · num) (Dev.recipeRes_respond ..)).trans (Tbl.get?_put_self ..)
  case checked =>
    subst hnum
    refine does_guarded (f := Dev.recipeDone u i) rfl (by simp [Dev.reqOk, hu, hi]) ?_
    rw [Dev.recipeDone_alone hload hcopies]
    obtain ⟨-, hres, hrecipes, hframe⟩ := Dev.recipePut_does (s.dev.seqNo u i) u i b (s.dev.checkEnds (s.dev.seqNo u i))
    have hgone : Tbl.get? (s.dev.checkEnds (s.dev.seqNo u i)).recipeLoad (s.dev.seqNo u i) = none := Tbl.get?_del_self ..
    rw [← hframe] at hgone
    simp only [Dev.recipeRes_respond, Dev.recipes_respond, Dev.recipeLoad_respond, Dev.un_respond, Dev.seq_seqUp_self]
    exact ⟨hres, trivial, hgone, hrecipes⟩
end

section
/-!
SUPPORT. The end of a step fetch: the five slots keep the current and the abort step and take every successor, and their records go into the
slot tiles (R200, R219).
-/
namespace Sys2Proof.Machine

/-! ### The five slots (R219) -/

/-- An element is still in a list whose place `p` is overwritten, unless it stood there alone. -/
theorem mem_set_of_mem {α : Type} {l : List α} {p : Nat} {a : α} (v z : α) (hmem : a ∈ l) (hp : a ≠ l.getD p z ∨ a ∈ l.drop (p + 1)) :
    a ∈ l.set p v := by
  by_cases hlen : p < l.length
  · rw [List.set_eq_take_append_cons_drop, if_pos hlen]
    rw [← List.take_append_drop p l, List.drop_eq_getElem_cons hlen] at hmem
    rw [List.getD_eq_getElem _ _ hlen] at hp
    grind
  · rwa [List.set_eq_of_length_le (Nat.le_of_not_lt hlen)]

/-- A list in which no element stands again behind its place has no duplicates. -/
theorem nodup_of_not_mem_drop {α : Type} {l : List α} (z : α) (h : ∀ p, p < l.length → l.getD p z ∉ l.drop (p + 1)) : l.Nodup := by
  refine List.pairwise_iff_getElem.mpr fun i j hi hj hij heq => h i hi ?_
  rw [List.getD_eq_getElem _ _ hi, heq]
  exact List.mem_drop_iff_getElem.mpr ⟨j - (i + 1), by omega, by congr 1; omega⟩

/-- The steps that belong in the slots: the current one, the abort step, the successors. -/
def slotSteps (cur : Nat) (abort : Option Nat) (succ : List Nat) : List (Option Nat) := some cur :: abort :: succ.map some

/-- A slot that is not to be overwritten: it holds a step that belongs there. -/
def slotKept (cur : Nat) (abort : Option Nat) (succ : List Nat) (o : Option Nat) : Bool :=
  o.isSome && (decide (o = some cur) || decide (o = abort) || succ.any (fun n => decide (o = some n)))

/-- The slot that a successor goes to. -/
def slotFor (keep : Option Nat → Bool) (ss : List (Option Nat)) : Option Nat :=
  ((List.range 5).find? (fun p => !keep (ss.getD p none))).orElse
    (fun _ => (List.range 5).find? (fun p => (ss.drop (p + 1)).contains (ss.getD p none)))

/-- One successor goes to its slot, unless a slot holds it. -/
def slotFill (keep : Option Nat → Bool) (ss : List (Option Nat)) (n : Nat) : List (Option Nat) :=
  if ss.contains (some n) then ss
  else match slotFor keep ss with
    | some p => ss.set p (some n)
    | none => ss

theorem slotsFilled_eq (cur : Nat) (abort : Option Nat) (succ : List Nat) (slots : List (Option Nat)) :
    slotsFilled cur abort succ slots = succ.foldl (slotFill (slotKept cur abort succ)) slots := rfl

section Fill

variable {cur : Nat} {abort : Option Nat} {succ : List Nat} {keep : Option Nat → Bool} {ss : List (Option Nat)} {n p : Nat} {o : Option Nat}

theorem slotKept_iff : slotKept cur abort succ o = true ↔ o ≠ none ∧ o ∈ slotSteps cur abort succ := by
  simp only [slotKept, slotSteps, Bool.and_eq_true, Bool.or_eq_true, decide_eq_true_eq, List.any_eq_true, List.mem_cons, List.mem_map,
    Option.isSome_iff_ne_none, or_assoc, eq_comm (a := o)]

theorem slotFill_present (h : some n ∈ ss) : slotFill keep ss n = ss := if_pos (List.contains_iff_mem.mpr h)

theorem slotFill_absent (h : some n ∉ ss) (hp : slotFor keep ss = some p) : slotFill keep ss n = ss.set p (some n) := by
  unfold slotFill
  rw [if_neg (by simpa using h), hp]

/-- The slot found is one of the five, and its step either does not belong there or stands in a later slot as well. -/
theorem slotFor_some (h : slotFor keep ss = some p) : p < 5 ∧ (keep (ss.getD p none) = false ∨ ss.getD p none ∈ ss.drop (p + 1)) := by
  unfold slotFor at h
  rcases Option.or_eq_some_iff.mp (Option.orElse_eq_or ▸ h) with h | ⟨-, h⟩
  · exact ⟨List.mem_range.mp (List.mem_of_find?_eq_some h), .inl (by simpa using List.find?_some h)⟩
  · exact ⟨List.mem_range.mp (List.mem_of_find?_eq_some h), .inr (by simpa using List.find?_some h)⟩

/-- Where no slot is found all five hold different steps that belong there. -/
theorem slotFor_none (h : slotFor keep ss = none) (hlen : ss.length = 5) : (∀ o ∈ ss, keep o = true) ∧ ss.Nodup := by
  unfold slotFor at h
  obtain ⟨hkeep, hdup⟩ := Option.or_eq_none_iff.mp (Option.orElse_eq_or ▸ h)
  rw [List.find?_eq_none] at hkeep hdup
  have five {p : Nat} (hp : p < ss.length) : p ∈ List.range 5 := List.mem_range.mpr (hlen ▸ hp)
  refine ⟨fun o ho => ?_, nodup_of_not_mem_drop none fun p hp => ?_⟩
  · obtain ⟨p, hp, rfl⟩ := List.getElem_of_mem ho
    have := hkeep p (five hp)
    rwa [List.getD_eq_getElem _ _ hp, Bool.not_eq_true', Bool.not_eq_false] at this
  · exact fun hmem => hdup p (five hp) (List.contains_iff_mem.mpr hmem)

@[simp] theorem length_slotFill : (slotFill keep ss n).length = ss.length := by
  unfold slotFill
  split
  · rfl
  · split
    · exact List.length_set
    · rfl

/-- A step that belongs in the slots and stands there stays. -/
theorem slotFill_keeps (hkeep : keep o = true) (hmem : o ∈ ss) : o ∈ slotFill keep ss n := by
  by_cases hn : some n ∈ ss
  · rwa [slotFill_present hn]
  · cases hp : slotFor keep ss with
    | none =>
      unfold slotFill
      rwa [if_neg (by simpa using hn), hp]
    | some p =>
      rw [slotFill_absent hn hp]
      refine mem_set_of_mem _ none hmem ?_
      by_cases heq : o = ss.getD p none
      · refine .inr ?_
        obtain ⟨-, h | h⟩ := slotFor_some hp
        · exact absurd (heq ▸ hkeep) (by simp only [h]; decide)
        · exact heq ▸ h
      · exact .inl heq

/-- Among five slots there is one for a successor: not all of them hold different other steps, since at most five steps belong there. -/
theorem slotFill_takes (hlen : ss.length = 5) (hsucc : succ.length ≤ 3) (hn : n ∈ succ) : some n ∈ slotFill (slotKept cur abort succ) ss n := by
  by_cases hmem : some n ∈ ss
  · rwa [slotFill_present hmem]
  · cases hp : slotFor (slotKept cur abort succ) ss with
    | some p =>
      rw [slotFill_absent hmem hp]
      exact List.mem_set (hlen ▸ (slotFor_some hp).1) _
    | none =>
      obtain ⟨hkept, hnodup⟩ := slotFor_none hp hlen
      have hself : some n ∈ slotSteps cur abort succ := by simp [slotSteps, hn]
      have hothers : ss ⊆ (slotSteps cur abort succ).erase (some n) := fun o ho =>
        (List.mem_erase_of_ne fun (h : o = some n) => hmem (h ▸ ho)).mpr (slotKept_iff.mp (hkept o ho)).2
      have hle := (hnodup.subperm hothers).length_le
      rw [List.length_erase_of_mem hself] at hle
      simp [slotSteps] at hle
      omega

end Fill

/-- After a fetch every step that belongs in the slots and stood there stands there still, and so does every successor. -/
theorem slotsFilled_holds {cur : Nat} {abort : Option Nat} {succ : List Nat} {slots : List (Option Nat)} (hlen : slots.length = 5)
    (hsucc : succ.length ≤ 3) :
    (∀ n, some n ∈ slotSteps cur abort succ → some n ∈ slots → some n ∈ slotsFilled cur abort succ slots) ∧
      ∀ n ∈ succ, some n ∈ slotsFilled cur abort succ slots := by
  have fill (l : List Nat) (hl : l ⊆ succ) : ∀ ss : List (Option Nat), ss.length = 5 →
      (∀ o, slotKept cur abort succ o = true → o ∈ ss → o ∈ l.foldl (slotFill (slotKept cur abort succ)) ss) ∧
        ∀ n ∈ l, some n ∈ l.foldl (slotFill (slotKept cur abort succ)) ss := by
    induction l with
    | nil => exact fun ss _ => ⟨fun _ _ h => h, fun _ h => nomatch h⟩
    | cons a l ih =>
      intro ss hss
      obtain ⟨hstay, hnew⟩ := ih (fun _ h => hl (List.mem_cons_of_mem _ h)) (slotFill (slotKept cur abort succ) ss a) (length_slotFill.trans hss)
      have ha : a ∈ succ := hl List.mem_cons_self
      refine ⟨fun o hk ho => hstay o hk (slotFill_keeps hk ho), List.forall_mem_cons.mpr ⟨?_, hnew⟩⟩
      exact hstay _ (slotKept_iff.mpr ⟨Option.some_ne_none a, by simp [slotSteps, ha]⟩) (slotFill_takes hss hsucc ha)
  rw [slotsFilled_eq]
  obtain ⟨hstay, hnew⟩ := fill succ (List.Subset.refl _) slots hlen
  exact ⟨fun n hstep => hstay _ (slotKept_iff.mpr ⟨Option.some_ne_none n, hstep⟩), hnew⟩

/-! ### The slot tiles (R200) -/

theorem length_stepBytes (img : List Byte) (n : Nat) : (stepBytes img n).length = 1024 := length_slice ..

/-- The records written into the slots touch the tags and the slot tiles alone. -/
theorem Dev.slotTiles_does (u i : Nat) (img : List Byte) (slots : List (Option Nat)) (d : Dev) (m : List Host.Cell) :
    { (Dev.slotTiles u i img slots (d, m)).1 with regs := d.regs } = d ∧
      ∀ a, (∀ t ∈ (d.un u).tiles, 3 + 5 * i ≤ t.lidx → t.lidx ≤ 7 + 5 * i → a < tileAddr t.ptile ∨ tileAddr t.ptile + 1024 ≤ a) →
        memGet (Dev.slotTiles u i img slots (d, m)).2 a = memGet m a := by
  refine foldl_keeps (fun x : Dev × List Host.Cell => { x.1 with regs := d.regs } = d ∧
    ∀ a, (∀ t ∈ (d.un u).tiles, 3 + 5 * i ≤ t.lidx → t.lidx ≤ 7 + 5 * i → a < tileAddr t.ptile ∨ tileAddr t.ptile + 1024 ≤ a) →
      memGet x.2 a = memGet m a) _ _ (d, m) ⟨rfl, fun _ _ => rfl⟩ (fun x p hp hx => ?_)
  obtain ⟨hdev, hmem⟩ := hx
  have hp5 : p < 5 := List.mem_range.mp hp
  split
  · exact ⟨hdev, hmem⟩
  · next n _ =>
    split
    · next t ht =>
      split
      · exact ⟨hdev, hmem⟩
      · refine ⟨(congrArg (fun y : Dev => { y with regs := d.regs }) (Dev.tileWrite_beside t.ptile (stepBytes img n) true x) :).trans hdev, fun a ha => ?_⟩
        have hlidx : t.lidx = 3 + 5 * i + p := by simpa using List.find?_some ht
        have htile : t ∈ (d.un u).tiles := Dev.un_of_units (congrArg Dev.units hdev :) u ▸ List.mem_of_find?_eq_some ht
        rw [Dev.tileWrite_mem_out (length_stepBytes ..) true x (ha t htile (by omega) (by omega))]
        exact hmem a ha
    · exact ⟨hdev, hmem⟩

/-! ### STEP_FETCH_DONE -/

/-- The successors of a recipe's step. -/
def Recipe.succOf (r : Recipe) (i : Nat) : List Nat :=
  match r.steps[i]? with
  | some p => successors r.steps.length i p
  | none => []

/-- A sequencer after the end of its fetch. -/
def SeqSt.fetched (slots : List (Option Nat)) (bad : Bool) (s : SeqSt) : SeqSt := { s with slots := slots, fetchPend := false, fetchBad := bad }

section Fetch

variable {u : Nat} {n : FetchEnd} {r : Recipe} {d : Dev} {m : List Host.Cell}

theorem Dev.fetchDone_bad (hr : Tbl.get? d.recipeParsed (d.seqNo u n.seq) = some r) (hrun : (d.un u).run = 0)
    (hpend : (Tbl.getD {} (d.un u).base.seqs n.seq).fetchPend = true) (hbad : n.bad = true) :
    Dev.fetchDone u n (d, m) = (d.seqUp u n.seq (SeqSt.fetched (Tbl.getD {} (d.un u).base.seqs n.seq).slots n.bad), m) := by
  unfold Dev.fetchDone
  dsimp only
  rw [hr]
  dsimp only
  rw [if_neg (not_or.mpr ⟨not_not.mpr hrun, by rw [hpend]; decide⟩), if_pos hbad, if_pos hbad]
  rfl

theorem Dev.fetchDone_good (hr : Tbl.get? d.recipeParsed (d.seqNo u n.seq) = some r) (hrun : (d.un u).run = 0)
    (hpend : (Tbl.getD {} (d.un u).base.seqs n.seq).fetchPend = true) (hgood : n.bad = false) :
    let s := Tbl.getD {} (d.un u).base.seqs n.seq
    let slots := slotsFilled s.cur r.abortStep (r.succOf s.cur) s.slots
    let d' := d.seqUp u n.seq (SeqSt.fetched slots n.bad)
    Dev.fetchDone u n (d, m) = Dev.slotTiles u n.seq (Tbl.getD [] d'.recipes (d'.seqNo u n.seq)) slots (d', m) := by
  unfold Dev.fetchDone
  dsimp only
  rw [hr]
  dsimp only
  rw [if_neg (not_or.mpr ⟨not_not.mpr hrun, by rw [hpend]; decide⟩), if_neg (by simp [hgood]), if_neg (by simp [hgood])]
  rfl

/-- The end of a fetch changes its sequencer, with the slots as they were or filled, and, where the records could be read, the slot tiles with
their tags. -/
theorem Dev.fetchDone_does (hr : Tbl.get? d.recipeParsed (d.seqNo u n.seq) = some r) (hrun : (d.un u).run = 0)
    (hpend : (Tbl.getD {} (d.un u).base.seqs n.seq).fetchPend = true) :
    let b := Tbl.getD {} (d.un u).base.seqs n.seq
    let e := Dev.fetchDone u n (d, m)
    ∃ slots, { e.1 with regs := d.regs } = d.seqUp u n.seq (SeqSt.fetched slots n.bad) ∧
      (n.bad = true → slots = b.slots ∧ e.2 = m ∧ e.1.regs = d.regs) ∧
      (n.bad = false → slots = slotsFilled b.cur r.abortStep (r.succOf b.cur) b.slots) ∧
      ∀ a, (∀ t ∈ (d.un u).tiles, 3 + 5 * n.seq ≤ t.lidx → t.lidx ≤ 7 + 5 * n.seq → a < tileAddr t.ptile ∨ tileAddr t.ptile + 1024 ≤ a) →
        memGet e.2 a = memGet m a := by
  intro b e
  cases hn : n.bad with
  | true =>
    have he : e = (d.seqUp u n.seq (SeqSt.fetched b.slots n.bad), m) := Dev.fetchDone_bad hr hrun hpend hn
    rw [he, hn]
    exact ⟨_, rfl, fun _ => ⟨rfl, rfl, rfl⟩, fun h => (nomatch h), fun _ _ => rfl⟩
  | false =>
    let slots := slotsFilled b.cur r.abortStep (r.succOf b.cur) b.slots
    let d' := d.seqUp u n.seq (SeqSt.fetched slots n.bad)
    have he : e = Dev.slotTiles u n.seq (Tbl.getD [] d'.recipes (d'.seqNo u n.seq)) slots (d', m) := Dev.fetchDone_good hr hrun hpend hn
    obtain ⟨hdev, hmem⟩ := Dev.slotTiles_does u n.seq (Tbl.getD [] d'.recipes (d'.seqNo u n.seq)) slots d' m
    have htiles : (d'.un u).tiles = (d.un u).tiles := by
      unfold d' Dev.seqUp
      rw [Dev.un_unUp_self]
      rfl
    rw [htiles] at hmem
    rw [he, ← hn]
    exact ⟨slots, hdev, fun h => (nomatch hn.symm.trans h), fun _ => rfl, hmem⟩

end Fetch

end Sys2Proof.Machine
end

section
/-!
SUPPORT. The commands of a sequencer: the rule that accepts each, what an accepted one leaves, one command of one source, and the two sources of a
cycle in their order (R209, R211, R215 to R219).
-/
namespace Sys2Proof.Machine

/-! ### When a command is accepted (R209, R211) -/

section Rules

variable {loaded : Bool} {e : SeqEnv} {first at_ : Nat} {x : SeqSt}

theorem sqWhy_start : sqWhy 1 loaded e first at_ x = 0 ↔ (x.st = 0 ∨ x.st = 6 ∨ x.st = 7) ∧ loaded = true ∧
    (∃ q, e.recipe = some q ∧ first < q.steps.length) ∧ (at_ = 0 ∨ e.k < at_) ∧ e.shed = false := by
  unfold sqWhy
  refine (need_iff (by decide)).trans (and_congr (by simp [or_assoc]) ?_)
  refine (need_iff (by decide)).trans (and_congr_right' ?_)
  refine (check_iff (by decide)).trans (and_congr ?_ ?_)
  · cases e.recipe <;> simp
  · refine (check_iff (by decide)).trans (and_congr ?_ ((lastCheck_iff (by decide)).trans (by simp)))
    simp only [Bool.and_eq_true, decide_eq_true_eq, not_and, not_le]
    exact or_iff_not_imp_left.symm

theorem sqWhy_hold : sqWhy 2 loaded e first at_ x = 0 ↔ x.st = 3 := allowed_iff (by decide)

theorem sqWhy_resume : sqWhy 3 loaded e first at_ x = 0 ↔ x.st = 4 := allowed_iff (by decide)

theorem sqWhy_abort : sqWhy 4 loaded e first at_ x = 0 ↔ x.st = 2 ∨ x.st = 3 ∨ x.st = 4 ∨ x.st = 5 :=
  (allowed_iff (by decide)).trans (by simp [or_assoc])

theorem sqWhy_reset : sqWhy 5 loaded e first at_ x = 0 ↔ x.st = 6 ∨ x.st = 7 := (allowed_iff (by decide)).trans (by simp)

end Rules

/-! ### What a command of a sequencer leaves (R211, R215 to R219) -/

/-- What tells commands apart and what was answered is the same. -/
structure SeqSt.SameAnswer (x y : SeqSt) : Prop where
  ackW : y.ackW = x.ackW := by rfl
  ackS : y.ackS = x.ackS := by rfl
  sigTaken : y.sigTaken = x.sigTaken := by rfl
  lastReq : y.lastReq = x.lastReq := by rfl
  reqSrc : y.reqSrc = x.reqSrc := by rfl
  why : y.why = x.why := by rfl
  refused : y.refused = x.refused := by rfl

/-- A step is entered in cycle `ke`: its elapsed cycles start anew, and its successors are to be fetched. -/
structure SeqSt.Enters (target ke : Nat) (x y : SeqSt) : Prop where
  cur : y.cur = target := by rfl
  ke : y.ke = ke := by rfl
  hkind : y.hkind = 0 := by rfl
  fetchPend : y.fetchPend = true := by rfl
  st : y.st = x.st := by rfl
  cause : y.cause = x.cause := by rfl
  handler : y.handler = x.handler := by rfl
  slots : y.slots = x.slots := by rfl

section Effects

variable {idx : Nat} {cfg : SeqCfg} {e : SeqEnv} {first at_ cause target ke : Nat} {lasted : Int} {x : SeqSt}

/-- A step that the recipe has is entered. -/
theorem sqEnter_enters (h : (stepOf e.recipe target).isSome = true) : x.Enters target ke (sqEnter e target ke lasted x) := by
  unfold sqEnter
  split
  · next hnone => exact Bool.noConfusion (hnone ▸ h)
  · exact {}

theorem sqEnter_sameAnswer : x.SameAnswer (sqEnter e target ke lasted x) := by
  unfold sqEnter
  split <;> exact {}

/-- A step below STEPS is one that the recipe has. -/
theorem stepOf_lt {q : Recipe} (hq : e.recipe = some q) (h : first < q.steps.length) : (stepOf e.recipe first).isSome = true := by
  rw [hq]
  exact (congrArg Option.isSome (List.getElem?_eq_getElem h) :)

theorem sqGoto_present (h : some target ∈ x.slots) :
    (sqGoto idx e target none x).st = sqEnter e target e.k ((e.k : Int) - x.ke) x :=
  congrArg SeqRes.st (if_pos (List.contains_iff_mem.mpr h))

theorem sqGoto_absent (h : some target ∉ x.slots) :
    (sqGoto idx e target none x).st = { x with flate := true, wait := some { target := target, ke := none } } :=
  congrArg SeqRes.st (if_neg (by simpa using h))

theorem sqGoto_sameAnswer : x.SameAnswer (sqGoto idx e target none x).st := by
  by_cases h : some target ∈ x.slots
  · rw [sqGoto_present h]; exact sqEnter_sameAnswer
  · rw [sqGoto_absent h]; exact {}

/-- The step that an abort goes to: none from within the handler. -/
def sqHandler (e : SeqEnv) (x : SeqSt) : Option Nat := if x.handler then none else e.recipe.bind Recipe.abortStep

theorem sqHandler_none : sqHandler e x = none ↔ e.recipe.bind Recipe.abortStep = none ∨ x.handler = true := by
  unfold sqHandler
  cases x.handler <;> simp

theorem sqHandler_some {a : Nat} (ha : e.recipe.bind Recipe.abortStep = some a) (h : x.handler = false) : sqHandler e x = some a := by
  unfold sqHandler
  rw [h]
  exact ha

theorem sqAbort_ends (h : sqHandler e x = none) : sqAbort idx cfg e cause x = sqAborted idx cfg e cause x := by
  unfold sqAbort
  rw [show (if x.handler then none else e.recipe.bind (·.abortStep)) = none from h]

theorem sqAbort_handles {a : Nat} (h : sqHandler e x = some a) :
    (sqAbort idx cfg e cause x).st = sqEnter e a e.k (sqLasted e x) { x with st := 5, cause := cause, handler := true } := by
  unfold sqAbort
  rw [show (if x.handler then none else e.recipe.bind (·.abortStep)) = some a from h]

theorem sqAbort_sameAnswer : x.SameAnswer (sqAbort idx cfg e cause x).st := by
  cases h : sqHandler e x with
  | none => rw [sqAbort_ends h]; exact {}
  | some a => rw [sqAbort_handles h]; exact { (sqEnter_sameAnswer : SeqSt.SameAnswer { x with st := 5, cause := cause, handler := true } _) with }

/-- A sequencer that a START has made ready. -/
def SeqSt.started (e : SeqEnv) (first at_ : Nat) (x : SeqSt) : SeqSt :=
  { x with flags := 0, handler := false, startStep := first, kStart := at_, resumed := false,
           slots := sqSlots first (e.recipe.bind (·.abortStep)), fetchPend := true, fetchBad := false }

/-- START enters its step in this cycle, or waits in START for the cycle that it names. -/
theorem sqApply_start (h : (stepOf e.recipe first).isSome = true) : let y := (sqApply idx cfg 1 e first at_ x).st
    (at_ = 0 → y.st = 3 ∧ y.cur = first ∧ y.ke = e.k) ∧ (at_ ≠ 0 → y.st = 2 ∧ y.kStart = at_ ∧ y.startStep = first) ∧
      some first ∈ y.slots ∧ y.fetchPend = true ∧ y.handler = false := by
  intro y
  by_cases h0 : at_ = 0
  · have hy : y = sqEnter e first e.k x.last { x.started e first at_ with st := 3 } := congrArg SeqRes.st (if_pos h0)
    have henters : SeqSt.Enters first e.k { x.started e first at_ with st := 3 } y := hy ▸ sqEnter_enters h
    exact ⟨fun _ => ⟨henters.st, henters.cur, henters.ke⟩, fun hne => absurd h0 hne, henters.slots ▸ List.mem_cons_self, henters.fetchPend,
      henters.handler⟩
  · have hy : y = { x.started e first at_ with st := 2 } := congrArg SeqRes.st (if_neg h0)
    rw [hy]
    exact ⟨fun h => absurd h h0, fun _ => ⟨rfl, rfl, rfl⟩, List.mem_cons_self, rfl, rfl⟩

/-- A held sequencer that goes on where it stopped. -/
def SeqSt.goesOn (e : SeqEnv) (x : SeqSt) : SeqSt := { x with st := if x.handler then 5 else 3, ke := e.k - x.ih, hkind := 0, pend := 0x7FF }

theorem sqApply_resume_held (h : x.hkind ≠ 2) : ∃ w, (sqApply idx cfg 3 e first at_ x).st = { x.goesOn e with wait := w } :=
  ⟨_, congrArg SeqRes.st (if_neg h)⟩

/-- RESUME of an operator step goes to the step that waits. -/
theorem sqApply_resume_operator (h : x.hkind = 2) : sqApply idx cfg 3 e first at_ x = sqGoto idx e x.pend none (x.goesOn e) := if_pos h

theorem sqApply_resume_enters (h : x.hkind = 2) (hslot : some x.pend ∈ x.slots) (hstep : (stepOf e.recipe x.pend).isSome = true) :
    (x.goesOn e).Enters x.pend e.k (sqApply idx cfg 3 e first at_ x).st := by
  rw [sqApply_resume_operator h, sqGoto_present (x := x.goesOn e) hslot]
  exact sqEnter_enters hstep

theorem sqApply_resume_waits (h : x.hkind = 2) (hslot : some x.pend ∉ x.slots) :
    (sqApply idx cfg 3 e first at_ x).st = { x.goesOn e with flate := true, wait := some { target := x.pend, ke := none } } := by
  rw [sqApply_resume_operator h, sqGoto_absent (x := x.goesOn e) hslot]

theorem sqApply_abort_waiting (h : x.st = 2) : (sqApply idx cfg 4 e first at_ x).st = { x with st := 0, fetchPend := false } :=
  congrArg SeqRes.st (if_pos h)

theorem sqApply_abort (h : x.st ≠ 2) : sqApply idx cfg 4 e first at_ x = sqAbort idx cfg e 1 x := if_neg h

/-- ABORT without a handler, or within it, ends ABORTED. -/
theorem sqApply_abort_ends (h : x.st ≠ 2) (hends : e.recipe.bind Recipe.abortStep = none ∨ x.handler = true) :
    sqApply idx cfg 4 e first at_ x = sqAborted idx cfg e 1 x :=
  (sqApply_abort h).trans (sqAbort_ends (sqHandler_none.mpr hends))

/-- Any other ABORT goes to the handler. -/
theorem sqApply_abort_enters {a : Nat} (h : x.st ≠ 2) (ha : e.recipe.bind Recipe.abortStep = some a) (hout : x.handler = false)
    (hstep : (stepOf e.recipe a).isSome = true) :
    SeqSt.Enters a e.k { x with st := 5, cause := 1, handler := true } (sqApply idx cfg 4 e first at_ x).st := by
  rw [sqApply_abort h, sqAbort_handles (sqHandler_some ha hout)]
  exact sqEnter_enters hstep

/-- No command changes its own answer. -/
theorem sqApply_sameAnswer (code : Nat) : x.SameAnswer (sqApply idx cfg code e first at_ x).st := by
  unfold sqApply
  split
  case h_1 =>
    dsimp only
    split
    · exact { (sqEnter_sameAnswer : SeqSt.SameAnswer { x.started e first at_ with st := 3 } _) with }
    · exact {}
  case h_3 =>
    dsimp only
    split
    · exact { (sqGoto_sameAnswer : SeqSt.SameAnswer (x.goesOn e) _) with }
    · exact {}
  case h_4 =>
    split
    · exact {}
    · exact sqAbort_sameAnswer
  all_goals exact {}

end Effects

/-! ### One command of one source (R209) -/

/-- The SEQ that a source's latest command had: of CMD_SIG where `sig`, else of the request tile. -/
def SeqSt.ack (sig : Bool) (x : SeqSt) : Nat := if sig = true then x.ackS else x.ackW

theorem SeqSt.SameAnswer.ack_eq {x y : SeqSt} (h : x.SameAnswer y) (sig : Bool) : y.ack sig = x.ack sig := by
  cases sig
  · exact h.ackW
  · exact h.ackS

/-- A sequencer that has acknowledged a source's command of SEQ `n`, with reason `why` where it is refused, 0 where it is not. -/
def SeqSt.judged (sig : Bool) (n why : Nat) (x : SeqSt) : SeqSt :=
  { x with ackW := if sig = true then x.ackW else n, ackS := if sig = true then n else x.ackS, sigTaken := sig || x.sigTaken,
           lastReq := if why = 0 then 1 else 2, reqSrc := b2n sig, why := why }

@[simp] theorem SeqSt.ack_judged (sig : Bool) (n why : Nat) (x : SeqSt) : (x.judged sig n why).ack sig = n := by cases sig <;> rfl

/-- A sequencer that has refused a source's command of SEQ `n`. -/
def SeqSt.refuse (sig : Bool) (n why : Nat) (x : SeqSt) : SeqSt := { x.judged sig n why with refused := satAdd 0xFFFF x.refused 1 }

@[simp] theorem SeqSt.ack_refuse (sig : Bool) (n why : Nat) (x : SeqSt) : (x.refuse sig n why).ack sig = n := SeqSt.ack_judged sig n why x

/-- The reason against a source's command, or 0. -/
def sqReason (sig : Bool) (code : Nat) (loaded : Bool) (e : SeqEnv) (first at_ : Nat) (x : SeqSt) : Nat :=
  if x.sigTaken && !sig then sqWhySOURCE else sqWhy code loaded e first at_ x

section Take

variable {idx : Nat} {cfg : SeqCfg} {only : Option Nat} {loaded sig : Bool} {w : Word} {first at_ : Nat} {e : SeqEnv} {x : SeqSt}

/-- A command that is not new changes nothing. -/
theorem sqTake_old (h : bitsOf w.toNat 8 8 = x.ack sig) : (sqTake idx cfg only loaded sig w first at_ e x).st = x := by
  refine congrArg SeqRes.st (if_pos ?_)
  cases sig <;> simp [h, SeqSt.ack]

/-- A new command of the code asked for is judged. -/
theorem sqTake_new (hnew : bitsOf w.toNat 8 8 ≠ x.ack sig) (honly : only = none ∨ only = some (bitsOf w.toNat 0 4)) :
    sqTake idx cfg only loaded sig w first at_ e x = let why := sqReason sig (bitsOf w.toNat 0 4) loaded e first at_ x
      if why = 0 then sqApply idx cfg (bitsOf w.toNat 0 4) e first at_ (x.judged sig (bitsOf w.toNat 8 8) why)
      else { st := x.refuse sig (bitsOf w.toNat 8 8) why } := by
  refine (if_neg ?_).trans ?_
  · simp only [Bool.not_eq_true', Bool.not_eq_false, Bool.and_eq_true, Bool.or_eq_true, decide_eq_true_eq]
    cases sig <;> exact ⟨hnew, honly⟩
  · cases sig <;> rfl

theorem sqTake_accepted (hnew : bitsOf w.toNat 8 8 ≠ x.ack sig) (honly : only = none ∨ only = some (bitsOf w.toNat 0 4))
    (hreason : sqReason sig (bitsOf w.toNat 0 4) loaded e first at_ x = 0) :
    sqTake idx cfg only loaded sig w first at_ e x = sqApply idx cfg (bitsOf w.toNat 0 4) e first at_ (x.judged sig (bitsOf w.toNat 8 8) 0) :=
  (sqTake_new hnew honly).trans (by rw [hreason]; rfl)

theorem sqTake_refused (hnew : bitsOf w.toNat 8 8 ≠ x.ack sig) (honly : only = none ∨ only = some (bitsOf w.toNat 0 4))
    (hreason : sqReason sig (bitsOf w.toNat 0 4) loaded e first at_ x ≠ 0) :
    (sqTake idx cfg only loaded sig w first at_ e x).st =
      x.refuse sig (bitsOf w.toNat 8 8) (sqReason sig (bitsOf w.toNat 0 4) loaded e first at_ x) :=
  congrArg SeqRes.st ((sqTake_new hnew honly).trans (if_neg hreason))

/-- A new CMD_SIG command, accepted or not, takes the cycle and leaves the request tile's SEQ. -/
theorem sqTake_sig (hnew : bitsOf w.toNat 8 8 ≠ x.ackS) :
    (sqTake idx cfg none loaded true w first at_ e x).st.sigTaken = true ∧ (sqTake idx cfg none loaded true w first at_ e x).st.ackW = x.ackW := by
  by_cases hr : sqReason true (bitsOf w.toNat 0 4) loaded e first at_ x = 0
  · rw [sqTake_accepted hnew (.inl rfl) hr]
    have h := sqApply_sameAnswer (idx := idx) (cfg := cfg) (e := e) (first := first) (at_ := at_) (x := x.judged true (bitsOf w.toNat 8 8) 0)
      (bitsOf w.toNat 0 4)
    exact ⟨h.sigTaken, h.ackW⟩
  · rw [sqTake_refused hnew (.inl rfl) hr]
    exact ⟨rfl, rfl⟩

end Take

/-! ### The two sources of a cycle (R209) -/

/-- CMD_SIG is VALID and holds a command that is new to the sequencer. -/
def NewSeqSig (c : SeqCfg) (e : SeqEnv) (x : SeqSt) : Prop :=
  ∃ g, c.cmdSig = some g ∧ (e.sig g).valid = true ∧ bitsOf (e.sig g).val.toNat 8 8 ≠ x.ackS

/-- What a command of a code makes of a sequencer whose failed fetch the cycle has judged: CMD_SIG, or both sources. -/
def sqJudge (idx code : Nat) (sig : Bool) (c : SeqCfg) (loaded : Bool) (e : SeqEnv) (x : SeqSt) : SeqSt :=
  if sig then (sqFromSig idx c (some code) loaded e x).st
  else (sqTake idx c (some code) loaded false e.cmdW e.startStep e.kStart e (sqFromSig idx c none loaded e x).st).st

section Sources

variable {idx code : Nat} {only : Option Nat} {loaded sig : Bool} {w : Word} {c : SeqCfg} {e : SeqEnv} {x : SeqSt}

theorem sqFromSig_valid {g : Nat} (hg : c.cmdSig = some g) (hv : (e.sig g).valid = true) :
    sqFromSig idx c only loaded e x = sqTake idx c only loaded true (e.sig g).val 0 0 e x := by
  rw [sqFromSig, hg]
  exact if_pos hv

theorem sqFromSig_of_not_new (h : ¬ NewSeqSig c e x) : (sqFromSig idx c only loaded e x).st = x := by
  unfold sqFromSig
  split
  · next g hg =>
    split
    · next hv => exact sqTake_old (Classical.byContradiction fun hn => h ⟨g, hg, hv, hn⟩)
    · rfl
  · rfl

/-- A source's command that no other precedes in the cycle is judged on the sequencer as a failed fetch has left it; CMD_SIG starts at step 0, at once. -/
theorem sqJudge_of_source (h : (sig = false ∧ w = e.cmdW ∧ ¬ NewSeqSig c e x) ∨
      (sig = true ∧ ∃ g, c.cmdSig = some g ∧ (e.sig g).valid = true ∧ w = (e.sig g).val)) :
    sqJudge idx code sig c loaded e x =
      (sqTake idx c (some code) loaded sig w (if sig = true then 0 else e.startStep) (if sig = true then 0 else e.kStart) e x).st := by
  rcases h with ⟨rfl, rfl, hno⟩ | ⟨rfl, g, hg, hv, rfl⟩
  · unfold sqJudge
    rw [sqFromSig_of_not_new (only := none) hno]
    rfl
  · exact congrArg SeqRes.st (sqFromSig_valid hg hv)

/-- Behind a new CMD_SIG command a new command of the request tile is refused with reason SOURCE. -/
theorem sqJudge_behind_sig (hsig : NewSeqSig c e x) (hnew : bitsOf e.cmdW.toNat 8 8 ≠ x.ackW) :
    sqJudge idx (bitsOf e.cmdW.toNat 0 4) false c loaded e x =
      SeqSt.refuse false (bitsOf e.cmdW.toNat 8 8) sqWhySOURCE (sqFromSig idx c none loaded e x).st := by
  obtain ⟨g, hg, hv, hn⟩ := hsig
  obtain ⟨htaken, hack⟩ := sqTake_sig (idx := idx) (cfg := c) (loaded := loaded) (first := 0) (at_ := 0) hn
  rw [← sqFromSig_valid hg hv] at htaken hack
  have hreason : sqReason false (bitsOf e.cmdW.toNat 0 4) loaded e e.startStep e.kStart (sqFromSig idx c none loaded e x).st = sqWhySOURCE := by
    simp [sqReason, htaken]
  have hnew' : bitsOf e.cmdW.toNat 8 8 ≠ (sqFromSig idx c none loaded e x).st.ack false := fun h => hnew (h.trans hack)
  refine (sqTake_refused hnew' (.inr rfl) (by rw [hreason]; decide)).trans ?_
  rw [hreason]

end Sources

/-! ### The command (R209) -/

/-- A unit with one sequencer's state of the cycle in progress replaced. -/
def UnitSt.withSeq (i : Nat) (y : SeqSt) (x : UnitSt) : UnitSt := { x with work := { x.work with seqs := Tbl.put i y x.work.seqs } }

theorem Dev.seqReq_cycle {code u i : Nat} {sig : Bool} {m : List Host.Cell} {d : Dev} (h : d.inCycle u 4 i (d.seqsOf u).length = true) :
    let c := nth {} (d.seqsOf u) i
    let e := d.seqEnv m u i
    let x := (sqFaults i c e (Tbl.getD {} (d.un u).work.seqs i)).st
    ∃ evs, d.seqReq code u i sig m = (d.unUp u (UnitSt.withSeq i (sqJudge i code sig c (d.seqLoaded u i) e x))).raiseAll u evs := by
  have hgo : ¬ (!d.inCycle u 4 i (d.seqsOf u).length) = true := by simp [h]
  cases sig <;> exact ⟨_, if_neg hgo⟩

/-- A sequencer command replaces the sequencer that it names and touches, beside it, at most what raising its events touches. -/
theorem does_sequencerCommand {s : State} {code u i : Nat} {sig : Bool} {k : Instr} {P : SeqSt → Prop} (hk : exec k s = s.sequencer code u i sig)
    (hu : u < s.dev.nUnits) (hi : i < 4) (hcyc : s.dev.inCycle u 4 i (s.dev.seqsOf u).length = true) :
    let c := nth {} (s.dev.seqsOf u) i
    let e := s.dev.seqEnv s.mem u i
    let x := (sqFaults i c e (Tbl.getD {} (s.dev.un u).work.seqs i)).st
    P (sqJudge i code sig c (s.dev.seqLoaded u i) e x) → Does k s (fun d => (∀ v, v ≠ u → d.un v = s.dev.un v) ∧
      (∀ j, j ≠ i → Tbl.getD {} (d.un u).work.seqs j = Tbl.getD {} (s.dev.un u).work.seqs j) ∧ (d.un u).base = (s.dev.un u).base ∧
      P (Tbl.getD {} (d.un u).work.seqs i)) := by
  intro c e x hP
  refine does_guarded hk (by simp [Dev.reqOk, hu, hi]) ?_
  obtain ⟨evs, hrun⟩ := Dev.seqReq_cycle (code := code) (sig := sig) (m := s.mem) hcyc
  have hun : (s.dev.seqReq code u i sig s.mem).un u = (s.dev.un u).withSeq i (sqJudge i code sig c (s.dev.seqLoaded u i) e x) := by
    rw [hrun, Dev.un_raiseAll, Dev.un_unUp_self]
  refine ⟨fun v hv => ?others, fun j hj => ?seqs, (congrArg UnitSt.base hun :), ?seq⟩
  case others => rw [hrun, Dev.un_raiseAll, Dev.un_unUp_ne _ _ hv]
  case seqs => rw [hun]; exact Tbl.getD_put_ne _ _ _ hj
  case seq => rw [hun]; exact (Tbl.getD_put_self ..).symm ▸ hP

/-- The sequencer commands with their codes (R209). -/
def seqCodes (u i : Nat) (sig : Bool) : List (Instr × Nat) :=
  [(.sqStart u i sig, 1), (.sqHold u i sig, 2), (.sqResume u i sig, 3), (.sqAbort u i sig, 4), (.sqReset u i sig, 5)]

theorem exec_seqCode {k : Instr} {code u i : Nat} {sig : Bool} (h : (k, code) ∈ seqCodes u i sig) (s : State) :
    exec k s = s.sequencer code u i sig := by
  have hall : ∀ p ∈ seqCodes u i sig, exec p.1 s = s.sequencer p.2 u i sig := by
    simp only [seqCodes, List.forall_mem_cons]
    exact ⟨rfl, rfl, rfl, rfl, rfl, fun _ h => nomatch h⟩
  exact hall _ h

end Sys2Proof.Machine

open Sys2Proof Sys2Proof.Machine

/-- Settles O40: one source's command, judged on the sequencer as a failed fetch has left it (`sqJudge_of_source`), is accepted with its effect or refused; a
tile command behind a new CMD_SIG command is refused (`sqJudge_behind_sig`). The end of a fetch fills the slots (`slotsFilled_holds`) and their tiles
(`Dev.fetchDone_does`). -/
theorem sequencerCommands : Obligations.SequencerCommands := by
  unfold Obligations.SequencerCommands
  intro s u i sig hu hi e x0 c x ack newSig source first at_ does takes abort
  refine ⟨fun hcyc => ?commands, fun n q hseq hrun hpend hparsed => ?fetch, fun n b hn hb => ?store⟩
  case commands =>
    have runs {code : Nat} {k : Instr} {P : SeqSt → Prop} (hk : exec k s = s.sequencer code u i sig)
      (h : P (sqJudge i code sig c (s.dev.seqLoaded u i) e x)) : does k P := does_sequencerCommand hk hu hi hcyc h
    clear_value does x
    refine ⟨fun v hsrc hnew => ?one, fun hsig hn hnew k hk => ?behind⟩
    case behind =>
      subst hsig
      refine runs (exec_seqCode hk s) ?_
      rw [sqJudge_behind_sig hn hnew]
      exact ⟨rfl, rfl, rfl, rfl⟩
    case one =>
      intro w
      have hfree : (x.sigTaken && !sig) = false := by
        rcases hsrc with ⟨_, _, htaken, _⟩ | ⟨rfl, _⟩
        · rw [htaken]; rfl
        · exact Bool.and_false _
      have hjudge (code : Nat) : sqJudge i code sig c (s.dev.seqLoaded u i) e x =
          (sqTake i c (some code) (s.dev.seqLoaded u i) sig v first at_ e x).st :=
        sqJudge_of_source (hsrc.imp_left fun ⟨h, hw, _, hno⟩ => ⟨h, hw, hno⟩)
      have hwhy : sqReason sig (bitsOf w 0 4) (s.dev.seqLoaded u i) e first at_ x = sqWhy (bitsOf w 0 4) (s.dev.seqLoaded u i) e first at_ x :=
        if_neg (by simp [hfree])
      let z := x.judged sig (bitsOf w 8 8) 0
      have command {code : Nat} {k : Instr} {ok : Prop} {P : SeqSt → Prop} (hk : exec k s = s.sequencer code u i sig)
          (hok : sqWhy code (s.dev.seqLoaded u i) e first at_ x = 0 ↔ ok) (hP : ok → P (sqApply i c code e first at_ z).st) : takes w code k ok P := by
        rintro rfl
        refine ⟨fun hallowed => runs hk ?accepted, fun hno => runs hk ?refused⟩
        case accepted =>
          rw [hjudge, sqTake_accepted hnew (.inr rfl) (hwhy.trans (hok.mpr hallowed))]
          have h := sqApply_sameAnswer (idx := i) (cfg := c) (e := e) (first := first) (at_ := at_) (x := z) (bitsOf w 0 4)
          exact ⟨(h.ack_eq sig).trans (SeqSt.ack_judged ..), h.lastReq, h.reqSrc, h.refused, hP hallowed⟩
        case refused =>
          have hreason : sqReason sig (bitsOf w 0 4) (s.dev.seqLoaded u i) e first at_ x ≠ 0 := fun h => hno (hok.mp (hwhy.symm.trans h))
          rw [hjudge, sqTake_refused hnew (.inr rfl) hreason]
          exact ⟨SeqSt.ack_refuse .., if_neg hreason, rfl, hreason, rfl, rfl, rfl, rfl⟩
      refine ⟨
        command rfl sqWhy_start fun ⟨_, _, ⟨q, hq, hfirst⟩, _⟩ => sqApply_start (stepOf_lt hq hfirst),
        command rfl sqWhy_hold fun _ => ⟨rfl, rfl, rfl, rfl, rfl⟩,
        command rfl sqWhy_resume fun _ => ⟨fun hheld => ?held, fun hop hslot hstep => ?operator, fun hop hslot => ?waits⟩,
        command rfl sqWhy_abort fun _ => ⟨fun hst => ?waiting, fun hst hends => ?ends, fun b hst hb hout hstep => ?handles⟩,
        command rfl sqWhy_reset fun _ => rfl⟩
      case held =>
        obtain ⟨_, hy⟩ := sqApply_resume_held (idx := i) (cfg := c) (e := e) (first := first) (at_ := at_) (x := z) hheld
        rw [hy]
        exact ⟨rfl, rfl, rfl, rfl, rfl⟩
      case operator =>
        have h := sqApply_resume_enters (idx := i) (cfg := c) (first := first) (at_ := at_) (x := z) hop hslot hstep
        exact ⟨h.cur, h.ke, h.hkind⟩
      case waits =>
        rw [sqApply_resume_waits (x := z) hop hslot]
        exact ⟨rfl, rfl, rfl⟩
      case waiting =>
        rw [sqApply_abort_waiting (x := z) hst]
        exact ⟨rfl, rfl⟩
      case ends =>
        rw [sqApply_abort_ends (x := z) hst hends]
        exact ⟨rfl, rfl, rfl⟩
      case handles =>
        have h := sqApply_abort_enters (idx := i) (cfg := c) (first := first) (at_ := at_) (x := z) hst hb hout hstep
        exact ⟨h.st, h.cause, h.handler, h.cur⟩
  case fetch =>
    subst hseq
    intro b
    refine does_onMem (f := fun d m => Dev.fetchDone u n (d, m)) (if_pos (by simp [Dev.reqOk, hu, hi])) ?_
    obtain ⟨slots, hdev, hbad, hgood, hmem⟩ := Dev.fetchDone_does (m := s.mem) hparsed hrun hpend
    have hun (v : Nat) : (Dev.fetchDone u n (s.dev, s.mem)).1.un v = (s.dev.seqUp u n.seq (SeqSt.fetched slots n.bad)).un v :=
      Dev.un_of_units (congrArg Dev.units hdev :) v
    have hy : Tbl.getD {} ((Dev.fetchDone u n (s.dev, s.mem)).1.un u).base.seqs n.seq = SeqSt.fetched slots n.bad b := by
      rw [hun]
      exact Dev.seq_seqUp_self ..
    dsimp only
    rw [hy]
    refine ⟨rfl, rfl, rfl, rfl, rfl, fun j hj => ?seqs, fun v hv => ?units, (congrArg (fun y : Dev => { y with units := s.dev.units }) hdev :), hbad,
      fun hg hlen p hp hsucc => ?slots, hmem⟩
    case seqs =>
      rw [hun]
      exact Dev.seq_seqUp_ne _ _ _ hj
    case units =>
      rw [hun]
      exact Dev.un_seqUp_ne _ _ _ hv
    case slots =>
      have hnext : q.succOf b.cur = successors q.steps.length b.cur p := by
        unfold Recipe.succOf
        rw [hp]
      rw [hgood hg, ← hnext]
      obtain ⟨hstay, htake⟩ := slotsFilled_holds (cur := b.cur) (abort := q.abortStep) hlen (hnext ▸ hsucc)
      exact ⟨hstay _ List.mem_cons_self, fun ab hab => hstay _ (List.mem_cons_of_mem _ (hab ▸ List.mem_cons_self)), htake⟩
  case store =>
    refine does_guarded (f := Dev.recipeStoreWrite n) rfl (decide_eq_true hn) ?_
    unfold Dev.recipeStoreWrite
    rw [hb]
    exact ⟨Tbl.get?_put_self .., fun k hk => Tbl.get?_put_ne _ _ hk, rfl⟩
end

section
/-!
SUPPORT. Banks of converters: the words of a bank, and what an operation of one bank can change beside them (R222 to R246).
-/
namespace Sys2Proof.Machine

/-! ### Words of a bank (R356) -/

/-- The registers of a bank: of the bank as a whole, of a pair, of a channel, of a converter's range. -/
abbrev F.OfBank (f : F) : Prop := f.blk = .adc ∧ f.off < 0x40 ∧ f.s1 = 0 ∧ f.s2 = 0
abbrev F.OfPair (f : F) : Prop := f.blk = .adc ∧ f.off = 0x40 ∧ f.s1 = 4 ∧ f.s2 = 0
abbrev F.OfCh (f : F) : Prop := f.blk = .adc ∧ 0x100 ≤ f.off ∧ f.off < 0x114 ∧ f.s1 = 0x20 ∧ f.s2 = 0
abbrev F.OfConv (f : F) : Prop := f.blk = .adc ∧ 0x800 ≤ f.off ∧ f.off < 0x80C ∧ f.s1 = 0x40 ∧ f.s2 = 0x10

/-- A register of a bank with indices that the bank has. -/
def F.InBank (f : F) (i j : Nat) : Prop := f.OfBank ∨ f.OfPair ∧ i < 8 ∨ f.OfCh ∧ i < 16 ∨ f.OfConv ∧ i ≤ 16 ∧ j < 4

theorem F.inBank_bank {f : F} (h : f.OfBank) (i j : Nat) : f.InBank i j := .inl h

theorem F.inBank_pair {f : F} (h : f.OfPair) {i : Nat} (hi : i < 8) (j : Nat) : f.InBank i j := .inr (.inl ⟨h, hi⟩)

theorem F.inBank_ch {f : F} (h : f.OfCh) {i : Nat} (hi : i < 16) (j : Nat) : f.InBank i j := .inr (.inr (.inl ⟨h, hi⟩))

theorem F.inBank_conv {f : F} (h : f.OfConv) {i j : Nat} (hi : i ≤ 16) (hj : j < 4) : f.InBank i j := .inr (.inr (.inr ⟨h, hi, hj⟩))

/-- Where a register lies in its bank. -/
def F.inside (f : F) (i j : Nat) : Nat := f.off + i * f.s1 + j * f.s2

/-- The first register of the array that an offset in a bank belongs to. -/
def arrayOff (o : Nat) : Nat := if o < 0x40 then o else if o < 0x100 then 0x40 else if o < 0x800 then 0x100 + o % 0x20 else 0x800 + o % 0x10

section InBank

variable {f g : F} {i j i' j' : Nat}

theorem F.InBank.addr_eq (h : f.InBank i j) (k : Nat) : f.addr k i j = 0x500000 + k * 0x10000 + f.inside i j ∧ f.inside i j < 0x1000 := by
  unfold F.addr F.inside
  rcases h with ⟨hb, ho, h1, h2⟩ | ⟨⟨hb, ho, h1, h2⟩, hi⟩ | ⟨⟨hb, hlo, ho, h1, h2⟩, hi⟩ | ⟨⟨hb, hlo, ho, h1, h2⟩, hi, hj⟩ <;>
    (rw [hb, h1, h2]; simp only [Blk.base]; omega)

theorem F.InBank.arrayOff_inside (h : f.InBank i j) : arrayOff (f.inside i j) = f.off := by
  unfold F.inside arrayOff
  rcases h with ⟨-, ho, h1, h2⟩ | ⟨⟨-, ho, h1, h2⟩, hi⟩ | ⟨⟨-, hlo, ho, h1, h2⟩, hi⟩ | ⟨⟨-, hlo, ho, h1, h2⟩, hi, hj⟩ <;>
    (rw [h1, h2]; split_ifs <;> omega)

/-- Registers of two arrays, or of two banks, are two words. -/
theorem F.InBank.addr_ne (hg : g.InBank i' j') (hf : f.InBank i j) {k k' : Nat} (h : g.off ≠ f.off ∨ k' ≠ k) : g.addr k' i' j' ≠ f.addr k i j := by
  intro he
  obtain ⟨hga, hgl⟩ := hg.addr_eq k'
  obtain ⟨hfa, hfl⟩ := hf.addr_eq k
  rw [hga, hfa] at he
  have hin : g.inside i' j' = f.inside i j := by omega
  have hoff : g.off = f.off := by rw [← hg.arrayOff_inside, hin, hf.arrayOff_inside]
  rcases h with h | h
  · exact h hoff
  · omega

end InBank

/-- A field that lies in another array of registers, or beside in the same one. -/
abbrev F.Beside (g f : F) : Prop := g.off ≠ f.off ∨ g.lo + g.w ≤ f.lo ∨ f.lo + f.w ≤ g.lo

theorem Dev.rf_wf_beside_inBank {f g : F} {i j i' j' : Nat} (hg : g.InBank i' j') (hf : f.InBank i j) (h : g.Beside f) (v : Nat) (d : Dev) (k k' : Nat) :
    (d.wf f v k i j).rf g k' i' j' = d.rf g k' i' j' := by
  by_cases ha : g.addr k' i' j' = f.addr k i j
  · refine Dev.rf_wf_beside v d ha (h.resolve_left fun hoff => ?_)
    exact hg.addr_ne hf (.inl hoff) ha
  · exact Dev.rf_wf_word v d ha

/-- An event leaves the words of the banks. -/
theorem Dev.rf_raise_inBank {g : F} {i j : Nat} (hg : g.InBank i j) (c x : Nat) (data : List Byte) (d : Dev) (k : Nat) :
    (d.raise c x data).rf g k i j = d.rf g k i j := by
  obtain ⟨ha, -⟩ := hg.addr_eq k
  exact Dev.raise_rf _ _ _ _ _ _ _ _ (by omega) (by omega) (by omega)

/-! ### Banks and channels -/

@[simp] theorem Dev.bank_setBank_self (k : Nat) (b : AdcBank) (d : Dev) : (d.setBank k b).bank k = b := Tbl.getD_put_self ..

theorem Dev.bank_setBank_ne {j k : Nat} (h : j ≠ k) (b : AdcBank) (d : Dev) : (d.setBank k b).bank j = d.bank j := Tbl.getD_put_ne _ _ _ h

@[simp] theorem Dev.bank_wf (f : F) (v : Nat) (d : Dev) (k i j b : Nat) : (d.wf f v k i j).bank b = d.bank b := rfl

@[simp] theorem Dev.adcCh_wf (f : F) (v : Nat) (d : Dev) (k i j b n : Nat) : (d.wf f v k i j).adcCh b n = d.adcCh b n := rfl

theorem Dev.bank_of_adc {d x : Dev} (h : x.adc = d.adc) (k : Nat) : x.bank k = d.bank k := congrArg (fun t : Tbl AdcBank => Tbl.getD ({} : AdcBank) t k) h

@[simp] theorem Dev.adcCh_setCh_self (k n : Nat) (c : AdcCh) (d : Dev) : (d.setCh k n c).adcCh k n = c := by
  unfold Dev.adcCh Dev.setCh
  rw [Dev.bank_setBank_self]
  exact Tbl.getD_put_self ..

theorem Dev.adcCh_setCh_ne {k n m : Nat} (h : m ≠ n) (c : AdcCh) (d : Dev) : (d.setCh k n c).adcCh k m = d.adcCh k m := by
  unfold Dev.adcCh Dev.setCh
  rw [Dev.bank_setBank_self]
  exact Tbl.getD_put_ne _ _ _ h

/-- A bank beside its channels. -/
def Dev.bankRest (d : Dev) (k : Nat) : AdcBank := { d.bank k with chs := [] }

@[simp] theorem Dev.bankRest_wf (f : F) (v : Nat) (d : Dev) (k i j b : Nat) : (d.wf f v k i j).bankRest b = d.bankRest b := rfl

@[simp] theorem Dev.bankRest_setCh (k n : Nat) (c : AdcCh) (d : Dev) : (d.setCh k n c).bankRest k = d.bankRest k := by
  unfold Dev.bankRest Dev.setCh
  rw [Dev.bank_setBank_self]

/-! ### What the work of a bank can change -/

/-- Of the banks' words only fields of `l` differ; beside words and banks, only what raising an event changes. -/
structure Dev.AdcOnly (l : List F) (d x : Dev) : Prop where
  rest : ∃ r a e n z, x = { d with regs := r, adc := a, evt := e, snaps := n, frz := z }
  field : ∀ (g : F) (k i j : Nat), g.InBank i j → (∀ f ∈ l, g.Beside f) → x.rf g k i j = d.rf g k i j

/-- The same for an operation of bank `k`, which leaves the other banks and the channels outside `chs`. -/
structure Dev.BankOnly (l : List F) (k : Nat) (chs : List Nat) (d x : Dev) : Prop extends Dev.AdcOnly l d x where
  bank : ∀ j, j ≠ k → x.bank j = d.bank j
  ch : ∀ n, n ∉ chs → x.adcCh k n = d.adcCh k n

namespace Dev.AdcOnly

variable {l : List F} {d x y : Dev}

theorem refl (l : List F) (d : Dev) : d.AdcOnly l d := ⟨⟨d.regs, d.adc, d.evt, d.snaps, d.frz, rfl⟩, fun _ _ _ _ _ _ => rfl⟩

theorem trans (h : d.AdcOnly l x) (h' : x.AdcOnly l y) : d.AdcOnly l y := by
  refine ⟨?_, fun g k i j hg hl => (h'.field g k i j hg hl).trans (h.field g k i j hg hl)⟩
  obtain ⟨r, a, e, n, z, rfl⟩ := h.rest
  obtain ⟨r', a', e', n', z', rfl⟩ := h'.rest
  exact ⟨r', a', e', n', z', rfl⟩

theorem mono (h : d.AdcOnly l x) {l' : List F} (hl : l ⊆ l') : d.AdcOnly l' x :=
  ⟨h.rest, fun g k i j hg h' => h.field g k i j hg fun f hf => h' f (hl hf)⟩

theorem adc (d : Dev) (l : List F) (a : Tbl AdcBank) : d.AdcOnly l { d with adc := a } :=
  ⟨⟨d.regs, a, d.evt, d.snaps, d.frz, rfl⟩, fun _ _ _ _ _ _ => rfl⟩

theorem wf {f : F} {i j : Nat} (hf : f.InBank i j) (hl : f ∈ l) (d : Dev) (v k : Nat) : d.AdcOnly l (d.wf f v k i j) :=
  ⟨⟨_, d.adc, d.evt, d.snaps, d.frz, rfl⟩, fun _ _ _ _ hg hb => Dev.rf_wf_beside_inBank hg hf (hb f hl) ..⟩

theorem raise (l : List F) (d : Dev) (c i : Nat) (data : List Byte) : d.AdcOnly l (d.raise c i data) := by
  refine ⟨?_, fun g k i' j hg _ => Dev.rf_raise_inBank hg ..⟩
  obtain ⟨r, e, n, z, h⟩ := (Dev.evtOnly_raise c i data d).1
  exact ⟨r, d.adc, e, n, z, h⟩

section Rest
variable (h : d.AdcOnly l x)
include h

theorem time : x.time = d.time := by obtain ⟨r, a, e, n, z, rfl⟩ := h.rest; rfl
theorem variant : x.variant = d.variant := by obtain ⟨r, a, e, n, z, rfl⟩ := h.rest; rfl
theorem mains : x.mains = d.mains := by obtain ⟨r, a, e, n, z, rfl⟩ := h.rest; rfl
theorem rimIn : x.rimIn = d.rimIn := by obtain ⟨r, a, e, n, z, rfl⟩ := h.rest; rfl

theorem flag {g : F} {i j : Nat} (hg : g.InBank i j) (hl : ∀ f ∈ l, g.Beside f) (k : Nat) : x.flag g k i j = d.flag g k i j := by
  unfold Dev.flag
  rw [h.field g k i j hg hl]

/-- A whole word in which no field of `l` lies. -/
theorem word {g : F} {i j : Nat} (hg : g.InBank i j) (hlo : g.lo = 0) (hl : ∀ f ∈ l, g.off ≠ f.off) (k : Nat) :
    x.rw (g.addr k i j) = d.rw (g.addr k i j) := by
  let whole : F := { g with w := x.rw (g.addr k i j) + d.rw (g.addr k i j) }
  have heq : x.rf whole k i j = d.rf whole k i j := h.field whole k i j hg fun f hf => .inl (hl f hf)
  have hbits (r : Nat) (hr : r ≤ whole.w) : bitsOf r whole.lo whole.w = r := by
    unfold bitsOf
    rw [show whole.lo = 0 from hlo, Nat.shiftRight_zero]
    exact Nat.mod_eq_of_lt (Nat.lt_of_le_of_lt hr Nat.lt_two_pow_self)
  calc x.rw (g.addr k i j) = x.rf whole k i j := (hbits _ (Nat.le_add_right ..)).symm
    _ = d.rf whole k i j := heq
    _ = d.rw (g.addr k i j) := hbits _ (Nat.le_add_left ..)

end Rest
end Dev.AdcOnly

namespace Dev.BankOnly

variable {l : List F} {k : Nat} {chs : List Nat} {d x y : Dev}

theorem refl (l : List F) (k : Nat) (chs : List Nat) (d : Dev) : d.BankOnly l k chs d := ⟨.refl l d, fun _ _ => rfl, fun _ _ => rfl⟩

theorem trans (h : d.BankOnly l k chs x) (h' : x.BankOnly l k chs y) : d.BankOnly l k chs y :=
  ⟨h.toAdcOnly.trans h'.toAdcOnly, fun j hj => (h'.bank j hj).trans (h.bank j hj), fun n hn => (h'.ch n hn).trans (h.ch n hn)⟩

theorem mono (h : d.BankOnly l k chs x) {l' : List F} (hl : l ⊆ l') {chs' : List Nat} (hc : chs ⊆ chs') : d.BankOnly l' k chs' x :=
  ⟨h.toAdcOnly.mono hl, h.bank, fun n hn => h.ch n fun hm => hn (hc hm)⟩

variable (h : d.BankOnly l k chs x)
include h

theorem wf {f : F} {i j : Nat} (hf : f.InBank i j) (hl : f ∈ l) (v b : Nat) : d.BankOnly l k chs (x.wf f v b i j) :=
  h.trans ⟨.wf hf hl .., fun _ _ => rfl, fun _ _ => rfl⟩

/-- A field of the bank as a whole, and one of a channel. -/
theorem wfBank (f : F) (v b : Nat) (hf : f.OfBank := by decide) (hl : f ∈ l := by decide) : d.BankOnly l k chs (x.wf f v b) :=
  h.wf (F.inBank_bank hf 0 0) hl ..

theorem wfCh (f : F) (v b : Nat) {n : Nat} (hn : n < 16) (hf : f.OfCh := by decide) (hl : f ∈ l := by decide) :
    d.BankOnly l k chs (x.wf f v b n) := h.wf (F.inBank_ch hf hn 0) hl ..

theorem raise (c i : Nat) (data : List Byte) : d.BankOnly l k chs (x.raise c i data) := by
  have hb := Dev.bank_of_adc (Dev.raise_adc c i data x)
  exact h.trans ⟨.raise l x c i data, fun j _ => hb j, fun n _ => congrArg (fun b : AdcBank => Tbl.getD ({} : AdcCh) b.chs n) (hb k)⟩

/-- The bank's own work, which leaves its channels. -/
theorem setBank (b : AdcBank) (hb : b.chs = (x.bank k).chs := by rfl) : d.BankOnly l k chs (x.setBank k b) := by
  refine h.trans ⟨.adc .., fun j hj => Dev.bank_setBank_ne hj .., fun n _ => ?_⟩
  unfold Dev.adcCh
  rw [Dev.bank_setBank_self, hb]

theorem setCh {n : Nat} (hn : n ∈ chs) (c : AdcCh) : d.BankOnly l k chs (x.setCh k n c) :=
  h.trans ⟨.adc .., fun _ hj => Dev.bank_setBank_ne hj .., fun _ hm => Dev.adcCh_setCh_ne (ne_of_mem_of_not_mem hn hm).symm ..⟩

theorem foldl {α : Type} (f : Dev → α → Dev) (t : List α) (hf : ∀ z a, a ∈ t → d.BankOnly l k chs z → d.BankOnly l k chs (f z a)) :
    d.BankOnly l k chs (t.foldl f x) := foldl_keeps (d.BankOnly l k chs) f t x h hf

end Dev.BankOnly

/-- The enabled channels of a bank are among its sixteen. -/
theorem Dev.mem_chsOn {d : Dev} {k n : Nat} : n ∈ d.chsOn k ↔ n < 16 ∧ d.chOn k n = true := by
  unfold Dev.chsOn
  rw [List.mem_filter, List.mem_range]

/-- Where no setting is written the channels stay as enabled as they were. -/
theorem Dev.AdcOnly.chOn {l : List F} {d x : Dev} (h : d.AdcOnly l x) (hl : ∀ f ∈ l, R.ADC_CTRL_EN.Beside f ∧ R.ADC_CHn_CTL_EN.Beside f)
    (k : Nat) {n : Nat} (hn : n < 16) : x.chOn k n = d.chOn k n := by
  unfold Dev.chOn
  rw [h.flag (F.inBank_bank (by decide) 0 0) (fun f hf => (hl f hf).1), h.flag (F.inBank_ch (by decide) hn 0) (fun f hf => (hl f hf).2)]

theorem Dev.AdcOnly.chsOn {l : List F} {d x : Dev} (h : d.AdcOnly l x) (hl : ∀ f ∈ l, R.ADC_CTRL_EN.Beside f ∧ R.ADC_CHn_CTL_EN.Beside f)
    (k : Nat) : x.chsOn k = d.chsOn k :=
  List.filter_congr fun _ hn => h.chOn hl k (List.mem_range.1 hn)

end Sys2Proof.Machine
end

section
/-!
SUPPORT. What the operations of a bank leave: the rolling pass, the visits of the check converter, and a channel's window changes (R234 to R242).
-/
namespace Sys2Proof.Machine

/-- The fields that show the work of a bank: its pass, its visit, the stand-in and missing records. -/
def adcWork : List F := [R.ADC_CAL_STAT_STATE, R.ADC_CAL_STAT_CH, R.ADC_CHK_STAT_VISIT, R.ADC_CHK_STAT_SUBST, R.ADC_CHK_STAT_MISMATCH,
  R.ADC_CHn_STAT_SUBST, R.ADC_CHn_STAT_NOCAL]

section Ops

variable (k n : Nat) (d : Dev)

/-! ### The rolling pass (R241, R242) -/

theorem Dev.bankOnly_passNext : d.BankOnly adcWork k [] (d.passNext k) := by
  have hd := BankOnly.refl adcWork k [] d
  unfold Dev.passNext
  extract_lets b able
  split
  · exact hd
  split
  · exact hd.wfBank _ _ _
  split
  · exact hd
  · exact (hd.setBank _).wfBank _ _ _
  · split
    · exact (hd.setBank _).wfBank _ _ _
    · exact (hd.setBank _).wfBank _ _ _

theorem Dev.bankOnly_passStart (chs : List Nat) (chk : Bool) : d.BankOnly adcWork k [] (d.passStart k chs chk) := by
  unfold Dev.passStart
  extract_lets need b d1
  have h1 : d.BankOnly adcWork k [] d1 := (BankOnly.refl ..).setBank _
  exact (h1.wfBank _ _ _).trans (Dev.bankOnly_passNext ..)

theorem Dev.bankOnly_autoStale (m : AdcMeas) : d.BankOnly adcWork k [] (d.autoStale k m) := by
  have hd := BankOnly.refl adcWork k [] d
  unfold Dev.autoStale
  extract_lets a b chs
  split
  · exact hd
  split
  · exact (Dev.bankOnly_passStart k d ..).setBank _
  · split
    · exact hd.setBank _
    · exact hd

variable {n} in
theorem Dev.bankOnly_rollEnd (hn : n < 16) : d.BankOnly adcWork k [] (d.rollEnd k n) := by
  unfold Dev.rollEnd
  extract_lets b retry d1
  have h1 : d.BankOnly adcWork k [] d1 := (BankOnly.refl ..).setBank _
  exact ((h1.wfCh _ _ _ hn).wfBank _ _ _).trans
    (Dev.bankOnly_passNext ..)

variable {n} in
theorem Dev.bankOnly_rollStep (hn : n < 16) : d.BankOnly adcWork k [] (d.rollStep k n) := by
  have hd := BankOnly.refl adcWork k [] d
  unfold Dev.rollStep
  extract_lets b
  split
  · exact hd
  split
  · exact hd
  split
  · exact (hd.setBank _).wfBank _ _ _
  split
  · split
    · split
      · exact ((hd.setBank _).wfCh _ _ _ hn).wfBank _ _ _
      · exact (hd.setBank _).trans (Dev.bankOnly_rollEnd k _ hn)
    · exact hd.setBank _
  split
  · split
    · exact hd.setBank _
    · exact hd
  split
  · exact Dev.bankOnly_rollEnd k d hn
  · exact hd.setBank _

variable {n} in
theorem Dev.bankOnly_rollAbandon (hn : n < 16) : d.BankOnly adcWork k [] (d.rollAbandon k n) := by
  have hd := BankOnly.refl adcWork k [] d
  unfold Dev.rollAbandon
  extract_lets b
  split
  · split
    · exact hd
    · extract_lets d1
      split
      · exact (hd.setBank _).trans (Dev.bankOnly_rollEnd k _ hn)
      · exact hd.setBank _
  · exact hd

/-! ### A channel's windows (R226, R234, R235) -/

theorem Dev.bankOnly_nocalShow : d.BankOnly [R.ADC_CHn_STAT_NOCAL] k [] (d.nocalShow k n) := by
  unfold Dev.nocalShow
  split
  · rename_i h
    have hn : n < 16 := of_decide_eq_true (Bool.and_eq_true_iff.1 h).1
    exact (BankOnly.refl ..).wfCh _ _ _ hn
  · exact .refl ..

theorem Dev.bankOnly_chRestart : d.BankOnly [R.ADC_CHn_STAT_NOCAL] k [n] (d.chRestart k n) := by
  unfold Dev.chRestart
  extract_lets c d1
  exact ((BankOnly.refl ..).setCh List.mem_cons_self _).trans ((Dev.bankOnly_nocalShow k n d1).mono (List.Subset.refl _) (List.nil_subset _))

theorem Dev.bankOnly_chClose : d.BankOnly adcWork k [n] (d.chClose k n) := by
  unfold Dev.chClose
  extract_lets c
  split
  · exact ((BankOnly.refl ..).setCh List.mem_cons_self _).trans ((Dev.bankOnly_nocalShow k n _).mono (by decide) (List.nil_subset _))
  · exact .refl ..

theorem Dev.bankOnly_chLapse : d.BankOnly adcWork k [n] (d.chLapse k n) := by
  unfold Dev.chLapse
  extract_lets c left
  split
  · exact (BankOnly.refl ..).setCh List.mem_cons_self _
  · exact .refl ..

/-- What a window that opened at tick `t0` and closes at tick `t` will show. -/
def Dev.closing (d : Dev) (k n t0 t : Nat) : ShutWin :=
  let c := d.adcCh k n
  let subst := match (d.bank k).roll with | some r => decide (r.ch = n) && decide (2 ≤ r.phase) | none => false
  let conv := if subst then 16 else n
  let trig := decide (d.rf R.ADC_CHn_CTL_MODE k n = 3)
  let early := trig && decide (t0 < c.noBefore)
  { t0 := t0, t1 := t, range := c.range, conv := conv, n := c.n, settle := if trig then b2n early else c.settle,
    endless := d.adcEndless k n conv c, measured := !(d.bank k).cal && d.flag R.PWR_SUPPLY_VDDA_OK,
    skip := early || (!trig && decide (c.skip ≠ 0)), clear := false, cnt := d.rf R.ADC_CHn_WCNT k n + 1 }

/-- A channel whose window closes, with the window among those that wait for their words, and the next one open. -/
def AdcCh.shuts (c : AdcCh) (w : ShutWin) (next : Option Nat) : AdcCh :=
  { c with opened := next, edges := 0, settle := c.settle - 1, skip := c.skip - 1, shut := c.shut ++ [w] }

variable {k n d} in
theorem Dev.chShut_open {t0 : Nat} (h : (d.adcCh k n).opened = some t0) (t : Nat) (next : Option Nat) :
    let d1 := (d.setCh k n ((d.adcCh k n).shuts (d.closing k n t0 t) next)).wf R.ADC_CHn_WCNT (d.rf R.ADC_CHn_WCNT k n + 1) k n
    d.chShut k n t next = (if (d.bank k).pass.isSome then d1.rollStep k n else d1).chClose k n := by
  unfold Dev.chShut
  dsimp only
  rw [h]
  rfl

variable {n} in
theorem Dev.bankOnly_chShut (hn : n < 16) (t : Nat) (next : Option Nat) : d.BankOnly (R.ADC_CHn_WCNT :: adcWork) k [n] (d.chShut k n t next) := by
  have hd := BankOnly.refl (R.ADC_CHn_WCNT :: adcWork) k [n] d
  cases h : (d.adcCh k n).opened with
  | none =>
    unfold Dev.chShut
    dsimp only
    rw [h]
    exact hd.setCh List.mem_cons_self _
  | some t0 =>
    have hshut := Dev.chShut_open h t next
    extract_lets d1 at hshut
    have h1 : d.BankOnly (R.ADC_CHn_WCNT :: adcWork) k [n] d1 := (hd.setCh List.mem_cons_self _).wfCh _ _ _ hn
    rw [hshut]
    refine BankOnly.trans ?_ ((Dev.bankOnly_chClose k n _).mono (List.subset_cons_self ..) (List.Subset.refl _))
    split
    · exact h1.trans ((Dev.bankOnly_rollStep k d1 hn).mono (List.subset_cons_self ..) (List.nil_subset _))
    · exact h1

/-! ### Visits of the check converter (R240) -/

variable {k} in
/-- A visit begins with two windows of settling, none of its sum and none of its verdict yet, or none begins. -/
theorem Dev.visitNext_begins (t : Nat) : d.visitNext k t = d ∨ ∃ ch aft again, d.visitNext k t =
    (d.setBank k { d.bank k with visit := some { ch := ch, settle := 2, left := d.rf R.ADC_CHK_CFG_CHKWIN k, start := t, seen := t }, after := aft,
                                 again := again }).wf R.ADC_CHK_STAT_VISIT ch k := by
  unfold Dev.visitNext
  extract_lets b win idle shed cand again pick
  split
  · exact .inl rfl
  clear_value pick
  rcases pick with - | ⟨ch, aft, again'⟩
  · exact .inl rfl
  · exact .inr ⟨ch, aft, again', rfl⟩

theorem Dev.bankOnly_visitNext (t : Nat) : d.BankOnly adcWork k [] (d.visitNext k t) := by
  rcases d.visitNext_begins (k := k) t with h | ⟨ch, aft, again, h⟩
  · rw [h]
    exact .refl ..
  · rw [h]
    exact ((BankOnly.refl ..).setBank _).wfBank _ _ _

end Ops

/-- A channel is as before but for the verdict of its last visit. -/
def AdcCh.SameBesideVerdict (c c' : AdcCh) : Prop := c' = { c with mism := c'.mism }

/-- The check converter's work on a channel leaves it as it was beside its verdict. -/
structure Dev.Visits (k n : Nat) (d x : Dev) : Prop extends Dev.BankOnly adcWork k [n] d x where
  same : (d.adcCh k n).SameBesideVerdict (x.adcCh k n)

namespace Dev.Visits

variable {k n : Nat} {d x y : Dev}

theorem of_bankOnly (h : d.BankOnly adcWork k [] x) : d.Visits k n x :=
  ⟨h.mono (List.Subset.refl _) (List.nil_subset _), by rw [h.ch n List.not_mem_nil]; rfl⟩

theorem trans (h : d.Visits k n x) (h' : x.Visits k n y) : d.Visits k n y := by
  refine ⟨h.toBankOnly.trans h'.toBankOnly, ?_⟩
  have hsame := h'.same
  unfold AdcCh.SameBesideVerdict at hsame ⊢
  rw [hsame, h.same]

theorem verdict (k n : Nat) (d : Dev) (b : Bool) : d.Visits k n (d.setCh k n { d.adcCh k n with mism := b }) :=
  ⟨(BankOnly.refl ..).setCh List.mem_cons_self _, by rw [Dev.adcCh_setCh_self]; rfl⟩

end Dev.Visits

theorem Dev.visits_visitEnd (k : Nat) (v : VisitSt) (d : Dev) : d.Visits k v.ch (d.visitEnd k v) := by
  unfold Dev.visitEnd
  extract_lets b win d1
  have h1 : d.Visits k v.ch d1 := .of_bankOnly ((BankOnly.refl ..).setBank _)
  have hshow (b : Bool) (x : Nat) : d.Visits k v.ch ((d1.setCh k v.ch { d1.adcCh k v.ch with mism := b }).wf R.ADC_CHK_STAT_MISMATCH x k) :=
    (h1.trans (.verdict ..)).trans (.of_bankOnly ((BankOnly.refl ..).wfBank _ _ _))
  split
  · exact h1
  split
  · exact (hshow _ _).trans (.of_bankOnly ((BankOnly.refl ..).raise ..))
  · exact hshow _ _

theorem Dev.visits_visitStep (k n : Nat) (w : ShutWin) (res : Option Int) (chk : Int) (ovr : Bool) (d : Dev) :
    d.Visits k n (d.visitStep k n w res chk ovr) := by
  have hset (b : AdcBank) (hb : b.chs = (d.bank k).chs) : d.Visits k n (d.setBank k b) := .of_bankOnly ((BankOnly.refl ..).setBank b hb)
  unfold Dev.visitStep
  extract_lets r
  split
  · exact .of_bankOnly (Dev.bankOnly_visitNext ..)
  · rename_i v hv
    split
    · exact .of_bankOnly (BankOnly.refl ..)
    rename_i hskip
    have hch : v.ch = n := by
      simp only [ne_eq, decide_not, Bool.or_eq_true, Bool.not_eq_true', decide_eq_false_iff_not, not_or, not_not] at hskip
      exact hskip.1
    extract_lets v1 v2 v3
    split
    · exact hset _ rfl
    have hch3 : v3.ch = n := by
      refine Eq.trans ?_ hch
      change v2.ch = v.ch
      unfold v2
      split
      · split <;> rfl
      · rfl
    split
    · exact Dev.Visits.trans (hch3 ▸ Dev.visits_visitEnd k v3 d) (.of_bankOnly (Dev.bankOnly_visitNext ..))
    · exact hset _ rfl

end Sys2Proof.Machine
end

section
/-!
SUPPORT. Calibration of the converters (R236 to R242): BANKCAL, what one measurement sets, restarts of channels, the start of a pass.
-/
namespace Sys2Proof.Machine

/-- What one step of a fold sets and every step keeps, while an invariant holds, stands at its end. -/
theorem foldl_sets {α β : Type} (inv p : β → Prop) (f : β → α → β) {l : List α} {a : α} (ha : a ∈ l) {b : β} (hb : inv b)
    (hinv : ∀ y c, c ∈ l → inv y → inv (f y c)) (hset : ∀ y, inv y → p (f y a)) (hkeep : ∀ y c, c ∈ l → inv y → p y → p (f y c)) :
    p (l.foldl f b) := by
  obtain ⟨pre, post, rfl⟩ := List.append_of_mem ha
  rw [List.foldl_append, List.foldl_cons]
  have hpre : inv (pre.foldl f b) := foldl_keeps inv f pre b hb fun y c hc => hinv y c (List.mem_append_left _ hc)
  refine (foldl_keeps (fun y => inv y ∧ p y) f post _ ⟨hinv _ a ha hpre, hset _ hpre⟩ fun y c hc hy => ?_).2
  have hmem : c ∈ pre ++ a :: post := List.mem_append_right _ (List.mem_cons_of_mem _ hc)
  exact ⟨hinv y c hmem hy.1, hkeep y c hmem hy.1 hy.2⟩

variable {k n : Nat} {d : Dev}

/-! ### A channel restarts (R234) -/

/-- A channel that restarts its windows: two invalid ones, the average empty, nothing closed. -/
def Dev.restarted (d : Dev) (k n : Nat) : AdcCh :=
  { d.chForce k n (d.adcCh k n) with opened := d.chOpens k n, edges := 0, settle := 2, skip := 2, wins := [], shut := [], pairRes := none,
                                     noBefore := d.time.cnt + 2 * d.rf R.ADC_CHn_WLEN_WLEN k n * 20 }

theorem Dev.chRestart_eq (k n : Nat) (d : Dev) : d.chRestart k n = (d.setCh k n (d.restarted k n)).nocalShow k n := rfl

theorem Dev.nocalShow_adc (k n : Nat) (d : Dev) : (d.nocalShow k n).adc = d.adc := by
  unfold Dev.nocalShow
  split <;> rfl

theorem Dev.nocalShow_evt (k n : Nat) (d : Dev) : (d.nocalShow k n).evt = d.evt := by
  unfold Dev.nocalShow
  split <;> rfl

theorem Dev.bank_nocalShow (k n j : Nat) (d : Dev) : (d.nocalShow k n).bank j = d.bank j := Dev.bank_of_adc (Dev.nocalShow_adc k n d) j

theorem Dev.adcCh_nocalShow (k n j m : Nat) (d : Dev) : (d.nocalShow k n).adcCh j m = d.adcCh j m := by
  unfold Dev.adcCh
  rw [Dev.bank_nocalShow]

@[simp] theorem Dev.adcCh_chRestart_self (k n : Nat) (d : Dev) : (d.chRestart k n).adcCh k n = d.restarted k n := by
  rw [Dev.chRestart_eq, Dev.adcCh_nocalShow, Dev.adcCh_setCh_self]

theorem Dev.bankRest_chRestart (k n : Nat) (d : Dev) : (d.chRestart k n).bankRest k = d.bankRest k := by
  rw [Dev.chRestart_eq, Dev.bankRest, Dev.bank_nocalShow]
  exact Dev.bankRest_setCh ..

theorem Dev.chRestart_evt (k n : Nat) (d : Dev) : (d.chRestart k n).evt = d.evt := Dev.nocalShow_evt ..

theorem Dev.nBanks_le (d : Dev) : d.nBanks ≤ 16 := by
  unfold Dev.nBanks Dev.byVariant
  split_ifs <;> decide

/-- The enabled channels of a bank restart. -/
def Dev.restartAll (d : Dev) (k : Nat) : Dev := (d.chsOn k).foldl (fun y n => y.chRestart k n) d

theorem Dev.bankOnly_restartAll (k : Nat) (d : Dev) : d.BankOnly [R.ADC_CHn_STAT_NOCAL] k (d.chsOn k) (d.restartAll k) :=
  (BankOnly.refl ..).foldl _ _ fun y n hn hy => hy.trans ((Dev.bankOnly_chRestart k n y).mono (List.Subset.refl _) (List.cons_subset.2 ⟨hn, List.nil_subset _⟩))

theorem Dev.bankRest_restartAll (k : Nat) (d : Dev) : (d.restartAll k).bankRest k = d.bankRest k :=
  foldl_const (fun y : Dev => y.bankRest k) _ _ _ fun y n => Dev.bankRest_chRestart k n y

theorem Dev.restartAll_evt (k : Nat) (d : Dev) : (d.restartAll k).evt = d.evt :=
  foldl_const Dev.evt _ _ _ fun y n => Dev.chRestart_evt k n y

theorem Dev.restartAll_settles (hn : n ∈ d.chsOn k) : ((d.restartAll k).adcCh k n).settle = 2 ∧ ((d.restartAll k).adcCh k n).wins = [] := by
  refine foldl_sets (fun _ => True) (fun y : Dev => (y.adcCh k n).settle = 2 ∧ (y.adcCh k n).wins = []) (fun y m => y.chRestart k m) hn trivial
    (fun _ _ _ _ => trivial) (fun y _ => ?_) fun y m _ _ hy => ?_
  · rw [Dev.adcCh_chRestart_self]
    exact ⟨rfl, rfl⟩
  · by_cases hm : n = m
    · subst hm
      rw [Dev.adcCh_chRestart_self]
      exact ⟨rfl, rfl⟩
    · rw [(Dev.bankOnly_chRestart k m y).ch n (by simpa using hm)]
      exact hy

/-! ### BANKCAL (R237, R244) -/

/-- A bank whose calibration begins: no pass, no roll, no visit. -/
def AdcBank.calibrating (b : AdcBank) (now : Nat) : AdcBank :=
  { b with cal := true, pass := none, roll := none, chkFirst := false, visit := none, passEnd := if b.pass.isSome then now else b.passEnd }

theorem Dev.bankcal_off (hen : d.flag R.ADC_CTRL_EN k = false) : d.bankcal k = d := if_pos (by rw [hen]; rfl)

theorem Dev.bankcal_busy (hen : d.flag R.ADC_CTRL_EN k = true) (hcal : (d.bank k).cal = true) : d.bankcal k = d.wf R.ADC_CAL_STAT_BUSY 1 k :=
  (if_neg (by rw [hen]; decide)).trans (if_pos hcal)

theorem Dev.bankcal_begins (hen : d.flag R.ADC_CTRL_EN k = true) (hcal : (d.bank k).cal = false) :
    let x := d.bankcal k
    x.bankRest k = { (d.bank k).calibrating d.time.cnt with chs := [] } ∧ x.rf R.ADC_CAL_STAT_STATE k = 1 ∧ ∀ j, j ≠ k → x.bank j = d.bank j := by
  have hx : d.bankcal k = _ := (if_neg (by rw [hen]; decide)).trans (if_neg (by rw [hcal]; decide))
  extract_lets d1 d2 at hx
  have hstate : d2.rf R.ADC_CAL_STAT_STATE k = 1 :=
    (Dev.rf_wf_beside_inBank (F.inBank_bank (by decide) 0 0) (F.inBank_bank (by decide) 0 0) (by decide) ..).trans (Dev.rf_wf_self ..)
  have hfold : d2.BankOnly [R.ADC_CHn_STAT_SUBST] k (d2.chsOn k) (d.bankcal k) ∧ (d.bankcal k).bankRest k = d2.bankRest k := by
    rw [hx]
    refine foldl_keeps (fun y : Dev => d2.BankOnly [R.ADC_CHn_STAT_SUBST] k (d2.chsOn k) y ∧ y.bankRest k = d2.bankRest k) _ _ d2 ⟨.refl .., rfl⟩ ?_
    rintro y n hn ⟨hy, hrest⟩
    exact ⟨(hy.setCh hn _).wfCh _ _ _ (Dev.mem_chsOn.1 hn).1, (Dev.bankRest_setCh ..).trans hrest⟩
  obtain ⟨hframe, hrest⟩ := hfold
  refine ⟨hrest.trans ?_, ?_, fun j hj => ?_⟩
  · unfold d2
    rw [Dev.bankRest_wf, Dev.bankRest_wf]
    exact congrArg (fun b : AdcBank => { b with chs := [] }) (Dev.bank_setBank_self ..)
  · exact (hframe.field _ k 0 0 (F.inBank_bank (by decide) 0 0) (by decide)).trans hstate
  · unfold d2 at hframe
    rw [hframe.bank j hj, Dev.bank_wf, Dev.bank_wf]
    exact Dev.bank_setBank_ne hj ..

/-! ### What one measurement of a range sets (R236, R238) -/

/-- The gain that a measurement gives, and the limits within which offset and gain are taken. -/
def CalMeas.gain (c : CalMeas) : Int := roundDiv (6710886 * 256 * 2 ^ 22) (c.r - c.z).toNat
def CalMeas.Good (c : CalMeas) : Prop :=
  0 < c.r - c.z ∧ c.z.natAbs ≤ 2 ^ 19 * 256 ∧ 95 * 2 ^ 22 ≤ c.gain * 100 ∧ c.gain * 100 ≤ 105 * 2 ^ 22

/-- The model's own judgement. -/
def CalMeas.bad (c : CalMeas) : Bool :=
  let g : Int := if c.r - c.z ≤ 0 then 0 else c.gain
  decide (2 ^ 19 * 256 < c.z.natAbs) || decide (g * 100 < 95 * 2 ^ 22) || decide (105 * 2 ^ 22 < g * 100)

theorem CalMeas.bad_iff (c : CalMeas) : c.bad = true ↔ ¬ c.Good := by
  unfold CalMeas.bad CalMeas.Good
  simp only [Bool.or_eq_true, decide_eq_true_eq]
  generalize c.gain = g
  split <;> omega

/-- The fields that a measurement may set. -/
def calFields : List F := [R.ADC_CAL_REC_FAIL, R.ADC_CAL_STAT_CHKFAIL, R.ADC_CAL_STAT_CALFAIL, R.ADC_CAL_OFF_OFF, R.ADC_CAL_GAIN_G, R.ADC_CAL_REC_VALID,
  R.ADC_CAL_REC_TJ, R.ADC_CAL_REC_PA, R.ADC_CHn_STAT_NOCAL]

/-- A measurement that is refused: the flags it sets before its event. -/
def Dev.calFails (d : Dev) (k : Nat) (c : CalMeas) : Dev :=
  let d := d.wf R.ADC_CAL_REC_FAIL 1 k c.ch c.range
  if c.ch = 16 then d.wf R.ADC_CAL_STAT_CHKFAIL 1 k else d.wf R.ADC_CAL_STAT_CALFAIL (setBits (d.rf R.ADC_CAL_STAT_CALFAIL k) c.ch 1 1) k

/-- A measurement that is taken: offset, gain, record. -/
def Dev.calSets (d : Dev) (k : Nat) (c : CalMeas) : Dev :=
  let d := (d.wf R.ADC_CAL_OFF_OFF (ofS 24 (roundDiv c.z 256)) k c.ch c.range).wf R.ADC_CAL_GAIN_G (ofS 24 c.gain) k c.ch c.range
  let d := (d.wf R.ADC_CAL_REC_VALID 1 k c.ch c.range).wf R.ADC_CAL_REC_FAIL 0 k c.ch c.range
  (d.wf R.ADC_CAL_REC_TJ (ofS 10 c.tj) k c.ch c.range).wf R.ADC_CAL_REC_PA c.pa k c.ch c.range

variable {c : CalMeas}

theorem Dev.calApply_bad (h : ¬ c.Good) :
    d.calApply k c = (d.calFails k c).raise Ev.ADC_CALFAIL k [BitVec.ofNat 8 c.ch, BitVec.ofNat 8 c.range] := by
  have hbad := c.bad_iff.2 h
  unfold CalMeas.bad CalMeas.gain at hbad
  unfold Dev.calApply Dev.calFails
  dsimp only at hbad ⊢
  rw [if_pos hbad]

theorem Dev.calApply_good (h : c.Good) : d.calApply k c = (d.calSets k c).nocalShow k c.ch := by
  have hspan : ¬ c.r - c.z ≤ 0 := not_le.2 h.1
  have hbad : ¬ c.bad = true := fun hb => c.bad_iff.1 hb h
  unfold CalMeas.bad CalMeas.gain at hbad
  unfold Dev.calApply Dev.calSets CalMeas.gain
  dsimp only at hbad ⊢
  rw [if_neg hbad]
  rw [if_neg hspan]

theorem Dev.calApply_adc (k : Nat) (c : CalMeas) (d : Dev) : (d.calApply k c).adc = d.adc := by
  by_cases h : c.Good
  · rw [Dev.calApply_good h, Dev.nocalShow_adc]
    unfold Dev.calSets
    iterate 6 rw [Dev.wf_adc]
  · rw [Dev.calApply_bad h, Dev.raise_adc]
    unfold Dev.calFails
    dsimp only
    split <;> rw [Dev.wf_adc, Dev.wf_adc]

section Range

variable (hch : c.ch ≤ 16) (hrange : c.range < 4)
include hch hrange

theorem Dev.bankOnly_calFails (k : Nat) (d : Dev) : d.BankOnly [R.ADC_CAL_REC_FAIL, R.ADC_CAL_STAT_CHKFAIL, R.ADC_CAL_STAT_CALFAIL] k [] (d.calFails k c) := by
  unfold Dev.calFails
  dsimp only
  have h1 (l : List F) (hl : R.ADC_CAL_REC_FAIL ∈ l) : d.BankOnly l k [] (d.wf R.ADC_CAL_REC_FAIL 1 k c.ch c.range) :=
    (BankOnly.refl ..).wf (F.inBank_conv (by decide) hch hrange) hl ..
  split
  · exact (h1 _ (by decide)).wfBank _ _ _
  · exact (h1 _ (by decide)).wfBank _ _ _

theorem Dev.calFails_shows (k : Nat) (d : Dev) : (d.calFails k c).rf R.ADC_CAL_REC_FAIL k c.ch c.range = 1 := by
  have hrec : R.ADC_CAL_REC_FAIL.InBank c.ch c.range := F.inBank_conv (by decide) hch hrange
  unfold Dev.calFails
  dsimp only
  split
  · exact (Dev.rf_wf_beside_inBank hrec (F.inBank_bank (by decide) 0 0) (by decide) ..).trans (Dev.rf_wf_self ..)
  · exact (Dev.rf_wf_beside_inBank hrec (F.inBank_bank (by decide) 0 0) (by decide) ..).trans (Dev.rf_wf_self ..)

theorem Dev.bankOnly_calSets (k : Nat) (d : Dev) : d.BankOnly calFields k [] (d.calSets k c) := by
  have hconv {f : F} (hf : f.OfConv) : f.InBank c.ch c.range := F.inBank_conv hf hch hrange
  unfold Dev.calSets
  exact ((((((BankOnly.refl ..).wf (hconv (by decide)) (by decide) ..).wf (hconv (by decide)) (by decide) ..).wf (hconv (by decide)) (by decide) ..).wf
    (hconv (by decide)) (by decide) ..).wf (hconv (by decide)) (by decide) ..).wf (hconv (by decide)) (by decide) ..

theorem Dev.calSets_shows (k : Nat) (d : Dev) : let x := d.calSets k c
    x.rf R.ADC_CAL_REC_VALID k c.ch c.range = 1 ∧ x.rf R.ADC_CAL_GAIN_G k c.ch c.range = ofS 24 c.gain ∧
      x.rf R.ADC_CAL_OFF_OFF k c.ch c.range = ofS 24 (roundDiv c.z 256) ∧ x.rf R.ADC_CAL_REC_FAIL k c.ch c.range = 0 := by
  have hconv {f : F} (hf : f.OfConv) : f.InBank c.ch c.range := F.inBank_conv hf hch hrange
  have hofS (x : Int) : ofS 24 x % 2 ^ 24 = ofS 24 x := by
    unfold ofS
    omega
  have hkeep {f g : F} (hg : g.OfConv) (hf : f.OfConv) (h : g.Beside f) (v : Nat) (y : Dev) :
      (y.wf f v k c.ch c.range).rf g k c.ch c.range = y.rf g k c.ch c.range := Dev.rf_wf_beside_inBank (hconv hg) (hconv hf) h ..
  unfold Dev.calSets
  refine ⟨?valid, ?gain, ?off, ?fail⟩
  case valid =>
    iterate 3 rw [hkeep (by decide) (by decide) (by decide)]
    exact Dev.rf_wf_self ..
  case gain =>
    iterate 4 rw [hkeep (by decide) (by decide) (by decide)]
    exact (Dev.rf_wf_self ..).trans (hofS _)
  case off =>
    iterate 5 rw [hkeep (by decide) (by decide) (by decide)]
    exact (Dev.rf_wf_self ..).trans (hofS _)
  case fail =>
    iterate 2 rw [hkeep (by decide) (by decide) (by decide)]
    exact Dev.rf_wf_self ..

theorem Dev.bankOnly_calApply (k : Nat) (d : Dev) : d.BankOnly calFields k [] (d.calApply k c) := by
  by_cases h : c.Good
  · rw [Dev.calApply_good h]
    exact (Dev.bankOnly_calSets hch hrange k d).trans ((Dev.bankOnly_nocalShow ..).mono (by decide) (List.Subset.refl _))
  · rw [Dev.calApply_bad h]
    exact ((Dev.bankOnly_calFails hch hrange k d).mono (by decide) (List.Subset.refl _)).raise ..

/-- A measurement within the limits shows in its records. -/
theorem Dev.calApply_good_shows (h : c.Good) (k : Nat) (d : Dev) : let x := d.calApply k c
    x.rf R.ADC_CAL_REC_VALID k c.ch c.range = 1 ∧ x.rf R.ADC_CAL_GAIN_G k c.ch c.range = ofS 24 c.gain ∧
      x.rf R.ADC_CAL_OFF_OFF k c.ch c.range = ofS 24 (roundDiv c.z 256) ∧ x.rf R.ADC_CAL_REC_FAIL k c.ch c.range = 0 := by
  have hkeep {f : F} (hf : f.OfConv) (hb : ∀ g ∈ [R.ADC_CHn_STAT_NOCAL], f.Beside g) :
      ((d.calSets k c).nocalShow k c.ch).rf f k c.ch c.range = (d.calSets k c).rf f k c.ch c.range :=
    (Dev.bankOnly_nocalShow ..).field f k _ _ (F.inBank_conv hf hch hrange) hb
  rw [Dev.calApply_good h]
  dsimp only
  rw [hkeep (by decide) (by decide), hkeep (by decide) (by decide), hkeep (by decide) (by decide), hkeep (by decide) (by decide)]
  exact Dev.calSets_shows hch hrange k d

/-- Any other leaves the record, flags the failure and raises its event. -/
theorem Dev.calApply_bad_shows (h : ¬ c.Good) (k : Nat) (d : Dev) : let x := d.calApply k c
    x.rf R.ADC_CAL_REC_FAIL k c.ch c.range = 1 ∧ x.rf R.ADC_CAL_REC_VALID k c.ch c.range = d.rf R.ADC_CAL_REC_VALID k c.ch c.range ∧
      Raises Ev.ADC_CALFAIL k d x := by
  have hin {f : F} (hf : f.OfConv) : f.InBank c.ch c.range := F.inBank_conv hf hch hrange
  rw [Dev.calApply_bad h]
  dsimp only
  rw [Dev.rf_raise_inBank (hin (by decide)), Dev.rf_raise_inBank (hin (by decide))]
  refine ⟨Dev.calFails_shows hch hrange .., (Dev.bankOnly_calFails hch hrange k d).field _ k _ _ (hin (by decide)) (by decide), d.calFails k c, _, ?_, rfl⟩
  unfold Dev.calFails
  dsimp only
  split <;> rw [Dev.wf_evt, Dev.wf_evt]

end Range

/-! ### A bank calibration ends (R237) -/

/-- A bank back in service: STATE idle, every enabled channel restarted. -/
def Dev.calEnds (d : Dev) (k : Nat) : Dev := ((d.setBank k { d.bank k with cal := false }).wf R.ADC_CAL_STAT_STATE 0 k).restartAll k

theorem Dev.bankcalDone_eq (hcal : (d.bank k).cal = true) (hon : c.ch = 16 ∨ d.chOn k c.ch = true) :
    d.bankcalDone k [c] = (d.calApply k c).calEnds k := by
  have htake : (decide (c.ch = 16) || d.chOn k c.ch) = true := by simpa using hon
  unfold Dev.bankcalDone
  rw [if_pos hcal]
  dsimp only [List.foldl_cons, List.foldl_nil]
  rw [if_pos htake]
  rfl

theorem Dev.calEnds_shows (k : Nat) (d : Dev) : let x := d.calEnds k
    (x.bank k).cal = false ∧ x.rf R.ADC_CAL_STAT_STATE k = 0 ∧ (∀ n ∈ d.chsOn k, (x.adcCh k n).settle = 2 ∧ (x.adcCh k n).wins = []) ∧
      (∀ f i j, f.OfConv → i ≤ 16 → j < 4 → x.rf f k i j = d.rf f k i j) ∧ x.evt = d.evt := by
  unfold Dev.calEnds
  have h1 : d.BankOnly [R.ADC_CAL_STAT_STATE] k [] ((d.setBank k { d.bank k with cal := false }).wf R.ADC_CAL_STAT_STATE 0 k) :=
    ((BankOnly.refl ..).setBank _).wfBank _ _ _
  have hcal : (((d.setBank k { d.bank k with cal := false }).wf R.ADC_CAL_STAT_STATE 0 k).bank k).cal = false := by
    rw [Dev.bank_wf, Dev.bank_setBank_self]
  have hstate := Dev.rf_wf_self R.ADC_CAL_STAT_STATE 0 (d.setBank k { d.bank k with cal := false }) k 0 0
  have hevt : ((d.setBank k { d.bank k with cal := false }).wf R.ADC_CAL_STAT_STATE 0 k).evt = d.evt := by
    rw [Dev.wf_evt]
    rfl
  generalize (d.setBank k { d.bank k with cal := false }).wf R.ADC_CAL_STAT_STATE 0 k = y at h1 hcal hstate hevt ⊢
  have h2 := Dev.bankOnly_restartAll k y
  have hbeside {f : F} (hf : f.OfConv) {g : F} (hg : g.off < 0x800) : f.Beside g := .inl (Nat.ne_of_gt (Nat.lt_of_lt_of_le hg hf.2.1))
  refine ⟨?_, ?_, fun n hn => ?_, fun f i j hf hi hj => ?_, ?_⟩
  · have hrest := Dev.bankRest_restartAll k y
    unfold Dev.bankRest at hrest
    rw [AdcBank.mk.injEq] at hrest
    obtain ⟨-, -, -, -, -, -, -, hsame, -⟩ := hrest
    exact hsame.trans hcal
  · exact (h2.field _ k 0 0 (F.inBank_bank (by decide) 0 0) (by decide)).trans hstate
  · rw [← h1.chsOn (by decide)] at hn
    exact Dev.restartAll_settles hn
  · have hin : f.InBank i j := F.inBank_conv hf hi hj
    refine (h2.field f k i j hin fun g hg => ?_).trans (h1.field f k i j hin fun g hg => ?_)
    · rw [List.mem_singleton.1 hg]
      exact hbeside hf (by decide)
    · rw [List.mem_singleton.1 hg]
      exact hbeside hf (by decide)
  · rw [Dev.restartAll_evt, hevt]

/-! ### The load that waits for the calibration (R59) -/

/-- The rehearsal that step 10 of a load goes on to leaves the converters and the recorder. -/
theorem Dev.rehearse_leaves (d : Dev) : d.rehearse.adc = d.adc ∧ d.rehearse.evt = d.evt ∧ ∀ a, a < 0x3200000 → d.rehearse.rw a = d.rw a := by
  unfold Dev.rehearse
  refine foldl_keeps (fun y : Dev => y.adc = d.adc ∧ y.evt = d.evt ∧ ∀ a, a < 0x3200000 → y.rw a = d.rw a) _ _ _ ⟨rfl, rfl, fun _ _ => rfl⟩ ?_
  rintro y g - ⟨hadc, hevt, hw⟩
  refine ⟨hadc, hevt, fun a ha => (Dev.rw_wf_ne _ _ (Nat.ne_of_lt ?_)).trans (hw a ha)⟩
  simp only [F.addr, R.RGN_RAIL_MV, Blk.base]
  omega

theorem Dev.bankcalEnd_leaves (k : Nat) (ms : List CalMeas) (d : Dev) : let x := d.bankcalDone k ms
    (d.bankcalEnd k ms).adc = x.adc ∧ (d.bankcalEnd k ms).evt = x.evt ∧ ∀ a, a < 0x3200000 → (d.bankcalEnd k ms).rw a = x.rw a := by
  unfold Dev.bankcalEnd
  generalize d.bankcalDone k ms = x
  dsimp only
  split
  · split
    · split
      · exact Dev.rehearse_leaves _
      · exact ⟨rfl, rfl, fun _ _ => rfl⟩
    · exact ⟨rfl, rfl, fun _ _ => rfl⟩
  · exact ⟨rfl, rfl, fun _ _ => rfl⟩

/-! ### A pass starts (R241, R242) -/

/-- A pass over enabled channels, none of which has been tried, goes on; STATE is left. -/
theorem Dev.passNext_goesOn {l : List Nat} (hpass : (d.bank k).pass = some l) (hne : l ≠ []) (hon : ∀ n ∈ l, d.chOn k n = true)
    (htried : (d.bank k).chkTried = false) (hvisit : (d.bank k).visit = none) :
    ((d.passNext k).bank k).pass.isSome = true ∧ (d.passNext k).rf R.ADC_CAL_STAT_STATE k = d.rf R.ADC_CAL_STAT_STATE k ∧
      ((d.passNext k).bank k).visit = none := by
  have hstate (v : Nat) (y : Dev) : (y.wf R.ADC_CAL_STAT_CH v k).rf R.ADC_CAL_STAT_STATE k = y.rf R.ADC_CAL_STAT_STATE k :=
    Dev.rf_wf_beside_inBank (F.inBank_bank (by decide) 0 0) (F.inBank_bank (by decide) 0 0) (by decide) ..
  have hsome : (d.bank k).pass.isSome = true := by rw [hpass]; rfl
  obtain ⟨n, t, rfl⟩ := List.exists_cons_of_ne_nil hne
  have hn := hon n List.mem_cons_self
  unfold Dev.passNext
  extract_lets b able
  have hable : able n = true := by
    unfold able b
    rw [hn, htried]
    rfl
  have hdrop : b.pass.map (fun l => l.dropWhile fun n => !able n) = some (n :: t) := by
    unfold b
    rw [hpass, Option.map_some, List.dropWhile_cons_of_neg (by rw [hable]; decide)]
  rw [hdrop]
  dsimp only
  split
  · exact ⟨hsome, rfl, hvisit⟩
  split
  · rw [Dev.bank_wf, hstate]
    exact ⟨hsome, rfl, hvisit⟩
  split
  · rw [Dev.bank_wf, Dev.bank_setBank_self, hstate]
    exact ⟨rfl, rfl, rfl⟩
  · rw [Dev.bank_wf, Dev.bank_setBank_self, hstate]
    exact ⟨rfl, rfl, rfl⟩

/-- A pass over the enabled channels has begun. -/
def Dev.PassBegun (k : Nat) (d x : Dev) : Prop :=
  (x.bank k).pass.isSome = true ∧ x.rf R.ADC_CAL_STAT_STATE k = 2 ∧ (x.bank k).visit = none ∧ (∀ j, j ≠ k → x.bank j = d.bank j) ∧
    ∀ n, x.adcCh k n = d.adcCh k n

theorem Dev.passStart_begins (hne : d.chsOn k ≠ []) (chk : Bool) : Dev.PassBegun k d (d.passStart k (d.chsOn k) chk) := by
  have hframe := Dev.bankOnly_passStart k d (d.chsOn k) chk
  let b : AdcBank := { d.bank k with pass := some (d.chsOn k), chkFirst := chk || (d.chsOn k).any (fun n => !d.calOk k 16 (d.adcCh k n).range),
                                     chkTried := false, roll := none, visit := none, stale := false, taken := [] }
  let x := (d.setBank k b).wf R.ADC_CAL_STAT_STATE 2 k
  have hx : d.passStart k (d.chsOn k) chk = x.passNext k := rfl
  have h1 : d.BankOnly [R.ADC_CAL_STAT_STATE] k [] x := ((BankOnly.refl ..).setBank b).wfBank _ _ _
  have hb : x.bank k = b := (Dev.bank_wf ..).trans (Dev.bank_setBank_self k b d)
  have hon (n : Nat) (hn : n ∈ d.chsOn k) : x.chOn k n = true := by
    obtain ⟨h16, hon⟩ := Dev.mem_chsOn.1 hn
    rw [h1.chOn (by decide) k h16, hon]
  obtain ⟨hpass, hstate, hvisit⟩ := Dev.passNext_goesOn (d := x) (congrArg AdcBank.pass hb) hne hon (congrArg AdcBank.chkTried hb)
    (congrArg AdcBank.visit hb)
  rw [← hx] at hpass hstate hvisit
  exact ⟨hpass, hstate.trans (Dev.rf_wf_self ..), hvisit, hframe.bank, fun n => hframe.ch n List.not_mem_nil⟩

end Sys2Proof.Machine

open Sys2Proof Sys2Proof.Machine

/-- Settles O43: a bank calibration begins (`Dev.bankcal_begins`) and ends with what its measurement sets (`Dev.calSets_shows`, `Dev.calFails_shows`) and
restarts (`Dev.restartAll_settles`), a pass starts (`Dev.passStart_begins`), and an abandoned visit is due again (`Dev.visitNext_begins`). -/
theorem converterCalibration : Obligations.ConverterCalibration := by
  unfold Obligations.ConverterCalibration
  intro s k c hk b starts span g good
  have hgood : good ↔ c.Good := Iff.rfl
  refine ⟨fun hen => ⟨fun hcal => ?begins, fun hcal => ?busy, fun hcal hpass hne => ⟨?roll, fun hup hauto hdue => ?autocal⟩⟩, fun hen => ⟨?calOff, ?rollOff⟩,
    ?stop, fun hcal hch hrange hon => ?calDone, fun l r hpass hfirst hroll hphase hab hend hc hrange => ?rollDone, fun v hv => ⟨fun hlt => ?early, fun hle => ?late⟩⟩
  case begins =>
    obtain ⟨hrest, hstate, hothers⟩ := Dev.bankcal_begins hen hcal
    exact does_regCmd (f := Dev.bankcal k) rfl hk ⟨congrArg AdcBank.cal hrest, congrArg AdcBank.pass hrest, congrArg AdcBank.roll hrest, congrArg AdcBank.visit hrest, hstate, hothers⟩
  case busy =>
    refine does_regCmd (f := Dev.bankcal k) rfl hk ?_
    rw [Dev.bankcal_busy hen hcal]
    exact ⟨Dev.rf_wf_self .., Dev.wf_beside rfl ..⟩
  case roll =>
    have hroll : s.dev.roll k = s.dev.passStart k (s.dev.chsOn k) false := by
      refine (if_neg (by rw [hen]; decide)).trans (if_neg ?_)
      change ¬ (b.cal || b.pass.isSome) = true
      rw [hcal, hpass]
      decide
    refine does_regCmd (f := Dev.roll k) rfl hk ?_
    rw [hroll]
    exact Dev.passStart_begins hne _
  case autocal =>
    refine does_guarded rfl (decide_eq_true hk) ?_
    dsimp only
    have ha : s.dev.rf R.ADC_BANK_CFG_AUTOCAL k = 2 ∨ s.dev.rf R.ADC_BANK_CFG_AUTOCAL k = 3 := by
      have := bitsOf_lt (s.dev.rw (R.ADC_BANK_CFG_AUTOCAL.addr k 0 0)) 1 2
      change s.dev.rf R.ADC_BANK_CFG_AUTOCAL k < 2 ^ 2 at this
      omega
    rw [if_pos]
    · exact Dev.passStart_begins hne _
    · simp only [hup, hen, Bool.true_and, Bool.and_true, Bool.and_eq_true, Bool.or_eq_true, decide_eq_true_eq, Bool.not_eq_true']
      exact ⟨⟨⟨ha, hdue⟩, by rw [show (s.dev.bank k).pass = none from hpass]; rfl⟩, hcal⟩
  case calOff =>
    exact does_regCmd (f := Dev.bankcal k) rfl hk (Dev.bankcal_off hen)
  case rollOff =>
    exact does_regCmd (f := Dev.roll k) rfl hk (if_pos (by rw [hen]; rfl))
  case stop =>
    refine does_regCmd (f := Dev.stoproll k) rfl hk ?_
    unfold Dev.stoproll
    rw [Dev.bank_setBank_self]
    exact ⟨rfl, rfl, rfl⟩
  case calDone =>
    obtain ⟨hadc, hevt, hw⟩ := Dev.bankcalEnd_leaves k [c] s.dev
    rw [Dev.bankcalDone_eq hcal hon] at hadc hevt hw
    have hk16 : k < 16 := Nat.lt_of_lt_of_le hk s.dev.nBanks_le
    have hframe := Dev.bankOnly_calApply hch hrange k s.dev
    have hb := Dev.bank_of_adc hadc k
    obtain ⟨hidle, hstate, hsettle, hrec, hraise⟩ := Dev.calEnds_shows k (s.dev.calApply k c)
    refine does_guarded (f := Dev.bankcalEnd k [c]) rfl (decide_eq_true hk) ?_
    have hrf {f : F} {i j : Nat} (hf : f.InBank i j) : (s.dev.bankcalEnd k [c]).rf f k i j = ((s.dev.calApply k c).calEnds k).rf f k i j := by
      obtain ⟨ha, hin⟩ := hf.addr_eq k
      unfold Dev.rf
      rw [hw _ (by omega)]
    have hconv {f : F} (hf : f.OfConv) : (s.dev.bankcalEnd k [c]).rf f k c.ch c.range = (s.dev.calApply k c).rf f k c.ch c.range :=
      (hrf (F.inBank_conv hf hch hrange)).trans (hrec f _ _ hf hch hrange)
    unfold Dev.adcCh at hsettle ⊢
    rw [hb, hrf (F.inBank_bank (by decide) 0 0), hconv (by decide), hconv (by decide), hconv (by decide), hconv (by decide)]
    refine ⟨hidle, hstate, fun n hn => hsettle n (by rwa [hframe.chsOn (by decide)]), fun hg => Dev.calApply_good_shows hch hrange (hgood.1 hg) k s.dev,
      fun hg => ?_⟩
    obtain ⟨hfail, hvalid, y, data, hy, hx⟩ := Dev.calApply_bad_shows hch hrange (fun h => hg (hgood.2 h)) k s.dev
    exact ⟨hfail, hvalid, y, data, hy, (hevt.trans hraise).trans hx⟩
  case rollDone =>
    let d1 := s.dev.calApply k c
    have hadc : d1.adc = s.dev.adc := Dev.calApply_adc ..
    have hb (j : Nat) : d1.bank j = s.dev.bank j := Dev.bank_of_adc hadc j
    have hx : s.dev.rollCalDone k [c] = d1.setBank k { d1.bank k with roll := some { r with calEnded := true } } := by
      unfold Dev.rollCalDone
      dsimp only
      rw [show (s.dev.bank k).pass = some l from hpass, show (s.dev.bank k).chkFirst = false from hfirst, show (s.dev.bank k).roll = some r from hroll]
      have htake : (decide (c.ch = r.ch) && decide (c.range = (s.dev.adcCh k r.ch).range)) = true := by simp [hc, hrange]
      dsimp only
      rw [if_neg Bool.false_ne_true, if_pos (by rw [hphase, hab, hend]; rfl), List.filter_cons_of_pos (by exact htake)]
      rfl
    refine does_guarded (f := Dev.rollCalDone k [c]) rfl (decide_eq_true hk) ?_
    rw [hx, Dev.bank_setBank_self, hb k]
    exact ⟨rfl, hpass, fun j hj => (Dev.bank_setBank_ne hj ..).trans (hb j)⟩
  case early =>
    refine does_guarded rfl (decide_eq_true hk) ?_
    dsimp only
    rw [show (s.dev.bank k).visit = some v from hv]
    exact if_pos hlt
  case late =>
    refine does_guarded rfl (decide_eq_true hk) ?_
    dsimp only
    rw [show (s.dev.bank k).visit = some v from hv]
    dsimp only
    rw [if_neg (Nat.not_lt.2 hle)]
    let b1 : AdcBank := { s.dev.bank k with visit := none, again := (s.dev.bank k).again ++ [v.ch] }
    have hothers (j : Nat) (hj : j ≠ k) : (s.dev.setBank k b1).bank j = s.dev.bank j := Dev.bank_setBank_ne hj ..
    change (∀ x, (((s.dev.setBank k b1).visitNext k s.dev.time.cnt).bank k).visit = some x → _) ∧
      ((((s.dev.setBank k b1).visitNext k s.dev.time.cnt).bank k).visit = none → _) ∧ _
    rcases (s.dev.setBank k b1).visitNext_begins (k := k) s.dev.time.cnt with h | ⟨ch, aft, again, h⟩
    · rw [h, Dev.bank_setBank_self]
      exact ⟨fun x hx => (nomatch (show none = some x from hx)), fun _ => List.mem_append_right _ List.mem_cons_self, hothers⟩
    · rw [h, Dev.bank_wf, Dev.bank_setBank_self]
      refine ⟨fun x hx => ?_, fun hnone => (Option.some_ne_none _ hnone).elim, fun j hj => (Dev.bank_setBank_ne hj ..).trans (hothers j hj)⟩
      cases hx
      exact ⟨rfl, rfl, rfl, rfl, rfl, rfl⟩
end

section
/-!
SUPPORT. Writes of a channel's settings (R226, R234): the refusal as a whole, an enable, a disable, a length of a channel that is off.
-/
namespace Sys2Proof.Machine

variable {k n w : Nat} {wlen : Bool} {m : AdcMeas} {d : Dev}

/-! ### The write as a whole -/

theorem does_adcChWrite {s : State} {w : Word} {P : Dev → Prop} (hk : k < s.dev.nBanks) (hn : n < 16) (hp : P (s.dev.adcChWrite k n wlen w.toNat m).1) :
    Does (.adcChWrite k n wlen w m) s P := by
  refine does_regCmd (g := if wlen then R.ADC_CHn_WLEN else R.ADC_CHn_CTL) (k := k) (i := n) (f := fun d => (d.adcChWrite k n wlen w.toNat m).1) ?_ ?_ hp
  · exact congrArg (s.regCmd _ k n · _) (decide_eq_true hn)
  · cases wlen <;> exact hk

theorem Dev.adcChWrite_refused (h : (if wlen then d.wlenOk k (w % 2 ^ 22) else d.ctlOk k n w) = false) :
    d.adcChWrite k n wlen w m = (d.wf R.ADC_CHn_STAT_REFUSED 1 k n, true) := if_pos (by rw [h]; rfl)

theorem Dev.adcChWrite_alone (h : (if wlen then d.wlenOk k (w % 2 ^ 22) else d.ctlOk k n w) = true) (hp : d.pairOf k n = none) :
    (d.adcChWrite k n wlen w m).1 = d.chChange k n wlen w m := by
  unfold Dev.adcChWrite
  dsimp only
  rw [if_neg (by rw [h]; decide), hp]

/-! ### A change of one channel -/

/-- A channel before its settings change: its roll abandoned, what is left of a trigger's invalid samples counted. -/
def Dev.chReady (d : Dev) (k n : Nat) (wlen : Bool) (w : Nat) : Dev := (if d.chNew k n wlen w then d.rollAbandon k n else d).chLapse k n

theorem Dev.bankOnly_chReady (hn : n < 16) (k : Nat) (wlen : Bool) (w : Nat) (d : Dev) : d.BankOnly adcWork k [n] (d.chReady k n wlen w) := by
  unfold Dev.chReady
  refine BankOnly.trans ?_ (Dev.bankOnly_chLapse k n _)
  split
  · exact (Dev.bankOnly_rollAbandon k d hn).mono (List.Subset.refl _) (List.nil_subset _)
  · exact .refl ..

/-- The control word that a write leaves: PAIRED stays. -/
def ctlWord (w old : Nat) : Nat := setBits w 12 1 (bitsOf old 12 1) % 2 ^ 32

/-- Below PAIRED it is the word written. -/
theorem bitsOf_ctlWord {lo wd : Nat} (h : lo + wd ≤ 12) (w old : Nat) : bitsOf (ctlWord w old) lo wd = bitsOf w lo wd := by
  unfold ctlWord
  rw [← bitsOf_setBits_ne w 12 1 (bitsOf old 12 1) lo wd (.inl h)]
  apply Nat.eq_of_testBit_eq
  intro i
  rw [bitsOf_testBit, bitsOf_testBit, Nat.testBit_mod_two_pow]
  by_cases hi : i < wd
  · rw [decide_eq_true (show lo + i < 32 by omega), Bool.true_and]
  · rw [decide_eq_false hi, Bool.false_and, Bool.false_and]

/-- The device with a channel's control word written. -/
def Dev.ctlSet (d : Dev) (k n w : Nat) : Dev :=
  let x := d.chReady k n false w
  x.ww (R.ADC_CHn_CTL.addr k n 0) (ctlWord w (x.rw (R.ADC_CHn_CTL.addr k n 0)))

theorem Dev.rf_ctlSet {f : F} (ha : f.addr k n 0 = R.ADC_CHn_CTL.addr k n 0) (h : f.lo + f.w ≤ 12) (w : Nat) (d : Dev) :
    (d.ctlSet k n w).rf f k n = bitsOf w f.lo f.w := by
  unfold Dev.rf Dev.ctlSet
  dsimp only
  rw [ha, Dev.rw_ww_self, bitsOf_ctlWord h]

/-- EN as the ready channel has it. -/
theorem Dev.bitsOf_chReady_en (hn : n < 16) (k : Nat) (wlen : Bool) (w : Nat) (d : Dev) :
    bitsOf ((d.chReady k n wlen w).rw (R.ADC_CHn_CTL.addr k n 0)) 0 1 = d.rf R.ADC_CHn_CTL_EN k n :=
  (Dev.bankOnly_chReady hn k wlen w d).field R.ADC_CHn_CTL_EN k n 0 (F.inBank_ch (by decide) hn 0) (by decide)

theorem Dev.chChange_enable (hn : n < 16) (hold : d.rf R.ADC_CHn_CTL_EN k n = 0) (hnew : bitAt w 0 = true) :
    d.chChange k n false w m = ((d.ctlSet k n w).chRestart k n).wf R.ADC_CHn_WCNT 0 k n := by
  have hx : d.chChange k n false w m = _ := if_pos ((Dev.bitsOf_chReady_en hn k false w d).trans hold)
  exact hx.trans (if_pos (of_decide_eq_true hnew))

theorem Dev.chChange_disable (hn : n < 16) (hold : d.rf R.ADC_CHn_CTL_EN k n = 1) (hnew : bitAt w 0 = false) :
    d.chChange k n false w m = (d.ctlSet k n w).chStop k n := by
  have hbit : bitsOf w 0 1 = 0 := by
    have := bitsOf_lt w 0 1
    have := of_decide_eq_false hnew
    omega
  have hx : d.chChange k n false w m = _ := if_neg (by
    change ¬ bitsOf ((d.chReady k n false w).rw (R.ADC_CHn_CTL.addr k n 0)) 0 1 = 0
    rw [Dev.bitsOf_chReady_en hn, hold]
    decide)
  exact hx.trans (if_pos hbit)

/-! ### An enabled channel stops (R222) -/

/-- The fields that a stopped channel clears beside its word. -/
def stopFields : List F := [R.ADC_CHn_STAT_VALID, R.ADC_CHn_STAT_STALE, R.ADC_CHn_STAT_CHKMM, R.ADC_CHn_STAT_SETTLE] ++ adcWork

/-- The device without a channel's windows and word. -/
def Dev.chCleared (d : Dev) (k n : Nat) : Dev :=
  { ((d.setCh k n { d.adcCh k n with opened := none, wins := [], settle := 0, skip := 0, pend := false, shut := [], waits := false,
                                      pairRes := none }).wf R.ADC_CHn_LAST 0 k n) with rimIn := Tbl.del (16 * k + n) d.rimIn }

theorem Dev.bankOnly_chStop (hn : n < 16) (k : Nat) (d : Dev) : (d.chCleared k n).BankOnly stopFields k [] (d.chStop k n) := by
  unfold Dev.chStop
  extract_lets c d1 d2 d3 d4 d5 b d6
  change d3.BankOnly stopFields k [] _
  have h5 : d3.BankOnly stopFields k [] d5 := by
    unfold d5 d4
    exact ((((BankOnly.refl ..).wfCh _ _ _ hn).wfCh _ _ _ hn).wfCh _ _ _ hn).wfCh _ _ _ hn
  have h6 : d3.BankOnly stopFields k [] d6 := by
    unfold d6
    split
    · exact h5.setBank _
    · exact h5
  split
  · exact h6.trans ((Dev.bankOnly_rollEnd k d6 hn).mono (by decide) (List.Subset.refl _))
  · exact h6

theorem Dev.chStop_stops (hn : n < 16) (k : Nat) (d : Dev) : let x := d.chStop k n
    x.rf R.ADC_CHn_CTL_EN k n = d.rf R.ADC_CHn_CTL_EN k n ∧ x.rf R.ADC_CHn_LAST_WORD k n = 0 ∧ Tbl.get? x.rimIn (16 * k + n) = none ∧
      (x.adcCh k n).wins = [] ∧ (x.adcCh k n).opened = none ∧ (x.adcCh k n).waits = false := by
  have htail := Dev.bankOnly_chStop hn k d
  have hen : (d.chCleared k n).rf R.ADC_CHn_CTL_EN k n = d.rf R.ADC_CHn_CTL_EN k n :=
    Dev.rf_wf_beside_inBank (F.inBank_ch (by decide) hn 0) (F.inBank_ch (by decide) hn 0) (by decide) ..
  have hch : (d.chCleared k n).adcCh k n = _ := Dev.adcCh_setCh_self k n _ d
  dsimp only
  rw [htail.ch n List.not_mem_nil, hch, htail.rimIn, htail.field _ k n 0 (F.inBank_ch (by decide) hn 0) (by decide),
    htail.field _ k n 0 (F.inBank_ch (by decide) hn 0) (by decide), hen]
  exact ⟨rfl, Dev.rf_wf_self R.ADC_CHn_LAST .., Tbl.get?_del_self .., rfl, rfl, rfl⟩

/-! ### The length of a channel that is off (R226) -/

theorem Dev.bankOnly_partialEnd (hoff : d.chOn k n = false) (m : AdcMeas) : d.BankOnly adcWork k [n] (d.partialEnd k n m) := by
  unfold Dev.partialEnd
  extract_lets c inv d1 d2 c2
  have h1 : d.BankOnly adcWork k [n] d1 := (BankOnly.refl ..).setCh List.mem_cons_self _
  have hoff1 : d1.chOn k n = false := hoff
  have hd2 : d2 = d1.chClose k n := if_neg (by rw [hoff1, Bool.false_and]; exact Bool.false_ne_true)
  have h2 : d.BankOnly adcWork k [n] d2 := by
    rw [hd2]
    exact h1.trans (Dev.bankOnly_chClose ..)
  split
  · exact h2.setCh List.mem_cons_self _
  · exact h2

theorem Dev.chChange_wlen_off (hn : n < 16) (hoff : d.chOn k n = false) : let x := d.chChange k n true w m
    x.rf R.ADC_CHn_WLEN_WLEN k n = w % 2 ^ 22 ∧ x.rw (R.ADC_CHn_CTL.addr k n 0) = d.rw (R.ADC_CHn_CTL.addr k n 0) := by
  have hready := Dev.bankOnly_chReady hn k true w d
  have hwlen : (d.chReady k n true w).BankOnly [R.ADC_CHn_WLEN_WLEN] k [] ((d.chReady k n true w).wf R.ADC_CHn_WLEN_WLEN w k n) :=
    (BankOnly.refl ..).wfCh _ _ _ hn
  have hoff1 : ((d.chReady k n true w).wf R.ADC_CHn_WLEN_WLEN w k n).chOn k n = false := by
    rw [hwlen.chOn (by decide) k hn, hready.chOn (by decide) k hn, hoff]
  have htail : ((d.chReady k n true w).wf R.ADC_CHn_WLEN_WLEN w k n).BankOnly adcWork k [n] (d.chChange k n true w m) := by
    unfold Dev.chChange
    extract_lets d0 old mode d1
    rw [if_pos rfl]
    split
    · exact Dev.bankOnly_partialEnd hoff1 m
    · exact .refl ..
  have hctl : R.ADC_CHn_CTL.InBank n 0 := F.inBank_ch (by decide) hn 0
  dsimp only
  refine ⟨(htail.field _ k n 0 (F.inBank_ch (by decide) hn 0) (by decide)).trans (Dev.rf_wf_self ..), ?_⟩
  rw [htail.word hctl rfl (by decide), hwlen.word hctl rfl (by decide), hready.word hctl rfl (by decide)]

/-! ### An enable (R234) -/

/-- Where a channel's windows begin, by its mode and the lock. -/
theorem Dev.chOpens_eq {mode : Nat} (h : d.rf R.ADC_CHn_CTL_MODE k n = mode) :
    d.chOpens k n = if mode = 1 then some d.time.cnt else if mode = 2 ∧ d.mains.lock = false then some d.time.cnt else none := by
  unfold Dev.chOpens
  rw [h]
  rcases mode with _ | _ | _ | m
  · rfl
  · rfl
  · cases d.mains.lock <;> rfl
  · rfl

/-- A control word whose EN is set enables a channel that was off: the settings are the word's, the windows start anew. -/
theorem Dev.chChange_enables (hn : n < 16) (hold : d.rf R.ADC_CHn_CTL_EN k n = 0) (hnew : bitAt w 0 = true) : let x := d.chChange k n false w m
    (∀ f, f.OfCh → f.off = 0x100 → f.lo + f.w ≤ 12 → x.rf f k n = bitsOf w f.lo f.w) ∧ x.rf R.ADC_CHn_WCNT_COUNT k n = 0 ∧
      x.adcCh k n = (d.ctlSet k n w).restarted k n ∧ ∀ j, j ≠ k → x.bank j = d.bank j := by
  have hframe := Dev.bankOnly_chRestart k n (d.ctlSet k n w)
  rw [Dev.chChange_enable hn hold hnew]
  refine ⟨fun f hf hoff hw => ?_, Dev.rf_wf_self R.ADC_CHn_WCNT .., ?_, fun j hj => ?_⟩
  · have hin : f.InBank n 0 := F.inBank_ch hf hn 0
    have ha : f.addr k n 0 = R.ADC_CHn_CTL.addr k n 0 := by
      obtain ⟨hb, -, -, h1, h2⟩ := hf
      unfold F.addr
      rw [hb, hoff, h1, h2]
      rfl
    rw [Dev.rf_wf_beside_inBank hin (F.inBank_ch (by decide) hn 0) (.inl (by rw [hoff]; decide)),
      hframe.field f k n 0 hin fun g hg => .inl (by rw [hoff, List.mem_singleton.1 hg]; decide), Dev.rf_ctlSet ha hw]
  · rw [Dev.adcCh_wf, Dev.adcCh_chRestart_self]
  · rw [Dev.bank_wf, hframe.bank j hj]
    exact (Dev.bankOnly_chReady hn k false w d).bank j hj

end Sys2Proof.Machine

open Sys2Proof Sys2Proof.Machine

/-- Settles O42: a refused write sets REFUSED alone (`Dev.adcChWrite_refused`); any other changes the one channel, which starts anew (`Dev.chChange_enables`),
stops (`Dev.chStop_stops`), or, while it is off, takes another length (`Dev.chChange_wlen_off`). -/
theorem converterSettings : Obligations.ConverterSettings := by
  unfold Obligations.ConverterSettings
  intro s k n w m hk hn setting
  have refused (wlen : Bool) (h : (if wlen then s.dev.wlenOk k (w.toNat % 2 ^ 22) else s.dev.ctlOk k n w.toNat) = false) : setting wlen := by
    have hstat : R.ADC_CHn_STAT_REFUSED.InBank n 0 := F.inBank_ch (by decide) hn 0
    refine does_adcChWrite hk hn ?_
    rw [Dev.adcChWrite_refused h]
    exact ⟨Dev.rf_wf_self .., Dev.rw_wf_ne _ _ ((F.inBank_ch (by decide) hn 0).addr_ne hstat (.inl (by decide))),
      Dev.rw_wf_ne _ _ ((F.inBank_ch (by decide) hn 0).addr_ne hstat (.inl (by decide))), Dev.wf_beside rfl ..⟩
  refine ⟨refused false, refused true, fun hok hp hold hnew => ?enable, fun hp hold hnew => ?disable, fun hok hp hoff => ?wlen⟩
  case enable =>
    obtain ⟨hctl, hcount, hch, hothers⟩ := Dev.chChange_enables (m := m) hn hold hnew
    have hready := Dev.bankOnly_chReady hn k false w.toNat s.dev
    have htime : (s.dev.ctlSet k n w.toNat).time = s.dev.time := hready.time
    have hmains : (s.dev.ctlSet k n w.toNat).mains = s.dev.mains := hready.mains
    refine does_adcChWrite hk hn ?_
    rw [Dev.adcChWrite_alone (wlen := false) hok hp, hch]
    refine ⟨(hctl _ (by decide) rfl (by decide)).trans (of_decide_eq_true hnew), hctl _ (by decide) rfl (by decide), hctl _ (by decide) rfl (by decide),
      hctl _ (by decide) rfl (by decide), hcount, rfl, rfl, rfl, Dev.rf_ctlSet (f := R.ADC_CHn_CTL_RANGE) rfl (by decide) .., ?_, hothers⟩
    have hmode := Dev.rf_ctlSet (f := R.ADC_CHn_CTL_MODE) (k := k) (n := n) rfl (by decide) w.toNat s.dev
    rw [← htime, ← hmains]
    exact Dev.chOpens_eq hmode
  case disable =>
    have hbit : bitsOf w.toNat 0 1 = 0 := by
      have := bitsOf_lt w.toNat 0 1
      have := of_decide_eq_false hnew
      omega
    have hok : s.dev.ctlOk k n w.toNat = true := if_pos hbit
    obtain ⟨hen, hrest⟩ := Dev.chStop_stops hn k (s.dev.ctlSet k n w.toNat)
    refine does_adcChWrite hk hn ?_
    rw [Dev.adcChWrite_alone (wlen := false) hok hp, Dev.chChange_disable hn hold hnew]
    exact ⟨hen.trans ((Dev.rf_ctlSet (f := R.ADC_CHn_CTL_EN) rfl (by decide) ..).trans hbit), hrest⟩
  case wlen =>
    refine does_adcChWrite hk hn ?_
    rw [Dev.adcChWrite_alone (wlen := true) hok hp]
    exact Dev.chChange_wlen_off hn hoff
end

section
/-!
SUPPORT. Windows of a channel (R223, R224, R226, R230, R233): the word of a window that has closed, its delivery, and a window that closes by its length.
-/
namespace Sys2Proof.Machine

variable {k n : Nat} {m : AdcMeas} {d : Dev} {w : ShutWin} {rest : List ShutWin}

/-! ### The sample word (R223) -/

theorem toS_ofS_24 {x : Int} (hlo : -(2 ^ 23) ≤ x) (hhi : x ≤ 2 ^ 23 - 1) : toS 24 (ofS 24 x) = x := by
  unfold toS ofS
  split <;> omega

theorem Dev.calibrated_range (d : Dev) (k conv r : Nat) (raw : Int) :
    -(2 ^ 23) ≤ d.calibrated k conv r raw ∧ d.calibrated k conv r raw ≤ 2 ^ 23 - 1 := by
  unfold Dev.calibrated clampI
  dsimp only
  split_ifs <;> omega

/-- The parts of a sample word, with OVR the highest of its three flags. -/
theorem sampleWord_parts (res : Int) (valid : Bool) {flags : Nat} (hf : flags < 8) (settle : Nat) : let x := sampleWord res valid flags settle
    x < 2 ^ 32 ∧ bitsOf x 8 24 = ofS 24 res ∧ bitsOf x 7 1 = b2n valid ∧ bitsOf x 6 1 = flags / 4 ∧ bitsOf x 0 4 = min settle 15 := by
  have hres : ofS 24 res < 2 ^ 24 := by
    unfold ofS
    omega
  have hvalid : b2n valid < 2 := by cases valid <;> decide
  unfold sampleWord bitsOf
  simp only [Nat.shiftRight_eq_div_pow]
  generalize ofS 24 res = r at hres
  generalize b2n valid = v at hvalid
  refine ⟨?_, ?_, ?_, ?_, ?_⟩ <;> omega

theorem bitAt_eq {x i : Nat} {b : Bool} (h : bitsOf x i 1 = b2n b) : bitAt x i = b := by
  unfold bitAt
  rw [h]
  cases b <;> rfl

/-! ### The delivery of a word (R223, R246) -/

/-- The fields that show a delivered word. -/
def deliverFields : List F := [R.ADC_CHn_LAST, R.ADC_CHn_STAT_VALID, R.ADC_CHn_STAT_STALE, R.ADC_CHn_STAT_CHKMM, R.ADC_CHn_STAT_SETTLE, R.ADC_CHn_STAT_OVR,
  R.ADC_STAT_OVR, R.ADC_CHn_STAT_NOCAL]

/-- A delivery in its four parts: the word with VALID, the other flags with SETTLE, OVR, NOCAL and the word on its way to the rim. -/
def Dev.showsWord (d : Dev) (k n word : Nat) : Dev := (d.wf R.ADC_CHn_LAST word k n).wf R.ADC_CHn_STAT_VALID (bitsOf word 7 1) k n
def Dev.showsFlags (d : Dev) (k n word : Nat) : Dev :=
  ((d.wf R.ADC_CHn_STAT_STALE (bitsOf word 5 1) k n).wf R.ADC_CHn_STAT_CHKMM (bitsOf word 4 1) k n).wf R.ADC_CHn_STAT_SETTLE (bitsOf word 0 4) k n
def Dev.showsOvr (d : Dev) (k n : Nat) (ovr : Bool) : Dev := if ovr then (d.wf R.ADC_CHn_STAT_OVR 1 k n).wf R.ADC_STAT_OVR 1 k else d
def Dev.showsEnd (d : Dev) (k n side : Nat) : Dev := (d.nocalShow k n).setCh k n { (d.nocalShow k n).adcCh k n with side := side, waits := true }

section Deliver

variable (hn : n < 16) (k : Nat) (word side : Nat) (ovr : Bool) (d : Dev)
include hn

omit hn in
theorem Dev.deliver_eq : d.deliver k n word side ovr = (((d.showsWord k n word).showsFlags k n word).showsOvr k n ovr).showsEnd k n side := rfl

theorem Dev.bankOnly_showsWord : d.BankOnly [R.ADC_CHn_LAST, R.ADC_CHn_STAT_VALID] k [] (d.showsWord k n word) :=
  ((BankOnly.refl ..).wfCh _ _ _ hn).wfCh _ _ _ hn

theorem Dev.bankOnly_showsFlags :
    d.BankOnly [R.ADC_CHn_STAT_STALE, R.ADC_CHn_STAT_CHKMM, R.ADC_CHn_STAT_SETTLE] k [] (d.showsFlags k n word) :=
  (((BankOnly.refl ..).wfCh _ _ _ hn).wfCh _ _ _ hn).wfCh _ _ _ hn

theorem Dev.bankOnly_showsOvr : d.BankOnly [R.ADC_CHn_STAT_OVR, R.ADC_STAT_OVR] k [] (d.showsOvr k n ovr) := by
  unfold Dev.showsOvr
  split
  · exact ((BankOnly.refl ..).wfCh _ _ _ hn).wfBank _ _ _
  · exact .refl ..

omit hn in
theorem Dev.bankOnly_showsEnd : d.BankOnly [R.ADC_CHn_STAT_NOCAL] k [n] (d.showsEnd k n side) :=
  ((Dev.bankOnly_nocalShow k n d).mono (List.Subset.refl _) (List.nil_subset _)).setCh List.mem_cons_self _

theorem Dev.bankOnly_deliver : d.BankOnly deliverFields k [n] (d.deliver k n word side ovr) := by
  rw [Dev.deliver_eq]
  exact ((((Dev.bankOnly_showsWord hn k word d).mono (by decide) (List.nil_subset _)).trans
    ((Dev.bankOnly_showsFlags hn k word _).mono (by decide) (List.nil_subset _))).trans
      ((Dev.bankOnly_showsOvr hn k ovr _).mono (by decide) (List.nil_subset _))).trans ((Dev.bankOnly_showsEnd k side _).mono (by decide) (List.Subset.refl _))

theorem Dev.adcCh_deliver : (d.deliver k n word side ovr).adcCh k n = { d.adcCh k n with side := side, waits := true } := by
  rw [Dev.deliver_eq, Dev.showsEnd, Dev.adcCh_setCh_self, Dev.adcCh_nocalShow, (Dev.bankOnly_showsOvr hn k ovr _).ch n List.not_mem_nil,
    (Dev.bankOnly_showsFlags hn k word _).ch n List.not_mem_nil, (Dev.bankOnly_showsWord hn k word _).ch n List.not_mem_nil]

theorem Dev.deliver_shows (hword : word < 2 ^ 32) : let x := d.deliver k n word side ovr
    x.rf R.ADC_CHn_LAST_WORD k n = word ∧ x.rf R.ADC_CHn_STAT_VALID k n = bitsOf word 7 1 ∧ x.rf R.ADC_CHn_STAT_SETTLE k n = bitsOf word 0 4 ∧
      (ovr = true → x.rf R.ADC_CHn_STAT_OVR k n = 1 ∧ x.rf R.ADC_STAT_OVR k = 1) := by
  have hch {f : F} (hf : f.OfCh) : f.InBank n 0 := F.inBank_ch hf hn 0
  have hself {v b : Nat} (h : v < b) : v % b = v := Nat.mod_eq_of_lt h
  rw [Dev.deliver_eq]
  refine ⟨?last, ?valid, ?settle, fun ho => ⟨?ovrCh, ?ovrBank⟩⟩
  case last =>
    rw [(Dev.bankOnly_showsEnd ..).field _ k n 0 (hch (by decide)) (by decide), (Dev.bankOnly_showsOvr hn ..).field _ k n 0 (hch (by decide)) (by decide),
      (Dev.bankOnly_showsFlags hn ..).field _ k n 0 (hch (by decide)) (by decide), Dev.showsWord,
      Dev.rf_wf_beside_inBank (hch (by decide)) (hch (by decide)) (by decide)]
    exact (Dev.rf_wf_self R.ADC_CHn_LAST ..).trans (hself hword)
  case valid =>
    rw [(Dev.bankOnly_showsEnd ..).field _ k n 0 (hch (by decide)) (by decide), (Dev.bankOnly_showsOvr hn ..).field _ k n 0 (hch (by decide)) (by decide),
      (Dev.bankOnly_showsFlags hn ..).field _ k n 0 (hch (by decide)) (by decide)]
    exact (Dev.rf_wf_self ..).trans (hself (bitsOf_lt ..))
  case settle =>
    rw [(Dev.bankOnly_showsEnd ..).field _ k n 0 (hch (by decide)) (by decide), (Dev.bankOnly_showsOvr hn ..).field _ k n 0 (hch (by decide)) (by decide)]
    exact (Dev.rf_wf_self ..).trans (hself (bitsOf_lt ..))
  case ovrCh =>
    rw [(Dev.bankOnly_showsEnd ..).field _ k n 0 (hch (by decide)) (by decide), Dev.showsOvr, if_pos ho,
      Dev.rf_wf_beside_inBank (hch (by decide)) (F.inBank_bank (by decide) 0 0) (by decide)]
    exact Dev.rf_wf_self ..
  case ovrBank =>
    rw [(Dev.bankOnly_showsEnd ..).field _ k 0 0 (F.inBank_bank (by decide) 0 0) (by decide), Dev.showsOvr, if_pos ho]
    exact Dev.rf_wf_self ..

end Deliver

/-! ### What a closed window's word shows (R224, R230, R233, R239) -/

/-- No settling window is left, and the end of the invalidity is known. -/
def ShutWin.valid (w : ShutWin) : Bool := decide (w.settle = 0) && !w.endless

/-- The result of one window, its over-range flag, its flags. -/
def Dev.shutRes (d : Dev) (k : Nat) (m : AdcMeas) (w : ShutWin) : Int :=
  let raw (q r0 r1 : Int) : Int := adcRaw q r0 r1 (d.modTicks k) (w.t1 - w.t0)
  if w.measured then d.calibrated k w.conv w.range (if decide (w.conv = 16) then raw m.chkQ m.chkRho0 m.chkRho1 else raw m.q m.rho0 m.rho1) else 0
def ShutWin.over (w : ShutWin) (m : AdcMeas) : Bool := w.measured && (if decide (w.conv = 16) then m.chkOvr else m.ovr)
def Dev.shutFlags (d : Dev) (k n : Nat) (m : AdcMeas) (w : ShutWin) : Nat :=
  b2n (w.over m) * 4 + b2n (d.calOk k w.conv w.range && d.calStale k w.conv w.range m) * 2 + b2n (d.adcCh k n).mism

/-- The windows averaged, this one first, and the word they give. -/
def Dev.shutWins (d : Dev) (k n : Nat) (m : AdcMeas) (w : ShutWin) : List (Option (Int × Nat)) :=
  ((if w.skip || w.endless then none else some (d.shutRes k m w, d.shutFlags k n m w)) :: (d.adcCh k n).wins).take w.n
def Dev.shutWord (d : Dev) (k n : Nat) (m : AdcMeas) (w : ShutWin) : Nat :=
  let got := (d.shutWins k n m w).filterMap id
  let mean := if w.valid && !got.isEmpty then roundDiv ((got.map Prod.fst).foldl (· + ·) 0) got.length else d.shutRes k m w
  sampleWord mean w.valid (if w.valid then (got.map Prod.snd).foldl (· ||| ·) 0 else d.shutFlags k n m w) (if w.endless then 15 else w.settle)

/-- The channel with the oldest closed window gone, and the device with that window's word delivered. -/
def Dev.shutTaken (d : Dev) (k n : Nat) (m : AdcMeas) (w : ShutWin) (rest : List ShutWin) : AdcCh :=
  { d.adcCh k n with wins := if w.clear then [] else d.shutWins k n m w, shut := rest, shutAt := w.t1 }
def Dev.delivered (d : Dev) (k n : Nat) (m : AdcMeas) (w : ShutWin) (rest : List ShutWin) : Dev :=
  (d.setCh k n (d.shutTaken k n m w rest)).deliver k n (d.shutWord k n m w) (w.range + w.cnt % 2 ^ 24 * 256) (w.over m)

theorem Dev.windowDeliver_eq (h : (d.adcCh k n).shut = w :: rest) (m : AdcMeas) :
    let plain := if w.valid then some (d.shutRes k m w) else none
    let x := (d.delivered k n m w rest).pairStep k n w.t1 plain
    d.windowDeliver k n m = (if (d.bank k).pass.isNone then x.visitStep k n w (if w.over m then none else plain)
      (adcRaw m.chkQ m.chkRho0 m.chkRho1 (d.modTicks k) (w.t1 - w.t0)) m.chkOvr else x).autoStale k m := by
  unfold Dev.windowDeliver
  dsimp only
  rw [h]
  rfl

/-- In no pair, beside the words of the other fields. -/
theorem Dev.AdcOnly.pairOf_none {l : List F} {x : Dev} (h : d.AdcOnly l x)
    (hl : ∀ f ∈ l, R.ADC_PAIRp_EN.Beside f ∧ R.ADC_PAIRp_CHA.Beside f ∧ R.ADC_PAIRp_CHB.Beside f) (hp : d.pairOf k n = none) : x.pairOf k n = none := by
  unfold Dev.pairOf at hp ⊢
  rw [Option.map_eq_none_iff, List.find?_eq_none] at hp ⊢
  intro p hmem
  have hin {f : F} (hf : f.OfPair) : f.InBank p 0 := F.inBank_pair hf (List.mem_range.1 hmem) 0
  rw [h.flag (hin (by decide)) fun f hf => (hl f hf).1, h.field _ k p 0 (hin (by decide)) fun f hf => (hl f hf).2.1,
    h.field _ k p 0 (hin (by decide)) fun f hf => (hl f hf).2.2]
  exact hp p hmem

theorem Dev.pairStep_none (hp : d.pairOf k n = none) (t : Nat) (res : Option Int) : d.pairStep k n t res = d := by
  unfold Dev.pairStep
  rw [hp]

theorem Dev.bankOnly_delivered (hn : n < 16) (k : Nat) (m : AdcMeas) (w : ShutWin) (rest : List ShutWin) (d : Dev) :
    d.BankOnly deliverFields k [n] (d.delivered k n m w rest) :=
  ((BankOnly.refl ..).setCh List.mem_cons_self _).trans (Dev.bankOnly_deliver hn ..)

/-- Outside a pair a delivery is followed by the check converter's work and the start of a pass alone. -/
theorem Dev.windowDeliver_visits (hn : n < 16) (h : (d.adcCh k n).shut = w :: rest) (hp : d.pairOf k n = none) (m : AdcMeas) :
    (d.delivered k n m w rest).Visits k n (d.windowDeliver k n m) := by
  have hx := Dev.windowDeliver_eq h m
  have hp' := (Dev.bankOnly_delivered hn k m w rest d).pairOf_none (by decide) hp
  dsimp only at hx
  rw [Dev.pairStep_none hp'] at hx
  rw [hx]
  refine Visits.trans ?_ (.of_bankOnly (Dev.bankOnly_autoStale ..))
  split
  · exact Dev.visits_visitStep ..
  · exact .of_bankOnly (BankOnly.refl ..)

/-- The channel after a delivery: the word waits for the rim. -/
theorem Dev.adcCh_windowDeliver (hn : n < 16) (h : (d.adcCh k n).shut = w :: rest) (hp : d.pairOf k n = none) (m : AdcMeas) :
    ∃ b, (d.windowDeliver k n m).adcCh k n =
      { d.shutTaken k n m w rest with side := w.range + w.cnt % 2 ^ 24 * 256, waits := true, mism := b } := by
  have hsame := (Dev.windowDeliver_visits hn h hp m).same
  unfold AdcCh.SameBesideVerdict Dev.delivered at hsame
  rw [Dev.adcCh_deliver hn, Dev.adcCh_setCh_self] at hsame
  exact ⟨_, hsame⟩

/-- Beside the channel and the fields that a word and its consequences show, a delivery leaves the device. -/
theorem Dev.bankOnly_windowDeliver (hn : n < 16) (h : (d.adcCh k n).shut = w :: rest) (hp : d.pairOf k n = none) (m : AdcMeas) :
    d.BankOnly (deliverFields ++ adcWork) k [n] (d.windowDeliver k n m) :=
  ((Dev.bankOnly_delivered hn k m w rest d).mono (by decide) (List.Subset.refl _)).trans
    ((Dev.windowDeliver_visits hn h hp m).toBankOnly.mono (by decide) (List.Subset.refl _))

/-! ### One window, measured by its own converter (R223, R236) -/

theorem roundDiv_one (x : Int) : roundDiv x 1 = x := by
  unfold roundDiv
  omega

/-- Where no other window takes part the word is the window's own: its result, its flags. -/
theorem Dev.shutWord_single (hone : w.n = 1) (hskip : w.valid = true → w.skip = false) (d : Dev) (k n : Nat) (m : AdcMeas) :
    d.shutWord k n m w = sampleWord (d.shutRes k m w) w.valid (d.shutFlags k n m w) (if w.endless then 15 else w.settle) := by
  unfold Dev.shutWord Dev.shutWins
  rw [hone]
  cases hv : w.valid with
  | false => rfl
  | true =>
    have hend : w.endless = false := by
      unfold ShutWin.valid at hv
      simpa using (Bool.and_eq_true_iff.1 hv).2
    rw [hskip hv, hend]
    generalize d.shutRes k m w = res
    generalize d.shutFlags k n m w = fl
    simp [roundDiv_one]

theorem Dev.shutRes_own (hconv : w.conv = n) (hn : n < 16) (hmeas : w.measured = true) (d : Dev) (k : Nat) (m : AdcMeas) :
    d.shutRes k m w = d.calibrated k n w.range (adcRaw m.q m.rho0 m.rho1 (d.modTicks k) (w.t1 - w.t0)) := by
  unfold Dev.shutRes
  dsimp only
  rw [if_pos hmeas, hconv, decide_eq_false (Nat.ne_of_lt hn)]
  rfl

theorem ShutWin.over_own (hconv : w.conv = n) (hn : n < 16) (hmeas : w.measured = true) (m : AdcMeas) : w.over m = m.ovr := by
  unfold ShutWin.over
  rw [hmeas, hconv, decide_eq_false (Nat.ne_of_lt hn)]
  rfl

theorem Dev.shutFlags_ovr (d : Dev) (k n : Nat) (m : AdcMeas) (w : ShutWin) :
    d.shutFlags k n m w < 8 ∧ d.shutFlags k n m w / 4 = b2n (w.over m) := by
  have hlt (b : Bool) : b2n b < 2 := by cases b <;> decide
  unfold Dev.shutFlags
  have h1 := hlt (d.calOk k w.conv w.range && d.calStale k w.conv w.range m)
  have h2 := hlt (d.adcCh k n).mism
  have h3 := hlt (w.over m)
  omega

/-- The word of a window that alone makes it, as the registers show it. -/
theorem Dev.windowDeliver_single (hn : n < 16) (h : (d.adcCh k n).shut = w :: rest) (hp : d.pairOf k n = none) (hone : w.n = 1) (hconv : w.conv = n)
    (hmeas : w.measured = true) (hskip : w.valid = true → w.skip = false) (m : AdcMeas) : let x := d.windowDeliver k n m
    toS 24 (bitsOf (x.rf R.ADC_CHn_LAST_WORD k n) 8 24) = d.calibrated k n w.range (adcRaw m.q m.rho0 m.rho1 (d.modTicks k) (w.t1 - w.t0)) ∧
      bitAt (x.rf R.ADC_CHn_LAST_WORD k n) 7 = w.valid ∧ x.rf R.ADC_CHn_STAT_VALID k n = b2n w.valid ∧
      bitAt (x.rf R.ADC_CHn_LAST_WORD k n) 6 = m.ovr ∧ (m.ovr = true → x.rf R.ADC_CHn_STAT_OVR k n = 1 ∧ x.rf R.ADC_STAT_OVR k = 1) ∧
      x.rf R.ADC_CHn_STAT_SETTLE k n = min (if w.endless then 15 else w.settle) 15 := by
  have htail := Dev.windowDeliver_visits hn h hp m
  have hch {f : F} (hf : f.OfCh) : f.InBank n 0 := F.inBank_ch hf hn 0
  obtain ⟨hlt, hover⟩ := d.shutFlags_ovr k n m w
  obtain ⟨h32, hres, hvalid, hovr, hsettle⟩ := sampleWord_parts (d.shutRes k m w) w.valid hlt (if w.endless then 15 else w.settle)
  rw [← Dev.shutWord_single hone hskip] at h32 hres hvalid hovr hsettle
  obtain ⟨slast, svalid, ssettle, sovr⟩ := Dev.deliver_shows hn k _ (w.range + w.cnt % 2 ^ 24 * 256) (w.over m) (d.setCh k n (d.shutTaken k n m w rest)) h32
  obtain ⟨hlo, hhi⟩ := d.calibrated_range k n w.range (adcRaw m.q m.rho0 m.rho1 (d.modTicks k) (w.t1 - w.t0))
  have hown := ShutWin.over_own hconv hn hmeas m
  dsimp only
  rw [htail.field _ k n 0 (hch (by decide)) (by decide), htail.field _ k n 0 (hch (by decide)) (by decide),
    htail.field _ k n 0 (hch (by decide)) (by decide), htail.field _ k n 0 (hch (by decide)) (by decide),
    htail.field _ k 0 0 (F.inBank_bank (by decide) 0 0) (by decide)]
  unfold Dev.delivered
  rw [slast, svalid, ssettle, hres, Dev.shutRes_own hconv hn hmeas]
  exact ⟨toS_ofS_24 hlo hhi, bitAt_eq hvalid, hvalid, bitAt_eq (hovr.trans (hover.trans (by rw [hown]))), fun ho => sovr (hown.trans ho), hsettle⟩

/-! ### A window that closes by its length (R226) -/

/-- A FREE window whose length is over closes, the next one follows it, and its word is delivered; before that nothing happens. -/
theorem Dev.windowDue_free {t0 : Nat} (hmode : d.rf R.ADC_CHn_CTL_MODE k n = 1) (hopen : (d.adcCh k n).opened = some t0) :
    let t := t0 + d.rf R.ADC_CHn_WLEN_WLEN k n * 20
    d.windowDue k n = if t ≤ d.time.cnt then d.chShut k n t (some t) else d := by
  unfold Dev.windowDue Dev.windowEnd
  dsimp only
  rw [hmode, hopen]
  rfl

/-- Where no pass runs and no change waits, a close settles what the window will show and nothing more. -/
theorem Dev.chShut_plain {t0 : Nat} (hopen : (d.adcCh k n).opened = some t0) (hpass : (d.bank k).pass = none) (hpend : (d.adcCh k n).pend = false)
    (t : Nat) (next : Option Nat) : d.chShut k n t next =
      (d.setCh k n ((d.adcCh k n).shuts (d.closing k n t0 t) next)).wf R.ADC_CHn_WCNT (d.rf R.ADC_CHn_WCNT k n + 1) k n := by
  have hx := Dev.chShut_open hopen t next
  dsimp only at hx
  rw [hx, hpass, if_neg (by decide)]
  unfold Dev.chClose
  dsimp only
  rw [Dev.adcCh_wf, Dev.adcCh_setCh_self]
  exact if_neg (by
    change ¬ (d.adcCh k n).pend = true
    rw [hpend]
    decide)

theorem Dev.windowClose_due {t0 t : Nat} (hn : n < 16) (hshut : (d.adcCh k n).shut = []) (hmode : d.rf R.ADC_CHn_CTL_MODE k n = 1)
    (hopen : (d.adcCh k n).opened = some t0) (ht : t = t0 + d.rf R.ADC_CHn_WLEN_WLEN k n * 20) (hdue : t ≤ d.time.cnt)
    (hpass : (d.bank k).pass = none) (hp : d.pairOf k n = none) (hpend : (d.adcCh k n).pend = false) (m : AdcMeas) : let x := d.windowClose k n m
    d.BankOnly (R.ADC_CHn_WCNT :: (deliverFields ++ adcWork)) k [n] x ∧ (x.adcCh k n).opened = some t ∧ (x.adcCh k n).settle = (d.adcCh k n).settle - 1 ∧
      x.rf R.ADC_CHn_WCNT_COUNT k n = (d.rf R.ADC_CHn_WCNT_COUNT k n + 1) % 2 ^ 32 ∧ (x.adcCh k n).shut = [] ∧ (x.adcCh k n).waits = true ∧
      (x.adcCh k n).shutAt = t := by
  let y := (d.setCh k n ((d.adcCh k n).shuts (d.closing k n t0 t) (some t))).wf R.ADC_CHn_WCNT (d.rf R.ADC_CHn_WCNT k n + 1) k n
  have hx : d.windowClose k n m = y.windowDeliver k n m := by
    unfold Dev.windowClose
    rw [hshut, if_pos List.isEmpty_nil, Dev.windowDue_free hmode hopen, ← ht, if_pos hdue, Dev.chShut_plain hopen hpass hpend]
  have hfirst : d.BankOnly (R.ADC_CHn_WCNT :: (deliverFields ++ adcWork)) k [n] y := ((BankOnly.refl ..).setCh List.mem_cons_self _).wfCh _ _ _ hn
  have hych : y.adcCh k n = (d.adcCh k n).shuts (d.closing k n t0 t) (some t) := (Dev.adcCh_wf ..).trans (Dev.adcCh_setCh_self ..)
  have hyshut : (y.adcCh k n).shut = d.closing k n t0 t :: [] := by
    rw [hych, AdcCh.shuts, hshut]
    rfl
  have hcount : y.rf R.ADC_CHn_WCNT_COUNT k n = (d.rf R.ADC_CHn_WCNT_COUNT k n + 1) % 2 ^ 32 := Dev.rf_wf_self R.ADC_CHn_WCNT ..
  have hyp : y.pairOf k n = none := hfirst.pairOf_none (by decide) hp
  have hlast := Dev.bankOnly_windowDeliver hn hyshut hyp m
  obtain ⟨b, hch⟩ := Dev.adcCh_windowDeliver hn hyshut hyp m
  dsimp only
  rw [hx, hch, Dev.shutTaken, hych, hlast.field _ k n 0 (F.inBank_ch (by decide) hn 0) (by decide)]
  exact ⟨hfirst.trans (hlast.mono (by decide) (List.Subset.refl _)), rfl, rfl, hcount, rfl, rfl, rfl⟩

theorem Dev.windowClose_early {t0 : Nat} (hshut : (d.adcCh k n).shut = []) (hmode : d.rf R.ADC_CHn_CTL_MODE k n = 1)
    (hopen : (d.adcCh k n).opened = some t0) (hlt : d.time.cnt < t0 + d.rf R.ADC_CHn_WLEN_WLEN k n * 20) (m : AdcMeas) : d.windowClose k n m = d := by
  unfold Dev.windowClose
  rw [hshut, if_pos List.isEmpty_nil, Dev.windowDue_free hmode hopen, if_neg (Nat.not_le.2 hlt)]
  unfold Dev.windowDeliver
  dsimp only
  rw [hshut]

end Sys2Proof.Machine
end

section
/-!
SUPPORT. A converter's word in the rim (R29, R229).
-/
namespace Sys2Proof.Machine

variable {k n : Nat} {d : Dev}

/-- What the arrival of a word can touch of converters, rim and units, and the time it is judged by. -/
def Dev.rimView (d : Dev) : Tbl AdcBank × Tbl (Nat × Nat) × Tbl UnitSt × TimeSt := (d.adc, d.rimIn, d.units, d.time)

theorem Dev.rimView_wf (f : F) (v : Nat) (d : Dev) (k i j : Nat) : (d.wf f v k i j).rimView = d.rimView := rfl

theorem Dev.rimView_showSig (g : Nat) (v : SigVal) (d : Dev) : (d.showSig g v).rimView = d.rimView := rfl

theorem Dev.rimView_raise (c i : Nat) (data : List Byte) (d : Dev) : (d.raise c i data).rimView = d.rimView := by
  unfold Dev.rimView
  rw [Dev.raise_adc, Dev.raise_rimIn, Dev.raise_units, Dev.raise_time]

theorem Dev.rimView_acceptItem (die flow origin : Nat) (payload : List Byte) (d : Dev) : (d.acceptItem die flow origin payload).rimView = d.rimView := by
  unfold Dev.acceptItem
  split
  · rfl
  split
  · rfl
  dsimp only
  split
  · rfl
  split
  · rfl
  · rw [Dev.rimView_raise, Dev.wb_eq, Dev.rimView_wf, Dev.bump_eq, Dev.rimView_wf]

theorem Dev.rimView_assertSrc (src : Nat) (data : List Byte) (d : Dev) : (d.assertSrc src data).rimView = d.rimView := by
  unfold Dev.assertSrc Dev.assertAt
  extract_lets d1
  have h1 : d1.rimView = d.rimView := foldl_const Dev.rimView _ _ d fun _ _ => Dev.rimView_acceptItem ..
  split
  · exact h1
  · exact h1

/-! ### Units that wait for the word -/

/-- A table mapped by a function that leaves the value of an unlisted key. -/
theorem Tbl.getD_mapVals {α : Type} (f : Nat → α → α) (z : α) (hf : ∀ k, f k z = z) (t : Tbl α) (k : Nat) :
    Tbl.getD z (Tbl.mapVals f t) k = f k (Tbl.getD z t k) := by
  induction t with
  | nil => exact (hf k).symm
  | cons e t ih =>
    obtain ⟨j, v⟩ := e
    by_cases h : j = k
    · subst h
      simp [Tbl.mapVals, Tbl.getD]
    · simpa [Tbl.mapVals, Tbl.getD, h] using ih

/-- A unit at the arrival of a channel's word: it takes the word if it waits for it. -/
def Dev.unitTakes (d : Dev) (k n : Nat) (x : UnitSt) : UnitSt :=
  let i := 16 * k + n
  let sigs := d.cfg.io.filterMap (fun e => match e.body with | .ain j _ _ _ _ sig => if j = i then some sig else none | _ => none)
  if x.smpWait.contains i then
    { x with smpWait := x.smpWait.filter (· ≠ i), smp := Tbl.put i (d.rimWord x i) x.smp, vis := sigs.foldl (fun v g => Tbl.put g (d.sig g) v) x.vis }
  else x

theorem Dev.un_sampleUnits (k n u : Nat) (d : Dev) : (d.sampleUnits k n).un u = d.unitTakes k n (d.un u) :=
  Tbl.getD_mapVals (fun _ x => d.unitTakes k n x) {} (fun _ => rfl) d.units u

theorem Dev.unitTakes_apart {x : UnitSt} (h : 16 * k + n ∉ x.smpWait) : d.unitTakes k n x = x :=
  if_neg (by rw [List.contains_iff_mem]; exact h)

theorem Dev.unitTakes_waits {x : UnitSt} (h : 16 * k + n ∈ x.smpWait) : (d.unitTakes k n x).smpWait = x.smpWait.filter (· ≠ 16 * k + n) ∧
    Tbl.get? (d.unitTakes k n x).smp (16 * k + n) = some (d.rimWord x (16 * k + n)) := by
  have hx : d.unitTakes k n x = _ := if_pos (List.contains_iff_mem.2 h)
  rw [hx]
  exact ⟨rfl, Tbl.get?_put_self ..⟩

/-- The word and side word that a unit reads of a channel, with NEW by the tick of the window's close. -/
theorem Dev.rimWord_channel (hn : n < 16) {a b : Nat} (h : Tbl.get? d.rimIn (16 * k + n) = some (a, b)) (x : UnitSt) :
    d.rimWord x (16 * k + n) = (a, setBits b 2 1 (b2n (decide (d.newSince x < (d.adcCh k n).shutAt)))) := by
  have hget (t : Tbl (Nat × Nat)) (i : Nat) (v : Nat × Nat) (hv : Tbl.get? t i = some v) : Tbl.getD (0, 0) t i = v := by
    induction t with
    | nil => cases hv
    | cons e t ih =>
      obtain ⟨j, y⟩ := e
      unfold Tbl.get? at hv
      unfold Tbl.getD
      split
      · rename_i hj
        rw [if_pos hj] at hv
        exact Option.some.inj hv
      · rename_i hj
        rw [if_neg hj] at hv
        exact ih hv
  unfold Dev.rimWord
  rw [hget _ _ _ h, show (16 * k + n) / 16 = k by omega, show (16 * k + n) % 16 = n by omega]

/-! ### SAMPLE_PRESENT -/

/-- The device with a channel's word in the rim input register and no longer on its way. -/
def Dev.inRim (d : Dev) (k n : Nat) : Dev :=
  ({ d with rimIn := Tbl.put (16 * k + n) (d.rf R.ADC_CHn_LAST k n, (d.adcCh k n).side) d.rimIn } : Dev).setCh k n { d.adcCh k n with waits := false }

/-- Converters, rim input registers and units after a word's arrival; `y` has the visible signals too. -/
theorem Dev.samplePresent_view (k n : Nat) (d : Dev) :
    ∃ y : Dev, y.rimView = (d.inRim k n).rimView ∧ (d.samplePresent k n).rimView = (y.sampleUnits k n).rimView := by
  unfold Dev.samplePresent
  extract_lets c d1 w sv d2 d3 trig
  have h2 : d2.rimView = d1.rimView := by
    refine foldl_const Dev.rimView _ _ d1 fun y e => ?_
    split
    · split
      · exact Dev.rimView_showSig ..
      · rfl
    · rfl
  have hset (y z : Dev) (h : y.rimView = z.rimView) (c : AdcCh) : (y.setCh k n c).rimView = (z.setCh k n c).rimView := by
    obtain ⟨hadc, hrim, hun, htime⟩ : y.adc = z.adc ∧ y.rimIn = z.rimIn ∧ y.units = z.units ∧ y.time = z.time := by
      simpa [Dev.rimView] using h
    unfold Dev.rimView Dev.setCh Dev.setBank Dev.bank
    rw [hadc, hrim, hun, htime]
  refine ⟨d2.setCh k n { c with waits := false }, hset d2 d1 h2 _, ?_⟩
  split
  · exact Dev.rimView_assertSrc ..
  · rfl

theorem Dev.samplePresent_shows (hn : n < 16) (d : Dev) : let x := d.samplePresent k n
    (∀ j, j ≠ k → x.bank j = d.bank j) ∧ (∀ j, j ≠ 16 * k + n → Tbl.get? x.rimIn j = Tbl.get? d.rimIn j) ∧
      Tbl.get? x.rimIn (16 * k + n) = some (d.rf R.ADC_CHn_LAST k n, (d.adcCh k n).side) ∧ (x.adcCh k n).waits = false ∧
      ∀ u, (16 * k + n ∉ (d.un u).smpWait → x.un u = d.un u) ∧
        (16 * k + n ∈ (d.un u).smpWait → (x.un u).smpWait = (d.un u).smpWait.filter (· ≠ 16 * k + n) ∧
          Tbl.get? (x.un u).smp (16 * k + n) = some (d.rf R.ADC_CHn_LAST k n,
            setBits (d.adcCh k n).side 2 1 (b2n (decide (d.newSince (d.un u) < (d.adcCh k n).shutAt))))) := by
  obtain ⟨y, hy, hx⟩ := d.samplePresent_view k n
  generalize d.samplePresent k n = x at hx
  obtain ⟨hadc, hrim, hun, -⟩ : x.adc = y.adc ∧ x.rimIn = y.rimIn ∧ x.units = (y.sampleUnits k n).units ∧ x.time = y.time := by
    simpa [Dev.rimView, Dev.sampleUnits] using hx
  obtain ⟨hyadc, hyrim, hyun, hytime⟩ : y.adc = (d.inRim k n).adc ∧ y.rimIn = (d.inRim k n).rimIn ∧ y.units = d.units ∧ y.time = d.time := by
    simpa [Dev.rimView, Dev.inRim, Dev.setCh, Dev.setBank] using hy
  have hych : y.adcCh k n = { d.adcCh k n with waits := false } := by
    unfold Dev.adcCh
    rw [Dev.bank_of_adc hyadc]
    exact Dev.adcCh_setCh_self ..
  have hword : Tbl.get? y.rimIn (16 * k + n) = some (d.rf R.ADC_CHn_LAST k n, (d.adcCh k n).side) := by
    rw [hyrim]
    exact Tbl.get?_put_self ..
  have hunit (u : Nat) : x.un u = y.unitTakes k n (d.un u) := by
    have hyu : y.un u = d.un u := congrArg (fun t : Tbl UnitSt => Tbl.getD ({} : UnitSt) t u) hyun
    rw [← hyu, ← Dev.un_sampleUnits]
    exact congrArg (fun t : Tbl UnitSt => Tbl.getD ({} : UnitSt) t u) hun
  have hnew (z : UnitSt) : y.newSince z = d.newSince z := by
    unfold Dev.newSince
    rw [hytime]
  refine ⟨fun j hj => ?_, fun j hj => ?_, ?_, ?_, fun u => ⟨fun hu => ?_, fun hu => ?_⟩⟩
  · rw [Dev.bank_of_adc (hadc.trans hyadc)]
    exact Dev.bank_setBank_ne hj ..
  · rw [hrim, hyrim]
    exact Tbl.get?_put_ne _ _ hj
  · rw [hrim, hword]
  · unfold Dev.adcCh
    rw [Dev.bank_of_adc hadc]
    exact congrArg AdcCh.waits hych
  · rw [hunit, Dev.unitTakes_apart hu]
  · rw [hunit]
    obtain ⟨hwait, hsmp⟩ := Dev.unitTakes_waits (d := y) hu
    rw [Dev.rimWord_channel hn hword, hych, hnew] at hsmp
    exact ⟨hwait, hsmp⟩

end Sys2Proof.Machine
end

section
/-!
SUPPORT. The mains lock and the windows of MAINS channels (R228).
-/
namespace Sys2Proof.Machine

variable {k n p : Nat} {d : Dev}

/-- The device with another state of the mains lock. -/
def Dev.withMains (d : Dev) (m : MainsSt) : Dev := { d with mains := m }

theorem Dev.rf_otherBank {f g : F} (hg : g.OfBank) (hf : f.OfBank) {j k : Nat} (h : j ≠ k) (v : Nat) (d : Dev) : (d.wf f v k).rf g j = d.rf g j :=
  Dev.rf_wf_word v d ((F.inBank_bank hg 0 0).addr_ne (F.inBank_bank hf 0 0) (.inr h))

/-! ### What every bank shows of the lock -/

def lockFields : List F := [R.ADC_MAINS_MLOCK, R.ADC_MAINS_PERIOD]

/-- One bank shows lock and period. -/
def Dev.bankShow (d : Dev) (k : Nat) : Dev := (d.wf R.ADC_MAINS_MLOCK (b2n d.mains.lock) k).wf R.ADC_MAINS_PERIOD d.mains.period k

theorem Dev.mainsShow_eq (d : Dev) : d.mainsShow = (List.range d.nBanks).foldl Dev.bankShow d := rfl

theorem Dev.bankOnly_bankShow (k : Nat) (d : Dev) : d.BankOnly lockFields k [] (d.bankShow k) :=
  ((BankOnly.refl ..).wfBank _ _ _).wfBank _ _ _

theorem Dev.adcOnly_mainsShow (d : Dev) : d.AdcOnly lockFields d.mainsShow :=
  foldl_keeps (d.AdcOnly lockFields) _ _ d (.refl ..) fun y c _ hy => hy.trans (Dev.bankOnly_bankShow c y).toAdcOnly

/-- Showing the lock raises nothing and leaves the converters. -/
theorem Dev.mainsShow_leaves (d : Dev) : (d.mainsShow.adc, d.mainsShow.evt) = (d.adc, d.evt) :=
  foldl_const (fun y : Dev => (y.adc, y.evt)) _ _ d fun y c => by
    rw [Dev.wb_eq, Dev.wf_adc, Dev.wf_adc, Dev.wf_evt, Dev.wf_evt]

/-- Bank `k` shows a state of the lock. -/
def Dev.ShowsLock (k : Nat) (m : MainsSt) (d : Dev) : Prop :=
  d.rf R.ADC_MAINS_MLOCK k = b2n m.lock ∧ d.rf R.ADC_MAINS_PERIOD k = m.period % 2 ^ 24

theorem Dev.mainsShow_shows (hk : k < d.nBanks) : d.mainsShow.ShowsLock k d.mains := by
  have hset (y : Dev) (hy : y.mains = d.mains) : (y.bankShow k).ShowsLock k d.mains := by
    have hb := F.inBank_bank (f := R.ADC_MAINS_MLOCK) (by decide) 0 0
    unfold Dev.ShowsLock Dev.bankShow
    rw [Dev.rf_wf_beside_inBank hb (F.inBank_bank (by decide) 0 0) (by decide), Dev.rf_wf_self, Dev.rf_wf_self, hy]
    exact ⟨by cases d.mains.lock <;> rfl, rfl⟩
  rw [Dev.mainsShow_eq]
  refine foldl_sets (fun y : Dev => y.mains = d.mains) (Dev.ShowsLock k d.mains) Dev.bankShow (List.mem_range.2 hk) rfl
    (fun y c _ hy => (Dev.bankOnly_bankShow c y).mains.trans hy) hset fun y c _ hy hp => ?_
  by_cases hc : c = k
  · rw [hc]
    exact hset y hy
  · have hother (g f : F) (hg : g.OfBank) (hf : f.OfBank) (v : Nat) (z : Dev) := Dev.rf_otherBank hg hf (Ne.symm hc) v z
    unfold Dev.ShowsLock Dev.bankShow
    rw [hother _ _ (by decide) (by decide), hother _ _ (by decide) (by decide), hother _ _ (by decide) (by decide), hother _ _ (by decide) (by decide)]
    exact hp

/-! ### The lock is lost -/

theorem Dev.adcOnly_mainsFree (d : Dev) : d.AdcOnly [] d.mainsFree := by
  unfold Dev.mainsFree
  refine foldl_keeps (d.AdcOnly []) _ _ d (.refl ..) fun y c _ hy => foldl_keeps (d.AdcOnly []) _ _ y hy fun z a _ hz => ?_
  dsimp only
  split
  · exact hz.trans (.adc ..)
  · exact hz

theorem Dev.mainsFree_evt (d : Dev) : d.mainsFree.evt = d.evt :=
  foldl_const Dev.evt _ _ d fun y c => foldl_const Dev.evt _ _ y fun z a => by
    dsimp only
    split <;> rfl

/-- Every bank shows that the lock was lost. -/
def Dev.mainsLost (d : Dev) : Dev := (List.range d.nBanks).foldl (fun d k => d.wf R.ADC_MAINS_MLOST 1 k) d

theorem Dev.mainsLose_eq (h : d.mains.lock = true) :
    d.mainsLose = (((d.withMains { d.mains with lock := false }).mainsShow.mainsFree).mainsLost).raise Ev.MAINS_LOST 0 [] := if_pos h

theorem Dev.adcOnly_mainsLost (d : Dev) : d.AdcOnly [R.ADC_MAINS_MLOST] d.mainsLost :=
  foldl_keeps (d.AdcOnly [R.ADC_MAINS_MLOST]) _ _ d (.refl ..) fun _ _ _ hy => hy.trans (.wf (F.inBank_bank (by decide) 0 0) List.mem_cons_self ..)

theorem Dev.mainsLost_evt (d : Dev) : d.mainsLost.evt = d.evt := foldl_const Dev.evt _ _ d fun _ _ => Dev.wf_evt ..

theorem Dev.mainsLost_shows (hk : k < d.nBanks) : d.mainsLost.rf R.ADC_MAINS_MLOST k = 1 := by
  have hset (y : Dev) : (y.wf R.ADC_MAINS_MLOST 1 k).rf R.ADC_MAINS_MLOST k = 1 := Dev.rf_wf_self ..
  refine foldl_sets (fun _ => True) (fun y : Dev => y.rf R.ADC_MAINS_MLOST k = 1) _ (List.mem_range.2 hk) trivial (fun _ _ _ _ => trivial)
    (fun y _ => hset y) fun y c _ _ hp => ?_
  by_cases hc : c = k
  · rw [hc]
    exact hset y
  · exact (Dev.rf_otherBank (by decide) (by decide) (Ne.symm hc) 1 y).trans hp

theorem Dev.mainsLose_loses (h : d.mains.lock = true) (hk : k < d.nBanks) : let x := d.mainsLose
    x.mains = { d.mains with lock := false } ∧ x.rf R.ADC_MAINS_MLOCK k = 0 ∧ x.rf R.ADC_MAINS_MLOST k = 1 ∧ Raises Ev.MAINS_LOST 0 d x := by
  dsimp only
  rw [Dev.mainsLose_eq h]
  generalize hd1 : d.withMains { d.mains with lock := false } = d1
  have hm1 : d1.mains = { d.mains with lock := false } := by rw [← hd1, Dev.withMains]
  have hk1 : k < d1.nBanks := by
    rw [← hd1]
    exact hk
  have hevt1 : d1.evt = d.evt := by rw [← hd1, Dev.withMains]
  have hshow := Dev.adcOnly_mainsShow d1
  have hfree := hshow.trans ((Dev.adcOnly_mainsFree d1.mainsShow).mono (List.nil_subset _))
  have hlost := Dev.adcOnly_mainsLost d1.mainsShow.mainsFree
  have hkf : k < d1.mainsShow.mainsFree.nBanks := by
    unfold Dev.nBanks Dev.byVariant
    rw [hfree.variant]
    exact hk1
  have hbank {f : F} (hf : f.OfBank) := F.inBank_bank hf 0 0
  rw [Dev.raise_mains, Dev.rf_raise_inBank (hbank (by decide)), Dev.rf_raise_inBank (hbank (by decide)), hlost.mains, hfree.mains,
    hlost.field _ k 0 0 (hbank (by decide)) (by decide), (Dev.adcOnly_mainsFree _).field _ k 0 0 (hbank (by decide)) (by decide),
    (Dev.mainsShow_shows hk1).1, hm1]
  refine ⟨rfl, rfl, Dev.mainsLost_shows hkf, d1.mainsShow.mainsFree.mainsLost, [], ?_, rfl⟩
  rw [Dev.mainsLost_evt, Dev.mainsFree_evt, ← hevt1]
  exact congrArg Prod.snd (Dev.mainsShow_leaves d1)

/-! ### MAINS channels at an edge -/

/-- One enabled channel at an edge, which is the one of a lock or not. -/
def Dev.chEdge (fresh : Bool) (k : Nat) (d : Dev) (n : Nat) : Dev :=
  let c := d.adcCh k n
  if d.rf R.ADC_CHn_CTL_MODE k n ≠ 2 ∨ d.mains.lock = false then d
  else if fresh ∨ c.opened.isNone then (d.chClose k n).setCh k n { (d.chClose k n).adcCh k n with opened := some (d.chClose k n).time.cnt, edges := 0 }
  else if c.nm ≤ c.edges then d.chShut k n d.time.cnt (some d.time.cnt)
  else d.setCh k n { c with edges := c.edges + 1 }

/-- The enabled channels of a bank at an edge. -/
def Dev.bankEdge (fresh : Bool) (d : Dev) (k : Nat) : Dev := (d.chsOn k).foldl (Dev.chEdge fresh k) d

theorem Dev.mainsWindows_eq (fresh : Bool) (d : Dev) : d.mainsWindows fresh = (List.range d.nBanks).foldl (Dev.bankEdge fresh) d := rfl

/-- What an edge can change of the words. -/
def edgeFields : List F := R.ADC_CHn_WCNT :: adcWork

theorem Dev.chEdge_other (h : d.rf R.ADC_CHn_CTL_MODE k n ≠ 2) (fresh : Bool) : d.chEdge fresh k n = d := if_pos (.inl h)

theorem Dev.bankOnly_chEdge (hn : n < 16) (fresh : Bool) (k : Nat) (d : Dev) : d.BankOnly edgeFields k [n] (d.chEdge fresh k n) := by
  unfold Dev.chEdge
  extract_lets c
  split
  · exact .refl ..
  split
  · exact ((Dev.bankOnly_chClose k n d).mono (List.subset_cons_self ..) (List.Subset.refl _)).setCh List.mem_cons_self _
  split
  · exact Dev.bankOnly_chShut k d hn _ _
  · exact (BankOnly.refl ..).setCh List.mem_cons_self _

theorem Dev.bankOnly_bankEdge (fresh : Bool) (k : Nat) (d : Dev) : d.BankOnly edgeFields k (d.chsOn k) (d.bankEdge fresh k) :=
  (BankOnly.refl ..).foldl _ _ fun z a ha hz =>
    hz.trans ((Dev.bankOnly_chEdge (Dev.mem_chsOn.1 ha).1 fresh k z).mono (List.Subset.refl _) (by simpa using ha))

theorem Dev.adcOnly_mainsWindows (fresh : Bool) (d : Dev) : d.AdcOnly edgeFields (d.mainsWindows fresh) :=
  foldl_keeps (d.AdcOnly edgeFields) _ _ d (.refl ..) fun y c _ hy => hy.trans (Dev.bankOnly_bankEdge fresh c y).toAdcOnly

/-- A channel's mode is none of the fields that an edge changes. -/
theorem Dev.AdcOnly.edge_mode {x : Dev} (h : d.AdcOnly edgeFields x) (k : Nat) (hn : n < 16) :
    x.rf R.ADC_CHn_CTL_MODE k n = d.rf R.ADC_CHn_CTL_MODE k n := h.field _ k n 0 (F.inBank_ch (by decide) hn 0) (by decide)

/-- A channel that an edge does not concern is left. -/
theorem Dev.adcCh_bankEdge_other (hn : n < 16) (h : d.rf R.ADC_CHn_CTL_MODE k n ≠ 2) (fresh : Bool) :
    (d.bankEdge fresh k).adcCh k n = d.adcCh k n := by
  refine (foldl_keeps (fun y : Dev => d.AdcOnly edgeFields y ∧ y.adcCh k n = d.adcCh k n) _ _ d ⟨.refl .., rfl⟩ fun y m hm hy => ?_).2
  obtain ⟨hframe, hch⟩ := hy
  have hstep := Dev.bankOnly_chEdge (Dev.mem_chsOn.1 hm).1 fresh k y
  refine ⟨hframe.trans hstep.toAdcOnly, ?_⟩
  by_cases hmn : m = n
  · subst hmn
    rw [Dev.chEdge_other ((hframe.edge_mode k hn).trans_ne h), hch]
  · rw [hstep.ch n (by simpa using Ne.symm hmn), hch]

theorem Dev.adcCh_mainsWindows_other (hn : n < 16) (h : d.rf R.ADC_CHn_CTL_MODE k n ≠ 2) (fresh : Bool) :
    (d.mainsWindows fresh).adcCh k n = d.adcCh k n := by
  rw [Dev.mainsWindows_eq]
  refine (foldl_keeps (fun y : Dev => d.AdcOnly edgeFields y ∧ y.adcCh k n = d.adcCh k n) _ _ d ⟨.refl .., rfl⟩ fun y c _ hy => ?_).2
  obtain ⟨hframe, hch⟩ := hy
  have hstep := Dev.bankOnly_bankEdge fresh c y
  refine ⟨hframe.trans hstep.toAdcOnly, ?_⟩
  by_cases hc : c = k
  · subst hc
    rw [Dev.adcCh_bankEdge_other hn ((hframe.edge_mode c hn).trans_ne h), hch]
  · rw [← hch, Dev.adcCh, hstep.bank k (Ne.symm hc), Dev.adcCh]

/-- The channel's window begins at this tick, with no edge counted. -/
def AdcCh.Begins (c : AdcCh) (now : Nat) : Prop := c.opened = some now ∧ c.edges = 0

theorem Dev.chEdge_begins (h : d.rf R.ADC_CHn_CTL_MODE k n = 2) (hlock : d.mains.lock = true) :
    ((d.chEdge true k n).adcCh k n).Begins d.time.cnt := by
  have hx : d.chEdge true k n = _ := (if_neg (not_or.2 ⟨not_not.2 h, by rw [hlock]; decide⟩)).trans (if_pos (.inl rfl))
  rw [hx, Dev.adcCh_setCh_self, (Dev.bankOnly_chClose k n d).time]
  exact ⟨rfl, rfl⟩

/-- A fresh lock begins the windows of an enabled MAINS channel of the bank. -/
theorem Dev.adcCh_bankEdge_begins (hn : n < 16) (hon : d.chOn k n = true) (h : d.rf R.ADC_CHn_CTL_MODE k n = 2) (hlock : d.mains.lock = true) :
    ((d.bankEdge true k).adcCh k n).Begins d.time.cnt := by
  have hset (y : Dev) (hy : d.AdcOnly edgeFields y) : ((y.chEdge true k n).adcCh k n).Begins d.time.cnt := by
    rw [← hy.time]
    exact Dev.chEdge_begins ((hy.edge_mode k hn).trans h) (hy.mains ▸ hlock)
  refine foldl_sets (d.AdcOnly edgeFields) (fun y : Dev => (y.adcCh k n).Begins d.time.cnt) _ (Dev.mem_chsOn.2 ⟨hn, hon⟩) (.refl ..)
    (fun y m hm hy => hy.trans (Dev.bankOnly_chEdge (Dev.mem_chsOn.1 hm).1 true k y).toAdcOnly) hset fun y m hm hy hp => ?_
  by_cases hmn : m = n
  · rw [hmn]
    exact hset y hy
  · rw [(Dev.bankOnly_chEdge (Dev.mem_chsOn.1 hm).1 true k y).ch n (by simpa using Ne.symm hmn)]
    exact hp

theorem Dev.adcCh_mainsWindows_begins (hk : k < d.nBanks) (hn : n < 16) (hon : d.chOn k n = true) (h : d.rf R.ADC_CHn_CTL_MODE k n = 2)
    (hlock : d.mains.lock = true) : ((d.mainsWindows true).adcCh k n).Begins d.time.cnt := by
  have hset (y : Dev) (hy : d.AdcOnly edgeFields y) : ((y.bankEdge true k).adcCh k n).Begins d.time.cnt := by
    rw [← hy.time]
    exact Dev.adcCh_bankEdge_begins hn ((hy.chOn (by decide) k hn).trans hon) ((hy.edge_mode k hn).trans h) (hy.mains ▸ hlock)
  rw [Dev.mainsWindows_eq]
  refine foldl_sets (d.AdcOnly edgeFields) (fun y : Dev => (y.adcCh k n).Begins d.time.cnt) _ (List.mem_range.2 hk) (.refl ..)
    (fun y c _ hy => hy.trans (Dev.bankOnly_bankEdge true c y).toAdcOnly) hset fun y c _ hy hp => ?_
  by_cases hc : c = k
  · rw [hc]
    exact hset y hy
  · rw [Dev.adcCh, (Dev.bankOnly_bankEdge true c y).bank k (Ne.symm hc)]
    exact hp

/-! ### MAINS_EDGE -/

/-- The edge of an accepted period, which is near the one before or not. -/
def Dev.edgeTaken (d : Dev) (p : Nat) (near : Bool) : Dev :=
  let x := (d.withMains { edge := some d.time.cnt, prev := some p, period := p, lock := d.mains.lock || near }).mainsShow
  (if near && !d.mains.lock then x.raise Ev.MAINS_LOCK 0 [] else x).mainsWindows (near && !d.mains.lock)

/-- The lock after an accepted period near the one before. -/
def Dev.lockState (d : Dev) (p : Nat) : MainsSt := { edge := some d.time.cnt, prev := some p, period := p, lock := true }

/-- The edge of an accepted period near the one before, up to the windows of the channels. -/
def Dev.mainsLocks (d : Dev) (p : Nat) : Dev :=
  if !d.mains.lock then (d.withMains (d.lockState p)).mainsShow.raise Ev.MAINS_LOCK 0 [] else (d.withMains (d.lockState p)).mainsShow

theorem Dev.edgeTaken_near (d : Dev) (p : Nat) : d.edgeTaken p true = (d.mainsLocks p).mainsWindows (!d.mains.lock) := by
  unfold Dev.edgeTaken
  rw [Bool.or_true]
  rfl

section Edge

variable {e : Nat} (hedge : d.mains.edge = some e) (hcnt : d.time.cnt = e + p)
include hedge hcnt

theorem Dev.mainsEdge_accepted {q : Nat} (hlo : 7500000 ≤ p) (hhi : p ≤ 11250000) (hprev : d.mains.prev = some q) :
    d.mainsEdge = d.edgeTaken p (decide (100 * ((p : Int) - q).natAbs < q)) := by
  have hok : periodOk p = true := by simp [periodOk, hlo, hhi]
  unfold Dev.mainsEdge
  dsimp only
  rw [hedge]
  dsimp only
  rw [hcnt, Nat.add_sub_cancel_left, if_pos hok, hprev]
  unfold Dev.edgeTaken
  rw [hcnt]
  rfl

theorem Dev.mainsEdge_outside (hp : p < 7500000 ∨ 11250000 < p) :
    d.mainsEdge = (d.withMains { d.mains with edge := some d.time.cnt, prev := none }).mainsLose := by
  have hok : ¬ periodOk p = true := by simp [periodOk]; omega
  unfold Dev.mainsEdge
  dsimp only
  rw [hedge]
  dsimp only
  rw [hcnt, Nat.add_sub_cancel_left, if_neg hok]
  rfl

end Edge

theorem Dev.adcOnly_mainsLocks (p : Nat) (d : Dev) : (d.withMains (d.lockState p)).AdcOnly lockFields (d.mainsLocks p) := by
  have hshow := Dev.adcOnly_mainsShow (d.withMains (d.lockState p))
  unfold Dev.mainsLocks
  split
  · exact hshow.trans (.raise ..)
  · exact hshow

theorem Dev.mainsLocks_adc (p : Nat) (d : Dev) : (d.mainsLocks p).adc = d.adc := by
  have hshow : (d.withMains (d.lockState p)).mainsShow.adc = d.adc := congrArg Prod.fst (Dev.mainsShow_leaves (d.withMains (d.lockState p)))
  unfold Dev.mainsLocks
  split
  · rw [Dev.raise_adc, hshow]
  · exact hshow

theorem Dev.mainsLocks_shows (hk : k < d.nBanks) (p : Nat) : (d.mainsLocks p).ShowsLock k (d.lockState p) := by
  have hshow : (d.withMains (d.lockState p)).mainsShow.ShowsLock k (d.lockState p) := Dev.mainsShow_shows (d := d.withMains (d.lockState p)) hk
  have hbank {f : F} (hf : f.OfBank) := F.inBank_bank hf 0 0
  unfold Dev.mainsLocks
  split
  · unfold Dev.ShowsLock
    rw [Dev.rf_raise_inBank (hbank (by decide)), Dev.rf_raise_inBank (hbank (by decide))]
    exact hshow
  · exact hshow

theorem Dev.mainsLocks_windows (hk : k < d.nBanks) (hp : p ≤ 11250000) (fresh : Bool) : let x := (d.mainsLocks p).mainsWindows fresh
    x.mains = d.lockState p ∧ x.rf R.ADC_MAINS_MLOCK k = 1 ∧ x.rf R.ADC_MAINS_PERIOD k = p ∧
      (∀ n, n < 16 → d.rf R.ADC_CHn_CTL_MODE k n ≠ 2 → x.adcCh k n = d.adcCh k n) ∧
      (fresh = true → ∀ n, n < 16 → d.chOn k n = true → d.rf R.ADC_CHn_CTL_MODE k n = 2 → (x.adcCh k n).Begins d.time.cnt) := by
  have hfirst := d.adcOnly_mainsLocks p
  obtain ⟨hlock, hperiod⟩ := Dev.mainsLocks_shows hk p
  have hch := congrArg (fun b : AdcBank => fun n => Tbl.getD ({} : AdcCh) b.chs n) (Dev.bank_of_adc (d.mainsLocks_adc p) k)
  have hmode {n : Nat} (hn : n < 16) : (d.mainsLocks p).rf R.ADC_CHn_CTL_MODE k n = d.rf R.ADC_CHn_CTL_MODE k n :=
    hfirst.field _ k n 0 (F.inBank_ch (by decide) hn 0) (by decide)
  have hbank {f : F} (hf : f.OfBank) := F.inBank_bank hf 0 0
  generalize d.mainsLocks p = y at hfirst hlock hperiod hch hmode
  have hwin := Dev.adcOnly_mainsWindows fresh y
  have hmains : y.mains = d.lockState p := hfirst.mains
  have htime : y.time = d.time := hfirst.time
  have hky : k < y.nBanks := by
    unfold Dev.nBanks Dev.byVariant
    rw [hfirst.variant]
    exact hk
  dsimp only
  rw [hwin.mains, hwin.field _ k 0 0 (hbank (by decide)) (by decide), hwin.field _ k 0 0 (hbank (by decide)) (by decide)]
  refine ⟨hmains, hlock, hperiod.trans (Nat.mod_eq_of_lt (by change p < 2 ^ 24; omega)), fun n hn hne => ?_, fun hfresh n hn hon hmode2 => ?_⟩
  · rw [Dev.adcCh_mainsWindows_other hn ((hmode hn).trans_ne hne)]
    exact congrFun hch n
  · rw [hfresh, ← htime]
    exact Dev.adcCh_mainsWindows_begins hky hn ((hfirst.chOn (by decide) k hn).trans hon) ((hmode hn).trans hmode2) (hmains ▸ rfl)

end Sys2Proof.Machine
end

section
/-!
SUPPORT. Windows of the converters and the mains lock: the statement.
-/
open Sys2Proof Sys2Proof.Machine

/-- Settles O41: what the oldest closed window delivers (`Dev.windowDeliver_single`), a window's close by its length (`Dev.windowClose_due`), its word in the
rim (`Dev.samplePresent_shows`), and the mains lock taken (`Dev.mainsLocks_windows`) and lost (`Dev.mainsLose_loses`). -/
theorem converterWindows : Obligations.ConverterWindows := by
  unfold Obligations.ConverterWindows
  refine ⟨fun s k n m hk hn hon => ?windows, fun s e p q k hk hedge hcnt => ?mains⟩
  case windows =>
    intro c others len
    have hok : s.dev.adcOk k n = true := by simp [Dev.adcOk, hk, hn]
    have close {P : Dev → Prop} (hp : P (s.dev.windowClose k n m)) : Does (.adcWindowClose k n m) s P :=
      does_guarded (f := Dev.when_ (s.dev.chOn k n) (Dev.windowClose k n m)) rfl hok (by rw [hon]; exact hp)
    have hothers {l : List F} {x : Dev} (h : s.dev.BankOnly l k [n] x) : others x := ⟨h.bank, fun j _ => by rw [h.rimIn]⟩
    refine ⟨fun w rest hshut hone hconv hmeas hpair hskip => ?delivers, fun t0 hshut hmode hopen =>
      ⟨fun hdue _ hpass hpair hpend => ?due, fun hlt => ?early⟩, fun hwaits => ?presents⟩
    case delivers =>
      obtain ⟨hres, hvalid, hstat, hovr, hovrs, hsettle⟩ := Dev.windowDeliver_single hn hshut hpair hone hconv hmeas hskip m
      obtain ⟨b, hch⟩ := Dev.adcCh_windowDeliver hn hshut hpair m
      have hclose : s.dev.windowClose k n m = s.dev.windowDeliver k n m := by
        unfold Dev.windowClose
        rw [show (s.dev.adcCh k n).shut = w :: rest from hshut, if_neg (by simp)]
      refine close ?_
      rw [hclose]
      exact ⟨hothers (Dev.bankOnly_windowDeliver hn hshut hpair m), hres, hvalid, hstat, hovr, hovrs, hsettle, by rw [hch]; rfl, by rw [hch], by rw [hch]; rfl,
        by rw [hch]⟩
    case due =>
      obtain ⟨hframe, hshows⟩ := Dev.windowClose_due hn hshut hmode hopen rfl hdue hpass hpair hpend m
      exact close ⟨hothers hframe, hshows⟩
    case early => exact close (Dev.windowClose_early hshut hmode hopen hlt m)
    case presents =>
      obtain ⟨hbank, hrim, hshows⟩ := Dev.samplePresent_shows (k := k) hn s.dev
      refine does_guarded (f := Dev.when_ (s.dev.chOn k n && (s.dev.adcCh k n).waits) (Dev.samplePresent k n)) rfl hok ?_
      rw [hon, show (s.dev.adcCh k n).waits = true from hwaits]
      exact ⟨⟨hbank, hrim⟩, hshows⟩
  case mains =>
    have edge {P : Dev → Prop} (hp : P s.dev.mainsEdge) : Does .mainsEdge s P := by
      refine does_on (f := Dev.when_ (s.dev.nBanks ≠ 0) Dev.mainsEdge) rfl ?_
      rw [decide_eq_true (Nat.ne_zero_of_lt hk)]
      exact hp
    refine ⟨fun hlo hhi hprev hnear => ?locks, fun hp hlock => ?outside, fun hp hlock => ?timeout⟩
    case locks =>
      obtain ⟨hmains, hmlock, hperiod, hother, hbegins⟩ := Dev.mainsLocks_windows hk hhi (!s.dev.mains.lock)
      refine edge ?_
      rw [Dev.mainsEdge_accepted hedge hcnt hlo hhi hprev, decide_eq_true hnear, Dev.edgeTaken_near]
      exact ⟨hmains, hmlock, hperiod, hother, fun n hn hfree hon hmode => hbegins (by rw [hfree]; rfl) n hn hon hmode⟩
    case outside =>
      obtain ⟨hmains, hmlock, hmlost, hraise⟩ :=
        Dev.mainsLose_loses (d := s.dev.withMains { s.dev.mains with edge := some s.dev.time.cnt, prev := none }) hlock hk
      refine edge ?_
      rw [Dev.mainsEdge_outside hedge hcnt hp]
      exact ⟨congrArg MainsSt.lock hmains, congrArg MainsSt.edge hmains, congrArg MainsSt.prev hmains, hmlock, hmlost, hraise⟩
    case timeout =>
      obtain ⟨hmains, hmlock, hmlost, hraise⟩ := Dev.mainsLose_loses (d := s.dev.withMains { s.dev.mains with edge := none, prev := none }) hlock hk
      have hdue : s.dev.mains.edge.any (fun e => decide (e + 12500000 ≤ s.dev.time.cnt)) = true := by
        rw [hedge, Option.any_some, decide_eq_true (by omega)]
      refine does_on (f := Dev.when_ (s.dev.mains.edge.any fun e => decide (e + 12500000 ≤ s.dev.time.cnt)) fun d =>
        ({ d with mains := { d.mains with edge := none, prev := none } } : Dev).mainsLose) rfl ?_
      rw [hdue]
      exact ⟨congrArg MainsSt.lock hmains, congrArg MainsSt.edge hmains, hmlock, hmlost, hraise⟩
end
